-- ==== Sys2Proof/Word.lean ====
section
/-! DEFINITION. The word types of the model. -/
namespace Sys2Proof

/-- One byte of a memory, of a register window or of a message. -/
abbrev Byte := BitVec 8

/-- A 32-bit word: a binary32 value, a lane, a descriptor. -/
abbrev W32 := BitVec 32

/-- A 64-bit word: a scalar register, an instruction word, a register of the map. -/
abbrev W64 := BitVec 64

end Sys2Proof
end

