-- ==== Sys2Proof/CmdTypes.lean ====
section
/-! DEFINITION. What commands carry in from outside the device: operations of the global tree, ECC sites, and the like. -/
namespace Sys2Proof

/-- An instance of a GSYNC ordinal (R210): in the prologue or in a step, with its ordinal. -/
structure GInst where
  pro : Bool
  step : Nat
  ord : Nat
deriving DecidableEq, Repr

/-- Operations at named frames (R49); PAUSE and RESUME travel the same tree (R50, R223, R556). -/
inductive GlobOp where
  | barrier (i : GInst)
  | broadcast (i : GInst) (payload : List Byte)
  | snapshot
  | reset
  | pause
  | resume
deriving DecidableEq, Repr

/-- Where a check-bit error is found (R72, R138, R181): sheet store by byte address, program store by entry, scalar registers, tile
registers, accumulators. -/
inductive EccSite where
  | sheet (addr : Nat)
  | prog (entry : Nat)
  | scalar
  | treg
  | acc
deriving DecidableEq, Repr

/-- A burst on a memory channel (R33, R34, R268): the 64-byte word that it addresses, and the slot of the channel's table in which it is served. -/
structure Burst where
  word : Nat
  slot : Nat
deriving DecidableEq, Repr

/-- What ECC decoding finds in a memory word (R273, R278): nothing, a corrected bit, an error that the stack corrected itself, an uncorrectable
error. -/
inductive EccRead where
  | clean
  | corrected (bit : Nat)
  | inStack
  | bad
deriving DecidableEq, Repr

/-- What a hardware unit reports as an error (R587). -/
structure ErrIn where
  cause : Nat
  prov : Nat
  die : Nat
  unit : Nat
  addr : Nat
  bit : Nat
  aux : Nat
  detail0 : Nat
  detail1 : Nat
deriving DecidableEq, Repr

/-- A firmware image (R544, R575): its digest, version and SVN, and whether its Tamtur signature verifies. -/
structure FwImage where
  digest : List Byte
  version : Nat
  svn : Nat
  sigOk : Bool
deriving DecidableEq, Repr

/-- Tables of the TABLES partition (R536): Legend image, Contour tables, Itinerary tables, province templates, fabric settings, operator CA list,
revocation list. -/
inductive TableKind where
  | legend | contour | itinerary | templates | fabric | caList | revocations
deriving DecidableEq, Repr

/-- Where a chain or a signature ends (R544, R579): nowhere good, at the fused owner root (directly or through an operator CA of the list), at a fused Tamtur root. -/
inductive ChainEnd where
  | bad | owner | tamtur
deriving DecidableEq, Repr

/-- A table image and the root against which its signature verifies (R544, R582). -/
structure TableImg where
  kind : TableKind
  bytes : List Byte
  signer : ChainEnd
deriving DecidableEq, Repr

/-- A Basfin cartridge as the device finds it (R536–R544): which one it is, whether its certificate chains to a fused Tamtur root and to which, whether it is a
production cartridge, the DEVID its pairing record names and whether that record verifies, its firmware slots, the active slot, its tables, whether REPAIR holds a valid
shut-down test record, the erase counts of its blocks by block number (R541), whether spare blocks are left, the records of its imprint log,
oldest first, the device's identity certificate in DIR (R547), the update state in STATE (`STW_STATUS.FW_UPDATE`, R540), whether the repair map verifies (R544), and the first records of the
imprint log and of ERRLOG whose page fails its check (R540). -/
structure Cartridge where
  id : Nat
  certOk : Bool
  root : Nat
  production : Bool
  paired : Option Nat
  pairSig : Bool
  fwA : Option FwImage
  fwB : Option FwImage
  slotB : Bool
  tables : List TableImg
  testRecord : Bool
  erases : List (Nat × Nat)
  spares : Bool
  imprints : List (List Byte)
  devCert : List Byte := []
  update : Nat := 0
  repairOk : Bool := true
  badImprint : Option Nat := none
  badErr : Option Nat := none
deriving DecidableEq, Repr

/-- A message between RDE slices (R412): the header's fields and the payload. KIND 0 data, 1 check records, 2 verdict record,
3 acknowledgement. -/
structure SegMsg where
  kind : Nat
  ord : Nat
  seg : Nat
  repoch : Nat
  step : Nat
  sframe : Nat
  nfstep : Bool := false
  nf : Bool := false
  last : Bool := false
  patch : Bool := false
  nfc : Nat := 0
  payload : List Byte := []
deriving DecidableEq, Repr

/-- An entry of a rank table (R419): RANK (none in a spare entry), STATE (0 ACTIVE, 1 LOST, 2 SPARE), ENCAP, ADDR and DEVID. -/
structure RankEnt where
  rank : Option Nat
  state : Nat
  encap : Nat
  addr : List Byte
  devid : Nat
deriving DecidableEq, Repr

/-- What a steward tells the others for a stand-in (R432): the step after its mirror's, when that is valid, and the latest step that it has VERIFIED or COMMITTED. -/
structure RankReport where
  mirror : Option Nat
  past : Option Nat
deriving DecidableEq, Repr

/-- What an Ndeyx packet carries (R479, R481, R483, R489, R496): an RDE message; the messages of R49–R51, and the root's word that a cut is complete (R50, R568); an ACK; a keep-alive; a control message, LINKUP with its limit of
unacknowledged packets; a handshake message, with the control link's DLID at its sender and what its checks find; a steward's messages for a stand-in (R432, R433). -/
inductive NdxBody where
  | seg (m : SegMsg)
  | request (op : GlobOp)
  | announce (op : GlobOp) (frame : Nat)
  | late (op : GlobOp) (frame : Nat)
  | cut (frame : Nat) (late : Bool)
  | cutOver (frame : Nat)
  | ack (cum sack ce stream : Nat)
  | keepalive
  | linkup (tag dlid limit : Nat)
  | close
  | rekeyReq
  | keyUpd (gen : Nat)
  | keyUpdAck (gen : Nat)
  | lowerReq (port : Nat)
  | lowerAck (port : Nat)
  | other (code : Nat)
  | hello (verMin verMax dlid : Nat) (chainOk : Bool)
  | reply (ver dlid : Nat) (chainOk sigOk : Bool)
  | finish (sigOk : Bool)
  | forward (tag rank : Nat) (op : GlobOp)
  | acted (tag rank : Nat) (op : GlobOp)
  | done (tag : Nat) (op : GlobOp) (status : Nat)
  | standin (tag rank devid epoch : Nat)
  | report (r : RankReport)
  | mirror (cells : List (Nat × Byte))
deriving DecidableEq, Repr

/-- The TYPE of a packet (R479). -/
def NdxBody.type : NdxBody → Nat
  | .ack _ _ _ _ => 2
  | .keepalive => 3
  | .linkup _ _ _ | .close | .rekeyReq | .keyUpd _ | .keyUpdAck _ | .lowerReq _ | .lowerAck _ | .other _ => 4
  | .hello _ _ _ _ | .reply _ _ _ _ | .finish _ => 0
  | _ => 1

/-- An Ndeyx packet as it arrives (R479): header fields, the CE mark of its IP header, whether its tag verifies under the key of KPHASE, and the payload. `devid` is the sender of a
handshake packet as its chain names it; `room` says that the steward's buffer has room for an out-of-order packet of a control link (R482). -/
structure NdxPkt where
  ver : Nat
  type : Nat
  kphase : Bool
  ackreq : Bool
  mer : Nat
  stream : Nat
  path : Nat
  srank : Nat
  drank : Nat
  dlid : Nat
  pn : Nat
  psn : Nat
  epoch : Nat
  ce : Bool
  tagOk : Bool
  devid : Nat
  room : Bool
  body : NdxBody
deriving DecidableEq, Repr

/-- A received Ethernet frame (R442, R444): length, FCS, PCS error mark, destination, tags (TCI), EtherType, whether it came out of MACsec decryption, its
MACsec packet number, its UDP destination port, whether it is ARP, an ICMP echo or neighbour discovery, whether R477 refuses it, the province whose buffer part an Ndeyx frame takes,
a MAC control frame's enables and quanta (PFC when `pfc`), the address that ARP or neighbour discovery asks for, and the address and MAC address that one of them answers with. -/
structure EthFrame where
  len : Nat
  fcsOk : Bool
  pcs : Bool
  dst : Nat
  tags : List Nat
  etype : Nat
  macsec : Bool
  udp : Option Nat
  stew : Bool
  refused : Bool
  prov : Nat
  pfc : Bool
  enables : Nat
  quanta : List Nat
  ask : Option Nat := none
  answer : Option (Nat × Nat) := none
  mpn : Nat := 0
deriving DecidableEq, Repr

/-- What a port starts to send (R33, R446, R475, R481): a packet of a link's stream, an ACK or keep-alive, a handshake packet, a frame of the steward, an EAPOL frame (R498), a PTP frame. -/
inductive TxWhat where
  | pkt (prov peer stream psn : Nat)
  | ack (prov peer stream : Nat)
  | handshake (devid : Nat)
  | steward
  | eapol
  | ptp
deriving DecidableEq, Repr

/-- A peer with which MKA has agreed (R498): its key-server priority and SCI, and whether it distributes a new SAK. -/
structure MkaPeer where
  pri : Nat
  sci : Nat
  newSak : Bool
deriving DecidableEq, Repr

/-- What a module's monitors read (R467), beside the temperature: supply voltage; bias, transmit and receive power by lane; the laser-age observables where the module advertises them. -/
structure ModuleMon where
  volt : Nat
  bias : List Nat
  tx : List Nat
  rx : List Nat
  age : Option (List Nat) := none
deriving DecidableEq, Repr

/-- The identity that the steward reads from a module (R466): serial number, CMIS revision major, its application advertisements (lanes, and Gb/s of a lane), power class; identifier, vendor
name and OUI, part number and revision, date code, media type. -/
structure ModuleId where
  serial : Nat
  cmis : Nat
  apps : List (Nat × Nat)
  power : Nat
  ident : Nat := 0
  vendor : List Byte := []
  oui : Nat := 0
  part : List Byte := []
  rev : List Byte := []
  date : List Byte := []
  media : Nat := 0
deriving DecidableEq, Repr

/-- What the steward takes from the fabric settings (R438, R465, R471, R498, R678): lane modes by die and quarter, the base MAC address, the base IPv6 and IPv4 addresses of Ndeyx-U, DSCP by priority (R477),
epoch, base frame and period, cages (first lane, power class), ports with a CAK, the power profile (R626), whether an inlet sensor is named (R630), the number of regulators
(R646), the TSP port, the rate, the MAC address and the static IP addresses of the management port, none where DHCP gives them (R578), and each port's next hop of Ndeyx-U (R477). -/
structure Fabric where
  laneModes : List Nat
  mac : Nat
  ip6 : Option Nat
  epoch : Nat
  base : Nat
  period : Nat
  cages : List (Nat × Nat)
  caks : List Nat
  profile : Nat
  inlet : Bool
  regulators : Nat
  tcp : Nat
  tenG : Bool
  ip4 : Option Nat := none
  dscp : List Nat := []
  mgmtMac : Nat := 0
  mgmtIp : List Nat := []
  hops : List (Nat × Nat) := []
deriving DecidableEq, Repr

/-- A device request that the host refuses or does not answer (R512): a descriptor fetch of a hand, a request of a command, a request of the chain of a bulk
courier. -/
inductive HostReq where
  | fetch (hand : Nat)
  | cmd (hand seq : Nat)
  | chain (bulk : Nat)
deriving DecidableEq, Repr

/-- Who accesses a register (R26, R613, R670): steward firmware by DPA, a function by an offset of its BAR0. -/
inductive Master where
  | steward
  | fn (n : Nat)
deriving DecidableEq, Repr

/-- Instructions of the TAP (R659); `bist` runs a self-test program (R548, R595) on units or ports, with what it finds. -/
inductive TapInsn where
  | bypass | idcode | sample | extest | clamp
  | bist (program : Nat) (units : List (Nat × Nat)) (ports : List Nat) (found : List ErrIn)
  | other (code : Nat)
deriving DecidableEq, Repr

/-- What PROV_SET sets (R551, R554): allocation units on a die, channels on a die, bulk couriers, Talons, a Legend entry given by its descriptor or by its index in the
Legend image (0xFF: none), or the fields of a register of the province's block at an offset. -/
inductive ProvSet where
  | units (die n : Nat)
  | chans (die n : Nat)
  | bulks (n : Nat)
  | talons (n : Nat)
  | legend (entry word : Nat)
  | legendAt (entry idx : Nat)
  | reg (off value : Nat)
deriving DecidableEq, Repr

/-- What MER_SET sets (R582): a register of the Meridian's block at an offset, with ARM of `MER_TICK_PERIOD` apart; BMCA priorities 1 and 2; the clock class. -/
inductive MerSet where
  | reg (off value : Nat)
  | arm
  | prio1 (v : Nat)
  | prio2 (v : Nat)
  | clockClass (v : Nat)
deriving DecidableEq, Repr

/-- What a TSP client offers (R579): the TLS version, cipher suite, group and signature scheme by their code points, and where its certificate chain ends. -/
structure TlsClient where
  version : Nat
  suite : Nat
  group : Nat
  scheme : Nat
  chain : ChainEnd
deriving DecidableEq, Repr

/-- What LOG_READ reads (R582): the error log, the step log of a province, module records; from a record on, so many. -/
inductive LogSel where
  | errors (from_ n : Nat)
  | steps (prov from_ n : Nat)
  | modules (from_ n : Nat)
deriving DecidableEq, Repr

/-- The token of a life-cycle transition (R547): the state it leads to (1 MANUFACTURE, 2 PROVISIONED, 4 RETURNED, 5 SCRAPPED), whose signature verifies on it, and whether it names this
device's DEVID. -/
structure LifeToken where
  target : Nat
  owner : Bool
  tamtur : Bool
  named : Bool
deriving DecidableEq, Repr

/-- Frames of the management port (R578); `lease` is an address that DHCPv4 or DHCPv6 gives. -/
inductive MgmtFrame where
  | arp | neighbour | echo | ptp
  | lease (addr : Nat)
  | tcp (port : Nat)
  | other
deriving DecidableEq, Repr

end Sys2Proof
end

