-- ==== Sys2Proof/Syntax.lean ====
section
/-! DEFINITION. The commands of the K1: one constructor per row of the spec's table of operations and events, in the table's order. The
operands name the unit the command acts on and carry what comes from outside the device with it. -/
namespace Sys2Proof

/-- A command (one row of the table each; the docstring is the row's summary and rule). -/
inductive Instr where
  /-- FRAME_BOUNDARY: The Meridian reaches a frame boundary and MER_FRAME_NUM advances by one. (R28) -/
  | frameBoundary (held : Nat) (left : Nat)
  /-- MER_TICK_PERIOD_ARM: Steward firmware sets MER_TICK_PERIOD.ARM to arm a period switch at frame MER_SWITCH_FRAME. (R31) -/
  | merTickPeriodArm
  /-- PTP_SYNC_RECEIVED: A PTP Sync message is received and the offset e is evaluated, driving the Meridian state machine. (R41) -/
  | ptpSyncReceived (e : Int) (t : Nat)
  /-- SYNC_LOSS_TIMEOUT: No valid Sync arrives for 3 s and the Meridian enters HOLDOVER. (R41) -/
  | syncLossTimeout
  /-- HOLDOVER_LIMIT: The holdover error estimate or time exceeds its limit and the Meridian enters FREE, raising DEFERRED when a multi-rank province exists. (R41) -/
  | holdoverLimit
  /-- PPS_IN_EDGE: An edge on PPS_IN is accepted as phase reference or rejected with PPS_FAULT. (R46) -/
  | ppsInEdge (falling : Bool) (dt : Nat) (e : Int)
  /-- PPS_OUT_PULSE: PPS_OUT rises at a whole second or at a frame-marker frame and falls after its width. (R47) -/
  | ppsOutPulse (rise : Bool)
  /-- GLOBAL_REQUEST_ARRIVE: A global-operation request arrives at a tree node from a child and is passed up when node and children have arrived. (R48) -/
  | globalRequestArrive (prov : Nat) (child : Nat) (op : GlobOp)
  /-- ANNOUNCEMENT_RECEIVED: A rank receives the announcement of frame F and forwards it to its children. (R49) -/
  | announcementReceived (prov : Nat) (op : GlobOp) (frame : Nat)
  /-- SNAPSHOT_CUT_REPORT: A rank's report that its cut is done travels up the tree; the snapshot completes when the root has every report. (R50) -/
  | snapshotCutReport (prov : Nat) (child : Nat) (late : Bool)
  /-- MER_GLOB_LATE_READ: A read of the RC field MER_GLOB_CTRL.LATE returns the count and clears it. (R4) -/
  | merGlobLateRead (who : Master)
  /-- HALF_READ_LATCH: A 32-bit read of the low half of a 64-bit register latches the high half for the next read. (R670) -/
  | halfReadLatch (fn : Nat) (off : Nat)
  /-- REGISTER_WRITE: A write to a register without behaviour of its own is applied by its access codes, reserved bits ignored. (R4) -/
  | registerWrite (who : Master) (addr : Nat) (n : Nat) (value : Nat)
  /-- MXM: A seat issues an MXM multiply-accumulate, checked at issue and queued. (R74) -/
  | mxm (tile : Nat) (seat : Nat)
  /-- MXD: A seat issues an MXD drain, checked at issue and queued. (R76) -/
  | mxd (tile : Nat) (seat : Nat)
  /-- MXL: A seat issues an MXL load into an accumulator bank. (R77) -/
  | mxl (tile : Nat) (seat : Nat)
  /-- MXZ: A seat issues an MXZ that zeroes and claims a bank. (R77) -/
  | mxz (tile : Nat) (seat : Nat)
  /-- ARRAY_COMMAND_START: An array command reaches the head of the array queue and begins once its bank conditions hold. (R79) -/
  | arrayCommandStart (tile : Nat)
  /-- MXM_COMPLETE: An MXM's last slice is rounded into its bank and ARRDONE counts it. (R79) -/
  | mxmComplete (tile : Nat)
  /-- DRAIN_FENCE_END: The drain fence ends and a held MXD, MXZ or MXL may act on its bank. (R82) -/
  | drainFenceEnd (tile : Nat)
  /-- MXD_COMPLETE: An MXD makes its last write, the bank becomes FREE or stays claimed, and ARRDONE counts it. (R79) -/
  | mxdComplete (tile : Nat)
  /-- BANK_READY: An MXL or MXZ has its bank ready and ARRDONE counts it. (R79) -/
  | bankReady (tile : Nat)
  /-- SHEET_STORE_ECC_ERROR: A sheet-store read finds a SECDED error, corrected or uncorrectable. (R72) -/
  | sheetStoreEccError (tile : Nat) (site : EccSite) (corrected : Bool) (bit : Nat)
  /-- VOP: A seat issues an element-wise vector operation. (R149) -/
  | vop (tile : Nat) (seat : Nat)
  /-- VRED: A seat issues a region reduction. (R156) -/
  | vred (tile : Nat) (seat : Nat)
  /-- VSMX: A seat issues a row softmax. (R161) -/
  | vsmx (tile : Nat) (seat : Nat)
  /-- VSMG: A seat issues a softmax merge. (R162) -/
  | vsmg (tile : Nat) (seat : Nat)
  /-- VEP: A seat launches an element program. (R164) -/
  | vep (tile : Nat) (seat : Nat)
  /-- VQL: A seat issues a quad load from sheet store to tile registers. (R171) -/
  | vql (tile : Nat) (seat : Nat)
  /-- VQS: A seat issues a quad store from tile registers to the sheet store. (R171) -/
  | vqs (tile : Nat) (seat : Nat)
  /-- VECTOR_INSTRUCTION_DONE: A queued vector instruction makes its last write and VECDONE counts it. (R175) -/
  | vectorInstructionDone (tile : Nat)
  /-- OPR: A seat issues a register-register scalar integer operation. (R192) -/
  | opr (tile : Nat) (seat : Nat)
  /-- OPI: A seat issues a register-immediate scalar integer operation. (R192) -/
  | opi (tile : Nat) (seat : Nat)
  /-- LIH: A seat loads the high 16 bits of a register. (R191) -/
  | lih (tile : Nat) (seat : Nat)
  /-- LI: A seat loads a 48-bit sign-extended immediate. (R191) -/
  | li (tile : Nat) (seat : Nat)
  /-- FOP: A seat issues a scalar binary32 operation. (R193) -/
  | fop (tile : Nat) (seat : Nat)
  /-- LD: A seat issues a sheet-store load to a scalar register. (R194) -/
  | ld (tile : Nat) (seat : Nat)
  /-- LD_COMPLETE: A load's data is written to its destination register. (R196) -/
  | ldComplete (tile : Nat)
  /-- ST: A seat issues a scalar store to the sheet store. (R194) -/
  | st (tile : Nat) (seat : Nat)
  /-- CSR_READ: A seat reads a control and status register of its tile. (R201) -/
  | csrRead (tile : Nat) (seat : Nat)
  /-- CSR_WRITE: A seat writes a control and status register of its tile. (R201) -/
  | csrWrite (tile : Nat) (seat : Nat)
  /-- CSR_SET: A seat sets bits of a control and status register. (R201) -/
  | csrSet (tile : Nat) (seat : Nat)
  /-- CSR_CLEAR: A seat clears bits of a control and status register. (R201) -/
  | csrClear (tile : Nat) (seat : Nat)
  /-- GET: A seat reads one value of the trick context. (R199) -/
  | get (tile : Nat) (seat : Nat)
  /-- BR: A seat issues a conditional branch. (R197) -/
  | br (tile : Nat) (seat : Nat)
  /-- JAL: A seat issues a jump and link. (R197) -/
  | jal (tile : Nat) (seat : Nat)
  /-- JALR: A seat issues a jump to register and link. (R197) -/
  | jalr (tile : Nat) (seat : Nat)
  /-- SEAT_RUN_OFF: A seat passes the last entry of its program range and raises IX_PC at its next issue attempt. (R198) -/
  | seatRunOff (tile : Nat) (seat : Nat)
  /-- SWAIT: A seat waits until a completion counter reaches a target. (R206) -/
  | swait (tile : Nat) (seat : Nat)
  /-- SBAR: A seat joins a seat barrier, which releases when every named seat has issued it. (R207) -/
  | sbar (tile : Nat) (seat : Nat)
  /-- DEADLOCK_DETECTED: All active seats wait locally with nothing outstanding and the lowest waiting seat raises IX_DEADLOCK. (R208) -/
  | deadlockDetected (tile : Nat)
  /-- ARRIVE: A seat's GSYNC ARRIVE is counted once per trick and instance and sends the rank's arrival up when the count completes. (R211) -/
  | arrive (tile : Nat) (seat : Nat)
  /-- WAIT: A seat waits in GSYNC WAIT for the release of an instance. (R213) -/
  | wait (tile : Nat) (seat : Nat)
  /-- TEST: A seat tests whether a GSYNC instance has been released. (R214) -/
  | test (tile : Nat) (seat : Nat)
  /-- PLOAD: A seat loads one word of a released broadcast payload. (R214) -/
  | pload (tile : Nat) (seat : Nat)
  /-- NOP: A seat issues SYS NOP. (R216) -/
  | nop (tile : Nat) (seat : Nat)
  /-- TEND: A seat ends its part of the trick and becomes DONE. (R216) -/
  | tend (tile : Nat) (seat : Nat)
  /-- TRAP: A seat raises IX_TRAP with its code. (R216) -/
  | trap (tile : Nat) (seat : Nat)
  /-- BKPT: A seat halts when debug control is enabled. (R216) -/
  | bkpt (tile : Nat) (seat : Nat)
  /-- DEBUG_HALT: The steward sets CC_DBG_CTRL.HALT and the named seats halt at their next issue. (R226) -/
  | debugHalt (tile : Nat) (seats : Nat)
  /-- DEBUG_STEP: The steward writes CC_DBG_CTRL.STEP and each halted seat issues one instruction. (R226) -/
  | debugStep (tile : Nat)
  /-- BREAKPOINT_HIT: A seat under debug control reaches BP_PC and halts before issuing it. (R226) -/
  | breakpointHit (tile : Nat) (seat : Nat)
  /-- TRICK_COMPLETE: A trick's seats are all DONE and its queues are empty, so it completes. (R217) -/
  | trickComplete (tile : Nat) (left : Nat)
  /-- MISDEAL_SUMMARY_EXCHANGE: The device's Dealers agree misdeal summaries within tR and recall started tricks for a re-deal frame. (R246) -/
  | misdealSummaryExchange (prov : Nat)
  /-- PROGRAM_LOAD: The Dealer writes a frame's PROG_LOADS into program stores after earlier tricks on the tile have ended. (R236) -/
  | programLoad (tile : Nat) (left : Nat)
  /-- ATLAS_FRAME_FETCH: A Dealer fetches the next frame's map, deals and descriptors from the Atlas copy in read slots. (R238) -/
  | atlasFrameFetch (die : Nat) (prov : Nat) (host : List (Nat × Byte))
  /-- MEMORY_READ: A channel controller serves a read burst in an owned run with ECC decoding. (R273) -/
  | memoryRead (burst : Burst) (cls : Nat) (found : EccRead) (parity : Nat)
  /-- MEMORY_WRITE: A channel controller writes a 64-byte word, by read-modify-write when partial. (R271) -/
  | memoryWrite (burst : Burst) (cls : Nat) (cells : List (Nat × Byte)) (parityBad : Bool)
  /-- ECC_RETRY_READ: An uncorrectable word is read again once and delivered, or poisoned. (R273) -/
  | eccRetryRead (burst : Burst) (found : EccRead) (parity : Nat)
  /-- WRITE_PARITY_RETRY: A write refused for parity is resent once by its sender in its next run. (R273) -/
  | writeParityRetry (burst : Burst) (parityBad : Bool)
  /-- PAGE_WALK: A translation-cache miss walks the Gazetteer tables in steward slots and fills the cache. (R264) -/
  | pageWalk (die : Nat) (prov : Nat) (va : Nat) (tableBad : Bool)
  /-- REFRESH: The controller issues a per-bank refresh in allowed slots. (R256) -/
  | refresh (chan : Nat) (taken : Nat)
  /-- STACK_TEMPERATURE_READ: The stack temperature is read every 1 ms, doubling refresh at 85 °C. (R255) -/
  | stackTemperatureRead (stack : Nat) (t : Option Int)
  /-- PATROL_SCRUB: Patrol scrub reads and corrects words in steward slots. (R275) -/
  | patrolScrub (chan : Nat) (found : EccRead)
  /-- CHANNEL_SCRUB_DONE: A dissolving province's channel completes its zero-and-check scrub. (R276) -/
  | channelScrubDone (chan : Nat) (badGranules : List Nat)
  /-- ROW_REPAIR_DONE: A row repair writes the granule back and releases its hold. (R279) -/
  | rowRepairDone (granule : Nat)
  /-- CXFR: A seat issues a tile-courier transfer. (R285) -/
  | cxfr (tile : Nat) (seat : Nat)
  /-- LOAD_COMPLETE: A LOAD has written every destination word and CRRDONE counts it. (R295) -/
  | loadComplete (tile : Nat) (cour : Nat)
  /-- STORE_COMPLETE: A STORE places its whole result in the outbox and CRRDONE counts it. (R296) -/
  | storeComplete (tile : Nat) (cour : Nat)
  /-- OUTBOX_DRAIN: Released outbox writes are made in the province's write slots, freeing room. (R298) -/
  | outboxDrain (tile : Nat)
  /-- CCHN: A seat submits a chain, held until its trick completes. (R303) -/
  | cchn (tile : Nat) (seat : Nat)
  /-- CHAIN_START: A bulk courier starts a chain after the submitting trick's writes are made. (R308) -/
  | chainStart (bulk : Nat)
  /-- CHAIN_DESCRIPTOR_DONE: A chain descriptor's writes are all made and the next descriptor may start. (R306) -/
  | chainDescriptorDone (bulk : Nat) (host : List (Nat × Byte))
  /-- CHAIN_COMPLETE: A chain's last write is made and its completion put, if any, is made. (R309) -/
  | chainComplete (bulk : Nat)
  /-- TPUT: A seat issues a Talon put, held until completion. (R314) -/
  | tput (tile : Nat) (seat : Nat)
  /-- TTAKE: A seat issues a Talon take. (R314) -/
  | ttake (tile : Nat) (seat : Nat)
  /-- TTAKE_COMPLETE: A waiting or immediate TTAKE receives its handle and TALDONE counts it. (R314) -/
  | ttakeComplete (talon : Nat)
  /-- TALON_PUT_APPEND: A put waiting for room is appended when a take frees space. (R314) -/
  | talonPutAppend (talon : Nat)
  /-- VERDICT_RESULT: The verdict result is received and the step becomes VERIFIED or SKIPPED. (R333) -/
  | verdictResult (prov : Nat)
  /-- LEDGER_COMMIT: The steward applies the ledger commit to every record after the commit frames' writes are made. (R340) -/
  | ledgerCommit (prov : Nat)
  /-- STEP_COMMITTED: The ledger commit is made and the step becomes COMMITTED, completing its step-log record. (R325) -/
  | stepCommitted (prov : Nat)
  /-- SEGMENT_RECEIVED: An RDE segment or partial arrives and the node adds it in canonical order when earlier terms are present. (R389) -/
  | segmentReceived (prov : Nat) (src : Nat) (m : SegMsg)
  /-- SEGMENT_ACK_RECEIVED: A child's acknowledgement of a segment arrives, freeing buffer and sending window. (R395) -/
  | segmentAckReceived (prov : Nat) (src : Nat) (m : SegMsg)
  /-- CHECK_RECORD_RECEIVED: A Triangulation check record arrives; at the owner the sampled element is compared. (R393) -/
  | checkRecordReceived (prov : Nat) (src : Nat) (m : SegMsg)
  /-- CHILD_EXCLUDED: A child held at the multicast limit for EXCL frames is excluded for the collective. (R396) -/
  | childExcluded (prov : Nat) (ord : Nat) (child : Nat)
  /-- PATCH: The root patches an excluded rank with its unacknowledged segments. (R397) -/
  | patch (prov : Nat) (ord : Nat) (rank : Nat) (segs : List Nat)
  /-- COLLECTIVE_COMPLETE: A collective completes on a rank and makes its completion put. (R408) -/
  | collectiveComplete (prov : Nat) (ord : Nat)
  /-- ETHERNET_FRAME_RECEIVED: A frame received on a port is classified and delivered or dropped. (R444) -/
  | ethernetFrameReceived (port : Nat) (f : EthFrame)
  /-- PAUSE_HOLD_EXPIRE: A pause hold's quanta expire and held traffic resumes in an owned run. (R451) -/
  | pauseHoldExpire (port : Nat) (pri : Nat)
  /-- XOFF_REPEAT: Half of the XOFF quanta pass and the XOFF frame is repeated. (R452) -/
  | xoffRepeat (port : Nat) (pri : Nat)
  /-- XON_SEND: Buffer occupancy falls to the XON level and the port sends XON. (R452) -/
  | xonSend (port : Nat) (pri : Nat)
  /-- PFC_STORM: A priority held for WD_MS is declared a pause storm. (R453) -/
  | pfcStorm (port : Nat) (pri : Nat)
  /-- PFC_STUCK: A priority the port holds off for WD_MS is declared stuck. (R454) -/
  | pfcStuck (port : Nat) (pri : Nat)
  /-- PFC_RECOVERY_END: The storm or stuck recovery time ends and pause handling resumes. (R453) -/
  | pfcRecoveryEnd (port : Nat) (pri : Nat)
  /-- TRANSMIT_START: A frame starts on the wire when its buffered bytes reach CUR or it is whole. (R446) -/
  | transmitStart (port : Nat) (slot : Nat) (what : TxWhat) (len : Nat) (present : Nat) (pri : Nat) (dstKind : Nat)
  /-- TX_UNDERRUN: The line needs a byte not yet buffered and the frame ends with an inverted FCS. (R447) -/
  | txUnderrun (port : Nat)
  /-- TRANSMIT_END: A frame ends and the start threshold adapts. (R448) -/
  | transmitEnd (port : Nat)
  /-- LPI_IDLE_TIMEOUT: A port idle for IDLE_US enters PARKING. (R456) -/
  | lpiIdleTimeout (port : Nat)
  /-- PORT_PARKED: The PHY goes quiet and the port becomes PARKED. (R456) -/
  | portParked (port : Nat)
  /-- PORT_WAKE: A frame is queued on a parking or parked port and the port enters WAKING. (R456) -/
  | portWake (port : Nat)
  /-- WAKE_END: WAKING lasts TW_NS and the port becomes ACTIVE. (R456) -/
  | wakeEnd (port : Nat)
  /-- RATE_LOWER: A lightly used port is lowered to 106.25 Gb/s through a retrain. (R457) -/
  | rateLower (port : Nat) (devid : Nat) (octets : List (Nat × Nat))
  /-- PORT_RETRAIN_DONE: A retrain for a rate change or lane steer completes and the port becomes ACTIVE. (R457) -/
  | portRetrainDone (port : Nat)
  /-- LINK_UP: A port achieves block, FEC and alignment lock and LINK sets. (R459) -/
  | linkUp (port : Nat)
  /-- LINK_DOWN: A port's link goes down, counted and possibly held for flapping. (R460) -/
  | linkDown (port : Nat)
  /-- LINK_HOLD_EXPIRE: A held port's HOLD_S expires and it tries once more. (R460) -/
  | linkHoldExpire (port : Nat)
  /-- LANE_BER_SAMPLE: The steward samples each lane's pre-FEC error estimate once a second. (R461) -/
  | laneBerSample (lane : Nat) (syms : Nat) (nbits : Nat) (cw : Nat) (corr : Nat) (uncorr : Nat)
  /-- ETH_LANE_MODE_WRITE: A write to ETH_LANE_MODE changes lane grouping or is refused. (R441) -/
  | ethLaneModeWrite (fdie : Nat) (value : Nat)
  /-- ETH_PORT_RATE_WRITE: A write to ETH_PORT_CTRL.RATE changes a port's rate or is refused. (R441) -/
  | ethPortRateWrite (port : Nat) (value : Nat)
  /-- ETH_STAT_SNAP: A write of SNAP copies a port's counters to the shadow. (R464) -/
  | ethStatSnap (port : Nat)
  /-- MODULE_MONITOR_READ: The steward reads each module's monitors once a second. (R467) -/
  | moduleMonitorRead (cage : Nat) (temp : Int) (mon : ModuleMon) (alarm : Bool) (hour : Bool)
  /-- MODULE_BUS_POLL: The steward reads every expander's presence and interrupt bits every 10 ms or on MOD_INT_N. (R657) -/
  | moduleBusPoll (seen : List Nat) (ids : List (Nat × ModuleId))
  /-- NDEYX_PACKET_RECEIVED: An Ndeyx packet is checked and, if accepted, delivered in stream order. (R480) -/
  | ndeyxPacketReceived (port : Nat) (p : NdxPkt)
  /-- ACK_SEND: The receiver sends an ACK after ACK_EVERY packets, ACK_US or ACKREQ. (R483) -/
  | ackSend (lprov : Nat) (peer : Nat) (stream : Nat)
  /-- RETRANSMIT_TIMEOUT: An unacknowledged packet's retransmission time expires and it is resent. (R484) -/
  | retransmitTimeout (lprov : Nat) (peer : Nat) (stream : Nat) (psn : Nat)
  /-- NDEYX_LINK_LOST: A logical link is lost by retries, silence or lack of paths, raising RANK_LOST. (R487) -/
  | ndeyxLinkLost (lprov : Nat) (peer : Nat)
  /-- KEEPALIVE_SEND: A path idle for KA_US sends a KEEPALIVE. (R497) -/
  | keepaliveSend (lprov : Nat) (peer : Nat) (port : Nat)
  /-- HELLO: The lower-DEVID device sends or resends a handshake HELLO. (R489) -/
  | hello (devid : Nat)
  /-- HANDSHAKE_RETRY_TIMER: After 50 unanswered HELLOs the steward raises HANDSHAKE_FAIL and retries every 10 s. (R489) -/
  | handshakeRetryTimer (devid : Nat)
  /-- MASTER_REKEY_TIMER: HS_HOURS pass and a new handshake makes a new master secret. (R494) -/
  | masterRekeyTimer (devid : Nat)
  /-- KEY_RENEWAL_DUE: A direction's PN reaches the soft limit or KEY_MAX_S and a renewal is requested. (R493) -/
  | keyRenewalDue (lprov : Nat) (peer : Nat)
  /-- OLD_KEY_ERASE: The old receive key is erased 10 ms after the first packet under the new phase. (R493) -/
  | oldKeyErase (lprov : Nat) (peer : Nat)
  /-- MKA_HELLO: The steward sends an MKA hello on a MACsec port every 2 s. (R498) -/
  | mkaHello (port : Nat) (peer : Option MkaPeer)
  /-- MKA_LIFE_EXPIRE: The MKA life expires and the port's secure channel and paths go down. (R498) -/
  | mkaLifeExpire (port : Nat)
  /-- SAK_RENEWAL: The transmit PN reaches its threshold and the key server distributes a new SAK. (R498) -/
  | sakRenewal (port : Nat)
  /-- PCIE_LINK_TRAINED: The PCIe link trains, setting DEGRADED below 16 GT/s or x16. (R503) -/
  | pcieLinkTrained (rate : Nat) (width : Nat)
  /-- PERST_N_ASSERT: PERST_N is asserted and every function becomes DETACHED. (R526) -/
  | perstNAssert
  /-- PERST_N_RELEASE: PERST_N is released and, after DL_Up, functions become REATTACHING. (R526) -/
  | perstNRelease
  /-- DL_DOWN: The data link goes down and every function becomes DETACHED. (R526) -/
  | dlDown
  /-- HOT_RESET: A hot reset detaches every function. (R526) -/
  | hotReset
  /-- FLR: A Function Level Reset detaches one function. (R526) -/
  | flr (fn : Nat)
  /-- RESUME: A RESUME action reopens hands and resends unconfirmed writes. (R529) -/
  | resume (fn : Nat)
  /-- DISCARD: A DISCARD action closes hands and drops unconfirmed writes. (R529) -/
  | discard (fn : Nat)
  /-- HOST_LOST_TIMER: A function DETACHED for LIMIT_S raises HOST_LOST once. (R528) -/
  | hostLostTimer (fn : Nat)
  /-- INSET_READ: A host read of the Inset BAR is served from HBM in remote slots. (R508) -/
  | insetRead (fn : Nat) (off : Nat) (n : Nat)
  /-- INSET_WRITE: A host write to the Inset BAR is made in HBM or dropped. (R508) -/
  | insetWrite (fn : Nat) (off : Nat) (bytes : List Byte)
  /-- HIF_INSET_BASE_WRITE: A write to HIF_INSET_BASE applies to later Inset requests. (R509) -/
  | hifInsetBaseWrite (fn : Nat) (value : Nat)
  /-- HIF_SRV_PAGE_WRITE: A write to HIF_SRV_PAGE selects what the SRV window shows. (R669) -/
  | hifSrvPageWrite (fn : Nat) (value : Nat)
  /-- HOST_REQUEST_FAILED: A device read of host memory fails or times out and stops its command or chain. (R512) -/
  | hostRequestFailed (fn : Nat) (what : HostReq)
  /-- HAND_OPEN: A write of HAND_CTRL.OPEN opens a hand or leaves it CLOSED with an error. (R514) -/
  | handOpen (fn : Nat) (hand : Nat)
  /-- HAND_CLOSE: A write of HAND_CTRL.CLOSE stops fetching and closes the hand once commands complete. (R515) -/
  | handClose (fn : Nat) (hand : Nat)
  /-- DOORBELL: A HAND_DOORBELL write starts descriptor fetches or puts the hand in ERROR. (R523) -/
  | doorbell (fn : Nat) (hand : Nat) (value : Nat)
  /-- DESCRIPTOR_FETCH_RETURN: Fetched entries return and are accepted up to the first SEQ mismatch. (R524) -/
  | descriptorFetchReturn (fn : Nat) (hand : Nat) (entries : List (List Byte × Bool))
  /-- DESCRIPTOR_REFETCH: The refetch interval expires and entries are read again, or STALE is set. (R524) -/
  | descriptorRefetch (fn : Nat) (hand : Nat)
  /-- LOAD_ATLAS: A hand command copies, checks and maps an Atlas into a SEALED province. (R235) -/
  | loadAtlas (fn : Nat) (hand : Nat) (seq : Nat) (host : List (Nat × Byte)) (authOk : Bool)
  /-- START: A hand command starts the loaded Atlas at frame S0 with an optional starting step. (R519) -/
  | start (fn : Nat) (hand : Nat) (seq : Nat)
  /-- WRITE: A hand command copies host memory into province DATA, optionally putting a handle. (R520) -/
  | write (fn : Nat) (hand : Nat) (seq : Nat) (host : List (Nat × Byte)) (stop : Option (Nat × Nat))
  /-- READ: A hand command copies province memory to host memory. (R520) -/
  | read (fn : Nat) (hand : Nat) (seq : Nat)
  /-- WAIT_STEP: A hand command completes when a named step has been decided. (R676) -/
  | waitStep (fn : Nat) (hand : Nat) (seq : Nat)
  /-- MANIFEST: A hand command declares a data manifest and extends the manifest chain. (R517) -/
  | manifest (fn : Nat) (hand : Nat) (seq : Nat) (host : List (Nat × Byte)) (authOk : Bool)
  /-- HOST_WRITE_CONFIRM: The confirming read behind host writes completes, allowing completion entries and MSI-X. (R525) -/
  | hostWriteConfirm (fn : Nat)
  /-- GET_VERSION: An SPDM GET_VERSION request is answered. (R560) -/
  | getVersion
  /-- GET_CAPABILITIES: An SPDM GET_CAPABILITIES request is answered. (R560) -/
  | getCapabilities
  /-- NEGOTIATE_ALGORITHMS: An SPDM NEGOTIATE_ALGORITHMS request is answered. (R560) -/
  | negotiateAlgorithms (common : Bool)
  /-- GET_DIGESTS: An SPDM GET_DIGESTS request returns slot 0's digest. (R560) -/
  | getDigests
  /-- GET_CERTIFICATE: An SPDM GET_CERTIFICATE request returns slot 0's chain. (R560) -/
  | getCertificate (slot : Nat) (off : Nat) (n : Nat)
  /-- CHALLENGE: An SPDM CHALLENGE is answered with a signature. (R560) -/
  | challenge (slot : Nat)
  /-- GET_MEASUREMENTS: An SPDM GET_MEASUREMENTS returns the cartouche blocks taken at one instant. (R561) -/
  | getMeasurements (index : Nat) (signed : Bool)
  /-- KEY_EXCHANGE: An SPDM KEY_EXCHANGE begins a session. (R560) -/
  | keyExchange (slot : Nat)
  /-- SPDM_FINISH: An SPDM FINISH completes a session. (R560) -/
  | spdmFinish (sid : Nat) (macOk : Bool)
  /-- HEARTBEAT: An SPDM HEARTBEAT keeps a session alive. (R560) -/
  | heartbeat (sid : Nat)
  /-- SPDM_KEY_UPDATE: An SPDM KEY_UPDATE renews session keys. (R560) -/
  | spdmKeyUpdate (sid : Nat)
  /-- END_SESSION: An SPDM END_SESSION ends a session. (R560) -/
  | endSession (sid : Nat)
  /-- BIND_FN: A vendor-defined BIND_FN binds a session to one function. (R531) -/
  | bindFn (sid : Nat) (fn : Nat)
  /-- SELECT_FN: A vendor-defined SELECT_FN selects the function that index 16 describes. (R562) -/
  | selectFn (fn : Nat)
  /-- IDE_KM: IDE_KM messages key an IDE link or selective stream. (R565) -/
  | ideKm (sid : Nat) (stream : Nat) (fn : Option Nat) (stop : Bool)
  /-- LOCK_INTERFACE: A TDISP LOCK_INTERFACE locks a function's configuration. (R566) -/
  | lockInterface (sid : Nat) (fn : Nat)
  /-- START_INTERFACE: A TDISP START_INTERFACE moves a locked interface to RUN. (R566) -/
  | startInterface (sid : Nat) (fn : Nat)
  /-- STOP_INTERFACE: A TDISP STOP_INTERFACE returns an interface to CONFIG_UNLOCKED and discards its hands. (R567) -/
  | stopInterface (sid : Nat) (fn : Nat)
  /-- TDISP_INTERFACE_ERROR: A BAR change, dissolution, recovery, IDE failure or activation moves a locked interface to ERROR. (R567) -/
  | tdispInterfaceError (fn : Nat)
  /-- TSP_HELLO: A TSP HELLO negotiates the version of a connection. (R581) -/
  | tspHello (conn : Nat) (lo : Nat) (hi : Nat)
  /-- GET_IDENTITY: TSP GET_IDENTITY returns DEVID, identity, life-cycle state and chain. (R582) -/
  | getIdentity (conn : Nat)
  /-- GET_CARTOUCHE: TSP GET_CARTOUCHE returns the signed measurement blocks. (R564) -/
  | getCartouche (conn : Nat) (nonce : List Byte)
  /-- GET_STATUS: TSP GET_STATUS returns steward, Meridian, province and wear status. (R582) -/
  | getStatus (conn : Nat)
  /-- READ_REG: TSP READ_REG reads a register of the host map or MEM, RDE and ETH blocks. (R582) -/
  | readReg (conn : Nat) (addr : Nat) (n : Nat)
  /-- SUBSCRIBE: TSP SUBSCRIBE selects event classes for the connection. (R583) -/
  | subscribe (conn : Nat) (classes : Nat)
  /-- TSP_EVENT_SEND: An event message is sent to subscribed connections, dropping the oldest when 1,024 behind. (R583) -/
  | tspEventSend (conn : Nat)
  /-- LOG_READ: TSP LOG_READ returns error log, step log or module records. (R582) -/
  | logRead (conn : Nat) (what : LogSel)
  /-- IMPRINT_READ: TSP IMPRINT_READ returns imprint records by SEQ range. (R582) -/
  | imprintRead (conn : Nat) (lo : Nat) (n : Nat)
  /-- PROV_CREATE: TSP PROV_CREATE makes a province in FORMING. (R551) -/
  | provCreate (conn : Nat) (id : Option Nat) (template : Option Nat)
  /-- PROV_SET: TSP PROV_SET sets province fields and allocates resources. (R554) -/
  | provSet (conn : Nat) (prov : Nat) (what : ProvSet)
  /-- PROV_RANKTAB: TSP PROV_RANKTAB writes rank-table entries. (R420) -/
  | provRanktab (conn : Nat) (prov : Nat) (bytes : List Byte)
  /-- PROV_SEAL: TSP PROV_SEAL checks the province and builds its tables at a frame boundary. (R555) -/
  | provSeal (conn : Nat) (prov : Nat)
  /-- PROV_PAUSE: TSP PROV_PAUSE is forwarded to rank 0, which pauses every rank. (R556) -/
  | provPause (conn : Nat) (prov : Nat)
  /-- PROV_RESUME: TSP PROV_RESUME is forwarded to rank 0, which resumes every rank at a named frame. (R556) -/
  | provResume (conn : Nat) (prov : Nat)
  /-- PROV_SNAPSHOT: TSP PROV_SNAPSHOT is forwarded to rank 0, which runs a SNAPSHOT. (R556) -/
  | provSnapshot (conn : Nat) (prov : Nat)
  /-- PROV_RESET: TSP PROV_RESET is forwarded to rank 0, which runs a RESET. (R556) -/
  | provReset (conn : Nat) (prov : Nat)
  /-- PROV_DISSOLVE: TSP PROV_DISSOLVE dissolves the province on the receiving device. (R558) -/
  | provDissolve (conn : Nat) (prov : Nat)
  /-- DISSOLUTION_COMPLETE: The last channel checks clean and the province ID becomes free. (R558) -/
  | dissolutionComplete (prov : Nat)
  /-- PROV_READ: TSP PROV_READ reads up to 64 KiB of a province's DATA. (R582) -/
  | provRead (conn : Nat) (prov : Nat) (addr : Nat) (n : Nat)
  /-- PROV_GRANT_PF0: TSP PROV_GRANT_PF0 writes HIF_PF0_GRANT. (R506) -/
  | provGrantPf0 (conn : Nat) (prov : Nat)
  /-- PROV_STANDIN: TSP PROV_STANDIN starts the stand-in procedure for a lost rank. (R433) -/
  | provStandin (conn : Nat) (prov : Nat) (rank : Nat) (epoch : Nat)
  /-- IMPRINT: TSP IMPRINT hashes the cut's state and writes a signed imprint record. (R568) -/
  | imprint (conn : Nat) (prov : Nat)
  /-- MER_SET: TSP MER_SET writes Meridian fields, a period switch or BMCA settings. (R582) -/
  | merSet (conn : Nat) (what : MerSet)
  /-- TEST_RUN: TSP TEST_RUN runs a fixed self-test program. (R596) -/
  | testRun (conn : Nat) (program : Nat) (units : List (Nat × Nat)) (ports : List Nat) (found : List ErrIn)
  /-- SHUTDOWN: TSP SHUTDOWN starts orderly shut-down with the SHUTDOWN test. (R595) -/
  | shutdown (conn : Nat) (force : Bool)
  /-- INLET_REPORT: TSP INLET_REPORT supplies the inlet temperature for 10 s. (R630) -/
  | inletReport (conn : Nat) (t : Int)
  /-- PROV_RECOVER: TSP PROV_RECOVER places a paused province in recovery or ends recovery. (R559) -/
  | provRecover (conn : Nat) (prov : Nat) (on : Bool)
  /-- IMPRINT_ROLL: TSP IMPRINT_ROLL erases the oldest half of the imprint log. (R574) -/
  | imprintRoll (conn : Nat) (seq : Nat)
  /-- TABLE_LOAD: TSP TABLE_LOAD installs an owner-signed table image. (R640) -/
  | tableLoad (conn : Nat) (img : TableImg)
  /-- FABRIC_SET: TSP FABRIC_SET installs owner-signed fabric settings. (R582) -/
  | fabricSet (conn : Nat) (img : TableImg) (fab : Fabric)
  /-- CRED_SET: TSP CRED_SET installs owner-signed credential lists. (R582) -/
  | credSet (conn : Nat) (ca : TableImg) (rev : TableImg)
  /-- FW_STAGE: TSP FW_STAGE writes and verifies a firmware image in the inactive slot. (R575) -/
  | fwStage (conn : Nat) (img : FwImage)
  /-- FW_ACTIVATE: TSP FW_ACTIVATE restarts the steward on the staged image. (R575) -/
  | fwActivate (conn : Nat) (prev : Bool)
  /-- FW_COMMIT: TSP FW_COMMIT blows SVN fuses to the running image's SVN. (R575) -/
  | fwCommit (conn : Nat)
  /-- STEWARD_RESTART_END: The steward restart completes, or falls back to the previous slot with FW_FAILED. (R576) -/
  | stewardRestartEnd (ok : Bool)
  /-- LIFECYCLE: TSP or JTAG LIFECYCLE makes a life-cycle transition with its token. (R547) -/
  | lifecycle (conn : Option Nat) (tok : LifeToken)
  /-- TAKE_OWNERSHIP: TSP TAKE_OWNERSHIP moves PROVISIONED to DEPLOYED and blows the owner slot. (R547) -/
  | takeOwnership (conn : Nat) (key : List Byte) (tokOk : Bool)
  /-- TSP_IDLE_TIMEOUT: A TSP connection idle for 600 s is closed. (R579) -/
  | tspIdleTimeout (conn : Nat)
  /-- CARTRIDGE_PRESENCE_POLL: The I3C presence report is read every 10 ms. (R658) -/
  | cartridgePresencePoll (seen : Option Cartridge)
  /-- CARTRIDGE_WRITE: A cartridge partition write completes and is read back. (R540) -/
  | cartridgeWrite (part : Nat) (blocks : List Nat) (spares : Bool)
  /-- DEV_RESET_N_ASSERT: DEV_RESET_N is asserted long enough and the device resets. (R656) -/
  | devResetNAssert
  /-- DEV_RESET_N_RELEASE: DEV_RESET_N is released and the boot stages begin at ROM. (R543) -/
  | devResetNRelease
  /-- ROM_STAGE: The secure ROM senses fuses and derives keys. (R543) -/
  | romStage (test : Option FwImage)
  /-- CARTRIDGE_STAGE: The steward checks pairing and verifies firmware and tables. (R544) -/
  | cartridgeStage (fab : Fabric)
  /-- SELFTEST_STAGE: The boot quick test or full self-test runs. (R595) -/
  | selftestStage (acked : Bool) (found : List ErrIn)
  /-- HBM_INIT_STAGE: The repair map is applied and channels are initialised. (R543) -/
  | hbmInitStage
  /-- BRINGUP_STAGE: The Meridian runs FREE, lane modes are set and the management port comes up. (R543) -/
  | bringupStage
  /-- READY: Boot reaches READY and TSP and SPDM accept commands. (R543) -/
  | ready
  /-- SHUTDOWN_COMPLETE: The SHUTDOWN program and writes complete and the stage becomes OFF_READY. (R543) -/
  | shutdownComplete (found : List ErrIn)
  /-- ERROR_RECORD_ARRIVE: An error record arrives at a hardware queue and is merged, added or discarded. (R590) -/
  | errorRecordArrive (r : ErrIn)
  /-- ERROR_RECORD_HANDLE: The steward takes the highest-severity head record, counts it in its window and acts. (R589) -/
  | errorRecordHandle (march : Nat)
  /-- RECORDS_LOST: At most once a second while records are lost, RECORDS_LOST is raised. (R590) -/
  | recordsLost
  /-- STEWARD_WATCHDOG: The watchdog restarts the steward after 100 ms without progress or an exception. (R591) -/
  | stewardWatchdog
  /-- FATAL: A FATAL event stops dealing, sending and fetching in hardware and asserts ALERT_N. (R592) -/
  | fatal (cause : Nat) (die : Nat)
  /-- ALERT_PULSE_END: An ALERT_N pulse reaches PULSE_MS after its last record and the pin returns high. (R593) -/
  | alertPulseEnd
  /-- TILE_MOVE_DONE: The move copies finish, FAULTCOL is written and MOVING clears at a boundary. (R252) -/
  | tileMoveDone (tile : Nat)
  /-- LANE_STEER: A lasting lane fault steers the lane onto its spare slice. (R603) -/
  | laneSteer (lane : Nat)
  /-- LANE_STEER_CHECK: Within 60 s the spare's error estimate decides LANE_STEERED or LANE_EXTERNAL. (R603) -/
  | laneSteerCheck (lane : Nat) (good : Bool)
  /-- RELEASE_TEST_DONE: A RELEASE self-test of a unit or spare tile completes. (R595) -/
  | releaseTestDone (die : Nat) (n : Nat) (spare : Bool) (found : List ErrIn)
  /-- DEBUG_DEAL: The steward starts one trick of a recovering province on one tile. (R604) -/
  | debugDeal (tile : Nat) (trick : Nat)
  /-- THROTTLE_N_FALL: THROTTLE_N falls and the throttle limit lowers the clock within 10 µs. (R605) -/
  | throttleNFall
  /-- THROTTLE_N_RISE: THROTTLE_N rises and the throttle limit is removed. (R633) -/
  | throttleNRise
  /-- THROTTLE_QUALIFIED: An assertion lasting 25 µs starts the THROTTLE machine's control. (R633) -/
  | throttleQualified
  /-- THROTTLE_HELD: THROTTLE_N stays asserted and THROTTLE_HELD is raised every 60 s. (R605) -/
  | throttleHeld
  /-- THROTTLE_TOGGLE: Over 1,000 falling edges in 1 s treat the pin as held until high for 1 s. (R605) -/
  | throttleToggle
  /-- SRV_CFG_WRITE: A write to SRV_CFG selects an event and zeroes the counter, or sets CFG_ERR. (R612) -/
  | srvCfgWrite (who : Master) (addr : Nat) (value : Nat)
  /-- SRV_SNAP: A write of SRV_SNAP.SNAP copies a unit's counters to its shadow. (R615) -/
  | srvSnap (who : Master) (addr : Nat) (value : Nat)
  /-- PROV_SRV_SNAP: A write of PROV_SRV_CTRL.SNAP snapshots the province's units at the next boundary. (R615) -/
  | provSrvSnap (who : Master) (addr : Nat) (value : Nat)
  /-- COUNTER_HALF_RANGE: A counter increment sets bit 47 and raises the half-range interrupt. (R608) -/
  | counterHalfRange (unit : Nat) (ctr : Nat)
  /-- SKID_SAMPLE: A sampled counter passes a multiple of 2^PEXP and a sample is taken. (R617) -/
  | skidSample (tile : Nat) (sseat : Option Nat) (skid : Nat)
  /-- SAMPLE_RING_MOVE: A die collector moves up to 128 samples per frame into the ring. (R619) -/
  | sampleRingMove (die : Nat)
  /-- SRV_TAG_ENABLE: A write of SRV_TAG.EN arms random instruction tagging or is denied. (R621) -/
  | srvTagEnable (who : Master) (addr : Nat) (value : Nat)
  /-- TAG_RECORD_DONE: The tagged instruction completes and its record is filled and DONE set. (R622) -/
  | tagRecordDone (tile : Nat) (complete : Bool)
  /-- CAPPING_EVALUATION: Every 1 ms the capping controller reads power and sets the clock to the lowest limit. (R629) -/
  | cappingEvaluation (corr : Int)
  /-- FAST_LIMITER: The estimated VDD_CORE current exceeds ICC_A and the clock drops to 500 MHz. (R631) -/
  | fastLimiter (amps : Nat)
  /-- FAST_LIMITER_RELEASE: The fast limiter's 1 ms hold ends and it releases to the other limits. (R631) -/
  | fastLimiterRelease
  /-- JUNCTION_SENSOR_READ: Junction sensors are read every 10 µs and thermal actions applied. (R632) -/
  | junctionSensorRead (reads : List (List (Option Int)))
  /-- THERMAL_TRIP: A junction or stack stays above its trip limit and a FATAL THERMAL_TRIP is raised. (R632) -/
  | thermalTrip (which : Option Nat)
  /-- ITINERARY_EVALUATION: Every 1 ms each Itinerary machine fires at most one transition and its action. (R637) -/
  | itineraryEvaluation (util : List Nat) (corr : Nat)
  /-- INLET_SENSOR_READ: The steward reads the PMBus inlet sensor every 1 s. (R630) -/
  | inletSensorRead (word : Option Nat)
  /-- PMBUS_READ: Every 1 ms the steward reads every regulator's power, current and voltage. (R646) -/
  | pmbusRead (pout : List Nat)
  /-- PMB_ALERT: PMB_ALERT_N falls and the steward reads every regulator's STATUS_WORD. (R646) -/
  | pmbAlert (words : List Nat)
  /-- AVS_ACK: The regulator acknowledges a voltage write and a held clock rise proceeds. (R628) -/
  | avsAck
  /-- AVS_ACK_TIMEOUT: An AVSBus write is not acknowledged within 1 ms and AVS_NACK counts. (R645) -/
  | avsAckTimeout
  /-- RAIL_UNDERVOLTAGE: A rail falls below its detector threshold for 2 µs and the device is held in reset. (R647) -/
  | railUndervoltage (rail : Nat)
  /-- REFCLK_LOST: A reference clock stops or leaves tolerance and its consumers fall back or go down. (R652) -/
  | refclkLost (clk : Nat)
  /-- REFCLK_RETURN: A lost reference clock is within tolerance for 10 ms and is used again. (R652) -/
  | refclkReturn (clk : Nat)
  /-- JTAG_INSTRUCTION: A JTAG instruction is loaded and accepted or replaced by BYPASS by life-cycle state. (R659) -/
  | jtagInstruction (insn : TapInsn)
  /-- PPS_IN_TIMEOUT: No PPS_IN edge has been accepted for 3 s, so PPS_PRESENT clears and the phase reference falls back to PTP, or to HOLDOVER when PTP is off. (R46) -/
  | ppsInTimeout
  /-- PATH_SILENCE_TIMEOUT: On an ACTIVE port with link, a path goes down because no authenticated packet has come from the peer's port for 4 × KA_US, and its packets are retransmitted on other paths. (R473) -/
  | pathSilenceTimeout (lprov : Nat) (peer : Nat) (port : Nat)
  /-- PTP_SYNC_TRANSMIT: In the boundary-clock or master role, the device sends PTP Sync and related messages on each master port at its logSyncInterval. (R39) -/
  | ptpSyncTransmit (pport : Nat)
  /-- FLR_COMPLETE: A Function Level Reset finishes, the function moves from DETACHED to REATTACHING and its reattach record is filled. (R526) -/
  | flrComplete (fn : Nat)
  /-- RAIL_RECOVERED: After an undervoltage, every rail has been within tolerance for 10 ms with DEV_RESET_N released, and the device leaves reset and boots. (R647) -/
  | railRecovered
  /-- THROTTLE_TOGGLE_END: A THROTTLE_N that was treated as held because of toggling has stayed high for 1 s, so it is treated as released and the throttle limit is removed. (R605) -/
  | throttleToggleEnd
  /-- MGMT_FRAME_RECEIVED: A frame on the management port is served as ARP, neighbour discovery, ICMP echo, PTP or TLS within its rate limit, or is dropped. (R578) -/
  | mgmtFrameReceived (f : MgmtFrame)
  /-- TSP_CONNECTION_OPEN: A client opens a TLS 1.3 connection to the TSP port, and its chain and role are checked; the connection is accepted or closed, up to 8 at once. (R579) -/
  | tspConnectionOpen (conn : Nat) (tls : TlsClient) (revoked : Bool) (role : Nat)
  /-- BUS_MASTER_ENABLE_WRITE: The host sets a function's Bus Master Enable, and device requests that waited while it was 0 are issued. (R511) -/
  | busMasterEnableWrite (fn : Nat) (on : Bool)
  /-- RESERVED_OPCODE_ISSUE: A seat issues an instruction word whose major opcode is reserved, including 0x00, and raises IX_ILLEGAL, faulting the trick. (R189) -/
  | reservedOpcodeIssue (tile : Nat) (seat : Nat)
deriving DecidableEq, Repr

end Sys2Proof
end

