-- ==== Sys2Proof/Decode.lean ====
section
/-! DEFINITION. The spec's table of operations and events gives no row any bits, so no word spells a command. -/
namespace Sys2Proof

/-- The command a word spells by the table's bits: none, because the table gives no bits. (DESIGN CHOICE: log 6) -/
def decodeTableWord (_nbits _w : Nat) : Option Instr := none

end Sys2Proof
end

