-- ==== Sys2Proof/Machine/Bits.lean ====
section
/-! DEFINITION. Bit fields, byte order, signed readings and saturating counts: the small helpers that every chapter's rules use. -/
namespace Sys2Proof.Machine

/-- Bits `[lo + w - 1 : lo]` of a natural number. -/
def bits (n lo w : Nat) : Nat := n / 2 ^ lo % 2 ^ w

/-- `n` with bits `[lo + w - 1 : lo]` replaced by the low `w` bits of `v`. -/
def setBits (n lo w v : Nat) : Nat :=
  n / 2 ^ (lo + w) * 2 ^ (lo + w) + v % 2 ^ w * 2 ^ lo + n % 2 ^ lo

/-- Whether bit `i` of `n` is 1. -/
def bitAt (n i : Nat) : Bool := n / 2 ^ i % 2 == 1

/-- 1 for true, 0 for false. -/
def b01 (b : Bool) : Nat := if b then 1 else 0

/-- The signed reading of the low `w` bits of `n`. -/
def signed (w n : Nat) : Int :=
  let m := n % 2 ^ w
  if m < 2 ^ (w - 1) then (m : Int) else (m : Int) - (2 ^ w : Nat)

/-- An integer as a `w`-bit two's complement word. -/
def unsigned (w : Nat) (i : Int) : Nat := (i % ((2 ^ w : Nat) : Int)).toNat

/-- Addition that stops at `mx` (a saturating counter). -/
def satAdd (mx a b : Nat) : Nat := min mx (a + b)

/-- The `n` low bytes of `v`, least significant first (R2). -/
def leBytes : Nat → Nat → List Byte
  | 0, _ => []
  | n + 1, v => BitVec.ofNat 8 v :: leBytes n (v / 256)

/-- The number that little-endian bytes spell (R2). -/
def ofLE : List Byte → Nat
  | [] => 0
  | b :: bs => b.toNat + 256 * ofLE bs

/-- The number that bytes in network order spell (R2). -/
def ofBE (bs : List Byte) : Nat := bs.foldl (fun a b => a * 256 + b.toNat) 0

/-- The `n` low bytes of `v` in network order (R2). -/
def beBytes (n v : Nat) : List Byte := (leBytes n v).reverse

/-- Bytes `[off, off + n)` of a record. -/
def slice (bs : List Byte) (off n : Nat) : List Byte := (bs.drop off).take n

/-- The little-endian number in bytes `[off, off + n)` of a record. -/
def leAt (bs : List Byte) (off n : Nat) : Nat := ofLE (slice bs off n)

/-- `n` bytes of zero. -/
def zeros (n : Nat) : List Byte := List.replicate n 0

/-- The record with bytes from `off` replaced by `new`. -/
def patch (bs : List Byte) (off : Nat) (new : List Byte) : List Byte :=
  bs.take off ++ new ++ bs.drop (off + new.length)

/-- Rounding up division. -/
def ceilDiv (a b : Nat) : Nat := (a + b - 1) / b

/-- `a` is a multiple of `m`. -/
def mult (a m : Nat) : Bool := a % m == 0

/-- Lists cut into groups of `n` (`fuel` bounds the number of groups). -/
def chunks {α : Type} (n : Nat) : Nat → List α → List (List α)
  | 0, _ => []
  | _ + 1, [] => []
  | f + 1, x => x.take n :: chunks n f (x.drop n)

/-- The list with element `i` replaced (unchanged where there is none). -/
def setAt {α : Type} : List α → Nat → α → List α
  | [], _, _ => []
  | _ :: xs, 0, v => v :: xs
  | x :: xs, i + 1, v => x :: setAt xs i v

/-- The number of leading `0`s of a `w`-bit word below its highest 1: the position of the highest 1 bit plus 1, 0 for 0. -/
def bitLen (n : Nat) : Nat := if n = 0 then 0 else n.log2 + 1

end Sys2Proof.Machine
end

