-- ==== Sys2Proof/Machine/Compass.lean ====
section
/-! DEFINITION. The Compass generator (R118–R120): a keyed block function that keeps no state. -/
namespace Sys2Proof.Machine

/-- The rotation pairs of R118. -/
def compassRot (r : Nat) : Nat × Nat :=
  match r % 4 with
  | 0 => (13, 19)
  | 1 => (7, 25)
  | 2 => (11, 21)
  | _ => (17, 9)

/-- The four words of a block. -/
structure Quad4 where
  w0 : W32
  w1 : W32
  w2 : W32
  w3 : W32
deriving DecidableEq, Repr

/-- Word `i` of a block (0–3). -/
def Quad4.get (q : Quad4) (i : Nat) : W32 :=
  match i with | 0 => q.w0 | 1 => q.w1 | 2 => q.w2 | _ => q.w3

/-- The five key-schedule words of R118. -/
def compassKs (k : Quad4) (i : Nat) : W32 :=
  match i % 5 with
  | 0 => k.w0 | 1 => k.w1 | 2 => k.w2 | 3 => k.w3
  | _ => k.w0 ^^^ k.w1 ^^^ k.w2 ^^^ k.w3 ^^^ 0x5A0C3E91#32

/-- Round `r` of the block function (R118). -/
def compassRound (k x : Quad4) (r : Nat) : Quad4 :=
  let a := compassRot r
  let x0 := x.w0 + x.w1
  let x1 := x.w1.rotateLeft a.1 ^^^ x0
  let x2 := x.w2 + x.w3
  let x3 := x.w3.rotateLeft a.2 ^^^ x2
  if r % 4 = 3 then
    let j := (r + 1) / 4
    ⟨x0 + compassKs k j, x3 + compassKs k (1 + j), x2 + compassKs k (2 + j), x1 + compassKs k (3 + j) + BitVec.ofNat 32 j⟩
  else ⟨x0, x3, x2, x1⟩

/-- `compass_block` of R118. -/
def compassBlock (k c : Quad4) : Quad4 :=
  (List.range 12).foldl (compassRound k)
    ⟨c.w0 + compassKs k 0, c.w1 + compassKs k 1, c.w2 + compassKs k 2, c.w3 + compassKs k 3⟩

/-- `compass16` of R118: the 16-bit value of index `idx`. -/
def compass16 (k : Quad4) (c0 c1 c2 idx : Nat) : Nat :=
  let w := compassBlock k ⟨BitVec.ofNat 32 c0, BitVec.ofNat 32 c1, BitVec.ofNat 32 c2, BitVec.ofNat 32 (idx / 8)⟩
  let lane := idx % 8
  (w.get (lane / 2)).toNat / 2 ^ (16 * (lane % 2)) % 65536

/-- The key of a draw (R119). -/
def compassKey (seed domain pro rank step : Nat) : Quad4 :=
  ⟨BitVec.ofNat 32 seed, BitVec.ofNat 32 (seed / 2 ^ 32),
   BitVec.ofNat 32 (domain % 256 * 2 ^ 24 + pro % 2 * 2 ^ 20 + rank % 2 ^ 20), BitVec.ofNat 32 step⟩

/-- A site word (R121): seat and site ordinal. -/
def siteWord (seat n : Nat) : Nat := seat * 2 ^ 28 + n % 2 ^ 28

end Sys2Proof.Machine
end

