-- ==== Sys2Proof/Machine/Numbers.lean ====
section
/-! DEFINITION. Number formats and conversions (spec files 04 and 05): exact values, descriptors, decoding, the rounding function, narrowing
with its events, MX block scaling, and binary32 arithmetic. -/
namespace Sys2Proof.Machine

/-- An exact value: NaN, an infinity, or `± m · 2^e` (a zero keeps its sign). -/
inductive Val where
  | nan
  | inf (neg : Bool)
  | fin (neg : Bool) (m : Nat) (e : Int)
deriving DecidableEq, Repr

/-- +0. -/
def Val.zero : Val := .fin false 0 0
/-- 1. -/
def Val.one : Val := .fin false 1 0

def Val.isNan : Val → Bool | .nan => true | _ => false
def Val.isInf : Val → Bool | .inf _ => true | _ => false
/-- A finite zero of either sign. -/
def Val.isZero : Val → Bool | .fin _ 0 _ => true | _ => false
/-- The sign, `false` for NaN. -/
def Val.neg : Val → Bool | .nan => false | .inf n => n | .fin n _ _ => n
/-- The value with its sign replaced. -/
def Val.withSign (s : Bool) : Val → Val | .nan => .nan | .inf _ => .inf s | .fin _ m e => .fin s m e
def Val.negate (v : Val) : Val := v.withSign (!v.neg)
def Val.abs (v : Val) : Val := v.withSign false
/-- `v · 2^k`. -/
def Val.scale (k : Int) : Val → Val | .fin n m e => .fin n m (e + k) | v => v

/-- `a · 2^k` for `k ≥ 0`. -/
def shl (a : Nat) (k : Int) : Nat := a * 2 ^ k.toNat

/-- A signed mantissa over the exponent `e0 ≤ e`. -/
def Val.over (e0 : Int) : Val → Int
  | .fin n m e => let a : Int := shl m (e - e0); if n then -a else a
  | _ => 0

/-- `i · 2^e` with the sign `zneg` for a zero. -/
def Val.ofInt (zneg : Bool) (i : Int) (e : Int) : Val :=
  if i = 0 then .fin zneg 0 0 else .fin (decide (i < 0)) i.natAbs e

/-- The exact sum of two finite values; an exact zero is −0 only when both are −0 (R112). -/
def Val.addFin (n1 : Bool) (m1 : Nat) (e1 : Int) (n2 : Bool) (m2 : Nat) (e2 : Int) : Val :=
  let e0 := min e1 e2
  Val.ofInt (n1 && n2) (Val.over e0 (.fin n1 m1 e1) + Val.over e0 (.fin n2 m2 e2)) e0

/-- The exact sum; infinities of both signs give NaN. -/
def Val.add : Val → Val → Val
  | .nan, _ => .nan
  | _, .nan => .nan
  | .inf a, .inf b => if a = b then .inf a else .nan
  | .inf a, _ => .inf a
  | _, .inf b => .inf b
  | .fin n1 m1 e1, .fin n2 m2 e2 => Val.addFin n1 m1 e1 n2 m2 e2

/-- The exact product; 0 times an infinity is NaN. -/
def Val.mul : Val → Val → Val
  | .nan, _ => .nan
  | _, .nan => .nan
  | .inf a, .inf b => .inf (a != b)
  | .inf a, .fin n m _ => if m = 0 then .nan else .inf (a != n)
  | .fin n m _, .inf b => if m = 0 then .nan else .inf (n != b)
  | .fin n1 m1 e1, .fin n2 m2 e2 => .fin (n1 != n2) (m1 * m2) (e1 + e2)

/-- `a < b` (false with a NaN; zeros are equal, R91). -/
def Val.lt : Val → Val → Bool
  | .nan, _ => false
  | _, .nan => false
  | .inf a, .inf b => a && !b
  | .inf a, _ => a
  | _, .inf b => !b
  | .fin n1 m1 e1, .fin n2 m2 e2 =>
    let e0 := min e1 e2
    decide (Val.over e0 (.fin n1 m1 e1) < Val.over e0 (.fin n2 m2 e2))

/-- `a = b` as numbers (false with a NaN). -/
def Val.eqv (a b : Val) : Bool := !a.isNan && !b.isNan && !a.lt b && !b.lt a
/-- `a ≤ b` (false with a NaN). -/
def Val.le (a b : Val) : Bool := a.lt b || a.eqv b

/-- Special-value classes of a descriptor (R97). -/
inductive Special where
  | none | ieee | nanOnly
deriving DecidableEq, Repr

/-- A format: the fields of a descriptor (R97); the 16-bit formats and binary32 use the same fields (R98). -/
structure Fmt where
  width : Nat
  ebits : Nat
  mbits : Nat
  sign : Bool
  special : Special
  int : Bool
  bs : Bool
  sat : Bool
  bias : Nat
deriving DecidableEq, Repr

/-- The fixed formats of R90. -/
def Fmt.f32 : Fmt := ⟨32, 8, 23, true, .ieee, false, false, false, 127⟩
def Fmt.bf16 : Fmt := ⟨16, 8, 7, true, .ieee, false, false, false, 127⟩
def Fmt.f16 : Fmt := ⟨16, 5, 10, true, .ieee, false, false, false, 15⟩
def Fmt.int8 : Fmt := ⟨8, 0, 0, true, .none, true, false, true, 0⟩
def Fmt.int4 : Fmt := ⟨4, 0, 0, true, .none, true, false, true, 0⟩

/-- The special class a descriptor's SPECIAL field names. -/
def specialOf (n : Nat) : Special := if n = 1 then .ieee else if n = 2 then .nanOnly else .none

/-- The format a descriptor word describes (R97); none when VALID = 0. -/
def Fmt.ofDesc (d : Nat) : Option Fmt :=
  if bitAt d 31 then
    some ⟨bits d 0 4, bits d 4 3, bits d 7 3, bitAt d 10, specialOf (bits d 11 2), bitAt d 13, bitAt d 14, bitAt d 15, bits d 16 6⟩
  else none

/-- Whether a descriptor word with VALID = 1 is valid (R99). -/
def descValid (d : Nat) : Bool :=
  let w := bits d 0 4; let eb := bits d 4 3; let mb := bits d 7 3; let sg := bits d 10 1; let sp := bits d 11 2
  let i := bitAt d 13; let bs := bitAt d 14
  decide (2 ≤ w) && decide (w ≤ 8) && bits d 22 9 == 0 && sp != 3 &&
  (if i then sg == 1 && eb == 0 && mb == 0 && sp == 0 && bs
   else decide (1 ≤ eb) && decide (eb ≤ 6) && decide (mb ≤ 6) && w == sg + eb + mb &&
     (sp != 1 || (decide (2 ≤ eb) && decide (1 ≤ mb))) && (sp != 0 || bs))

/-- The Legend's fixed descriptors 0–7 (R96). -/
def legendFixed : List Nat :=
  [0x800795C8, 0x800F0D58, 0x8007D5C8, 0x800FCD58, 0x8001C5A6, 0x8003C536, 0x8001C4A4, 0x8006E408]

/-- The value of an element code (R98). -/
def Fmt.decode (f : Fmt) (c0 : Nat) : Val :=
  let c := c0 % 2 ^ f.width
  if f.int then
    let v : Int := signed f.width c
    Val.ofInt false v (-(f.bias : Int))
  else
    let s := f.sign && bitAt c (f.width - 1)
    let e := c / 2 ^ f.mbits % 2 ^ f.ebits
    let m := c % 2 ^ f.mbits
    let etop := 2 ^ f.ebits - 1
    if f.special = .ieee ∧ e = etop then (if m = 0 then .inf s else .nan)
    else if f.special = .nanOnly ∧ e = etop ∧ m = 2 ^ f.mbits - 1 then .nan
    else if e = 0 then .fin s m (1 - (f.bias : Int) - f.mbits)
    else .fin s (2 ^ f.mbits + m) ((e : Int) - f.bias - f.mbits)

/-- The rounding modes of R104; SR carries its 16-bit random value (R105). -/
inductive Rnd where
  | rne | rz
  | sr (r16 : Nat)
deriving DecidableEq, Repr

/-- `m · 2^e` in units of `2^ulp`, rounded to an integer (the lower half of `round_mag`, R104). -/
def roundAt (rnd : Rnd) (m : Nat) (e ulp : Int) : Nat :=
  if ulp ≤ e then shl m (e - ulp)
  else
    let d := 2 ^ (ulp - e).toNat
    let t := m / d
    let r := m % d
    match rnd with
    | .rz => t
    | .rne => if 2 * r > d ∨ (2 * r = d ∧ t % 2 = 1) then t + 1 else t
    | .sr r16 => if r * 65536 / d > r16 then t + 1 else t

/-- The exponent of the rounding unit of `round_mag` (R104) for a float target. -/
def ulpExp (mbits bias : Nat) (m : Nat) (e : Int) : Int :=
  max ((bitLen m : Int) - 1 + e) (1 - (bias : Int)) - mbits

/-- Events of a conversion (R108); `dz` and `nan` serve the arithmetic (R150, R154). -/
structure Ev where
  inv : Bool := false
  ovf : Bool := false
  unf : Bool := false
  blk : Bool := false
  dz : Bool := false
  nanIn : Bool := false
deriving DecidableEq, Repr

/-- Both events. -/
def Ev.or (a b : Ev) : Ev :=
  ⟨a.inv || b.inv, a.ovf || b.ovf, a.unf || b.unf, a.blk || b.blk, a.dz || b.dz, a.nanIn || b.nanIn⟩

/-- The canonical NaN of a float format (R92, R98). -/
def Fmt.nanCode (f : Fmt) : Nat :=
  match f.special with
  | .ieee => (2 ^ f.ebits - 1) * 2 ^ f.mbits + 2 ^ (f.mbits - 1)
  | .nanOnly => 2 ^ (f.ebits + f.mbits) - 1
  | .none => 0

/-- The code of the largest finite magnitude (R90, R98). -/
def Fmt.maxCode (f : Fmt) : Nat :=
  match f.special with
  | .ieee => (2 ^ f.ebits - 1) * 2 ^ f.mbits - 1
  | .nanOnly => 2 ^ (f.ebits + f.mbits) - 2
  | .none => 2 ^ (f.ebits + f.mbits) - 1

/-- EMAX (R96, R98). -/
def Fmt.emax (f : Fmt) : Int :=
  if f.int then (f.width : Int) - 2 - f.bias else (f.maxCode / 2 ^ f.mbits : Nat) - (f.bias : Int)

/-- A magnitude code with the sign bit. -/
def Fmt.signed (f : Fmt) (neg : Bool) (c : Nat) : Nat := if f.sign && neg then c + 2 ^ (f.width - 1) else c

/-- Narrowing to an integer format with saturation (R104, R106, R107): INT8 and INT4 reach −2^(w−1); a Legend integer format saturates at its largest
finite magnitude (R90, R106). (DEDUCED: log 35) -/
def Fmt.toInt (f : Fmt) (rnd : Rnd) : Val → Nat × Ev
  | .nan => (0, { inv := true })
  | .inf neg => (if neg then 2 ^ (f.width - 1) else 2 ^ (f.width - 1) - 1, { ovf := true })
  | .fin neg m e =>
    let t := roundAt rnd m e (-(f.bias : Int))
    let lim := if neg && !f.bs then 2 ^ (f.width - 1) else 2 ^ (f.width - 1) - 1
    let t' := min t lim
    (unsigned f.width (if neg then -(t' : Int) else t'),
      { ovf := decide (t > lim), unf := decide (m ≠ 0) && decide (t = 0) })

/-- Narrowing to a float format (R104, R106, R107); `satI` is the converting instruction's SAT bit. -/
def Fmt.toFloat (f : Fmt) (rnd : Rnd) (satI : Bool) : Val → Nat × Ev
  | .nan => (f.nanCode, {})
  | .inf neg =>
    if neg && !f.sign then (f.nanCode, { inv := true })
    else match f.special with
      | .ieee => (f.signed neg ((2 ^ f.ebits - 1) * 2 ^ f.mbits), {})
      | _ => (f.nanCode, { inv := true })
  | .fin neg m e =>
    if m = 0 then (f.signed neg 0, {})
    else if neg && !f.sign then (0, { inv := true, unf := true })
    else
      let u := ulpExp f.mbits f.bias m e
      let t := roundAt rnd m e u
      let code := ((u + f.mbits + f.bias - 1).toNat) * 2 ^ f.mbits + t
      if t = 0 then (f.signed neg 0, { unf := true })
      else if code > f.maxCode then
        if satI || f.sat || rnd = .rz then (f.signed neg f.maxCode, { ovf := true, unf := f.maxCode == 0 })
        else match f.special with
          | .ieee => (f.signed neg ((2 ^ f.ebits - 1) * 2 ^ f.mbits), { ovf := true })
          | _ => (f.nanCode, { ovf := true, inv := true })
      else (f.signed neg code, {})

/-- Narrowing to any format without block scales. -/
def Fmt.narrow (f : Fmt) (rnd : Rnd) (satI : Bool) (v : Val) : Nat × Ev :=
  if f.int then f.toInt rnd v else f.toFloat rnd satI v

/-- The larger of two finite magnitudes. -/
def magMax (a b : Nat × Int) : Nat × Int :=
  if Val.lt (.fin false a.1 a.2) (.fin false b.1 b.2) then b else a

/-- The largest finite magnitude of a block. (DESIGN CHOICE: log 171) -/
def amax (vs : List Val) : Nat × Int :=
  vs.foldl (fun a v => match v with | .fin _ m e => magMax a (m, e) | _ => a) (0, 0)

/-- The code of one element of a block with scale exponent `x` (R109). (DEDUCED: log 35) -/
def Fmt.mxElem (f : Fmt) (x : Int) (rnd : Rnd) (v : Val) : Nat × Ev :=
  match v with
  | .inf _ => f.narrow rnd true v
  | _ => f.narrow rnd true (v.scale (-x))

/-- MX encoding of a block (R109): the scale byte, the element codes and the events. (DEDUCED: log 36) -/
def Fmt.mxEncode (f : Fmt) (vs : List (Val × Rnd)) : Nat × List Nat × Ev :=
  if vs.any (fun p => p.1.isNan || (p.1.isInf && f.special != .ieee)) then
    (0xFF, vs.map (fun _ => 0), { blk := true, inv := vs.any (fun p => p.1.isInf && f.special != .ieee) })
  else
    let a := amax (vs.map Prod.fst)
    let x : Int := if a.1 = 0 then -127 else min (max (((bitLen a.1 : Int) - 1 + a.2) - f.emax) (-127)) 127
    let cs := vs.map (fun p => f.mxElem x p.2 p.1)
    ((x + 127).toNat, cs.map Prod.fst, cs.foldl (fun e c => e.or c.2) {})

/-- The value of an element code under a block scale byte (R110). -/
def Fmt.mxDecode (f : Fmt) (scale : Nat) (c : Nat) : Val :=
  if scale % 256 = 0xFF then .nan else (f.decode c).scale ((scale % 256 : Nat) - 127)

/-- Rounding an exact value to binary32 (R111's `round32`; zeros keep the sign given). -/
def round32 (rnd : Rnd) (v : Val) : W32 × Ev :=
  match rnd with
  | .rz => let r := Fmt.f32.toFloat .rz false v; (BitVec.ofNat 32 r.1, r.2)
  | _ => let r := Fmt.f32.toFloat rnd false v; (BitVec.ofNat 32 r.1, r.2)

/-- The value of a binary32 word. -/
def f32 (w : W32) : Val := Fmt.f32.decode w.toNat

/-- The canonical binary32 NaN (R90). -/
def nan32 : W32 := 0x7FC00000#32

/-- Rounding to nearest even in binary32. -/
def rne32 (v : Val) : W32 := (round32 .rne v).1

/-- `⌊√n⌋` by Newton steps from above (`fuel` steps). -/
def isqrtGo (n : Nat) : Nat → Nat → Nat
  | 0, x => x
  | f + 1, x => let y := (x + n / x) / 2; if y < x then isqrtGo n f y else x

/-- `⌊√n⌋`. -/
def isqrt (n : Nat) : Nat := if n = 0 then 0 else isqrtGo n 64 (2 ^ (n.log2 / 2 + 1))

/-- The quotient `a / b` to `p` or more significant bits, the lowest bit set when the division is not exact. -/
def quot (p : Nat) (a b : Nat) : Nat × Int :=
  let k := p + bitLen b
  let n := a * 2 ^ k
  let q := n / b
  (2 * q + (if n % b = 0 then 0 else 1), -((k : Int) + 1))

/-- Exact division with its special cases (R150); the quotient carries a sticky bit. -/
def Val.div (a b : Val) : Val × Ev :=
  match a, b with
  | .nan, _ => (.nan, {})
  | _, .nan => (.nan, {})
  | .inf _, .inf _ => (.nan, { inv := true })
  | .inf n, .fin n2 _ _ => (.inf (n != n2), {})
  | .fin n _ _, .inf n2 => (.fin (n != n2) 0 0, {})
  | .fin n1 m1 e1, .fin n2 m2 e2 =>
    if m2 = 0 then (if m1 = 0 then (.nan, { inv := true }) else (.inf (n1 != n2), { dz := true }))
    else if m1 = 0 then (.fin (n1 != n2) 0 0, {})
    else let q := quot 160 m1 m2; (.fin (n1 != n2) q.1 (q.2 + e1 - e2), {})

/-- The result of an exact operation rounded to binary32, with its events: invalid when a NaN came of operands that are not NaN. (DESIGN CHOICE: log 165) -/
def finish32 (nanIn : Bool) (v : Val) (ev : Ev) : W32 × Ev :=
  let r := round32 .rne v
  (r.1, (r.2.or ev).or { nanIn := nanIn, inv := v.isNan && !nanIn })

/-- binary32 addition. -/
def add32 (a b : W32) : W32 × Ev :=
  finish32 ((f32 a).isNan || (f32 b).isNan) ((f32 a).add (f32 b)) {}
/-- binary32 subtraction. -/
def sub32 (a b : W32) : W32 × Ev :=
  finish32 ((f32 a).isNan || (f32 b).isNan) ((f32 a).add (f32 b).negate) {}
/-- binary32 multiplication. -/
def mul32 (a b : W32) : W32 × Ev :=
  finish32 ((f32 a).isNan || (f32 b).isNan) ((f32 a).mul (f32 b)) {}
/-- binary32 fused multiply-add `a · b + c`. -/
def fma32 (a b c : W32) : W32 × Ev :=
  finish32 ((f32 a).isNan || (f32 b).isNan || (f32 c).isNan) (((f32 a).mul (f32 b)).add (f32 c)) {}
/-- binary32 fused multiply-subtract `a · b − c`. -/
def fms32 (a b c : W32) : W32 × Ev :=
  finish32 ((f32 a).isNan || (f32 b).isNan || (f32 c).isNan) (((f32 a).mul (f32 b)).add (f32 c).negate) {}
/-- binary32 division, correctly rounded. -/
def div32 (a b : W32) : W32 × Ev :=
  let d := (f32 a).div (f32 b)
  finish32 ((f32 a).isNan || (f32 b).isNan) d.1 d.2
/-- MIN of R150. -/
def min32 (a b : W32) : W32 :=
  if (f32 a).isNan || (f32 b).isNan then nan32 else if (f32 a).le (f32 b) then a else b
/-- MAX of R150. -/
def max32 (a b : W32) : W32 :=
  if (f32 a).isNan || (f32 b).isNan then nan32 else if (f32 b).le (f32 a) then a else b
/-- A NaN made canonical, any other word unchanged (R92). -/
def canon32 (a : W32) : W32 := if (f32 a).isNan then nan32 else a
/-- |a|. -/
def abs32 (a : W32) : W32 := if (f32 a).isNan then nan32 else BitVec.ofNat 32 (a.toNat % 2 ^ 31)
/-- −a. -/
def neg32 (a : W32) : W32 := if (f32 a).isNan then nan32 else a ^^^ 0x80000000#32

/-- The BF16 code of a value truncated toward zero (R61); the exponent range of BF16 is that of binary32. -/
def truncBf16 (v : Val) : Nat := (Fmt.bf16.toFloat .rz false v).1

/-- The difference of two finite values. -/
def Val.sub (a b : Val) : Val := a.add b.negate

/-- The X3 split of an exact value (R61): hi, mid, lo. (DEDUCED: log 39) -/
def x3Split (v : Val) : Nat × Nat × Nat :=
  match v with
  | .nan => (0x7FC0, 0, 0)
  | .inf n => (if n then 0xFF80 else 0x7F80, 0, 0)
  | .fin n 0 _ => (if n then 0x8000 else 0, 0, 0)
  | v =>
    let hi := truncBf16 v
    let r1 := v.sub (Fmt.bf16.decode hi)
    let mid := if r1.isZero then 0 else truncBf16 r1
    let r2 := r1.sub (Fmt.bf16.decode mid)
    let lo := if r2.isZero then 0 else truncBf16 r2
    (hi, mid, lo)

/-- The value an X3 triple stands for (R61). -/
def x3Val (hi mid lo : Nat) : Val :=
  match Fmt.bf16.decode hi with
  | .nan => .nan
  | .inf n => .inf n
  | h =>
    let m := Fmt.bf16.decode mid
    let l := Fmt.bf16.decode lo
    if h.isZero && m.isZero && l.isZero then h else (h.add m).add l

end Sys2Proof.Machine
end

