-- ==== Sys2Proof/Machine/Flags.lean ====
section
/-! DEFINITION. Flag computations: the masks of `TILE_ARR_FLAGS` (R86, R108) and `VEC_FLAGS` (R177, R108). -/
namespace Sys2Proof.Machine

/-- Bits of `TILE_ARR_FLAGS`. -/
def AF_NV : Nat := 1
def AF_NAN_IN : Nat := 2
def AF_OF : Nat := 4
def AF_SAT : Nat := 8
def AF_DOF : Nat := 16
def AF_DUF : Nat := 32
def AF_SCALE_NAN : Nat := 64
def AF_LONGSUM : Nat := 128

/-- A mask of one flag when its condition holds. -/
def flagIf (b : Bool) (m : Nat) : Nat := if b then m else 0

/-- The array flags of a drain's conversion: NV, DOF and DUF (R108). (DEDUCED: log 40) -/
def drainFlags (e : Ev) : Nat := flagIf e.inv AF_NV ||| flagIf e.ovf AF_DOF ||| flagIf e.unf AF_DUF

/-- Bits of `VEC_FLAGS`. -/
def VF_NV : Nat := 1
def VF_DZ : Nat := 2
def VF_OF : Nat := 4
def VF_UF : Nat := 8
def VF_NAN_IN : Nat := 16
def VF_BLKNAN : Nat := 32
def VF_VACANT : Nat := 64
def VF_INFROW : Nat := 128

/-- The vector flags of a set of events (R108, R150, R154, R177). -/
def vecMask (e : Ev) : Nat :=
  flagIf e.inv VF_NV ||| flagIf e.dz VF_DZ ||| flagIf e.ovf VF_OF ||| flagIf e.unf VF_UF ||| flagIf e.nanIn VF_NAN_IN |||
  flagIf e.blk VF_BLKNAN

end Sys2Proof.Machine
end

