-- ==== Sys2Proof/Config.lean ====
section
/-! DEFINITION. The values the spec leaves open: opaque functions that no proof can look into. -/
namespace Sys2Proof

/-- A free value: the `n`-th value that the spec leaves open in a run (State.free counts them). (DESIGN CHOICE: log 2) -/
opaque Config.freeWord : Nat → W64

/-- Host memory: the byte at a host bus address at the `n`-th time the device reads it, where the command does not say it. (DESIGN CHOICE: log 65) -/
opaque Config.hostByte : Nat → Nat → Byte

/-- Whether a stack allows hPPR of the row that holds a granule (R280), for its DPA. (DESIGN CHOICE: log 124) -/
opaque Config.hpprAllows : Nat → Bool

/-- The certificate chain in DER (R550), for the identity key and what the alias key is derived from (R549). (PRESUMED: log 117) -/
opaque Config.certChain : List Byte → List Byte → List Byte

/-- The identity certificate, in DER, of the `n`-th unique device secret (R537, R547). (PRESUMED: log 117) -/
opaque Config.identityCert : Nat → List Byte

/-- The digest of a repair map (R561), for the numbers that its entries hold. (PRESUMED: log 117) -/
opaque Config.repairDigest : List Nat → List Byte

/-- The shared secrets of the `n`-th handshake, ECDH's and ML-KEM's one after the other (R491). (PRESUMED: log 85) -/
opaque Config.sharedSecret : Nat → List Byte

/-- HELLO and REPLY of the `n`-th handshake, one after the other (R491). (PRESUMED: log 85) -/
opaque Config.transcript : Nat → List Byte

/-- The parts of a handshake message (R489), for the free value that stands for it: 0 the ECDH key, 1 the ML-KEM key or ciphertext, 2 the signature. (PRESUMED: log 85) -/
opaque Config.hsPart : Nat → Nat → List Byte

/-- The SAK of a port by its number (R498). (PRESUMED: log 85) -/
opaque Config.sak : Nat → Nat → List Byte
/-- The salt and SSCI of a port's SAK by its number (R498). (PRESUMED: log 85) -/
opaque Config.sakIv : Nat → Nat → List Byte

/-- AES-256-GCM (R476, R498, R532): the ciphertext and the tag, for a key, a nonce, additional data and a plaintext. (PRESUMED: log 85; DESIGN CHOICE: log 91) -/
opaque Config.gcmText : List Byte → List Byte → List Byte → List Byte → List Byte
opaque Config.gcmTag : List Byte → List Byte → List Byte → List Byte → BitVec 128

/-- The export master secret of the `n`-th session (R532). (DESIGN CHOICE: log 91) -/
opaque Config.exportSecret : Nat → List Byte

/-- The hashes of the Tamtur root keys that a tester fuses (R545, R547), and the public key, in DER, that the ROM derives from the `n`-th unique device secret (R549, R550). (DESIGN CHOICE: log 158) -/
opaque Config.tamturRoots : List (List Byte)
opaque Config.identityKey : Nat → List Byte

/-- The digest of the secure ROM (R561). (PRESUMED: log 117) -/
opaque Config.romDigest : List Byte

end Sys2Proof
end

