-- ==== Sys2Proof/Machine/Sparse.lean ====
section
/-! DEFINITION. Sparse maps: a list of (key, value) pairs with keys strictly rising and no entry equal to the default, so equal maps are
equal lists. Every map of State (memory, registers, tiles, provinces, ports, links) is one. -/
namespace Sys2Proof.Machine

/-- A map from numbers to values; an unlisted key holds the map's default. -/
abbrev Sparse (α : Type) := List (Nat × α)

/-- The value at `k`, `d` where it is not listed. -/
def Sparse.get {α : Type} (d : α) : Sparse α → Nat → α
  | [], _ => d
  | (k', v) :: m, k => if k' = k then v else Sparse.get d m k

/-- Put the entry `(k, v)` at its place among rising keys, in place of an entry at `k`. -/
def Sparse.ins {α : Type} : Sparse α → Nat → α → Sparse α
  | [], k, v => [(k, v)]
  | (k', v') :: m, k, v =>
    if k' < k then (k', v') :: Sparse.ins m k v
    else if k' = k then (k, v) :: m
    else (k, v) :: (k', v') :: m

/-- Put `v` at `k`; `keep` says whether `v` differs from the default (a default value removes the entry). -/
def Sparse.put {α : Type} (keep : Bool) (m : Sparse α) (k : Nat) (v : α) : Sparse α :=
  if keep then Sparse.ins m k v else m.filter (fun e => e.1 != k)

/-- Set the value at `k`, keeping the canonical form. -/
def Sparse.set {α : Type} [DecidableEq α] (d : α) (m : Sparse α) (k : Nat) (v : α) : Sparse α :=
  Sparse.put (decide (v ≠ d)) m k v

/-- Update the value at `k`. -/
def Sparse.upd {α : Type} [DecidableEq α] (d : α) (m : Sparse α) (k : Nat) (f : α → α) : Sparse α :=
  Sparse.set d m k (f (Sparse.get d m k))

/-- The canonical form: keys strictly rising, no entry equal to its default. -/
def Sparse.wf {α : Type} [DecidableEq α] (d : Nat → α) : Sparse α → Bool
  | [] => true
  | [(k, v)] => decide (v ≠ d k)
  | (k, v) :: (k', v') :: m => decide (v ≠ d k) && decide (k < k') && Sparse.wf d ((k', v') :: m)

/-- Remove every key that satisfies `p` (those keys then hold the default). -/
def Sparse.drop {α : Type} (p : Nat → Bool) (m : Sparse α) : Sparse α := m.filter (fun e => !p e.1)

end Sys2Proof.Machine
end

