-- ==== Sys2Proof/Machine/RegTypes.lean ====
section
/-! DEFINITION. Registers, fields and their access codes (R4), as the register tables of the spec give them. -/
namespace Sys2Proof.Machine

/-- The register blocks (R664, R663, R667, R668): one per prefix and kind of unit. -/
inductive Block where
  | dev | mer | cc | tile | vec | crrTile | srv | dlr | crrDie | tal | mem | gzt | rde | ethDie | ethPort | ndx
  | hifFn | hand | hifDev | stw | tst | pwr | prov
deriving DecidableEq, Repr

/-- A number per block, for the register file's key. -/
def Block.code : Block → Nat
  | .dev => 0 | .mer => 1 | .cc => 2 | .tile => 3 | .vec => 4 | .crrTile => 5 | .srv => 6 | .dlr => 7 | .crrDie => 8 | .tal => 9
  | .mem => 10 | .gzt => 11 | .rde => 12 | .ethDie => 13 | .ethPort => 14 | .ndx => 15 | .hifFn => 16 | .hand => 17
  | .hifDev => 18 | .stw => 19 | .tst => 20 | .pwr => 21 | .prov => 22

/-- A register: its block and its offset in the block. -/
structure Reg where
  block : Block
  off : Nat
deriving DecidableEq, Repr

/-- A field of a register: its lowest bit and its width. -/
structure Fld where
  reg : Reg
  lo : Nat
  width : Nat
deriving DecidableEq, Repr

/-- The access codes of R4. -/
inductive Access where
  | ro | rw | wo | w1c | w1s | rc | rwl
deriving DecidableEq, Repr

/-- The values a write may give a field; another value leaves the field unchanged. -/
inductive Legal where
  | any
  | range (lo hi : Nat)
  | mult (lo hi m : Nat)
deriving DecidableEq, Repr

/-- Whether the field takes the value. -/
def Legal.ok : Legal → Nat → Bool
  | .any, _ => true
  | .range lo hi, v => decide (lo ≤ v) && decide (v ≤ hi)
  | .mult lo hi m, v => decide (lo ≤ v) && decide (v ≤ hi) && v % m == 0

/-- One row of a register table; bits that no row names are reserved (R7). -/
structure FieldDef where
  name : String
  lo : Nat
  width : Nat
  acc : Access
  reset : Nat
  legal : Legal
deriving DecidableEq, Repr

/-- One register table: `count` registers, `stride` bytes apart, the first at `off`, `size` bits each. -/
structure RegDef where
  name : String
  off : Nat
  count : Nat
  stride : Nat
  size : Nat
  fields : List FieldDef
deriving DecidableEq, Repr

/-- Whether the table describes the register at `off`. -/
def RegDef.holds (d : RegDef) (off : Nat) : Bool :=
  if d.count ≤ 1 then off == d.off
  else decide (d.off ≤ off) && (off - d.off) % d.stride == 0 && decide ((off - d.off) / d.stride < d.count)

/-- The word a register holds after reset (R9): the Reset column of its fields. -/
def RegDef.resetWord (d : RegDef) : Nat :=
  d.fields.foldl (fun w f => w + f.reset % 2 ^ f.width * 2 ^ f.lo) 0

/-- The key of a register of a unit in the register file. -/
def Reg.key (unit : Nat) (r : Reg) : Nat := (r.block.code * 2 ^ 24 + unit) * 2 ^ 16 + r.off

end Sys2Proof.Machine
end

