-- ==== Sys2Proof/Machine/RegTable.lean ====
section
/-! DEFINITION. The register tables of the spec, chapter by chapter: one constant for every register and every field (`<REGISTER>_<FIELD>`),
and per block the list of its registers with the access code, the reset value and the legal values of each field. -/
namespace Sys2Proof.Machine

/-- `MER_TICK_PERIOD` (spec file 02). -/
def MER_TICK_PERIOD : Reg := ⟨.mer, 0x0⟩
def MER_TICK_PERIOD_PERIOD : Fld := ⟨MER_TICK_PERIOD, 0, 9⟩
def MER_TICK_PERIOD_NEXT : Fld := ⟨MER_TICK_PERIOD, 16, 9⟩
def MER_TICK_PERIOD_ARM : Fld := ⟨MER_TICK_PERIOD, 31, 1⟩
/-- `MER_FRAME_NUM` (spec file 02). -/
def MER_FRAME_NUM : Reg := ⟨.mer, 0x8⟩
def MER_FRAME_NUM_FRAME : Fld := ⟨MER_FRAME_NUM, 0, 64⟩
/-- `MER_EPOCH` (spec file 02). -/
def MER_EPOCH : Reg := ⟨.mer, 0x10⟩
def MER_EPOCH_EPOCH : Fld := ⟨MER_EPOCH, 0, 64⟩
/-- `MER_BASE_FRAME` (spec file 02). -/
def MER_BASE_FRAME : Reg := ⟨.mer, 0x18⟩
def MER_BASE_FRAME_BASE : Fld := ⟨MER_BASE_FRAME, 0, 64⟩
/-- `MER_SWITCH_FRAME` (spec file 02). -/
def MER_SWITCH_FRAME : Reg := ⟨.mer, 0x20⟩
def MER_SWITCH_FRAME_SWITCH : Fld := ⟨MER_SWITCH_FRAME, 0, 64⟩
/-- `MER_STATUS` (spec file 02). -/
def MER_STATUS : Reg := ⟨.mer, 0x28⟩
def MER_STATUS_STATE : Fld := ⟨MER_STATUS, 0, 2⟩
def MER_STATUS_PPS_PRESENT : Fld := ⟨MER_STATUS, 2, 1⟩
def MER_STATUS_STEP_PENDING : Fld := ⟨MER_STATUS, 3, 1⟩
def MER_STATUS_DRIFT_SEEN : Fld := ⟨MER_STATUS, 8, 1⟩
def MER_STATUS_HOLDOVER_SEEN : Fld := ⟨MER_STATUS, 9, 1⟩
def MER_STATUS_FREE_SEEN : Fld := ⟨MER_STATUS, 10, 1⟩
def MER_STATUS_PPS_FAULT : Fld := ⟨MER_STATUS, 11, 1⟩
def MER_STATUS_CFG_ERR : Fld := ⟨MER_STATUS, 12, 1⟩
def MER_STATUS_STEPPED : Fld := ⟨MER_STATUS, 13, 1⟩
/-- `MER_PTP_CTRL` (spec file 02). -/
def MER_PTP_CTRL : Reg := ⟨.mer, 0x2c⟩
def MER_PTP_CTRL_ENABLE : Fld := ⟨MER_PTP_CTRL, 0, 1⟩
def MER_PTP_CTRL_ROLE : Fld := ⟨MER_PTP_CTRL, 1, 2⟩
def MER_PTP_CTRL_DELAY : Fld := ⟨MER_PTP_CTRL, 3, 1⟩
def MER_PTP_CTRL_TRANSPORT : Fld := ⟨MER_PTP_CTRL, 4, 2⟩
def MER_PTP_CTRL_ONE_STEP : Fld := ⟨MER_PTP_CTRL, 6, 1⟩
def MER_PTP_CTRL_DOMAIN : Fld := ⟨MER_PTP_CTRL, 8, 7⟩
def MER_PTP_CTRL_SRC_PORT : Fld := ⟨MER_PTP_CTRL, 16, 7⟩
def MER_PTP_CTRL_SLEW : Fld := ⟨MER_PTP_CTRL, 24, 8⟩
/-- `MER_OFFSET` (spec file 02). -/
def MER_OFFSET : Reg := ⟨.mer, 0x30⟩
def MER_OFFSET_OFFSET : Fld := ⟨MER_OFFSET, 0, 32⟩
/-- `MER_HOLDOVER` (spec file 02). -/
def MER_HOLDOVER : Reg := ⟨.mer, 0x38⟩
def MER_HOLDOVER_LIMIT_S : Fld := ⟨MER_HOLDOVER, 0, 16⟩
def MER_HOLDOVER_LIMIT_ERR : Fld := ⟨MER_HOLDOVER, 16, 16⟩
/-- `MER_PPS_CTRL` (spec file 02). -/
def MER_PPS_CTRL : Reg := ⟨.mer, 0x34⟩
def MER_PPS_CTRL_IN_EN : Fld := ⟨MER_PPS_CTRL, 0, 1⟩
def MER_PPS_CTRL_IN_EDGE : Fld := ⟨MER_PPS_CTRL, 1, 1⟩
def MER_PPS_CTRL_OUT_MODE : Fld := ⟨MER_PPS_CTRL, 4, 2⟩
def MER_PPS_CTRL_OUT_DIV : Fld := ⟨MER_PPS_CTRL, 8, 4⟩
def MER_PPS_CTRL_OUT_WIDTH : Fld := ⟨MER_PPS_CTRL, 16, 8⟩
/-- `MER_GLOB_CTRL` (spec file 02). -/
def MER_GLOB_CTRL : Reg := ⟨.mer, 0x3c⟩
def MER_GLOB_CTRL_HOP_NS : Fld := ⟨MER_GLOB_CTRL, 0, 16⟩
def MER_GLOB_CTRL_LATE : Fld := ⟨MER_GLOB_CTRL, 16, 16⟩
/-- `TILE_ACC_CTRL` (spec file 03). -/
def TILE_ACC_CTRL : Reg := ⟨.tile, 0x0⟩
def TILE_ACC_CTRL_LONGSUM_THRESH : Fld := ⟨TILE_ACC_CTRL, 0, 16⟩
def TILE_ACC_CTRL_ACC_ROUND : Fld := ⟨TILE_ACC_CTRL, 16, 2⟩
/-- `TILE_ARR_FLAGS` (spec file 03). -/
def TILE_ARR_FLAGS : Reg := ⟨.tile, 0x8⟩
def TILE_ARR_FLAGS_NV : Fld := ⟨TILE_ARR_FLAGS, 0, 1⟩
def TILE_ARR_FLAGS_NAN_IN : Fld := ⟨TILE_ARR_FLAGS, 1, 1⟩
def TILE_ARR_FLAGS_OF : Fld := ⟨TILE_ARR_FLAGS, 2, 1⟩
def TILE_ARR_FLAGS_SAT : Fld := ⟨TILE_ARR_FLAGS, 3, 1⟩
def TILE_ARR_FLAGS_DOF : Fld := ⟨TILE_ARR_FLAGS, 4, 1⟩
def TILE_ARR_FLAGS_DUF : Fld := ⟨TILE_ARR_FLAGS, 5, 1⟩
def TILE_ARR_FLAGS_SCALE_NAN : Fld := ⟨TILE_ARR_FLAGS, 6, 1⟩
def TILE_ARR_FLAGS_LONGSUM : Fld := ⟨TILE_ARR_FLAGS, 7, 1⟩
/-- `TILE_ARR_STATUS` (spec file 03). -/
def TILE_ARR_STATUS : Reg := ⟨.tile, 0x10⟩
def TILE_ARR_STATUS_STATE : Fld := ⟨TILE_ARR_STATUS, 0, 8⟩
def TILE_ARR_STATUS_OWNER : Fld := ⟨TILE_ARR_STATUS, 8, 12⟩
def TILE_ARR_STATUS_QDEPTH : Fld := ⟨TILE_ARR_STATUS, 20, 3⟩
def TILE_ARR_STATUS_PAIR01 : Fld := ⟨TILE_ARR_STATUS, 23, 1⟩
def TILE_ARR_STATUS_PAIR23 : Fld := ⟨TILE_ARR_STATUS, 24, 1⟩
/-- `TILE_DBG_CTRL` (spec file 03). -/
def TILE_DBG_CTRL : Reg := ⟨.tile, 0x20⟩
def TILE_DBG_CTRL_ACC_VIS : Fld := ⟨TILE_DBG_CTRL, 0, 1⟩
def TILE_DBG_CTRL_PEEK_BANK : Fld := ⟨TILE_DBG_CTRL, 1, 2⟩
/-- `TILE_ACC_PEEK` (spec file 03). -/
def TILE_ACC_PEEK (n : Nat) : Reg := ⟨.tile, 0x400 + 4 * n⟩
def TILE_ACC_PEEK_ENTRY (n : Nat) : Fld := ⟨TILE_ACC_PEEK n, 0, 32⟩
/-- `PROV_LEGEND` (spec file 04). -/
def PROV_LEGEND (n : Nat) : Reg := ⟨.prov, 0x100 + 4 * n⟩
def PROV_LEGEND_WIDTH (n : Nat) : Fld := ⟨PROV_LEGEND n, 0, 4⟩
def PROV_LEGEND_EBITS (n : Nat) : Fld := ⟨PROV_LEGEND n, 4, 3⟩
def PROV_LEGEND_MBITS (n : Nat) : Fld := ⟨PROV_LEGEND n, 7, 3⟩
def PROV_LEGEND_SIGN (n : Nat) : Fld := ⟨PROV_LEGEND n, 10, 1⟩
def PROV_LEGEND_SPECIAL (n : Nat) : Fld := ⟨PROV_LEGEND n, 11, 2⟩
def PROV_LEGEND_INT (n : Nat) : Fld := ⟨PROV_LEGEND n, 13, 1⟩
def PROV_LEGEND_BS (n : Nat) : Fld := ⟨PROV_LEGEND n, 14, 1⟩
def PROV_LEGEND_SAT (n : Nat) : Fld := ⟨PROV_LEGEND n, 15, 1⟩
def PROV_LEGEND_BIAS (n : Nat) : Fld := ⟨PROV_LEGEND n, 16, 6⟩
def PROV_LEGEND_VALID (n : Nat) : Fld := ⟨PROV_LEGEND n, 31, 1⟩
/-- `PROV_SR_SEED` (spec file 05). -/
def PROV_SR_SEED : Reg := ⟨.prov, 0x180⟩
def PROV_SR_SEED_SEED : Fld := ⟨PROV_SR_SEED, 0, 64⟩
/-- `VEC_FLAGS` (spec file 06). -/
def VEC_FLAGS : Reg := ⟨.vec, 0x0⟩
def VEC_FLAGS_NV : Fld := ⟨VEC_FLAGS, 0, 1⟩
def VEC_FLAGS_DZ : Fld := ⟨VEC_FLAGS, 1, 1⟩
def VEC_FLAGS_OF : Fld := ⟨VEC_FLAGS, 2, 1⟩
def VEC_FLAGS_UF : Fld := ⟨VEC_FLAGS, 3, 1⟩
def VEC_FLAGS_NAN_IN : Fld := ⟨VEC_FLAGS, 4, 1⟩
def VEC_FLAGS_BLKNAN : Fld := ⟨VEC_FLAGS, 5, 1⟩
def VEC_FLAGS_VACANT : Fld := ⟨VEC_FLAGS, 6, 1⟩
def VEC_FLAGS_INFROW : Fld := ⟨VEC_FLAGS, 7, 1⟩
/-- `VEC_STATUS` (spec file 06). -/
def VEC_STATUS : Reg := ⟨.vec, 0x8⟩
def VEC_STATUS_QDEPTH : Fld := ⟨VEC_STATUS, 0, 4⟩
def VEC_STATUS_BUSY : Fld := ⟨VEC_STATUS, 4, 1⟩
/-- `VEC_VACANT` (spec file 06). -/
def VEC_VACANT : Reg := ⟨.vec, 0x10⟩
def VEC_VACANT_ROWS : Fld := ⟨VEC_VACANT, 0, 32⟩
/-- `CC_SEAT_STATE` (spec file 07). -/
def CC_SEAT_STATE : Reg := ⟨.cc, 0x0⟩
def CC_SEAT_STATE_STATE : Fld := ⟨CC_SEAT_STATE, 0, 32⟩
/-- `CC_EXC` (spec file 07). -/
def CC_EXC : Reg := ⟨.cc, 0x8⟩
def CC_EXC_CAUSE : Fld := ⟨CC_EXC, 0, 8⟩
def CC_EXC_SEAT : Fld := ⟨CC_EXC, 8, 3⟩
def CC_EXC_MULTI : Fld := ⟨CC_EXC, 11, 1⟩
def CC_EXC_PC : Fld := ⟨CC_EXC, 16, 12⟩
def CC_EXC_INFO : Fld := ⟨CC_EXC, 32, 16⟩
/-- `CC_EXC_INSN` (spec file 07). -/
def CC_EXC_INSN : Reg := ⟨.cc, 0x10⟩
def CC_EXC_INSN_INSN : Fld := ⟨CC_EXC_INSN, 0, 64⟩
/-- `CC_EXC_ADDR` (spec file 07). -/
def CC_EXC_ADDR : Reg := ⟨.cc, 0x18⟩
def CC_EXC_ADDR_ADDR : Fld := ⟨CC_EXC_ADDR, 0, 64⟩
/-- `CC_CYCLES` (spec file 07). -/
def CC_CYCLES : Reg := ⟨.cc, 0x20⟩
def CC_CYCLES_CYCLES : Fld := ⟨CC_CYCLES, 0, 32⟩
/-- `CC_RETIRED` (spec file 07). -/
def CC_RETIRED : Reg := ⟨.cc, 0x28⟩
def CC_RETIRED_RETIRED : Fld := ⟨CC_RETIRED, 0, 32⟩
/-- `CC_SEAT_PC` (spec file 07). -/
def CC_SEAT_PC (n : Nat) : Reg := ⟨.cc, 0x40 + 4 * n⟩
def CC_SEAT_PC_PC (n : Nat) : Fld := ⟨CC_SEAT_PC n, 0, 12⟩
/-- `CC_DBG_CTRL` (spec file 07). -/
def CC_DBG_CTRL : Reg := ⟨.cc, 0x80⟩
def CC_DBG_CTRL_EN : Fld := ⟨CC_DBG_CTRL, 0, 1⟩
def CC_DBG_CTRL_HALT : Fld := ⟨CC_DBG_CTRL, 1, 1⟩
def CC_DBG_CTRL_STEP : Fld := ⟨CC_DBG_CTRL, 2, 1⟩
def CC_DBG_CTRL_SEATS : Fld := ⟨CC_DBG_CTRL, 8, 8⟩
def CC_DBG_CTRL_BP_PC : Fld := ⟨CC_DBG_CTRL, 16, 12⟩
def CC_DBG_CTRL_BP_EN : Fld := ⟨CC_DBG_CTRL, 28, 1⟩
/-- `DLR_CTRL` (spec file 08). -/
def DLR_CTRL : Reg := ⟨.dlr, 0x0⟩
def DLR_CTRL_HOLD : Fld := ⟨DLR_CTRL, 0, 1⟩
def DLR_CTRL_STEAL_EN : Fld := ⟨DLR_CTRL, 1, 1⟩
def DLR_CTRL_MARGIN : Fld := ⟨DLR_CTRL, 16, 16⟩
/-- `DLR_ROWMAP` (spec file 08). -/
def DLR_ROWMAP (n : Nat) : Reg := ⟨.dlr, 0x100 + 4 * n⟩
def DLR_ROWMAP_FAULTCOL (n : Nat) : Fld := ⟨DLR_ROWMAP n, 0, 6⟩
def DLR_ROWMAP_MOVING (n : Nat) : Fld := ⟨DLR_ROWMAP n, 6, 1⟩
/-- `PROV_PLAN_LAG` (spec file 08). -/
def PROV_PLAN_LAG : Reg := ⟨.prov, 0x1a0⟩
def PROV_PLAN_LAG_LAG : Fld := ⟨PROV_PLAN_LAG, 0, 32⟩
/-- `PROV_MISDEAL_CNT` (spec file 08). -/
def PROV_MISDEAL_CNT : Reg := ⟨.prov, 0x1a8⟩
def PROV_MISDEAL_CNT_COUNT : Fld := ⟨PROV_MISDEAL_CNT, 0, 64⟩
/-- `MEM_SCRUB_CTRL` (spec file 09). -/
def MEM_SCRUB_CTRL : Reg := ⟨.mem, 0x0⟩
def MEM_SCRUB_CTRL_PATROL_EN : Fld := ⟨MEM_SCRUB_CTRL, 0, 1⟩
def MEM_SCRUB_CTRL_PERIOD_H : Fld := ⟨MEM_SCRUB_CTRL, 4, 8⟩
/-- `MEM_ROW_WIN` (spec file 09). -/
def MEM_ROW_WIN : Reg := ⟨.mem, 0x8⟩
def MEM_ROW_WIN_LIMIT : Fld := ⟨MEM_ROW_WIN, 0, 8⟩
def MEM_ROW_WIN_WINDOW_MIN : Fld := ⟨MEM_ROW_WIN, 8, 16⟩
/-- `MEM_ECC_CNT` (spec file 09). -/
def MEM_ECC_CNT : Reg := ⟨.mem, 0x10⟩
def MEM_ECC_CNT_CORR : Fld := ⟨MEM_ECC_CNT, 0, 32⟩
def MEM_ECC_CNT_UNCORR : Fld := ⟨MEM_ECC_CNT, 32, 16⟩
def MEM_ECC_CNT_POISON : Fld := ⟨MEM_ECC_CNT, 48, 16⟩
/-- `MEM_STATUS` (spec file 09). -/
def MEM_STATUS : Reg := ⟨.mem, 0x18⟩
def MEM_STATUS_STATE : Fld := ⟨MEM_STATUS, 0, 2⟩
def MEM_STATUS_PROV : Fld := ⟨MEM_STATUS, 2, 8⟩
def MEM_STATUS_HOLD : Fld := ⟨MEM_STATUS, 10, 1⟩
def MEM_STATUS_HOT : Fld := ⟨MEM_STATUS, 11, 1⟩
def MEM_STATUS_REMAP_USED : Fld := ⟨MEM_STATUS, 12, 10⟩
/-- `GZT_ROOT` (spec file 09). -/
def GZT_ROOT (n : Nat) : Reg := ⟨.gzt, 8 * n⟩
def GZT_ROOT_V (n : Nat) : Fld := ⟨GZT_ROOT n, 0, 1⟩
def GZT_ROOT_ADDR (n : Nat) : Fld := ⟨GZT_ROOT n, 12, 28⟩
/-- `PROV_MEM_SPLIT` (spec file 09). -/
def PROV_MEM_SPLIT : Reg := ⟨.prov, 0x1b8⟩
def PROV_MEM_SPLIT_READ : Fld := ⟨PROV_MEM_SPLIT, 0, 5⟩
def PROV_MEM_SPLIT_WRITE : Fld := ⟨PROV_MEM_SPLIT, 8, 5⟩
def PROV_MEM_SPLIT_REMOTE : Fld := ⟨PROV_MEM_SPLIT, 16, 5⟩
/-- `CRR_TC_STATUS` (spec file 10). -/
def CRR_TC_STATUS : Reg := ⟨.crrTile, 0x0⟩
def CRR_TC_STATUS_Q0 : Fld := ⟨CRR_TC_STATUS, 0, 4⟩
def CRR_TC_STATUS_Q1 : Fld := ⟨CRR_TC_STATUS, 4, 4⟩
def CRR_TC_STATUS_OUT_TRICK : Fld := ⟨CRR_TC_STATUS, 8, 11⟩
def CRR_TC_STATUS_OUT_ALL : Fld := ⟨CRR_TC_STATUS, 19, 11⟩
/-- `CRR_BC_CTRL` (spec file 10). -/
def CRR_BC_CTRL (n : Nat) : Reg := ⟨.crrDie, 0x100 + 8 * n⟩
def CRR_BC_CTRL_PROV (n : Nat) : Fld := ⟨CRR_BC_CTRL n, 0, 8⟩
def CRR_BC_CTRL_INDEX (n : Nat) : Fld := ⟨CRR_BC_CTRL n, 8, 4⟩
def CRR_BC_CTRL_EN (n : Nat) : Fld := ⟨CRR_BC_CTRL n, 12, 1⟩
/-- `CRR_BC_STATUS` (spec file 10). -/
def CRR_BC_STATUS (n : Nat) : Reg := ⟨.crrDie, 0x104 + 8 * n⟩
def CRR_BC_STATUS_STATE (n : Nat) : Fld := ⟨CRR_BC_STATUS n, 0, 2⟩
def CRR_BC_STATUS_QDEPTH (n : Nat) : Fld := ⟨CRR_BC_STATUS n, 2, 7⟩
def CRR_BC_STATUS_CHAIN (n : Nat) : Fld := ⟨CRR_BC_STATUS n, 16, 16⟩
/-- `TAL_CFG` (spec file 10). -/
def TAL_CFG (n : Nat) : Reg := ⟨.tal, 8 * n⟩
def TAL_CFG_PROV (n : Nat) : Fld := ⟨TAL_CFG n, 0, 8⟩
def TAL_CFG_INDEX (n : Nat) : Fld := ⟨TAL_CFG n, 8, 3⟩
def TAL_CFG_EN (n : Nat) : Fld := ⟨TAL_CFG n, 11, 1⟩
/-- `TAL_STATUS` (spec file 10). -/
def TAL_STATUS (n : Nat) : Reg := ⟨.tal, 0x200 + 4 * n⟩
def TAL_STATUS_COUNT (n : Nat) : Fld := ⟨TAL_STATUS n, 0, 11⟩
def TAL_STATUS_WAITERS (n : Nat) : Fld := ⟨TAL_STATUS n, 11, 8⟩
def TAL_STATUS_PUTWAIT (n : Nat) : Fld := ⟨TAL_STATUS n, 19, 1⟩
/-- `PROV_RNG_MODE` (spec file 11). -/
def PROV_RNG_MODE : Reg := ⟨.prov, 0x1c0⟩
def PROV_RNG_MODE_MODE : Fld := ⟨PROV_RNG_MODE, 0, 1⟩
/-- `PROV_STEP` (spec file 11). -/
def PROV_STEP : Reg := ⟨.prov, 0x1c8⟩
def PROV_STEP_STEP : Fld := ⟨PROV_STEP, 0, 64⟩
/-- `PROV_STEP_STATE` (spec file 11). -/
def PROV_STEP_STATE : Reg := ⟨.prov, 0x1d0⟩
def PROV_STEP_STATE_STATE : Fld := ⟨PROV_STEP_STATE, 0, 3⟩
def PROV_STEP_STATE_LAST : Fld := ⟨PROV_STEP_STATE, 3, 3⟩
def PROV_STEP_STATE_REASON : Fld := ⟨PROV_STEP_STATE, 8, 8⟩
def PROV_STEP_STATE_CONSEC : Fld := ⟨PROV_STEP_STATE, 16, 16⟩
/-- `PROV_SKIP_CTRL` (spec file 11). -/
def PROV_SKIP_CTRL : Reg := ⟨.prov, 0x1d8⟩
def PROV_SKIP_CTRL_LIMIT : Fld := ⟨PROV_SKIP_CTRL, 0, 8⟩
def PROV_SKIP_CTRL_TRI_PAUSE : Fld := ⟨PROV_SKIP_CTRL, 8, 1⟩
/-- `PROV_SKIP_CNT` (spec file 11). -/
def PROV_SKIP_CNT : Reg := ⟨.prov, 0x1e0⟩
def PROV_SKIP_CNT_COUNT : Fld := ⟨PROV_SKIP_CNT, 0, 32⟩
/-- `PROV_SAT_EVENTS` (spec file 11). -/
def PROV_SAT_EVENTS : Reg := ⟨.prov, 0x1e8⟩
def PROV_SAT_EVENTS_STEPS : Fld := ⟨PROV_SAT_EVENTS, 0, 32⟩
def PROV_SAT_EVENTS_ELEMENTS : Fld := ⟨PROV_SAT_EVENTS, 32, 32⟩
/-- `RDE_MC_CTRL` (spec file 13). -/
def RDE_MC_CTRL : Reg := ⟨.rde, 0x0⟩
def RDE_MC_CTRL_LAG : Fld := ⟨RDE_MC_CTRL, 0, 8⟩
def RDE_MC_CTRL_EXCL : Fld := ⟨RDE_MC_CTRL, 8, 8⟩
def RDE_MC_CTRL_PATCH_EN : Fld := ⟨RDE_MC_CTRL, 16, 1⟩
/-- `RDE_SLICE_STATUS` (spec file 13). -/
def RDE_SLICE_STATUS : Reg := ⟨.rde, 0x8⟩
def RDE_SLICE_STATUS_ACTIVE : Fld := ⟨RDE_SLICE_STATUS, 0, 8⟩
def RDE_SLICE_STATUS_BUF_USED : Fld := ⟨RDE_SLICE_STATUS, 8, 10⟩
/-- `RDE_TRI_RATE` (spec file 13). -/
def RDE_TRI_RATE (n : Nat) : Reg := ⟨.rde, 0x100 + 4 * n⟩
def RDE_TRI_RATE_S (n : Nat) : Fld := ⟨RDE_TRI_RATE n, 0, 5⟩
/-- `RDE_PSTEP` (spec file 13). -/
def RDE_PSTEP (n : Nat) : Reg := ⟨.rde, 0x800 + 8 * n⟩
def RDE_PSTEP_NF_WIRE (n : Nat) : Fld := ⟨RDE_PSTEP n, 0, 32⟩
def RDE_PSTEP_TRI_MISMATCH (n : Nat) : Fld := ⟨RDE_PSTEP n, 32, 32⟩
/-- `RDE_PEVT` (spec file 13). -/
def RDE_PEVT (n : Nat) : Reg := ⟨.rde, 0x1000 + 8 * n⟩
def RDE_PEVT_EXCL (n : Nat) : Fld := ⟨RDE_PEVT n, 0, 16⟩
def RDE_PEVT_PATCH (n : Nat) : Fld := ⟨RDE_PEVT n, 16, 16⟩
def RDE_PEVT_DROP (n : Nat) : Fld := ⟨RDE_PEVT n, 32, 16⟩
def RDE_PEVT_BAD (n : Nat) : Fld := ⟨RDE_PEVT n, 48, 16⟩
/-- `PROV_RANK` (spec file 14). -/
def PROV_RANK : Reg := ⟨.prov, 0x200⟩
def PROV_RANK_RANK : Fld := ⟨PROV_RANK, 0, 17⟩
def PROV_RANK_LASTRANK : Fld := ⟨PROV_RANK, 32, 17⟩
/-- `PROV_STANDIN` (spec file 14). -/
def PROV_STANDIN : Reg := ⟨.prov, 0x208⟩
def PROV_STANDIN_MIRROR_ORD : Fld := ⟨PROV_STANDIN, 0, 16⟩
def PROV_STANDIN_MIRROR_VALID : Fld := ⟨PROV_STANDIN, 16, 1⟩
def PROV_STANDIN_AUTO : Fld := ⟨PROV_STANDIN, 17, 1⟩
/-- `PROV_MIRROR_STEP` (spec file 14). -/
def PROV_MIRROR_STEP : Reg := ⟨.prov, 0x210⟩
def PROV_MIRROR_STEP_STEP : Fld := ⟨PROV_MIRROR_STEP, 0, 64⟩
/-- `ETH_LANE_MODE` (spec file 15). -/
def ETH_LANE_MODE : Reg := ⟨.ethDie, 0x0⟩
def ETH_LANE_MODE_Q0 : Fld := ⟨ETH_LANE_MODE, 0, 3⟩
def ETH_LANE_MODE_Q1 : Fld := ⟨ETH_LANE_MODE, 3, 3⟩
def ETH_LANE_MODE_Q2 : Fld := ⟨ETH_LANE_MODE, 6, 3⟩
def ETH_LANE_MODE_Q3 : Fld := ⟨ETH_LANE_MODE, 9, 3⟩
def ETH_LANE_MODE_CFG_ERR : Fld := ⟨ETH_LANE_MODE, 31, 1⟩
/-- `ETH_LANE_SYMERR` (spec file 15). -/
def ETH_LANE_SYMERR (n : Nat) : Reg := ⟨.ethDie, 0x100 + 8 * n⟩
def ETH_LANE_SYMERR_SYM (n : Nat) : Fld := ⟨ETH_LANE_SYMERR n, 0, 48⟩
/-- `ETH_PORT_CTRL` (spec file 15). -/
def ETH_PORT_CTRL : Reg := ⟨.ethPort, 0x0⟩
def ETH_PORT_CTRL_EN : Fld := ⟨ETH_PORT_CTRL, 0, 1⟩
def ETH_PORT_CTRL_RATE : Fld := ⟨ETH_PORT_CTRL, 1, 1⟩
def ETH_PORT_CTRL_AN : Fld := ⟨ETH_PORT_CTRL, 2, 1⟩
def ETH_PORT_CTRL_PAUSE_MODE : Fld := ⟨ETH_PORT_CTRL, 3, 2⟩
def ETH_PORT_CTRL_PTP_EN : Fld := ⟨ETH_PORT_CTRL, 5, 1⟩
def ETH_PORT_CTRL_MACSEC_EN : Fld := ⟨ETH_PORT_CTRL, 6, 1⟩
def ETH_PORT_CTRL_VID : Fld := ⟨ETH_PORT_CTRL, 8, 12⟩
def ETH_PORT_CTRL_PTP_PRI : Fld := ⟨ETH_PORT_CTRL, 20, 3⟩
def ETH_PORT_CTRL_PCP_TAG : Fld := ⟨ETH_PORT_CTRL, 23, 1⟩
def ETH_PORT_CTRL_MAXFRAME : Fld := ⟨ETH_PORT_CTRL, 32, 14⟩
def ETH_PORT_CTRL_BER_EXP : Fld := ⟨ETH_PORT_CTRL, 48, 4⟩
def ETH_PORT_CTRL_FLAP_LIMIT : Fld := ⟨ETH_PORT_CTRL, 52, 4⟩
def ETH_PORT_CTRL_HOLD_S : Fld := ⟨ETH_PORT_CTRL, 56, 8⟩
/-- `ETH_PORT_STATUS` (spec file 15). -/
def ETH_PORT_STATUS : Reg := ⟨.ethPort, 0x8⟩
def ETH_PORT_STATUS_LINK : Fld := ⟨ETH_PORT_STATUS, 0, 1⟩
def ETH_PORT_STATUS_AN_DONE : Fld := ⟨ETH_PORT_STATUS, 1, 1⟩
def ETH_PORT_STATUS_FEC_LOCK : Fld := ⟨ETH_PORT_STATUS, 2, 1⟩
def ETH_PORT_STATUS_POWER : Fld := ⟨ETH_PORT_STATUS, 3, 2⟩
def ETH_PORT_STATUS_LOWERED : Fld := ⟨ETH_PORT_STATUS, 5, 1⟩
def ETH_PORT_STATUS_HELD : Fld := ⟨ETH_PORT_STATUS, 6, 1⟩
def ETH_PORT_STATUS_SINGLE : Fld := ⟨ETH_PORT_STATUS, 7, 1⟩
def ETH_PORT_STATUS_OWNER : Fld := ⟨ETH_PORT_STATUS, 8, 8⟩
def ETH_PORT_STATUS_LINK_CHG : Fld := ⟨ETH_PORT_STATUS, 16, 1⟩
def ETH_PORT_STATUS_FLAP : Fld := ⟨ETH_PORT_STATUS, 17, 1⟩
def ETH_PORT_STATUS_LANE_BER : Fld := ⟨ETH_PORT_STATUS, 18, 1⟩
def ETH_PORT_STATUS_MODULE_CHG : Fld := ⟨ETH_PORT_STATUS, 19, 1⟩
def ETH_PORT_STATUS_CFG_ERR : Fld := ⟨ETH_PORT_STATUS, 20, 1⟩
/-- `ETH_TX_START_THRESH` (spec file 15). -/
def ETH_TX_START_THRESH : Reg := ⟨.ethPort, 0x10⟩
def ETH_TX_START_THRESH_CUR : Fld := ⟨ETH_TX_START_THRESH, 0, 14⟩
def ETH_TX_START_THRESH_MIN : Fld := ⟨ETH_TX_START_THRESH, 16, 14⟩
def ETH_TX_START_THRESH_CLEAN : Fld := ⟨ETH_TX_START_THRESH, 32, 17⟩
/-- `ETH_PARK_CTRL` (spec file 15). -/
def ETH_PARK_CTRL : Reg := ⟨.ethPort, 0x18⟩
def ETH_PARK_CTRL_LPI_EN : Fld := ⟨ETH_PARK_CTRL, 0, 1⟩
def ETH_PARK_CTRL_RATE_EN : Fld := ⟨ETH_PARK_CTRL, 1, 1⟩
def ETH_PARK_CTRL_IDLE_US : Fld := ⟨ETH_PARK_CTRL, 2, 10⟩
def ETH_PARK_CTRL_LOWER_S : Fld := ⟨ETH_PARK_CTRL, 16, 8⟩
def ETH_PARK_CTRL_LOWER_PCT : Fld := ⟨ETH_PARK_CTRL, 24, 4⟩
def ETH_PARK_CTRL_TW_NS : Fld := ⟨ETH_PARK_CTRL, 32, 16⟩
/-- `ETH_PFC_CTRL` (spec file 15). -/
def ETH_PFC_CTRL : Reg := ⟨.ethPort, 0x20⟩
def ETH_PFC_CTRL_PRI_EN : Fld := ⟨ETH_PFC_CTRL, 0, 8⟩
def ETH_PFC_CTRL_HEADROOM_KIB : Fld := ⟨ETH_PFC_CTRL, 8, 8⟩
def ETH_PFC_CTRL_XON_KIB : Fld := ⟨ETH_PFC_CTRL, 16, 8⟩
def ETH_PFC_CTRL_PAUSE_TIME : Fld := ⟨ETH_PFC_CTRL, 32, 16⟩
def ETH_PFC_CTRL_WD_MS : Fld := ⟨ETH_PFC_CTRL, 48, 8⟩
def ETH_PFC_CTRL_RECOVER_10MS : Fld := ⟨ETH_PFC_CTRL, 56, 8⟩
/-- `ETH_PFC_STATUS` (spec file 15). -/
def ETH_PFC_STATUS : Reg := ⟨.ethPort, 0x28⟩
def ETH_PFC_STATUS_TX_HELD : Fld := ⟨ETH_PFC_STATUS, 0, 8⟩
def ETH_PFC_STATUS_XOFF : Fld := ⟨ETH_PFC_STATUS, 8, 8⟩
def ETH_PFC_STATUS_STORM : Fld := ⟨ETH_PFC_STATUS, 16, 8⟩
def ETH_PFC_STATUS_STUCK : Fld := ⟨ETH_PFC_STATUS, 24, 8⟩
/-- `ETH_PORT_MAC` (spec file 15). -/
def ETH_PORT_MAC : Reg := ⟨.ethPort, 0x30⟩
def ETH_PORT_MAC_MAC : Fld := ⟨ETH_PORT_MAC, 0, 48⟩
/-- `ETH_STAT_CTRL` (spec file 15). -/
def ETH_STAT_CTRL : Reg := ⟨.ethPort, 0x38⟩
def ETH_STAT_CTRL_SNAP : Fld := ⟨ETH_STAT_CTRL, 0, 1⟩
def ETH_STAT_CTRL_SHADOW : Fld := ⟨ETH_STAT_CTRL, 1, 1⟩
/-- `ETH_STAT_HALF` (spec file 15). -/
def ETH_STAT_HALF : Reg := ⟨.ethPort, 0x40⟩
def ETH_STAT_HALF_HALF : Fld := ⟨ETH_STAT_HALF, 0, 64⟩
/-- `ETH_STAT` (spec file 15). -/
def ETH_STAT (n : Nat) : Reg := ⟨.ethPort, 0x100 + 8 * n⟩
def ETH_STAT_COUNT (n : Nat) : Fld := ⟨ETH_STAT n, 0, 56⟩
/-- `NDX_CTRL` (spec file 16). -/
def NDX_CTRL : Reg := ⟨.ndx, 0x0⟩
def NDX_CTRL_ETHERTYPE : Fld := ⟨NDX_CTRL, 0, 16⟩
def NDX_CTRL_UDP_PORT : Fld := ⟨NDX_CTRL, 16, 16⟩
def NDX_CTRL_VER_MIN : Fld := ⟨NDX_CTRL, 32, 2⟩
def NDX_CTRL_VER_MAX : Fld := ⟨NDX_CTRL, 34, 2⟩
/-- `NDX_RELY` (spec file 16). -/
def NDX_RELY : Reg := ⟨.ndx, 0x8⟩
def NDX_RELY_RTO_US : Fld := ⟨NDX_RELY, 0, 12⟩
def NDX_RELY_RETRY_LIMIT : Fld := ⟨NDX_RELY, 16, 5⟩
def NDX_RELY_ACK_EVERY : Fld := ⟨NDX_RELY, 24, 8⟩
def NDX_RELY_ACK_US : Fld := ⟨NDX_RELY, 32, 8⟩
/-- `NDX_LIVE` (spec file 16). -/
def NDX_LIVE : Reg := ⟨.ndx, 0x10⟩
def NDX_LIVE_KA_US : Fld := ⟨NDX_LIVE, 0, 10⟩
def NDX_LIVE_LOST_MS : Fld := ⟨NDX_LIVE, 16, 16⟩
/-- `NDX_KEY` (spec file 16). -/
def NDX_KEY : Reg := ⟨.ndx, 0x18⟩
def NDX_KEY_PN_SOFT_EXP : Fld := ⟨NDX_KEY, 0, 6⟩
def NDX_KEY_KEY_MAX_S : Fld := ⟨NDX_KEY, 8, 16⟩
def NDX_KEY_HS_HOURS : Fld := ⟨NDX_KEY, 24, 8⟩
/-- `NDX_STATUS` (spec file 16). -/
def NDX_STATUS : Reg := ⟨.ndx, 0x20⟩
def NDX_STATUS_LINKS : Fld := ⟨NDX_STATUS, 0, 19⟩
def NDX_STATUS_AUTH_BURST : Fld := ⟨NDX_STATUS, 24, 1⟩
def NDX_STATUS_LINK_LOST : Fld := ⟨NDX_STATUS, 25, 1⟩
def NDX_STATUS_PN_HARD : Fld := ⟨NDX_STATUS, 26, 1⟩
def NDX_STATUS_HS_FAIL : Fld := ⟨NDX_STATUS, 27, 1⟩
/-- `NDX_CNT_HALF` (spec file 16). -/
def NDX_CNT_HALF : Reg := ⟨.ndx, 0x28⟩
def NDX_CNT_HALF_HALF : Fld := ⟨NDX_CNT_HALF, 0, 8⟩
/-- `NDX_CNT` (spec file 16). -/
def NDX_CNT (n : Nat) : Reg := ⟨.ndx, 0x100 + 8 * n⟩
def NDX_CNT_COUNT (n : Nat) : Fld := ⟨NDX_CNT n, 0, 48⟩
/-- `NDX_MSEC_CTRL` (spec file 16). -/
def NDX_MSEC_CTRL (n : Nat) : Reg := ⟨.ndx, 0x400 + 8 * n⟩
def NDX_MSEC_CTRL_KEY_SERVER_PRI (n : Nat) : Fld := ⟨NDX_MSEC_CTRL n, 0, 8⟩
def NDX_MSEC_CTRL_CAK_VALID (n : Nat) : Fld := ⟨NDX_MSEC_CTRL n, 8, 1⟩
def NDX_MSEC_CTRL_SECURE (n : Nat) : Fld := ⟨NDX_MSEC_CTRL n, 9, 1⟩
def NDX_MSEC_CTRL_REPLAY_WIN (n : Nat) : Fld := ⟨NDX_MSEC_CTRL n, 16, 16⟩
/-- `PROV_NDX_TAG` (spec file 16). -/
def PROV_NDX_TAG : Reg := ⟨.prov, 0x218⟩
def PROV_NDX_TAG_TAG : Fld := ⟨PROV_NDX_TAG, 0, 64⟩
/-- `PROV_LINK_PORTS` (spec file 16). -/
def PROV_LINK_PORTS : Reg := ⟨.prov, 0x220⟩
def PROV_LINK_PORTS_PORTS : Fld := ⟨PROV_LINK_PORTS, 0, 64⟩
/-- `PROV_LINK_SLOTS` (spec file 16). -/
def PROV_LINK_SLOTS : Reg := ⟨.prov, 0x228⟩
def PROV_LINK_SLOTS_SLOTS : Fld := ⟨PROV_LINK_SLOTS, 0, 9⟩
/-- `HIF_FN_STATUS` (spec file 17). -/
def HIF_FN_STATUS : Reg := ⟨.hifFn, 0x0⟩
def HIF_FN_STATUS_ATTACH : Fld := ⟨HIF_FN_STATUS, 0, 2⟩
def HIF_FN_STATUS_BOUND : Fld := ⟨HIF_FN_STATUS, 2, 1⟩
def HIF_FN_STATUS_PROV : Fld := ⟨HIF_FN_STATUS, 8, 8⟩
def HIF_FN_STATUS_INSET_ERR : Fld := ⟨HIF_FN_STATUS, 16, 1⟩
def HIF_FN_STATUS_HOST_ERR : Fld := ⟨HIF_FN_STATUS, 17, 1⟩
/-- `HIF_INSET_BASE` (spec file 17). -/
def HIF_INSET_BASE : Reg := ⟨.hifFn, 0x8⟩
def HIF_INSET_BASE_EN : Fld := ⟨HIF_INSET_BASE, 0, 1⟩
def HIF_INSET_BASE_BASE : Fld := ⟨HIF_INSET_BASE, 26, 22⟩
/-- `HIF_REATTACH_CTRL` (spec file 17). -/
def HIF_REATTACH_CTRL : Reg := ⟨.hifFn, 0x10⟩
def HIF_REATTACH_CTRL_ACTION : Fld := ⟨HIF_REATTACH_CTRL, 0, 2⟩
/-- `HAND_RING_BASE` (spec file 17). -/
def HAND_RING_BASE : Reg := ⟨.hand, 0x0⟩
def HAND_RING_BASE_ADDR : Fld := ⟨HAND_RING_BASE, 12, 52⟩
/-- `HAND_CPL_BASE` (spec file 17). -/
def HAND_CPL_BASE : Reg := ⟨.hand, 0x8⟩
def HAND_CPL_BASE_ADDR : Fld := ⟨HAND_CPL_BASE, 12, 52⟩
/-- `HAND_CTRL` (spec file 17). -/
def HAND_CTRL : Reg := ⟨.hand, 0x10⟩
def HAND_CTRL_OPEN : Fld := ⟨HAND_CTRL, 0, 1⟩
def HAND_CTRL_CLOSE : Fld := ⟨HAND_CTRL, 1, 1⟩
def HAND_CTRL_SECURE : Fld := ⟨HAND_CTRL, 2, 1⟩
def HAND_CTRL_IRQ : Fld := ⟨HAND_CTRL, 3, 1⟩
def HAND_CTRL_LOG2SIZE : Fld := ⟨HAND_CTRL, 8, 5⟩
def HAND_CTRL_VEC : Fld := ⟨HAND_CTRL, 16, 6⟩
def HAND_CTRL_FMT : Fld := ⟨HAND_CTRL, 24, 8⟩
/-- `HAND_STATUS` (spec file 17). -/
def HAND_STATUS : Reg := ⟨.hand, 0x18⟩
def HAND_STATUS_STATE : Fld := ⟨HAND_STATUS, 0, 2⟩
def HAND_STATUS_STALE : Fld := ⟨HAND_STATUS, 2, 1⟩
def HAND_STATUS_ERR : Fld := ⟨HAND_STATUS, 8, 8⟩
/-- `HAND_SESSION` (spec file 17). -/
def HAND_SESSION : Reg := ⟨.hand, 0x20⟩
def HAND_SESSION_SESSION : Fld := ⟨HAND_SESSION, 0, 32⟩
/-- `HAND_CONSUMED` (spec file 17). -/
def HAND_CONSUMED : Reg := ⟨.hand, 0x28⟩
def HAND_CONSUMED_COUNT : Fld := ⟨HAND_CONSUMED, 0, 32⟩
/-- `HAND_DOORBELL` (spec file 17). -/
def HAND_DOORBELL : Reg := ⟨.hand, 0x38⟩
def HAND_DOORBELL_PRODUCED : Fld := ⟨HAND_DOORBELL, 0, 32⟩
/-- `HIF_DB_RETRY` (spec file 17). -/
def HIF_DB_RETRY : Reg := ⟨.hifDev, 0x0⟩
def HIF_DB_RETRY_COUNT : Fld := ⟨HIF_DB_RETRY, 0, 4⟩
def HIF_DB_RETRY_INTERVAL : Fld := ⟨HIF_DB_RETRY, 8, 8⟩
/-- `HIF_PF0_GRANT` (spec file 17). -/
def HIF_PF0_GRANT : Reg := ⟨.hifDev, 0x8⟩
def HIF_PF0_GRANT_PROV : Fld := ⟨HIF_PF0_GRANT, 0, 8⟩
/-- `HIF_LINK_STATUS` (spec file 17). -/
def HIF_LINK_STATUS : Reg := ⟨.hifDev, 0x10⟩
def HIF_LINK_STATUS_RATE : Fld := ⟨HIF_LINK_STATUS, 0, 3⟩
def HIF_LINK_STATUS_WIDTH : Fld := ⟨HIF_LINK_STATUS, 3, 5⟩
def HIF_LINK_STATUS_DEGRADED : Fld := ⟨HIF_LINK_STATUS, 8, 1⟩
def HIF_LINK_STATUS_IDE : Fld := ⟨HIF_LINK_STATUS, 9, 1⟩
/-- `PROV_HOST_POLICY` (spec file 17). -/
def PROV_HOST_POLICY : Reg := ⟨.prov, 0x230⟩
def PROV_HOST_POLICY_PAUSE : Fld := ⟨PROV_HOST_POLICY, 0, 1⟩
def PROV_HOST_POLICY_LIMIT_S : Fld := ⟨PROV_HOST_POLICY, 8, 16⟩
/-- `PROV_HANDS` (spec file 17). -/
def PROV_HANDS : Reg := ⟨.prov, 0x238⟩
def PROV_HANDS_COUNT : Fld := ⟨PROV_HANDS, 0, 13⟩
/-- `STW_STATUS` (spec file 18). -/
def STW_STATUS : Reg := ⟨.stw, 0x0⟩
def STW_STATUS_BOOT : Fld := ⟨STW_STATUS, 0, 4⟩
def STW_STATUS_LC : Fld := ⟨STW_STATUS, 4, 3⟩
def STW_STATUS_OWNERSHIP : Fld := ⟨STW_STATUS, 7, 2⟩
def STW_STATUS_FW_SLOT : Fld := ⟨STW_STATUS, 9, 1⟩
def STW_STATUS_FW_UPDATE : Fld := ⟨STW_STATUS, 10, 2⟩
def STW_STATUS_CART_PRESENT : Fld := ⟨STW_STATUS, 12, 1⟩
def STW_STATUS_CART_PAIRED : Fld := ⟨STW_STATUS, 13, 1⟩
def STW_STATUS_CLEAN : Fld := ⟨STW_STATUS, 14, 1⟩
def STW_STATUS_RECOVERY_ANY : Fld := ⟨STW_STATUS, 15, 1⟩
/-- `STW_BASFIN_WEAR` (spec file 18). -/
def STW_BASFIN_WEAR : Reg := ⟨.stw, 0x8⟩
def STW_BASFIN_WEAR_PCT : Fld := ⟨STW_BASFIN_WEAR, 0, 8⟩
def STW_BASFIN_WEAR_PART : Fld := ⟨STW_BASFIN_WEAR, 8, 4⟩
def STW_BASFIN_WEAR_READONLY : Fld := ⟨STW_BASFIN_WEAR, 12, 1⟩
/-- `STW_FW_VERSION` (spec file 18). -/
def STW_FW_VERSION : Reg := ⟨.stw, 0x10⟩
def STW_FW_VERSION_VERSION : Fld := ⟨STW_FW_VERSION, 0, 32⟩
def STW_FW_VERSION_SVN : Fld := ⟨STW_FW_VERSION, 32, 8⟩
def STW_FW_VERSION_SVN_FUSED : Fld := ⟨STW_FW_VERSION, 40, 8⟩
/-- `STW_IMPRINT_SEQ` (spec file 18). -/
def STW_IMPRINT_SEQ : Reg := ⟨.stw, 0x18⟩
def STW_IMPRINT_SEQ_SEQ : Fld := ⟨STW_IMPRINT_SEQ, 0, 64⟩
/-- `STW_MGMT` (spec file 18). -/
def STW_MGMT : Reg := ⟨.stw, 0x20⟩
def STW_MGMT_TCP_PORT : Fld := ⟨STW_MGMT, 0, 16⟩
def STW_MGMT_LINK : Fld := ⟨STW_MGMT, 16, 1⟩
def STW_MGMT_TEN_G : Fld := ⟨STW_MGMT, 17, 1⟩
def STW_MGMT_CONNS : Fld := ⟨STW_MGMT, 18, 4⟩
/-- `PROV_STATE` (spec file 18). -/
def PROV_STATE : Reg := ⟨.prov, 0x0⟩
def PROV_STATE_STATE : Fld := ⟨PROV_STATE, 0, 3⟩
def PROV_STATE_RECOVERY : Fld := ⟨PROV_STATE, 3, 1⟩
def PROV_STATE_ID : Fld := ⟨PROV_STATE, 8, 8⟩
def PROV_STATE_UNITS : Fld := ⟨PROV_STATE, 16, 8⟩
/-- `PROV_RESOURCES` (spec file 18). -/
def PROV_RESOURCES : Reg := ⟨.prov, 0x8⟩
def PROV_RESOURCES_UNITS : Fld := ⟨PROV_RESOURCES, 0, 9⟩
def PROV_RESOURCES_CHANS : Fld := ⟨PROV_RESOURCES, 9, 9⟩
def PROV_RESOURCES_NBULK : Fld := ⟨PROV_RESOURCES, 18, 5⟩
def PROV_RESOURCES_NTALON : Fld := ⟨PROV_RESOURCES, 23, 4⟩
/-- `PROV_EPOCH` (spec file 18). -/
def PROV_EPOCH : Reg := ⟨.prov, 0x10⟩
def PROV_EPOCH_EPOCH : Fld := ⟨PROV_EPOCH, 0, 32⟩
/-- `TST_STATUS` (spec file 19). -/
def TST_STATUS : Reg := ⟨.tst, 0x0⟩
def TST_STATUS_FATAL : Fld := ⟨TST_STATUS, 0, 1⟩
def TST_STATUS_ALERT : Fld := ⟨TST_STATUS, 1, 1⟩
def TST_STATUS_RESTARTS : Fld := ⟨TST_STATUS, 4, 4⟩
def TST_STATUS_FATAL_CAUSE : Fld := ⟨TST_STATUS, 8, 16⟩
def TST_STATUS_QFULL : Fld := ⟨TST_STATUS, 24, 1⟩
/-- `TST_ERR_LOST` (spec file 19). -/
def TST_ERR_LOST : Reg := ⟨.tst, 0x8⟩
def TST_ERR_LOST_LOST : Fld := ⟨TST_ERR_LOST, 0, 32⟩
/-- `TST_WIN_SRAM` (spec file 19). -/
def TST_WIN_SRAM : Reg := ⟨.tst, 0x10⟩
def TST_WIN_SRAM_LIMIT : Fld := ⟨TST_WIN_SRAM, 0, 8⟩
def TST_WIN_SRAM_WINDOW_H : Fld := ⟨TST_WIN_SRAM, 8, 16⟩
/-- `TST_WIN_TILE` (spec file 19). -/
def TST_WIN_TILE : Reg := ⟨.tst, 0x18⟩
def TST_WIN_TILE_LIMIT : Fld := ⟨TST_WIN_TILE, 0, 8⟩
def TST_WIN_TILE_WINDOW_H : Fld := ⟨TST_WIN_TILE, 8, 16⟩
/-- `TST_THROTTLE` (spec file 19). -/
def TST_THROTTLE : Reg := ⟨.tst, 0x20⟩
def TST_THROTTLE_ASSERTED : Fld := ⟨TST_THROTTLE, 0, 1⟩
def TST_THROTTLE_TOGGLE : Fld := ⟨TST_THROTTLE, 1, 1⟩
def TST_THROTTLE_QUALIFIED : Fld := ⟨TST_THROTTLE, 16, 16⟩
/-- `TST_ALERT_CTRL` (spec file 19). -/
def TST_ALERT_CTRL : Reg := ⟨.tst, 0x28⟩
def TST_ALERT_CTRL_SEV_MASK : Fld := ⟨TST_ALERT_CTRL, 0, 4⟩
def TST_ALERT_CTRL_PULSE_MS : Fld := ⟨TST_ALERT_CTRL, 16, 16⟩
/-- `TST_FUSE_LEFT` (spec file 19). -/
def TST_FUSE_LEFT : Reg := ⟨.tst, 0x30⟩
def TST_FUSE_LEFT_LEFT : Fld := ⟨TST_FUSE_LEFT, 0, 10⟩
/-- `SRV_FIX` (spec file 20). -/
def SRV_FIX (n : Nat) : Reg := ⟨.srv, 8 * n⟩
def SRV_FIX_COUNT (n : Nat) : Fld := ⟨SRV_FIX n, 0, 48⟩
/-- `SRV_CNT` (spec file 20). -/
def SRV_CNT (n : Nat) : Reg := ⟨.srv, 0x100 + 8 * n⟩
def SRV_CNT_COUNT (n : Nat) : Fld := ⟨SRV_CNT n, 0, 48⟩
/-- `SRV_CFG` (spec file 20). -/
def SRV_CFG (n : Nat) : Reg := ⟨.srv, 0x200 + 8 * n⟩
def SRV_CFG_EVENT (n : Nat) : Fld := ⟨SRV_CFG n, 0, 8⟩
def SRV_CFG_PROV (n : Nat) : Fld := ⟨SRV_CFG n, 8, 8⟩
def SRV_CFG_PRIV (n : Nat) : Fld := ⟨SRV_CFG n, 16, 3⟩
def SRV_CFG_MASTER (n : Nat) : Fld := ⟨SRV_CFG n, 24, 8⟩
def SRV_CFG_CLASS (n : Nat) : Fld := ⟨SRV_CFG n, 32, 7⟩
def SRV_CFG_ADDR_EN (n : Nat) : Fld := ⟨SRV_CFG n, 39, 1⟩
/-- `SRV_ADDR_BASE` (spec file 20). -/
def SRV_ADDR_BASE : Reg := ⟨.srv, 0x300⟩
def SRV_ADDR_BASE_ADDR : Fld := ⟨SRV_ADDR_BASE, 6, 42⟩
/-- `SRV_ADDR_MASK` (spec file 20). -/
def SRV_ADDR_MASK : Reg := ⟨.srv, 0x308⟩
def SRV_ADDR_MASK_ADDR : Fld := ⟨SRV_ADDR_MASK, 6, 42⟩
/-- `SRV_SAMP` (spec file 20). -/
def SRV_SAMP : Reg := ⟨.srv, 0x310⟩
def SRV_SAMP_EN : Fld := ⟨SRV_SAMP, 0, 1⟩
def SRV_SAMP_CTR : Fld := ⟨SRV_SAMP, 1, 3⟩
def SRV_SAMP_PEXP : Fld := ⟨SRV_SAMP, 4, 5⟩
/-- `SRV_TAG` (spec file 20). -/
def SRV_TAG : Reg := ⟨.srv, 0x318⟩
def SRV_TAG_EN : Fld := ⟨SRV_TAG, 0, 1⟩
def SRV_TAG_DONE : Fld := ⟨SRV_TAG, 1, 1⟩
def SRV_TAG_WIN : Fld := ⟨SRV_TAG, 2, 5⟩
/-- `SRV_TAGREC` (spec file 20). -/
def SRV_TAGREC (n : Nat) : Reg := ⟨.srv, 0x340 + 8 * n⟩
def SRV_TAGREC_WORD (n : Nat) : Fld := ⟨SRV_TAGREC n, 0, 64⟩
/-- `SRV_HALF` (spec file 20). -/
def SRV_HALF : Reg := ⟨.srv, 0x320⟩
def SRV_HALF_FIX : Fld := ⟨SRV_HALF, 0, 8⟩
def SRV_HALF_CNT : Fld := ⟨SRV_HALF, 8, 8⟩
/-- `SRV_SNAP` (spec file 20). -/
def SRV_SNAP : Reg := ⟨.srv, 0x328⟩
def SRV_SNAP_SNAP : Fld := ⟨SRV_SNAP, 0, 1⟩
def SRV_SNAP_SHADOW : Fld := ⟨SRV_SNAP, 1, 1⟩
/-- `SRV_STATUS` (spec file 20). -/
def SRV_STATUS : Reg := ⟨.srv, 0x330⟩
def SRV_STATUS_CFG_ERR : Fld := ⟨SRV_STATUS, 0, 1⟩
def SRV_STATUS_DENIED : Fld := ⟨SRV_STATUS, 1, 1⟩
def SRV_STATUS_MOVED : Fld := ⟨SRV_STATUS, 2, 1⟩
def SRV_STATUS_LOST : Fld := ⟨SRV_STATUS, 16, 16⟩
/-- `PROV_SRV_RING` (spec file 20). -/
def PROV_SRV_RING : Reg := ⟨.prov, 0x240⟩
def PROV_SRV_RING_BASE : Fld := ⟨PROV_SRV_RING, 0, 48⟩
def PROV_SRV_RING_SIZE : Fld := ⟨PROV_SRV_RING, 48, 16⟩
/-- `PROV_SRV_CTRL` (spec file 20). -/
def PROV_SRV_CTRL : Reg := ⟨.prov, 0x248⟩
def PROV_SRV_CTRL_SNAP : Fld := ⟨PROV_SRV_CTRL, 0, 1⟩
/-- `PWR_STATUS` (spec file 21). -/
def PWR_STATUS : Reg := ⟨.pwr, 0x0⟩
def PWR_STATUS_PROFILE : Fld := ⟨PWR_STATUS, 0, 2⟩
def PWR_STATUS_LIMITER : Fld := ⟨PWR_STATUS, 2, 3⟩
def PWR_STATUS_SENSOR_FAULT : Fld := ⟨PWR_STATUS, 5, 1⟩
def PWR_STATUS_INLET_SRC : Fld := ⟨PWR_STATUS, 6, 2⟩
def PWR_STATUS_CLOCK_MHZ : Fld := ⟨PWR_STATUS, 16, 11⟩
def PWR_STATUS_ICC_EVENTS : Fld := ⟨PWR_STATUS, 32, 16⟩
def PWR_STATUS_INLET : Fld := ⟨PWR_STATUS, 48, 12⟩
/-- `PWR_MEAS` (spec file 21). -/
def PWR_MEAS : Reg := ⟨.pwr, 0x8⟩
def PWR_MEAS_POWER_W : Fld := ⟨PWR_MEAS, 0, 16⟩
def PWR_MEAS_VDD_MV : Fld := ⟨PWR_MEAS, 16, 10⟩
def PWR_MEAS_TJ_MAX : Fld := ⟨PWR_MEAS, 32, 12⟩
def PWR_MEAS_HBM_MAX : Fld := ⟨PWR_MEAS, 44, 12⟩
/-- `PWR_CAP` (spec file 21). -/
def PWR_CAP : Reg := ⟨.pwr, 0x10⟩
def PWR_CAP_HYST_W : Fld := ⟨PWR_CAP, 0, 8⟩
def PWR_CAP_ICC_A : Fld := ⟨PWR_CAP, 8, 12⟩
/-- `PWR_THROT` (spec file 21). -/
def PWR_THROT : Reg := ⟨.pwr, 0x18⟩
def PWR_THROT_MHZ : Fld := ⟨PWR_THROT, 0, 11⟩
def PWR_THROT_STATE : Fld := ⟨PWR_THROT, 16, 4⟩
/-- `STW_CLK_STATUS` (spec file 22). -/
def STW_CLK_STATUS : Reg := ⟨.stw, 0x28⟩
def STW_CLK_STATUS_REF25_OK : Fld := ⟨STW_CLK_STATUS, 0, 1⟩
def STW_CLK_STATUS_REFPCIE_OK : Fld := ⟨STW_CLK_STATUS, 1, 1⟩
def STW_CLK_STATUS_REFETH_OK : Fld := ⟨STW_CLK_STATUS, 2, 4⟩
def STW_CLK_STATUS_FALLBACK : Fld := ⟨STW_CLK_STATUS, 6, 1⟩
def STW_CLK_STATUS_LOSS_SEEN : Fld := ⟨STW_CLK_STATUS, 8, 1⟩
/-- `PWR_RAIL` (spec file 22). -/
def PWR_RAIL : Reg := ⟨.pwr, 0x20⟩
def PWR_RAIL_GOOD : Fld := ⟨PWR_RAIL, 0, 12⟩
def PWR_RAIL_AVS_NACK : Fld := ⟨PWR_RAIL, 16, 16⟩
/-- `HIF_SRV_PAGE` (spec file 23). -/
def HIF_SRV_PAGE : Reg := ⟨.hifFn, 0x18⟩
def HIF_SRV_PAGE_PAGE : Fld := ⟨HIF_SRV_PAGE, 0, 8⟩
/-- `DEV_IDENT` (spec file 23). -/
def DEV_IDENT : Reg := ⟨.dev, 0x0⟩
def DEV_IDENT_VENDOR : Fld := ⟨DEV_IDENT, 0, 11⟩
def DEV_IDENT_PART : Fld := ⟨DEV_IDENT, 16, 16⟩
/-- `DEV_REVISION` (spec file 23). -/
def DEV_REVISION : Reg := ⟨.dev, 0x8⟩
def DEV_REVISION_MINOR : Fld := ⟨DEV_REVISION, 0, 4⟩
def DEV_REVISION_MAJOR : Fld := ⟨DEV_REVISION, 4, 4⟩
/-- `DEV_DEVID` (spec file 23). -/
def DEV_DEVID : Reg := ⟨.dev, 0x10⟩
def DEV_DEVID_DEVID : Fld := ⟨DEV_DEVID, 0, 64⟩

/-- The registers of block `dev`. -/
def devTable : List RegDef := [
  ⟨"DEV_IDENT", 0x0, 1, 0, 32, [⟨"VENDOR", 0, 11, .ro, 0x2b7, .any⟩, ⟨"PART", 16, 16, .ro, 0x2549, .any⟩]⟩,
  ⟨"DEV_REVISION", 0x8, 1, 0, 32, [⟨"MINOR", 0, 4, .ro, 0x1, .any⟩, ⟨"MAJOR", 4, 4, .ro, 0x0, .any⟩]⟩,
  ⟨"DEV_DEVID", 0x10, 1, 0, 64, [⟨"DEVID", 0, 64, .ro, 0x0, .any⟩]⟩]

/-- The registers of block `mer`. -/
def merTable : List RegDef := [
  ⟨"MER_TICK_PERIOD", 0x0, 1, 0, 32, [⟨"PERIOD", 0, 9, .ro, 0x10, .any⟩, ⟨"NEXT", 16, 9, .rw, 0x10, .any⟩, ⟨"ARM", 31, 1, .w1s, 0x0, .any⟩]⟩,
  ⟨"MER_FRAME_NUM", 0x8, 1, 0, 64, [⟨"FRAME", 0, 64, .ro, 0x0, .any⟩]⟩,
  ⟨"MER_EPOCH", 0x10, 1, 0, 64, [⟨"EPOCH", 0, 64, .rw, 0x0, .any⟩]⟩,
  ⟨"MER_BASE_FRAME", 0x18, 1, 0, 64, [⟨"BASE", 0, 64, .rw, 0x0, .any⟩]⟩,
  ⟨"MER_SWITCH_FRAME", 0x20, 1, 0, 64, [⟨"SWITCH", 0, 64, .rw, 0x0, .any⟩]⟩,
  ⟨"MER_STATUS", 0x28, 1, 0, 32, [⟨"STATE", 0, 2, .ro, 0x0, .any⟩, ⟨"PPS_PRESENT", 2, 1, .ro, 0x0, .any⟩, ⟨"STEP_PENDING", 3, 1, .ro, 0x0, .any⟩, ⟨"DRIFT_SEEN", 8, 1, .w1c, 0x0, .any⟩, ⟨"HOLDOVER_SEEN", 9, 1, .w1c, 0x0, .any⟩, ⟨"FREE_SEEN", 10, 1, .w1c, 0x0, .any⟩, ⟨"PPS_FAULT", 11, 1, .w1c, 0x0, .any⟩, ⟨"CFG_ERR", 12, 1, .w1c, 0x0, .any⟩, ⟨"STEPPED", 13, 1, .w1c, 0x0, .any⟩]⟩,
  ⟨"MER_PTP_CTRL", 0x2c, 1, 0, 32, [⟨"ENABLE", 0, 1, .rw, 0x0, .any⟩, ⟨"ROLE", 1, 2, .rw, 0x0, .any⟩, ⟨"DELAY", 3, 1, .rw, 0x0, .any⟩, ⟨"TRANSPORT", 4, 2, .rw, 0x0, .any⟩, ⟨"ONE_STEP", 6, 1, .rw, 0x0, .any⟩, ⟨"DOMAIN", 8, 7, .rw, 0x0, .any⟩, ⟨"SRC_PORT", 16, 7, .rw, 0x40, .any⟩, ⟨"SLEW", 24, 8, .rw, 0x32, .range 1 100⟩]⟩,
  ⟨"MER_OFFSET", 0x30, 1, 0, 32, [⟨"OFFSET", 0, 32, .ro, 0x0, .any⟩]⟩,
  ⟨"MER_HOLDOVER", 0x38, 1, 0, 32, [⟨"LIMIT_S", 0, 16, .rw, 0x258, .any⟩, ⟨"LIMIT_ERR", 16, 16, .rw, 0x3e8, .any⟩]⟩,
  ⟨"MER_PPS_CTRL", 0x34, 1, 0, 32, [⟨"IN_EN", 0, 1, .rw, 0x0, .any⟩, ⟨"IN_EDGE", 1, 1, .rw, 0x0, .any⟩, ⟨"OUT_MODE", 4, 2, .rw, 0x0, .any⟩, ⟨"OUT_DIV", 8, 4, .rw, 0x0, .any⟩, ⟨"OUT_WIDTH", 16, 8, .rw, 0x64, .any⟩]⟩,
  ⟨"MER_GLOB_CTRL", 0x3c, 1, 0, 32, [⟨"HOP_NS", 0, 16, .rw, 0x3e8, .any⟩, ⟨"LATE", 16, 16, .rc, 0x0, .any⟩]⟩]

/-- The registers of block `cc`. -/
def ccTable : List RegDef := [
  ⟨"CC_SEAT_STATE", 0x0, 1, 0, 32, [⟨"STATE", 0, 32, .ro, 0x0, .any⟩]⟩,
  ⟨"CC_EXC", 0x8, 1, 0, 64, [⟨"CAUSE", 0, 8, .ro, 0x0, .any⟩, ⟨"SEAT", 8, 3, .ro, 0x0, .any⟩, ⟨"MULTI", 11, 1, .ro, 0x0, .any⟩, ⟨"PC", 16, 12, .ro, 0x0, .any⟩, ⟨"INFO", 32, 16, .ro, 0x0, .any⟩]⟩,
  ⟨"CC_EXC_INSN", 0x10, 1, 0, 64, [⟨"INSN", 0, 64, .ro, 0x0, .any⟩]⟩,
  ⟨"CC_EXC_ADDR", 0x18, 1, 0, 64, [⟨"ADDR", 0, 64, .ro, 0x0, .any⟩]⟩,
  ⟨"CC_CYCLES", 0x20, 1, 0, 32, [⟨"CYCLES", 0, 32, .ro, 0x0, .any⟩]⟩,
  ⟨"CC_RETIRED", 0x28, 1, 0, 32, [⟨"RETIRED", 0, 32, .ro, 0x0, .any⟩]⟩,
  ⟨"CC_SEAT_PC", 0x40, 8, 4, 32, [⟨"PC", 0, 12, .ro, 0x0, .any⟩]⟩,
  ⟨"CC_DBG_CTRL", 0x80, 1, 0, 32, [⟨"EN", 0, 1, .rw, 0x0, .any⟩, ⟨"HALT", 1, 1, .rw, 0x0, .any⟩, ⟨"STEP", 2, 1, .wo, 0x0, .any⟩, ⟨"SEATS", 8, 8, .rw, 0x0, .any⟩, ⟨"BP_PC", 16, 12, .rw, 0x0, .any⟩, ⟨"BP_EN", 28, 1, .rw, 0x0, .any⟩]⟩]

/-- The registers of block `tile`. -/
def tileTable : List RegDef := [
  ⟨"TILE_ACC_CTRL", 0x0, 1, 0, 32, [⟨"LONGSUM_THRESH", 0, 16, .rw, 0x800, .any⟩, ⟨"ACC_ROUND", 16, 2, .rw, 0x1, .range 0 2⟩]⟩,
  ⟨"TILE_ARR_FLAGS", 0x8, 1, 0, 32, [⟨"NV", 0, 1, .w1c, 0x0, .any⟩, ⟨"NAN_IN", 1, 1, .w1c, 0x0, .any⟩, ⟨"OF", 2, 1, .w1c, 0x0, .any⟩, ⟨"SAT", 3, 1, .w1c, 0x0, .any⟩, ⟨"DOF", 4, 1, .w1c, 0x0, .any⟩, ⟨"DUF", 5, 1, .w1c, 0x0, .any⟩, ⟨"SCALE_NAN", 6, 1, .w1c, 0x0, .any⟩, ⟨"LONGSUM", 7, 1, .w1c, 0x0, .any⟩]⟩,
  ⟨"TILE_ARR_STATUS", 0x10, 1, 0, 32, [⟨"STATE", 0, 8, .ro, 0x0, .any⟩, ⟨"OWNER", 8, 12, .ro, 0x0, .any⟩, ⟨"QDEPTH", 20, 3, .ro, 0x0, .any⟩, ⟨"PAIR01", 23, 1, .ro, 0x0, .any⟩, ⟨"PAIR23", 24, 1, .ro, 0x0, .any⟩]⟩,
  ⟨"TILE_DBG_CTRL", 0x20, 1, 0, 32, [⟨"ACC_VIS", 0, 1, .rw, 0x0, .any⟩, ⟨"PEEK_BANK", 1, 2, .rw, 0x0, .any⟩]⟩,
  ⟨"TILE_ACC_PEEK", 0x400, 256, 4, 32, [⟨"ENTRY", 0, 32, .ro, 0x0, .any⟩]⟩]

/-- The registers of block `vec`. -/
def vecTable : List RegDef := [
  ⟨"VEC_FLAGS", 0x0, 1, 0, 32, [⟨"NV", 0, 1, .w1c, 0x0, .any⟩, ⟨"DZ", 1, 1, .w1c, 0x0, .any⟩, ⟨"OF", 2, 1, .w1c, 0x0, .any⟩, ⟨"UF", 3, 1, .w1c, 0x0, .any⟩, ⟨"NAN_IN", 4, 1, .w1c, 0x0, .any⟩, ⟨"BLKNAN", 5, 1, .w1c, 0x0, .any⟩, ⟨"VACANT", 6, 1, .w1c, 0x0, .any⟩, ⟨"INFROW", 7, 1, .w1c, 0x0, .any⟩]⟩,
  ⟨"VEC_STATUS", 0x8, 1, 0, 32, [⟨"QDEPTH", 0, 4, .ro, 0x0, .any⟩, ⟨"BUSY", 4, 1, .ro, 0x0, .any⟩]⟩,
  ⟨"VEC_VACANT", 0x10, 1, 0, 32, [⟨"ROWS", 0, 32, .ro, 0x0, .any⟩]⟩]

/-- The registers of block `crrTile`. -/
def crrTileTable : List RegDef := [
  ⟨"CRR_TC_STATUS", 0x0, 1, 0, 32, [⟨"Q0", 0, 4, .ro, 0x0, .any⟩, ⟨"Q1", 4, 4, .ro, 0x0, .any⟩, ⟨"OUT_TRICK", 8, 11, .ro, 0x0, .any⟩, ⟨"OUT_ALL", 19, 11, .ro, 0x0, .any⟩]⟩]

/-- The registers of block `srv`. -/
def srvTable : List RegDef := [
  ⟨"SRV_FIX", 0x0, 8, 8, 64, [⟨"COUNT", 0, 48, .ro, 0x0, .any⟩]⟩,
  ⟨"SRV_CNT", 0x100, 8, 8, 64, [⟨"COUNT", 0, 48, .ro, 0x0, .any⟩]⟩,
  ⟨"SRV_CFG", 0x200, 8, 8, 64, [⟨"EVENT", 0, 8, .rw, 0x0, .any⟩, ⟨"PROV", 8, 8, .rw, 0x0, .any⟩, ⟨"PRIV", 16, 3, .rw, 0x7, .any⟩, ⟨"MASTER", 24, 8, .rw, 0xff, .any⟩, ⟨"CLASS", 32, 7, .rw, 0x7f, .any⟩, ⟨"ADDR_EN", 39, 1, .rw, 0x0, .any⟩]⟩,
  ⟨"SRV_ADDR_BASE", 0x300, 1, 0, 64, [⟨"ADDR", 6, 42, .rw, 0x0, .any⟩]⟩,
  ⟨"SRV_ADDR_MASK", 0x308, 1, 0, 64, [⟨"ADDR", 6, 42, .rw, 0x0, .any⟩]⟩,
  ⟨"SRV_SAMP", 0x310, 1, 0, 32, [⟨"EN", 0, 1, .rw, 0x0, .any⟩, ⟨"CTR", 1, 3, .rw, 0x0, .any⟩, ⟨"PEXP", 4, 5, .rw, 0x10, .range 8 31⟩]⟩,
  ⟨"SRV_TAG", 0x318, 1, 0, 32, [⟨"EN", 0, 1, .rw, 0x0, .any⟩, ⟨"DONE", 1, 1, .w1c, 0x0, .any⟩, ⟨"WIN", 2, 5, .rw, 0xa, .any⟩]⟩,
  ⟨"SRV_TAGREC", 0x340, 4, 8, 64, [⟨"WORD", 0, 64, .ro, 0x0, .any⟩]⟩,
  ⟨"SRV_HALF", 0x320, 1, 0, 32, [⟨"FIX", 0, 8, .w1c, 0x0, .any⟩, ⟨"CNT", 8, 8, .w1c, 0x0, .any⟩]⟩,
  ⟨"SRV_SNAP", 0x328, 1, 0, 32, [⟨"SNAP", 0, 1, .wo, 0x0, .any⟩, ⟨"SHADOW", 1, 1, .rw, 0x0, .any⟩]⟩,
  ⟨"SRV_STATUS", 0x330, 1, 0, 32, [⟨"CFG_ERR", 0, 1, .w1c, 0x0, .any⟩, ⟨"DENIED", 1, 1, .w1c, 0x0, .any⟩, ⟨"MOVED", 2, 1, .w1c, 0x0, .any⟩, ⟨"LOST", 16, 16, .ro, 0x0, .any⟩]⟩]

/-- The registers of block `dlr`. -/
def dlrTable : List RegDef := [
  ⟨"DLR_CTRL", 0x0, 1, 0, 32, [⟨"HOLD", 0, 1, .rw, 0x0, .any⟩, ⟨"STEAL_EN", 1, 1, .rw, 0x1, .any⟩, ⟨"MARGIN", 16, 16, .rw, 0x100, .any⟩]⟩,
  ⟨"DLR_ROWMAP", 0x100, 16, 4, 32, [⟨"FAULTCOL", 0, 6, .rw, 0x20, .any⟩, ⟨"MOVING", 6, 1, .rw, 0x0, .any⟩]⟩]

/-- The registers of block `crrDie`. -/
def crrDieTable : List RegDef := [
  ⟨"CRR_BC_CTRL", 0x100, 16, 8, 32, [⟨"PROV", 0, 8, .rw, 0x0, .any⟩, ⟨"INDEX", 8, 4, .rw, 0x0, .any⟩, ⟨"EN", 12, 1, .rw, 0x0, .any⟩]⟩,
  ⟨"CRR_BC_STATUS", 0x104, 16, 8, 32, [⟨"STATE", 0, 2, .ro, 0x0, .any⟩, ⟨"QDEPTH", 2, 7, .ro, 0x0, .any⟩, ⟨"CHAIN", 16, 16, .ro, 0x0, .any⟩]⟩]

/-- The registers of block `tal`. -/
def talTable : List RegDef := [
  ⟨"TAL_CFG", 0x0, 64, 8, 32, [⟨"PROV", 0, 8, .rw, 0x0, .any⟩, ⟨"INDEX", 8, 3, .rw, 0x0, .any⟩, ⟨"EN", 11, 1, .rw, 0x0, .any⟩]⟩,
  ⟨"TAL_STATUS", 0x200, 64, 4, 32, [⟨"COUNT", 0, 11, .ro, 0x0, .any⟩, ⟨"WAITERS", 11, 8, .ro, 0x0, .any⟩, ⟨"PUTWAIT", 19, 1, .ro, 0x0, .any⟩]⟩]

/-- The registers of block `mem`. -/
def memTable : List RegDef := [
  ⟨"MEM_SCRUB_CTRL", 0x0, 1, 0, 32, [⟨"PATROL_EN", 0, 1, .rw, 0x1, .any⟩, ⟨"PERIOD_H", 4, 8, .rw, 0x18, .any⟩]⟩,
  ⟨"MEM_ROW_WIN", 0x8, 1, 0, 32, [⟨"LIMIT", 0, 8, .rw, 0x3, .any⟩, ⟨"WINDOW_MIN", 8, 16, .rw, 0x3c, .any⟩]⟩,
  ⟨"MEM_ECC_CNT", 0x10, 1, 0, 64, [⟨"CORR", 0, 32, .ro, 0x0, .any⟩, ⟨"UNCORR", 32, 16, .ro, 0x0, .any⟩, ⟨"POISON", 48, 16, .ro, 0x0, .any⟩]⟩,
  ⟨"MEM_STATUS", 0x18, 1, 0, 32, [⟨"STATE", 0, 2, .ro, 0x0, .any⟩, ⟨"PROV", 2, 8, .ro, 0x0, .any⟩, ⟨"HOLD", 10, 1, .ro, 0x0, .any⟩, ⟨"HOT", 11, 1, .ro, 0x0, .any⟩, ⟨"REMAP_USED", 12, 10, .ro, 0x0, .any⟩]⟩]

/-- The registers of block `gzt`. -/
def gztTable : List RegDef := [
  ⟨"GZT_ROOT", 0x8, 255, 8, 64, [⟨"V", 0, 1, .rw, 0x0, .any⟩, ⟨"ADDR", 12, 28, .rw, 0x0, .any⟩]⟩]

/-- The registers of block `rde`. -/
def rdeTable : List RegDef := [
  ⟨"RDE_MC_CTRL", 0x0, 1, 0, 32, [⟨"LAG", 0, 8, .rw, 0x20, .any⟩, ⟨"EXCL", 8, 8, .rw, 0x40, .any⟩, ⟨"PATCH_EN", 16, 1, .rw, 0x1, .any⟩]⟩,
  ⟨"RDE_SLICE_STATUS", 0x8, 1, 0, 32, [⟨"ACTIVE", 0, 8, .ro, 0x0, .any⟩, ⟨"BUF_USED", 8, 10, .ro, 0x0, .any⟩]⟩,
  ⟨"RDE_TRI_RATE", 0x104, 255, 4, 32, [⟨"S", 0, 5, .ro, 0xa, .any⟩]⟩,
  ⟨"RDE_PSTEP", 0x808, 255, 8, 64, [⟨"NF_WIRE", 0, 32, .ro, 0x0, .any⟩, ⟨"TRI_MISMATCH", 32, 32, .ro, 0x0, .any⟩]⟩,
  ⟨"RDE_PEVT", 0x1008, 255, 8, 64, [⟨"EXCL", 0, 16, .ro, 0x0, .any⟩, ⟨"PATCH", 16, 16, .ro, 0x0, .any⟩, ⟨"DROP", 32, 16, .ro, 0x0, .any⟩, ⟨"BAD", 48, 16, .ro, 0x0, .any⟩]⟩]

/-- The registers of block `ethDie`. -/
def ethDieTable : List RegDef := [
  ⟨"ETH_LANE_MODE", 0x0, 1, 0, 32, [⟨"Q0", 0, 3, .rw, 0x6, .any⟩, ⟨"Q1", 3, 3, .rw, 0x6, .any⟩, ⟨"Q2", 6, 3, .rw, 0x6, .any⟩, ⟨"Q3", 9, 3, .rw, 0x6, .any⟩, ⟨"CFG_ERR", 31, 1, .w1c, 0x0, .any⟩]⟩,
  ⟨"ETH_LANE_SYMERR", 0x100, 16, 8, 64, [⟨"SYM", 0, 48, .ro, 0x0, .any⟩]⟩]

/-- The registers of block `ethPort`. -/
def ethPortTable : List RegDef := [
  ⟨"ETH_PORT_CTRL", 0x0, 1, 0, 64, [⟨"EN", 0, 1, .rw, 0x0, .any⟩, ⟨"RATE", 1, 1, .rw, 0x0, .any⟩, ⟨"AN", 2, 1, .rw, 0x0, .any⟩, ⟨"PAUSE_MODE", 3, 2, .rw, 0x0, .any⟩, ⟨"PTP_EN", 5, 1, .rw, 0x0, .any⟩, ⟨"MACSEC_EN", 6, 1, .rw, 0x0, .any⟩, ⟨"VID", 8, 12, .rw, 0x0, .any⟩, ⟨"PTP_PRI", 20, 3, .rw, 0x7, .any⟩, ⟨"PCP_TAG", 23, 1, .rw, 0x0, .any⟩, ⟨"MAXFRAME", 32, 14, .rw, 0x2400, .range 1518 9216⟩, ⟨"BER_EXP", 48, 4, .rw, 0x6, .any⟩, ⟨"FLAP_LIMIT", 52, 4, .rw, 0x5, .any⟩, ⟨"HOLD_S", 56, 8, .rw, 0x1e, .any⟩]⟩,
  ⟨"ETH_PORT_STATUS", 0x8, 1, 0, 32, [⟨"LINK", 0, 1, .ro, 0x0, .any⟩, ⟨"AN_DONE", 1, 1, .ro, 0x0, .any⟩, ⟨"FEC_LOCK", 2, 1, .ro, 0x0, .any⟩, ⟨"POWER", 3, 2, .ro, 0x0, .any⟩, ⟨"LOWERED", 5, 1, .ro, 0x0, .any⟩, ⟨"HELD", 6, 1, .ro, 0x0, .any⟩, ⟨"SINGLE", 7, 1, .ro, 0x0, .any⟩, ⟨"OWNER", 8, 8, .ro, 0x0, .any⟩, ⟨"LINK_CHG", 16, 1, .w1c, 0x0, .any⟩, ⟨"FLAP", 17, 1, .w1c, 0x0, .any⟩, ⟨"LANE_BER", 18, 1, .w1c, 0x0, .any⟩, ⟨"MODULE_CHG", 19, 1, .w1c, 0x0, .any⟩, ⟨"CFG_ERR", 20, 1, .w1c, 0x0, .any⟩]⟩,
  ⟨"ETH_TX_START_THRESH", 0x10, 1, 0, 64, [⟨"CUR", 0, 14, .rw, 0x100, .mult 64 9216 64⟩, ⟨"MIN", 16, 14, .rw, 0x100, .mult 64 9216 64⟩, ⟨"CLEAN", 32, 17, .ro, 0x0, .any⟩]⟩,
  ⟨"ETH_PARK_CTRL", 0x18, 1, 0, 64, [⟨"LPI_EN", 0, 1, .rw, 0x0, .any⟩, ⟨"RATE_EN", 1, 1, .rw, 0x0, .any⟩, ⟨"IDLE_US", 2, 10, .rw, 0x14, .any⟩, ⟨"LOWER_S", 16, 8, .rw, 0x3c, .any⟩, ⟨"LOWER_PCT", 24, 4, .rw, 0x4, .any⟩, ⟨"TW_NS", 32, 16, .rw, 0x1388, .any⟩]⟩,
  ⟨"ETH_PFC_CTRL", 0x20, 1, 0, 64, [⟨"PRI_EN", 0, 8, .rw, 0x0, .any⟩, ⟨"HEADROOM_KIB", 8, 8, .rw, 0x30, .any⟩, ⟨"XON_KIB", 16, 8, .rw, 0x80, .any⟩, ⟨"PAUSE_TIME", 32, 16, .rw, 0xffff, .any⟩, ⟨"WD_MS", 48, 8, .rw, 0x32, .any⟩, ⟨"RECOVER_10MS", 56, 8, .rw, 0x14, .any⟩]⟩,
  ⟨"ETH_PFC_STATUS", 0x28, 1, 0, 32, [⟨"TX_HELD", 0, 8, .ro, 0x0, .any⟩, ⟨"XOFF", 8, 8, .ro, 0x0, .any⟩, ⟨"STORM", 16, 8, .ro, 0x0, .any⟩, ⟨"STUCK", 24, 8, .ro, 0x0, .any⟩]⟩,
  ⟨"ETH_PORT_MAC", 0x30, 1, 0, 64, [⟨"MAC", 0, 48, .rw, 0x0, .any⟩]⟩,
  ⟨"ETH_STAT_CTRL", 0x38, 1, 0, 32, [⟨"SNAP", 0, 1, .wo, 0x0, .any⟩, ⟨"SHADOW", 1, 1, .rw, 0x0, .any⟩]⟩,
  ⟨"ETH_STAT_HALF", 0x40, 1, 0, 64, [⟨"HALF", 0, 64, .w1c, 0x0, .any⟩]⟩,
  ⟨"ETH_STAT", 0x100, 64, 8, 64, [⟨"COUNT", 0, 56, .ro, 0x0, .any⟩]⟩]

/-- The registers of block `ndx`. -/
def ndxTable : List RegDef := [
  ⟨"NDX_CTRL", 0x0, 1, 0, 64, [⟨"ETHERTYPE", 0, 16, .rw, 0x88b5, .any⟩, ⟨"UDP_PORT", 16, 16, .rw, 0xd0b5, .any⟩, ⟨"VER_MIN", 32, 2, .rw, 0x1, .any⟩, ⟨"VER_MAX", 34, 2, .rw, 0x3, .any⟩]⟩,
  ⟨"NDX_RELY", 0x8, 1, 0, 64, [⟨"RTO_US", 0, 12, .rw, 0x28, .any⟩, ⟨"RETRY_LIMIT", 16, 5, .rw, 0x10, .any⟩, ⟨"ACK_EVERY", 24, 8, .rw, 0x8, .any⟩, ⟨"ACK_US", 32, 8, .rw, 0x4, .any⟩]⟩,
  ⟨"NDX_LIVE", 0x10, 1, 0, 32, [⟨"KA_US", 0, 10, .rw, 0x64, .any⟩, ⟨"LOST_MS", 16, 16, .rw, 0x1f4, .any⟩]⟩,
  ⟨"NDX_KEY", 0x18, 1, 0, 32, [⟨"PN_SOFT_EXP", 0, 6, .rw, 0x22, .range 24 39⟩, ⟨"KEY_MAX_S", 8, 16, .rw, 0xe10, .any⟩, ⟨"HS_HOURS", 24, 8, .rw, 0x18, .any⟩]⟩,
  ⟨"NDX_STATUS", 0x20, 1, 0, 32, [⟨"LINKS", 0, 19, .ro, 0x0, .any⟩, ⟨"AUTH_BURST", 24, 1, .w1c, 0x0, .any⟩, ⟨"LINK_LOST", 25, 1, .w1c, 0x0, .any⟩, ⟨"PN_HARD", 26, 1, .w1c, 0x0, .any⟩, ⟨"HS_FAIL", 27, 1, .w1c, 0x0, .any⟩]⟩,
  ⟨"NDX_CNT_HALF", 0x28, 1, 0, 32, [⟨"HALF", 0, 8, .w1c, 0x0, .any⟩]⟩,
  ⟨"NDX_CNT", 0x100, 8, 8, 64, [⟨"COUNT", 0, 48, .ro, 0x0, .any⟩]⟩,
  ⟨"NDX_MSEC_CTRL", 0x400, 64, 8, 32, [⟨"KEY_SERVER_PRI", 0, 8, .rw, 0x80, .any⟩, ⟨"CAK_VALID", 8, 1, .ro, 0x0, .any⟩, ⟨"SECURE", 9, 1, .ro, 0x0, .any⟩, ⟨"REPLAY_WIN", 16, 16, .rw, 0x0, .any⟩]⟩]

/-- The registers of block `hifFn`. -/
def hifFnTable : List RegDef := [
  ⟨"HIF_FN_STATUS", 0x0, 1, 0, 32, [⟨"ATTACH", 0, 2, .ro, 0x0, .any⟩, ⟨"BOUND", 2, 1, .ro, 0x0, .any⟩, ⟨"PROV", 8, 8, .ro, 0x0, .any⟩, ⟨"INSET_ERR", 16, 1, .w1c, 0x0, .any⟩, ⟨"HOST_ERR", 17, 1, .w1c, 0x0, .any⟩]⟩,
  ⟨"HIF_INSET_BASE", 0x8, 1, 0, 64, [⟨"EN", 0, 1, .rw, 0x0, .any⟩, ⟨"BASE", 26, 22, .rw, 0x0, .any⟩]⟩,
  ⟨"HIF_REATTACH_CTRL", 0x10, 1, 0, 32, [⟨"ACTION", 0, 2, .wo, 0x0, .any⟩]⟩,
  ⟨"HIF_SRV_PAGE", 0x18, 1, 0, 32, [⟨"PAGE", 0, 8, .rw, 0x0, .any⟩]⟩]

/-- The registers of block `hand`. -/
def handTable : List RegDef := [
  ⟨"HAND_RING_BASE", 0x0, 1, 0, 64, [⟨"ADDR", 12, 52, .rw, 0x0, .any⟩]⟩,
  ⟨"HAND_CPL_BASE", 0x8, 1, 0, 64, [⟨"ADDR", 12, 52, .rw, 0x0, .any⟩]⟩,
  ⟨"HAND_CTRL", 0x10, 1, 0, 32, [⟨"OPEN", 0, 1, .wo, 0x0, .any⟩, ⟨"CLOSE", 1, 1, .wo, 0x0, .any⟩, ⟨"SECURE", 2, 1, .rw, 0x0, .any⟩, ⟨"IRQ", 3, 1, .rw, 0x0, .any⟩, ⟨"LOG2SIZE", 8, 5, .rw, 0x6, .any⟩, ⟨"VEC", 16, 6, .rw, 0x0, .any⟩, ⟨"FMT", 24, 8, .rw, 0x1, .any⟩]⟩,
  ⟨"HAND_STATUS", 0x18, 1, 0, 32, [⟨"STATE", 0, 2, .ro, 0x0, .any⟩, ⟨"STALE", 2, 1, .w1c, 0x0, .any⟩, ⟨"ERR", 8, 8, .ro, 0x0, .any⟩]⟩,
  ⟨"HAND_SESSION", 0x20, 1, 0, 32, [⟨"SESSION", 0, 32, .rw, 0x0, .any⟩]⟩,
  ⟨"HAND_CONSUMED", 0x28, 1, 0, 32, [⟨"COUNT", 0, 32, .ro, 0x0, .any⟩]⟩,
  ⟨"HAND_DOORBELL", 0x38, 1, 0, 32, [⟨"PRODUCED", 0, 32, .wo, 0x0, .any⟩]⟩]

/-- The registers of block `hifDev`. -/
def hifDevTable : List RegDef := [
  ⟨"HIF_DB_RETRY", 0x0, 1, 0, 32, [⟨"COUNT", 0, 4, .rw, 0x8, .any⟩, ⟨"INTERVAL", 8, 8, .rw, 0x1, .any⟩]⟩,
  ⟨"HIF_PF0_GRANT", 0x8, 1, 0, 32, [⟨"PROV", 0, 8, .rw, 0x0, .any⟩]⟩,
  ⟨"HIF_LINK_STATUS", 0x10, 1, 0, 32, [⟨"RATE", 0, 3, .ro, 0x0, .any⟩, ⟨"WIDTH", 3, 5, .ro, 0x0, .any⟩, ⟨"DEGRADED", 8, 1, .w1c, 0x0, .any⟩, ⟨"IDE", 9, 1, .ro, 0x0, .any⟩]⟩]

/-- The registers of block `stw`. -/
def stwTable : List RegDef := [
  ⟨"STW_STATUS", 0x0, 1, 0, 32, [⟨"BOOT", 0, 4, .ro, 0x0, .any⟩, ⟨"LC", 4, 3, .ro, 0x0, .any⟩, ⟨"OWNERSHIP", 7, 2, .ro, 0x0, .any⟩, ⟨"FW_SLOT", 9, 1, .ro, 0x0, .any⟩, ⟨"FW_UPDATE", 10, 2, .ro, 0x0, .any⟩, ⟨"CART_PRESENT", 12, 1, .ro, 0x0, .any⟩, ⟨"CART_PAIRED", 13, 1, .ro, 0x0, .any⟩, ⟨"CLEAN", 14, 1, .ro, 0x0, .any⟩, ⟨"RECOVERY_ANY", 15, 1, .ro, 0x0, .any⟩]⟩,
  ⟨"STW_BASFIN_WEAR", 0x8, 1, 0, 32, [⟨"PCT", 0, 8, .ro, 0x0, .any⟩, ⟨"PART", 8, 4, .ro, 0x0, .any⟩, ⟨"READONLY", 12, 1, .ro, 0x0, .any⟩]⟩,
  ⟨"STW_FW_VERSION", 0x10, 1, 0, 64, [⟨"VERSION", 0, 32, .ro, 0x0, .any⟩, ⟨"SVN", 32, 8, .ro, 0x0, .any⟩, ⟨"SVN_FUSED", 40, 8, .ro, 0x0, .any⟩]⟩,
  ⟨"STW_IMPRINT_SEQ", 0x18, 1, 0, 64, [⟨"SEQ", 0, 64, .ro, 0x0, .any⟩]⟩,
  ⟨"STW_MGMT", 0x20, 1, 0, 32, [⟨"TCP_PORT", 0, 16, .ro, 0x1d06, .any⟩, ⟨"LINK", 16, 1, .ro, 0x0, .any⟩, ⟨"TEN_G", 17, 1, .ro, 0x0, .any⟩, ⟨"CONNS", 18, 4, .ro, 0x0, .any⟩]⟩,
  ⟨"STW_CLK_STATUS", 0x28, 1, 0, 32, [⟨"REF25_OK", 0, 1, .ro, 0x0, .any⟩, ⟨"REFPCIE_OK", 1, 1, .ro, 0x0, .any⟩, ⟨"REFETH_OK", 2, 4, .ro, 0x0, .any⟩, ⟨"FALLBACK", 6, 1, .ro, 0x0, .any⟩, ⟨"LOSS_SEEN", 8, 1, .w1c, 0x0, .any⟩]⟩]

/-- The registers of block `tst`. -/
def tstTable : List RegDef := [
  ⟨"TST_STATUS", 0x0, 1, 0, 32, [⟨"FATAL", 0, 1, .ro, 0x0, .any⟩, ⟨"ALERT", 1, 1, .ro, 0x0, .any⟩, ⟨"RESTARTS", 4, 4, .ro, 0x0, .any⟩, ⟨"FATAL_CAUSE", 8, 16, .ro, 0x0, .any⟩, ⟨"QFULL", 24, 1, .ro, 0x0, .any⟩]⟩,
  ⟨"TST_ERR_LOST", 0x8, 1, 0, 32, [⟨"LOST", 0, 32, .ro, 0x0, .any⟩]⟩,
  ⟨"TST_WIN_SRAM", 0x10, 1, 0, 32, [⟨"LIMIT", 0, 8, .rw, 0x2, .any⟩, ⟨"WINDOW_H", 8, 16, .rw, 0x18, .any⟩]⟩,
  ⟨"TST_WIN_TILE", 0x18, 1, 0, 32, [⟨"LIMIT", 0, 8, .rw, 0x2, .any⟩, ⟨"WINDOW_H", 8, 16, .rw, 0x18, .any⟩]⟩,
  ⟨"TST_THROTTLE", 0x20, 1, 0, 32, [⟨"ASSERTED", 0, 1, .ro, 0x0, .any⟩, ⟨"TOGGLE", 1, 1, .w1c, 0x0, .any⟩, ⟨"QUALIFIED", 16, 16, .ro, 0x0, .any⟩]⟩,
  ⟨"TST_ALERT_CTRL", 0x28, 1, 0, 32, [⟨"SEV_MASK", 0, 4, .rw, 0x6, .any⟩, ⟨"PULSE_MS", 16, 16, .rw, 0xa, .any⟩]⟩,
  ⟨"TST_FUSE_LEFT", 0x30, 1, 0, 32, [⟨"LEFT", 0, 10, .ro, 0x200, .any⟩]⟩]

/-- The registers of block `pwr`. -/
def pwrTable : List RegDef := [
  ⟨"PWR_STATUS", 0x0, 1, 0, 64, [⟨"PROFILE", 0, 2, .ro, 0x0, .any⟩, ⟨"LIMITER", 2, 3, .ro, 0x0, .any⟩, ⟨"SENSOR_FAULT", 5, 1, .w1c, 0x0, .any⟩, ⟨"INLET_SRC", 6, 2, .ro, 0x0, .any⟩, ⟨"CLOCK_MHZ", 16, 11, .ro, 0x0, .any⟩, ⟨"ICC_EVENTS", 32, 16, .ro, 0x0, .any⟩, ⟨"INLET", 48, 12, .ro, 0x15e, .any⟩]⟩,
  ⟨"PWR_MEAS", 0x8, 1, 0, 64, [⟨"POWER_W", 0, 16, .ro, 0x0, .any⟩, ⟨"VDD_MV", 16, 10, .ro, 0x0, .any⟩, ⟨"TJ_MAX", 32, 12, .ro, 0x0, .any⟩, ⟨"HBM_MAX", 44, 12, .ro, 0x0, .any⟩]⟩,
  ⟨"PWR_CAP", 0x10, 1, 0, 32, [⟨"HYST_W", 0, 8, .rw, 0x28, .any⟩, ⟨"ICC_A", 8, 12, .rw, 0x5dc, .range 500 1500⟩]⟩,
  ⟨"PWR_THROT", 0x18, 1, 0, 32, [⟨"MHZ", 0, 11, .rw, 0x3b6, .mult 500 1500 25⟩, ⟨"STATE", 16, 4, .ro, 0x0, .any⟩]⟩,
  ⟨"PWR_RAIL", 0x20, 1, 0, 32, [⟨"GOOD", 0, 12, .ro, 0x0, .any⟩, ⟨"AVS_NACK", 16, 16, .ro, 0x0, .any⟩]⟩]

/-- The registers of block `prov`. -/
def provTable : List RegDef := [
  ⟨"PROV_LEGEND0", 0x100, 1, 4, 32, [⟨"WIDTH", 0, 4, .ro, 0x8, .any⟩, ⟨"EBITS", 4, 3, .ro, 0x4, .any⟩, ⟨"MBITS", 7, 3, .ro, 0x3, .any⟩, ⟨"SIGN", 10, 1, .ro, 0x1, .any⟩, ⟨"SPECIAL", 11, 2, .ro, 0x2, .any⟩, ⟨"INT", 13, 1, .ro, 0x0, .any⟩, ⟨"BS", 14, 1, .ro, 0x0, .any⟩, ⟨"SAT", 15, 1, .ro, 0x1, .any⟩, ⟨"BIAS", 16, 6, .ro, 0x7, .any⟩, ⟨"VALID", 31, 1, .ro, 0x1, .any⟩]⟩,
  ⟨"PROV_LEGEND1", 0x104, 1, 4, 32, [⟨"WIDTH", 0, 4, .ro, 0x8, .any⟩, ⟨"EBITS", 4, 3, .ro, 0x5, .any⟩, ⟨"MBITS", 7, 3, .ro, 0x2, .any⟩, ⟨"SIGN", 10, 1, .ro, 0x1, .any⟩, ⟨"SPECIAL", 11, 2, .ro, 0x1, .any⟩, ⟨"INT", 13, 1, .ro, 0x0, .any⟩, ⟨"BS", 14, 1, .ro, 0x0, .any⟩, ⟨"SAT", 15, 1, .ro, 0x0, .any⟩, ⟨"BIAS", 16, 6, .ro, 0xf, .any⟩, ⟨"VALID", 31, 1, .ro, 0x1, .any⟩]⟩,
  ⟨"PROV_LEGEND2", 0x108, 1, 4, 32, [⟨"WIDTH", 0, 4, .ro, 0x8, .any⟩, ⟨"EBITS", 4, 3, .ro, 0x4, .any⟩, ⟨"MBITS", 7, 3, .ro, 0x3, .any⟩, ⟨"SIGN", 10, 1, .ro, 0x1, .any⟩, ⟨"SPECIAL", 11, 2, .ro, 0x2, .any⟩, ⟨"INT", 13, 1, .ro, 0x0, .any⟩, ⟨"BS", 14, 1, .ro, 0x1, .any⟩, ⟨"SAT", 15, 1, .ro, 0x1, .any⟩, ⟨"BIAS", 16, 6, .ro, 0x7, .any⟩, ⟨"VALID", 31, 1, .ro, 0x1, .any⟩]⟩,
  ⟨"PROV_LEGEND3", 0x10c, 1, 4, 32, [⟨"WIDTH", 0, 4, .ro, 0x8, .any⟩, ⟨"EBITS", 4, 3, .ro, 0x5, .any⟩, ⟨"MBITS", 7, 3, .ro, 0x2, .any⟩, ⟨"SIGN", 10, 1, .ro, 0x1, .any⟩, ⟨"SPECIAL", 11, 2, .ro, 0x1, .any⟩, ⟨"INT", 13, 1, .ro, 0x0, .any⟩, ⟨"BS", 14, 1, .ro, 0x1, .any⟩, ⟨"SAT", 15, 1, .ro, 0x1, .any⟩, ⟨"BIAS", 16, 6, .ro, 0xf, .any⟩, ⟨"VALID", 31, 1, .ro, 0x1, .any⟩]⟩,
  ⟨"PROV_LEGEND4", 0x110, 1, 4, 32, [⟨"WIDTH", 0, 4, .ro, 0x6, .any⟩, ⟨"EBITS", 4, 3, .ro, 0x2, .any⟩, ⟨"MBITS", 7, 3, .ro, 0x3, .any⟩, ⟨"SIGN", 10, 1, .ro, 0x1, .any⟩, ⟨"SPECIAL", 11, 2, .ro, 0x0, .any⟩, ⟨"INT", 13, 1, .ro, 0x0, .any⟩, ⟨"BS", 14, 1, .ro, 0x1, .any⟩, ⟨"SAT", 15, 1, .ro, 0x1, .any⟩, ⟨"BIAS", 16, 6, .ro, 0x1, .any⟩, ⟨"VALID", 31, 1, .ro, 0x1, .any⟩]⟩,
  ⟨"PROV_LEGEND5", 0x114, 1, 4, 32, [⟨"WIDTH", 0, 4, .ro, 0x6, .any⟩, ⟨"EBITS", 4, 3, .ro, 0x3, .any⟩, ⟨"MBITS", 7, 3, .ro, 0x2, .any⟩, ⟨"SIGN", 10, 1, .ro, 0x1, .any⟩, ⟨"SPECIAL", 11, 2, .ro, 0x0, .any⟩, ⟨"INT", 13, 1, .ro, 0x0, .any⟩, ⟨"BS", 14, 1, .ro, 0x1, .any⟩, ⟨"SAT", 15, 1, .ro, 0x1, .any⟩, ⟨"BIAS", 16, 6, .ro, 0x3, .any⟩, ⟨"VALID", 31, 1, .ro, 0x1, .any⟩]⟩,
  ⟨"PROV_LEGEND6", 0x118, 1, 4, 32, [⟨"WIDTH", 0, 4, .ro, 0x4, .any⟩, ⟨"EBITS", 4, 3, .ro, 0x2, .any⟩, ⟨"MBITS", 7, 3, .ro, 0x1, .any⟩, ⟨"SIGN", 10, 1, .ro, 0x1, .any⟩, ⟨"SPECIAL", 11, 2, .ro, 0x0, .any⟩, ⟨"INT", 13, 1, .ro, 0x0, .any⟩, ⟨"BS", 14, 1, .ro, 0x1, .any⟩, ⟨"SAT", 15, 1, .ro, 0x1, .any⟩, ⟨"BIAS", 16, 6, .ro, 0x1, .any⟩, ⟨"VALID", 31, 1, .ro, 0x1, .any⟩]⟩,
  ⟨"PROV_LEGEND7", 0x11c, 1, 4, 32, [⟨"WIDTH", 0, 4, .ro, 0x8, .any⟩, ⟨"EBITS", 4, 3, .ro, 0x0, .any⟩, ⟨"MBITS", 7, 3, .ro, 0x0, .any⟩, ⟨"SIGN", 10, 1, .ro, 0x1, .any⟩, ⟨"SPECIAL", 11, 2, .ro, 0x0, .any⟩, ⟨"INT", 13, 1, .ro, 0x1, .any⟩, ⟨"BS", 14, 1, .ro, 0x1, .any⟩, ⟨"SAT", 15, 1, .ro, 0x1, .any⟩, ⟨"BIAS", 16, 6, .ro, 0x6, .any⟩, ⟨"VALID", 31, 1, .ro, 0x1, .any⟩]⟩,
  ⟨"PROV_LEGEND", 0x120, 8, 4, 32, [⟨"WIDTH", 0, 4, .rwl, 0x0, .any⟩, ⟨"EBITS", 4, 3, .rwl, 0x0, .any⟩, ⟨"MBITS", 7, 3, .rwl, 0x0, .any⟩, ⟨"SIGN", 10, 1, .rwl, 0x0, .any⟩, ⟨"SPECIAL", 11, 2, .rwl, 0x0, .any⟩, ⟨"INT", 13, 1, .rwl, 0x0, .any⟩, ⟨"BS", 14, 1, .rwl, 0x0, .any⟩, ⟨"SAT", 15, 1, .rwl, 0x0, .any⟩, ⟨"BIAS", 16, 6, .rwl, 0x0, .any⟩, ⟨"VALID", 31, 1, .rwl, 0x0, .any⟩]⟩,
  ⟨"PROV_SR_SEED", 0x180, 1, 0, 64, [⟨"SEED", 0, 64, .ro, 0x0, .any⟩]⟩,
  ⟨"PROV_PLAN_LAG", 0x1a0, 1, 0, 32, [⟨"LAG", 0, 32, .ro, 0x0, .any⟩]⟩,
  ⟨"PROV_MISDEAL_CNT", 0x1a8, 1, 0, 64, [⟨"COUNT", 0, 64, .ro, 0x0, .any⟩]⟩,
  ⟨"PROV_MEM_SPLIT", 0x1b8, 1, 0, 32, [⟨"READ", 0, 5, .rwl, 0xa, .any⟩, ⟨"WRITE", 8, 5, .rwl, 0x4, .any⟩, ⟨"REMOTE", 16, 5, .rwl, 0x2, .any⟩]⟩,
  ⟨"PROV_RNG_MODE", 0x1c0, 1, 0, 32, [⟨"MODE", 0, 1, .rwl, 0x1, .any⟩]⟩,
  ⟨"PROV_STEP", 0x1c8, 1, 0, 64, [⟨"STEP", 0, 64, .ro, 0x0, .any⟩]⟩,
  ⟨"PROV_STEP_STATE", 0x1d0, 1, 0, 32, [⟨"STATE", 0, 3, .ro, 0x0, .any⟩, ⟨"LAST", 3, 3, .ro, 0x0, .any⟩, ⟨"REASON", 8, 8, .ro, 0x0, .any⟩, ⟨"CONSEC", 16, 16, .ro, 0x0, .any⟩]⟩,
  ⟨"PROV_SKIP_CTRL", 0x1d8, 1, 0, 32, [⟨"LIMIT", 0, 8, .rw, 0x8, .any⟩, ⟨"TRI_PAUSE", 8, 1, .rw, 0x0, .any⟩]⟩,
  ⟨"PROV_SKIP_CNT", 0x1e0, 1, 0, 32, [⟨"COUNT", 0, 32, .ro, 0x0, .any⟩]⟩,
  ⟨"PROV_SAT_EVENTS", 0x1e8, 1, 0, 64, [⟨"STEPS", 0, 32, .ro, 0x0, .any⟩, ⟨"ELEMENTS", 32, 32, .ro, 0x0, .any⟩]⟩,
  ⟨"PROV_RANK", 0x200, 1, 0, 64, [⟨"RANK", 0, 17, .rwl, 0x0, .any⟩, ⟨"LASTRANK", 32, 17, .rwl, 0x0, .any⟩]⟩,
  ⟨"PROV_STANDIN", 0x208, 1, 0, 32, [⟨"MIRROR_ORD", 0, 16, .rw, 0xffff, .any⟩, ⟨"MIRROR_VALID", 16, 1, .ro, 0x0, .any⟩, ⟨"AUTO", 17, 1, .rw, 0x0, .any⟩]⟩,
  ⟨"PROV_MIRROR_STEP", 0x210, 1, 0, 64, [⟨"STEP", 0, 64, .ro, 0x0, .any⟩]⟩,
  ⟨"PROV_NDX_TAG", 0x218, 1, 0, 64, [⟨"TAG", 0, 64, .rwl, 0x0, .any⟩]⟩,
  ⟨"PROV_LINK_PORTS", 0x220, 1, 0, 64, [⟨"PORTS", 0, 64, .rwl, 0x0, .any⟩]⟩,
  ⟨"PROV_LINK_SLOTS", 0x228, 1, 0, 32, [⟨"SLOTS", 0, 9, .rwl, 0x0, .any⟩]⟩,
  ⟨"PROV_HOST_POLICY", 0x230, 1, 0, 32, [⟨"PAUSE", 0, 1, .rwl, 0x0, .any⟩, ⟨"LIMIT_S", 8, 16, .rwl, 0x258, .any⟩]⟩,
  ⟨"PROV_HANDS", 0x238, 1, 0, 32, [⟨"COUNT", 0, 13, .rwl, 0x10, .any⟩]⟩,
  ⟨"PROV_STATE", 0x0, 1, 0, 32, [⟨"STATE", 0, 3, .ro, 0x7, .any⟩, ⟨"RECOVERY", 3, 1, .ro, 0x0, .any⟩, ⟨"ID", 8, 8, .ro, 0x0, .any⟩, ⟨"UNITS", 16, 8, .ro, 0x0, .any⟩]⟩,
  ⟨"PROV_RESOURCES", 0x8, 1, 0, 64, [⟨"UNITS", 0, 9, .ro, 0x0, .any⟩, ⟨"CHANS", 9, 9, .ro, 0x0, .any⟩, ⟨"NBULK", 18, 5, .ro, 0x0, .any⟩, ⟨"NTALON", 23, 4, .ro, 0x0, .any⟩]⟩,
  ⟨"PROV_EPOCH", 0x10, 1, 0, 32, [⟨"EPOCH", 0, 32, .ro, 0x0, .any⟩]⟩,
  ⟨"PROV_SRV_RING", 0x240, 1, 0, 64, [⟨"BASE", 0, 48, .rw, 0x0, .any⟩, ⟨"SIZE", 48, 16, .rw, 0x0, .any⟩]⟩,
  ⟨"PROV_SRV_CTRL", 0x248, 1, 0, 32, [⟨"SNAP", 0, 1, .wo, 0x0, .any⟩]⟩]

/-- The register table of a block. -/
def Block.table : Block → List RegDef
  | .dev => devTable
  | .mer => merTable
  | .cc => ccTable
  | .tile => tileTable
  | .vec => vecTable
  | .crrTile => crrTileTable
  | .srv => srvTable
  | .dlr => dlrTable
  | .crrDie => crrDieTable
  | .tal => talTable
  | .mem => memTable
  | .gzt => gztTable
  | .rde => rdeTable
  | .ethDie => ethDieTable
  | .ethPort => ethPortTable
  | .ndx => ndxTable
  | .hifFn => hifFnTable
  | .hand => handTable
  | .hifDev => hifDevTable
  | .stw => stwTable
  | .tst => tstTable
  | .pwr => pwrTable
  | .prov => provTable

end Sys2Proof.Machine
end

