-- ==== Sys2Proof/Machine/TypesTile.lean ====
section
/-! DEFINITION. The state of one tile (R53): sheet store, program store, tile registers, accumulator banks, the array and vector queues,
the seats, the tile couriers' queues and outbox, and the context of the trick that holds it. -/
namespace Sys2Proof.Machine

/-- Seat states (R184). -/
inductive SeatState where
  | idle | ready | stalled | waitLocal | waitGlobal | done | faulted | halted
deriving DecidableEq, Repr

/-- The state's value in `CC_SEAT_STATE` (R184). -/
def SeatState.code : SeatState → Nat
  | .idle => 0 | .ready => 1 | .stalled => 2 | .waitLocal => 3 | .waitGlobal => 4 | .done => 5 | .faulted => 6 | .halted => 7

/-- What a waiting seat waits for (R206, R207, R213). -/
inductive SeatWait where
  | none
  | swait (ctr target : Nat)
  | sbar (mask : Nat)
  | gsync (id : Nat)
deriving DecidableEq, Repr

/-- One seat: state, PC, s1–s31, the registers whose last write is outstanding with that write's sequence number, every outstanding write (R186), completion counters, the site ordinal (R121, R183, R205),
the steps that debug control grants and whether the seat halts again when its wait ends (R225). -/
structure Seat where
  st : SeatState := .idle
  pc : Nat := 0
  regs : Sparse W64 := []
  busy : Sparse (Option Nat) := []
  due : List (Nat × Nat) := []
  wait : SeatWait := .none
  arrDone : Nat := 0
  vecDone : Nat := 0
  crrDone : Nat := 0
  talDone : Nat := 0
  site : Nat := 0
  steps : Nat := 0
  stop : Bool := false
deriving DecidableEq, Repr

/-- Bank states (R80). -/
inductive BankState where
  | free | claimed | draining
deriving DecidableEq, Repr

/-- One accumulator bank: 256 entries, type, pairing, owner, product-group count and the claiming site (R80, R83, R113, R120). -/
structure Bank where
  st : BankState := .free
  owner : Nat := 0
  int : Bool := false
  paired : Bool := false
  g : Nat := 0
  site : Nat := 0
  cells : Sparse W32 := []
deriving DecidableEq, Repr

/-- An array command in the queue or in flight: its word, the scalar words taken at issue, the sampled `TILE_ACC_CTRL` (R78, R145). (DESIGN CHOICE: log 28) -/
structure ArrCmd where
  seat : Nat
  seq : Nat
  insn : Nat
  words : List Nat
  site : Nat
  thresh : Nat
  round : Nat
  acted : Bool
  sheetOut : List (Nat × Byte)
  tregOut : List (Nat × W32)
deriving DecidableEq, Repr

/-- An entry of the vector queue: a vector instruction, an LD or an ST with its scalar words (R145, R174, R196). -/
structure VecCmd where
  seat : Nat
  seq : Nat
  insn : Nat
  words : List Nat
  site : Nat
deriving DecidableEq, Repr

/-- The context of the trick on a tile (R182, R199). -/
structure TrickCtx where
  prov : Nat
  tileIdx : Nat
  trick : Nat
  mbatch : Nat
  prog : Nat
  first : Nat
  last : Nat
  started : Nat
  pframe : Nat
  dframe : Nat
  step : Nat
  pro : Bool
  rank : Nat
  nranks : Nat
  ntiles : Nat
  repoch : Nat
  pin : Bool
  stolen : Bool
  bwdEnd : Bool
  debug : Bool := false
deriving DecidableEq, Repr

/-- A tile-courier transfer (R285, R293): its word, its descriptor block, its site, the trick that issued it, the frame of the issue (R300), and the frame
in which that trick completed, while it has (R217, R298). -/
structure Xfer where
  seat : Nat
  seq : Nat
  insn : Nat
  words : List Nat
  site : Nat
  ctx : TrickCtx
  frame : Nat
  rel : Option Nat := none
deriving DecidableEq, Repr

/-- A CXFR of a seat that CRRDONE has not counted yet (R294). -/
structure CrrSlot where
  seat : Nat
  seq : Nat
  done : Bool
deriving DecidableEq, Repr

/-- A result in the outbox (R296–R298): bytes by province virtual address, counted in memory-side bytes; `frame` is the release frame. -/
structure OutEntry where
  seq : Nat
  held : Bool
  size : Nat
  cells : List (Nat × Byte)
  frame : Nat
  prov : Nat
  pframe : Nat
deriving DecidableEq, Repr

/-- A held chain submission (R303). -/
structure ChainReq where
  chain : Nat
  inst : Nat
  arg : Nat
deriving DecidableEq, Repr

/-- A tagged instruction (R622): armed and counting down, or captured with its record so far. -/
inductive TagState where
  | off
  | armed (left : Nat)
  | held (trick pc seat : Nat) (insn : Nat)
deriving DecidableEq, Repr

/-- One tile. `lag` counts the cycles that a seat's fixed latencies may still last (R185, R224). -/
structure Tile where
  sheet : Sparse Byte := []
  badWords : Sparse Bool := []
  prog : Sparse W64 := []
  treg : Sparse W32 := []
  banks : Sparse Bank := []
  aq : List ArrCmd := []
  fly : List ArrCmd := []
  vq : List VecCmd := []
  seats : Sparse Seat := []
  lastSeat : Nat := 7
  lag : Sparse Nat := []
  seq : Nat := 0
  trick : Option TrickCtx := none
  tc0 : List Xfer := []
  tc1 : List Xfer := []
  crr : List CrrSlot := []
  outbox : List OutEntry := []
  chains : List ChainReq := []
  waitChains : List (ChainReq × TrickCtx × Nat) := []
  puts : List (Nat × Nat) := []
  duePuts : List (Nat × Nat × Nat × Nat) := []
  taken : List (Nat × Nat) := []
  faulted : Bool := false
  loadedFor : Nat := 0
  tag : TagState := .off
  samples : List (List Byte) := []
  sampleLost : Bool := false
deriving DecidableEq, Repr

/-- A tile right after reset. -/
def Tile.init : Tile := {}
/-- A seat right after reset. -/
def Seat.init : Seat := {}
/-- A bank right after reset: FREE. (DESIGN CHOICE: log 159) -/
def Bank.init : Bank := {}

def Tile.seat (t : Tile) (i : Nat) : Seat := Sparse.get Seat.init t.seats i
def Tile.setSeat (t : Tile) (i : Nat) (x : Seat) : Tile := { t with seats := Sparse.set Seat.init t.seats i x }
def Tile.bank (t : Tile) (i : Nat) : Bank := Sparse.get Bank.init t.banks i
def Tile.setBank (t : Tile) (i : Nat) (b : Bank) : Tile := { t with banks := Sparse.set Bank.init t.banks i b }

/-- A scalar register; s0 reads 0 (R183). (DESIGN CHOICE: log 12) -/
def Seat.reg (x : Seat) (r : Nat) : W64 := if r = 0 then 0 else Sparse.get 0 x.regs r
/-- A write of a scalar register; a write of s0 has no effect (R183). -/
def Seat.setReg (x : Seat) (r : Nat) (v : W64) : Seat :=
  if r = 0 then x else { x with regs := Sparse.set 0 x.regs r v, busy := Sparse.set none x.busy r none }
/-- The register's last write in program order is outstanding (R186). -/
def Seat.await (x : Seat) (r seq : Nat) : Seat :=
  if r = 0 then x else { x with busy := Sparse.set none x.busy r (some seq), due := x.due ++ [(r, seq)] }

end Sys2Proof.Machine
end

