-- ==== Sys2Proof/Machine/TypesDie.lean ====
section
/-! DEFINITION. The state of a compute die beyond its tiles and registers: Talons (R312) and bulk couriers (R302). -/
namespace Sys2Proof.Machine

/-- A TTAKE that waits on an empty Talon (R314): the tile, the seat and the register. -/
structure TakeWait where
  tile : Nat
  seat : Nat
  rd : Nat
  seq : Nat
deriving DecidableEq, Repr

/-- A Talon: handles first in, first out; waiting TTAKEs; puts that wait for room (R312, R314). -/
structure Talon where
  handles : List Nat := []
  waiters : List TakeWait := []
  putWait : List Nat := []
deriving DecidableEq, Repr

/-- A chain submitted to a bulk courier (R303, R306–R308): its request, the trick that submitted it, the tile whose released writes with a
sequence number below `afterSeq` must be made first, the next descriptor, what a LINK descriptor handed on, whether host writes still
wait for their confirming read (R525), and the frame in which the next descriptor's reads are issued (R300). -/
structure ChainJob where
  req : ChainReq
  ctx : TrickCtx
  tile : Nat
  afterSeq : Nat
  desc : Nat := 0
  carry : Option (List (Nat × Byte)) := none
  hostWrote : Bool := false
  frame : Nat := 0
deriving DecidableEq, Repr

/-- Bulk-courier states (`CRR_BC_STATUS`). -/
inductive BcState where
  | idle | running | waitHost | faulted
deriving DecidableEq, Repr

def BcState.code : BcState → Nat | .idle => 0 | .running => 1 | .waitHost => 2 | .faulted => 3

/-- A bulk courier: its queue of chains, the first of which is the one running. -/
structure Bulk where
  st : BcState := .idle
  queue : List ChainJob := []
  last : Nat := 0
deriving DecidableEq, Repr

def Talon.empty : Talon := {}
def Bulk.empty : Bulk := {}

end Sys2Proof.Machine
end

