-- ==== Sys2Proof/Machine/TypesErr.lean ====
section
/-! DEFINITION. Error records (R587, R588), the hardware error queues (R589, R590) and the steward's error state (R591–R594). -/
namespace Sys2Proof.Machine

/-- An error record (R587). (DEDUCED: log 140) -/
structure ErrRec where
  seq : Nat := 0
  time : W64 := 0
  dframe : Nat := 0
  cause : Nat
  sev : Nat := 0
  overflow : Bool := false
  nested : Bool := false
  lasting : Bool := false
  repaired : Bool := false
  proxy : Bool := false
  prov : Nat := 0
  die : Nat := 0xFF
  unit : Nat := 0xFFFF
  addr : Nat := 0
  bit : Nat := 0xFFFF
  count : Nat := 1
  aux : Nat := 0
  detail0 : Nat := 0
  detail1 : Nat := 0
deriving DecidableEq, Repr

/-- Kinds of fault window (R594). -/
inductive WinKind where
  | sram | tile | row | lane
deriving DecidableEq, Repr

/-- A window of R594: kind, unit, and the times in ns of its last events, newest first. -/
structure FaultWin where
  kind : WinKind
  unit : Nat
  times : List Nat
deriving DecidableEq, Repr

/-- What a spare of a tile's SRAMs replaces (R597, R599). -/
inductive SpareKind where
  | row | col | prog
deriving DecidableEq, Repr

/-- A spare in use, or marked bad (`bad`): the tile, the bank, what it replaces, and the word's address and failing bit. -/
structure SpareUse where
  tile : Nat
  bank : Nat
  kind : SpareKind
  addr : Nat
  bit : Nat
  bad : Bool
deriving DecidableEq, Repr

/-- An SRAM repair under way (R599): the program store or the sheet store, the word, and whether MOVING is set. -/
structure SramFix where
  tile : Nat
  prog : Bool
  addr : Nat
  moving : Bool := false
deriving DecidableEq, Repr

/-- Where the move of a row onto its spare tile stands (R252, R600). -/
inductive MovePhase where
  | test | ready | moving | done
deriving DecidableEq, Repr

/-- A tile repair under way: the failed tile and the phase. -/
structure TileMove where
  tile : Nat
  phase : MovePhase
deriving DecidableEq, Repr

/-- A row repair under way (R279): the granule's first DPA, and the DPA of its copy in the steward area. -/
structure RowFix where
  granule : Nat
  copy : Nat
deriving DecidableEq, Repr

/-- A lane steer (R603): the global lane, the group's spare in use, the time of the steer and whether its outcome is still to be judged. -/
structure LaneSteer where
  lane : Nat
  waiting : Bool
  judged : Bool
deriving DecidableEq, Repr

/-- A repair that takes a fuse entry to last (R597, R598): a spare row, column or program-store entry; the mapped-out column of a row (die · 16 + row); a lane steering. -/
inductive Repair where
  | spare (u : SpareUse)
  | col (row f : Nat)
  | lane (n : Nat)
deriving DecidableEq, Repr

/-- The repair map of the REPAIR partition (R540, R597), with the cartridge that holds it: soft repairs, oldest first; remap tables by channel, the granules that a bank's
sPPR has repaired, and the fault windows as the last orderly shut-down left them (R594). -/
structure RepairMap where
  cart : Nat
  soft : List Repair
  remap : Sparse (List (Nat × Nat))
  sppr : List Nat
  wins : List FaultWin := []
deriving DecidableEq, Repr

/-- What steward memory holds for an absent cartridge (R542): an error record, or a repair record. -/
inductive HeldRec where
  | err (r : ErrRec)
  | rep
deriving DecidableEq, Repr

def HeldRec.fatal : HeldRec → Bool | .err r => r.sev == 3 | .rep => false
def HeldRec.rec? : HeldRec → Option ErrRec | .err r => some r | .rep => none

/-- Error queues by die · 16 + subsystem (R589), the OVERFLOW mark a queue owes its next record, the record count, ERRLOG (newest first), the records that wait for the cartridge (R542),
the cartridge that ERRLOG and the module records are on, records lost and not yet reported, when the last report of them was, fault windows, spares and repairs under way, retired units (die, logical column), rows whose spare tile
failed its test (die · 16 + row), units to be tested before a province takes them (R595), soft repairs, oldest first, the repair map as last written, the blown REPAIR fuse entries, the granules that the stacks' hPPR has
repaired for good (R280, R598), watchdog restart times, the state of `ALERT_N` (R593), whether the loss of CLK25_IN holds it (R652), edges of THROTTLE_N (R605). -/
structure ErrState where
  queues : Sparse (List ErrRec) := []
  owed : Sparse Bool := []
  seq : Nat := 0
  log : List ErrRec := []
  waitLog : List HeldRec := []
  logCart : Option Nat := none
  lost : Nat := 0
  lostAt : Option Nat := none
  wins : List FaultWin := []
  spares : List SpareUse := []
  fixes : List SramFix := []
  moves : List TileMove := []
  rows : List RowFix := []
  lanes : List LaneSteer := []
  badSpare : List Nat := []
  retired : List (Nat × Nat) := []
  untested : List (Nat × Nat) := []
  soft : List Repair := []
  saved : Option RepairMap := none
  fuses : List Repair := []
  hppr : List Nat := []
  restarts : List Nat := []
  pulse : Bool := false
  held : Bool := false
  heldClk : Bool := false
  thrLow : Bool := false
  thrToggle : Bool := false
deriving DecidableEq, Repr

/-- The severity a cause always carries (R586, R588); HOST_LOST has two and is given by its raiser. -/
def causeSev (c : Nat) : Nat :=
  match c with
  | 0x0101 | 0x0105 | 0x0106 | 0x0201 | 0x0202 | 0x0205 | 0x0206 | 0x0401 | 0x0402 | 0x0503 | 0x0504 | 0x0506 | 0x0507 | 0x0508 | 0x050A
  | 0x0601 | 0x0602 | 0x0603 | 0x0701 | 0x0703 | 0x0802 | 0x0901 | 0x0902 | 0x0A01 => 0
  | 0x0103 | 0x0104 | 0x0203 | 0x0204 | 0x0207 | 0x0301 | 0x0303 | 0x0304 => 2
  | 0x0808 | 0x080A | 0x0903 => 3
  | _ => 1

/-- The subsystem whose queue takes a cause: the row of the subsystem table of spec file 01, counted from 0. (DEDUCED: log 126) -/
def causeSubsystem (c : Nat) : Nat :=
  match c with
  | 0x0201 | 0x0202 => 0
  | 0x0203 | 0x0204 => 3
  | 0x0205 | 0x0206 | 0x0207 | 0x0208 => 13
  | 0x0301 => 6
  | 0x0302 | 0x0303 | 0x0304 => 7
  | 0x0509 | 0x050A => 9
  | _ =>
    match c / 256 with
    | 1 => 5
    | 4 => 11
    | 5 => 8
    | 6 => 10
    | 7 => 12
    | 8 => 11
    | _ => 13

/-- Causes by name (R588). -/
def ECC_CORRECTED : Nat := 0x0101
def ECC_POISON : Nat := 0x0102
def PARITY_ERR : Nat := 0x0103
def POISON_CONSUMED : Nat := 0x0104
def TABLE_REBUILT : Nat := 0x0105
def ROW_REPAIRED : Nat := 0x0106
def CHANNEL_FAILING : Nat := 0x0107
def SRAM_CORRECTED : Nat := 0x0201
def TILE_FAULT : Nat := 0x0202
def TRICK_FAULT : Nat := 0x0203
def PLAN_OVERRUN : Nat := 0x0204
def SRAM_REPAIRED : Nat := 0x0205
def TILE_REPAIRED : Nat := 0x0206
def TILE_DATA_LOST : Nat := 0x0207
def UNIT_RETIRED : Nat := 0x0208
def CHAIN_FAULT : Nat := 0x0301
def TRI_MISMATCH : Nat := 0x0302
def MC_EXCLUDED : Nat := 0x0303
def RANK_LOST : Nat := 0x0304
def STEP_SATURATED : Nat := 0x0401
def LEDGER_INVALID : Nat := 0x0402
def STEP_SKIPS : Nat := 0x0403
def NO_SPARE : Nat := 0x0404
def PFC_STORM_C : Nat := 0x0501
def PFC_STUCK_C : Nat := 0x0502
def LINK_FLAP : Nat := 0x0503
def LANE_STEERED : Nat := 0x0504
def LANE_EXTERNAL : Nat := 0x0505
def MODULE_UNSUPPORTED : Nat := 0x0506
def MODULE_POWER : Nat := 0x0507
def MODULE_ALARM : Nat := 0x0508
def HANDSHAKE_FAIL : Nat := 0x0509
def AUTH_FAIL : Nat := 0x050A
def LINK_DEGRADED : Nat := 0x0601
def HOST_ABORT : Nat := 0x0602
def DOORBELL_STALE : Nat := 0x0603
def HOST_LOST : Nat := 0x0604
def MER_DRIFT : Nat := 0x0701
def MER_FREE : Nat := 0x0702
def MER_WRITE : Nat := 0x0703
def CARTRIDGE_LOST : Nat := 0x0801
def BASFIN_WEAR : Nat := 0x0802
def FW_FALLBACK : Nat := 0x0803
def FW_FAILED : Nat := 0x0804
def TABLE_INVALID : Nat := 0x0805
def LOG_FULL : Nat := 0x0806
def STEWARD_RESTART : Nat := 0x0807
def STEWARD_FAIL : Nat := 0x0808
def RECORDS_LOST_C : Nat := 0x0809
def ISOLATION_FAULT : Nat := 0x080A
def THROTTLE_HELD_C : Nat := 0x0901
def THROTTLE_TOGGLE_C : Nat := 0x0902
def THERMAL_TRIP_C : Nat := 0x0903
def BIST_REPAIRED : Nat := 0x0A01
def BIST_UNREPAIRED : Nat := 0x0A02
def FUSE_BUDGET : Nat := 0x0A03

end Sys2Proof.Machine
end

