-- ==== Sys2Proof/Machine/TypesHost.lean ====
section
/-! DEFINITION. The state of the host interface (spec file 17): hands with their commands, functions with their attachment. -/
namespace Sys2Proof.Machine

/-- Where a hand command stands (R518, R525): accepted; running (WAIT_STEP and START that wait, LOAD_ATLAS that waits for its ports); data written
to the host and not yet confirmed; complete; its completion entry written and not yet confirmed. -/
inductive CmdState where
  | waiting
  | running
  | unconf (status r0 r1 frame : Nat)
  | complete (status r0 r1 frame : Nat)
  | written (status r0 r1 frame : Nat)
deriving DecidableEq, Repr

/-- A command of a hand: its SEQ and its 64-byte submission entry (R516). -/
structure HandCmd where
  seq : Nat
  entry : List Byte
  st : CmdState := .waiting
deriving DecidableEq, Repr

/-- A hand beyond its registers (R514–R524, R530, R532): the function that opened it, the count the last doorbell named, refetches made since a
mismatch (none while no mismatch waits), whether it is closing, a doorbell held in REATTACHING, an MSI-X message owed since a RESUME, its opens and resumes, and its commands. -/
structure Hand where
  fn : Nat := 0
  prod : Nat := 0
  mismatch : Option Nat := none
  closing : Bool := false
  heldBell : Option Nat := none
  wake : Bool := false
  gen : Nat := 0
  cmds : List HandCmd := []
deriving DecidableEq, Repr

/-- States of a TDISP device interface (R566, R567). -/
inductive Tdisp where
  | unlocked | locked | run | error
deriving DecidableEq, Repr

/-- A PCIe function beyond its registers (R511, R526–R529): Bus Master Enable, the frames at which DETACHED and REATTACHING began, the cause,
whether HOST_LOST has been raised, an FLR under way, the reattach record, its TDISP interface, and the high half that its last 32-bit
read latched, with the BAR0 offset of that half (R670), its MSI-X table, by word, and pending bits (R505, R527), and, for PF0, NumVFs (R504). -/
structure Fn where
  bme : Bool := false
  detachFrame : Nat := 0
  attachFrame : Nat := 0
  cause : Nat := 0
  lost : Bool := false
  flr : Bool := false
  record : List Byte := []
  tdisp : Tdisp := .unlocked
  latch : Option (Nat × Nat) := none
  msix : Sparse W32 := []
  pend : Nat := 0
  numVfs : Nat := 0
deriving DecidableEq, Repr

def Hand.init : Hand := {}
def Fn.init : Fn := {}

end Sys2Proof.Machine
end

