-- ==== Sys2Proof/Machine/TypesMem.lean ====
section
/-! DEFINITION. The state of the memory controllers and the Gazetteer beyond memory itself (R263–R281), of the Meridian (R41–R47, R678), and slot
tables (R32, R267). -/
namespace Sys2Proof.Machine

/-- What a slot table was built from (R267): the owner, its read, write and remote shares, and the frame period in units of 0.25 µs. -/
structure SlotShare where
  prov : Nat
  w : Nat
  m : Nat
  period : Nat
deriving DecidableEq, Repr

/-- A write refused for parity that its sender still has to send again (R273): the 64-byte word, the bytes, the class. -/
structure ParityWrite where
  word : Nat
  cls : Nat
  cells : List (Nat × Byte)
deriving DecidableEq, Repr

/-- A write of a province, by PVA, that waits for a slot of its class or for the end of a row's repair (R266, R279). -/
structure MemWait where
  prov : Nat
  cls : Nat
  cells : List (Nat × Byte)
deriving DecidableEq, Repr

/-- An Inset read that waits in its slots (R508, R509): the function, the offset, the province, the PVA under the base at which it was received, the bytes. -/
structure InsetRead where
  fn : Nat
  off : Nat
  prov : Nat
  va : Nat
  len : Nat
deriving DecidableEq, Repr

/-- Memory controllers (by global channel or by 64-byte word): reads to be read again (class 4: the patrol's), writes to be sent again, writes and Inset reads that wait, remap tables by channel, each entry a
failing granule and the number of the pool granule it is sent to (R281), the granules that a bank's sPPR has repaired, the times of row repairs, channels marked FAILING, the patrol's next word, stack temperatures, slot tables, and the pages that each die's
translation cache holds for a province (die · 256 + province; R264). -/
structure MemState where
  retry : List (Nat × Nat) := []
  wretry : List ParityWrite := []
  waits : List MemWait := []
  insets : List InsetRead := []
  remap : Sparse (List (Nat × Nat)) := []
  sppr : List Nat := []
  reps : List (Nat × Nat) := []
  failing : List Nat := []
  patrol : Sparse Nat := []
  temps : Sparse Int := []
  slots : Sparse SlotShare := []
  xlat : Sparse (List Nat) := []
deriving DecidableEq, Repr

/-- A channel that no province owns (R267). -/
def SlotShare.free : SlotShare := ⟨0, 0, 0, 16⟩

/-- The Meridian: whether it has ever locked to PTP (R678), the time in ns at which the current frame began, evaluations in a row within 80 ns (R41), a frame number to jump to at the next boundary
(R43), a period loaded at boot that takes effect there (R678), whether a PPS edge has been accepted since the enable (R46), the level of PPS_OUT, how far PTP's frame number, by the time of day of its
last Sync, lies past the device's (R46), BMCA priorities
1 and 2 and the clock class (R582). -/
structure MerState where
  locked : Bool := false
  time : Nat := 0
  good : Nat := 0
  jump : Option Nat := none
  boot : Option Nat := none
  ppsLast : Bool := false
  ppsOut : Bool := false
  tod : Option Int := none
  prio1 : Nat := 128
  prio2 : Nat := 128
  clockClass : Nat := 248
deriving DecidableEq, Repr

end Sys2Proof.Machine
end

