-- ==== Sys2Proof/Machine/TypesNet.lean ====
section
/-! DEFINITION. The state of the Ethernet ports (spec file 15), their modules, and the Ndeyx links (spec file 16). -/
namespace Sys2Proof.Machine

/-- A frame on the wire: what it is, its length, whether it was whole when it started, and its destination kind (0 unicast, 1 multicast, 2 broadcast). -/
structure TxRun where
  what : TxWhat
  len : Nat
  whole : Bool
  dstKind : Nat
deriving DecidableEq, Repr

/-- Why a port retrains (R441, R457, R603): a lowering, a raise, another change of rate or lane mode, a lane steer. -/
inductive Retrain where
  | lower | raise | change | steer
deriving DecidableEq, Repr

/-- A port beyond its registers, by its number: the shares of its slot table and the m it was built with (R474), the frame on the wire, the times of link-down events (R460), the retrain
under way, whether a frame waits for the end of PARKING (R456), the time PARKED or a hold began, frames in the receive buffer by province (R452), the second and the number of the steward's frames in it
(R444), the shadow counters (R464), the SAK in use, its next packet numbers sent and received, whether this end is the key server (R498), a LOWER_REQ that waits for its answer, the recoveries of
R453 and R454 that run, oldest first, by priority and whether it was stuck, and the resolved MAC address of its next hop (R477). -/
structure Port where
  shares : List (Nat × Nat) := []
  slotM : Nat := 1
  run : Option TxRun := none
  downs : List Nat := []
  retrain : Option Retrain := none
  wakeNext : Bool := false
  parkedAt : Nat := 0
  heldAt : Nat := 0
  rxbuf : List (Nat × Nat) := []
  stewAt : Nat := 0
  stewN : Nat := 0
  shadow : Sparse Nat := []
  sakNo : Nat := 0
  mtx : Nat := 0
  mrx : Nat := 0
  lowerAsked : Bool := false
  keyServer : Bool := false
  recov : List (Nat × Bool) := []
  hop : Option Nat := none
deriving DecidableEq, Repr

/-- A packet of a stream that is not acknowledged (R481, R484): PSN, content, the fabric die of its slice, the port its last copy left on, the PN and time in ns of that copy, retries, and whether it
is to be sent (again) at once. -/
structure TxPkt where
  psn : Nat
  body : NdxBody
  die : Option Nat
  port : Option Nat := none
  pn : Nat := 0
  sentAt : Nat := 0
  retries : Nat := 0
  due : Bool := true
deriving DecidableEq, Repr

/-- A sending stream: the next PSN and the packets not acknowledged. -/
structure TxStream where
  next : Nat := 0
  pkts : List TxPkt := []
deriving DecidableEq, Repr

/-- A receiving stream (R482, R483): the next PSN to deliver, packets held out of order, new packets and CE marks since the last ACK, the time in ns of the first of them,
and whether an ACK is asked for at once. -/
structure RxStream where
  next : Nat := 0
  held : List (Nat × NdxBody) := []
  fresh : Nat := 0
  ce : Nat := 0
  since : Nat := 0
  ask : Bool := false
deriving DecidableEq, Repr

/-- The receive side of a key (R492): the highest PN authenticated and those seen within the window. -/
structure RxKey where
  high : Nat := 0
  seen : List Nat := []
deriving DecidableEq, Repr

/-- A logical link (R469): province and peer rank (province 0: the control link; the peer is then its DEVID), whether it is keyed, the version, the DLID this device gave and the
one the peer gave, the handshake its master secret is of and a newer one it moves to at its next renewal, key generation, sending phase, the old receive key while it lives and whether the new phase has been seen, PN, renewal under way, the streams, ports whose path has heard the peer, the peer's Meridian state, HELLOs unanswered, ACKs and keep-alives made and not yet sent, the times of failed tags in the last second, handshake packets made and not
yet sent, the peer's limit of unacknowledged packets, and the times in ns at which its key was first used, and at which each path last heard the peer and last sent. -/
structure Link where
  prov : Nat
  peer : Nat
  devid : Nat
  keyed : Bool := false
  ver : Nat := 0
  dlid : Nat := 0
  peerDlid : Option Nat := none
  gen : Nat := 0
  phase : Bool := false
  rxPhase : Bool := false
  rx0 : RxKey := {}
  rxNew : Option RxKey := none
  rxOld : Option RxKey := none
  pn : Nat := 0
  renewing : Bool := false
  master : Nat := 0
  newMaster : Option Nat := none
  handshaking : Bool := false
  tx : Sparse TxStream := []
  rx : Sparse RxStream := []
  paths : List Nat := []
  mer : Nat := 0
  hellos : Nat := 0
  acks : List (Option Nat × NdxBody) := []
  auths : List Nat := []
  lost : Bool := false
  hsOut : List NdxBody := []
  limit : Nat := 256
  keyAt : Nat := 0
  heard : Sparse Nat := []
  spoke : Sparse Nat := []
deriving DecidableEq, Repr

/-- A module cage (R465): the accepted presence, the last level read and the time in ns since which every poll has read it, the module's identity, whether it runs at high power, the application
selected (R466), and its monitors as last read (R467). -/
structure Cage where
  accepted : Bool := false
  level : Bool := false
  since : Nat := 0
  module : Option ModuleId := none
  on : Bool := false
  app : Option (Nat × Nat) := none
  mon : Option (Int × ModuleMon) := none
deriving DecidableEq, Repr

/-- A module record (R467): serial number, hours of transmission, insertions, highest temperature, first and latest transmit bias of each lane. -/
structure ModuleRec where
  serial : Nat
  hours : Nat := 0
  insertions : Nat := 0
  maxTemp : Option Int := none
  firstBias : List Nat := []
  lastBias : List Nat := []
deriving DecidableEq, Repr

/-- Ports, links, messages delivered and not yet taken by their consumer, cages and module records (live, and as last written to the
cartridge), the fabric settings in force, LINKUPs of links that are not there yet: DEVID, ptag, DLID and limit (R470), and what the steward has received while it restarts (R576): messages
with their link, and handshake packets. -/
structure NetState where
  ports : Sparse Port := []
  links : List Link := []
  inbox : List (Nat × Nat × NdxBody) := []
  cages : Sparse Cage := []
  modules : List ModuleRec := []
  modulesSaved : List ModuleRec := []
  fabric : Option Fabric := none
  told : List (Nat × Nat × Nat × Nat) := []
  late : List (Nat × Nat × NdxBody) := []
  lateHs : List NdxPkt := []
deriving DecidableEq, Repr

def Port.init : Port := {}
def Cage.init : Cage := {}
def TxStream.init : TxStream := {}
def RxStream.init : RxStream := {}

/-- The next PSN of a stream, and a packet put at its end (R481). -/
def Link.post (l : Link) (stream : Nat) (die : Option Nat) (b : NdxBody) : Link :=
  let t := Sparse.get TxStream.init l.tx stream
  { l with tx := Sparse.set TxStream.init l.tx stream { next := (t.next + 1) % 2 ^ 32, pkts := t.pkts ++ [{ psn := t.next, body := b, die := die }] } }

/-- Whether no packet of a link waits for an acknowledgement. -/
def Link.quiet (l : Link) : Bool := l.tx.all (fun t => t.2.pkts.isEmpty)

end Sys2Proof.Machine
end

