-- ==== Sys2Proof/Machine/TypesProv.lean ====
section
/-! DEFINITION. The state of a province beyond its registers: allocation, dealing, GSYNC instances, operations at named frames. -/
namespace Sys2Proof.Machine

/-- A GSYNC instance on this device (R210–R214): arrivals counted, arrivals of tree children, release and payload. -/
structure Gsync where
  inst : GInst
  bcast : Bool
  tricks : List Nat := []
  own : Bool := false
  children : List Nat := []
  sent : Bool := false
  released : Bool := false
  payload : List Byte := []
deriving DecidableEq, Repr

/-- An operation that this rank will apply at the start of a frame (R49, R51). -/
structure Ann where
  op : GlobOp
  frame : Nat
  late : Bool
deriving DecidableEq, Repr

/-- A SNAPSHOT's cut on this rank (R50): the frame, whether this rank's cut is done, the children whose reports are in, whether the report
has gone up, whether the snapshot is complete (at the root), and whether the step was VERIFIED at the cut (R353). -/
structure Cut where
  frame : Nat
  own : Bool := false
  reports : List Nat := []
  reported : Bool := false
  complete : Bool := false
  verified : Bool := false
deriving DecidableEq, Repr

/-- Where a dealt trick stands (R238, R245–R251). -/
inductive ItemState where
  | queued
  | running (tile : Nat)
  | complete
  | faulted
  | abandoned (idx : Nat)
deriving DecidableEq, Repr

/-- A trick dealt in a planned frame (R231, R233, R239, R248): identity, home tile index, the tile index whose queue holds it, state, theft,
attempts and span. -/
structure DealItem where
  pframe : Nat
  trick : Nat
  home : Nat
  st : ItemState := .queued
  stolen : Bool := false
  attempts : Nat := 0
  span : Nat := 1
deriving DecidableEq, Repr

/-- One segment of a sum at this node (R388, R389): its own term, the prior value at a root, and the partials that have arrived by the rank
that sent them. -/
structure SegNode where
  shard : Nat
  seg : Nat
  own : List Byte
  prior : Option (List Byte)
  parts : List (Nat × List Byte) := []
  result : List Byte := []
  done : Bool := false
deriving DecidableEq, Repr

/-- A segment that this node holds to copy down a tree (R395). -/
structure CopySeg where
  shard : Nat
  seg : Nat
  bytes : List Byte
deriving DecidableEq, Repr

/-- A child on a copy tree (R395, R396): segments sent and acknowledged, frames spent at the limit, and whether it is excluded. -/
structure Kid where
  shard : Nat
  rank : Nat
  sent : Nat := 0
  acked : Nat := 0
  atLimit : Nat := 0
  excluded : Bool := false
deriving DecidableEq, Repr

/-- A sampled element on its check path (R392, R393). -/
structure CheckNode where
  shard : Nat
  elem : Nat
  exact : Int
  mag : W32
  flag : Bool
  parts : List (Nat × Int × W32 × Bool) := []
  done : Bool := false
deriving DecidableEq, Repr

/-- A message that its receiver has not acknowledged: the receiver's index in the group, the segment, whether it went down a copy tree (R395, R408), and whether it still
waits on this device (R50). -/
structure Unacked where
  dest : Nat
  seg : Nat
  copy : Bool
  held : Bool := false
deriving DecidableEq, Repr

/-- A piece of a block of rows that another rank has sent (R401, R402, R412): its source, its block, its number, whether it is the last, its bytes. -/
structure Piece where
  src : Nat
  block : Nat
  no : Nat
  last : Bool
  bytes : List Byte
deriving DecidableEq, Repr

/-- A patch that the root has sent to an excluded rank (R397): the collective's ordinal and step, the rank, the segments it has not acknowledged, and whether it still waits on
this device (R50). -/
structure Patch where
  ord : Nat
  step : Nat
  rank : Nat
  segs : List Nat
  held : Bool := false
deriving DecidableEq, Repr

/-- A collective from the frame in which it is due (R406–R408): `waiting` while its reads wait for courier writes released before its start frame (R379), the bytes received
into its staging area (R405), the pieces of blocks received so far, and the rows and quads that have come, by the rank that sent
them and the block or segment (R401, R402, R404). -/
structure Coll where
  idx : Nat
  order : Nat
  pframe : Nat
  step : Nat
  started : Bool := false
  stopped : Bool := false
  sums : List SegNode := []
  copies : List CopySeg := []
  need : Nat := 0
  kids : List Kid := []
  checks : List CheckNode := []
  unacked : List Unacked := []
  mismatched : Bool := false
  waiting : Bool := false
  frame : Nat := 0
  staged : Nat := 0
  pieces : List Piece := []
  got : List (Nat × Nat) := []
deriving DecidableEq, Repr

/-- The end of a micro-batch's last backward trick (R15): whether the trick ran in the prologue, its step, the micro-batch, and the frame. -/
structure MbEnd where
  pro : Bool
  step : Nat
  mbatch : Nat
  frame : Nat
deriving DecidableEq, Repr

/-- What one province holds while a start command waits for its frame (R519): the frame, the starting step, and the hand command to
complete. -/
structure StartReq where
  s0 : Nat
  step : Nat
  hand : Nat
  seq : Nat
deriving DecidableEq, Repr

/-- Where a stand-in's state comes from (R432): the last host checkpoint, or the mirrors, named by the step after theirs, for the failed rank alone or for every rank. -/
inductive RestorePoint where
  | host
  | mirror (next : Nat) (all : Bool)
deriving DecidableEq, Repr

/-- Province states (R553). -/
inductive PState where
  | forming | sealed_ | running | paused | dissolving | none_
deriving DecidableEq, Repr

/-- The value of `PROV_STATE.STATE` (R553). -/
def PState.code : PState → Nat
  | .forming => 0 | .sealed_ => 1 | .running => 2 | .paused => 3 | .dissolving => 4 | .none_ => 7

/-- A province (R12–R14, R36, R210, R245, R325, R551): state; allocation units in order and channels; the Atlas copy and where its image lay in host memory; the next planned frame `k`
and the planned frame that runs; the tricks dealt and those started on other dies before a recall (R246); spans (R248); pause requests;
GSYNC instances, operations at named frames and a snapshot's cut; collectives with their messages; the step machine's working data; the manifest chain (R571); the rank table (R419) and lost ranks whose stand-in waits for the
pause (R433); the bulk couriers and Talons set aside for it (R551), the TSP connections that wait for a seal (R555) and for the end of recovery (R559), a snapshot of
its Survey units asked for (R615), the next record of its sample ring (R619); for imprints (R568, R571) marks that it was in recovery or started cold since the last load, the first step of the
latest manifest, the last step committed since the load, how many steps committed with saturation since the last imprint, and whether the last one did; whether a trick or chain of this step's commit
frames has failed (R352); the collectives with MC that completed here, each with its step, and the patches under way (R397); ranks stood in for since the last start, the reports of the other ranks' stewards, and where
state is restored from, and a buddy's copy that came before that is known (R432); whether a stand-in's RESET waits until the links are keyed (R433); at rank 0, the operations that other ranks' stewards asked for, and which ranks have acted (R556). -/
structure Prov where
  st : PState := .none_
  recovery : Bool := false
  units : List (Nat × Nat) := []
  chans : List Nat := []
  atlasSize : Nat := 0
  loaded : Bool := false
  loadFn : Nat := 0
  loadAddr : Nat := 0
  start : Option StartReq := none
  s0 : Nat := 0
  k : Nat := 0
  cur : Option Nat := none
  items : List DealItem := []
  tent : List DealItem := []
  spanLeft : Nat := 0
  spanLen : Nat := 1
  pauseReq : Bool := false
  skipPause : Bool := false
  gsync : List Gsync := []
  anns : List Ann := []
  cut : Option Cut := none
  colls : List Coll := []
  collSeq : Nat := 0
  early : List (Nat × SegMsg) := []
  sendHold : Bool := false
  outQ : List (Nat × SegMsg) := []
  mbDone : List MbEnd := []
  reducedAt : Option Nat := none
  gradLast : Option Nat := none
  startStep : Nat := 0
  verdict : Option (List Byte) := none
  logSeq : Nat := 0
  ledgerNf : Bool := false
  ledgerStop : Bool := false
  ledgerDone : Bool := false
  satSum : Nat := 0
  manifest : List Byte := List.replicate 48 0
  ranktab : List RankEnt := []
  standins : List Nat := []
  bulks : List Nat := []
  tals : List Nat := []
  sealing : Option Nat := none
  ending : Option Nat := none
  snapReq : Bool := false
  ringPos : Nat := 0
  recMark : Bool := false
  coldMark : Bool := false
  manFirst : Nat := 0
  committed : Option Nat := none
  satSteps : Nat := 0
  satLast : Bool := false
  commitFault : Bool := false
  mcDone : List (Nat × Nat) := []
  patches : List Patch := []
  lost : List Nat := []
  reports : List (Nat × RankReport) := []
  point : Option RestorePoint := none
  copyIn : Option (Nat × List (Nat × Byte)) := none
  resetDue : Bool := false
  asks : List (Nat × GlobOp) := []
  acts : List (Nat × GlobOp) := []
deriving DecidableEq, Repr

/-- A province ID with no province. -/
def Prov.empty : Prov := {}

end Sys2Proof.Machine
end

