-- ==== Sys2Proof/Machine/TypesPwr.lean ====
section
/-! DEFINITION. The state of power and thermal control (spec file 21) and of the board's signals (spec file 22). -/
namespace Sys2Proof.Machine

/-- An instance of an Itinerary machine (R637): its state and the milliseconds it has been there. -/
structure MachInst where
  st : Nat := 0
  ms : Nat := 0
deriving DecidableEq, Repr

def MachInst.init : MachInst := {}

/-- Power control: the profile that the next evaluation takes (R626), the cap limit in MHz and the evaluations in a row with room (R629), readings in 0.1 °C by die with
the fault rule of R632, the 105 °C hold, a thermal trip, the fast limiter's hold (R631), whether the current assertion of THROTTLE_N is qualified and the limit its machine has set (R633),
the time of the last THROTTLE_TOGGLE record, the regulators' output powers and STATUS_WORDs (R646), a PMBus inlet reading with its time, a voltage write that waits for its acknowledgement and the clock that
rises then (R628), machine instances (ports 0–63 PARK, 64 THROTTLE, 65 ESCALATE) and whether they restart at the next evaluation (R640). -/
structure PwrState where
  profile : Nat := 0
  cap : Int := 1500
  room : Nat := 0
  dies : Sparse Int := []
  hot : Bool := false
  trip : Bool := false
  fast : Bool := false
  qualified : Bool := false
  machMhz : Option Nat := none
  toggleAt : Option Nat := none
  pout : List Nat := []
  words : List Nat := []
  inlet : Option (Int × Nat) := none
  avs : Bool := false
  rise : Option Nat := none
  machs : Sparse MachInst := []
  restart : Bool := true
deriving DecidableEq, Repr

end Sys2Proof.Machine
end

