-- ==== Sys2Proof/Machine/TypesStw.lean ====
section
/-! DEFINITION. The state of the steward (spec file 18): cartridge, fuses, firmware, tables, SPDM sessions, IDE streams, TSP connections, imprints. -/
namespace Sys2Proof.Machine

/-- Roles of TSP clients (R579), and the restricted client of PROVISIONED. -/
inductive Role where
  | restricted | observer | operator | owner
deriving DecidableEq, Repr

def Role.rank : Role → Nat | .restricted => 0 | .observer => 1 | .operator => 2 | .owner => 3

/-- Events that TSP reports (R582, R583): error records, step decisions, province states, module changes, and how many were lost. -/
inductive TspEvent where
  | error (r : ErrRec)
  | step (prov step result : Nat)
  | prov (prov state : Nat)
  | module (cage present : Nat)
  | lost (n : Nat)
deriving DecidableEq, Repr

/-- The class of an event: its bit in a subscription. -/
def TspEvent.cls : TspEvent → Nat | .error _ => 0 | .step _ _ _ => 1 | .prov _ _ => 2 | .module _ _ => 3 | .lost _ => 4

/-- A TSP connection (R579–R583). -/
structure TspConn where
  id : Nat
  role : Role
  hello : Bool := false
  subs : Nat := 0
  queue : List TspEvent := []
  lost : Nat := 0
deriving DecidableEq, Repr

/-- A TSP request whose answer waits for an operation at a named frame (R556): the connection, the command, the province. -/
structure TspWait where
  conn : Nat
  cmd : Nat
  prov : Nat
deriving DecidableEq, Repr

/-- An SPDM session (R531, R560): whether FINISH completed it, the function it is bound to, its key phase. -/
structure SpdmSession where
  id : Nat
  done : Bool := false
  fn : Option Nat := none
  phase : Nat := 0
  secret : Nat := 0
deriving DecidableEq, Repr

/-- An IDE stream that is keyed (R565): its number and, for a selective stream, its function. -/
structure IdeStream where
  id : Nat
  fn : Option Nat
deriving DecidableEq, Repr

/-- What the alias key is derived from, and what its certificate carries (R549): the device secret, the running image's digest and SVN, the life-cycle state, the ownership number, the DEVID. -/
structure AliasKey where
  uds : Nat
  digest : List Byte
  svn : Nat
  life : Nat
  owner : Nat
  devid : Nat
deriving DecidableEq, Repr

/-- The steward: the cartridge whose presence is accepted (R542, R606), the one the last poll saw with how many polls in a row, the one accepted at boot. Fuses (R545):
life-cycle count, SCRAP, the unique device secret (as the number of a free value), DEVID, Tamtur root hashes, owner root hashes, SVN, revoked Tamtur roots. Whether the ROM has sensed the fuses (R543, R659), whether the identity key is derived, the alias key, and the device secret of
the wrap key (R549), whether BRINGUP's work is done; the running firmware, the image that is being activated, its
slot and the update state before; a restart under way (R576); tables in force (R539); SPDM: negotiation (0 nothing, 1 version, 2 capabilities, 3 algorithms), sessions, the selected function (R562); IDE streams (R565); TSP connections and
requests that wait (R556), requests not yet served, with the province of each (R554); counts of index 12 (R561); an inlet report with its time (R630); management frames in the current second, the management port's MAC address, whether DHCP gives its IP addresses, and those it has (R578); the time since which an activation waits (R575), and the imprints
that wait for the end of a restart, by connection and province (R577). -/
structure StwState where
  cart : Option Cartridge := none
  cartSeen : Option Nat := none
  cartPolls : Nat := 0
  cartId : Option Nat := none
  fuseK : Nat := 0
  scrap : Bool := false
  uds : Option Nat := none
  devid : Nat := 0
  troots : List (List Byte) := []
  owners : List (List Byte) := []
  svnFused : Nat := 0
  revoked : Nat := 0
  sensed : Bool := false
  keys : Bool := false
  aliasKey : Option AliasKey := none
  wrap : Option Nat := none
  brought : Bool := false
  running : Option FwImage := none
  activating : Option (FwImage × Bool × Nat) := none
  restarting : Bool := false
  tables : List TableImg := []
  spdmState : Nat := 0
  sessions : List SpdmSession := []
  selFn : Nat := 0
  ide : List IdeStream := []
  conns : List TspConn := []
  waits : List TspWait := []
  reqs : List (Nat × Instr) := []
  activations : Nat := 0
  persts : Nat := 0
  hotResets : Nat := 0
  flrs : Sparse Nat := []
  inlet : Option (Int × Nat) := none
  mgmtCount : Nat := 0
  mgmtSec : Nat := 0
  mgmtMac : Nat := 0
  mgmtDhcp : Bool := false
  mgmtIps : List Nat := []
  actSince : Option Nat := none
  lateImprints : List (Nat × Nat) := []
deriving DecidableEq, Repr

end Sys2Proof.Machine
end

