-- ==== Sys2Proof/Machine/State.lean ====
section
/-! DEFINITION. The state of the device. -/
namespace Sys2Proof.Machine

/-- Why a command stops. (DESIGN CHOICE: log 5) -/
inductive Fault where
  /-- Raised by every command that names a unit (a tile, a seat, a port, a function, a channel, a courier, a Talon, a rail, a clock) that the device does not have. The device has
  no such command to run: safe. -/
  | noSuchUnit
deriving DecidableEq, Repr

/-- Why a command has no meaning. -/
inductive Refusal where
  /-- Raised by an arm of `exec` that has no meaning yet; none does. Safe. -/
  | notModelled (mnemonic : String)
deriving DecidableEq, Repr

/-- What the device sends out, as the log of `State.sent` keeps it. (DESIGN CHOICE: log 3, 136) -/
inductive Emit where
  /-- A Survey unit interrupts the steward (R614). -/
  | stewardIrq (unit : Nat)
  /-- Operations at named frames to another rank (R49–R51): an announcement, a request, a report of a late one, a cut's report. -/
  | announce (prov rank : Nat) (op : GlobOp) (frame : Nat)
  | request (prov rank : Nat) (op : GlobOp)
  | lateReport (prov rank : Nat) (op : GlobOp) (frame : Nat)
  | cutReport (prov rank frame : Nat) (late : Bool)
  /-- A snapshot is complete at the root (R50). -/
  | snapshotDone (prov frame : Nat)
  /-- A message of an RDE slice (R412). -/
  | segment (prov rank : Nat) (msg : SegMsg)
  /-- A memory read delivers a word, or poison (R273). -/
  | readData (word : Nat) (bytes : Option (List Byte))
  /-- The certificate chain presented to a TSP client (R579), a TSP answer and a TSP event (R581, R583). -/
  | tls (conn : Nat) (chain : List Byte)
  | tsp (conn cmd status : Nat) (payload : List Byte)
  | tspEvent (conn : Nat) (e : TspEvent)
  /-- An Ndeyx packet (R479), a MACsec key agreement message (R498), a handshake packet in clear (R489) and a PTP message (R39). -/
  | ndx (prov peer : Nat) (b : NdxBody)
  | mka (port : Nat)
  | handshake (port devid : Nat) (b : NdxBody)
  /-- A frame that starts on a port (R2); a frame that ends with its FCS inverted and the PCS error code (R447); a pause or PFC frame (R450, R452); an answer to
  address resolution (R444). -/
  | wire (port : Nat) (head : List Byte)
  | badEnd (port : Nat)
  | pause (port : Nat) (pfc : Bool) (enables quanta : Nat)
  | address (port asked mac : Nat)
  | ptp (port : Nat) (oneStep : Bool)
  /-- A voltage written over AVSBus (R628). -/
  | avs (mv : Nat)
  /-- The IDCODE that the TAP shifts out (R659). -/
  | idcode (v : Nat)
  /-- An SPDM response (R560) and a TDISP response (R566). -/
  | spdm (code : Nat) (payload : List Byte)
  | tdisp (fn : Nat) (state : Tdisp) (report : List Byte)
  /-- A frame of the management port that is served (R578). -/
  | mgmt (f : MgmtFrame)
  /-- The completion of an Inset read (R508): none for Completer Abort. -/
  | insetData (fn off : Nat) (bytes : Option (List Byte)) (poison : Bool)
  /-- An MSI-X message (R525), poisoned data and data for host memory (R520, R521), a register read (R670), and the writes of a chain to the host, with the requester's function (R309, R511). -/
  | msix (fn vec addr data : Nat)
  | hostPoison (fn addr : Nat)
  | hostData (fn : Nat) (cells : List (Nat × Byte))
  | regRead (who : Master) (value : Nat)
  | hostWrite (fn : Nat) (cells : List (Nat × Byte))
deriving DecidableEq, Repr

/-- The device. Sparse maps list, in rising order, the entries that differ from their default. -/
structure State where
  /-- Commands that wait, first in, first out (the model's own). -/
  pending : List Instr
  /-- How many free values have been used (the model's own): the next is `Config.freeWord free`. -/
  free : Nat
  /-- Every register of every block and unit, by `Reg.key` (spec file 23); an unlisted one holds its reset value. -/
  regs : Sparse W64
  /-- HBM by device physical address before the remap of R281; an unlisted byte is 0 (R277). -/
  mem : List Host.Cell
  /-- Poisoned 64-byte words of HBM (R273). -/
  poison : Sparse Bool
  /-- Physical tiles, provinces, Talons, bulk couriers. -/
  tiles : Sparse Tile
  provs : Sparse Prov
  talons : Sparse Talon
  bulks : Sparse Bulk
  /-- Errors and repair, memory controllers, the Meridian, the steward, the network. -/
  errs : ErrState
  memc : MemState
  mer : MerState
  stw : StwState
  net : NetState
  /-- Hands by province · 4,096 + hand, and PCIe functions. -/
  hands : Sparse Hand
  fns : Sparse Fn
  /-- Whether `PERST_N` is asserted, and whether the PCIe link is DL_Up. -/
  perst : Bool
  dlUp : Bool
  /-- The Survey's copies of R615, by 16 · unit + counter. -/
  shadow : Sparse Nat
  /-- Power and temperature. -/
  pwr : PwrState
  /-- Pins: `DEV_RESET_N` asserted, rails below tolerance, reference clocks that are lost, the TAP's instruction. -/
  pinReset : Bool
  railLow : List Nat
  clkLow : List Nat
  tap : TapInsn
  /-- What the device has sent, newest first (the model's own log). -/
  sent : List Emit
deriving DecidableEq, Repr

/-- The device right after `DEV_RESET_N` is released, in stage ROM (R9, R277, R543): every register at the Reset column of its table, HBM zero, no province. (DESIGN CHOICE: log 2, 3, 9, 10, 11; PRESUMED: log 22) -/
def State.reset : State :=
  { pending := [], free := 0, regs := [], mem := [], poison := [], tiles := [], provs := [], talons := [], bulks := [], errs := {}, memc := {}, mer := {}, stw := {}, net := {}, hands := [], fns := [], perst := false, dlUp := false, shadow := [], pwr := {}, pinReset := false, railLow := [], clkLow := [], tap := .bypass, sent := [] }

end Sys2Proof.Machine
end

