-- ==== Sys2Proof/Machine/Ops.lean ====
section
/-! DEFINITION. The named operations over the state: registers and their fields, free values, units, error records. -/
namespace Sys2Proof.Machine

/-- The outcome of a command. -/
abbrev Res := Host.Outcome State Fault Refusal

/-- What the register holds after reset (R9). (DESIGN CHOICE: log 9, 11) -/
def Reg.resetVal (r : Reg) : W64 :=
  match r.block.table.find? (fun d => d.holds r.off) with
  | some d => BitVec.ofNat 64 d.resetWord
  | none => 0

/-- A register of a unit. (DESIGN CHOICE: log 14) -/
def State.reg (s : State) (u : Nat) (r : Reg) : W64 := Sparse.get r.resetVal s.regs (r.key u)

/-- Write a whole register of a unit. -/
def State.setReg (s : State) (u : Nat) (r : Reg) (v : W64) : State :=
  { s with regs := Sparse.set r.resetVal s.regs (r.key u) v }

/-- A field of a register of a unit. -/
def State.fld (s : State) (u : Nat) (f : Fld) : Nat := bits (s.reg u f.reg).toNat f.lo f.width

/-- Set a field of a register of a unit. -/
def State.setFld (s : State) (u : Nat) (f : Fld) (v : Nat) : State :=
  s.setReg u f.reg (BitVec.ofNat 64 (setBits (s.reg u f.reg).toNat f.lo f.width v))

/-- Whether the device is of stepping A0 (R672). -/
def State.stepA0 (s : State) : Bool := s.fld 0 DEV_REVISION_MAJOR == 0 && s.fld 0 DEV_REVISION_MINOR == 0

/-- Set the bits of `mask` in a field (sticky bits). -/
def State.orFld (s : State) (u : Nat) (f : Fld) (mask : Nat) : State := s.setFld u f (s.fld u f ||| mask)

/-- Set a one-bit field when `b` holds (a sticky flag). -/
def State.flag (s : State) (u : Nat) (f : Fld) (b : Bool) : State := if b then s.setFld u f 1 else s

/-- Add to a counter field that stops at its largest value. -/
def State.incFld (s : State) (u : Nat) (f : Fld) (n : Nat) : State :=
  s.setFld u f (satAdd (2 ^ f.width - 1) (s.fld u f) n)

/-- Return every register of a block's unit to its reset value. -/
def State.clearRegs (s : State) (b : Block) (u : Nat) : State :=
  { s with regs := Sparse.drop (fun k => k / 2 ^ 16 == b.code * 2 ^ 24 + u) s.regs }

/-- A free value: one that the spec leaves open. (DESIGN CHOICE: log 2) -/
def State.freeVal (s : State) : W64 × State := (Config.freeWord s.free, { s with free := s.free + 1 })

def State.tile (s : State) (t : Nat) : Tile := Sparse.get Tile.init s.tiles t
def State.setTile (s : State) (t : Nat) (x : Tile) : State := { s with tiles := Sparse.set Tile.init s.tiles t x }
def State.prov (s : State) (p : Nat) : Prov := Sparse.get Prov.empty s.provs p
def State.setProv (s : State) (p : Nat) (x : Prov) : State := { s with provs := Sparse.set Prov.empty s.provs p x }

/-- A Talon by its device-wide number: 64 per compute die (R312). -/
def State.talon (s : State) (n : Nat) : Talon := Sparse.get Talon.empty s.talons n
def State.setTalon (s : State) (n : Nat) (x : Talon) : State := { s with talons := Sparse.set Talon.empty s.talons n x }
/-- A bulk courier by its device-wide number: 16 per compute die (R302). -/
def State.bulk (s : State) (n : Nat) : Bulk := Sparse.get Bulk.empty s.bulks n
def State.setBulk (s : State) (n : Nat) (x : Bulk) : State := { s with bulks := Sparse.set Bulk.empty s.bulks n x }

/-- The link of a province to a rank. -/
def State.link (s : State) (p peer : Nat) : Option Link := s.net.links.find? (fun l => l.prov == p && l.peer == peer)
/-- A change to one link. -/
def State.updLink (s : State) (p peer : Nat) (f : Link → Link) : State :=
  { s with net := { s.net with links := s.net.links.map (fun l => if l.prov = p ∧ l.peer = peer then f l else l) } }

/-- The slice of a segment (R378). -/
def sliceOf (seg ord : Nat) : Nat := (seg + ord) % 4

/-- The slice that handles a message (R378, R392): segment by segment, two dies further for a check record. -/
def segSlice (m : SegMsg) : Nat := sliceOf (m.seg + (if m.kind = 1 then 2 else 0)) m.ord

/-- The Ndeyx message that an emission is: province, rank, stream, die and content (R481). (DESIGN CHOICE: log 87) -/
def Emit.post : Emit → Option (Nat × Nat × Nat × Option Nat × NdxBody)
  | .announce p r op f => some (p, r, 0, none, .announce op f)
  | .request p r op => some (p, r, 0, none, .request op)
  | .lateReport p r op f => some (p, r, 0, none, .late op f)
  | .cutReport p r f late => some (p, r, 0, none, .cut f late)
  | .segment p r m => some (p, r, 1 + m.ord % 31, some (segSlice m), .seg m)
  | .ndx p r (.forward t q op) => some (p, r, 0, none, .forward t q op)
  | .ndx p r (.acted t q op) => some (p, r, 0, none, .acted t q op)
  | .ndx p r (.done t op st) => some (p, r, 0, none, .done t op st)
  | .ndx p r (.standin g q d e) => some (p, r, 0, none, .standin g q d e)
  | .ndx p r (.cutOver f) => some (p, r, 0, none, .cutOver f)
  | .ndx p r (.report x) => some (p, r, 0, none, .report x)
  | .ndx p r (.mirror c) => some (p, r, 0, none, .mirror c)
  | _ => none

/-- Something leaves its unit: a message for another rank joins its stream on that rank's link (R481). (DESIGN CHOICE: log 3, 87, 136) -/
def State.emit (s : State) (e : Emit) : State :=
  let s := { s with sent := e :: s.sent }
  match e.post with
  | some (p, r, st, d, b) => s.updLink p r (fun l => l.post st d b)
  | none => s

/-- A delivered message is taken by its consumer. -/
def State.take (s : State) (p src : Nat) (b : NdxBody) : State := { s with net := { s.net with inbox := s.net.inbox.erase (p, src, b) } }

/-- The level of `ALERT_N` as `TST_STATUS.ALERT` shows it: asserted while held or pulsed (R592, R593, R652). -/
def State.alertView (s : State) : State := s.setFld 0 TST_STATUS_ALERT (b01 (s.errs.pulse || s.errs.held || s.errs.heldClk))

/-- A record whose severity bit is set in `TST_ALERT_CTRL.SEV_MASK` pulls `ALERT_N` low (R593). (DEDUCED: log 127) -/
def State.alertPulse (s : State) (sev : Nat) : State :=
  if bitAt (s.fld 0 TST_ALERT_CTRL_SEV_MASK) sev then { s with errs := { s.errs with pulse := true } }.alertView else s

/-- The cartridge that the device uses: the one accepted at boot, while it is present (R537, R542). (DESIGN CHOICE: log 122) -/
def State.cartIn (s : State) : Option Cartridge := match s.stw.cart with | some c => if s.stw.cartId = some c.id then some c else none | none => none

/-- Whether the cartridge takes writes (R541, R542). -/
def State.cartWritable (s : State) : Bool := s.cartIn.isSome && s.fld 0 STW_BASFIN_WEAR_READONLY == 0

/-- The records that ERRLOG holds (R536, R587): 256 MiB; an erase block holds 4,096. -/
def errlogRoom : Nat := 4194304

/-- Steward memory holds what an absent cartridge would take: up to 256 records, the oldest that is not FATAL dropped first (R542). (DEDUCED: log 137) -/
def State.holdRec (s : State) (h : HeldRec) : State :=
  let l := s.errs.waitLog ++ [h]
  let l := if l.length ≤ 256 then l else match l.findIdx? (fun x => !x.fatal) with
    | some i => l.eraseIdx i
    | none => l.drop 1
  { s with errs := { s.errs with waitLog := l } }

/-- The repair map is written to REPAIR when a repair is made (R540, R597); a cartridge that is absent or read-only keeps its old one. (DESIGN CHOICE: log 122) -/
def State.saveRepair (s : State) : State :=
  match s.cartIn with
  | some c => if s.cartWritable then { s with errs := { s.errs with saved := some ⟨c.id, s.errs.soft, s.memc.remap, s.memc.sppr, (s.errs.saved.map RepairMap.wins).getD []⟩ } } else s
  | none => s

/-- A repair made while the device runs is recorded, or its record is held (R540, R542). (DEDUCED: log 137) -/
def State.noteRepair (s : State) : State := if s.cartIn.isSome then s.saveRepair else s.holdRec .rep

/-- A record is written to ERRLOG, or held in steward memory while no cartridge is present: up to 256, the oldest that is not FATAL dropped first
(R542, R593). (DEDUCED: log 128, 137) -/
def State.logErr (s : State) (r : ErrRec) : State :=
  let e := s.errs
  if s.cartIn.isSome then
    if s.cartWritable then { s with errs := { e with log := r :: (if e.log.length < errlogRoom then e.log else e.log.take (errlogRoom - 4096)) } } else s
  else s.holdRec (.err r)

/-- A FATAL event: latched with its cause, `ALERT_N` asserted, the record written to ERRLOG, or held for it, and in no queue (R592). Dealing, sending and
fetching stop while `TST_STATUS.FATAL` is 1. (DEDUCED: log 128) -/
def State.fatal (s : State) (r : ErrRec) : State :=
  let s := if s.fld 0 TST_STATUS_FATAL = 0 then (s.setFld 0 TST_STATUS_FATAL 1).setFld 0 TST_STATUS_FATAL_CAUSE r.cause else s
  ({ s with errs := { s.errs with held := true } }.logErr r).alertView

/-- Two records that merge (R590). -/
def ErrRec.same (a b : ErrRec) : Bool :=
  a.cause == b.cause && a.die == b.die && a.unit == b.unit && a.addr == b.addr && a.bit == b.bit

/-- The queue without its newest CORRECTED record; none when it holds none. -/
def dropCorrected (q : List ErrRec) : Option (List ErrRec) :=
  match q.reverse.span (fun r => r.sev != 0) with
  | (_, []) => none
  | (a, _ :: b) => some ((a ++ b).reverse)

/-- An arriving record and its queue (R590): the queue after it, and whether a record was discarded. (DEDUCED: log 126) -/
def queueArrive (q : List ErrRec) (owed : Bool) (r : ErrRec) : List ErrRec × Bool × Bool :=
  if q.any (fun x => x.same r) then
    (q.map (fun x => if x.same r then { x with count := satAdd 0xFFFF x.count 1 } else x), owed, false)
  else if q.length < 16 then (q ++ [{ r with overflow := owed }], false, false)
  else if r.sev = 0 then (q, true, true)
  else match dropCorrected q with
  | some q' => (q' ++ [{ r with overflow := true }], false, true)
  | none => (q, true, true)

/-- Whether some error queue is full (`TST_STATUS.QFULL`). -/
def State.anyFull (s : State) : Bool := s.errs.queues.any (fun e => decide (16 ≤ e.2.length))

/-- An error record arrives at the queue of its die and subsystem (R587–R590); its hardware effects are its raiser's. -/
def State.arrive (s : State) (r : ErrRec) : State :=
  let k := r.die * 16 + causeSubsystem r.cause
  let x := queueArrive (Sparse.get [] s.errs.queues k) (Sparse.get false s.errs.owed k) r
  let e := s.errs
  let s := { s with errs := { e with queues := Sparse.set [] e.queues k x.1, owed := Sparse.set false e.owed k x.2.1,
                                     lost := if x.2.2 then e.lost + 1 else e.lost } }
  let s := if x.2.2 then s.incFld 0 TST_ERR_LOST_LOST 1 else s
  (s.setFld 0 TST_STATUS_QFULL (b01 s.anyFull)).alertPulse r.sev

/-- Whether `DEV_RESET_N` or a rail holds the device in reset (R647, R656). -/
def State.inReset (s : State) : Bool := s.pinReset || !s.railLow.isEmpty

/-- The frame length in ns (R27). -/
def State.frameLen (s : State) : Nat := s.fld 0 MER_TICK_PERIOD_PERIOD * 250

/-- The time in ns at which the current frame began: PTP time once the Meridian has locked, device time before (R27, R678). (DESIGN CHOICE: log 8) -/
def State.frameTime (s : State) : Nat := s.mer.time

/-- The start of frame `n` by R27. (DESIGN CHOICE: log 8) -/
def State.frameStart (s : State) (n : Nat) : Nat :=
  (s.reg 0 MER_EPOCH).toNat + (n - (s.reg 0 MER_BASE_FRAME).toNat) * s.frameLen

/-- A province that must pause at its next boundary (R223). -/
def State.askPause (s : State) (p : Nat) : State :=
  if (s.prov p).st = .none_ then s else s.setProv p { (s.prov p) with pauseReq := true }

/-- An error record is raised: it takes the next SEQ, the frame, the time (the frame's start and a free
value within the frame) and its severity, and arrives at its queue, or latches FATAL (R586–R592); the province of a CONTAINED record pauses,
whatever becomes of the record (R586, R590). -/
def State.raiseSev (s : State) (sev : Nat) (r : ErrRec) : State :=
  let r := { r with seq := s.errs.seq, sev := sev, time := BitVec.ofNat 64 (s.frameTime + s.freeVal.1.toNat % max 1 s.frameLen), dframe := s.fld 0 MER_FRAME_NUM_FRAME }
  let s := { s.freeVal.2 with errs := { s.errs with seq := s.errs.seq + 1 } }
  let s := if sev = 2 ∧ r.prov ≠ 0 then s.askPause r.prov else s
  if sev = 3 then s.fatal r else s.arrive r

/-- A record with the severity of its cause. -/
def State.raise (s : State) (r : ErrRec) : State := s.raiseSev (causeSev r.cause) r

/-- Units that do not exist make a command ill-formed. (DESIGN CHOICE: log 5) -/
def onTile (tile : Nat) (f : State) : Res := if tile < 4224 then .next f else .fault .noSuchUnit

/-- The physical tile at compute die `d`, logical row and column (R54): columns from a mapped-out one on move up by one. -/
def State.physTile (s : State) (d row col : Nat) : Nat :=
  let f := s.fld d (DLR_ROWMAP_FAULTCOL row)
  d * 528 + row * 33 + (if f ≤ col then col + 1 else col)

/-- The physical tile of a province tile index (R12: unit u holds indices 16u to 16u + 15). -/
def State.tileOf (s : State) (p idx : Nat) : Option Nat :=
  match (s.prov p).units[idx / 16]? with
  | some (d, col) => some (s.physTile d (idx % 16) col)
  | none => none

/-- The logical column of a physical tile (R54); none for a mapped-out tile. -/
def State.logCol (s : State) (t : Nat) : Option Nat :=
  let f := s.fld (t / 528) (DLR_ROWMAP_FAULTCOL (t % 528 / 33))
  let c := t % 33
  if c < f then some c else if c = f then none else some (c - 1)

/-- The province that holds a die's logical column, 0 for none (R13, R14). -/
def State.unitOwner (s : State) (d col : Nat) : Nat :=
  match s.provs.find? (fun e => e.2.units.contains (d, col)) with
  | some e => e.1
  | none => 0

/-- The province that holds a physical tile, 0 for none. -/
def State.ownerOfTile (s : State) (t : Nat) : Nat :=
  match s.logCol t with
  | some c => s.unitOwner (t / 528) c
  | none => 0

/-- The compute die of a physical tile. -/
def dieOfTile (t : Nat) : Nat := t / 528
/-- UNIT of a tile in an error record (R587): logical row in [15:8], physical column in [7:0]. -/
def tileUnit (t : Nat) : Nat := t % 528 / 33 * 256 + t % 33
/-- The row of a physical tile. -/
def rowOfTile (t : Nat) : Nat := t % 528 / 33

end Sys2Proof.Machine
end

