-- ==== Sys2Proof/Machine/SurveyCount.lean ====
section
/-! DEFINITION. Counting by the Survey (R608–R612): units, fixed and programmable counters, filters. -/
namespace Sys2Proof.Machine

/-- The number of a Survey unit (R608): tiles, compute-die collectors, channels, ports, RDE slices, the steward, provinces. -/
def srvTile (t : Nat) : Nat := t
def srvDie (d : Nat) : Nat := 4224 + d
def srvChan (c : Nat) : Nat := 4232 + c
def srvPort (p : Nat) : Nat := 4616 + p
def srvRde (f : Nat) : Nat := 4680 + f
def srvStw : Nat := 4684
def srvProv (p : Nat) : Nat := 4684 + p

/-- The events of a unit's fixed counters (R608). -/
def srvFixed (u : Nat) : List Nat :=
  if u < 4224 then [0x01, 0x02, 0x03, 0x04]
  else if u < 4232 then [0x20, 0x21, 0x22, 0x23]
  else if u < 4616 then [0x40, 0x41, 0x42, 0x44]
  else if u < 4680 then [0x60, 0x61, 0x62, 0x63]
  else if u < 4684 then [0x80, 0x81, 0x82, 0x84]
  else if u = 4684 then [0xA0, 0xA1, 0xA2, 0xA3]
  else [0xC0, 0xC1, 0xC2, 0xC3, 0xC4, 0xC5, 0xC6, 0xC7]

/-- How many programmable counters a unit has (R608). -/
def srvProgs (u : Nat) : Nat :=
  if u < 4224 then 4 else if u < 4232 then 8 else if u ≤ 4684 then 4 else 0

/-- The first and last event of a unit's rows in the catalogue (R610). -/
def srvRange (u : Nat) : Nat × Nat :=
  if u < 4224 then (0x01, 0x0D) else if u < 4232 then (0x20, 0x27) else if u < 4616 then (0x40, 0x47)
  else if u < 4680 then (0x60, 0x64) else if u < 4684 then (0x80, 0x84) else if u = 4684 then (0xA0, 0xA3) else (0xC0, 0xC7)

/-- Events that count cycles, slots or nanoseconds: the model takes no time, so their counts are not kept. -/
def srvTimed (e : Nat) : Bool :=
  [0x01, 0x03, 0x04, 0x05, 0x06, 0x07, 0x08, 0x09, 0x0B, 0x25, 0x27, 0x44, 0x46, 0x47, 0x60, 0x61, 0x62, 0x64, 0x83, 0xC0, 0xC1, 0xC2,
   0xC7].contains e

/-- What an event carries for the filters of R611. -/
structure SrvEv where
  unit : Nat
  event : Nat
  n : Nat := 1
  prov : Nat := 0
  priv : Nat := 0
  master : Option Nat := none
  cls : Option Nat := none
  addr : Option Nat := none
deriving DecidableEq, Repr

/-- Whether programmable counter `i` counts an event (R611). -/
def State.srvPass (s : State) (e : SrvEv) (i : Nat) : Bool :=
  let u := e.unit
  s.fld u (SRV_CFG_EVENT i) == e.event && e.event != 0 &&
  (let p := s.fld u (SRV_CFG_PROV i); p == 0 || p == e.prov) &&
  bitAt (s.fld u (SRV_CFG_PRIV i)) e.priv &&
  (match e.master with | some m => bitAt (s.fld u (SRV_CFG_MASTER i)) m | none => true) &&
  (match e.cls with | some c => bitAt (s.fld u (SRV_CFG_CLASS i)) c | none => true) &&
  (s.fld u (SRV_CFG_ADDR_EN i) == 0 ||
    (match e.addr with
     | some a => a &&& (s.reg u SRV_ADDR_MASK).toNat == (s.reg u SRV_ADDR_BASE).toNat
     | none => true))

/-- Add to a counter (R608): 48 bits, wrapping; an increment that sets bit 47 sets its `SRV_HALF` bit and interrupts the steward. -/
def State.srvAdd (s : State) (u : Nat) (c half : Fld) (i n : Nat) : State :=
  let v := s.fld u c
  let v' := (v + n) % 2 ^ 48
  let s := s.setFld u c v'
  if bitAt v' 47 && !bitAt v 47 then (s.orFld u half (2 ^ i)).emit (.stewardIrq u) else s

/-- An event is counted where it occurs (R609). (DESIGN CHOICE: log 45) -/
def State.count (s : State) (e : SrvEv) : State :=
  let s := match (srvFixed e.unit).findIdx? (fun x => x == e.event) with
    | some i => s.srvAdd e.unit (SRV_FIX_COUNT i) SRV_HALF_FIX i e.n
    | none => s
  (List.range (srvProgs e.unit)).foldl (fun s i =>
    if s.srvPass e i then s.srvAdd e.unit (SRV_CNT_COUNT i) SRV_HALF_CNT i e.n else s) s

/-- The counters of a unit return to 0 (R609, R616). -/
def State.srvClear (s : State) (u : Nat) : State :=
  (List.range 8).foldl (fun s i => (s.setFld u (SRV_FIX_COUNT i) 0).setFld u (SRV_CNT_COUNT i) 0) s

end Sys2Proof.Machine
end

