-- ==== Sys2Proof/Machine/Mem.lean ====
section
/-! DEFINITION. HBM and the Gazetteer: device physical addresses (R257–R260), the three regions of the province virtual space (R261, R265),
64-byte words and poison (R271, R272). Memory is keyed by the DPA before any remap (R281): a remap moves a granule without changing what an
address reads. -/
namespace Sys2Proof.Machine

/-- Bytes of a channel and of the part a province uses (R254, R259). -/
def chanSize : Nat := 0x60000000
def chanUse : Nat := 0x5FE00000

/-- The bytes of a province's physical space (R260). -/
def Prov.space (p : Prov) : Nat := p.chans.length * chanUse

/-- The Atlas copy's bytes A: SIZE rounded up to 2 MiB, 0 before any load (R261). -/
def Prov.atlasA (p : Prov) : Nat := ceilDiv p.atlasSize (2 ^ 21) * 2 ^ 21

/-- D of R261. -/
def Prov.dataD (p : Prov) : Nat := p.space - p.atlasA

/-- The DPA of a province physical offset (R260). -/
def Prov.dpa (p : Prov) (ppo : Nat) : Nat :=
  let q := ppo / 2048
  let n := p.chans.length
  p.chans.getD (q % n) 0 * chanSize + (q / n * 2048 + ppo % 2048)

/-- Regions of the province virtual space (R261). -/
inductive Region where
  | data | atlas | host | unmapped
deriving DecidableEq, Repr

def atlasBase : Nat := 0x700000000000
def hostBase : Nat := 0x800000000000

/-- The region of a PVA. -/
def Prov.region (p : Prov) (va : Nat) : Region :=
  if va < p.dataD then .data
  else if atlasBase ≤ va ∧ va < atlasBase + p.atlasA then .atlas
  else if hostBase ≤ va ∧ va < 2 ^ 48 then .host
  else .unmapped

/-- The province physical offset of a PVA of DATA or ATLAS. -/
def Prov.ppo (p : Prov) (va : Nat) : Nat :=
  if va < p.dataD then va else p.space - p.atlasA + (va - atlasBase)

/-- The DPA of a PVA of DATA or ATLAS. -/
def Prov.vdpa (p : Prov) (va : Nat) : Nat := p.dpa (p.ppo va)

/-- Whether the bytes `[a, a + n)` lie in one region. -/
def Prov.within (p : Prov) (r : Region) (a n : Nat) : Bool :=
  n == 0 || (p.region a == r && p.region (a + n - 1) == r)

/-- A byte of HBM: a byte that nothing has written reads 0 (R277). (DESIGN CHOICE: log 12, 13) -/
def State.mbyte (s : State) (dpa : Nat) : Byte := Sparse.get 0 s.mem dpa
/-- A byte of a province's virtual space. -/
def State.vbyte (s : State) (p va : Nat) : Byte := s.mbyte ((s.prov p).vdpa va)
/-- `n` bytes of a province's virtual space. -/
def State.vbytes (s : State) (p va n : Nat) : List Byte := (List.range n).map (fun i => s.vbyte p (va + i))
/-- A little-endian number of `n` bytes in a province's virtual space. -/
def State.vle (s : State) (p va n : Nat) : Nat := ofLE (s.vbytes p va n)

/-- Whether any 64-byte word of `[va, va + n)` is poisoned (R272). -/
def State.vpoison (s : State) (p va n : Nat) : Bool :=
  !s.poison.isEmpty && (List.range n).any (fun i => Sparse.get false s.poison ((s.prov p).vdpa (va + i) / 64))

/-- The PVA at which the province that holds a channel sees a DPA (R260, R261); none where no province uses it. -/
def State.pvaOf (s : State) (dpa : Nat) : Option Nat :=
  let c := dpa / chanSize
  let off := dpa % chanSize
  match s.provs.find? (fun e => e.2.chans.contains c) with
  | some e =>
    let pr := e.2
    let ppo := (off / 2048 * pr.chans.length + pr.chans.findIdx (fun x => x == c)) * 2048 + off % 2048
    if chanUse ≤ off then none else some (if ppo < pr.dataD then ppo else atlasBase + (ppo - pr.dataD))
  | none => none

/-- Writes to HBM by DPA: a 64-byte word is written whole or not at all; a write of all 64 bytes clears poison, a partial write of a
poisoned word leaves it poisoned (R271, R272). Later entries of the list win. The patrol's second read of a word that is written is abandoned (R275). -/
def State.mwrite (s : State) (ws : List (Nat × Byte)) : State :=
  let hit := s.poison.filter (fun e => ws.any (fun w => w.1 / 64 == e.1))
  let full := hit.filter (fun e => (List.range 64).all (fun i => ws.any (fun w => w.1 == 64 * e.1 + i)))
  let keep := ws.filter (fun w => !(hit.any (fun e => e.1 == w.1 / 64) && !full.any (fun e => e.1 == w.1 / 64)))
  { s with mem := keep.foldl (fun m w => Sparse.set 0 m w.1 w.2) s.mem,
           poison := Sparse.drop (fun k => full.any (fun e => e.1 == k)) s.poison,
           memc := { s.memc with retry := s.memc.retry.filter (fun r => r.2 != 4 || !ws.any (fun w => w.1 / 64 == r.1)) } }

/-- Writes by PVA into a province's DATA. -/
def State.vwrite (s : State) (p : Nat) (ws : List (Nat × Byte)) : State :=
  let pr := s.prov p
  s.mwrite (ws.map (fun w => (pr.vdpa w.1, w.2)))

/-- Bytes written at consecutive PVAs. -/
def State.vput (s : State) (p va : Nat) (bs : List Byte) : State := s.vwrite p (bs.zipIdx.map (fun b => (va + b.2, b.1)))

/-- A 64-byte word takes the poison pattern (R272). -/
def State.poisonWord (s : State) (w : Nat) : State :=
  { s with poison := Sparse.set false s.poison w true,
           mem := Sparse.drop (fun k => k / 64 == w) s.mem }

/-- The channel of a DPA. -/
def chanOf (dpa : Nat) : Nat := dpa / chanSize

end Sys2Proof.Machine
end

