-- ==== Sys2Proof/Machine/Atlas.lean ====
section
/-! DEFINITION. Reading an Atlas image: header and section table (R227, R228), frames, deals, programs (R229–R232), trick descriptors (R233),
GSYNC ordinals (R210, R228). -/
namespace Sys2Proof.Machine

/-- An image as a reader of little-endian numbers: offset and size in bytes. -/
abbrev Img := Nat → Nat → Nat

/-- The Atlas copy of a province (R261). -/
def State.img (s : State) (p : Nat) : Img := fun o n => s.vle p (atlasBase + o) n

/-- Fields of the header (R227). -/
def Img.size (g : Img) : Nat := g 16 8
def Img.gen (g : Img) : Nat := g 72 2
def Img.period (g : Img) : Nat := g 74 2
def Img.planCycles (g : Img) : Nat := g 76 4
def Img.ntiles (g : Img) : Nat := g 80 2
def Img.nchan (g : Img) : Nat := g 82 2
def Img.nranks (g : Img) : Nat := g 84 4
def Img.fanin (g : Img) : Nat := g 88 1
def Img.nsect (g : Img) : Nat := g 89 1
def Img.prologue (g : Img) : Nat := g 92 4
def Img.body (g : Img) : Nat := g 96 4
def Img.seed (g : Img) : Nat := g 100 8
def Img.legmask (g : Img) : Nat := g 108 1
def Img.legend (g : Img) (n : Nat) : Nat := g (112 + 4 * (n - 8)) 4
def Img.mdlogBase (g : Img) : Nat := g 144 8
def Img.mdlogSize (g : Img) : Nat := g 152 4
def Img.memSplit (g : Img) : Nat := g 156 4
def Img.linkSlots (g : Img) : Nat := g 160 4

/-- An entry of the section table (R228). -/
structure Sect where
  ty : Nat
  ign : Bool
  sver : Nat
  size : Nat
  off : Nat
deriving DecidableEq, Repr

def Img.sectAt (g : Img) (i : Nat) : Sect :=
  let o := 256 + 16 * i
  ⟨bits (g o 2) 0 15, bitAt (g o 2) 15, g (o + 2) 2, g (o + 4) 4, g (o + 8) 8⟩

def Img.sects (g : Img) : List Sect := (List.range g.nsect).map g.sectAt

/-- Whether generation 1 knows the section's type and accepts its SVER (R228). -/
def Sect.known (x : Sect) : Bool := (decide (1 ≤ x.ty) && decide (x.ty ≤ 12) && x.sver == 1) || x.ty == 13

/-- The section of a type, when the image has it in an accepted version. -/
def Img.sect (g : Img) (ty : Nat) : Option Sect := g.sects.find? (fun x => x.ty == ty && x.known)

/-- The offset of a section, 0 with none. -/
def Img.sectOff (g : Img) (ty : Nat) : Nat := ((g.sect ty).map Sect.off).getD 0

/-- The frame-map entry that planned frame `k` uses (R229). -/
def Img.frameIdx (g : Img) (k : Nat) : Nat :=
  if k < g.prologue then k else g.prologue + (k - g.prologue) % (max 1 g.body)

/-- A frame-map entry (R229). -/
structure FrameEnt where
  flags : Nat
  dealOff : Nat
  dealN : Nat
  loadOff : Nat
  loadN : Nat
  collN : Nat
  collOff : Nat
deriving DecidableEq, Repr

def FrameEnt.slack (f : FrameEnt) : Bool := bitAt f.flags 0

def Img.frameAt (g : Img) (i : Nat) : FrameEnt :=
  let o := g.sectOff 1 + 32 * i
  ⟨g o 4, g (o + 4) 4, g (o + 8) 4, g (o + 12) 4, g (o + 16) 2, g (o + 18) 2, g (o + 20) 4⟩

/-- The entry of planned frame `k`. -/
def Img.frame (g : Img) (k : Nat) : FrameEnt := g.frameAt (g.frameIdx k)

/-- The deals of a frame: trick and home tile (R231). -/
def Img.deals (g : Img) (f : FrameEnt) : List (Nat × Nat) :=
  (List.range f.dealN).map (fun j => let o := g.sectOff 2 + 8 * (f.dealOff + j); (g o 4, g (o + 4) 2))

/-- The program loads of a frame: program and province tile index, 0xFFFF for every tile (R232). -/
def Img.loads (g : Img) (f : FrameEnt) : List (Nat × Nat) :=
  (List.range f.loadN).map (fun j => let o := g.sectOff 5 + 4 * (f.loadOff + j); (g o 2, g (o + 2) 2))

/-- A program: code offset, length, first entry (R232). -/
structure ProgEnt where
  off : Nat
  n : Nat
  first : Nat
deriving DecidableEq, Repr

def Img.prog (g : Img) (i : Nat) : ProgEnt :=
  let o := g.sectOff 4 + 16 * i
  ⟨g o 8, g (o + 8) 2, g (o + 10) 2⟩

/-- The code words of a program. -/
def Img.code (g : Img) (p : ProgEnt) : List Nat := (List.range p.n).map (fun i => g (p.off + 8 * i) 8)

/-- A trick descriptor (R233). -/
structure TrickDesc where
  id : Nat
  mbatch : Nat
  prog : Nat
  seats : Nat
  group : Nat
  pin : Bool
  bwdEnd : Bool
  accCtrl : Nat
  cost : Nat
  first : Nat
  last : Nat
  entry : List Nat
  args : List Nat
deriving DecidableEq, Repr

def Img.trick (g : Img) (i : Nat) : TrickDesc :=
  let o := g.sectOff 3 + 64 * i
  let w := g (o + 12) 4
  let fl := g (o + 16) 3
  let en := g (o + 20) 12
  ⟨g o 4, g (o + 4) 2, g (o + 6) 2, g (o + 8) 1, g (o + 9) 1, bitAt (g (o + 10) 1) 0, bitAt (g (o + 10) 1) 1, bits w 0 18, bits w 18 14,
   bits fl 0 12, bits fl 12 12, (List.range 8).map (fun n => bits en (12 * n) 12), (List.range 8).map (fun n => g (o + 32 + 4 * n) 4)⟩

/-- The declaration of a GSYNC ordinal (R210, R228): BROADCAST or BARRIER and the arrivals expected; none when unused. -/
def Img.gsync (g : Img) (ord : Nat) : Option (Bool × Nat) :=
  match g.sect 8 with
  | none => none
  | some x =>
    let w := g (x.off + 4 * ord) 4
    if bits w 0 2 = 1 then some (false, bits w 16 16) else if bits w 0 2 = 2 then some (true, bits w 16 16) else none

/-- The tree fan-in of a province (R48): the loaded Atlas's, else the default 16. -/
def State.fanin (s : State) (p : Nat) : Nat :=
  if (s.prov p).loaded then (let b := (s.img p).fanin; if 2 ≤ b ∧ b ≤ 64 then b else 16) else 16

/-- This device's rank and the rank count of a province (R419). -/
def State.rank (s : State) (p : Nat) : Nat := s.fld p PROV_RANK_RANK
def State.nranks (s : State) (p : Nat) : Nat := s.fld p PROV_RANK_LASTRANK + 1

/-- The current device frame. -/
def State.frame (s : State) : Nat := s.fld 0 MER_FRAME_NUM_FRAME

/-- The body frame of a planned frame; none in the prologue (R229). -/
def Img.bodyIdx (g : Img) (k : Nat) : Option Nat := if k < g.prologue then none else some ((k - g.prologue) % max 1 g.body)

/-- The commit frames the UPDATE section declares (R326, R359); none without the section. -/
def Img.commitFrames (g : Img) : Option (Nat × Nat) := match g.sect 11 with | some x => some (g (x.off + 4) 2, g (x.off + 6) 2) | none => none

/-- Whether a planned frame is a commit frame. -/
def Img.isCommit (g : Img) (k : Nat) : Bool :=
  match g.bodyIdx k, g.commitFrames with
  | some j, some (a, b) => decide (a ≤ j) && decide (j ≤ b)
  | _, _ => false

/-- Whether the planned frame is the first of a step after the first (R229, R326). -/
def Img.firstOfNext (g : Img) (k : Nat) : Bool := decide (g.prologue < k) && (k - g.prologue) % max 1 g.body == 0

/-- Whether the planned frame is the last of its step. -/
def Img.lastOfStep (g : Img) (k : Nat) : Bool := decide (g.prologue ≤ k) && (k - g.prologue) % max 1 g.body == g.body - 1

/-- Whether a planned frame closes its step: a commit frame, or, without commit frames, the step's last planned frame (R326). -/
def Img.isClosing (g : Img) (k : Nat) : Bool := if g.commitFrames.isSome then g.isCommit k else g.lastOfStep k

/-- Which step of the run a planned frame belongs to, from 0 on (R322). -/
def Img.stepOfFrame (g : Img) (k : Nat) : Nat := (k - g.prologue) / max 1 g.body

/-- A contained error of planned frame `pframe` (R223, R352): the province pauses at the next boundary, and in a frame that closes its step the step stays VERIFIED. -/
def State.contained (s : State) (p pframe : Nat) : State :=
  let pr := s.prov p
  s.setProv p { pr with pauseReq := true, commitFault := pr.commitFault || (s.img p).isClosing pframe }

/-- A tensor (R349). -/
structure Tensor where
  base : Nat
  rows : Nat
  cols : Nat
  fmt : Nat
  cls : Nat
  resid : Nat
  flags : Nat
  ledger : Nat
  layer : Nat
deriving DecidableEq, Repr

def Img.ntens (g : Img) : Nat := match g.sect 9 with | some x => g x.off 4 | none => 0
def Img.tensor (g : Img) (i : Nat) : Tensor :=
  let o := g.sectOff 9 + 64 + 32 * i
  ⟨g o 8, g (o + 8) 4, g (o + 12) 4, g (o + 16) 1, g (o + 17) 1, g (o + 18) 1, g (o + 19) 1, g (o + 20) 4, g (o + 24) 2⟩

/-- The next multiple of 64, where a part of a section begins (R304, R359). -/
def up64 (n : Nat) : Nat := ceilDiv n 64 * 64

end Sys2Proof.Machine
end

