-- ==== Sys2Proof/Machine/Operands.lean ====
section
/-! DEFINITION. Operand forms: format codes (R73), the sheet store and its containers (R67, R93), array operand words (R75), stream and
tile-register words (R142–R144), and the footprints that the range and overlap checks use. -/
namespace Sys2Proof.Machine

/-- The last byte address of the sheet store is 0x17_FFFF (R67). -/
def sheetSize : Nat := 0x180000

/-- What a format code names for a province (R73): none for a reserved code or a Legend entry with VALID = 0. X3 and code 24 are
handled by their engines. -/
def State.fmtOf (s : State) (p code : Nat) : Option Fmt :=
  if code < 16 then Fmt.ofDesc (s.reg p (PROV_LEGEND code)).toNat
  else if code = 16 then some Fmt.bf16
  else if code = 17 then some Fmt.f16
  else if code = 19 then some Fmt.int8
  else if code = 20 then some Fmt.int4
  else none

/-- The container of an element in half bytes (R93): 4, 2 or 1. -/
def Fmt.nib (f : Fmt) : Nat := if f.width > 8 then 4 else if f.width > 4 then 2 else 1

/-- A byte of a tile's sheet store. (DESIGN CHOICE: log 12) -/
def Tile.byte (t : Tile) (a : Nat) : Byte := Sparse.get 0 t.sheet a

/-- `n` bytes of a tile's sheet store. -/
def Tile.bytes (t : Tile) (a n : Nat) : List Byte := (List.range n).map (fun i => t.byte (a + i))

/-- The element of a container of `nib` half bytes at half-byte position `pos`. -/
def Tile.elem (t : Tile) (nib pos : Nat) : Nat :=
  if nib = 1 then (t.byte (pos / 2)).toNat / 16 ^ (pos % 2) % 16 else ofLE (t.bytes (pos / 2) (nib / 2))

/-- Byte writes into the sheet store; later entries of the list win. -/
def Tile.putBytes (t : Tile) (ws : List (Nat × Byte)) : Tile :=
  { t with sheet := ws.foldl (fun m w => Sparse.set 0 m w.1 w.2) t.sheet }

/-- The half-byte writes of elements turned into byte writes, read-modify-write within a byte (R93). -/
def Tile.elemWrites (t : Tile) (nib : Nat) (es : List (Nat × Nat)) : List (Nat × Byte) :=
  if nib = 1 then
    (es.foldl (fun (m : Sparse Byte) e =>
      let a := e.1 / 2
      let old := (m.find? (fun x => x.1 == a)).elim (t.byte a) Prod.snd
      (a, BitVec.ofNat 8 (setBits old.toNat (4 * (e.1 % 2)) 4 e.2)) :: m.filter (fun x => x.1 != a)) []).reverse
  else es.flatMap (fun e => (leBytes (nib / 2) e.2).zipIdx.map (fun b => (e.1 / 2 + b.2, b.1)))

/-- A write of bytes into the sheet store with its check bits (R72): a word that cannot be decoded is cleared by a write of all its 16
bytes; a write of fewer bytes to such a word is a tile fault and leaves the word as it was. -/
def Tile.write (t : Tile) (ws : List (Nat × Byte)) : Tile × Bool :=
  let hit := t.badWords.filter (fun w => ws.any (fun x => x.1 / 16 == w.1))
  let part := hit.filter (fun w => !(List.range 16).all (fun i => ws.any (fun x => x.1 == 16 * w.1 + i)))
  let keep := ws.filter (fun x => !part.any (fun w => w.1 == x.1 / 16))
  ({ t.putBytes keep with badWords := t.badWords.filter (fun w => !hit.any (fun h => h.1 == w.1) || part.any (fun h => h.1 == w.1)) },
    !part.isEmpty)

/-- Whether a read of `n` bytes from `a` touches a word that cannot be decoded (R72). -/
def Tile.readBad (t : Tile) (a n : Nat) : Bool := t.badWords.any (fun w => decide (a / 16 ≤ w.1) && decide (w.1 ≤ (a + n - 1) / 16))

/-- The array operand word of R75. -/
structure OpWord where
  base : Nat
  pitch : Nat
  qstep : Nat
  rsv : Nat
deriving DecidableEq, Repr

def OpWord.of (w : Nat) : OpWord := ⟨bits w 0 21, bits w 21 12 * 16, bits w 33 21, bits w 54 10⟩

/-- The row pitch in bytes of a quad in a container of `nib` half bytes: the row size when packed (R67). -/
def OpWord.rowPitch (o : OpWord) (nib : Nat) : Nat := if o.pitch = 0 then 8 * nib else o.pitch

/-- Where the part `k` (0 hi, 1 mid, 2 lo) of an X3 operand begins (R75). -/
def OpWord.part (o : OpWord) (k : Nat) : Nat := if o.pitch = 0 then 512 * k else 16 * o.pitch * k

/-- Half-byte position of entry (r, c) of quad `q` of an operand. -/
def OpWord.pos (o : OpWord) (nib q r c : Nat) : Nat := 2 * (o.base + q * o.qstep + r * o.rowPitch nib) + c * nib

/-- The end (exclusive) of the bytes of `nq` quads of an operand; an X3 operand has three parts (R87 AX_RANGE). -/
def OpWord.stop (o : OpWord) (nib nq : Nat) (x3 : Bool) : Nat :=
  o.base + (nq - 1) * o.qstep + (if x3 then o.part 2 else 0) + 15 * o.rowPitch nib + 8 * nib

/-- A code-24 slot word (R75): register and quad slot; other bits reserved. -/
def slotReg (w : Nat) : Nat := bits w 0 3
def slotQ (w : Nat) : Nat := bits w 3 3
def slotRsv (w : Nat) : Nat := w / 64

/-- The linear index of entry (row, col) of tile register `r` (R138). -/
def tregIdx (r row col : Nat) : Nat := r * 2048 + row * 64 + col

/-- The linear index of entry (row, col) of quad slot `q` of tile register `r` (R75). -/
def slotIdx (r q row col : Nat) : Nat := tregIdx r (16 * (q / 4) + row) (16 * (q % 4) + col)

def Tile.tr (t : Tile) (i : Nat) : W32 := Sparse.get 0 t.treg i
def Tile.putTregs (t : Tile) (ws : List (Nat × W32)) : Tile :=
  { t with treg := ws.foldl (fun m w => Sparse.set 0 m w.1 w.2) t.treg }

/-- A stream word (R142). -/
structure StreamWord where
  base : Nat
  fmt : Nat
  gstride : Nat
  sbase : Nat
  rsv : Bool
deriving DecidableEq, Repr

def StreamWord.of (w : Nat) : StreamWord :=
  ⟨bits w 0 21, bits w 21 5, bits w 27 12, bits w 40 21, bitAt w 26 || bitAt w 39 || bits w 61 3 != 0⟩

/-- Half-byte position of element `i` of a stream (R143). -/
def StreamWord.pos (x : StreamWord) (nib i : Nat) : Nat :=
  if x.gstride = 0 then 2 * x.base + i * nib else 2 * x.base + i / 64 * x.gstride * 32 + i % 64 * nib

/-- A tile-register word (R144). -/
structure TregWord where
  reg : Nat
  row : Nat
  col : Nat
  rsv : Bool
deriving DecidableEq, Repr

def TregWord.of (w : Nat) : TregWord := ⟨bits w 0 3, bits w 3 5, bits w 8 6, w / 2 ^ 14 != 0⟩

/-- The linear index of element `i` of a TREG operand (R144). -/
def TregWord.elem (x : TregWord) (i : Nat) : Nat := x.reg * 2048 + x.row * 64 + i

/-- A half-open interval of addresses. -/
structure Span where
  lo : Nat
  hi : Nat
deriving DecidableEq, Repr

def Span.meets (a b : Span) : Bool := decide (a.lo < b.hi) && decide (b.lo < a.hi)

def spansMeet (a b : List Span) : Bool := a.any (fun x => b.any (fun y => x.meets y))

/-- A field of a 64-bit instruction word. -/
def fieldOf (insn lo w : Nat) : Nat := bits insn lo w

/-- The major opcode (R189). -/
def opcOf (insn : Nat) : Nat := bits insn 58 6

end Sys2Proof.Machine
end

