-- ==== Sys2Proof/Machine/DealOps.lean ====
section
/-! DEFINITION. Starting a trick on a tile and giving free tiles work (R182, R183, R234, R236–R241, R247, R251, R252). -/
namespace Sys2Proof.Machine

/-- The die and logical column of a province tile index (R12). -/
def State.unitAt (s : State) (p idx : Nat) : Nat × Nat := (s.prov p).units.getD (idx / 16) (8, 0)

/-- The province tile index of a physical tile (R12, R54). -/
def State.idxOf (s : State) (p tile : Nat) : Option Nat :=
  match s.logCol tile with
  | some c => ((s.prov p).units.findIdx? (fun u => u == (tile / 528, c))).map (fun u => 16 * u + rowOfTile tile)
  | none => none

/-- Whether a frame of the plan between two numbers loads programs onto a tile index (R232, R236). -/
def State.loadsFor (s : State) (p idx k : Nat) : List Nat :=
  let g := s.img p
  ((g.loads (g.frame k)).filter (fun l => l.2 == idx || l.2 == 0xFFFF)).map Prod.fst
def State.owesLoads (s : State) (p tile idx k : Nat) : Bool :=
  let a := (s.tile tile).loadedFor
  (List.range (k + 1 - a)).any (fun i => !(s.loadsFor p idx (a + i)).isEmpty)

/-- Whether the Dealer may start a trick on a tile (R251–R253, R592): the tile holds no trick, is in service, its row does not move, the die's
Dealer is not held, no FATAL is latched, and the frame's program loads are made. -/
def State.tileFreeFor (s : State) (p tile idx k : Nat) : Bool :=
  let d := dieOfTile tile
  (s.tile tile).trick.isNone && s.fld d (DLR_ROWMAP_MOVING (rowOfTile tile)) == 0 && s.fld d DLR_CTRL_HOLD == 0 &&
  s.fld 0 TST_STATUS_FATAL == 0 && (s.logCol tile).isSome &&
  !s.errs.retired.contains (d, (s.logCol tile).getD 0) && (s.prov p).st == .running && !s.owesLoads p tile idx k

/-- The seat states of a start (R182, R183, R205, R234). -/
def startSeat (d : TrickDesc) (n : Nat) : Seat :=
  if bitAt d.seats n then { st := .ready, pc := d.entry.getD n 0, regs := Sparse.set 0 [] 1 (BitVec.ofNat 64 (d.args.getD n 0)) } else {}

/-- A trick starts on a tile (R89, R138, R177, R182, R183, R205, R225, R234, R238). -/
def State.startTrick (s : State) (p tile idx : Nat) (i : DealItem) : State :=
  let g := s.img p
  let d := g.trick i.trick
  let c : TrickCtx :=
    { prov := p, tileIdx := idx, trick := d.id, mbatch := d.mbatch, prog := d.prog, first := d.first, last := d.last, started := d.seats,
      pframe := i.pframe, dframe := s.frame, step := (s.reg p PROV_STEP).toNat, pro := decide (i.pframe < g.prologue), rank := s.rank p,
      nranks := s.nranks p, ntiles := g.ntiles, repoch := s.fld p PROV_EPOCH_EPOCH, pin := d.pin, stolen := i.stolen, bwdEnd := d.bwdEnd }
  let t := s.tile tile
  let s := s.setTile tile { t with
    treg := [], trick := some c, faulted := false, aq := [], fly := [], vq := [], banks := [], crr := [], chains := [], puts := [], taken := [],
    seats := (List.range 8).foldl (fun m n => Sparse.set Seat.init m n (startSeat d n)) [] }
  let s := s.setReg tile TILE_ACC_CTRL (BitVec.ofNat 64 d.accCtrl)
  let s := ([TILE_ARR_FLAGS, VEC_FLAGS, VEC_VACANT, CC_EXC, CC_EXC_INSN, CC_EXC_ADDR, CC_CYCLES, CC_RETIRED]).foldl (fun s r => s.setReg tile r 0) s
  let s := s.count { unit := srvDie (dieOfTile tile), event := 0x20, prov := p, master := some 5 }
  if i.stolen then (s.count { unit := srvTile tile, event := 0x0D, prov := p, master := some 5 }).count
    { unit := srvDie (dieOfTile tile), event := 0x21, prov := p, master := some 5 } else s

/-- Replace the item of a trick. -/
def Prov.putItem (pr : Prov) (i : DealItem) : Prov :=
  { pr with items := pr.items.map (fun x => if x.trick = i.trick ∧ x.pframe = i.pframe then i else x) }

/-- An item leaves its queue for a tile. -/
def State.startItem (s : State) (p tile idx : Nat) (i : DealItem) (stolen : Bool) : State :=
  let i := { i with st := .running tile, stolen := stolen, attempts := i.attempts + 1 }
  (s.setProv p ((s.prov p).putItem i)).startTrick p tile idx i

/-- The queue of a home tile index, in DEALS order. -/
def Prov.queueOf (pr : Prov) (idx : Nat) : List DealItem := pr.items.filter (fun i => i.st == .queued && i.home == idx)

/-- The victim of a steal (R239, R240): the province's tile of the same die with the most queued cost whose last trick may be taken. (DEDUCED: log 142) -/
def State.victim (s : State) (p tile idx k left : Nat) : Option DealItem :=
  let pr := s.prov p
  let g := s.img p
  let die := dieOfTile tile
  let groups := ((g.deals (g.frame k)).filter (fun x => x.2 == idx)).filterMap (fun x => let d := g.trick x.1; if d.pin then none else some d.group)
  let cost := fun v => (pr.queueOf v).foldl (fun n i => n + (g.trick i.trick).cost * 8) 0
  let cands := ((List.range (16 * pr.units.length)).filter (fun v => v != idx && (s.unitAt p v).1 == die)).filterMap (fun v =>
    match (pr.queueOf v).getLast? with
    | some c =>
      let d := g.trick c.trick
      if d.pin ∨ !groups.contains d.group ∨ d.cost * 8 + s.fld die DLR_CTRL_MARGIN > left then none else some (v, c)
    | none => none)
  (cands.foldl (fun best x => match best with
    | none => some x
    | some b => if cost x.1 > cost b.1 then some x else some b) none).map Prod.snd

/-- A free tile takes its next own trick, or steals one when `steal` says that every tile with work of its own has been served (R239, R241). -/
def State.giveWork (s : State) (p tile left : Nat) (own steal : Bool) : State :=
  let pr := s.prov p
  match s.idxOf p tile, pr.cur with
  | some idx, some k =>
    if !s.tileFreeFor p tile idx k then s
    else match pr.queueOf idx with
    | i :: _ => if own then s.startItem p tile idx i i.stolen else s
    | [] =>
      if !steal ∨ s.fld (dieOfTile tile) DLR_CTRL_STEAL_EN = 0 then s
      else match s.victim p tile idx k left with
      | some i => s.startItem p tile idx i true
      | none => s
  | _, _ => s

/-- A tile becomes free (R239): its own next trick, or a steal. -/
def State.onFree (s : State) (p tile left : Nat) : State := s.giveWork p tile left true true

/-- The physical tiles of a province in increasing tile index (R241). -/
def State.tilesOf (s : State) (p : Nat) : List Nat := (List.range (16 * (s.prov p).units.length)).filterMap (fun i => s.tileOf p i)

/-- Work at a boundary: every tile with a queue of its own is served before any tile steals (R241). -/
def State.dealAll (s : State) (p left : Nat) : State :=
  let ts := s.tilesOf p
  let s := ts.foldl (fun s t => s.giveWork p t left true false) s
  ts.foldl (fun s t => s.giveWork p t left false true) s

end Sys2Proof.Machine
end

