-- ==== Sys2Proof/Machine/TileOps.lean ====
section
/-! DEFINITION. What happens to a tile as a whole: a flush (R84, R176), a trick exception (R219–R223), a tile fault (R72), the issue of an
instruction by a seat (R180–R198), and the helpers that every instruction's meaning shares. -/
namespace Sys2Proof.Machine

/-- Flush the array and vector queues; every bank becomes FREE (R84, R176). Words already written keep their values. (DESIGN CHOICE: log 42) -/
def Tile.flush (t : Tile) : Tile := { t with aq := [], fly := [], vq := [], banks := [] }

/-- Return the handles a trick took to the heads of their Talons, in reverse order of taking (R314 Undo); `taken` is newest first. (DESIGN CHOICE: log 42) -/
def State.returnHandles (s : State) (taken : List (Nat × Nat)) : State :=
  taken.foldl (fun s h => let x := s.talon h.1; s.setTalon h.1 { x with handles := h.2 :: x.handles }) s

/-- Withdraw a tile's waiting TTAKEs from every Talon (R299). -/
def State.withdrawTakes (s : State) (tile : Nat) : State :=
  s.talons.foldl (fun s e => s.setTalon e.1 { (s.talon e.1) with waiters := (s.talon e.1).waiters.filter (fun w => w.tile != tile) }) s

/-- Courier and Talon state of a trick that is misdealt, recalled, faulted or reset (R299): transfers of earlier, completed tricks go on (R222, R298). (DESIGN CHOICE: log 42) -/
def State.dropCourier (s : State) (tile : Nat) : State :=
  let t := s.tile tile
  let old := fun (l : List Xfer) => l.filter (fun x => x.rel.isSome)
  let t' := { t with tc0 := old t.tc0, tc1 := old t.tc1, crr := [], outbox := t.outbox.filter (fun o => !o.held), chains := [], puts := [], taken := [] }
  ((s.setTile tile t').returnHandles t.taken).withdrawTakes tile

/-- The item of a tile's trick takes another state in the province's deal list. -/
def State.setItem (s : State) (c : TrickCtx) (st : ItemState) : State :=
  let pr := s.prov c.prov
  let upd := fun (i : DealItem) => if i.trick = c.trick ∧ i.pframe = c.pframe ∧ i.st ≠ .complete then { i with st := st } else i
  s.setProv c.prov { pr with items := pr.items.map upd, tent := pr.tent.map upd }

/-- Every seat stops issuing and becomes FAULTED (R219). -/
def Tile.faultSeats (t : Tile) : Tile :=
  (List.range 8).foldl (fun t i => t.setSeat i { (t.seat i) with st := .faulted, wait := .none, busy := [], due := [] }) t

/-- The exception record (R218, R225): cause, seat, MULTI, PC, INFO, word and address. -/
structure Exc where
  cause : Nat
  info : Nat := 0
  addr : Nat := 0
deriving DecidableEq, Repr

/-- Taking a trick exception (R219, R222, R223): the record, every seat FAULTED, the queues flushed, courier state dropped, the trick
faulted and not re-dealt; the Dealer reports to the steward, which raises CONTAINED and pauses the province at the next boundary; the tile is
free for its next trick (R239; the cycles left are a free value). -/
def State.trap (s : State) (tile seat pc insn : Nat) (multi : Bool) (e : Exc) : State :=
  let s := s.setReg tile CC_EXC (BitVec.ofNat 64
    (e.cause % 256 + seat % 8 * 2 ^ 8 + b01 multi * 2 ^ 11 + pc % 4096 * 2 ^ 16 + e.info % 65536 * 2 ^ 32))
  let s := s.setReg tile CC_EXC_INSN (BitVec.ofNat 64 insn)
  let s := s.setReg tile CC_EXC_ADDR (BitVec.ofNat 64 e.addr)
  let s := s.setTile tile { ((s.tile tile).flush.faultSeats) with faulted := true }
  let s := s.dropCourier tile
  match (s.tile tile).trick with
  | none => s
  | some c =>
    let s := (s.setItem c .faulted).contained c.prov c.pframe
    let s := (s.setTile tile { (s.tile tile) with trick := none }).raise
      { cause := TRICK_FAULT, die := dieOfTile tile, prov := c.prov, unit := tileUnit tile, addr := e.addr, aux := c.trick,
        detail0 := (s.reg tile CC_EXC).toNat, detail1 := insn }
    s.freeVal.2.onFree c.prov tile (s.freeVal.1.toNat % 2 ^ 17)

/-- A tile fault (R72, R84, R88): the trick is abandoned for a re-deal with misdeal cause 5; the queues are flushed. (DESIGN CHOICE: log 42) -/
def State.tileFault (s : State) (tile : Nat) (addr : Nat := 0) (bit : Nat := 0xFFFF) : State :=
  let s := s.raise
    { cause := TILE_FAULT, die := dieOfTile tile, prov := ((s.tile tile).trick.map TrickCtx.prov).getD 0, unit := tileUnit tile,
      addr := addr, bit := bit }
  let s := s.setTile tile ((s.tile tile).flush)
  let s := s.dropCourier tile
  match (s.tile tile).trick with
  | none => s
  | some c =>
    let s := s.setItem c (.abandoned c.tileIdx)
    let t := (List.range 8).foldl (fun t i => t.setSeat i { (t.seat i) with st := .idle, wait := .none, busy := [], due := [] }) (s.tile tile)
    s.setTile tile { t with trick := none }

/-- Byte writes by an engine of the tile: a partial write to a word that cannot be decoded is a tile fault (R72). -/
def State.sheetWrite (s : State) (tile : Nat) (ws : List (Nat × Byte)) : State :=
  let r := (s.tile tile).write ws
  let s' := s.setTile tile r.1
  if r.2 then s'.tileFault tile else s'

/-- What the seat issues: the tile, the seat and its state, the trick and the word at the PC. (DESIGN CHOICE: log 27) -/
structure Issue where
  tile : Nat
  seat : Nat
  x : Seat
  c : TrickCtx
  insn : Nat
  pc : Nat
deriving DecidableEq, Repr

/-- Whether debug control holds a seat before its next instruction: HALT, or the breakpoint at its PC (R225, R226). -/
def State.dbgHolds (s : State) (tile seat : Nat) (x : Seat) : Bool :=
  s.fld tile CC_DBG_CTRL_EN == 1 && bitAt (s.fld tile CC_DBG_CTRL_SEATS) seat && x.steps == 0 &&
  (s.fld tile CC_DBG_CTRL_HALT == 1 || (s.fld tile CC_DBG_CTRL_BP_EN == 1 && s.fld tile CC_DBG_CTRL_BP_PC == x.pc))

/-- The state that a seat shows (R184, R226): HALTED also where debug control holds it before its next instruction. -/
def State.seatShown (s : State) (tile seat : Nat) : SeatState :=
  let x := (s.tile tile).seat seat
  if (x.st == .ready || x.st == .stalled) && s.dbgHolds tile seat x then .halted else x.st

/-- Whether a seat is READY in this cycle beyond doubt (R184–R186, R224): nothing holds it, no write it asked for is outstanding, and its latencies are over. (DESIGN CHOICE: log 27) -/
def State.surelyReady (s : State) (tile seat : Nat) : Bool :=
  let t := s.tile tile
  let x := t.seat seat
  x.st == .ready && !s.dbgHolds tile seat x && x.due.isEmpty && Sparse.get 0 t.lag seat == 0

/-- Whether no seat that the control core examines before this one, from the one behind the last issuer on, is READY (R185). (DESIGN CHOICE: log 27) -/
def State.inTurn (s : State) (tile seat : Nat) : Bool :=
  let rank := fun n => (n + 7 - (s.tile tile).lastSeat) % 8
  (List.range 8).all (fun n => decide (rank seat ≤ rank n) || !s.surelyReady tile n)

/-- Whether a seat may issue (R184, R185, R226): READY or STALLED, or HALTED with a step granted or debug control off, and no other seat's turn. (DEDUCED: log 31) -/
def State.mayIssue (s : State) (tile seat : Nat) (x : Seat) : Bool :=
  (((x.st == .ready || x.st == .stalled) && !s.dbgHolds tile seat x) ||
    (x.st == .halted && (x.steps != 0 || s.fld tile CC_DBG_CTRL_EN == 0))) && s.inTurn tile seat

/-- The seat's next instruction (R180, R184, R198): none when no trick holds the tile, the seat cannot issue, or its PC has passed the program
range. -/
def State.issue (s : State) (tile seat : Nat) : Option Issue :=
  let t := s.tile tile
  let x := t.seat seat
  match t.trick with
  | none => none
  | some c =>
    if s.mayIssue tile seat x ∧ c.first ≤ x.pc ∧ x.pc ≤ c.last ∧ seat < 8 then
      some ⟨tile, seat, x, c, (Sparse.get (0 : W64) t.prog x.pc).toNat, x.pc⟩
    else none

/-- A scalar register's value as a number. -/
def Issue.reg (i : Issue) (r : Nat) : Nat := (i.x.reg r).toNat

/-- The instruction waits: a source register's write is outstanding, or a queue is full (R184, R186, R188). -/
def State.stall (s : State) (i : Issue) : State :=
  s.setTile i.tile ((s.tile i.tile).setSeat i.seat { i.x with st := .stalled })

/-- Whether any of the registers an instruction reads still waits for an earlier write (R186). -/
def Issue.blocked (i : Issue) (rs : List Nat) : Bool := i.x.due.any (fun w => rs.contains w.1)

/-- The instruction waits while a register it reads still waits for an earlier write of the seat (R186). -/
def State.readyOr (s : State) (i : Issue) (rs : List Nat) (f : State) : State := if i.blocked rs then s.stall i else f

/-- Counting down to the tagged instruction and capturing it (R622). -/
def Tile.tagStep (t : Tile) (trick pc seat insn : Nat) : Tile :=
  match t.tag with
  | .armed 0 => { t with tag := .held trick pc seat insn }
  | .armed (n + 1) => { t with tag := .armed n }
  | _ => t

/-- The cycles from an instruction's issue to its seat's next dependent issue, where they are fixed (R187, R214, R224); `taken` says that a branch is taken. -/
def fixedLatency (insn : Nat) (taken : Bool) : Nat :=
  match opcOf insn with
  | 0x01 => if [0x0E, 0x0F, 0x10].contains (bits insn 37 6) then 3 else 1
  | 0x02 => if [0x0E, 0x0F, 0x10].contains (bits insn 42 6) then 3 else 1
  | 0x05 => 4
  | 0x08 => 2
  | 0x10 => if taken || bits insn 0 16 == 1 then 3 else 1
  | 0x11 => 3
  | 0x12 => 3
  | 0x19 => if bits insn 54 4 = 3 then 6 else 1
  | _ => 1

/-- A cycle in which a seat issues passes (R185): every seat's latencies run on, and the issuer's new one begins. -/
def Tile.lagStep (t : Tile) (seat latency : Nat) : Sparse Nat :=
  (List.range 8).foldl (fun m n =>
    let left := Sparse.get 0 t.lag n - 1
    Sparse.set 0 m n (if n = seat then max left (latency - 1) else left)) []

/-- The seat after its instruction has issued: its PC, READY (HALTED again after a debug step, once its wait is over where it waits), the tile's last issuer, the
counts (R185, R225, R226, R610). `f` makes the instruction's own change to the seat. -/
def State.issued (s : State) (i : Issue) (pc : Nat) (f : Seat → Seat) : State :=
  let t := (s.tile i.tile).tagStep i.c.trick i.pc i.seat i.insn
  let x := f { i.x with st := if i.x.steps = 0 then .ready else .halted, steps := i.x.steps - 1, stop := i.x.steps != 0, pc := pc }
  ((s.setTile i.tile { (t.setSeat i.seat x) with lastSeat := i.seat, lag := t.lagStep i.seat (fixedLatency i.insn (pc != i.pc + 1)) }).incFld i.tile CC_RETIRED_RETIRED 1).count
    { unit := srvTile i.tile, event := 0x02, prov := i.c.prov, master := some 2 }

/-- The instruction raises an exception (R218, R219). -/
def State.except (s : State) (i : Issue) (cause : Nat) (info addr : Nat := 0) : State :=
  s.trap i.tile i.seat i.pc i.insn false ⟨cause, info, addr⟩

/-- Causes of R218. -/
def IX_ILLEGAL : Nat := 32
def IX_ALIGN : Nat := 33
def IX_RANGE : Nat := 34
def IX_PC : Nat := 35
def IX_CSR : Nat := 36
def IX_SEAT : Nat := 37
def IX_DEADLOCK : Nat := 38
def IX_GSYNC : Nat := 39
def IX_TRAP : Nat := 40

/-- A seat's instruction with the given opcode: `f` gives its effect; a command that names another instruction than the seat's next one
is no event, and the state stays as it is. (DESIGN CHOICE: log 27) -/
def onIssue (tile seat opc : Nat) (s : State) (f : Issue → State) : Res :=
  if tile < 4224 ∧ seat < 8 then
    match s.issue tile seat with
    | some i => if opcOf i.insn = opc then .next (f i) else .next s
    | none => .next s
  else .fault .noSuchUnit

/-- The first exception of a list of checks, each a condition and its cause (R675). (DEDUCED: log 41) -/
def firstExc : List (Bool × Nat) → Option Nat
  | [] => none
  | (b, c) :: r => if b then some c else firstExc r

/-- Completion counters count one event, 32 bits wide (R205). -/
def inc32 (n : Nat) : Nat := (n + 1) % 2 ^ 32

/-- A waiting seat goes on: READY, or HALTED where the instruction that waited was a debug step (R225). -/
def Seat.goOn (x : Seat) : Seat := { x with st := if x.stop then .halted else .ready, wait := .none, stop := false }

/-- A seat that waits in SWAIT leaves it when the counter has reached its target (R206). -/
def Seat.wake (x : Seat) : Seat :=
  match x.wait with
  | .swait ctr target =>
    let v := if ctr = 0 then x.arrDone else if ctr = 1 then x.vecDone else if ctr = 2 then x.crrDone else x.talDone
    if target ≤ v then x.goOn else x
  | _ => x

/-- One array event of a seat is counted. -/
def Tile.countArr (t : Tile) (seat : Nat) : Tile := t.setSeat seat ({ (t.seat seat) with arrDone := inc32 (t.seat seat).arrDone }).wake
/-- One vector instruction of a seat is counted. -/
def Tile.countVec (t : Tile) (seat : Nat) : Tile := t.setSeat seat ({ (t.seat seat) with vecDone := inc32 (t.seat seat).vecDone }).wake
/-- One courier transfer of a seat is counted. -/
def Tile.countCrr (t : Tile) (seat : Nat) : Tile := t.setSeat seat ({ (t.seat seat) with crrDone := inc32 (t.seat seat).crrDone }).wake
/-- One Talon instruction of a seat is counted. -/
def Tile.countTal (t : Tile) (seat : Nat) : Tile := t.setSeat seat ({ (t.seat seat) with talDone := inc32 (t.seat seat).talDone }).wake

/-- The outstanding write of a register is made, unless a later instruction of the seat has written the register; a stalled seat may issue
again (R186). -/
def Seat.arrive (x : Seat) (rd seq : Nat) (v : W64) : Seat :=
  let x := { (if x.st = .stalled then { x with st := .ready } else x) with due := x.due.erase (rd, seq) }
  if Sparse.get none x.busy rd = some seq then x.setReg rd v else x

/-- Flags of the array (R86) from a list of events. -/
def State.arrFlags (s : State) (tile mask : Nat) : State :=
  if mask = 0 then s else s.setReg tile TILE_ARR_FLAGS (s.reg tile TILE_ARR_FLAGS ||| BitVec.ofNat 64 mask)

/-- Flags of the vector engine (R177). -/
def State.vecFlags (s : State) (tile mask : Nat) : State :=
  if mask = 0 then s else s.setReg tile VEC_FLAGS (s.reg tile VEC_FLAGS ||| BitVec.ofNat 64 mask)

end Sys2Proof.Machine
end

