-- ==== Sys2Proof/Machine/VecDecode.lean ====
section
/-! DEFINITION. Decoding of vector instructions (R148, R155, R164–R166, R171), of LD and ST (R194) and of array commands (R74–R77), and the
sheet-store and tile-register spans each of them reads and writes (for R71, R152, R174, R295). -/
namespace Sys2Proof.Machine

/-- The fields of the shared vector layout (R148). -/
structure VecFields where
  opc : Nat
  fn : Nat
  count : Nat
  kd : Nat
  sd : Nat
  ka : Nat
  sa : Nat
  kb : Nat
  sb : Nat
  kc : Nat
  sc : Nat
  rm : Nat
  sat : Bool
  opt : Nat
deriving DecidableEq, Repr

def VecFields.of (i : Nat) : VecFields :=
  ⟨opcOf i, bits i 52 6, bits i 39 13, bits i 36 3, bits i 31 5, bits i 28 3, bits i 23 5, bits i 20 3, bits i 15 5, bits i 12 3,
   bits i 7 5, bits i 5 2, bitAt i 4, bits i 0 4⟩

/-- Rows and columns of the region form of COUNT (R155). -/
def VecFields.nr (f : VecFields) : Nat := bits f.count 6 5 + 1
def VecFields.nc (f : VecFields) : Nat := bits f.count 0 6 + 1

/-- An operand of a vector instruction (R141): its kind and the word taken at issue. -/
structure Opnd where
  kind : Nat
  word : Nat
deriving DecidableEq, Repr

/-- The span of `n` elements of a stream, scales apart (R143). -/
def streamSpans (x : StreamWord) (nib n : Nat) : List Span :=
  if x.gstride = 0 then [⟨x.base, x.base + ceilDiv (n * nib) 2⟩]
  else (List.range (ceilDiv n 64)).map (fun g =>
    let lo := x.base + g * x.gstride * 16
    ⟨lo, lo + ceilDiv (min 64 (n - 64 * g) * nib) 2⟩)

/-- The span of the block scales of `n` elements (R143). -/
def scaleSpan (x : StreamWord) (f : Fmt) (n : Nat) : List Span :=
  if f.bs then [⟨x.sbase, x.sbase + ceilDiv n 32⟩] else []

/-- The sheet-store bytes an operand of `n` elements occupies. -/
def Opnd.sheetSpans (o : Opnd) (s : State) (p n : Nat) : List Span :=
  if o.kind = 1 then
    let x := StreamWord.of o.word
    match s.fmtOf p x.fmt with
    | some f => streamSpans x f.nib n ++ scaleSpan x f n
    | none => []
  else []

/-- The tile-register entries an operand of `n` elements occupies (R144). -/
def Opnd.tregSpans (o : Opnd) (n : Nat) : List Span :=
  let x := TregWord.of o.word
  if o.kind = 2 then [⟨x.elem 0, x.elem 0 + n⟩]
  else if o.kind = 4 then (List.range (ceilDiv n 64)).map (fun g => ⟨tregIdx x.reg (x.row + g) x.col, tregIdx x.reg (x.row + g) x.col + 1⟩)
  else if o.kind = 5 then [⟨tregIdx x.reg x.row 0, tregIdx x.reg x.row 0 + min n 64⟩]
  else []

/-- The entries of a region of `nr` rows and `nc` columns from column `c` (R155). -/
def regionSpans (w c nr nc : Nat) : List Span :=
  let x := TregWord.of w
  (List.range nr).map (fun i => ⟨tregIdx x.reg (x.row + i) c, tregIdx x.reg (x.row + i) c + nc⟩)

/-- Four spans: sheet reads, sheet writes, tile-register reads, tile-register writes. -/
structure Spans where
  sr : List Span := []
  sw : List Span := []
  tr : List Span := []
  tw : List Span := []
deriving DecidableEq, Repr

/-- Word `i` of a queued command. -/
def wordAt (ws : List Nat) (i : Nat) : Nat := ws.getD i 0

/-- Where the results of a VRED go (R156): in the shape of AXIS, from the entry a TREG word names. -/
def vredSpans (k w axis nr nc : Nat) : List Span :=
  if k = 2 then
    let x := TregWord.of w
    if axis = 0 then regionSpans w x.col nr 1
    else if axis = 1 then [⟨tregIdx x.reg x.row x.col, tregIdx x.reg x.row x.col + nc⟩]
    else [⟨tregIdx x.reg x.row x.col, tregIdx x.reg x.row x.col + 1⟩]
  else []

/-- The element-program header (R165). -/
structure VepHead where
  nops : Nat
  nin : Nat
  nout : Nat
  kin : List Nat
  kout : List Nat
  outs : List Nat
  dsite : Nat
  consts : List Nat
  rsv : Bool
deriving DecidableEq, Repr

/-- A program's bytes as a little-endian number. (DEDUCED: log 33) -/
def VepHead.of (prog : Nat) : VepHead :=
  let w0 := bits prog 0 32
  ⟨bits w0 0 5 + 1, bits w0 5 3, bits w0 8 2, [bits w0 10 3, bits w0 13 3, bits w0 16 3, bits w0 19 3], [bits w0 22 3, bits w0 25 3],
   [bits prog 32 4, bits prog 36 4], bits prog 64 32,
   [bits prog 128 32, bits prog 160 32, bits prog 192 32, bits prog 224 32],
   bits w0 28 4 != 0 || bits prog 40 24 != 0 || bits prog 96 32 != 0⟩

/-- The micro-operation word `j` of a program (R166). -/
def vepOp (prog j : Nat) : Nat := bits prog (256 + 32 * j) 32

/-- The operands of a VEP in its operand block (R164): inputs and outputs with the kinds of the header. Words: program address,
s[OB] to s[OB + 6], program bytes. (DESIGN CHOICE: log 163) -/
def vepIns (ws : List Nat) : List Opnd :=
  let h := VepHead.of (wordAt ws 8)
  (List.range h.nin).map (fun i => ⟨wordAt h.kin i, wordAt ws (1 + i)⟩)
def vepOuts (ws : List Nat) : List Opnd :=
  let h := VepHead.of (wordAt ws 8)
  (List.range h.nout).map (fun i => ⟨wordAt h.kout i, wordAt ws (5 + i)⟩)

/-- The bytes of one quad, or of one part of an X3 quad, that begins at `lo`: row by row where the rows lie apart (R67, R75). -/
def OpWord.quadAt (o : OpWord) (nib lo : Nat) : List Span :=
  if o.pitch = 0 then [⟨lo, lo + 128 * nib⟩] else (List.range 16).map (fun r => ⟨lo + r * o.pitch, lo + r * o.pitch + 8 * nib⟩)

/-- The spans of quads of VQL and VQS (R171, R172). -/
def quadSpans (o : OpWord) (nib n : Nat) : List Span := (List.range n).flatMap (fun j => o.quadAt nib (o.base + j * o.qstep))

/-- The entries of quad slot `q` of register `r`, row by row. -/
def slotSpans (r q : Nat) : List Span :=
  (List.range 16).map (fun row => ⟨slotIdx r q row 0, slotIdx r q row 0 + 16⟩)

/-- The slot of quad `j` of a VQL or VQS (R172). -/
def qSlot (w j : Nat) : Nat × Nat := (slotReg w + (slotQ w + j) / 8, (slotQ w + j) % 8)

/-- The address of an LD or ST (R194). -/
def ldAddr (base insn : Nat) : Nat := unsigned 64 ((base : Int) + signed 21 (bits insn 0 21))

/-- What an entry of the vector queue reads and writes. Words: VOP layout [D, A, B, C]; VEP as above; VQL, VQS [operand word, slot word];
LD [address]; ST [address, value]. (DESIGN CHOICE: log 29) -/
def VecCmd.spans (v : VecCmd) (s : State) (p : Nat) : Spans :=
  let f := VecFields.of v.insn
  let w := wordAt v.words
  match opcOf v.insn with
  | 0x28 =>
    let n := f.count + 1
    let ins : List Opnd := [⟨f.ka, w 1⟩, ⟨f.kb, w 2⟩, ⟨f.kc, w 3⟩]
    let d : Opnd := ⟨f.kd, w 0⟩
    ⟨ins.flatMap (fun o => o.sheetSpans s p n), d.sheetSpans s p n, ins.flatMap (fun o => o.tregSpans n), d.tregSpans n⟩
  | 0x29 =>
    ⟨[], [], regionSpans (w 1) 0 f.nr f.nc, vredSpans f.kd (w 0) (f.opt % 4) f.nr f.nc ++ vredSpans f.kb (w 2) (f.opt % 4) f.nr f.nc⟩
  | 0x2A =>
    ⟨[], [], regionSpans (w 1) 0 f.nr f.nc,
     regionSpans (w 0) 0 f.nr f.nc ++ (if f.kc = 2 then regionSpans (w 3) (TregWord.of (w 3)).col f.nr 2 else [])⟩
  | 0x2B =>
    ⟨[], [], regionSpans (w 1) 0 f.nr f.nc ++ (if f.kb = 2 then regionSpans (w 2) 0 f.nr f.nc else []) ++
       regionSpans (w 3) (TregWord.of (w 3)).col f.nr 4,
     regionSpans (w 0) 0 f.nr f.nc ++ regionSpans (w 3) (TregWord.of (w 3)).col f.nr 2⟩
  | 0x2C =>
    let n := bits v.insn 35 13 + 1
    let ins := vepIns v.words
    let outs := vepOuts v.words
    ⟨⟨w 0, w 0 + 32 + 4 * (VepHead.of (w 8)).nops⟩ :: ins.flatMap (fun o => o.sheetSpans s p n), outs.flatMap (fun o => o.sheetSpans s p n),
     ins.flatMap (fun o => o.tregSpans n), outs.flatMap (fun o => o.tregSpans n)⟩
  | 0x2D | 0x2E =>
    let nib := ((s.fmtOf p (bits v.insn 53 5)).map Fmt.nib).getD 4
    let qn := bits v.insn 39 3 + 1
    let sheet := quadSpans (OpWord.of (w 0)) nib qn
    let tr := (List.range qn).flatMap (fun j => slotSpans (qSlot (w 1) j).1 (qSlot (w 1) j).2)
    if opcOf v.insn = 0x2D then ⟨sheet, [], [], tr⟩ else ⟨[], sheet, tr, []⟩
  | 0x06 => ⟨[⟨w 0, w 0 + 2 ^ bits v.insn 46 2⟩], [], [], []⟩
  | 0x07 => ⟨[], [⟨w 0, w 0 + 2 ^ bits v.insn 46 2⟩], [], []⟩
  | _ => {}

/-- Array commands' fields (R74, R76, R77): bank, pair flag, format code. -/
def acAcc (i : Nat) : Nat := bits i 56 2
def acPair (i : Nat) : Bool := bitAt i 55
def acFmt (i : Nat) : Nat := bits i 48 5

/-- The banks a command acts on (R83). -/
def acBanks (i : Nat) : List Nat := if acPair i then [acAcc i, acAcc i + 1] else [acAcc i]

/-- The half-byte container of an array operand. -/
def acNib (s : State) (p code : Nat) : Nat := if code = 18 then 4 else ((s.fmtOf p code).map Fmt.nib).getD 4

/-- The sheet spans of `nq` quads of an array operand, X3 parts included (R75). -/
def opSpans (o : OpWord) (nib nq : Nat) (x3 : Bool) : List Span :=
  (List.range nq).flatMap (fun q =>
    let lo := o.base + q * o.qstep
    (List.range (if x3 then 3 else 1)).flatMap (fun k => o.quadAt nib (lo + o.part k)))

/-- What an array command reads and writes. Words: MXM [A, B, S]; MXD [D]; MXL [source]. (DESIGN CHOICE: log 29) -/
def ArrCmd.spans (a : ArrCmd) (s : State) (p : Nat) : Spans :=
  let w := wordAt a.words
  match opcOf a.insn with
  | 0x20 =>
    let nq := bits a.insn 16 12 + 1
    let fb := bits a.insn 43 5
    let blk : List Span :=
      (if ((s.fmtOf p (acFmt a.insn)).map Fmt.bs).getD false then [⟨bits (w 2) 0 21, bits (w 2) 0 21 + 8 * nq⟩] else []) ++
      (if ((s.fmtOf p fb).map Fmt.bs).getD false then [⟨bits (w 2) 32 21, bits (w 2) 32 21 + 8 * nq⟩] else [])
    ⟨opSpans (OpWord.of (w 0)) (acNib s p (acFmt a.insn)) nq (acFmt a.insn == 18) ++
     opSpans (OpWord.of (w 1)) (acNib s p fb) nq (fb == 18) ++ blk, [], [], []⟩
  | 0x21 =>
    if acFmt a.insn = 24 then ⟨[], [], [], slotSpans (slotReg (w 0)) (slotQ (w 0))⟩
    else ⟨[], opSpans (OpWord.of (w 0)) 4 1 (acFmt a.insn == 18), [], []⟩
  | 0x22 =>
    if acFmt a.insn = 24 then ⟨[], [], slotSpans (slotReg (w 0)) (slotQ (w 0)), []⟩
    else ⟨opSpans (OpWord.of (w 0)) 4 1 (acFmt a.insn == 18), [], [], []⟩
  | _ => {}

end Sys2Proof.Machine
end

