-- ==== Sys2Proof/Machine/Guard.lean ====
section
/-! DEFINITION. The tile courier's instruction fields (R285, R286), the sheet-store side of a transfer (R287, R288, R290), and the tile's
address scoreboards (R71, R174, R295, R296): which accesses of an engine must wait for an earlier command of the tile. -/
namespace Sys2Proof.Machine

/-- The fields of a CXFR and of its descriptor block (R285, R286). -/
structure Cx where
  cr : Nat
  store : Bool
  ob : Nat
  fm : Nat
  fs : Nat
  tr : Bool
  rm : Nat
  sat : Bool
  sexp : Int
  maddr : Nat
  sbase : Nat
  spitch : Nat
  qr : Nat
  qc : Nat
  mstride : Nat
  mscale : Nat
  sscale : Nat
deriving DecidableEq, Repr

/-- From the instruction word and the five scalar words taken at issue. -/
def Cx.of (i : Nat) (w : List Nat) : Cx :=
  let g := wordAt w
  { cr := bits i 57 1, store := bitAt i 56, ob := bits i 51 5, fm := bits i 46 5, fs := bits i 41 5, tr := bitAt i 40, rm := bits i 38 2,
    sat := bitAt i 37, sexp := signed 8 (bits i 29 8), maddr := bits (g 0) 0 48, sbase := bits (g 1) 0 21, spitch := bits (g 1) 21 12 * 16,
    qr := bits (g 2) 0 12 + 1, qc := bits (g 2) 12 12 + 1, mstride := bits (g 2) 24 32 * 64, mscale := bits (g 3) 0 48,
    sscale := bits (g 4) 0 21 }

/-- Sheet quad rows and quad columns (exchanged when TR = 1, R287). -/
def Cx.sqr (x : Cx) : Nat := if x.tr then x.qc else x.qr
def Cx.sqc (x : Cx) : Nat := if x.tr then x.qr else x.qc

/-- The half-byte container of a side's format; X3 parts are BF16 (R288). -/
def sideNib (s : State) (p code : Nat) : Nat := if code = 18 then 4 else ((s.fmtOf p code).map Fmt.nib).getD 4

/-- Whether a side's format is block scaled. -/
def sideBs (s : State) (p code : Nat) : Bool := ((s.fmtOf p code).map Fmt.bs).getD false

/-- The bytes of one quad of a side: 256 containers, three parts for X3. -/
def quadBytes (nib : Nat) (x3 : Bool) : Nat := if x3 then 1536 else 128 * nib

/-- The sheet-store bytes of the elements of a transfer. -/
def Cx.sheetSpans (x : Cx) (nib : Nat) (x3 : Bool) : List Span :=
  if x.spitch ≠ 0 then
    (List.range ((if x3 then 48 else 16) * x.sqr)).map (fun r => ⟨x.sbase + r * x.spitch, x.sbase + r * x.spitch + 8 * x.sqc * nib⟩)
  else [⟨x.sbase, x.sbase + x.sqr * x.sqc * quadBytes nib x3⟩]

/-- The sheet-store bytes of the scales of a transfer (R290). -/
def Cx.scaleSpans (x : Cx) (bs : Bool) : List Span :=
  if bs then [⟨x.sscale, x.sscale + 8 * x.sqc * x.sqr⟩] else []

/-- Every sheet-store byte of a transfer. -/
def Xfer.sheet (x : Xfer) (s : State) (p : Nat) : List Span :=
  let c := Cx.of x.insn x.words
  c.sheetSpans (sideNib s p c.fs) (c.fs == 18) ++ c.scaleSpans (sideBs s p c.fs)

/-- Spans widened to whole sheet-store words (R71 and R295 speak of words). -/
def wordSpans (l : List Span) : List Span := l.map (fun x => ⟨x.lo / 16 * 16, (x.hi + 15) / 16 * 16⟩)

/-- Two sets of sheet-store bytes share a word. -/
def sameWord (a b : List Span) : Bool := spansMeet (wordSpans a) (wordSpans b)

/-- The array commands of a tile that have not completed. -/
def Tile.arrPending (t : Tile) : List ArrCmd := t.fly ++ t.aq

/-- The transfers of a tile that have not completed. -/
def Tile.xfers (t : Tile) : List Xfer := t.tc0 ++ t.tc1

/-- Whether an access with the given spans, of the command with sequence number `seq`, would overtake an earlier command of the tile: an
earlier write to a word it reads or writes (R71), a LOAD still outstanding (R295), a STORE that has not yet read a word it writes (R296),
or an array command whose tile-register side is still to come (R174). (DESIGN CHOICE: log 29) -/
def State.overtakes (s : State) (tile p seq : Nat) (x : Spans) : Bool :=
  let t := s.tile tile
  let rw := x.sr ++ x.sw
  let trw := x.tr ++ x.tw
  t.arrPending.any (fun a => decide (a.seq < seq) &&
    (let y := a.spans s p
     sameWord y.sw rw || spansMeet y.tw trw || spansMeet y.tr x.tw)) ||
  t.vq.any (fun v => decide (v.seq < seq) &&
    (let y := v.spans s p; sameWord y.sw rw || spansMeet y.tw trw || spansMeet y.tr x.tw)) ||
  t.xfers.any (fun c => decide (c.seq < seq) &&
    (if (Cx.of c.insn c.words).store then sameWord (c.sheet s p) x.sw else sameWord (c.sheet s p) rw))

/-- The province of the trick on a tile, 0 with none. -/
def State.provOf (s : State) (tile : Nat) : Nat := ((s.tile tile).trick.map TrickCtx.prov).getD 0

/-- The store of an ST (R194, R196): the low bytes of its value, little-endian. -/
def State.doStore (s : State) (tile : Nat) (v : VecCmd) : State :=
  let a := wordAt v.words 0
  s.sheetWrite tile ((leBytes (2 ^ bits v.insn 46 2) (wordAt v.words 1)).zipIdx.map (fun b => (a + b.2, b.1)))

/-- STs at the head of the vector queue are made when the scoreboards let them (R71, R196): after whatever they waited for is complete, too.
The number bounds how many. -/
def State.drainStores (s : State) (tile : Nat) : Nat → State
  | 0 => s
  | f + 1 =>
    let t := s.tile tile
    match t.vq with
    | v :: rest =>
      if opcOf v.insn = 0x07 ∧ !s.overtakes tile (s.provOf tile) v.seq (v.spans s (s.provOf tile)) then
        ((s.setTile tile { t with vq := rest }).doStore tile v).drainStores tile f
      else s
    | [] => s

end Sys2Proof.Machine
end

