-- ==== Sys2Proof/Machine/ArrayMath.lean ====
section
/-! DEFINITION. The arithmetic of the matrix array: operand elements and products (R59–R65), the group accumulate (R111–R117), paired
accumulation (R127, R128), drains (R76, R129) and loads (R77). -/
namespace Sys2Proof.Machine

/-- An operand element: its value, the three parts of an X3 element, whether its block scale is 0xFF, and its integer reading. -/
structure OpEl where
  v : Val
  hi : Val := .zero
  mid : Val := .zero
  lo : Val := .zero
  scaleNan : Bool := false
deriving DecidableEq, Repr

/-- An X3 element all of whose parts are zero. -/
def OpEl.allZero (a : OpEl) : Bool := a.hi.isZero && a.mid.isZero && a.lo.isZero

/-- Products per slice of a format class (R59): 2, 4 or 8 values of k; X3 2. -/
def sliceK (f : Option Fmt) : Nat :=
  match f with
  | none => 2
  | some f => if f.width > 8 then 2 else if f.width > 4 then 4 else 8

/-- The product of two elements (R61–R63, R65); the flags it raises. An element of a block whose scale is 0xFF is a NaN operand (R110). -/
def cellProd (x3 : Bool) (a b : OpEl) : Val × Nat :=
  if a.scaleNan || b.scaleNan then (.nan, AF_SCALE_NAN ||| AF_NAN_IN)
  else if a.v.isNan || b.v.isNan then (.nan, AF_NAN_IN)
  else
    let p := a.v.mul b.v
    if x3 && !(a.v.isInf || b.v.isInf || a.allZero || b.allZero) then
      ((((((a.hi.mul b.hi).add (a.hi.mul b.mid)).add (a.mid.mul b.hi)).add (a.hi.mul b.lo)).add (a.lo.mul b.hi)).add (a.mid.mul b.mid), 0)
    else (p, flagIf p.isNan AF_NV)

/-- The exact sum of a slice's products over an accumulator value, NaN on infinities of both signs with NV (R65, R112). -/
def groupSum (acc : Val) (ps : List Val) : Val × Nat :=
  let both := ps.any (fun p => p == .inf true) && ps.any (fun p => p == .inf false)
  let g := ps.foldl Val.add (match ps with | [] => .zero | p :: _ => Val.zero.withSign p.neg)
  let nv := both || (match acc, g with | .inf a, .inf b => a != b | _, _ => false)
  (ps.foldl Val.add acc, flagIf nv AF_NV)

/-- How a group rounds (R114): the mode for group number `g`. -/
def groupSR (round thresh g : Nat) : Bool := round == 2 || (round == 1 && thresh != 0 && decide (g > thresh))

/-- One group in an FP32 bank that is not paired (R111). -/
def accFp (acc : W32) (ps : List Val) (rnd : Rnd) : W32 × Nat :=
  let r := groupSum (f32 acc) ps
  match r.1 with
  | .nan => (nan32, r.2)
  | .inf n => (if n then 0xFF800000#32 else 0x7F800000#32, r.2)
  | v => let q := round32 rnd v; (q.1, r.2 ||| flagIf q.2.ovf AF_OF)

/-- One group in an INT32 bank: exact, saturating (R64). -/
def accInt (acc : W32) (ps : List Int) : W32 × Nat :=
  let t := ps.foldl (· + ·) acc.toInt
  if t < -(2 ^ 31) then (0x80000000#32, AF_SAT) else if t > 2 ^ 31 - 1 then (0x7FFFFFFF#32, AF_SAT)
  else (BitVec.ofInt 32 t, 0)

/-- One group in a pair of banks (R127, R128): h, l and the flags. -/
def accPair (h l : W32) (ps : List Val) : W32 × W32 × Nat :=
  let t := groupSum (f32 h) ps
  match t.1 with
  | .nan => (nan32, 0, t.2)
  | .inf n => (if n then 0xFF800000#32 else 0x7F800000#32, 0, t.2)
  | v =>
    let h1 := round32 .rne v
    if h1.2.ovf then (h1.1, 0, t.2 ||| AF_OF)
    else
      let l1 := round32 .rne ((f32 l).add (v.sub (f32 h1.1)))
      if l1.2.ovf then (l1.1, 0, t.2 ||| AF_OF) else (h1.1, l1.1, t.2)

/-- The scale of block `b` for index `i` of an operand (R75). -/
def Tile.scaleByte (t : Tile) (base b i : Nat) : Nat := (t.byte (base + 16 * b + i)).toNat

/-- The elements of quad `q` of an array operand, row by row as stored; `kRow` says that k runs down the stored rows, which picks the block
scale of each element (R63, R75). -/
def Tile.quadEls (t : Tile) (o : OpWord) (code : Nat) (f : Option Fmt) (sbase q : Nat) (kRow : Bool) : Array OpEl :=
  ((List.range 256).map (fun i =>
    let r := i / 16
    let c := i % 16
    match f with
    | some f =>
      let e := t.elem f.nib (o.pos f.nib q r c)
      if f.bs then
        let k := 16 * q + (if kRow then r else c)
        let x := t.scaleByte sbase (k / 32) (if kRow then c else r)
        ({ v := f.mxDecode x e, scaleNan := x == 0xFF } : OpEl)
      else { v := f.decode e }
    | none =>
      let part := fun k => t.elem 4 (o.pos 4 q r c + 2 * o.part k)
      if code = 18 then
        { v := x3Val (part 0) (part 1) (part 2), hi := Fmt.bf16.decode (part 0), mid := Fmt.bf16.decode (part 1),
          lo := Fmt.bf16.decode (part 2) }
      else { v := .nan })).toArray

/-- An integer element's value. -/
def Val.toInt : Val → Int | .fin n m e => Val.over 0 (.fin n m e) | _ => 0

/-- The state of a bank (or pair) while an MXM runs: the entries, the second entries of a pair, the group count, the flags. -/
structure BankRun where
  a : Array W32
  b : Array W32
  g : Nat
  fl : Nat
deriving DecidableEq, Repr

/-- What a slice needs to know besides its products. -/
structure SliceCtx where
  int : Bool
  paired : Bool
  x3 : Bool
  round : Nat
  thresh : Nat
  key : Quad4
  trick : Nat
  site : Nat
deriving Repr

/-- One slice: every cell absorbs its products (R66, R111–R117). `ea m k` and `eb k n` are the operand elements. -/
def BankRun.slice (x : BankRun) (c : SliceCtx) (ks : List Nat) (ea : Nat → Nat → OpEl) (eb : Nat → Nat → OpEl) : BankRun :=
  let g := satAdd (2 ^ 32 - 1) x.g 1
  let long := !c.int && !c.paired && c.thresh != 0 && g == c.thresh + 1
  let cells := (List.range 256).map (fun i =>
    let m := i / 16
    let n := i % 16
    let ps := ks.map (fun k => cellProd c.x3 (ea m k) (eb k n))
    let fl := ps.foldl (fun f p => f ||| p.2) 0
    if c.int then
      let r := accInt (x.a.getD i 0) (ks.map (fun k => (ea m k).v.toInt * (eb k n).v.toInt))
      (r.1, (0 : W32), r.2)
    else if c.paired then
      let r := accPair (x.a.getD i 0) (x.b.getD i 0) (ps.map Prod.fst)
      (r.1, r.2.1, r.2.2 ||| fl)
    else
      let rnd := if groupSR c.round c.thresh g then Rnd.sr (compass16 c.key c.trick c.site g i) else .rne
      let r := accFp (x.a.getD i 0) (ps.map Prod.fst) rnd
      (r.1, (0 : W32), r.2 ||| fl))
  { a := (cells.map Prod.fst).toArray, b := (cells.map (fun q => q.2.1)).toArray, g := g,
    fl := cells.foldl (fun f q => f ||| q.2.2) (x.fl ||| flagIf long AF_LONGSUM) }

/-- The entries of a bank as an array. -/
def Bank.arr (b : Bank) : Array W32 := ((List.range 256).map (fun i => Sparse.get 0 b.cells i)).toArray

/-- Entries as a bank's cells. -/
def cellsOf (a : Array W32) : Sparse W32 :=
  (List.range 256).filterMap (fun i => let v := a.getD i 0; if v = 0 then none else some (i, v))

/-- The key of a draw by a trick's engines (R119, R120): the device's rank, 0 in a province of one rank. -/
def State.trickKey (s : State) (c : TrickCtx) (domain : Nat) : Quad4 :=
  compassKey (s.reg c.prov PROV_SR_SEED).toNat domain (b01 c.pro) (if c.nranks ≤ 1 then 0 else c.rank) c.step

/-- Compass values that the array consumes: every cell of the quad one, for each rounding under SR (R122). -/
def State.arrDraws (s : State) (tile p n : Nat) : State :=
  if n = 0 then s else s.count { unit := srvTile tile, event := 0x0C, n := 256 * n, prov := p, master := some 0 }

/-- The groups `g0 + 1` to `g1` of a bank that round under SR (R112). -/
def srGroups (a : ArrCmd) (int : Bool) (g0 g1 : Nat) : Nat :=
  if int ∨ acPair a.insn then 0 else ((List.range (g1 - g0)).filter (fun i => groupSR a.round a.thresh (g0 + 1 + i))).length

/-- An MXM over its quads (R59, R60, R66, R74). -/
def State.runMxm (s : State) (tile : Nat) (c : TrickCtx) (a : ArrCmd) : State :=
  let t := s.tile tile
  let acc := acAcc a.insn
  let ba := t.bank acc
  let bb := t.bank (acc + 1)
  let fac := acFmt a.insn
  let fbc := bits a.insn 43 5
  let fa := if fac = 18 then none else s.fmtOf c.prov fac
  let fb := if fbc = 18 then none else s.fmtOf c.prov fbc
  let ta := bitAt a.insn 54
  let tb := bitAt a.insn 53
  let w := wordAt a.words
  let oa := OpWord.of (w 0)
  let ob := OpWord.of (w 1)
  let kk := min (sliceK fa) (sliceK fb)
  let ctx : SliceCtx := ⟨ba.int, acPair a.insn, fac == 18, a.round, a.thresh, s.trickKey c 1, c.trick, ba.site⟩
  let x0 : BankRun := ⟨ba.arr, bb.arr, ba.g, 0⟩
  let x := (List.range (bits a.insn 16 12 + 1)).foldl (fun x q =>
    let ea := t.quadEls oa fac fa (bits (w 2) 0 21) q ta
    let eb := t.quadEls ob fbc fb (bits (w 2) 32 21) q (!tb)
    (List.range (16 / kk)).foldl (fun x j =>
      x.slice ctx ((List.range kk).map (fun i => j * kk + i))
        (fun m k => ea.getD (if ta then 16 * k + m else 16 * m + k) ⟨.nan, .nan, .nan, .nan, false⟩)
        (fun k n => eb.getD (if tb then 16 * n + k else 16 * k + n) ⟨.nan, .nan, .nan, .nan, false⟩)) x) x0
  let t' := t.setBank acc { ba with g := x.g, cells := cellsOf x.a }
  let t' := if acPair a.insn then t'.setBank (acc + 1) { bb with g := x.g, cells := cellsOf x.b } else t'
  ((s.arrDraws tile c.prov (srGroups a ba.int ba.g x.g)).setTile tile t').arrFlags tile x.fl

/-- What a drain writes for one entry (R76, R129): the codes of its parts (one, or three for X3) and the flags. (DEDUCED: log 40) -/
def drainCell (fd : Nat) (sat : Bool) (int paired : Bool) (rnd : Rnd) (h l : W32) : List Nat × Nat :=
  let v : Val := if int then Val.ofInt false h.toInt 0 else if paired then (f32 h).add (f32 l) else f32 h
  let nar := fun (f : Fmt) => let r := f.narrow rnd sat v; ([r.1], drainFlags r.2)
  match fd with
  | 16 => nar .bf16
  | 17 => nar .f16
  | 18 =>
    let x := x3Split (if int then f32 (rne32 v) else v)
    ([x.1, x.2.1, x.2.2],
      flagIf (!v.isNan && !v.isInf && !v.isZero && x.1 % 2 ^ 15 == 0 && x.2.1 % 2 ^ 15 == 0 && x.2.2 % 2 ^ 15 == 0) AF_DUF)
  | _ =>
    if int then ([(rne32 v).toNat], 0)
    else if paired then nar .f32
    else ([(canon32 h).toNat], 0)

/-- The value an MXL puts in an entry from the codes of the source element (R77). -/
def loadCell (fl : Nat) (p0 p1 p2 : Nat) : W32 :=
  match fl with
  | 16 => canon32 (rne32 (Fmt.bf16.decode p0))
  | 17 => canon32 (rne32 (Fmt.f16.decode p0))
  | 18 => canon32 (rne32 (x3Val p0 p1 p2))
  | _ => canon32 (BitVec.ofNat 32 p0)

end Sys2Proof.Machine
end

