-- ==== Sys2Proof/Machine/Array.lean ====
section
/-! DEFINITION. The matrix array's commands (spec file 03): issue checks and queueing of MXM, MXD, MXL and MXZ, and the events of the array
queue. -/
namespace Sys2Proof.Machine

/-- The newest drain that is reading a bank (R79, R81); the drains of one bank complete in their order. -/
def Tile.drainer (t : Tile) (i : Nat) : Option ArrCmd :=
  t.fly.reverse.find? (fun a => opcOf a.insn == 0x21 && a.acted && (acBanks a.insn).contains i)

/-- A bank once the drains that read it have ended (R76, R80): FREE after KEEP = 0, else claimed. -/
def Tile.drained (t : Tile) (i : Nat) : Bank :=
  match t.drainer i with
  | some a => if (t.bank i).st != .draining then t.bank i else if bitAt a.insn 53 then { (t.bank i) with st := .claimed } else Bank.init
  | none => t.bank i

/-- The state of a bank once a command that has not acted yet has run (R78, R81): a drain with KEEP = 0 leaves it FREE, MXZ and MXL claim it. -/
def projStep (banks : Nat → Bank) (a : ArrCmd) : Nat → Bank := fun i =>
  if (acBanks a.insn).contains i then
    match opcOf a.insn with
    | 0x21 => if bitAt a.insn 53 then { (banks i) with st := .claimed } else Bank.init
    | 0x22 => { st := .claimed, owner := a.seat, int := false, paired := acPair a.insn }
    | 0x23 => { st := .claimed, owner := a.seat, int := bitAt a.insn 54, paired := acPair a.insn }
    | _ => banks i
  else banks i

/-- The bank states that an issue check sees. -/
def Tile.projBank (t : Tile) : Nat → Bank := (t.arrPending.filter (fun a => !a.acted)).foldl projStep t.drained

/-- Whether an operand format is an integer format for R60. -/
def isIntCode (c : Nat) : Bool := c == 19 || c == 20

/-- A format code that an array multiplication may name (R73, R87). -/
def State.mxmCode (s : State) (p c : Nat) : Bool := c == 18 || (s.fmtOf p c).isSome

/-- A format code of MXD and MXL (R76, R77). -/
def drainCode (c : Nat) : Bool := c == 16 || c == 17 || c == 18 || c == 24

/-- The bank checks of MXM and MXD (R81, R83, R87): AX_FREE, AX_OWNER, AX_PAIR. -/
def useChecks (b : Bank) (seat acc : Nat) (pair : Bool) : List (Bool × Nat) :=
  [(b.st == .free, 6), (b.owner != seat, 7), ((pair && (acc % 2 == 1 || b.int)) || pair != b.paired, 8)]

/-- The bank checks of MXZ and MXL: a FREE bank may be claimed; a claimed one only by its owner and in its pairing. (DEDUCED: log 32) -/
def claimChecks (proj : Nat → Bank) (seat acc : Nat) (pair int : Bool) : List (Bool × Nat) :=
  let bs := if pair then [proj acc, proj (acc + 1)] else [proj acc]
  [(bs.any (fun b => b.st != .free && b.owner != seat), 7),
   ((pair && (acc % 2 == 1 || int)) || bs.any (fun b => b.st != .free && (b.paired != pair)), 8)]

/-- Whether a word's reserved bits are 0 as an array operand word. -/
def opRsvOk (code w : Nat) : Bool := if code = 24 then slotRsv w == 0 else (OpWord.of w).rsv == 0

/-- MXM's checks after IX_ILLEGAL, in the order of R675. (DEDUCED: log 32) -/
def State.mxmChecks (s : State) (i : Issue) : List (Bool × Nat) :=
  let p := i.c.prov
  let b := (s.tile i.tile).projBank (acAcc i.insn)
  let fa := acFmt i.insn
  let fb := fieldOf i.insn 43 5
  let oa := OpWord.of (i.reg (fieldOf i.insn 38 5))
  let ob := OpWord.of (i.reg (fieldOf i.insn 33 5))
  let ss := i.reg (fieldOf i.insn 28 5)
  let nq := fieldOf i.insn 16 12 + 1
  let bsA := sideBs s p fa && fa != 18
  let bsB := sideBs s p fb && fb != 18
  let int := isIntCode fa
  [(!(s.mxmCode p fa && s.mxmCode p fb), 1),
   (isIntCode fa != isIntCode fb || (fa == 18) != (fb == 18) || (b.st != .free && b.int != int), 2),
   (oa.base % 16 != 0 || ob.base % 16 != 0 || oa.qstep % 16 != 0 || ob.qstep % 16 != 0, 3),
   (decide (oa.stop (acNib s p fa) nq (fa == 18) > sheetSize) || decide (ob.stop (acNib s p fb) nq (fb == 18) > sheetSize) ||
     (bsA && decide (bits ss 0 21 + 16 * ceilDiv nq 2 > sheetSize)) || (bsB && decide (bits ss 32 21 + 16 * ceilDiv nq 2 > sheetSize)), 4),
   ((bsA || bsB) && nq % 2 == 1, 5)] ++ useChecks b i.seat (acAcc i.insn) (acPair i.insn)

/-- The checks of an operand word of MXD or MXL (R87): AX_FMT, AX_ALIGN, AX_RANGE. (DESIGN CHOICE: log 170) -/
def quadChecks (code w : Nat) : List (Bool × Nat) :=
  let o := OpWord.of w
  [(!drainCode code, 1), (code != 24 && o.base % 16 != 0, 3),
   (code != 24 && decide (o.stop 4 1 (code == 18) > sheetSize), 4)]

/-- A command enters the array queue (R78); a full queue stalls the seat before any check of the command is made (R188). (DEDUCED: log 31) -/
def State.arrIssue (s : State) (i : Issue) (regs : List Nat) (illegal : Bool) (checks : List (Bool × Nat)) (site : Bool) : State :=
  let t := s.tile i.tile
  if i.blocked regs ∨ 4 ≤ t.aq.length then s.stall i
  else if illegal then s.except i IX_ILLEGAL
  else match firstExc checks with
  | some c => s.except i c
  | none =>
      let cmd : ArrCmd := ⟨i.seat, t.seq, i.insn, regs.map i.reg, siteWord i.seat i.x.site,
        s.fld i.tile TILE_ACC_CTRL_LONGSUM_THRESH, s.fld i.tile TILE_ACC_CTRL_ACC_ROUND, false, [], []⟩
      let s := s.setTile i.tile { t with aq := t.aq ++ [cmd], seq := t.seq + 1 }
      s.issued i (i.pc + 1) (fun x => if site then { x with site := x.site + 1 } else x)

/-- An array command as issue sees it: the registers it reads, whether IX_ILLEGAL holds, its exception checks in order and whether it takes a
rounding site (R87, R121, R145, R674, R675). -/
structure ArrForm where
  regs : List Nat
  illegal : Bool
  checks : List (Bool × Nat)
  site : Bool
  deriving DecidableEq, Repr

/-- Issue of an array command of that form. -/
def State.arrForm (s : State) (i : Issue) (q : ArrForm) : State := s.arrIssue i q.regs q.illegal q.checks q.site

/-- What MXM reads and is checked for at issue (R74, R75, R87). (DESIGN CHOICE: log 169) -/
def State.mxmForm (s : State) (i : Issue) : ArrForm :=
  let scaled := sideBs s i.c.prov (acFmt i.insn) || sideBs s i.c.prov (fieldOf i.insn 43 5)
  let ss := i.reg (fieldOf i.insn 28 5)
  ⟨[fieldOf i.insn 38 5, fieldOf i.insn 33 5, fieldOf i.insn 28 5],
    fieldOf i.insn 0 16 != 0 || (OpWord.of (i.reg (fieldOf i.insn 38 5))).rsv != 0 ||
      (OpWord.of (i.reg (fieldOf i.insn 33 5))).rsv != 0 || (scaled && (bits ss 21 11 != 0 || bits ss 53 11 != 0)),
    s.mxmChecks i, false⟩

/-- What MXD reads and is checked for at issue (R75, R76, R87); it is a rounding site whatever its RND bit (R121). -/
def State.mxdForm (s : State) (i : Issue) : ArrForm :=
  let w := i.reg (fieldOf i.insn 43 5)
  ⟨[fieldOf i.insn 43 5], fieldOf i.insn 0 41 != 0 || !opRsvOk (acFmt i.insn) w,
    quadChecks (acFmt i.insn) w ++ useChecks ((s.tile i.tile).projBank (acAcc i.insn)) i.seat (acAcc i.insn) (acPair i.insn), true⟩

/-- What MXL reads and is checked for at issue (R75, R77, R87). -/
def State.mxlForm (s : State) (i : Issue) : ArrForm :=
  let w := i.reg (fieldOf i.insn 43 5)
  ⟨[fieldOf i.insn 43 5], bitAt i.insn 53 || fieldOf i.insn 0 43 != 0 || !opRsvOk (acFmt i.insn) w,
    quadChecks (acFmt i.insn) w ++ claimChecks (s.tile i.tile).projBank i.seat (acAcc i.insn) (acPair i.insn) false, true⟩

/-- What MXZ is checked for at issue (R77, R87). -/
def State.mxzForm (s : State) (i : Issue) : ArrForm :=
  ⟨[], fieldOf i.insn 0 54 != 0, claimChecks (s.tile i.tile).projBank i.seat (acAcc i.insn) (acPair i.insn) (bitAt i.insn 54), true⟩

/-- MXM (R74): the seat issues a multiply-accumulate. -/
def execMxm (tile seat : Nat) (s : State) : Res := onIssue tile seat 0x20 s (fun i => s.arrForm i (s.mxmForm i))

/-- MXD (R76): the seat issues a drain. -/
def execMxd (tile seat : Nat) (s : State) : Res := onIssue tile seat 0x21 s (fun i => s.arrForm i (s.mxdForm i))

/-- MXL (R77): the seat issues a load into a bank. -/
def execMxl (tile seat : Nat) (s : State) : Res := onIssue tile seat 0x22 s (fun i => s.arrForm i (s.mxlForm i))

/-- MXZ (R77): the seat issues a zero and claim. -/
def execMxz (tile seat : Nat) (s : State) : Res := onIssue tile seat 0x23 s (fun i => s.arrForm i (s.mxzForm i))

/-- Whether an earlier command in flight that has not acted yet holds a bank of this one (R79: commands act in queue order). -/
def heldBy (fly : List ArrCmd) (a : ArrCmd) : Bool :=
  fly.any (fun x => !x.acted && opcOf x.insn != 0x20 && decide (x.seq < a.seq) && (acBanks x.insn).any (fun b => (acBanks a.insn).contains b))

/-- Whether products of an earlier MXM to a bank of this command are still on their way (R82). -/
def inFence (fly : List ArrCmd) (a : ArrCmd) : Bool :=
  fly.any (fun x => opcOf x.insn == 0x20 && decide (x.seq < a.seq) && (acBanks x.insn).any (fun b => (acBanks a.insn).contains b))

/-- An MXD reads its bank (R76, R129): the results wait for MXD_COMPLETE, the bank is DRAINING. -/
def State.actMxd (s : State) (tile : Nat) (c : TrickCtx) (a : ArrCmd) : State × ArrCmd :=
  let t := s.tile tile
  let acc := acAcc a.insn
  let bk := t.bank acc
  let b2 := t.bank (acc + 1)
  let fd := acFmt a.insn
  let td := bitAt a.insn 54
  let key := s.trickKey c 2
  let w := wordAt a.words 0
  let o := OpWord.of w
  let cells := (List.range 256).map (fun i =>
    let rnd := if bitAt a.insn 42 then Rnd.sr (compass16 key c.trick a.site 0 i) else .rne
    let r := drainCell fd (bitAt a.insn 41) bk.int bk.paired rnd (Sparse.get 0 bk.cells i) (Sparse.get 0 b2.cells i)
    let row := if td then i % 16 else i / 16
    let col := if td then i / 16 else i % 16
    (row, col, r.1, r.2))
  let sheet := if fd = 24 then [] else cells.flatMap (fun q => q.2.2.1.zipIdx.flatMap (fun pc =>
    let a0 := o.pos 4 0 q.1 q.2.1 / 2 + o.part pc.2
    (leBytes 2 pc.1).zipIdx.map (fun b => (a0 + b.2, b.1))))
  let treg := if fd = 24 then cells.map (fun q => (slotIdx (slotReg w) (slotQ w) q.1 q.2.1, BitVec.ofNat 32 (q.2.2.1.headD 0))) else []
  let t' := (acBanks a.insn).foldl (fun t b => t.setBank b { (t.bank b) with st := .draining }) t
  (((s.arrDraws tile c.prov (if bitAt a.insn 42 then 1 else 0)).setTile tile t').arrFlags tile (cells.foldl (fun f q => f ||| q.2.2.2) 0),
   { a with acted := true, sheetOut := sheet, tregOut := treg })

/-- An MXL fills its bank (R77, R83). -/
def State.actMxl (s : State) (tile : Nat) (a : ArrCmd) : State × ArrCmd :=
  let t := s.tile tile
  let acc := acAcc a.insn
  let fl := acFmt a.insn
  let tl := bitAt a.insn 54
  let w := wordAt a.words 0
  let o := OpWord.of w
  let vals := (List.range 256).map (fun i =>
    let r := if tl then i % 16 else i / 16
    let c := if tl then i / 16 else i % 16
    if fl = 24 then loadCell 24 (t.tr (slotIdx (slotReg w) (slotQ w) r c)).toNat 0 0
    else
      let part := fun k => t.elem 4 (o.pos 4 0 r c + 2 * o.part k)
      loadCell fl (part 0) (part 1) (part 2))
  let bk : Bank := { st := .claimed, owner := a.seat, int := false, paired := acPair a.insn, g := 0, site := a.site, cells := cellsOf vals.toArray }
  let t' := t.setBank acc bk
  let t' := if acPair a.insn then t'.setBank (acc + 1) { bk with cells := [] } else t'
  let bad := fl ≠ 24 ∧ (opSpans o 4 1 (fl == 18)).any (fun x => t.readBad x.lo (x.hi - x.lo))
  if bad then (s.tileFault tile, a) else (s.setTile tile t', { a with acted := true })

/-- An MXZ zeroes and claims its bank (R77). -/
def State.actMxz (s : State) (tile : Nat) (a : ArrCmd) : State × ArrCmd :=
  let t := s.tile tile
  let bk : Bank := { st := .claimed, owner := a.seat, int := bitAt a.insn 54, paired := acPair a.insn, g := 0, site := a.site }
  (s.setTile tile ((acBanks a.insn).foldl (fun t b => t.setBank b bk) t), { a with acted := true })

/-- A command that is not an MXM acts on its bank. -/
def State.actArr (s : State) (tile : Nat) (c : TrickCtx) (a : ArrCmd) : State × ArrCmd :=
  match opcOf a.insn with
  | 0x21 => s.actMxd tile c a
  | 0x22 => s.actMxl tile a
  | _ => s.actMxz tile a

/-- Put a command back in flight under its sequence number. -/
def Tile.setFly (t : Tile) (a : ArrCmd) : Tile :=
  { t with fly := t.fly.map (fun x => if x.seq = a.seq then a else x) }

/-- Whether the reads of an array command must wait for an earlier write of the tile (R71, R174, R295); the writes of an MXD wait at
MXD_COMPLETE. -/
def State.arrWaits (s : State) (tile p : Nat) (a : ArrCmd) : Bool :=
  let x := a.spans s p
  s.overtakes tile p a.seq { x with sw := [], tw := [] }

/-- ARRAY_COMMAND_START (R79): the head of the queue begins once its bank conditions hold; an MXM reads its operands, an MXD, MXL or MXZ
acts at once unless the drain fence holds it. (DESIGN CHOICE: log 28) -/
def execArrayCommandStart (tile : Nat) (s : State) : Res :=
  onTile tile (
    let t := s.tile tile
    match t.trick, t.aq with
    | some c, a :: rest =>
      if heldBy t.fly a || s.arrWaits tile c.prov a then s
      else
        let s1 := s.setTile tile { t with aq := rest, fly := t.fly ++ [a] }
        if opcOf a.insn = 0x20 then
          let x := a.spans s c.prov
          if x.sr.any (fun r => t.readBad r.lo (r.hi - r.lo)) then s1.tileFault tile else s1.runMxm tile c a
        else if inFence t.fly a then s1
        else
          let r := s1.actArr tile c a
          r.1.setTile tile ((r.1.tile tile).setFly r.2)
    | _, _ => s)

/-- DRAIN_FENCE_END (R82): the first command held by the fence acts on its bank. -/
def execDrainFenceEnd (tile : Nat) (s : State) : Res :=
  onTile tile (
    let t := s.tile tile
    match t.trick, t.fly.find? (fun a => opcOf a.insn != 0x20 && !a.acted) with
    | some c, some a =>
      if s.arrWaits tile c.prov a then s
      else
        let r := s.actArr tile c a
        r.1.setTile tile ((r.1.tile tile).setFly r.2)
    | _, _ => s)

/-- Take the command with a sequence number out of flight. -/
def Tile.dropFly (t : Tile) (a : ArrCmd) : Tile := { t with fly := t.fly.filter (fun x => x.seq != a.seq) }

/-- MXM_COMPLETE (R79): the last slice is in the bank and ARRDONE counts the MXM. (DESIGN CHOICE: log 28) -/
def execMxmComplete (tile : Nat) (s : State) : Res :=
  onTile tile (
    let t := s.tile tile
    match t.fly.find? (fun a => opcOf a.insn == 0x20) with
    | some a => s.setTile tile ((t.dropFly a).countArr a.seat)
    | none => s)

/-- MXD_COMPLETE (R79): the drain's words are written, the bank becomes FREE or stays claimed, ARRDONE counts the MXD. (DESIGN CHOICE: log 28) -/
def execMxdComplete (tile : Nat) (s : State) : Res :=
  onTile tile (
    let t := s.tile tile
    match t.trick, t.fly.find? (fun a => opcOf a.insn == 0x21 && a.acted) with
    | some c, some a =>
      if s.overtakes tile c.prov a.seq (a.spans s c.prov) then s
      else
        let t1 := (acBanks a.insn).foldl (fun t b => if (t.drainer b).map ArrCmd.seq = some a.seq then t.setBank b (t.drained b) else t) t
        let t2 := ((t1.dropFly a).putTregs a.tregOut).countArr a.seat
        ((s.setTile tile t2).sheetWrite tile a.sheetOut).drainStores tile 8
    | _, _ => s)

/-- BANK_READY (R79): an MXL or MXZ has its bank ready and ARRDONE counts it. -/
def execBankReady (tile : Nat) (s : State) : Res :=
  onTile tile (
    let t := s.tile tile
    match t.fly.find? (fun a => (opcOf a.insn == 0x22 || opcOf a.insn == 0x23) && a.acted) with
    | some a => s.setTile tile ((t.dropFly a).countArr a.seat)
    | none => s)

end Sys2Proof.Machine
end

