-- ==== Sys2Proof/Machine/Quads.lean ====
section
/-! DEFINITION. Blocks of quads: the two layouts of R287 and R290 and the conversion of a block from one side to another (R288, R289, R291),
shared by tile couriers and chains. -/
namespace Sys2Proof.Machine

/-- One side of a transfer: format, place of the elements and of the block scales. -/
structure Side where
  fmt : Fmt
  x3 : Bool
  base : Nat
  pitch : Nat
  qstride : Nat
  qcols : Nat
  scale : Nat
  scaleQuad : Bool
deriving DecidableEq, Repr

/-- Half bytes of an element's container. -/
def Side.nib (d : Side) : Nat := if d.x3 then 4 else d.fmt.nib

/-- Half-byte position of part `k` of element (r, c): pitched rows, or quads (R287, R288). -/
def Side.pos (d : Side) (k r c : Nat) : Nat :=
  if d.pitch ≠ 0 then 2 * (d.base + (if d.x3 then 48 * (r / 16) + 16 * k + r % 16 else r) * d.pitch) + c * d.nib
  else 2 * (d.base + r / 16 * d.qstride + c / 16 * quadBytes d.nib d.x3 + 512 * k) + (16 * (r % 16) + c % 16) * d.nib

/-- The address of the scale of element (r, c) (R290). -/
def Side.scaleAt (d : Side) (r c : Nat) : Nat :=
  let nb := d.qcols / 2
  if d.scaleQuad then d.scale + 16 * (nb * (r / 16) + c / 32) + r % 16 else d.scale + r * nb + c / 32

/-- An element code at a half-byte position. -/
def codeAt (rd : Nat → Byte) (nib pos : Nat) : Nat :=
  if nib = 1 then (rd (pos / 2)).toNat / 16 ^ (pos % 2) % 16
  else if nib = 2 then (rd (pos / 2)).toNat
  else (rd (pos / 2)).toNat + 256 * (rd (pos / 2 + 1)).toNat

/-- The codes of an element: one, or three parts of an X3 element; unused bits of a container are ignored (R93). (DEDUCED: log 39) -/
def Side.codes (d : Side) (rd : Nat → Byte) (r c : Nat) : List Nat :=
  if d.x3 then [0, 1, 2].map (fun k => codeAt rd 4 (d.pos k r c)) else [codeAt rd d.nib (d.pos 0 r c) % 2 ^ d.fmt.width]

/-- The value of an element (R103, R110). (DEDUCED: log 37) -/
def Side.val (d : Side) (rd : Nat → Byte) (r c : Nat) : Val :=
  match d.codes rd r c with
  | [h, m, l] => x3Val h m l
  | [x] => if d.fmt.bs then f32 (rne32 (d.fmt.mxDecode (rd (d.scaleAt r c)).toNat x)) else d.fmt.decode x
  | _ => .zero

/-- How a transfer converts. -/
structure Conv where
  tr : Bool
  copy : Bool
  zero : Bool
  rm : Nat
  sat : Bool
  sexp : Int
deriving DecidableEq, Repr

/-- The writes of the codes of one destination row from column `c0`; two half-byte elements share a byte (R93). -/
def Side.rowWrites (d : Side) (k r c0 : Nat) (codes : List Nat) : List (Nat × Byte) :=
  if d.nib = 1 then
    (List.range (codes.length / 2)).map (fun j =>
      (d.pos k r (c0 + 2 * j) / 2, BitVec.ofNat 8 (codes.getD (2 * j) 0 % 16 + codes.getD (2 * j + 1) 0 % 16 * 16)))
  else codes.zipIdx.flatMap (fun x => (leBytes (d.nib / 2) x.1).zipIdx.map (fun b => (d.pos k r (c0 + x.2) / 2 + b.2, b.1)))

/-- One row of a destination: its values are converted by R289 (copied when formats agree and SEXP is 0), or encoded in blocks of 32 (R109). (DEDUCED: log 36, 37, 39) -/
def convRow (x : Conv) (src dst : Side) (rd : Nat → Byte) (draw : Nat → Nat) (scols dcols r : Nat) : List (Nat × Byte) :=
  let at_ := fun c => if x.tr then (c, r) else (r, c)
  let rnd := fun c => let p := at_ c
    if x.rm = 2 then Rnd.sr (draw (p.1 * scols + p.2)) else if x.rm = 1 then .rz else .rne
  let val := fun c => let p := at_ c; if x.zero then Val.zero else (src.val rd p.1 p.2).scale x.sexp
  if dst.fmt.bs && !dst.x3 then
    (List.range (dcols / 32)).flatMap (fun b =>
      let cs := (List.range 32).map (fun i => 32 * b + i)
      let keep := x.copy && !x.tr && !x.zero && rd (src.scaleAt r (32 * b)) != 0xFF
      let e := dst.fmt.mxEncode (cs.map (fun c => (val c, rnd c)))
      let codes := if keep then cs.map (fun c => if (val c).isNan then dst.fmt.nanCode else (src.codes rd r c).headD 0) else e.2.1
      let sc := if keep then rd (src.scaleAt r (32 * b)) else BitVec.ofNat 8 e.1
      (dst.scaleAt r (32 * b), sc) :: dst.rowWrites 0 r (32 * b) codes)
  else
    let codes := fun c => let p := at_ c
      if x.zero then (if dst.x3 then [0, 0, 0] else [0])
      else if x.copy then
        (if (val c).isNan then (if dst.x3 then [Fmt.bf16.nanCode, 0, 0] else [dst.fmt.nanCode]) else src.codes rd p.1 p.2)
      else [(dst.fmt.narrow (rnd c) x.sat (val c)).1]
    let rows := (List.range dcols).map codes
    (List.range (if dst.x3 then 3 else 1)).flatMap (fun k => dst.rowWrites k r 0 (rows.map (fun l => l.getD k 0)))

/-- The byte writes of a whole block of `rows` × `cols` source elements. (DESIGN CHOICE: log 38) -/
def convBlock (x : Conv) (src dst : Side) (rd : Nat → Byte) (draw : Nat → Nat) (rows cols : Nat) : List (Nat × Byte) :=
  let dr := if x.tr then cols else rows
  let dc := if x.tr then rows else cols
  (List.range dr).flatMap (fun r => convRow x src dst rd draw cols dc r)

end Sys2Proof.Machine
end

