-- ==== Sys2Proof/Machine/Gazetteer.lean ====
section
/-! DEFINITION. The Gazetteer's tables (R261–R264): three levels of 512 entries in the steward area of a province's first channel, and the caches of translations; the slot tables of
the channels (R32, R267). -/
namespace Sys2Proof.Machine

/-- `build_table` of R267: the 256 entries (CLASS << 8) | PROV of a channel's slot table; every usable slot is the steward's where no province owns the channel. -/
def SlotShare.table (x : SlotShare) : List Nat :=
  let g := ceilDiv 256 (max 1 x.period)
  let u := 256 - g
  let s := ceilDiv u 64
  let p := u - s
  let nw := p * x.w / 16
  let nm := p * x.m / 16
  let part := fun (n q : Nat) => n / 4 + (if q < n % 4 then 1 else 0)
  let short := (List.range 4).any (fun q => part s q != 0 && decide (10 * (part s q * (250 * x.period)) < 88 * 256))
  let stw := fun (q : Nat) => if short then (if q = 3 then s else 0) else part s q
  let quarter := fun (q : Nat) =>
    List.replicate (part (p - nw - nm) q) x.prov ++ List.replicate (part nw q) (0x100 + x.prov) ++ List.replicate (part nm q) (0x200 + x.prov) ++
      List.replicate (stw q) 0
  (if x.prov = 0 then List.replicate u 0 else (List.range 4).flatMap quarter) ++ List.replicate g 0x0300

/-- The slot table of a channel (R267). -/
def State.chanTable (s : State) (c : Nat) : List Nat :=
  let x := Sparse.get SlotShare.free s.memc.slots c
  if x.prov = 0 then { x with period := s.fld 0 MER_TICK_PERIOD_PERIOD }.table else x.table

/-- Whether a channel's slot table has a slot of a class for a province (R33, R34, R266). -/
def State.hasSlot (s : State) (c cls p : Nat) : Bool := (s.chanTable c).contains (cls * 256 + p)

/-- The first byte of a channel's steward area (R259). -/
def stewardArea (c : Nat) : Nat := c * chanSize + 785920 * 2048

/-- A page that a leaf maps (R263): its first PVA, the province physical offset it names, whether it is 1 GiB or 2 MiB, and whether it is writable. -/
structure Leaf where
  va : Nat
  ppo : Nat
  big : Bool
  w : Bool
deriving DecidableEq, Repr

/-- The pages of one region, from its first PVA (a multiple of 1 GiB) and offset on (R263): 1 GiB where the offset is aligned and the whole page lies in the region. -/
def leavesOf (va ppo len : Nat) (w : Bool) : List Leaf :=
  (List.range (ceilDiv len (2 ^ 30))).flatMap (fun i =>
    let o := i * 2 ^ 30
    if o + 2 ^ 30 ≤ len ∧ (ppo + o) % 2 ^ 30 = 0 then [⟨va + o, ppo + o, true, w⟩]
    else (List.range ((min len (o + 2 ^ 30) - o) / 2 ^ 21)).map (fun j => ⟨va + o + j * 2 ^ 21, ppo + o + j * 2 ^ 21, false, w⟩))

/-- The pages of a province: DATA from offset 0 on, and ATLAS over the top bytes, read-only (R261, R263). -/
def Prov.leaves (p : Prov) : List Leaf := leavesOf 0 0 p.dataD true ++ leavesOf atlasBase (p.space - p.atlasA) p.atlasA false

/-- Numbers without repeats, in order of first appearance. -/
def distinct (l : List Nat) : List Nat := l.foldl (fun m x => if m.contains x then m else m ++ [x]) []

/-- The table entries of a province's pages, each with its DPA, when the level-1 table lies at `root`: the level-2 tables follow it, and then the level-3 tables (R263). (DESIGN CHOICE: log 57) -/
def Prov.tables (p : Prov) (root : Nat) : List (Nat × Nat) :=
  let l := p.leaves
  let l2 := distinct (l.map (fun x => x.va / 2 ^ 39))
  let l3 := distinct ((l.filter (fun x => !x.big)).map (fun x => x.va / 2 ^ 30))
  let at2 := fun k => root + 4096 * (1 + l2.idxOf k)
  let at3 := fun k => root + 4096 * (1 + l2.length + l3.idxOf k)
  l2.map (fun k => (root + 8 * (k % 512), at2 k + 1)) ++ l3.map (fun k => (at2 (k / 512) + 8 * (k % 512), at3 k + 1)) ++
  l.map (fun x => (if x.big then at2 (x.va / 2 ^ 39) + 8 * (x.va / 2 ^ 30 % 512) else at3 (x.va / 2 ^ 30) + 8 * (x.va / 2 ^ 21 % 512), x.ppo + 3 + 4 * b01 x.w))

/-- The DPA of a province's level-1 table. (DEDUCED: log 56) -/
def State.tableRoot (s : State) (p : Nat) : Nat := s.fld 0 (GZT_ROOT_ADDR p) * 4096

/-- The steward-area tables of a province's first channel are cleared (R276); copies of granules under repair stay (R279). -/
def State.clearTables (s : State) (p : Nat) : State :=
  let a := stewardArea ((s.prov p).chans.getD 0 0)
  let own := fun (x : Nat) => decide (a ≤ x) && decide (x < a + 2 ^ 20) && !s.errs.rows.any (fun r => r.copy == x / 2048 * 2048)
  { s with mem := Sparse.drop own s.mem, poison := Sparse.drop (fun w => own (64 * w)) s.poison }

/-- The steward writes a province's tables (R261, R262). -/
def State.buildTables (s : State) (p : Nat) : State :=
  let s := s.clearTables p
  s.mwrite (((s.prov p).tables (s.tableRoot p)).flatMap (fun e =>
    ((leBytes 8 e.2).zipIdx.filter (fun b => b.1 != 0)).map (fun b => (e.1 + b.2, b.1))))

/-- A page as a walk finds it: its first PVA, its bytes, the offset it names, and whether it is writable. -/
structure Page where
  va : Nat
  size : Nat
  ppo : Nat
  w : Bool
deriving DecidableEq, Repr

/-- The tables from the one at `t` on, with `n` levels below it (R263). -/
def State.walkFrom (s : State) (va : Nat) : Nat → Nat → Option Page
  | n, t =>
    let size := 2 ^ (21 + 9 * n)
    let e := ofLE ((List.range 8).map (fun i => s.mbyte (t + 8 * (va / size % 512) + i)))
    if !bitAt e 0 then none
    else match n with
    | 0 => if bitAt e 1 then some ⟨va / size * size, size, bits e 12 28 * 4096, bitAt e 2⟩ else none
    | k + 1 => if bitAt e 1 then (if k = 0 then some ⟨va / size * size, size, bits e 12 28 * 4096, bitAt e 2⟩ else none) else s.walkFrom va k (bits e 12 28 * 4096)

/-- The page that maps a PVA, by a walk of the province's tables (R263, R264); none where it is unmapped. (DEDUCED: log 56) -/
def State.walk (s : State) (p va : Nat) : Option Page :=
  if s.fld 0 (GZT_ROOT_V p) = 0 ∨ 2 ^ 48 ≤ va then none else s.walkFrom va 2 (s.tableRoot p)

/-- The table words that a walk reads (R264): one to a level. -/
def State.walkWords (s : State) (p va : Nat) : List Nat :=
  let e := fun t k => ofLE ((List.range 8).map (fun i => s.mbyte (t + 8 * k + i)))
  let r := s.tableRoot p
  let t2 := bits (e r (va / 2 ^ 39 % 512)) 12 28 * 4096
  let t3 := bits (e t2 (va / 2 ^ 30 % 512)) 12 28 * 4096
  [(r + 8 * (va / 2 ^ 39 % 512)) / 64, (t2 + 8 * (va / 2 ^ 30 % 512)) / 64] ++ (if bitAt (e t2 (va / 2 ^ 30 % 512)) 1 then [] else [(t3 + 8 * (va / 2 ^ 21 % 512)) / 64])

/-- Entries a province may hold in a translation cache: 8 for each allocation unit on a compute die (R264), in a slice of the RDE one for each unit it has (R380). (DESIGN CHOICE: log 57) -/
def Prov.xlatRoom (p : Prov) (die : Nat) : Nat := if die < 8 then 8 * (p.units.filter (fun u => u.1 == die)).length else p.units.length

/-- A province's cached translations are invalidated (R262, R276). -/
def State.dropXlat (s : State) (p : Nat) : State :=
  { s with memc := { s.memc with xlat := Sparse.drop (fun k => k % 256 == p) s.memc.xlat } }

end Sys2Proof.Machine
end

