-- ==== Sys2Proof/Machine/Windows.lean ====
section
/-! DEFINITION. Fault windows (R594), memory events (R278) and the repair of an HBM row (R279–R281). -/
namespace Sys2Proof.Machine

/-- The table of a kind has room for a new unit, or drops first an entry that holds a single event (R594). -/
def winRoom (k : WinKind) (l : List FaultWin) : List FaultWin :=
  if (l.filter (fun w => w.kind == k)).length < 4096 then l
  else match l.findIdx? (fun w => w.kind == k && w.times.length == 1) with
  | some i => l.eraseIdx i
  | none => match l.findIdx? (fun w => w.kind == k) with
    | some i => l.eraseIdx i
    | none => l

/-- Events on a unit at time `now` (R594): the windows after them, and whether the fault is lasting: the oldest of the last LIMIT times lies
within the window. A LIMIT of 0 is treated as 1. -/
def winEvent (l : List FaultWin) (k : WinKind) (unit now limit window : Nat) : List FaultWin × Bool :=
  let lim := max 1 limit
  match l.find? (fun w => w.kind == k && w.unit == unit) with
  | some w =>
    let ts := (now :: w.times).take lim
    (l.map (fun x => if x.kind = k ∧ x.unit = unit then { x with times := ts } else x),
     decide (ts.length = lim) && (match ts.getLast? with | some o => decide (now ≤ o + window) | none => false))
  | none => (winRoom k l ++ [⟨k, unit, [now]⟩], decide (lim = 1))

/-- An event is counted in its window. (DESIGN CHOICE: log 61) -/
def State.winHit (s : State) (k : WinKind) (unit limit window : Nat) : State × Bool :=
  let r := winEvent s.errs.wins k unit s.frameTime limit window
  ({ s with errs := { s.errs with wins := r.1 } }, r.2)

/-- Nanoseconds in a minute. (DESIGN CHOICE: log 61) -/
def nsMin : Nat := 60000000000

/-- The compute die of a channel (R10, R254): three stacks to a pair of dies, port A to the even one. -/
def dieOfChan (c : Nat) : Nat := 2 * (c / 96) + (if c % 32 < 16 then 0 else 1)

/-- The granule of a DPA: its first byte (R257). -/
def granuleOf (dpa : Nat) : Nat := dpa / 2048 * 2048

/-- The channel and bank of a granule (R257). -/
def bankOf (dpa : Nat) : Nat × Nat := (chanOf dpa, dpa % chanSize / 2048 % 48)

/-- Where a DPA lies in its channel once the remap table has been looked up (R281): the latest entry of its granule sends it to a granule of the remap pool (R259). -/
def State.dram (s : State) (dpa : Nat) : Nat :=
  match (Sparse.get [] s.memc.remap (chanOf dpa)).reverse.find? (fun e => e.1 == granuleOf dpa) with
  | some e => chanOf dpa * chanSize + (785408 + e.2) * 2048 + dpa % 2048
  | none => dpa

/-- A granule's bytes, poisoned words included, are copied to another granule (R279). -/
def State.copyGranule (s : State) (src dst : Nat) : State :=
  { s with mem := (s.mem.filter (fun e => granuleOf e.1 == src)).foldl (fun m e => Sparse.set 0 m (dst + e.1 % 2048) e.2) (Sparse.drop (fun k => granuleOf k == dst) s.mem),
           poison := (s.poison.filter (fun e => granuleOf (64 * e.1) == src)).foldl (fun m e => Sparse.set false m ((dst + 64 * e.1 % 2048) / 64) e.2)
             (Sparse.drop (fun k => granuleOf (64 * k) == dst) s.poison) }

/-- Where the next copy of a granule lies (R279): from the end of the channel's steward area downward. (DESIGN CHOICE: log 57) -/
def State.copyPlace (s : State) (c : Nat) : Nat :=
  let at' := fun i => c * chanSize + (786431 - i) * 2048
  at' (((List.range 64).find? (fun i => !s.errs.rows.any (fun r => r.copy == at' i))).getD 63)

/-- A lasting row fault: the steward holds the row's granule and copies it into the steward area (R279). -/
def State.rowRepair (s : State) (dpa : Nat) : State :=
  let g := granuleOf dpa
  if s.errs.rows.any (fun r => r.granule == g) then s
  else
    let place := s.copyPlace (chanOf dpa)
    (({ s with errs := { s.errs with rows := s.errs.rows ++ [(⟨g, place⟩ : RowFix)] } }).copyGranule g place).setFld (chanOf dpa) MEM_STATUS_HOLD 1

/-- A memory event counts against the row that holds its word (R278); a lasting fault starts the repair. -/
def State.rowEvent (s : State) (dpa n : Nat) (lasting : Bool) : State × Bool :=
  let c := chanOf dpa
  let r := (List.range (max 1 n)).foldl (fun (x : State × Bool) _ =>
    let y := x.1.winHit .row (granuleOf (s.dram dpa) / 2048) (s.fld c MEM_ROW_WIN_LIMIT) (s.fld c MEM_ROW_WIN_WINDOW_MIN * nsMin)
    (y.1, x.2 || y.2)) (s, lasting)
  if r.2 then (r.1.rowRepair dpa, true) else r

/-- Whether a granule is held by a row repair (R279). -/
def State.rowHeld (s : State) (dpa : Nat) : Bool := s.errs.rows.any (fun r => r.granule == granuleOf dpa)

/-- Whether the memory traffic of a class of a province to the given spans is served (R33, R34, R266, R276, R279): every channel of the spans has a slot of that class for the
province, and no repair holds one of their granules. -/
def State.hbmOpen (s : State) (p cls : Nat) (spans : List (Nat × Nat)) : Bool :=
  let pr := s.prov p
  spans.all (fun f => (List.range ((f.1 + f.2 - 1) / 2048 + 1 - f.1 / 2048)).all (fun i =>
    let d := pr.vdpa ((f.1 / 2048 + i) * 2048)
    s.hasSlot (chanOf d) cls p && !s.rowHeld d))

/-- The place of a byte in the copy of its granule while a repair holds it (R279). -/
def State.heldCopy (s : State) (dpa : Nat) : Option Nat := (s.errs.rows.find? (fun r => r.granule == granuleOf dpa)).map (fun r => r.copy + dpa % 2048)

/-- The steward writes bytes of a province; in a granule that a repair holds, its copy takes them too, and with it the granule's new place (R266, R279). (DESIGN CHOICE: log 155) -/
def State.stewardPut (s : State) (p va : Nat) (bs : List Byte) : State :=
  let pr := s.prov p
  let ws := bs.zipIdx.map (fun b => (pr.vdpa (va + b.2), b.1))
  s.mwrite (ws ++ ws.filterMap (fun w => (s.heldCopy w.1).map (fun a => (a, w.2))))

/-- A province's own write by PVA that no courier makes: a granule that has a slot of the class and that no repair holds takes its bytes at once; the others wait, and
so does what follows them to the same word (R266, R271, R279). (DESIGN CHOICE: log 155) -/
def State.sendWrite (s : State) (p cls : Nat) (ws : List (Nat × Byte)) : State :=
  let go := fun (w : Nat × Byte) => s.hbmOpen p cls [(w.1, 1)] && !s.memc.waits.any (fun x => x.prov == p && x.cells.any (fun c => c.1 / 64 == w.1 / 64))
  let later := ws.filter (fun w => !go w)
  let s := s.vwrite p (ws.filter go)
  if later = [] then s else { s with memc := { s.memc with waits := s.memc.waits ++ [⟨p, cls, later⟩] } }

/-- Bytes that the RDE writes at consecutive PVAs (R266, R379). -/
def State.rput (s : State) (p va : Nat) (bs : List Byte) : State := s.sendWrite p 2 (bs.zipIdx.map (fun b => (va + b.2, b.1)))

/-- An Inset read that was received is answered (R508, R509): each word as it is now, poison as poison. (DESIGN CHOICE: log 155) -/
def State.insetAnswer (s : State) (x : InsetRead) : State :=
  let s := s.count { unit := srvStw, event := 0xA3, prov := x.prov, priv := 2, master := some 7 }
  s.emit (.insetData x.fn x.off (some (s.vbytes x.prov x.va x.len)) (s.vpoison x.prov x.va x.len))

/-- The writes and Inset reads that waited are sent again, in order. (DESIGN CHOICE: log 155) -/
def State.resendWrites (s : State) : State :=
  let s := s.memc.waits.foldl (fun s x => s.sendWrite x.prov x.cls x.cells) { s with memc := { s.memc with waits := [] } }
  s.memc.insets.foldl (fun s x => if s.hbmOpen x.prov 2 [(x.va, x.len)] then ({ s with memc := { s.memc with insets := s.memc.insets.erase x } }).insetAnswer x else s) s

/-- A channel is marked FAILING (R281). (DEDUCED: log 129) -/
def State.chanFailing (s : State) (c : Nat) : State :=
  if s.memc.failing.contains c then s
  else
    let s := ({ s with memc := { s.memc with failing := c :: s.memc.failing } }).setFld c MEM_STATUS_STATE 3
    s.raise { cause := CHANNEL_FAILING, die := dieOfChan c, prov := s.fld c MEM_STATUS_PROV, unit := c, nested := true }

/-- The failing granule takes the sPPR of the bank that holds it, or an entry of the channel's remap table, which names the first granule of the pool that no entry has (R279,
R281); a channel that has used every entry, or repaired more than 64 rows within 24 h, is FAILING. (DESIGN CHOICE: log 13) -/
def State.remapRow (s : State) (g : Nat) : State :=
  let c := chanOf g
  let m := s.memc
  let at' := s.dram g
  let used := Sparse.get [] m.remap c
  let pool := ((List.range 512).find? (fun i => !used.any (fun e => e.2 == i))).getD 0
  let reps := ((c, s.frameTime) :: m.reps).filter (fun r => decide (s.frameTime ≤ r.2 + 1440 * nsMin))
  let m := { m with reps := reps }
  let s : State := if m.sppr.any (fun x => bankOf x == bankOf at') then
      ({ s with memc := { m with remap := Sparse.set [] m.remap c (if used.length < 512 then used ++ [(g, pool)] else used) } }).setFld c MEM_STATUS_REMAP_USED
        (min 512 (used.length + 1))
    else { s with memc := { m with sppr := at' :: m.sppr } }
  let s := s.noteRepair
  if s.fld c MEM_STATUS_REMAP_USED = 512 ∨ 64 < (reps.filter (fun r => r.1 == c)).length then s.chanFailing c else s

end Sys2Proof.Machine
end

