-- ==== Sys2Proof/Machine/Courier.lean ====
section
/-! DEFINITION. Tile couriers, bulk couriers with their chains, and Talons (spec file 10). -/
namespace Sys2Proof.Machine

/-- The poisoned words of the Atlas copy are copied again from the image that was loaded (R274). (DEDUCED: log 156) -/
def State.recopyAtlas (s : State) (p : Nat) (host : List (Nat × Byte)) : State :=
  let pr := s.prov p
  let bad := (List.range (pr.atlasA / 64)).filter (fun i => Sparse.get false s.poison (pr.vdpa (atlasBase + 64 * i) / 64))
  let s' := { s with free := s.free + 1 }
  s'.mwrite ((bad.flatMap (fun i => (List.range 64).map (fun j => 64 * i + j))).map (fun i => (pr.vdpa (atlasBase + i),
    if i < pr.atlasSize then ((host.find? (fun c => c.1 == pr.loadAddr + i)).map Prod.snd).getD (Config.hostByte s.free (pr.loadAddr + i)) else 0)))

/-- Poison that a reader meets in the Atlas copy is not consumed (R274): the steward copies the Atlas again and logs a CORRECTED error. (DEDUCED: log 156) -/
def State.mendAtlas (s : State) (p die : Nat) (host : List (Nat × Byte)) (spans : List (Nat × Nat)) : State :=
  if spans.any (fun f => (s.prov p).region f.1 == .atlas && s.vpoison p f.1 f.2) then
    (s.recopyAtlas p host).raise { cause := TABLE_REBUILT, die := die, prov := p, addr := atlasBase }
  else s

/-- The bytes of a run of writes that lie in the outbox, per trick in progress (`held`) or altogether (R297). -/
def Tile.outHeld (t : Tile) : Nat := (t.outbox.filter OutEntry.held).foldl (fun n o => n + o.size) 0
def Tile.outAll (t : Tile) : Nat := t.outbox.foldl (fun n o => n + o.size) 0

/-- Memory-side bytes of a transfer, scales apart and together (R286, R290, R297). -/
def Cx.memBytes (x : Cx) (nib : Nat) : Nat := x.qr * x.qc * quadBytes nib (x.fm == 18)
def Cx.memScales (x : Cx) (bs : Bool) : Nat := if bs then 16 * x.qr * (x.qc / 2) else 0

/-- The memory footprint: the span from MADDR to the last byte of the last quad, and the scale span (R292). -/
def Cx.foot (x : Cx) (nib : Nat) (bs : Bool) : List (Nat × Nat) :=
  (x.maddr, (x.qr - 1) * x.mstride + x.qc * quadBytes nib (x.fm == 18)) :: (if bs then [(x.mscale, x.memScales bs)] else [])

/-- Bytes a STORE of the transfer puts into the outbox. -/
def Cx.outSize (x : Cx) (s : State) (p : Nat) : Nat := x.memBytes (sideNib s p x.fm) + x.memScales (sideBs s p x.fm)

/-- Whether a code names no format a courier moves (R317 CX_FMT). -/
def State.cxBad (s : State) (p code : Nat) : Bool := code != 18 && (s.fmtOf p code).isNone

/-- Whether a footprint breaks R292. -/
def footBad (pr : Prov) (store : Bool) (l : List (Nat × Nat)) : Bool :=
  l.any (fun f => !(pr.within .data f.1 f.2 || (!store && pr.within .atlas f.1 f.2)))

/-- The checks of R317 after IX_ILLEGAL, in order of value (R675). (DEDUCED: log 31, 41) -/
def State.cxChecks (s : State) (i : Issue) (x : Cx) : List (Bool × Nat) :=
  let p := i.c.prov
  let nm := sideNib s p x.fm
  let ns := sideNib s p x.fs
  let bm := sideBs s p x.fm
  let bs := sideBs s p x.fs
  let t := s.tile i.tile
  [(s.cxBad p x.fm || s.cxBad p x.fs || ((x.fm == 18 || x.fs == 18) && (x.fm != 18 || x.fs != 18 || x.tr || x.sexp != 0)), 48),
   (x.maddr % 64 != 0 || x.sbase % 16 != 0, 49),
   ((x.sheetSpans ns (x.fs == 18) ++ x.scaleSpans bs).any (fun r => decide (r.hi > sheetSize)), 50),
   (footBad (s.prov p) x.store (x.foot nm bm), 51),
   ((x.store && decide (x.mstride < x.qc * quadBytes nm (x.fm == 18))) || (x.spitch != 0 && decide (x.spitch < 8 * x.sqc * ns)) ||
      (bm && x.qc % 2 == 1) || (bs && x.sqc % 2 == 1), 52),
   (x.store && decide (t.outHeld + (t.xfers.filter (fun y => (Cx.of y.insn y.words).store && y.ctx == i.c)).foldl
      (fun n y => n + (Cx.of y.insn y.words).outSize s p) 0 + x.outSize s p > 65536), 53)]

/-- CXFR (R285, R286, R292, R293, R317). (DESIGN CHOICE: log 176) -/
def execCxfr (tile seat : Nat) (s : State) : Res :=
  onIssue tile seat 0x30 s (fun i =>
    let ob := bits i.insn 51 5
    let regs := (List.range 5).map (fun k => ob + k)
    let t := s.tile tile
    if 8 ≤ (if bits i.insn 57 1 = 0 then t.tc0 else t.tc1).length ∨ (1 ≤ ob ∧ ob ≤ 27 ∧ i.blocked regs) then s.stall i
    else if bits i.insn 0 29 ≠ 0 ∨ bits i.insn 38 2 = 3 then s.except i IX_ILLEGAL
    else if ob < 1 ∨ 27 < ob then s.except i 52
    else
      let ws := regs.map i.reg
      let x := Cx.of i.insn ws
      let g := wordAt ws
      if bits (g 0) 48 16 ≠ 0 ∨ bits (g 1) 33 31 ≠ 0 ∨ bits (g 2) 56 8 ≠ 0 then s.except i IX_ILLEGAL
      else match firstExc (s.cxChecks i x) with
      | some c => s.except i c
      | none =>
        let y : Xfer := ⟨seat, t.seq, i.insn, ws, siteWord seat i.x.site, i.c, s.frame, none⟩
        let t := { t with seq := t.seq + 1, crr := t.crr ++ [⟨seat, t.seq, false⟩],
                          tc0 := if x.cr = 0 then t.tc0 ++ [y] else t.tc0, tc1 := if x.cr = 0 then t.tc1 else t.tc1 ++ [y] }
        (s.setTile tile t).issued i (i.pc + 1) (fun z => { z with site := if x.rm = 2 then z.site + 1 else z.site }))

/-- A CXFR is complete; the seat's CRRDONE counts it once every earlier CXFR of the seat is complete (R294). -/
def Tile.crrComplete (t : Tile) (seat seq : Nat) : Tile :=
  let l := t.crr.map (fun c => if c.seq = seq then { c with done := true } else c)
  let mine := l.filter (fun c => c.seat == seat)
  let n := (mine.takeWhile CrrSlot.done).length
  let gone := (mine.take n).map CrrSlot.seq
  (List.range n).foldl (fun t _ => t.countCrr seat) { t with crr := l.filter (fun c => !gone.contains c.seq) }

/-- The format of a side; X3 parts are BF16 (R288). -/
def State.sideFmt (s : State) (p code : Nat) : Fmt := if code = 18 then Fmt.bf16 else (s.fmtOf p code).getD Fmt.bf16

/-- The memory side and the sheet side of a transfer (R286–R288, R290). -/
def Cx.mem (x : Cx) (s : State) (p : Nat) : Side := ⟨s.sideFmt p x.fm, x.fm == 18, x.maddr, 0, x.mstride, x.qc, x.mscale, false⟩
def Cx.sheet (x : Cx) (s : State) (p : Nat) : Side :=
  ⟨s.sideFmt p x.fs, x.fs == 18, x.sbase, x.spitch, x.sqc * quadBytes (sideNib s p x.fs) (x.fs == 18), x.sqc, x.sscale, true⟩

/-- Draws of a tile courier's rounding site (R291). -/
def State.cxDraw (s : State) (c : TrickCtx) (site : Nat) : Nat → Nat := fun i => compass16 (s.trickKey c 4) c.trick site 0 i

/-- The conversion a CXFR makes (R289). -/
def Cx.conv (x : Cx) : Conv := ⟨x.tr, x.fm == x.fs && x.sexp == 0, false, x.rm, x.sat, x.sexp⟩

/-- The courier's queue. -/
def Tile.cq (t : Tile) (cr : Nat) : List Xfer := if cr = 0 then t.tc0 else t.tc1
def Tile.setCq (t : Tile) (cr : Nat) (l : List Xfer) : Tile := if cr = 0 then { t with tc0 := l } else { t with tc1 := l }

/-- A transfer that rounds by SR consumes one Compass value per element (R122, R291). -/
def State.srDraws (s : State) (tile p : Nat) (c : Cx) : State :=
  if c.rm = 2 then s.count { unit := srvTile tile, event := 0x0C, n := 256 * c.qr * c.qc, prov := p, master := some 3 } else s

/-- A LOAD that meets poison faults its trick as an exception does; the record is POISON_CONSUMED (R274). -/
def State.poisonTrick (s : State) (tile : Nat) (x : Xfer) : State :=
  let r : ErrRec := { cause := POISON_CONSUMED, die := dieOfTile tile, prov := x.ctx.prov, unit := tileUnit tile,
                      addr := (Cx.of x.insn x.words).maddr, aux := x.ctx.trick }
  let s := if (s.tile tile).trick = some x.ctx then
      let s := s.setTile tile { ((s.tile tile).flush.faultSeats) with faulted := true }
      let s := (s.dropCourier tile).setItem x.ctx .faulted
      let s := s.setTile tile { (s.tile tile) with trick := none }
      s.freeVal.2.onFree x.ctx.prov tile (s.freeVal.1.toNat % 2 ^ 17)
    else
      let t := s.tile tile
      (s.setTile tile { t with tc0 := t.tc0.filter (fun y => y.seq != x.seq), tc1 := t.tc1.filter (fun y => y.seq != x.seq) }).drainStores tile 8
  (s.contained x.ctx.prov x.ctx.pframe).raise r

/-- The STOREs of a tile whose trick has completed and that still wait for the outbox: their writes are released (R217, R298). -/
def Tile.owed (t : Tile) : List Xfer := t.xfers.filter (fun x => x.rel.isSome && (Cx.of x.insn x.words).store)

/-- Whether a released write of a tile older than a sequence number is still to be made (R298). -/
def Tile.unmade (t : Tile) (q : Nat) : Bool := t.outbox.any (fun o => !o.held && decide (o.seq < q)) || t.owed.any (fun x => decide (x.seq < q))

/-- Whether two footprints share a 64-byte word. -/
def footsMeet (a b : List (Nat × Nat)) : Bool :=
  a.any (fun f => b.any (fun g => decide (f.1 / 64 ≤ (g.1 + g.2 - 1) / 64) && decide (g.1 / 64 ≤ (f.1 + f.2 - 1) / 64)))

/-- Whether a write that the province released in an earlier frame to a word of the footprint is still to be made (R300). -/
def State.readHeld (s : State) (p frame : Nat) (foot : List (Nat × Nat)) : Bool :=
  s.tiles.any (fun e =>
    e.2.outbox.any (fun o => !o.held && o.prov == p && decide (o.frame < frame) && footsMeet (o.cells.map (fun c => (c.1, 1))) foot) ||
    e.2.owed.any (fun x => x.ctx.prov == p && decide (x.rel.getD 0 < frame) &&
      (let c := Cx.of x.insn x.words; footsMeet (c.foot (sideNib s p c.fm) (sideBs s p c.fm)) foot)))

/-- The bytes that a LOAD writes into the sheet store (R287–R292). (DESIGN CHOICE: log 64) -/
def State.loadCells (s : State) (x : Xfer) : List (Nat × Byte) :=
  let c := Cx.of x.insn x.words
  let p := x.ctx.prov
  convBlock c.conv (c.mem s p) (c.sheet s p) (fun a => s.vbyte p a) (s.cxDraw x.ctx x.site) (16 * c.qr) (16 * c.qc)

/-- LOAD_COMPLETE (R289, R293–R295, R300): the LOAD at the head of a courier's queue writes its destination and CRRDONE counts it. (DESIGN CHOICE: log 64) -/
def execLoadComplete (tile cour : Nat) (s : State) : Res :=
  onTile tile (
    match (s.tile tile).cq cour with
    | x :: rest =>
      let c := Cx.of x.insn x.words
      let p := x.ctx.prov
      let foot := c.foot (sideNib s p c.fm) (sideBs s p c.fm)
      if c.store ∨ s.overtakes tile p x.seq { sw := x.sheet s p } ∨ s.readHeld p x.frame foot ∨ !s.hbmOpen p 0 foot then s
      else
      let s := s.mendAtlas p (dieOfTile tile) [] foot
      if foot.any (fun f => s.vpoison p f.1 f.2) then s.poisonTrick tile x
      else
        let s := (s.setTile tile ((s.tile tile).setCq cour rest)).sheetWrite tile (s.loadCells x)
        let s := if (s.tile tile).crr.any (fun y => y.seq == x.seq) then s.setTile tile ((s.tile tile).crrComplete x.seat x.seq) else s
        ((s.srDraws tile p c).count { unit := srvTile tile, event := 0x0A, n := c.outSize s p / 64, prov := p, master := some 3, addr := some c.maddr }).drainStores tile 8
    | [] => s)

/-- Where the update's tensors lie (R349, R359–R362): the tensors that an entry of the parameter table names with a domain-7 kind, each with that kind. -/
def Img.updTensors (g : Img) : List (Nat × Nat) :=
  let o := g.sectOff 11
  let p := o + up64 (64 + 16 * g (o + 8) 1)
  let q := p + up64 (96 * g o 4)
  if (g.sect 11).isNone then [] else
  (List.range (g (o + 56) 4)).flatMap (fun i =>
    ([(0, 0), (2, 1), (3, 2), (4, 3), (5, 4)] : List (Nat × Nat)).filterMap (fun k =>
      let x := g (q + 48 * i + 4 * k.1) 4
      if x < g.ntens then some (x, k.2) else none))

/-- The update's tensor that holds a byte of memory: its index and kind, and the position of the BF16 element in the whole tensor, row by row (R120, R362, R369). (DESIGN CHOICE: log 153) -/
def Img.updElem (g : Img) (a : Nat) : Option (Nat × Nat × Nat) :=
  (g.updTensors.find? (fun u => let t := g.tensor u.1; decide (t.base ≤ a) && decide (a < t.base + 2 * t.rows * t.cols))).map (fun u =>
    let t := g.tensor u.1
    let q := (a - t.base) / 512
    let e := (a - t.base) % 512 / 2
    let w := max 1 (t.cols / 16)
    (u.1, u.2, (q / w * 16 + e / 16) * t.cols + q % w * 16 + e % 16))

/-- The Compass value that memory element `i` of a STORE draws (R120, R291, R369): in a commit frame, domain 7 for an element of the update's tensors; else domain 4. (DESIGN CHOICE: log 153) -/
def State.storeDraw (s : State) (x : Xfer) (c : Cx) (i : Nat) : Nat :=
  let p := x.ctx.prov
  let g := s.img p
  let a := (c.mem s p).pos 0 (i / (16 * c.qc)) (i % (16 * c.qc)) / 2
  match if g.isCommit x.ctx.pframe then g.updElem a else none with
  | some u => compass16 (compassKey (s.reg p PROV_SR_SEED).toNat 7 (b01 x.ctx.pro) 0 x.ctx.step) u.1 u.2.1 (u.2.2 / 2 ^ 35) u.2.2
  | none => s.cxDraw x.ctx x.site i

/-- The bytes that a STORE puts into the outbox, by PVA (R287–R292, R296). -/
def State.storeCells (s : State) (tile : Nat) (x : Xfer) : List (Nat × Byte) :=
  let c := Cx.of x.insn x.words
  let p := x.ctx.prov
  let draw := fun i => let y := i / (16 * c.sqc); let z := i % (16 * c.sqc)
    s.storeDraw x c (if c.tr then z * (16 * c.qc) + y else i)
  convBlock c.conv (c.sheet s p) (c.mem s p) (s.tile tile).byte draw (16 * c.sqr) (16 * c.sqc)

/-- The outbox room that a transfer finds taken (R297): what lies there, and what older STOREs of completed tricks still wait to put there. (DEDUCED: log 149) -/
def State.outTaken (s : State) (tile p : Nat) (x : Xfer) : Nat :=
  (s.tile tile).owed.foldl (fun n y => if y.seq < x.seq then n + (Cx.of y.insn y.words).outSize s p else n) (s.tile tile).outAll

/-- STORE_COMPLETE (R217, R293, R294, R296, R297): the STORE at the head of a courier's queue reads its source and puts its whole result into the
outbox, when it has room; it is held unless its trick has completed. (DESIGN CHOICE: log 150) -/
def execStoreComplete (tile cour : Nat) (s : State) : Res :=
  onTile tile (
    let t := s.tile tile
    match t.cq cour with
    | x :: rest =>
      let c := Cx.of x.insn x.words
      let p := x.ctx.prov
      if !c.store ∨ s.overtakes tile p x.seq { sr := x.sheet s p } ∨ s.outTaken tile p x + c.outSize s p > 65536 then s
      else if (x.sheet s p).any (fun r => t.readBad r.lo (r.hi - r.lo)) then
        ((if x.rel.isSome then s.contained p x.ctx.pframe else s).setTile tile (t.setCq cour rest)).tileFault tile
      else
        let o : OutEntry := ⟨x.seq, x.rel.isNone, c.outSize s p, s.storeCells tile x, x.rel.getD 0, p, x.ctx.pframe⟩
        let t := { (t.setCq cour rest) with outbox := t.outbox ++ [o] }
        ((s.setTile tile (if t.crr.any (fun y => y.seq == x.seq) then t.crrComplete x.seat x.seq else t)).srDraws tile p c).drainStores tile 8
    | [] => s)

/-- The bulk courier with a province's index (R302). -/
def State.bulkOf (s : State) (p i : Nat) : Option Nat :=
  (List.range 128).find? (fun n => s.fld (n / 16) (CRR_BC_CTRL_PROV (n % 16)) == p && s.fld (n / 16) (CRR_BC_CTRL_INDEX (n % 16)) == i &&
    s.fld (n / 16) (CRR_BC_CTRL_EN (n % 16)) == 1)

/-- The Talon with a province's index (R312). (DEDUCED: log 66) -/
def State.talonOf (s : State) (p i : Nat) : Option Nat :=
  (List.range 512).find? (fun n => s.fld (n / 64) (TAL_CFG_PROV (n % 64)) == p && s.fld (n / 64) (TAL_CFG_INDEX (n % 64)) == i &&
    s.fld (n / 64) (TAL_CFG_EN (n % 64)) == 1)

/-- A put: the handle is appended at the tail, or waits for room in order (R314). -/
def State.talonPut (s : State) (n h : Nat) : State :=
  let x := s.talon n
  if x.handles.length < 1024 ∧ x.putWait = [] then s.setTalon n { x with handles := x.handles ++ [h] }
  else s.setTalon n { x with putWait := x.putWait ++ [h] }

/-- TPUTs of a completed trick whose released writes have all been made (R298 step 3). -/
def State.putsDue (s : State) (tile : Nat) : State :=
  let t := s.tile tile
  let now := t.duePuts.takeWhile (fun d => !t.unmade d.1)
  let s := s.setTile tile { t with duePuts := t.duePuts.drop now.length }
  now.foldl (fun s d => match s.talonOf d.2.1 d.2.2.1 with | some n => s.talonPut n d.2.2.2 | none => s) s

/-- Whether the chain's entry and bulk courier exist (R304). -/
def Img.nchain (g : Img) : Nat := match g.sect 7 with | some x => g x.off 4 | none => 0
def Img.chainOff (g : Img) : Nat := g.sectOff 7
/-- A chain entry (R304). -/
structure ChainEnt where
  first : Nat
  count : Nat
  bc : Nat
  put : Bool
  putArg : Bool
  talon : Nat
  handle : Nat
deriving DecidableEq, Repr

def Img.chainEnt (g : Img) (i : Nat) : ChainEnt :=
  let o := g.chainOff + 64 + 16 * i
  let n := g (o + 4) 2
  ⟨g o 4, if n = 0 then 1 else n, g (o + 6) 1, bitAt (g (o + 7) 1) 0, bitAt (g (o + 7) 1) 1, g (o + 8) 1, g (o + 12) 4⟩

/-- Where the Talon fills and the descriptors of the CHAINS section begin (R304). -/
def Img.fillOff (g : Img) : Nat := up64 (64 + 16 * g.nchain)
def Img.nfill (g : Img) : Nat := if (g.sect 7).isNone then 0 else g (g.chainOff + 8) 2
def Img.descOff (g : Img) : Nat := up64 (g.fillOff + 16 * g.nfill)

/-- A chain submission enters its bulk courier's queue, or waits at the tile when the queue is full (R303). -/
def State.submit (s : State) (tile : Nat) (r : ChainReq) (c : TrickCtx) (after : Nat) : State :=
  let t := s.tile tile
  let wait := s.setTile tile { t with waitChains := t.waitChains ++ [(r, c, after)] }
  if t.waitChains ≠ [] then wait
  else match s.bulkOf c.prov ((s.img c.prov).chainEnt r.chain).bc with
  | none => s
  | some n =>
    let b := s.bulk n
    if b.queue.length < 64 then s.setBulk n { b with queue := b.queue ++ [{ req := r, ctx := c, tile := tile, afterSeq := after }] } else wait

/-- A tile's submissions that waited are made again in order (R303). -/
def State.resubmit (s : State) (tile : Nat) : State :=
  let t := s.tile tile
  let l := t.waitChains
  l.foldl (fun s x => s.submit tile x.1 x.2.1 x.2.2) (s.setTile tile { t with waitChains := [] })

/-- Room has appeared in a queue: the tiles' waiting submissions are made, in the order of the tiles (R303). (DESIGN CHOICE: log 151) -/
def State.resubmitAll (s : State) : State := (s.tiles.filter (fun e => !e.2.waitChains.isEmpty)).foldl (fun s e => s.resubmit e.1) s

/-- What a completing trick releases, in the order of R298: its STOREs, those still queued too (R217), its chains, its puts. -/
def State.releaseCourier (s : State) (tile : Nat) (c : TrickCtx) : State :=
  let t := s.tile tile
  let done := fun (l : List Xfer) => l.map (fun x => if x.rel.isNone then { x with rel := some s.frame } else x)
  let s := s.setTile tile { t with
    tc0 := done t.tc0, tc1 := done t.tc1,
    outbox := t.outbox.map (fun o => if o.held then { o with held := false, frame := s.frame } else o),
    chains := [], puts := [], taken := [], crr := [],
    duePuts := t.duePuts ++ t.puts.map (fun x => (t.seq, c.prov, x)) }
  ((t.chains.foldl (fun s r => s.submit tile r c t.seq) s).putsDue tile)

/-- The released writes of a tile that are next (R298, R300): the oldest in issue order, unless an older STORE still waits for the outbox, or another tile's write of an
earlier frame to one of its words is still to be made; the channels' slots and repairs must let them through. -/
def State.nextDrain (s : State) (tile : Nat) : Option OutEntry :=
  let t := s.tile tile
  let free := t.outbox.filter (fun o => !o.held)
  match free.find? (fun o => free.all (fun y => decide (o.seq ≤ y.seq))) with
  | some o =>
    if t.unmade o.seq ∨ s.readHeld o.prov o.frame (o.cells.map (fun c => (c.1, 1))) ∨
        !s.hbmOpen o.prov 1 ((distinct (o.cells.map (fun c => c.1 / 2048))).map (fun g => (2048 * g, 2048))) then none else some o
  | none => none

/-- The next released writes of a tile are made, and free their room (R271, R298). -/
def State.drainOne (s : State) (tile : Nat) (o : OutEntry) : State :=
  let t := s.tile tile
  let s := s.setTile tile { t with outbox := t.outbox.filter (fun y => y.seq != o.seq) }
  let s := s.count { unit := srvTile tile, event := 0x0A, n := o.size / 64, prov := o.prov, master := some 3, addr := o.cells.head?.map Prod.fst }
  (s.vwrite o.prov o.cells).putsDue tile

/-- CCHN (R303, R317): the submission is held until the trick completes. -/
def execCchn (tile seat : Nat) (s : State) : Res :=
  onIssue tile seat 0x31 s (fun i =>
    let ra := bits i.insn 53 5
    s.readyOr i [ra] (
      let w := i.reg ra
      let g := s.img i.c.prov
      if bits i.insn 0 53 ≠ 0 then s.except i IX_ILLEGAL
      else if (g.sect 7).isNone ∨ g.nchain ≤ w % 65536 ∨ (s.bulkOf i.c.prov (g.chainEnt (w % 65536)).bc).isNone then s.except i 54
      else
        let t := s.tile tile
        (s.setTile tile { t with chains := t.chains ++ [⟨w % 65536, bits w 16 16, bits w 32 32⟩] }).issued i (i.pc + 1) id))

/-- A chain descriptor (R305). -/
structure ChainDesc where
  op : Nat
  link : Bool
  tr : Bool
  sat : Bool
  rm : Nat
  srcArg : Bool
  dstArg : Bool
  rsv : Bool
  fs : Nat
  fd : Nat
  sexp : Int
  src : Nat
  dst : Nat
  sstride : Nat
  dstride : Nat
  qr : Nat
  qc : Nat
  sscale : Nat
  dscale : Nat
deriving DecidableEq, Repr

/-- Where a chain's entry and descriptors lie in the Atlas copy (R304). -/
def Img.chainSpans (g : Img) (i : Nat) : List (Nat × Nat) :=
  let e := g.chainEnt i
  [(atlasBase + g.chainOff + 64 + 16 * i, 16), (atlasBase + g.chainOff + g.descOff + 64 * e.first, 64 * e.count)]

/-- A descriptor of a chain, with ARG applied (R305, R310). -/
def Img.chainDesc (g : Img) (k arg : Nat) : ChainDesc :=
  let o := g.chainOff + g.descOff + 64 * k
  let f := g (o + 1) 1
  let st := signed 64 (g (o + 56) 8) * (arg : Int)
  let adr := fun (b : Bool) (a : Nat) => if b then unsigned 64 ((a : Int) + st) else a
  ⟨g o 1, bitAt f 0, bitAt f 1, bitAt f 2, bits f 3 2, bitAt f 5, bitAt f 6,
   bitAt f 7 || bits f 3 2 == 3 || g (o + 5) 3 != 0 || g (o + 36) 4 != 0, g (o + 2) 1, g (o + 3) 1, signed 8 (g (o + 4) 1),
   adr (bitAt f 5) (g (o + 8) 8), adr (bitAt f 6) (g (o + 16) 8), g (o + 24) 4 * 64, g (o + 28) 4 * 64, g (o + 32) 2 + 1, g (o + 34) 2 + 1,
   g (o + 40) 8, g (o + 48) 8⟩

/-- Destination quad rows and columns. -/
def ChainDesc.dqr (d : ChainDesc) : Nat := if d.tr then d.qc else d.qr
def ChainDesc.dqc (d : ChainDesc) : Nat := if d.tr then d.qr else d.qc

/-- The source and destination sides; a LINK descriptor's output lies in the courier's buffer, packed, its scales after its quads (R306). -/
def ChainDesc.srcSide (d : ChainDesc) (s : State) (p : Nat) (linked : Bool) : Side :=
  let q := quadBytes (sideNib s p d.fs) (d.fs == 18)
  if linked then ⟨s.sideFmt p d.fs, d.fs == 18, 0, 0, d.qc * q, d.qc, d.qr * d.qc * q, false⟩
  else ⟨s.sideFmt p d.fs, d.fs == 18, d.src, 0, d.sstride, d.qc, d.sscale, false⟩
def ChainDesc.dstSide (d : ChainDesc) (s : State) (p : Nat) : Side :=
  let q := quadBytes (sideNib s p d.fd) (d.fd == 18)
  if d.link then ⟨s.sideFmt p d.fd, d.fd == 18, 0, 0, d.dqc * q, d.dqc, d.dqr * d.dqc * q, false⟩
  else ⟨s.sideFmt p d.fd, d.fd == 18, d.dst, 0, d.dstride, d.dqc, d.dscale, false⟩

/-- The memory a side of a descriptor spans. -/
def sideFoot (d : Side) (q nib : Nat) (bs : Bool) : List (Nat × Nat) :=
  (d.base, (q - 1) * d.qstride + d.qcols * quadBytes nib d.x3) :: (if bs then [(d.scale, 16 * q * (d.qcols / 2))] else [])

/-- Whether a descriptor of a chain is faulty (R310). `prev` is the LINK descriptor before it. -/
def State.descBad (s : State) (p : Nat) (d : ChainDesc) (prev : Option ChainDesc) (last : Bool) : Bool :=
  let pr := s.prov p
  let okIn := fun (f : Nat × Nat) => pr.within .data f.1 f.2 || pr.within .atlas f.1 f.2 || pr.within .host f.1 f.2
  let okOut := fun (f : Nat × Nat) => pr.within .data f.1 f.2 || pr.within .host f.1 f.2
  let bS := sideBs s p d.fs
  let bD := sideBs s p d.fd
  let src := d.srcSide s p false
  let dst := d.dstSide s p
  let useSrc := d.op == 0 && prev.isNone
  decide (d.op > 1) || d.rsv ||
  (d.op == 0 && s.cxBad p d.fs) || s.cxBad p d.fd || (d.link && last) ||
  (d.op == 0 && (d.fs == 18 || d.fd == 18) && (d.fs != 18 || d.fd != 18 || d.tr || d.sexp != 0)) ||
  (d.op == 0 && bS && d.qc % 2 == 1) || (bD && d.dqc % 2 == 1) ||
  (useSrc && (d.src % 64 != 0 || (d.srcArg && bS) || (sideFoot src d.qr (sideNib s p d.fs) bS).any (fun f => !okIn f))) ||
  (!d.link && (d.dst % 64 != 0 || (d.dstArg && bD) || (sideFoot dst d.dqr (sideNib s p d.fd) bD).any (fun f => !okOut f))) ||
  (match prev with
   | some e => d.op != 0 || d.fs != e.fd || d.qr != e.dqr || d.qc != e.dqc
   | none => false)

/-- The descriptor a job is at, and the LINK descriptor before it. -/
def State.jobDesc (s : State) (j : ChainJob) : ChainDesc × Option ChainDesc × Bool :=
  let g := s.img j.ctx.prov
  let e := g.chainEnt j.req.chain
  let d := g.chainDesc (e.first + j.desc) j.req.arg
  let prev := if j.desc = 0 then none
    else (let q := g.chainDesc (e.first + j.desc - 1) j.req.arg; if q.link then some q else none)
  (d, prev, decide (e.count ≤ j.desc + 1))

/-- A chain fault (R310): the chain stops, no completion put is made, CHAIN_FAULT is raised and the province pauses (R223). (DEDUCED: log 140) -/
def State.chainFault (s : State) (n : Nat) (j : ChainJob) : State :=
  let b := s.bulk n
  let p := j.ctx.prov
  let s := s.setBulk n { b with st := .faulted, queue := b.queue.drop 1, last := j.req.chain }
  let s := s.contained p j.ctx.pframe
  (s.raise { cause := CHAIN_FAULT, die := n / 16, prov := p, aux := j.req.chain }).resubmitAll

/-- The function whose requester ID a province's chains use (R506, R511): PF0 while it is granted the province, else the virtual function. (DEDUCED: log 67) -/
def State.chainFn (s : State) (p : Nat) : Nat := if s.fld 0 HIF_PF0_GRANT_PROV = p then 0 else p

/-- Whether requests for a province's chains may be issued (R308, R511, R526, R567). -/
def State.hostUp (s : State) (p : Nat) : Bool :=
  let f := s.chainFn p
  let x := Sparse.get Fn.init s.fns f
  s.fld f HIF_FN_STATUS_ATTACH == 0 && x.bme && x.tdisp != .error

/-- Whether a descriptor writes HOST addresses: its elements or its scales. -/
def State.toHost (s : State) (p : Nat) (d : ChainDesc) : Bool :=
  !d.link && (sideFoot (d.dstSide s p) d.dqr (sideNib s p d.fd) (sideBs s p d.fd)).any (fun f => (s.prov p).region f.1 == .host)

/-- Whether a descriptor touches HOST addresses, in its source, its destination or the scales of either. (DEDUCED: log 67) -/
def State.usesHost (s : State) (p : Nat) (d : ChainDesc) (prev : Option ChainDesc) : Bool :=
  s.toHost p d || (d.op == 0 && prev.isNone && (sideFoot (d.srcSide s p false) d.qr (sideNib s p d.fs) (sideBs s p d.fs)).any (fun f => (s.prov p).region f.1 == .host))

/-- CHAIN_START (R306, R308, R310): an idle bulk courier starts the chain at the head of its queue once the writes released with it are made;
with the host detached, a chain that needs it waits. -/
def execChainStart (bulk : Nat) (s : State) : Res :=
  if bulk ≥ 128 then .fault .noSuchUnit
  else
    let b := s.bulk bulk
    match b.queue with
    | [] => .next s
    | j :: _ =>
      if b.st = .running ∨ (s.tile j.tile).unmade j.afterSeq ∨ s.fld 0 TST_STATUS_FATAL = 1 then .next s
      else
      let s := s.mendAtlas j.ctx.prov (bulk / 16) [] ((s.img j.ctx.prov).chainSpans j.req.chain)
      let x := s.jobDesc j
      if s.descBad j.ctx.prov x.1 x.2.1 x.2.2 then .next (s.chainFault bulk j)
      else if (j.hostWrote ∨ s.usesHost j.ctx.prov x.1 x.2.1) ∧ !s.hostUp j.ctx.prov then .next (s.setBulk bulk { b with st := .waitHost, last := j.req.chain })
      else .next (s.setBulk bulk { b with st := .running, last := j.req.chain, queue := { j with frame := s.frame } :: b.queue.drop 1 })

/-- A byte that a chain or a hand command reads: HBM, or host memory as the command gives it, else a free value (R512). -/
def State.anyByte (s : State) (p : Nat) (host : List (Nat × Byte)) (va : Nat) : Byte :=
  if hostBase ≤ va then (match host.find? (fun c => c.1 == va - hostBase) with | some c => c.2 | none => Config.hostByte s.free (va - hostBase))
  else s.vbyte p va

/-- Writes by a chain or a hand command: HBM cells are written, host cells leave the device. -/
def State.anyWrite (s : State) (p : Nat) (ws : List (Nat × Byte)) : State :=
  let h := (ws.filter (fun w => decide (hostBase ≤ w.1))).map (fun w => (w.1 - hostBase, w.2))
  let s := s.vwrite p (ws.filter (fun w => decide (w.1 < hostBase)))
  if h = [] then s else s.emit (.hostWrite (s.chainFn p) h)

/-- Draws of a chain's descriptor (R307). -/
def State.chainDraw (s : State) (j : ChainJob) : Nat → Nat := fun i =>
  compass16 (s.trickKey j.ctx 5) (j.req.chain * 65536 + j.req.inst) j.desc 0 i

/-- The bytes that a chain's next descriptor writes, by PVA or host address (R305, R307). (DESIGN CHOICE: log 65) -/
def State.chainCells (s : State) (host : List (Nat × Byte)) (j : ChainJob) : List (Nat × Byte) :=
  let p := j.ctx.prov
  let x := s.jobDesc j
  let d := x.1
  let linked := x.2.1.isSome
  let rd := fun a => if linked then (match (j.carry.getD []).find? (fun c => c.1 == a) with | some c => c.2 | none => 0)
    else s.anyByte p host a
  let conv : Conv := ⟨d.tr, d.op == 0 && d.fs == d.fd && d.sexp == 0, d.op == 1, d.rm, d.sat, d.sexp⟩
  convBlock conv (d.srcSide s p linked) (d.dstSide s p) rd (s.chainDraw j) (16 * d.qr) (16 * d.qc)

/-- CHAIN_DESCRIPTOR_DONE (R300, R305–R308, R310, R525): the running descriptor's block is converted and written, or handed on when it has LINK, once the
writes it must see and the descriptor before it are made; with the host detached, one that reads or writes it waits. `host` gives the host memory that the
descriptor reads. -/
def execChainDescriptorDone (bulk : Nat) (host : List (Nat × Byte)) (s : State) : Res :=
  if bulk ≥ 128 then .fault .noSuchUnit
  else
    let b := s.bulk bulk
    match b.st, b.queue with
    | .running, j :: rest =>
      let p := j.ctx.prov
      let x := s.jobDesc j
      let d := x.1
      let linked := x.2.1.isSome
      let src := d.srcSide s p linked
      let foot := (sideFoot src d.qr (sideNib s p d.fs) (sideBs s p d.fs)).filter (fun f => decide (f.1 < hostBase))
      let reads := d.op == 0 && !linked
      let dest := (sideFoot (d.dstSide s p) d.dqr (sideNib s p d.fd) (sideBs s p d.fd)).filter (fun f => decide (f.1 < hostBase))
      if ((s.img p).chainEnt j.req.chain).count ≤ j.desc ∨ j.hostWrote then .next s
      else if s.usesHost p d x.2.1 ∧ !s.hostUp p then .next (s.setBulk bulk { b with st := .waitHost })
      else if (reads ∧ (s.readHeld p j.frame foot ∨ !s.hbmOpen p 0 foot)) ∨ (!d.link ∧ !s.hbmOpen p 1 dest) then .next s
      else
      let s := if reads then s.mendAtlas p (bulk / 16) host foot else s
      if reads ∧ foot.any (fun f => s.vpoison p f.1 f.2) then
        .next ((s.chainFault bulk j).raise { cause := POISON_CONSUMED, die := bulk / 16, prov := p, addr := d.src })
      else
        let ws := s.chainCells host j
        let j' := { j with desc := j.desc + 1, carry := if d.link then some ws else none, hostWrote := s.toHost p d, frame := s.frame }
        let s' := if d.link then s
          else (s.anyWrite p ws).count { unit := srvDie (bulk / 16), event := 0x24, n := ws.length / 64, prov := p, master := some 4, addr := some d.dst }
        let s' := { s' with free := s'.free + 1 }
        let s' := s'.setBulk bulk { b with queue := j' :: rest }
        if x.2.2 then .next s'
        else
          let y := s'.jobDesc j'
          if s'.descBad p y.1 y.2.1 y.2.2 then .next (s'.chainFault bulk j')
          else if s'.usesHost p y.1 y.2.1 ∧ !s'.hostUp p then .next (s'.setBulk bulk { b with st := .waitHost, queue := j' :: rest })
          else .next s'
    | _, _ => .next s

/-- TPUT (R313, R314, R317): the handle is held until the trick completes. (DEDUCED: log 66) -/
def execTput (tile seat : Nat) (s : State) : Res :=
  onIssue tile seat 0x34 s (fun i =>
    let ra := bits i.insn 50 5
    let tal := bits i.insn 55 3
    s.readyOr i [ra] (
      let t := s.tile tile
      if bits i.insn 0 50 ≠ 0 then s.except i IX_ILLEGAL
      else if (s.talonOf i.c.prov tal).isNone then s.except i 64
      else if 16 ≤ t.puts.length then s.except i 65
      else
        let s := s.setTile tile { t with puts := t.puts ++ [(tal, i.reg ra % 2 ^ 32)] }
        let s := s.issued i (i.pc + 1) id
        s.setTile tile ((s.tile tile).countTal seat)))

/-- TTAKE (R313, R314, R317): the take waits in the Talon's order; RD is outstanding until it has its handle. -/
def execTtake (tile seat : Nat) (s : State) : Res :=
  onIssue tile seat 0x35 s (fun i =>
    let rd := bits i.insn 50 5
    let tal := bits i.insn 55 3
    let t := s.tile tile
    let waiting := s.talons.foldl (fun n e => n + (e.2.waiters.filter (fun w => w.tile == tile)).length) 0
    if bits i.insn 0 50 ≠ 0 then s.except i IX_ILLEGAL
    else match s.talonOf i.c.prov tal with
    | none => s.except i 64
    | some n =>
      if 64 ≤ t.taken.length + waiting then s.except i 65
      else
        let x := s.talon n
        let s := s.setTalon n { x with waiters := x.waiters ++ [⟨tile, seat, rd, t.seq⟩] }
        let s := s.setTile tile { t with seq := t.seq + 1 }
        s.issued i (i.pc + 1) (fun z => z.await rd t.seq))

/-- TTAKE_COMPLETE (R314): the take at the head of a Talon's waiters receives the handle at the head; TALDONE counts it. -/
def execTtakeComplete (talon : Nat) (s : State) : Res :=
  if talon ≥ 512 then .fault .noSuchUnit
  else
    let x := s.talon talon
    match x.waiters, x.handles with
    | w :: ws, h :: hs =>
      let s := s.setTalon talon { x with waiters := ws, handles := hs }
      let t := s.tile w.tile
      let t := { t with taken := (talon, h) :: t.taken }
      let t := t.setSeat w.seat ((t.seat w.seat).arrive w.rd w.seq (BitVec.ofNat 64 h))
      .next (s.setTile w.tile (t.countTal w.seat))
    | _, _ => .next s

/-- TALON_PUT_APPEND (R314): a put that waited for room is appended. -/
def execTalonPutAppend (talon : Nat) (s : State) : Res :=
  if talon ≥ 512 then .fault .noSuchUnit
  else
    let x := s.talon talon
    match x.putWait with
    | h :: hs => if x.handles.length < 1024 then .next (s.setTalon talon { x with handles := x.handles ++ [h], putWait := hs }) else .next s
    | [] => .next s

end Sys2Proof.Machine
end

