-- ==== Sys2Proof/Machine/StwOps.lean ====
section
/-! DEFINITION. What the steward does in many commands: events to TSP connections (R583), the error log (R540, R542, R593), province states (R553), answers to requests (R554, R581). -/
namespace Sys2Proof.Machine

/-- An event joins the backlog of every connection subscribed to its class; more than 1,024 behind, the oldest is lost and counted (R583). -/
def State.tspNote (s : State) (e : TspEvent) : State :=
  { s with stw := { s.stw with conns := s.stw.conns.map (fun c =>
      if !bitAt c.subs e.cls then c
      else if 1024 ≤ c.queue.length then { c with queue := c.queue.drop 1 ++ [e], lost := c.lost + 1 }
      else { c with queue := c.queue ++ [e] }) } }

/-- The alias key is derived: at each boot and each activation (R549). (DEDUCED: log 113) -/
def State.deriveAlias (s : State) : State :=
  let f := s.stw.running
  { s with stw := { s.stw with aliasKey := if s.stw.keys then s.stw.uds.map (fun u =>
      ⟨u, (f.map FwImage.digest).getD [], (f.map FwImage.svn).getD 0, s.fld 0 STW_STATUS_LC, s.fld 0 STW_STATUS_OWNERSHIP, s.stw.devid⟩) else none } }

/-- The certificate chain (R550): the identity certificate, and the alias certificate, which carries the firmware digest and the DEVID (R549). -/
def State.certChain (s : State) : List Byte :=
  match s.stw.aliasKey with
  | some a => Config.certChain (Config.identityKey a.uds) (a.digest ++ beBytes 1 a.svn ++ beBytes 1 a.life ++ beBytes 1 a.owner ++ beBytes 8 a.devid)
  | none => []

/-- The cartridge's contents change. -/
def State.setCart (s : State) (c : Cartridge) : State := { s with stw := { s.stw with cart := some c } }

/-- A province takes another state (R553): `PROV_STATE` shows it, and TSP reports it. -/
def State.setPState (s : State) (p : Nat) (st : PState) : State :=
  ((s.setProv p { (s.prov p) with st := st }).setFld p PROV_STATE_STATE st.code).tspNote (.prov p st.code)

/-- Statuses of R522. -/
def HS_OK : Nat := 0
def HS_BAD_OPCODE : Nat := 1
def HS_BAD_DESC : Nat := 2
def HS_TRANSLATION : Nat := 3
def HS_HOST_ABORT : Nat := 4
def HS_POISON : Nat := 5
def HS_AUTH : Nat := 6
def HS_PROV_STATE : Nat := 8
def HS_ABORTED : Nat := 22

/-- Statuses of R584. -/
def TS_ROLE : Nat := 0x100
def TS_BAD_REQ : Nat := 0x101
def TS_VERSION : Nat := 0x102
def TS_BUSY : Nat := 0x103
def TS_LIFE_CYCLE : Nat := 0x104
def TS_NO_RESOURCE : Nat := 0x105
def TS_SPLIT_INVALID : Nat := 0x106
def TS_LINK_SHARE : Nat := 0x107
def TS_LINK_MTU : Nat := 0x108
def TS_LINK_TABLE : Nat := 0x109
def TS_HAND_TABLE : Nat := 0x10A
def TS_LEGEND_INVALID : Nat := 0x10B
def TS_RANK_TABLE : Nat := 0x10C
def TS_PTAG : Nat := 0x10D
def TS_PROV_EXIST : Nat := 0x10E
def TS_NOT_COMMITTED : Nat := 0x10F
def TS_LOG_FULL : Nat := 0x110
def TS_CARTRIDGE : Nat := 0x111
def TS_SIGNATURE : Nat := 0x112
def TS_FW_ROLLBACK : Nat := 0x113
def TS_CUT : Nat := 0x114
def TS_UNKNOWN_PROV : Nat := 0x115

/-- Command codes of R582 that other files name. -/
def TC_PROV_SEAL : Nat := 0x13
def TC_PROV_PAUSE : Nat := 0x14
def TC_PROV_RESUME : Nat := 0x15
def TC_PROV_SNAPSHOT : Nat := 0x16
def TC_PROV_RESET : Nat := 0x17
def TC_PROV_DISSOLVE : Nat := 0x18
def TC_PROV_RECOVER : Nat := 0x50

/-- A connection. -/
def State.conn (s : State) (n : Nat) : Option TspConn := s.stw.conns.find? (fun c => c.id == n)

/-- The answer to a request, while its connection is open (R581). -/
def State.answer (s : State) (conn cmd status : Nat) (payload : List Byte) : State :=
  if (s.conn conn).isSome then s.emit (.tsp conn cmd status payload) else s

/-- Requests that wait for a province and a command are answered. (DESIGN CHOICE: log 102) -/
def State.answerWaits (s : State) (p : Nat) (cmds : List Nat) (status : Nat) : State :=
  let l := s.stw.waits.filter (fun w => w.prov == p && cmds.contains w.cmd)
  let s := { s with stw := { s.stw with waits := s.stw.waits.filter (fun w => !(w.prov == p && cmds.contains w.cmd)) } }
  l.foldl (fun s w => s.answer w.conn w.cmd status []) s

end Sys2Proof.Machine
end

