-- ==== Sys2Proof/Machine/Global.lean ====
section
/-! DEFINITION. Operations at named frames (R48–R52, R677): the tree of a province's ranks, requests going up, the root's choice of a frame,
announcements going down, snapshot reports. -/
namespace Sys2Proof.Machine

/-- The children of rank `r` in a tree of fan-in `b` over `n` ranks (R48). -/
def treeChildren (b n r : Nat) : List Nat := ((List.range b).map (fun i => b * r + 1 + i)).filter (fun c => decide (c < n))

/-- The parent of rank `r ≥ 1` (R48). -/
def treeParent (b r : Nat) : Nat := (r - 1) / b

/-- The depth of the smallest complete tree of fan-in `b` that holds `n` ranks (`fuel` levels at most, R48). -/
def treeDepth (b n : Nat) : Nat → Nat → Nat → Nat
  | 0, d, _ => d
  | f + 1, d, held => if n ≤ held then d else treeDepth b n f (d + 1) (held * b + 1)

def State.children (s : State) (p : Nat) : List Nat := treeChildren (s.fanin p) (s.nranks p) (s.rank p)

/-- The root's choice of F (R49): the first frame that starts `d · HOP_NS` or more after now; the time already spent in the current frame is
a free value. (DEDUCED: log 24) -/
def State.rootFrame (s : State) (p : Nat) : Nat × State :=
  let len := max 1 s.frameLen
  let phase := s.freeVal.1.toNat % len
  let lead := treeDepth (s.fanin p) (s.nranks p) 20 0 1 * s.fld 0 MER_GLOB_CTRL_HOP_NS
  (s.frame + max 1 (ceilDiv (phase + lead) len), s.freeVal.2)

/-- The announcement of F goes to every child, and this rank will act at F (R49). -/
def State.announce (s : State) (p : Nat) (op : GlobOp) (f : Nat) (late : Bool) : State :=
  let s := (s.children p).foldl (fun s c => s.emit (.announce p c op f)) s
  let pr := s.prov p
  s.setProv p { pr with anns := pr.anns ++ [⟨op, f, late⟩] }

/-- The root names a frame and announces it (ROOT_ANNOUNCE, R49). (DEDUCED: log 24) -/
def State.rootAnnounce (s : State) (p : Nat) (op : GlobOp) : State :=
  let r := s.rootFrame p
  r.2.announce p op r.1 false

/-! ## Operations that stewards ask for (R556) -/

/-- The TSP command that asks for an operation; 0 where none does. -/
def opCmd : GlobOp → Nat
  | .pause => TC_PROV_PAUSE | .resume => TC_PROV_RESUME | .snapshot => TC_PROV_SNAPSHOT | .reset => TC_PROV_RESET | .barrier _ | .broadcast _ _ => 0

/-- The states in which a province takes an operation (R553). -/
def opAllowed : GlobOp → PState → Bool
  | .pause, st | .snapshot, st => st == .running
  | .resume, st => st == .paused
  | .reset, st => st == .sealed_ || st == .running || st == .paused
  | .barrier _, _ | .broadcast _ _, _ => false

/-- `PROV_NDX_TAG`, by which stewards name a province to each other. -/
def State.ptag (s : State) (p : Nat) : Nat := (s.reg p PROV_NDX_TAG).toNat

/-- A message to the steward of another rank, over the control link (R556, R496). (DESIGN CHOICE: log 155) -/
def State.tell (s : State) (p r : Nat) (b : NdxBody) : State :=
  match (s.prov p).ranktab.find? (fun e => e.rank == some r && e.state == 0) with
  | some e => s.emit (.ndx 0 e.devid b)
  | none => s

/-- An operation is over with a status: this steward's own requests for it are answered, and rank 0 tells the stewards that asked (R556). (DESIGN CHOICE: log 102) -/
def State.settle (s : State) (p : Nat) (op : GlobOp) (status : Nat) : State :=
  let pr := s.prov p
  let s := s.setProv p { pr with asks := pr.asks.filter (fun a => a.2 != op), acts := pr.acts.filter (fun a => a.2 != op) }
  (pr.asks.filter (fun a => a.2 == op)).foldl (fun s a => s.tell p a.1 (.done (s.ptag p) op status)) (s.answerWaits p [opCmd op] status)

/-- Rank 0 learns that a rank has acted; when every rank that is not lost has, the operation is complete (R556). -/
def State.actIn (s : State) (p r : Nat) (op : GlobOp) : State :=
  let pr := s.prov p
  let s := s.setProv p { pr with acts := if pr.acts.contains (r, op) then pr.acts else pr.acts ++ [(r, op)] }
  if (List.range (s.nranks p)).all (fun q => pr.lost.contains q || (s.prov p).acts.contains (q, op)) then s.settle p op HS_OK else s

/-- This rank has acted (R556). -/
def State.acted (s : State) (p : Nat) (op : GlobOp) : State :=
  if s.rank p = 0 then s.actIn p 0 op else s.tell p 0 (.acted (s.ptag p) (s.rank p) op)

/-- An operation is asked for: rank 0 announces it, another rank's steward forwards the command to rank 0's (R556). -/
def State.ask (s : State) (p : Nat) (op : GlobOp) : State :=
  if s.rank p = 0 then s.rootAnnounce p op else s.tell p 0 (.forward (s.ptag p) (s.rank p) op)

/-- The province that a steward's message names, where its sender holds rank `r` of it. -/
def State.tagged (s : State) (devid tag r : Nat) : Option Nat :=
  (s.provs.find? (fun e => e.2.st != .none_ && e.2.st != .forming && s.ptag e.1 == tag && e.2.ranktab.any (fun x => x.rank == some r && x.devid == devid))).map Prod.fst

/-- Rank 0's steward takes a forwarded command (R556). -/
def State.forwardIn (s : State) (devid tag r : Nat) (op : GlobOp) : State :=
  match s.tagged devid tag r with
  | none => s
  | some p =>
    let pr := s.prov p
    if s.rank p ≠ 0 then s
    else if !opAllowed op pr.st then s.tell p r (.done tag op HS_PROV_STATE)
    else (s.setProv p { pr with asks := pr.asks ++ [(r, op)] }).rootAnnounce p op

/-- A rank's report that it has acted, at rank 0. -/
def State.actedIn (s : State) (devid tag r : Nat) (op : GlobOp) : State :=
  match s.tagged devid tag r with | some p => if s.rank p = 0 then s.actIn p r op else s | none => s

/-- Rank 0's answer to a forwarded command. -/
def State.doneIn (s : State) (devid tag : Nat) (op : GlobOp) (status : Nat) : State :=
  match s.tagged devid tag 0 with | some p => s.answerWaits p [opCmd op] status | none => s

/-! ## Requests and announcements -/

/-- The instance's record, made on first use. -/
def Prov.gsyncOf (pr : Prov) (i : GInst) (bcast : Bool) : Gsync :=
  (pr.gsync.find? (fun g => g.inst == i)).getD { inst := i, bcast := bcast }

def Prov.setGsync (pr : Prov) (g : Gsync) : Prov :=
  if pr.gsync.any (fun x => x.inst == g.inst) then { pr with gsync := pr.gsync.map (fun x => if x.inst = g.inst then g else x) }
  else { pr with gsync := pr.gsync ++ [g] }

/-- When this rank and all its children have arrived, the arrival goes up, or the root announces (R49, R211). -/
def State.gsyncUp (s : State) (p : Nat) (g : Gsync) : State :=
  if g.own && (s.children p).all (fun c => g.children.contains c) && !g.sent then
    let s := s.setProv p ((s.prov p).setGsync { g with sent := true })
    if s.rank p = 0 then s.rootAnnounce p (if g.bcast then .broadcast g.inst g.payload else .barrier g.inst)
    else s.emit (.request p (treeParent (s.fanin p) (s.rank p)) (if g.bcast then .broadcast g.inst [] else .barrier g.inst))
  else s.setProv p ((s.prov p).setGsync g)

/-- A request of this rank or of a child for an operation other than a barrier: passed up at once, announced by the root. -/
def State.requestUp (s : State) (p : Nat) (op : GlobOp) : State :=
  if s.rank p = 0 then s.rootAnnounce p op
  else s.emit (.request p (treeParent (s.fanin p) (s.rank p)) op)

/-- GLOBAL_REQUEST_ARRIVE (R48, R49): a request arrives from a child rank; while the steward restarts it waits (R576). -/
def execGlobalRequestArrive (prov child : Nat) (op : GlobOp) (s : State) : Res :=
  let s := if s.stw.restarting then s else s.take prov child (.request op)
  if s.stw.restarting ∨ (s.prov prov).st = .none_ ∨ !(s.children prov).contains child then .next s
  else match op with
  | .barrier i =>
    let g := (s.prov prov).gsyncOf i false
    .next (s.gsyncUp prov { g with children := if g.children.contains child then g.children else g.children ++ [child] })
  | .broadcast i _ =>
    let g := (s.prov prov).gsyncOf i true
    .next (s.gsyncUp prov { g with children := if g.children.contains child then g.children else g.children ++ [child] })
  | op => .next (s.requestUp prov op)

/-- ANNOUNCEMENT_RECEIVED (R49, R51): forwarded to the children; an announcement of a frame that has begun is late: LATE counts it, this rank
acts at its next boundary and reports itself late. -/
def execAnnouncementReceived (prov : Nat) (op : GlobOp) (frame : Nat) (s : State) : Res :=
  if s.stw.restarting ∨ (s.prov prov).st = .none_ ∨ s.rank prov = 0 then .next s
  else
    let s := s.take prov (treeParent (s.fanin prov) (s.rank prov)) (.announce op frame)
    let late := decide (frame ≤ s.frame)
    let s := s.announce prov op frame late
    if late then
      let s := s.incFld 0 MER_GLOB_CTRL_LATE 1
      .next (s.emit (.lateReport prov (treeParent (s.fanin prov) (s.rank prov)) op frame))
    else .next s

/-- The cut's report goes up when this rank's cut is done and every child has reported; at the root the snapshot is complete, and the other ranks are told (R50, R568). -/
def State.cutCheck (s : State) (p : Nat) : State :=
  let pr := s.prov p
  match pr.cut with
  | none => s
  | some c =>
    if c.own && !c.reported && (s.children p).all (fun r => c.reports.contains r) then
      let s := s.setProv p { pr with cut := some { c with reported := true, complete := c.complete || s.rank p == 0 } }
      if s.rank p = 0 then (((((List.range (s.nranks p)).filter (fun q => q != 0)).foldl (fun s q => s.emit (.ndx p q (.cutOver c.frame))) s).emit (.snapshotDone p c.frame))).settle p .snapshot HS_OK else s.emit (.cutReport p (treeParent (s.fanin p) (s.rank p)) c.frame false)
    else s

/-- The root's word that the cut is complete arrives (R568). (DEDUCED: log 114) -/
def State.cutOverIn (s : State) (p src frame : Nat) : State :=
  match (s.prov p).cut with
  | some c => if src = 0 ∧ c.frame = frame then s.setProv p { (s.prov p) with cut := some { c with complete := true } } else s
  | none => s

/-- SNAPSHOT_CUT_REPORT (R50, R51): a child's report that its cut is done, or that it was late: then the snapshot fails on every rank, which
discards its cut and resumes at a frame the root names. -/
def execSnapshotCutReport (prov child : Nat) (late : Bool) (s : State) : Res :=
  let pr := s.prov prov
  if s.stw.restarting ∨ !(s.children prov).contains child then .next s
  else match pr.cut with
  | none => .next s
  | some c =>
    let s := s.take prov child (if late then .late .snapshot c.frame else .cut c.frame false)
    if late then
      let s := s.setProv prov { pr with cut := none }
      if s.rank prov = 0 then .next ((s.settle prov .snapshot TS_CUT).rootAnnounce prov .resume)
      else .next (s.emit (.cutReport prov (treeParent (s.fanin prov) (s.rank prov)) c.frame true))
    else
      .next ((s.setProv prov { pr with cut := some { c with reports := if c.reports.contains child then c.reports else c.reports ++ [child] } }).cutCheck prov)

end Sys2Proof.Machine
end

