-- ==== Sys2Proof/Machine/Sha.lean ====
section
/-! DEFINITION. SHA-384, the hash of Atlas images, manifests, imprints and measurements (R227, R570, R571), the HKDF of keys (R491, R532), and AES-256-GCM, whose values are free. The spec names the standard;
what it computes is FIPS 180-4's (PRESUMED). -/
namespace Sys2Proof.Machine

/-- A fall of `f` from above to its fixed point, at most `n` steps. -/
def descend (f : Nat → Nat) : Nat → Nat → Nat
  | 0, x => x
  | n + 1, x => if f x < x then descend f n (f x) else x

/-- Whether a number below 529 is prime. -/
def smallPrime (n : Nat) : Bool := decide (2 ≤ n) && [2, 3, 5, 7, 11, 13, 17, 19].all (fun d => n == d || n % d != 0)

/-- The first 80 primes. -/
def shaPrimes : List Nat := (List.range 410).filter smallPrime

/-- The first 64 bits of the fraction of a prime's square root: the root of p * 2^128 modulo 2^64. -/
def sqrtFrac (p : Nat) : W64 := BitVec.ofNat 64 (descend (fun x => (x + p * 2 ^ 128 / x) / 2) 16 (2 ^ 69))
/-- The first 64 bits of the fraction of a prime's cube root: the root of p * 2^192 modulo 2^64. -/
def cbrtFrac (p : Nat) : W64 := BitVec.ofNat 64 (descend (fun x => (2 * x + p * 2 ^ 192 / (x * x)) / 3) 20 (2 ^ 67))

/-- The constants of the 80 rounds: of the cube roots of the first 80 primes. (PRESUMED: log 118) -/
def shaK : List W64 := shaPrimes.map cbrtFrac
/-- The starting chain value: of the square roots of the ninth to sixteenth primes. -/
def shaH : List W64 := ((shaPrimes.drop 8).take 8).map sqrtFrac

/-- A word mixed with itself: turned right by each of `turns`, and shifted right by each of `shifts`. -/
def turned (x : W64) (turns shifts : List Nat) : W64 :=
  shifts.foldl (fun r n => r ^^^ (x >>> n)) (turns.foldl (fun r n => r ^^^ x.rotateRight n) 0)

/-- A big-endian number of a list of bytes. -/
def beNum (bs : List Byte) : Nat := bs.foldl (fun n b => n * 256 + b.toNat) 0

/-- The message schedule: `n` further words, the newest first, then all of it the oldest first. -/
def shaSched : Nat → List W64 → List W64
  | 0, w => w.reverse
  | n + 1, w =>
    shaSched n ((turned (w.getD 1 0) [19, 61] [6] + w.getD 6 0 + turned (w.getD 14 0) [1, 8] [7] + w.getD 15 0) :: w)

/-- One round over the eight working words, each of them moving one place on. -/
def shaRound (w : List W64) (kw : W64 × W64) : List W64 :=
  let at_ := fun n => w.getD n 0
  let pick := (at_ 4 &&& (at_ 5 ^^^ at_ 6)) ^^^ at_ 6
  let most := (at_ 0 &&& (at_ 1 ||| at_ 2)) ||| (at_ 1 &&& at_ 2)
  let add := at_ 7 + turned (at_ 4) [14, 18, 41] [] + pick + kw.1 + kw.2
  (add + turned (at_ 0) [28, 34, 39] [] + most) :: (w.take 3 ++ (at_ 3 + add) :: (w.drop 4).take 3)

/-- One 128-byte block added into the chain value. -/
def shaBlock (h : List W64) (block : List Byte) : List W64 :=
  let w := (List.range 16).map (fun i => BitVec.ofNat 64 (beNum ((block.drop (8 * i)).take 8)))
  List.zipWith (· + ·) h ((shaK.zip (shaSched 64 w.reverse)).foldl shaRound h)

/-- The blocks of a padded message. -/
def shaBlocks : Nat → List W64 → List Byte → List W64
  | 0, h, _ => h
  | n + 1, h, m => shaBlocks n (shaBlock h (m.take 128)) (m.drop 128)

/-- SHA-384: 48 bytes. (PRESUMED: log 118) -/
def sha384 (m : List Byte) : List Byte :=
  let len := m.length
  let pad := (239 - len % 128) % 128
  let m := m ++ [0x80] ++ List.replicate pad 0 ++ beBytes 16 (8 * len)
  ((shaBlocks (m.length / 128) shaH m).take 6).flatMap (fun x => beBytes 8 x.toNat)

/-- HMAC-SHA-384 of a key of at most 128 bytes (R491). (PRESUMED: log 118) -/
def hmac384 (key msg : List Byte) : List Byte :=
  let k := key ++ List.replicate (128 - key.length) 0
  sha384 (k.map (fun b => b ^^^ 0x5C) ++ sha384 (k.map (fun b => b ^^^ 0x36) ++ msg))

/-- HKDF-SHA-384 expanded to at most 96 bytes (R491). (PRESUMED: log 118) -/
def hkdfExpand (prk info : List Byte) (n : Nat) : List Byte :=
  let a := hmac384 prk (info ++ [1])
  (a ++ hmac384 prk (a ++ info ++ [2])).take n

/-- The bytes of a text. -/
def ascii (t : String) : List Byte := t.toList.map (fun c => BitVec.ofNat 8 c.toNat)

/-- A sealed plaintext, of its own length, and its tag. -/
def gcmText (key nonce aad text : List Byte) : List Byte := (Config.gcmText key nonce aad text ++ zeros text.length).take text.length
def gcmTag (key nonce aad text : List Byte) : List Byte := beBytes 16 (Config.gcmTag key nonce aad text).toNat

end Sys2Proof.Machine
end

