-- ==== Sys2Proof/Machine/HostOps.lean ====
section
/-! DEFINITION. Hands and functions (R504–R531): who serves what, the start of commands in SEQ order, completions, decided steps, closing and
suspending hands, detaching a function. A hand's unit number is province · 4,096 + hand; a function's is its number. -/
namespace Sys2Proof.Machine

/-- States of `HAND_STATUS.STATE` (R515). -/
def H_CLOSED : Nat := 0
def H_OPEN : Nat := 1
def H_ERROR : Nat := 2
def H_SUSPENDED : Nat := 3

def handKey (p h : Nat) : Nat := p * 4096 + h
def State.hand (s : State) (k : Nat) : Hand := Sparse.get Hand.init s.hands k
def State.setHand (s : State) (k : Nat) (x : Hand) : State := { s with hands := Sparse.set Hand.init s.hands k x }
def State.fn (s : State) (f : Nat) : Fn := Sparse.get Fn.init s.fns f
def State.setFn (s : State) (f : Nat) (x : Fn) : State := { s with fns := Sparse.set Fn.init s.fns f x }
def State.handState (s : State) (k : Nat) : Nat := s.fld k HAND_STATUS_STATE

/-- The province a function serves (R504, R506): its own number while that province exists, PF0's grant; 0 for none. -/
def State.fnProv (s : State) (f : Nat) : Nat :=
  let p := if f = 0 then s.fld 0 HIF_PF0_GRANT_PROV else f
  if p = 0 ∨ (s.prov p).st = .none_ then 0 else p

/-- Whether a function is there: PF0, or a virtual function that NumVFs enables (R504). (DEDUCED: log 97) -/
def State.fnOn (s : State) (f : Nat) : Bool := f == 0 || decide (f ≤ (s.fn 0).numVfs)

/-- Whether a function may issue requests (R511, R526, R567): ATTACHED, Bus Master Enable 1, no TDISP error. -/
def State.fnUp (s : State) (f : Nat) : Bool :=
  s.fnOn f && s.fld f HIF_FN_STATUS_ATTACH == 0 && (s.fn f).bme && (s.fn f).tdisp != .error

/-- The hand that a function and a number name, by unit (R513); none where the function serves no such hand. -/
def State.handOf (s : State) (f h : Nat) : Option Nat :=
  let p := s.fnProv f
  if p = 0 ∨ s.fld p PROV_HANDS_COUNT ≤ h then none else some (handKey p h)

/-- Fields of a submission entry (R516, R517). -/
def HandCmd.op (c : HandCmd) : Nat := leAt c.entry 4 1
def HandCmd.flags (c : HandCmd) : Nat := leAt c.entry 5 1
def HandCmd.tag (c : HandCmd) : Nat := leAt c.entry 8 4
def HandCmd.q (c : HandCmd) (i : Nat) : Nat := leAt c.entry (12 + 8 * i) 8
def HandCmd.len (c : HandCmd) : Nat := leAt c.entry 28 4
def HandCmd.handle (c : HandCmd) : Nat := leAt c.entry 40 4
def HandCmd.talon (c : HandCmd) : Nat := leAt c.entry 44 1

/-- Whether a command is over: its entry waits for those before it, or is written. -/
def HandCmd.over (c : HandCmd) : Bool := match c.st with | .complete _ _ _ _ => true | .written _ _ _ _ => true | _ => false
def HandCmd.started (c : HandCmd) : Bool := c.st != .waiting
/-- Exclusive commands (R518): LOAD_ATLAS and START. -/
def HandCmd.exclusive (c : HandCmd) : Bool := c.op == 1 || c.op == 2
/-- Data commands (R518): WRITE and READ. -/
def HandCmd.data (c : HandCmd) : Bool := c.op == 3 || c.op == 4

/-- Whether the command with a SEQ may start, or a LOAD_ATLAS that waited for its ports may read its image again (R518, R519): every earlier one has started, exclusive ones alone, at most 8 data commands at once and none
over an earlier one's extent. -/
def Hand.mayStart (x : Hand) (seq : Nat) : Option HandCmd :=
  let before := x.cmds.takeWhile (fun c => c.seq != seq)
  match x.cmds.find? (fun c => c.seq == seq) with
  | some c =>
    let run := before.filter (fun d => d.data && !d.over)
    if (c.st = .waiting ∨ (c.op = 1 ∧ c.st = .running)) ∧ before.all HandCmd.started ∧ before.all (fun d => d.over || (!d.exclusive && !c.exclusive)) ∧
        (!c.data ∨ (run.length < 8 ∧ !run.any (fun d => decide (d.q 1 < c.q 1 + c.len) && decide (c.q 1 < d.q 1 + d.len)))) then some c
    else none
  | none => none

/-- A command takes another state. -/
def State.setCmd (s : State) (k seq : Nat) (st : CmdState) : State :=
  let x := s.hand k
  s.setHand k { x with cmds := x.cmds.map (fun c => if c.seq = seq then { c with st := st } else c) }

/-- Bytes that cryptography fixes and the model leaves open: signatures, nonces, public keys. (DESIGN CHOICE: log 91) -/
def State.freeBytes (s : State) (n : Nat) : List Byte × State :=
  ((List.range n).map (fun i => BitVec.ofNat 8 ((Config.freeWord (s.free + i / 8)).toNat / 2 ^ (8 * (i % 8)))), { s with free := s.free + (n + 7) / 8 })

/-- A completion entry (R521). -/
def complBytes (seq op log2 status tag r0 r1 frame : Nat) (mac : List Byte) : List Byte :=
  leBytes 4 seq ++ leBytes 1 op ++ leBytes 1 (1 - seq / 2 ^ log2 % 2) ++ leBytes 2 status ++ leBytes 4 tag ++ leBytes 8 r0 ++ leBytes 8 r1 ++
  leBytes 8 frame ++ zeros 12 ++ mac

/-- Bytes at consecutive addresses. -/
def cellsAt (a : Nat) (bs : List Byte) : List (Nat × Byte) := bs.zipIdx.map (fun b => (a + b.2, b.1))

/-- A plaintext of a hand sealed for the host (R532): the ciphertext and the tag, under the keys of the hand's session, its function and number and how often it was opened or
resumed before; kind 1 is a completion entry, kind 2 a data page. (DESIGN CHOICE: log 91) -/
def State.handSeal (s : State) (k kind seq page : Nat) (aad text : List Byte) : List Byte × List Byte :=
  let x := s.hand k
  let ems := ((s.stw.sessions.find? (fun y => y.id == s.fld k HAND_SESSION_SESSION)).map (fun y => Config.exportSecret y.secret)).getD []
  let key := (hkdfExpand ems (ascii "TFK1 hand" ++ beBytes 2 x.fn ++ beBytes 2 (k % 4096) ++ beBytes 4 (x.gen - 1)) 64).drop 32
  let nonce := beBytes 1 kind ++ beBytes 6 seq ++ beBytes 5 page
  (gcmText key nonce aad text, gcmTag key nonce aad text)

/-- The completion entry of a command is written to the host (R521, R525, R532). -/
def State.writeCompl (s : State) (k : Nat) (c : HandCmd) (status r0 r1 frame : Nat) : State :=
  let log2 := s.fld k HAND_CTRL_LOG2SIZE
  let secure := s.fld k HAND_CTRL_SECURE == 1
  let entry := complBytes c.seq c.op log2 status c.tag r0 r1 frame
  let mac := if secure then (s.handSeal k 1 c.seq 0 (entry []) []).2 else zeros 16
  (s.emit (.hostData (s.hand k).fn (cellsAt (s.fld k HAND_CPL_BASE_ADDR * 4096 + 64 * (c.seq % 2 ^ log2)) (entry mac)))).setCmd k c.seq
    (.written status r0 r1 frame)

/-- NOP and reserved opcodes complete when they start (R517). -/
def State.runNops (s : State) (k : Nat) : State :=
  (s.hand k).cmds.foldl (fun s c =>
    if c.op = 0 ∨ 6 < c.op then
      match (s.hand k).mayStart c.seq with
      | some _ => s.setCmd k c.seq (.complete (if c.op = 0 then HS_OK else HS_BAD_OPCODE) 0 0 s.frame)
      | none => s
    else s) s

/-- Completion entries are written in SEQ order while the function may issue requests (R518, R525). -/
def State.writeOver (s : State) (k : Nat) : State :=
  if s.fnUp (s.hand k).fn then
    ((s.hand k).cmds.takeWhile HandCmd.over).foldl (fun s c => match c.st with
      | .complete a b d e => s.writeCompl k c a b d e
      | _ => s) s
  else s

/-- A closing hand with nothing left is CLOSED (R515). (DEDUCED: log 90) -/
def State.closeEmpty (s : State) (k : Nat) : State :=
  let x := s.hand k
  if x.closing ∧ x.cmds = [] then
    (s.setHand k { x with closing := false, prod := 0, mismatch := none }).setFld k HAND_STATUS_STATE H_CLOSED
  else s

/-- A hand goes on (R515, R517, R518, R525): NOPs that may start complete, completions are written, and a closing hand with nothing left is CLOSED. -/
def State.advance (s : State) (k : Nat) : State := ((s.runNops k).writeOver k).closeEmpty k

/-- RESULT0 of a command that moves nothing and decides nothing, by its opcode (R521): the seed in force, or S0. -/
def State.result0 (s : State) (k : Nat) (c : HandCmd) : Nat :=
  if c.op = 1 then (s.reg (k / 4096) PROV_SR_SEED).toNat else if c.op = 2 then c.q 0 else 0

/-- A command completes (R521). -/
def State.complete (s : State) (k seq status r0 r1 : Nat) : State := (s.setCmd k seq (.complete status r0 r1 s.frame)).advance k

/-- The hands of a province, by unit. -/
def State.handsOf (s : State) (p : Nat) : List Nat := (s.hands.map Prod.fst).filter (fun k => k / 4096 == p)

/-- The latest record of a decided step in the step log (R355, R676): the result and its frame; none when the log no longer holds it. -/
def State.decided (s : State) (p step : Nat) : Option (Nat × Nat) :=
  let g := s.img p
  match g.sect 10 with
  | none => none
  | some x =>
    let base := g (x.off + 48) 8
    let size := g (x.off + 56) 4
    ((List.range (min size (s.prov p).logSeq)).map (fun i => base + 32 * (((s.prov p).logSeq - 1 - i) % size))).findSome? (fun a =>
      let r := s.vle p (a + 8) 1
      if s.vle p a 8 = step ∧ (r = 3 ∨ r = 4) then some (r, s.vle p (a + 16) 8) else none)

/-- WAIT_STEP as R676 judges it: the status and results it completes with, or none while it waits; one that has waited (`woken`) learns of the decision as it is made. -/
def State.judgeWait (s : State) (p step : Nat) (woken : Bool) : Option (Nat × Nat × Nat) :=
  let pr := s.prov p
  let st := s.fld p PROV_STEP_STATE_STATE
  let now := (s.reg p PROV_STEP).toNat
  if !pr.loaded then some (HS_PROV_STATE, 0, 0)
  else if pr.cur.isNone then none
  else if step < pr.startStep then some (HS_PROV_STATE, 0, 0)
  else if step < now ∨ (step = now ∧ (st = 3 ∨ st = 4)) then
    match s.decided p step with
    | some (r, f) => some (HS_OK, r, f)
    | none => if woken && step == now then some (HS_OK, st, s.frame) else some (HS_OK, 0, 0)
  else none

/-- WAIT_STEPs that have been waiting are judged again (R676). -/
def State.wakeWaits (s : State) (p : Nat) : State :=
  (s.handsOf p).foldl (fun s k =>
    (s.hand k).cmds.foldl (fun s c =>
      if c.op = 5 ∧ c.st = .running then
        match s.judgeWait p (c.q 0) true with
        | some (a, b, d) => s.complete k c.seq a b d
        | none => s
      else s) s) s

/-- Every waiting WAIT_STEP completes with ABORTED (R519). -/
def State.abortWaits (s : State) (p : Nat) : State :=
  (s.handsOf p).foldl (fun s k =>
    (s.hand k).cmds.foldl (fun s c => if c.op = 5 ∧ c.st = .running then s.complete k c.seq HS_ABORTED 0 0 else s) s) s

/-- Commands of a province that some operation overtakes complete with ABORTED (R515, R554). -/
def State.abortCmds (s : State) (p : Nat) (f : HandCmd → Bool) : State :=
  (s.handsOf p).foldl (fun s k =>
    (s.hand k).cmds.foldl (fun s c => if f c ∧ (c.st = .waiting ∨ c.st = .running) then s.setCmd k c.seq (.complete HS_ABORTED (s.result0 k c) 0 s.frame) else s) s) s

/-- Every hand of a province closes (R515, R558). -/
def State.closeHands (s : State) (p : Nat) : State :=
  let s := s.abortCmds p (fun _ => true)
  (s.handsOf p).foldl (fun s k =>
    if s.handState k = H_CLOSED then s
    else if s.handState k = H_SUSPENDED then (s.setHand k { (s.hand k) with cmds := [], closing := false }).setFld k HAND_STATUS_STATE H_CLOSED
    else (s.setHand k { (s.hand k) with closing := true, mismatch := none }).advance k) s

/-- SPDM sessions that satisfy `f` end; secure hands under them are at their next detach or fetch without a session (R527, R531). -/
def State.endSessions (s : State) (f : SpdmSession → Bool) : State :=
  { s with stw := { s.stw with sessions := s.stw.sessions.filter (fun x => !f x) } }

/-- A word of a function's MSI-X table (R505), four to a vector: address low and high, data, vector control, whose bit 0 masks the vector. (PRESUMED: log 157) -/
def msixInit (i : Nat) : W32 := if i % 4 = 3 then 1 else 0
def Fn.msixWord (x : Fn) (i : Nat) : W32 := Sparse.get (msixInit i) x.msix i

/-- An MSI-X message is sent (R501, R525), or waits as a pending bit while its vector is masked. (PRESUMED: log 157) -/
def State.msix (s : State) (fn vec : Nat) : State :=
  let x := s.fn fn
  let w := fun i => (x.msixWord (4 * vec + i)).toNat
  if bitAt (w 3) 0 then s.setFn fn { x with pend := x.pend ||| 2 ^ vec }
  else (s.setFn fn { x with pend := setBits x.pend vec 1 0 }).emit (.msix fn vec (w 0 + w 1 * 2 ^ 32) (w 2))

/-- Vectors with their bit pending send, once they are unmasked and the function may send (R511). -/
def State.msixPend (s : State) (fn : Nat) : State :=
  if !s.fnUp fn then s else (List.range 64).foldl (fun s v => if bitAt (s.fn fn).pend v then s.msix fn v else s) s

/-- A word of the MSI-X table is written. (PRESUMED: log 157) -/
def State.msixWrite (s : State) (fn i : Nat) (v : W32) : State :=
  let x := s.fn fn
  (s.setFn fn { x with msix := Sparse.set (msixInit i) x.msix i v }).msixPend fn

/-- Interfaces lose their lock and their IDE keys (R567). -/
def State.unlockFn (s : State) (f : Nat) : State :=
  let s := s.setFn f { (s.fn f) with tdisp := .unlocked }
  let s := { s with stw := { s.stw with ide := s.stw.ide.filter (fun x => x.fn != some f && (f != 0 || x.fn.isSome)) } }
  s.setFld 0 HIF_LINK_STATUS_IDE (b01 (!s.stw.ide.isEmpty))

/-- A DETACHED function's `HIF_` registers at their reset values, with ATTACH, BOUND and PROV as they are (R9, R527). -/
def State.resetFnRegs (s : State) (f : Nat) : State :=
  let s := (s.clearRegs .hifFn f).setFld f HIF_FN_STATUS_ATTACH 1
  let p := s.fnProv f
  (s.setFld f HIF_FN_STATUS_BOUND (b01 (p != 0))).setFld f HIF_FN_STATUS_PROV p

/-- Running chains of a function whose descriptor reads or writes the host, or has host writes unconfirmed, wait for the host (R308, R529). -/
def State.holdChains (s : State) (f : Nat) : State :=
  { s with bulks := s.bulks.map (fun b => (b.1, match b.2.st, b.2.queue with
      | .running, j :: _ =>
        let x := s.jobDesc j
        if s.chainFn j.ctx.prov = f ∧ (j.hostWrote ∨ (j.desc < ((s.img j.ctx.prov).chainEnt j.req.chain).count ∧ s.usesHost j.ctx.prov x.1 x.2.1)) then { b.2 with st := .waitHost } else b.2
      | _, _ => b.2)) }

/-- A function becomes DETACHED (R526–R528): its hands are SUSPENDED, its `HIF_` registers and sessions are reset, and the policy may pause its
province; its chains that have to do with the host wait for it (R308). PERST_N gives the registers of a function that is already DETACHED their reset values too (R9).
Causes: 0 PERST_N, 1 DL_Down, 2 hot reset, 3 FLR. -/
def State.detachFn (s : State) (f cause : Nat) : State :=
  if s.fld f HIF_FN_STATUS_ATTACH = 1 then (let s := if cause = 1 then s else s.unlockFn f; if cause = 0 then s.resetFnRegs f else s)
  else
    let s := s.setFn f { (s.fn f) with bme := false, detachFrame := s.frame, cause := cause, lost := false, record := [], latch := none, msix := [], pend := 0, numVfs := 0 }
    let s := { s with memc := { s.memc with insets := s.memc.insets.filter (fun x => x.fn != f) } }
    let s := (s.resetFnRegs f).holdChains f
    let p := s.fnProv f
    let s : State := s.hands.foldl (fun s e =>
      if e.2.fn = f ∧ s.handState e.1 = H_OPEN then (s.setHand e.1 { (s.hand e.1) with mismatch := none }).setFld e.1 HAND_STATUS_STATE H_SUSPENDED else s) s
    let s : State := (s.endSessions (fun x => x.fn == some f || f == 0)).unlockFn f
    let s : State := if f = 0 then { s with stw := { s.stw with spdmState := 0, selFn := 0 } } else s
    if p ≠ 0 ∧ s.fld p PROV_HOST_POLICY_PAUSE = 1 ∧ (s.prov p).st = .running then s.requestUp p .pause else s

/-- Functions that take part in a reset of the whole link: PF0 and every virtual function whose province exists or that has state. -/
def allFns : List Nat := List.range 256

/-- The chains of a function that wait for the host (R529). -/
def State.hostChains (s : State) (f : Nat) : List ChainJob :=
  s.bulks.filterMap (fun b => match b.2.st, b.2.queue with
    | .waitHost, j :: _ => if s.chainFn j.ctx.prov = f then some j else none
    | _, _ => none)

/-- The descriptor before the one a chain is at, back over the LINK descriptors that lead to it: where it restarts when that one's host writes are unconfirmed (R529). -/
def State.rewindTo (s : State) (j : ChainJob) : Nat → Nat
  | 0 => 0
  | k + 1 =>
    let g := s.img j.ctx.prov
    let e := g.chainEnt j.req.chain
    match k with
    | 0 => 0
    | i + 1 => if (g.chainDesc (e.first + i) j.req.arg).link then s.rewindTo j k else k
def State.rewind (s : State) (j : ChainJob) : ChainJob :=
  if j.hostWrote then { j with desc := s.rewindTo j j.desc, carry := none, hostWrote := false } else j

/-- Bytes that a chain has written to the host without confirmation (R525, R529). -/
def State.chainUnconf (s : State) (j : ChainJob) : Nat :=
  if !j.hostWrote then 0
  else
    let p := j.ctx.prov
    let d := (s.jobDesc { j with desc := j.desc - 1 }).1
    d.dqr * d.dqc * quadBytes (sideNib s p d.fd) (d.fd == 18) + (if sideBs s p d.fd then 16 * d.dqr * (d.dqc / 2) else 0)

/-- Bytes a command may still have unconfirmed (R525, R529): a READ's data, and a written completion entry. -/
def HandCmd.unconfBytes (c : HandCmd) : Nat := match c.st with | .unconf _ _ _ _ => c.len | .written _ _ _ _ => 64 | _ => 0

/-- The hands of a function that a detach holds: those SUSPENDED, and those in ERROR, whose running commands go on (R515, R527). -/
def State.suspended (s : State) (f : Nat) : List Nat :=
  (s.hands.filter (fun e => e.2.fn == f && (s.handState e.1 == H_SUSPENDED || s.handState e.1 == H_ERROR))).map Prod.fst

/-- A detached function is REATTACHING, and its record is filled (R529). -/
def State.reattachFn (s : State) (f : Nat) : State :=
  if s.fld f HIF_FN_STATUS_ATTACH ≠ 1 then s
  else
    let p := s.fnProv f
    let x := s.fn f
    let hs := (s.suspended f).filter (fun k => s.handState k == H_SUSPENDED)
    let cmds := (s.suspended f).flatMap (fun k => (s.hand k).cmds)
    let started := (cmds.filter (fun c => c.started && !c.over)).length
    let chains := s.hostChains f
    let unconf := cmds.foldl (fun n c => n + c.unconfBytes) 0 + chains.foldl (fun n j => n + s.chainUnconf j) 0
    let rec_ := leBytes 8 x.detachFrame ++ leBytes 8 s.frame ++ leBytes 1 x.cause ++ leBytes 1 (s.fld p PROV_STATE_STATE) ++ leBytes 2 hs.length ++
      leBytes 4 started ++ leBytes 8 unconf ++ leBytes 8 (s.reg p PROV_STEP).toNat ++ leBytes 2 chains.length ++ zeros 22
    (s.setFn f { x with attachFrame := s.frame, record := rec_ }).setFld f HIF_FN_STATUS_ATTACH 2

/-- A secure hand without a live session bound to its function (R531, R533). -/
def State.noSession (s : State) (k f : Nat) : Bool :=
  s.fld k HAND_CTRL_SECURE == 1 && !s.stw.sessions.any (fun x => x.id == s.fld k HAND_SESSION_SESSION && x.done && x.fn == some f)

/-- A hand's commands are dropped, and one that was SUSPENDED is CLOSED (DISCARD, R529). -/
def State.discardHand (s : State) (k : Nat) : State :=
  let t := s.setHand k { (s.hand k) with cmds := [], closing := false, prod := 0, mismatch := none, heldBell := none }
  if s.handState k = H_ERROR then t else t.setFld k HAND_STATUS_STATE H_CLOSED

end Sys2Proof.Machine
end

