-- ==== Sys2Proof/Machine/NetOps.lean ====
section
/-! DEFINITION. Ports and links as other files see them: lane modes (R437–R439), slot tables (R474), owners (R455), statistics (R462, R463), link
loss, paths (R472, R473, R485), the raise of lowered ports (R457). A port's unit number is its own; NDX is unit 0. -/
namespace Sys2Proof.Machine

/-- The DIE code of fabric die `f` (R587). -/
def fdDie (f : Nat) : Nat := 8 + f

/-- Port power states (R23, `ETH_PORT_STATUS.POWER`). -/
def PW_ACTIVE : Nat := 0
def PW_PARKING : Nat := 1
def PW_PARKED : Nat := 2
def PW_WAKING : Nat := 3

def State.port (s : State) (n : Nat) : Port := Sparse.get Port.init s.net.ports n
def State.setPort (s : State) (n : Nat) (x : Port) : State := { s with net := { s.net with ports := Sparse.set Port.init s.net.ports n x } }

/-- The field of quarter `q`. -/
def quarterFld (q : Nat) : Fld := match q with | 0 => ETH_LANE_MODE_Q0 | 1 => ETH_LANE_MODE_Q1 | 2 => ETH_LANE_MODE_Q2 | _ => ETH_LANE_MODE_Q3

/-- The lanes of the port whose first lane is `r` of quarter `q`, from the four modes (R438); 0 for no port. -/
def modeWidth (m : Nat → Nat) (q r : Nat) : Nat :=
  match m q with
  | 0 => if r = 0 ∧ q % 2 = 0 ∧ m (q + 1) = 0 then 8 else 0
  | 1 => if r = 0 then 4 else 0
  | 2 => if r % 2 = 0 then 2 else 0
  | 3 => 1
  | 4 => if r = 0 then 2 else if 2 ≤ r then 1 else 0
  | 5 => if r ≤ 1 then 1 else if r = 2 then 2 else 0
  | _ => 0

/-- The lanes of port `n`, 0 where `n` names no port (R437). -/
def State.portLanes (s : State) (n : Nat) : Nat := if 64 ≤ n then 0 else modeWidth (fun q => s.fld (n / 16) (quarterFld q)) (n % 16 / 4) (n % 4)

/-- The port that holds a lane. -/
def State.portOfLane (s : State) (lane : Nat) : Option Nat :=
  ((List.range 8).map (fun i => lane - i)).find? (fun n => decide (n ≤ lane) && decide (lane < n + s.portLanes n) && decide (n / 16 = lane / 16))

/-- The data rate of a port in Gb/s (R438, R457). -/
def State.portRate (s : State) (n : Nat) : Nat :=
  s.portLanes n * (if s.fld n ETH_PORT_CTRL_RATE = 1 ∨ s.fld n ETH_PORT_STATUS_LOWERED = 1 then 100 else 200)

/-- The slots that a frame of `len` bytes needs with its preamble and gap (R474, R475). -/
def slotsFor (len rate frameNs : Nat) : Nat := ceilDiv ((len + 20) * 8 * 256) (max 1 (rate * frameNs))

/-- The guard slots of a frame of `units` × 0.25 µs (spec file 02): 64,000 ns over the frame's length, rounded up. -/
def guardSlots (units : Nat) : Nat := ceilDiv 256 (max 1 units)

/-- The runs of one quarter of a port's table (R474). -/
def portQuarter (shares : List (Nat × Nat)) (m s q : Nat) : List Nat :=
  shares.flatMap (fun x =>
    let runs := min 4 (x.2 / max 1 m)
    List.replicate (if q < runs then x.2 / runs + (if q < x.2 % runs then 1 else 0) else 0) x.1) ++
  List.replicate (s / 4 + (if q < s % 4 then 1 else 0)) 0

/-- The table of R474: 256 entries, an owner each. (DEDUCED: log 79) -/
def portSlots (shares : List (Nat × Nat)) (g m : Nat) : List Nat :=
  let u := 256 - g
  let t := (List.range 4).flatMap (portQuarter shares m (ceilDiv u 64))
  t ++ List.replicate (u - t.length) 0 ++ List.replicate g 0x0300

/-- `build_port_table` of R474; none where the seal is refused. -/
def buildPortTable (shares : List (Nat × Nat)) (g m : Nat) : Option (List Nat) :=
  let u := 256 - g
  if u - ceilDiv u 64 < shares.foldl (fun a x => a + x.2) 0 ∨ shares.any (fun x => decide (x.2 < m)) then none else some (portSlots shares g m)

/-- The slot table of a port (R474), as it was last built. -/
def State.portTable (s : State) (n : Nat) : List Nat :=
  portSlots (s.port n).shares (guardSlots (s.fld 0 MER_TICK_PERIOD_PERIOD)) (s.port n).slotM

/-- The shares that provinces hold on a port, in increasing ID, those in `skip` left out (R474). -/
def State.portShares (s : State) (n skip : Nat) : List (Nat × Nat) :=
  (s.provs.filter (fun e => e.1 != skip && (e.2.st == .sealed_ || e.2.st == .running || e.2.st == .paused) &&
    bitAt (s.fld e.1 PROV_LINK_PORTS_PORTS) n && s.fld e.1 PROV_LINK_SLOTS_SLOTS != 0)).map (fun e => (e.1, s.fld e.1 PROV_LINK_SLOTS_SLOTS))

/-- Add to counter `i` of a port (R462, R463): 56 bits for the octet counters, else 48, wrapping, with the half-range interrupt. -/
def State.ethStat (s : State) (n i k : Nat) : State :=
  let w := if i = 1 ∨ i = 2 ∨ i = 37 then 56 else 48
  let v := s.fld n (ETH_STAT_COUNT i)
  let v' := (v + k) % 2 ^ w
  let s := s.setFld n (ETH_STAT_COUNT i) v'
  if bitAt v' (w - 1) && !bitAt v (w - 1) then (s.orFld n ETH_STAT_HALF_HALF (2 ^ i)).emit (.stewardIrq (srvPort n)) else s

/-- A port takes another power state (R455–R457): entries to PARKING are counted, and the time in PARKED is counted when it ends (R462). (PRESUMED: log 73) -/
def State.setPower (s : State) (n w : Nat) : State :=
  let was := s.fld n ETH_PORT_STATUS_POWER
  let s := if was = PW_PARKED ∧ w ≠ PW_PARKED then s.ethStat n 60 ((s.frameTime - (s.port n).parkedAt) / 1000) else s
  let s := if w = PW_PARKING ∧ was ≠ PW_PARKING then s.ethStat n 59 1 else s
  let s := if w = PW_PARKED ∧ was ≠ PW_PARKED then s.setPort n { (s.port n) with parkedAt := s.frameTime } else s
  s.setFld n ETH_PORT_STATUS_POWER w

/-- A port starts to be raised (R457): PARKING, then a retrain, then WAKING; one whose lowering is under way turns back. -/
def State.raisePort (s : State) (n : Nat) : State :=
  match (s.port n).retrain with
  | none => (s.setPort n { (s.port n) with retrain := some .raise }).setPower n PW_PARKING
  | some .lower => s.setPort n { (s.port n) with retrain := some .raise }
  | some _ => s

/-- Whether a port runs lowered, or is about to (R457). -/
def State.goesLow (s : State) (n : Nat) : Bool := s.fld n ETH_PORT_STATUS_LOWERED == 1 || (s.port n).retrain == some .lower

/-- SINGLE and OWNER (R455); only a single-owner port holds off (R452); a parked port that becomes shared wakes (R457), a lowered one is raised: it stays ACTIVE at its configured rate. -/
def State.portOwner (s : State) (n : Nat) : State :=
  let l := (s.port n).shares.map Prod.fst
  let s := (s.setFld n ETH_PORT_STATUS_SINGLE (b01 (decide (l.length ≤ 1)))).setFld n ETH_PORT_STATUS_OWNER (if l.length = 1 then l.getD 0 0 else 0)
  let s := if l.length = 1 then s else s.setFld n ETH_PFC_STATUS_XOFF 0
  if l.length ≤ 1 then s
  else if s.goesLow n then s.raisePort n
  else if s.fld n ETH_PORT_STATUS_POWER = PW_PARKED ∧ (s.port n).retrain.isNone then s.setPower n PW_WAKING
  else if s.fld n ETH_PORT_STATUS_POWER = PW_PARKING then s.setPort n { (s.port n) with wakeNext := true }
  else s

/-- Every port's slot table is rebuilt at a seal or a dissolution (R474). (DEDUCED: log 79) -/
def State.rebuildPorts (s : State) (skip : Nat) : State :=
  (List.range 64).foldl (fun s n =>
    if s.portLanes n = 0 then s
    else
      let m := slotsFor (s.fld n ETH_PORT_CTRL_MAXFRAME) (s.portRate n) s.frameLen
      (s.setPort n { (s.port n) with shares := s.portShares n skip, slotM := m }).portOwner n) s

/-- Add to counter `i` of the NDX block (R500). -/
def State.ndxCnt (s : State) (i k : Nat) : State :=
  let v := s.fld 0 (NDX_CNT_COUNT i)
  let v' := (v + k) % 2 ^ 48
  let s := s.setFld 0 (NDX_CNT_COUNT i) v'
  if bitAt v' 47 && !bitAt v 47 then (s.orFld 0 NDX_CNT_HALF_HALF (2 ^ i)).emit (.stewardIrq srvStw) else s

/-- The size counter of a length (R462), counted from 0; none below 64 bytes. -/
def sizeBucket (len : Nat) : Option Nat :=
  if len < 64 then none
  else if len = 64 then some 0
  else if len < 128 then some 1
  else if len < 256 then some 2
  else if len < 512 then some 3
  else if len < 1024 then some 4
  else if len < 1519 then some 5
  else if len < 2048 then some 6
  else if len < 4096 then some 7
  else if len < 8192 then some 8
  else some 9

/-- Whether an instant may have come: time is known to the frame. (DESIGN CHOICE: log 7) -/
def State.mayBe (s : State) (t : Nat) : Bool := decide (t < s.frameTime + max 1 s.frameLen)

/-- Whether a path of a link by port `n` is up (R473, R498): on an ACTIVE port, a packet from the peer's port was heard and the path has not gone silent since. -/
def State.pathUp (s : State) (l : Link) (n : Nat) : Bool :=
  s.fld n ETH_PORT_STATUS_LINK == 1 && (s.fld n ETH_PORT_CTRL_MACSEC_EN == 0 || s.fld 0 (NDX_MSEC_CTRL_SECURE n) == 1) &&
  (s.fld n ETH_PORT_STATUS_POWER != PW_ACTIVE || l.paths.contains n)

/-- The ports a link may use: its province's port set, every port for the control link (R472). -/
def State.linkPorts (s : State) (l : Link) : List Nat :=
  (List.range 64).filter (fun n => s.portLanes n != 0 && (l.prov == 0 || bitAt (s.fld l.prov PROV_LINK_PORTS_PORTS) n))
def State.upPaths (s : State) (l : Link) : List Nat := (s.linkPorts l).filter (s.pathUp l)

/-- Whether the rank table of a province names this device and another, neither LOST (R420, R490). -/
def State.shares (s : State) (p devid : Nat) : Bool :=
  let t := (s.prov p).ranktab
  decide (2 ≤ s.nranks p) && devid != s.stw.devid && t.any (fun e => e.devid == s.stw.devid && e.state != 1) && t.any (fun e => e.devid == devid && e.state != 1)

/-- The port that a handshake with a device leaves on: the lowest of a shared province's set with link (R489). -/
def State.hsPort (s : State) (devid : Nat) : Option Nat :=
  (List.range 64).find? (fun n => s.portLanes n != 0 && s.fld n ETH_PORT_STATUS_LINK == 1 && s.provs.any (fun e => s.shares e.1 devid && bitAt (s.fld e.1 PROV_LINK_PORTS_PORTS) n))

/-- Every path of a port goes down: packets whose last copy left on it are sent again at once (R473, R485). -/
def Link.dropPath (n : Nat) (l : Link) : Link :=
  { l with paths := l.paths.filter (fun x => x != n),
           tx := l.tx.map (fun t => (t.1, { t.2 with pkts := t.2.pkts.map (fun k => if k.port = some n then { k with due := true } else k) })) }
def State.pathsDown (s : State) (n : Nat) : State := { s with net := { s.net with links := s.net.links.map (Link.dropPath n) } }

/-- A port's link is gone (R459, R460). -/
def State.clearLink (s : State) (n : Nat) : State :=
  (((s.setFld n ETH_PORT_STATUS_LINK 0).setFld n ETH_PORT_STATUS_AN_DONE 0).setFld n ETH_PORT_STATUS_FEC_LOCK 0).pathsDown n

/-- Whether every link of a province is keyed (R490). -/
def State.linksKeyed (s : State) (p : Nat) : Bool :=
  decide (s.nranks p ≤ 1) ||
  (s.prov p).ranktab.all (fun e => match e.rank with
    | some r => e.state != 0 || r == s.rank p || s.net.links.any (fun l => l.prov == p && l.peer == r && l.keyed && !l.lost)
    | none => true)

/-- The ports of a province that run lowered, or are being lowered or raised: its Atlas load waits for them (R457). -/
def State.loweredPorts (s : State) (p : Nat) : List Nat :=
  (List.range 64).filter (fun n => bitAt (s.fld p PROV_LINK_PORTS_PORTS) n && (s.goesLow n || (s.port n).retrain == some .raise))

end Sys2Proof.Machine
end

