-- ==== Sys2Proof/Machine/AddressMap.lean ====
section
/-! DEFINITION. The address map (spec file 23): where registers lie in the device physical space (R662–R666) and in the BAR0 of a function (R505, R667–R669), and
which of them a function reads and writes (R613, R670). -/
namespace Sys2Proof.Machine

/-- A register as an access names it: block, unit, offset in the block. -/
structure RegAt where
  block : Block
  unit : Nat
  off : Nat
deriving DecidableEq, Repr

/-- The global channel of a compute die's channel `k` (R665). -/
def globalChan (d k : Nat) : Nat := 32 * (3 * (d / 2) + k / 16) + 16 * (d % 2) + k % 16

/-- The CSR blocks (R201) of a tile's register area (R663). -/
def csrBlock (tile b off : Nat) : Option RegAt :=
  match b with
  | 0 => some ⟨.cc, tile, off⟩
  | 1 => some ⟨.tile, tile, off⟩
  | 2 => some ⟨.vec, tile, off⟩
  | 3 => some ⟨.crrTile, tile, off⟩
  | 4 => some ⟨.srv, srvTile tile, off⟩
  | _ => none

/-- The block of a compute die's register space (R664). -/
def computeDieReg (d o : Nat) : Option RegAt :=
  if o < 0x1000 then some ⟨.dlr, d, o⟩
  else if 0x10000 ≤ o ∧ o < 0x11000 then some ⟨.crrDie, d, o - 0x10000⟩
  else if 0x20000 ≤ o ∧ o < 0x21000 then some ⟨.tal, d, o - 0x20000⟩
  else if 0x30000 ≤ o ∧ o < 0x30400 then some ⟨.srv, srvDie d, o - 0x30000⟩
  else if 0x100000 ≤ o ∧ o < 0x130000 then some ⟨.mem, globalChan d ((o - 0x100000) / 0x1000), o % 0x1000⟩
  else if 0x200000 ≤ o ∧ o < 0x20C000 then some ⟨.srv, srvChan (globalChan d ((o - 0x200000) / 0x400)), o % 0x400⟩
  else none

/-- The ETH block of a fabric die (R468). -/
def ethReg (f o : Nat) : Option RegAt :=
  if o < 0x1000 then some ⟨.ethDie, f, o⟩
  else if o < 0x5000 then some ⟨.ethPort, 16 * f + (o - 0x1000) / 0x400, o % 0x400⟩
  else none

/-- The block of a fabric die's register space (R664); the RDE's registers per province exist in FD0 alone (R417). -/
def fabricDieReg (f o : Nat) : Option RegAt :=
  if o < 0x10000 then ethReg f o
  else if o < 0x12000 then (if f = 0 ∨ o < 0x10100 then some ⟨.rde, f, o - 0x10000⟩ else none)
  else if 0x20000 ≤ o ∧ o < 0x21000 then (if f = 0 then some ⟨.ndx, 0, o - 0x20000⟩ else none)
  else if 0x30000 ≤ o ∧ o < 0x34000 then some ⟨.srv, srvPort (16 * f + (o - 0x30000) / 0x400), o % 0x400⟩
  else if 0x40000 ≤ o ∧ o < 0x40400 then some ⟨.srv, srvRde f, o - 0x40000⟩
  else none

/-- The block of the steward die's register space (R664). -/
def stewardDieReg (o : Nat) : Option RegAt :=
  if 0x70000 ≤ o ∧ o < 0x70400 then some ⟨.srv, srvStw, o - 0x70000⟩
  else if 0x80400 ≤ o ∧ o < 0xC0000 then some ⟨.srv, srvProv ((o - 0x80000) / 0x400), o % 0x400⟩
  else if 0x101000 ≤ o ∧ o < 0x200000 then some ⟨.prov, (o - 0x100000) / 0x1000, o % 0x1000⟩
  else if 0x1000 ≤ o % 0x10000 then none
  else match o / 0x10000 with
  | 0 => some ⟨.dev, 0, o % 0x1000⟩
  | 1 => some ⟨.mer, 0, o % 0x1000⟩
  | 2 => some ⟨.stw, 0, o % 0x1000⟩
  | 3 => some ⟨.pwr, 0, o % 0x1000⟩
  | 4 => some ⟨.tst, 0, o % 0x1000⟩
  | 5 => some ⟨.hifDev, 0, o % 0x1000⟩
  | 6 => some ⟨.gzt, 0, o % 0x1000⟩
  | _ => none

/-- The register block at a device physical address (R662–R664); none in memory, in a tile's stores and in reserved space. -/
def dpaReg (a : Nat) : Option RegAt :=
  if 0xF000000000 ≤ a ∧ a < 0xF400000000 then
    let d := bits a 31 3
    let r := bits a 27 4
    let c := bits a 21 6
    let o := a % 0x200000
    if c ≤ 32 ∧ 0x1A0000 ≤ o ∧ o < 0x1A5000 then csrBlock (d * 528 + r * 33 + c) ((o - 0x1A0000) / 0x1000) (o % 0x1000) else none
  else if 0xF800000000 ≤ a ∧ a < 0xF870000000 then
    let k := (a - 0xF800000000) / 0x4000000
    let o := a % 0x4000000
    if k < 8 then computeDieReg k o
    else if k < 12 then fabricDieReg (k - 8) o
    else if k = 12 then stewardDieReg o
    else none
  else none

/-- Whether a die collector is held by a province: it holds every allocation unit of the die (R613). -/
def State.holdsDie (s : State) (p d : Nat) : Bool := (List.range 32).all (fun c => (s.prov p).units.contains (d, c))

/-- Whether a province holds a Survey unit (R613). -/
def State.holdsUnit (s : State) (p u : Nat) : Bool :=
  p != 0 && (if u < 4224 then s.ownerOfTile u == p
    else if u < 4232 then s.holdsDie p (u - 4224)
    else if u < 4616 then (s.prov p).chans.contains (u - 4232)
    else u == srvProv p)

/-- The unit that a slot of the SRV window shows (R669). -/
def State.windowUnit (s : State) (p page slot : Nat) : Option Nat :=
  if page < 16 then s.tileOf p (256 * page + slot)
  else if page < 18 then ((s.prov p).chans[256 * (page - 16) + slot]?).map srvChan
  else if page = 18 then
    (if slot = 0 then some (srvProv p) else if slot ≤ 8 then some (srvDie (slot - 1)) else none)
  else none

/-- A function area (R505, R668), for the province behind the function. -/
def State.areaReg (s : State) (f o : Nat) : Option RegAt :=
  let p := s.fnProv f
  if o < 0x800 then some ⟨.hifFn, f, o⟩
  else if p = 0 then none
  else if 0x1000 ≤ o ∧ o < 0x41000 then
    (s.handOf f ((o - 0x1000) / 0x40)).map (fun k => ⟨.hand, k, o % 0x40⟩)
  else if 0x50000 ≤ o ∧ o < 0x51000 then some ⟨.dev, 0, o % 0x1000⟩
  else if 0x51000 ≤ o ∧ o < 0x52000 then some ⟨.mer, 0, o % 0x1000⟩
  else if 0x52000 ≤ o ∧ o < 0x53000 then some ⟨.prov, p, o % 0x1000⟩
  else if 0x80000 ≤ o ∧ o < 0xC0000 then
    match s.windowUnit p (s.fld f HIF_SRV_PAGE_PAGE) ((o - 0x80000) / 0x400) with
    | some u => if s.holdsUnit p u then some ⟨.srv, u, o % 0x400⟩ else none
    | none => none
  else none

/-- The host map of PF0 (R667), offsets from 1 MiB on. -/
def State.pf0Reg (s : State) (o : Nat) : Option RegAt :=
  if o < 0x110000 then
    match (o - 0x100000) / 0x1000 with
    | 0 => some ⟨.dev, 0, o % 0x1000⟩
    | 1 => some ⟨.mer, 0, o % 0x1000⟩
    | 2 => some ⟨.stw, 0, o % 0x1000⟩
    | 3 => some ⟨.pwr, 0, o % 0x1000⟩
    | 4 => some ⟨.tst, 0, o % 0x1000⟩
    | 5 => some ⟨.hifDev, 0, o % 0x1000⟩
    | 6 => some ⟨.ndx, 0, o % 0x1000⟩
    | _ => none
  else if o < 0x150000 then ethReg ((o - 0x110000) / 0x10000) (o % 0x10000)
  else if 0x201000 ≤ o ∧ o < 0x300000 then some ⟨.prov, (o - 0x200000) / 0x1000, o % 0x1000⟩
  else if 0x400000 ≤ o ∧ o < 0x800000 then
    let n := (o - 0x400000) / 0x400
    some ⟨.srv, srvTile (s.physTile (n / 512) (n / 32 % 16) (n % 32)), o % 0x400⟩
  else if 0x800000 ≤ o ∧ o < 0x860000 then some ⟨.srv, srvChan ((o - 0x800000) / 0x400), o % 0x400⟩
  else if 0x860000 ≤ o ∧ o < 0x862000 then some ⟨.srv, srvDie ((o - 0x860000) / 0x400), o % 0x400⟩
  else if 0x862000 ≤ o ∧ o < 0x863000 then some ⟨.srv, srvRde ((o - 0x862000) / 0x400), o % 0x400⟩
  else if 0x863000 ≤ o ∧ o < 0x863400 then some ⟨.srv, srvStw, o % 0x400⟩
  else if 0x870000 ≤ o ∧ o < 0x880000 then some ⟨.srv, srvPort ((o - 0x870000) / 0x400), o % 0x400⟩
  else if 0x880400 ≤ o ∧ o < 0x8C0000 then some ⟨.srv, srvProv ((o - 0x880000) / 0x400), o % 0x400⟩
  else none

/-- The register at an offset of a function's BAR0 (R505, R667, R668); none where the access does not reach the device (R527, R567), for an unbound function (R504, but
`HIF_FN_STATUS`) and at a reserved offset. -/
def State.barReg (s : State) (f o : Nat) : Option RegAt :=
  if 256 ≤ f ∨ !s.fnOn f ∨ s.fld f HIF_FN_STATUS_ATTACH = 1 ∨ (s.fn f).tdisp = .error then none
  else if f ≠ 0 ∧ s.fnProv f = 0 then (if o < 8 then some ⟨.hifFn, f, o⟩ else none)
  else if o < 0x100000 then s.areaReg f o
  else if f = 0 then s.pf0Reg o
  else none

/-- Registers that a function reads through the host map (R417, R468, R500, R607, R613, R670). (DEDUCED: log 95) -/
def RegAt.hostReads (r : RegAt) : Bool :=
  match r.block with
  | .ethDie => false
  | .ethPort => r.off / 4 == 2 || r.off / 4 == 10 || r.off / 8 == 8 || (decide (0x100 ≤ r.off) && decide (r.off < 0x300))
  | .ndx => r.off / 4 == 8 || (decide (0x100 ≤ r.off) && decide (r.off < 0x140))
  | .tst => decide (r.off < 0xC)
  | _ => true

/-- Registers that a function's plain writes reach (R535, R613, R670): `HIF_FN_STATUS`, hand registers, address filters, sampling and shadow selection of the
Survey. Other host-writable registers have commands of their own. (DEDUCED: log 15, 43, 95) -/
def RegAt.hostWrites (r : RegAt) : Bool :=
  match r.block with
  | .hifFn => decide (r.off < 8)
  | .hand => true
  | .srv => r.off / 8 == 0x60 || r.off / 8 == 0x61 || r.off / 8 == 0x62 || r.off / 8 == 0x65
  | _ => false

end Sys2Proof.Machine
end

