-- ==== Sys2Proof/Machine/ControlCore.lean ====
section
/-! DEFINITION. The control core's instructions (spec file 07): scalar integer and binary32, loads and stores, branches, trick context, waits,
GSYNC, SYS, and the events of seats and debug control. CSR accesses stand in their own file. -/
namespace Sys2Proof.Machine

/-- Instruction fields shared by the scalar classes (R191). -/
def fRD (i : Nat) : Nat := bits i 53 5
def fRA (i : Nat) : Nat := bits i 48 5
def fRB (i : Nat) : Nat := bits i 43 5

/-- The result of an OPR or OPI function (R192); none for a reserved function. -/
def scalarFn (fn : Nat) (a b : W64) : Option W64 :=
  let sh := b.toNat % 64
  match fn with
  | 0x00 => some (a + b)
  | 0x01 => some (a - b)
  | 0x02 => some (a &&& b)
  | 0x03 => some (a ||| b)
  | 0x04 => some (a ^^^ b)
  | 0x05 => some (a <<< sh)
  | 0x06 => some (a >>> sh)
  | 0x07 => some (a.sshiftRight sh)
  | 0x08 => some (if a.slt b then 1 else 0)
  | 0x09 => some (if a.ult b then 1 else 0)
  | 0x0A => some (if a.slt b then a else b)
  | 0x0B => some (if a.slt b then b else a)
  | 0x0C => some (if a.ult b then a else b)
  | 0x0D => some (if a.ult b then b else a)
  | 0x0E => some (a * b)
  | 0x0F => some (BitVec.ofInt 64 (a.toInt * b.toInt / 2 ^ 64))
  | 0x10 => some (BitVec.ofNat 64 (a.toNat * b.toNat / 2 ^ 64))
  | 0x11 => some (if a = b then 1 else 0)
  | 0x12 => some (BitVec.ofNat 64 (bits a.toNat sh (bits b.toNat 8 6 + 1)))
  | 0x13 => some (BitVec.ofNat 64 (64 - bitLen a.toNat))
  | 0x14 => some (BitVec.ofNat 64 ((List.range 64).foldl (fun n i => n + b01 (bitAt a.toNat i)) 0))
  | _ => none

/-- CLZ and POPC read one operand (R192). -/
def scalarUnary (fn : Nat) : Bool := fn == 0x13 || fn == 0x14

/-- A scalar instruction writes its result and the seat goes on. (DEDUCED: log 30) -/
def State.writeRd (s : State) (i : Issue) (v : W64) : State := s.issued i (i.pc + 1) (fun x => x.setReg (fRD i.insn) v)

/-- OPR (R191, R192). -/
def execOpr (tile seat : Nat) (s : State) : Res :=
  onIssue tile seat 0x01 s (fun i =>
    let fn := bits i.insn 37 6
    s.readyOr i [fRA i.insn, fRB i.insn] (
      if bits i.insn 0 37 ≠ 0 ∨ (scalarUnary fn ∧ fRB i.insn ≠ 0) then s.except i IX_ILLEGAL
      else match scalarFn fn (i.x.reg (fRA i.insn)) (i.x.reg (fRB i.insn)) with
      | some v => s.writeRd i v
      | none => s.except i IX_ILLEGAL))

/-- OPI (R191, R192): operand b is the immediate sign-extended. -/
def execOpi (tile seat : Nat) (s : State) : Res :=
  onIssue tile seat 0x02 s (fun i =>
    let fn := bits i.insn 42 6
    s.readyOr i [fRA i.insn] (
      if bits i.insn 32 10 ≠ 0 ∨ (scalarUnary fn ∧ bits i.insn 0 32 ≠ 0) then s.except i IX_ILLEGAL
      else match scalarFn fn (i.x.reg (fRA i.insn)) (BitVec.ofInt 64 (signed 32 i.insn)) with
      | some v => s.writeRd i v
      | none => s.except i IX_ILLEGAL))

/-- LIH (R191): bits [63:48] of RD. -/
def execLih (tile seat : Nat) (s : State) : Res :=
  onIssue tile seat 0x03 s (fun i =>
    s.readyOr i [fRD i.insn] (
      if bits i.insn 16 37 ≠ 0 then s.except i IX_ILLEGAL
      else s.writeRd i (BitVec.ofNat 64 (setBits (i.x.reg (fRD i.insn)).toNat 48 16 i.insn))))

/-- LI (R191): 48 bits, sign-extended. -/
def execLi (tile seat : Nat) (s : State) : Res :=
  onIssue tile seat 0x04 s (fun i =>
    if bits i.insn 48 5 ≠ 0 then s.except i IX_ILLEGAL else s.writeRd i (BitVec.ofInt 64 (signed 48 i.insn)))

/-- binary32 to a signed 64-bit integer by RZ (R193): NaN gives 0, values beyond the range the nearest limit. -/
def f32ToI64 (a : W32) : W64 :=
  match f32 a with
  | .nan => 0
  | .inf n => if n then 0x8000000000000000#64 else 0x7FFFFFFFFFFFFFFF#64
  | .fin n m e =>
    let t := roundAt .rz m e 0
    if n then (if t ≥ 2 ^ 63 then 0x8000000000000000#64 else BitVec.ofInt 64 (-(t : Int)))
    else if t ≥ 2 ^ 63 then 0x7FFFFFFFFFFFFFFF#64 else BitVec.ofNat 64 t

/-- The result of a FOP function (R193); none for a reserved function. -/
def fopFn (fn : Nat) (ra rb rd : W64) : Option W64 :=
  let a := ra.setWidth 32
  let b := rb.setWidth 32
  let d := rd.setWidth 32
  let w : W32 → Option W64 := fun v => some (v.setWidth 64)
  match fn with
  | 0x00 => w (add32 a b).1
  | 0x01 => w (sub32 a b).1
  | 0x02 => w (mul32 a b).1
  | 0x03 => w (min32 a b)
  | 0x04 => w (max32 a b)
  | 0x05 => some (if (f32 a).lt (f32 b) then 1 else 0)
  | 0x06 => some (if (f32 a).eqv (f32 b) then 1 else 0)
  | 0x07 => w (rne32 (Val.ofInt false ra.toInt 0))
  | 0x08 => some (f32ToI64 a)
  | 0x09 => w (canon32 (rne32 (Fmt.bf16.decode ra.toNat)))
  | 0x0A => some (BitVec.ofNat 64 (Fmt.bf16.toFloat .rne false (f32 a)).1)
  | 0x0B => w (abs32 a)
  | 0x0C => w (neg32 a)
  | 0x0D => w (fma32 a b d).1
  | _ => none

/-- The FOP functions with one operand (R193). -/
def fopUnary (fn : Nat) : Bool := [0x07, 0x08, 0x09, 0x0A, 0x0B, 0x0C].contains fn

/-- FOP (R193). -/
def execFop (tile seat : Nat) (s : State) : Res :=
  onIssue tile seat 0x05 s (fun i =>
    let fn := bits i.insn 37 6
    s.readyOr i ([fRA i.insn, fRB i.insn] ++ if fn = 0x0D then [fRD i.insn] else []) (
      if bits i.insn 0 37 ≠ 0 ∨ (fopUnary fn ∧ fRB i.insn ≠ 0) then s.except i IX_ILLEGAL
      else match fopFn fn (i.x.reg (fRA i.insn)) (i.x.reg (fRB i.insn)) (i.x.reg (fRD i.insn)) with
      | some v => s.writeRd i v
      | none => s.except i IX_ILLEGAL))

/-- A command enters the vector queue (R174, R196), which has room. `busy` names a register the command will write. -/
def State.vecIssue (s : State) (i : Issue) (words : List Nat) (site : Bool) (busy : Option Nat) : State :=
  let t := s.tile i.tile
  let cmd : VecCmd := ⟨i.seat, t.seq, i.insn, words, siteWord i.seat i.x.site⟩
  (s.setTile i.tile { t with vq := t.vq ++ [cmd], seq := t.seq + 1 }).issued i (i.pc + 1) (fun x =>
    let x := { x with site := if site then x.site + 1 else x.site }
    match busy with | some r => x.await r t.seq | none => x)

/-- An instruction for the vector queue waits while a register it reads is outstanding or the queue is full; its checks are made in the cycle in
which it issues (R186, R188). -/
def State.vecOr (s : State) (i : Issue) (rs : List Nat) (f : State) : State :=
  if i.blocked rs ∨ 8 ≤ (s.tile i.tile).vq.length then s.stall i else f

/-- The checks of LD and ST (R194, R195, R675). -/
def ldstChecks (insn addr : Nat) : List (Bool × Nat) :=
  let n := 2 ^ bits insn 46 2
  [(addr % n != 0, IX_ALIGN), (decide (addr + n > sheetSize), IX_RANGE)]

/-- LD (R194–R196): the load waits in the vector queue; RD is outstanding until LD_COMPLETE. -/
def execLd (tile seat : Nat) (s : State) : Res :=
  onIssue tile seat 0x06 s (fun i =>
    let a := ldAddr (i.reg (fRA i.insn)) i.insn
    s.vecOr i [fRA i.insn] (
      if bits i.insn 21 24 ≠ 0 ∨ (bits i.insn 46 2 = 3 ∧ bitAt i.insn 45) then s.except i IX_ILLEGAL
      else match firstExc (ldstChecks i.insn a) with
      | some c => s.except i c 0 a
      | none => s.vecIssue i [a] false (some (fRD i.insn))))

/-- ST (R194–R196): the value is taken at issue. -/
def execSt (tile seat : Nat) (s : State) : Res :=
  onIssue tile seat 0x07 s (fun i =>
    let a := ldAddr (i.reg (fRA i.insn)) i.insn
    s.vecOr i [fRA i.insn, fRD i.insn] (
      if bits i.insn 21 25 ≠ 0 then s.except i IX_ILLEGAL
      else match firstExc (ldstChecks i.insn a) with
      | some c => s.except i c 0 a
      | none => (s.vecIssue i [a, i.reg (fRD i.insn)] false none).drainStores tile 8))

/-- The value an LD reads, zero- or sign-extended (R194). (DEDUCED: log 30) -/
def Tile.loadVal (t : Tile) (v : VecCmd) : W64 :=
  let n := 2 ^ bits v.insn 46 2
  let x := ofLE (t.bytes (wordAt v.words 0) n)
  if bitAt v.insn 45 then BitVec.ofInt 64 (signed (8 * n) x) else BitVec.ofNat 64 x

/-- LD_COMPLETE (R196): the load at the head of the vector queue writes its register. -/
def execLdComplete (tile : Nat) (s : State) : Res :=
  onTile tile (
    let t := s.tile tile
    match t.vq with
    | v :: rest =>
      if opcOf v.insn ≠ 0x06 ∨ s.overtakes tile (s.provOf tile) v.seq (v.spans s (s.provOf tile)) then s
      else if t.readBad (wordAt v.words 0) (2 ^ bits v.insn 46 2) then s.tileFault tile (wordAt v.words 0)
      else
        let t' := { t with vq := rest }
        (s.setTile tile (t'.setSeat v.seat ((t'.seat v.seat).arrive (fRD v.insn) v.seq (t.loadVal v)))).drainStores tile 8
    | [] => s)

/-- The condition of a BR (R197); none for a reserved one. -/
def brCond (c : Nat) (a b : W64) : Option Bool :=
  match c with
  | 0 => some (a == b)
  | 1 => some (a != b)
  | 2 => some (a.slt b)
  | 3 => some (!a.slt b)
  | 4 => some (a.ult b)
  | 5 => some (!a.ult b)
  | _ => none

/-- A branch target in the 12-bit PC space; `none` when it lies outside the program range (R198). -/
def Issue.target (i : Issue) (t : Int) : Option Nat :=
  if (i.c.first : Int) ≤ t ∧ t ≤ i.c.last then some t.toNat else none

/-- A jump to a target, or IX_PC with the target formed (R198). -/
def State.jump (s : State) (i : Issue) (t : Int) (f : Seat → Seat) : State :=
  match i.target t with
  | some pc => s.issued i pc f
  | none => s.except i IX_PC 0 (unsigned 64 t)

/-- BR (R197, R198). -/
def execBr (tile seat : Nat) (s : State) : Res :=
  onIssue tile seat 0x10 s (fun i =>
    let ra := bits i.insn 50 5
    let rb := bits i.insn 45 5
    s.readyOr i [ra, rb] (
      if bits i.insn 16 29 ≠ 0 then s.except i IX_ILLEGAL
      else match brCond (bits i.insn 55 3) (i.x.reg ra) (i.x.reg rb) with
      | none => s.except i IX_ILLEGAL
      | some true => s.jump i ((i.pc : Int) + signed 16 i.insn) id
      | some false => s.issued i (i.pc + 1) id))

/-- JAL (R197, R198). -/
def execJal (tile seat : Nat) (s : State) : Res :=
  onIssue tile seat 0x11 s (fun i =>
    if bits i.insn 16 37 ≠ 0 then s.except i IX_ILLEGAL
    else s.jump i ((i.pc : Int) + signed 16 i.insn) (fun x => x.setReg (fRD i.insn) (BitVec.ofNat 64 (i.pc + 1))))

/-- JALR (R197, R198): s[RA] is read before RD is written. -/
def execJalr (tile seat : Nat) (s : State) : Res :=
  onIssue tile seat 0x12 s (fun i =>
    s.readyOr i [fRA i.insn] (
      if bits i.insn 16 32 ≠ 0 then s.except i IX_ILLEGAL
      else s.jump i (((i.reg (fRA i.insn) : Int) + signed 16 i.insn) % 4096)
        (fun x => x.setReg (fRD i.insn) (BitVec.ofNat 64 (i.pc + 1)))))

/-- SEAT_RUN_OFF (R198): the seat's PC has passed the last entry of the range; the exception names the word at LAST and the address LAST + 1. -/
def execSeatRunOff (tile seat : Nat) (s : State) : Res :=
  if tile < 4224 ∧ seat < 8 then
    let t := s.tile tile
    let x := t.seat seat
    match t.trick with
    | some c =>
      if s.mayIssue tile seat x ∧ x.pc = c.last + 1 then
        .next (s.trap tile seat c.last (Sparse.get (0 : W64) t.prog c.last).toNat false ⟨IX_PC, 0, c.last + 1⟩)
      else .next s
    | none => .next s
  else .fault .noSuchUnit

/-- The value of GET SEL (R199): CYCLE counts cycles and is a free value; none for a reserved selector. (DESIGN CHOICE: log 34) -/
def State.getSel (s : State) (i : Issue) (sel : Nat) : Option (Nat × State) :=
  let c := i.c
  match sel with
  | 0 => some (c.trick, s)
  | 1 => some (c.mbatch, s)
  | 2 => some (c.step, s)
  | 3 => some (c.pframe, s)
  | 4 => some (c.ntiles, s)
  | 5 => some (c.rank, s)
  | 6 => some (c.nranks, s)
  | 7 => some (i.seat, s)
  | 8 => some (c.repoch, s)
  | 9 => some (i.x.arrDone, s)
  | 10 => some (i.x.vecDone, s)
  | 11 => some (i.x.crrDone, s)
  | 12 => some (i.x.talDone, s)
  | 13 => some (c.tileIdx, s)
  | 14 => some (s.frame, s)
  | 15 => some (s.fld c.prov PROV_PLAN_LAG_LAG, s)
  | 16 => some (s.freeVal.1.toNat % 2 ^ 32, s.freeVal.2)
  | _ => none

/-- GET (R199). -/
def execGet (tile seat : Nat) (s : State) : Res :=
  onIssue tile seat 0x09 s (fun i =>
    if bits i.insn 8 45 ≠ 0 then s.except i IX_ILLEGAL
    else match s.getSel i (bits i.insn 0 8) with
    | some (v, s') => s'.writeRd i (BitVec.ofNat 64 v)
    | none => s.except i IX_ILLEGAL)

/-- The counter a SWAIT selects (R205). -/
def Seat.ctr (x : Seat) (c : Nat) : Nat :=
  if c = 0 then x.arrDone else if c = 1 then x.vecDone else if c = 2 then x.crrDone else x.talDone

/-- A seat's instruction of a class that several commands share, told apart by bits [57:54]. (DESIGN CHOICE: log 27) -/
def onIssueFn (tile seat opc fn : Nat) (s : State) (f : Issue → State) : Res :=
  if tile < 4224 ∧ seat < 8 then
    match s.issue tile seat with
    | some i => if opcOf i.insn = opc ∧ bits i.insn 54 4 = fn then .next (f i) else .next s
    | none => .next s
  else .fault .noSuchUnit

/-- SWAIT (R205, R206). -/
def execSwait (tile seat : Nat) (s : State) : Res :=
  onIssueFn tile seat 0x18 0 s (fun i =>
    let ra := bits i.insn 47 5
    let c := bits i.insn 52 2
    let target := i.reg ra % 2 ^ 32
    s.readyOr i [ra] (
      if bits i.insn 0 47 ≠ 0 then s.except i IX_ILLEGAL
      else if target ≤ i.x.ctr c then s.issued i (i.pc + 1) id
      else s.issued i (i.pc + 1) (fun x => { x with st := .waitLocal, wait := .swait c target })))

/-- The seats of a mask. -/
def maskSeats (m : Nat) : List Nat := (List.range 8).filter (fun n => bitAt m n)

/-- SBAR (R205, R207): the last of the named seats to arrive releases them all. -/
def execSbar (tile seat : Nat) (s : State) : Res :=
  onIssueFn tile seat 0x18 1 s (fun i =>
    let mask := bits i.insn 0 8
    let t := s.tile tile
    let others := (maskSeats mask).filter (fun n => n != seat)
    if bits i.insn 8 46 ≠ 0 then s.except i IX_ILLEGAL
    else if !bitAt mask seat || others.any (fun n => (t.seat n).st == .idle || (t.seat n).st == .done) ||
        (List.range 8).any (fun n => match (t.seat n).wait with | .sbar m => bitAt m seat && m != mask | _ => false) then
      s.except i IX_SEAT
    else if others.all (fun n => (t.seat n).wait == .sbar mask) then
      let s := s.issued i (i.pc + 1) id
      s.setTile tile (others.foldl (fun t n => t.setSeat n (t.seat n).goOn) (s.tile tile))
    else s.issued i (i.pc + 1) (fun x => { x with st := .waitLocal, wait := .sbar mask }))

/-- DEADLOCK_DETECTED (R208): every active seat waits locally and nothing is outstanding; the lowest waiting seat raises IX_DEADLOCK. -/
def execDeadlockDetected (tile : Nat) (s : State) : Res :=
  onTile tile (
    let t := s.tile tile
    let act := (List.range 8).filter (fun n => (t.seat n).st != .idle && (t.seat n).st != .done)
    let quiet := t.aq.isEmpty && t.fly.isEmpty && t.vq.isEmpty && t.tc0.isEmpty && t.tc1.isEmpty &&
      !s.talons.any (fun e => e.2.waiters.any (fun w => w.tile == tile))
    match t.trick, act with
    | some _, n :: _ =>
      if act.all (fun m => (t.seat m).st == .waitLocal) && quiet then
        let pc := (t.seat n).pc - 1
        s.trap tile n pc (Sparse.get (0 : W64) t.prog pc).toNat false ⟨IX_DEADLOCK, 0, 0⟩
      else s
    | _, _ => s)

/-- The GSYNC instance a trick's instruction refers to (R210). -/
def Issue.inst (i : Issue) : GInst := ⟨i.c.pro, if i.c.pro then 0 else i.c.step, bits i.insn 0 12⟩

/-- ARRIVE (R209, R211, R212, R215). -/
def execArrive (tile seat : Nat) (s : State) : Res :=
  onIssueFn tile seat 0x19 0 s (fun i =>
    let ra := bits i.insn 44 5
    let id := bits i.insn 0 12
    let p := i.c.prov
    s.readyOr i [ra] (
      if bits i.insn 12 32 ≠ 0 ∨ bits i.insn 49 5 ≠ 0 then s.except i IX_ILLEGAL
      else match (s.img p).gsync id with
      | none => s.except i IX_GSYNC id
      | some (bcast, want) =>
        if !bcast && ra != 0 then s.except i IX_ILLEGAL
        else
          let g := (s.prov p).gsyncOf i.inst bcast
          if g.tricks.contains i.c.trick then s.issued i (i.pc + 1) (fun x => x)
          else if want ≤ g.tricks.length then
            (s.issued i (i.pc + 1) (fun x => x)).count { unit := srvDie (dieOfTile tile), event := 0x26, prov := p, master := some 2 }
          else
            let done := g.tricks.length + 1 == want
            let carries := bcast && done && s.rank p == 0
            let a := i.reg ra
            if carries && (a % 64 != 0 || decide (a > 0x17FFC0)) then s.except i IX_GSYNC id
            else if carries && s.overtakes tile p (s.tile tile).seq { sr := [⟨a, a + 64⟩] } then s.stall i
            else if carries && (s.tile tile).readBad a 64 then s.tileFault tile a
            else
              let g := { g with tricks := g.tricks ++ [i.c.trick], own := done,
                                payload := if carries then (s.tile tile).bytes a 64 else g.payload }
              (s.issued i (i.pc + 1) (fun x => x)).gsyncUp p g))

/-- WAIT (R213): the seat waits until the instance's release is applied. -/
def execWait (tile seat : Nat) (s : State) : Res :=
  onIssueFn tile seat 0x19 1 s (fun i =>
    let id := bits i.insn 0 12
    if bits i.insn 12 42 ≠ 0 then s.except i IX_ILLEGAL
    else match (s.img i.c.prov).gsync id with
    | none => s.except i IX_GSYNC id
    | some (bcast, _) =>
      if ((s.prov i.c.prov).gsyncOf i.inst bcast).released then s.issued i (i.pc + 1) (fun x => x)
      else s.issued i (i.pc + 1) (fun x => { x with st := .waitGlobal, wait := .gsync id }))

/-- TEST (R214). -/
def execTest (tile seat : Nat) (s : State) : Res :=
  onIssueFn tile seat 0x19 2 s (fun i =>
    let id := bits i.insn 0 12
    let rd := bits i.insn 49 5
    if bits i.insn 12 37 ≠ 0 then s.except i IX_ILLEGAL
    else match (s.img i.c.prov).gsync id with
    | none => s.except i IX_GSYNC id
    | some (bcast, _) =>
      s.issued i (i.pc + 1) (fun x => x.setReg rd (if ((s.prov i.c.prov).gsyncOf i.inst bcast).released then 1 else 0)))

/-- PLOAD (R214, R215): one word of a released broadcast payload. -/
def execPload (tile seat : Nat) (s : State) : Res :=
  onIssueFn tile seat 0x19 3 s (fun i =>
    let id := bits i.insn 0 12
    let rd := bits i.insn 49 5
    if bits i.insn 12 29 ≠ 0 ∨ bits i.insn 44 5 ≠ 0 then s.except i IX_ILLEGAL
    else match (s.img i.c.prov).gsync id with
    | some (true, _) =>
      let g := (s.prov i.c.prov).gsyncOf i.inst true
      if g.released then
        s.issued i (i.pc + 1) (fun x => x.setReg rd (BitVec.ofNat 64 (leAt g.payload (8 * bits i.insn 41 3) 8)))
      else s.except i IX_GSYNC id
    | _ => s.except i IX_GSYNC id)

/-- Bits of SYS that must be 0 (R216). -/
def sysRsv (i : Issue) : Bool := bits i.insn 16 38 != 0 || bits i.insn 0 16 != 0

/-- NOP (R216). -/
def execNop (tile seat : Nat) (s : State) : Res :=
  onIssueFn tile seat 0x1A 0 s (fun i => if sysRsv i then s.except i IX_ILLEGAL else s.issued i (i.pc + 1) id)

/-- TEND (R207, R216): the seat is DONE; a seat that waits in an SBAR naming it raises IX_SEAT. -/
def execTend (tile seat : Nat) (s : State) : Res :=
  onIssueFn tile seat 0x1A 1 s (fun i =>
    if sysRsv i then s.except i IX_ILLEGAL
    else
      let s := s.issued i (i.pc + 1) (fun x => { x with st := .done })
      let t := s.tile tile
      match (List.range 8).filter (fun n => match (t.seat n).wait with | .sbar m => bitAt m seat | _ => false) with
      | [] => s
      | n :: more =>
        let pc := (t.seat n).pc - 1
        s.trap tile n pc (Sparse.get (0 : W64) t.prog pc).toNat (!more.isEmpty) ⟨IX_SEAT, 0, 0⟩)

/-- TRAP (R216, R218): IX_TRAP with CODE in INFO. -/
def execTrap (tile seat : Nat) (s : State) : Res :=
  onIssueFn tile seat 0x1A 2 s (fun i =>
    if bits i.insn 16 38 ≠ 0 then s.except i IX_ILLEGAL else s.except i IX_TRAP (bits i.insn 0 16))

/-- BKPT (R216, R226): HALTED when debug control is enabled, otherwise a NOP. -/
def execBkpt (tile seat : Nat) (s : State) : Res :=
  onIssueFn tile seat 0x1A 3 s (fun i =>
    if sysRsv i then s.except i IX_ILLEGAL
    else if s.fld tile CC_DBG_CTRL_EN = 1 then s.issued i (i.pc + 1) (fun x => { x with st := .halted })
    else s.issued i (i.pc + 1) id)

/-- Whether the steward may use debug control on a tile (R85): life-cycle state MANUFACTURE or RETURNED, or the tile's province in recovery. (DEDUCED: log 43) -/
def State.dbgAllowed (s : State) (tile : Nat) : Bool :=
  s.fld 0 STW_STATUS_LC == 1 || s.fld 0 STW_STATUS_LC == 4 || (s.prov (s.ownerOfTile tile)).recovery

/-- DEBUG_HALT (R225, R226): the steward sets HALT for the named seats. -/
def execDebugHalt (tile seats : Nat) (s : State) : Res :=
  onTile tile (
    let s := (s.setFld tile CC_DBG_CTRL_SEATS seats).setFld tile CC_DBG_CTRL_HALT 1
    let t := s.tile tile
    s.setTile tile ((List.range 8).foldl (fun t n =>
      if ((t.seat n).st = .ready ∨ (t.seat n).st = .stalled) ∧ s.dbgHolds tile n (t.seat n) then
        t.setSeat n { (t.seat n) with st := .halted } else t) t))

/-- DEBUG_STEP (R225, R226): each halted seat under debug control may issue one instruction and halts again. -/
def execDebugStep (tile : Nat) (s : State) : Res :=
  onTile tile (
    if s.fld tile CC_DBG_CTRL_EN = 1 then
      let t := s.tile tile
      s.setTile tile ((List.range 8).foldl (fun t n =>
        if bitAt (s.fld tile CC_DBG_CTRL_SEATS) n ∧ ((t.seat n).st = .halted ∨ s.dbgHolds tile n (t.seat n)) then
          t.setSeat n { (t.seat n) with steps := 1 } else t) t)
    else s)

/-- BREAKPOINT_HIT (R225, R226): a seat under debug control halts before the instruction at BP_PC. -/
def execBreakpointHit (tile seat : Nat) (s : State) : Res :=
  if tile < 4224 ∧ seat < 8 then
    let t := s.tile tile
    let x := t.seat seat
    if t.trick.isSome ∧ (x.st = .ready ∨ x.st = .stalled) ∧ s.fld tile CC_DBG_CTRL_BP_EN = 1 ∧ s.fld tile CC_DBG_CTRL_BP_PC = x.pc ∧
        s.dbgHolds tile seat x then
      .next (s.setTile tile (t.setSeat seat { x with st := .halted }))
    else .next s
  else .fault .noSuchUnit

/-- Whether a word raises IX_ILLEGAL by its opcode or by the function field of SYNC, GSYNC and SYS alone (R189, R190). (DEDUCED: log 33) -/
def opReserved (insn : Nat) : Bool :=
  match opcOf insn with
  | 0x18 => decide (bits insn 54 4 > 1)
  | 0x19 => decide (bits insn 54 4 > 3)
  | 0x1A => decide (bits insn 54 4 > 3)
  | o => !([0x01, 0x02, 0x03, 0x04, 0x05, 0x06, 0x07, 0x08, 0x09, 0x10, 0x11, 0x12, 0x20, 0x21, 0x22, 0x23, 0x28, 0x29, 0x2A, 0x2B, 0x2C,
      0x2D, 0x2E, 0x30, 0x31, 0x34, 0x35].contains o)

/-- RESERVED_OPCODE_ISSUE (R189, R190). (DEDUCED: log 33) -/
def execReservedOpcodeIssue (tile seat : Nat) (s : State) : Res :=
  if tile < 4224 ∧ seat < 8 then
    match s.issue tile seat with
    | some i => if opReserved i.insn then .next (s.except i IX_ILLEGAL) else .next s
    | none => .next s
  else .fault .noSuchUnit

/-- SHEET_STORE_ECC_ERROR (R72, R138, R181): a corrected error is a CORRECTED record; an uncorrectable word or a parity error is a tile fault,
and a sheet-store word stays uncorrectable until all of it is written. -/
def execSheetStoreEccError (tile : Nat) (site : EccSite) (corrected : Bool) (bit : Nat) (s : State) : Res :=
  onTile tile (
    let p := s.provOf tile
    let addr := match site with | .sheet a => a | .prog e => 8 * e | _ => 0
    let fix := corrected && (match site with | .sheet _ => true | .prog _ => true | _ => false)
    if fix then s.raise { cause := SRAM_CORRECTED, prov := p, die := dieOfTile tile, unit := tileUnit tile, addr := addr, bit := bit,
                              aux := match site with | .prog _ => 1 | _ => 0 }
    else match site with
    | .sheet a =>
      let t := s.tile tile
      (s.setTile tile { t with badWords := Sparse.set false t.badWords (a / 16) true }).tileFault tile addr bit
    | _ => s.tileFault tile addr bit)

end Sys2Proof.Machine
end

