-- ==== Sys2Proof/Machine/RdeData.lean ====
section
/-! DEFINITION. Collectives as data (spec file 13): descriptors (R413, R414), trees, rings and shards (R382–R385), sums (R386–R388),
Triangulation's arithmetic (R391–R393), the verdict record (R331, R332, R398). -/
namespace Sys2Proof.Machine

/-- A collective descriptor (R414). -/
structure CollDesc where
  op : Nat
  alg : Nat
  fmt : Nat
  fanin : Nat
  ord : Nat
  nring : Nat
  seg : Nat
  flags : Nat
  mbwait : Nat
  root : Nat
  src : Nat
  dst : Nat
  count : Nat
  prior : Nat
  fold : Nat
  fstride : Nat
  talon : Nat
  handle : Nat
  aux : Nat
  stage : Nat
  stagesz : Nat
deriving DecidableEq, Repr

def CollDesc.grad (d : CollDesc) : Bool := bitAt d.flags 0
def CollDesc.gradLast (d : CollDesc) : Bool := bitAt d.flags 1
def CollDesc.tri (d : CollDesc) : Bool := bitAt d.flags 2
def CollDesc.acc (d : CollDesc) : Bool := bitAt d.flags 3
def CollDesc.sharded (d : CollDesc) : Bool := bitAt d.flags 4
def CollDesc.put (d : CollDesc) : Bool := bitAt d.flags 5
def CollDesc.mc (d : CollDesc) : Bool := bitAt d.flags 6
def CollDesc.inPlace (d : CollDesc) : Bool := bitAt d.flags 8

/-- The parts of the COLLECTIVES section (R413). -/
def Img.nstart (g : Img) : Nat := g (g.sectOff 6) 4
def Img.ncoll (g : Img) : Nat := if (g.sect 6).isNone then 0 else g (g.sectOff 6 + 4) 4
def Img.collWin (g : Img) : Nat := g (g.sectOff 6 + 8) 1
def Img.triS (g : Img) : Nat := g (g.sectOff 6 + 9) 1
def Img.auxOff (g : Img) : Nat := g.sectOff 6 + g (g.sectOff 6 + 16) 8
def Img.collDescOff (g : Img) : Nat := g.sectOff 6 + up64 (64 + 4 * g.nstart)

/-- Descriptor `i`. -/
def Img.coll (g : Img) (i : Nat) : CollDesc :=
  let o := g.collDescOff + 128 * i
  let fan := g (o + 3) 1
  ⟨g o 1, g (o + 1) 1, g (o + 2) 1, if fan = 0 then g.fanin else fan, g (o + 4) 2, g (o + 6) 1, g (o + 7) 1, g (o + 8) 2, g (o + 10) 2,
   g (o + 12) 4, g (o + 16) 8, g (o + 24) 8, g (o + 32) 8, g (o + 40) 4, g (o + 44) 4, g (o + 48) 8, g (o + 56) 1, g (o + 60) 4,
   g (o + 64) 8, g (o + 72) 8, g (o + 80) 8⟩

/-- The descriptors that a frame starts (R229, R413). -/
def Img.collStarts (g : Img) (f : FrameEnt) : List Nat := (List.range f.collN).map (fun j => g (g.sectOff 6 + 64 + 4 * (f.collOff + j)) 4)

/-- Operations that add (R381). -/
def CollDesc.sums (d : CollDesc) : Bool := d.op == 0 || d.op == 2 || d.op == 3 || d.op == 8
/-- Operations with a copy phase (R395). -/
def CollDesc.copies (d : CollDesc) : Bool := d.op == 1 || d.op == 2 || d.op == 4 || d.op == 8

/-- The group of a rank in a grouped collective (R421): its ranks in group order; none when all ranks form one group. -/
def Img.group (g : Img) (d : CollDesc) (r : Nat) : Option (List Nat) :=
  if d.aux = 0 ∨ d.alg ≠ 0 ∨ 4 < d.op then none
  else
    let o := g.auxOff + d.aux
    let k := g (o + 4) 4
    ((List.range (g o 4)).map (fun i => (List.range k).map (fun j => g (o + 16 + 4 * (i * k + j)) 4))).find? (fun l => l.contains r)

/-- The size of this rank's group, this rank's index in it, the rank at an index and the index of a rank (R422). -/
def State.gn (s : State) (p : Nat) (d : CollDesc) : Nat :=
  match (s.img p).group d (s.rank p) with | some l => l.length | none => s.nranks p
def State.gidx (s : State) (p : Nat) (d : CollDesc) (rank : Nat) : Nat :=
  match (s.img p).group d (s.rank p) with | some l => l.findIdx (fun x => x == rank) | none => rank
def State.gr (s : State) (p : Nat) (d : CollDesc) : Nat := s.gidx p d (s.rank p)
def State.grank (s : State) (p : Nat) (d : CollDesc) (i : Nat) : Nat :=
  match (s.img p).group d (s.rank p) with | some l => l.getD i 0 | none => i

/-- Bytes of a unit of COUNT: a quad, or a 16-byte record of FMT 18 (R386, R414), and elements per unit. -/
def CollDesc.unit (d : CollDesc) (s : State) (p : Nat) : Nat := if d.fmt = 18 then 16 else 128 * sideNib s p d.fmt
def CollDesc.perUnit (d : CollDesc) : Nat := if d.fmt = 18 then 1 else 256
/-- Bytes of `n` elements. -/
def CollDesc.elBytes (d : CollDesc) (s : State) (p n : Nat) : Nat := if d.fmt = 18 then 16 * n else n * sideNib s p d.fmt / 2

/-- A shard: its number, its root, and its first unit and units (R357, R383). -/
structure Shard where
  no : Nat
  root : Nat
  first : Nat
  units : Nat
deriving DecidableEq, Repr

/-- The shards of a collective over `n` ranks. -/
def CollDesc.shards (d : CollDesc) (n : Nat) : List Shard :=
  if d.op = 0 ∨ d.op = 1 ∨ d.op = 2 then
    (List.range n).map (fun j => ⟨j, j, j * d.count / n, (j + 1) * d.count / n - j * d.count / n⟩)
  else if d.op = 3 ∨ d.op = 4 then [⟨0, d.root, 0, d.count⟩]
  else if d.op = 8 then [⟨0, 0, 0, 1⟩]
  else []

/-- Segments of a shard (R385). -/
def CollDesc.nseg (d : CollDesc) (h : Shard) : Nat := if d.op = 8 then 1 else ceilDiv (h.units * d.perUnit) (2 ^ d.seg)

/-- The first segment number of a shard: segments are numbered across the buffer in shard order. -/
def CollDesc.segBase (d : CollDesc) (n j : Nat) : Nat := ((d.shards n).take j).foldl (fun a h => a + d.nseg h) 0

/-- The shard and segment-within-shard of a segment number. -/
def CollDesc.locate (d : CollDesc) (n seg : Nat) : Option (Shard × Nat) :=
  (d.shards n).findSome? (fun h => let b := d.segBase n h.no; if b ≤ seg ∧ seg < b + d.nseg h then some (h, seg - b) else none)

/-- First element within the shard, and elements, of its `i`-th segment. -/
def CollDesc.segElems (d : CollDesc) (h : Shard) (i : Nat) : Nat × Nat :=
  (i * 2 ^ d.seg, min (2 ^ d.seg) (h.units * d.perUnit - i * 2 ^ d.seg))

/-- A node's place on the way of a shard's sum: the ranks that send to it with the cover of each, in canonical order, and the rank it sends
to (R382, R384, R388). -/
structure Topo where
  kids : List (Nat × Nat)
  parent : Option Nat
  ownFirst : Bool
deriving DecidableEq, Repr

/-- Ranks in the subtree of a relative rank (`fuel` levels). -/
def subtree (b n : Nat) : Nat → Nat → Nat
  | 0, _ => 1
  | f + 1, r => ((treeChildren b n r).map (subtree b n f)).foldl (· + ·) 1

/-- The tree of R382 over relative ranks, rooted at `j`. -/
def treeTopo (b n j r : Nat) : Topo :=
  let rho := (r + n - j) % n
  ⟨(treeChildren b n rho).map (fun c => ((c + j) % n, subtree b n 20 c)), if rho = 0 then none else some ((treeParent b rho + j) % n), true⟩

/-- The check path's tree over mirrored relative ranks (R392). -/
def checkTopo (b n j r : Nat) : Topo :=
  let rho := (j + n - r) % n
  ⟨(treeChildren b n rho).map (fun c => ((j + n - c) % n, 1)), if rho = 0 then none else some ((j + n - treeParent b rho) % n), true⟩

/-- The ring order (R384, R414). -/
def Img.ringAt (g : Img) (d : CollDesc) (n i : Nat) : List Nat :=
  if d.aux = 0 then List.range n else (List.range n).map (fun k => g (g.auxOff + d.aux + 4 * (i * n + k)) 4)

/-- The ring's way of shard `j`: from the rank after `j` round to `j`. -/
def ringTopo (ring : List Nat) (j r : Nat) : Topo :=
  let at_ := (ring.findIdx? (fun x => x == j)).getD 0
  let seq := ring.drop (at_ + 1) ++ ring.take (at_ + 1)
  let i := (seq.findIdx? (fun x => x == r)).getD 0
  ⟨if i = 0 then [] else [(seq.getD (i - 1) 0, i)], if r = j then none else seq[i + 1]?, false⟩

/-- The sum's topology at rank `r` for a segment. -/
def CollDesc.topo (d : CollDesc) (g : Img) (n r : Nat) (h : Shard) (seg : Nat) : Topo :=
  if d.alg = 0 ∨ d.op = 8 then treeTopo d.fanin n h.root r
  else ringTopo (g.ringAt d n (if d.alg = 2 then seg % (max 1 d.nring) else 0)) h.root r

/-- The children on a shard's copy tree. -/
def CollDesc.copyKids (d : CollDesc) (n r : Nat) (h : Shard) : List Nat := (treeTopo d.fanin n h.root r).kids.map Prod.fst
/-- The parent on a shard's copy tree. -/
def CollDesc.copyParent (d : CollDesc) (n r : Nat) (h : Shard) : Option Nat := (treeTopo d.fanin n h.root r).parent

/-- A Deal table (R400). -/
structure DealTab where
  route : Nat
  ticket : Nat
  counts : Nat
  ybase : Nat
  ystride : Nat
  t : Nat
  cols : Nat
  k : Nat
  nlocal : Nat
  cap : Nat
  nexp : Nat
  experts : List (Nat × Nat)
deriving DecidableEq, Repr

def Img.dealTab (g : Img) (d : CollDesc) : DealTab :=
  let o := g.auxOff + d.aux
  let n := g (o + 50) 1
  ⟨g o 8, g (o + 8) 8, g (o + 16) 8, g (o + 24) 8, g (o + 32) 8, g (o + 40) 4, g (o + 44) 2, g (o + 46) 1, g (o + 47) 1, g (o + 48) 2, n,
   (List.range n).map (fun e => (g (o + 64 + 8 * e) 4, g (o + 68 + 8 * e) 1))⟩

/-- The pieces in which `elems` elements of a point-to-point collective travel, 2^SEG elements each (R412); a block without rows is one empty piece. -/
def CollDesc.npieces (d : CollDesc) (elems : Nat) : Nat := max 1 (ceilDiv elems (2 ^ d.seg))

/-- The pieces that a whole block of a Deal may take: block e has the segment numbers from e times that on. (DESIGN CHOICE: log 154) -/
def DealTab.stride (t : DealTab) (d : CollDesc) : Nat := d.npieces (t.cap * t.cols)

/-- Bytes of the table that a descriptor names in the auxiliary area (R400, R404, R414, R421). -/
def Img.tableLen (g : Img) (d : CollDesc) : Nat :=
  let o := g.auxOff + d.aux
  if d.op = 5 ∨ d.op = 6 then 64 + 8 * (g.dealTab d).nexp
  else if d.op = 7 then 16 + 24 * g o 4
  else if d.op ≤ 4 ∧ d.alg = 0 then (if d.aux = 0 then 0 else 16 + 4 * (g o 4 * g (o + 4) 4))
  else if d.op ≤ 4 ∧ d.aux ≠ 0 then 4 * (max 1 d.nring * g.nranks)
  else 0

/-- The Atlas bytes that the start of collective `i` reads: its descriptor and its table (R413, R414). -/
def Img.collSpans (g : Img) (i : Nat) : List (Nat × Nat) :=
  let d := g.coll i
  [(atlasBase + g.collDescOff + 128 * i, 128), (atlasBase + g.auxOff + d.aux, g.tableLen d)]

/-- The buffer a collective reserves in slice `f` (R407, R415), and the province's share (R380). (DEDUCED: log 69) -/
def State.collReserve (s : State) (p f : Nat) (d : CollDesc) : Nat :=
  let unit := if d.op = 8 then 64 else d.elBytes s p (2 ^ d.seg)
  if d.sums then d.fanin * (s.img p).collWin * (unit + 32) else max 1 (s.fld f RDE_MC_CTRL_LAG) * (unit + 32)
def State.collShare (s : State) (p : Nat) : Nat := (s.prov p).units.length * 131072

/-- A rounding of a long sum: RNE up to a cover of 64 and in X3, SR beyond (R388). -/
def sumRnd (x3 : Bool) (cover draw : Nat) : Rnd := if cover ≤ 64 ∨ x3 then .rne else .sr draw

/-- The accumulation of `node_sum` (R388) over terms with their covers; `stage` numbers the additions. -/
def sumGo (x3 : Bool) (draw : Nat → Nat) : Nat → Val → Nat → List (Val × Nat) → Val × Nat
  | _, acc, cover, [] => (acc, cover)
  | stage, acc, cover, (v, c) :: rest =>
    let cover := cover + c
    sumGo x3 draw (stage + 1) (f32 (round32 (sumRnd x3 cover (draw stage)) (acc.add v)).1) cover rest

/-- `node_sum` for one element of a 16-bit format: a single term is passed on unchanged. -/
def nodeSum16 (f : Fmt) (draw : Nat → Nat) (terms : List (Nat × Nat)) : Nat :=
  match terms with
  | [] => 0
  | [(c, _)] => c
  | (c, k) :: rest =>
    let r := sumGo false draw 1 (f.decode c) k (rest.map (fun t => (f.decode t.1, t.2)))
    (f.narrow (sumRnd false r.2 (draw 0)) false r.1).1

/-- The two values of an X3 record (R386), as exact values. -/
def x3At (bs : List Byte) (o : Nat) : Val := x3Val (leAt bs o 2) (leAt bs (o + 2) 2) (leAt bs (o + 4) 2)
/-- Six bytes of a split value (R61). -/
def x3Bytes (v : Val) : List Byte := let x := x3Split v; leBytes 2 x.1 ++ leBytes 2 x.2.1 ++ leBytes 2 x.2.2

/-- One value of an X3 record summed over terms. -/
def nodeSumX3 (vs : List (Val × Nat)) : Val :=
  match vs with
  | [] => .zero
  | (v, c) :: rest => (sumGo true (fun _ => 0) 1 v c rest).1

/-- A whole payload summed over terms in canonical order; `draw idx stage` gives the Compass values. -/
def sumPayload (x3 : Bool) (f : Fmt) (draw : Nat → Nat → Nat) (terms : List (List Byte × Nat)) : List Byte :=
  match terms with
  | [(b, _)] => b
  | _ =>
    let n := ((terms.head?.map Prod.fst).getD []).length
    if x3 then
      (List.range (n / 16)).flatMap (fun i =>
        x3Bytes (nodeSumX3 (terms.map (fun t => (x3At t.1 (16 * i), t.2)))) ++
        x3Bytes (nodeSumX3 (terms.map (fun t => (x3At t.1 (16 * i + 6), t.2)))) ++ zeros 4)
    else (List.range (n / 2)).flatMap (fun i => leBytes 2 (nodeSum16 f (draw i) (terms.map (fun t => (leAt t.1 (2 * i) 2, t.2)))))

/-- A result as its root writes it: every NaN is the canonical one (R92), and the reserved bytes of a record are 0 (R386). -/
def resultBytes (x3 : Bool) (f : Fmt) (bs : List Byte) : List Byte :=
  if x3 then (List.range (bs.length / 16)).flatMap (fun i =>
    let half := fun o => let v := x3At bs o; if v.isNan then x3Bytes v else slice bs o 6
    half (16 * i) ++ half (16 * i + 6) ++ zeros 4)
  else (List.range (bs.length / 2)).flatMap (fun i => let c := leAt bs (2 * i) 2; leBytes 2 (if (f.decode c).isNan then f.nanCode else c))

/-- Non-finite elements of a payload (R390); a record of FMT 18 is one element (R386). -/
def nonFin (x3 : Bool) (f : Fmt) (bs : List Byte) : Nat :=
  let bad := fun (v : Val) => v.isNan || v.isInf
  if x3 then (List.range (bs.length / 16)).foldl (fun n i => n + b01 (bad (x3At bs (16 * i)) || bad (x3At bs (16 * i + 6)))) 0
  else (List.range (bs.length / 2)).foldl (fun n i => n + b01 (bad (f.decode (leAt bs (2 * i) 2)))) 0

/-- Non-finite elements of a copied payload of any format (R387, R412). -/
def payloadNf (x3 : Bool) (f : Fmt) (bs : List Byte) : Nat :=
  if x3 then nonFin true f bs
  else ((List.range (2 * bs.length / max 1 f.nib)).filter (fun i =>
    let v := f.decode (codeAt (fun a => bs.getD a 0) f.nib (i * f.nib) % 2 ^ f.width)
    v.isNan || v.isInf)).length

/-- Copied elements: every NaN becomes the canonical NaN of its format (R387), and the unused bits of a container are 0 (R93). -/
def canonCopy (f : Fmt) (bs : List Byte) : List Byte :=
  let fix := fun (c : Nat) => let c := c % 2 ^ f.width; if (f.decode c).isNan then f.nanCode else c
  if f.nib = 4 then (List.range (bs.length / 2)).flatMap (fun i => leBytes 2 (fix (leAt bs (2 * i) 2)))
  else if f.nib = 2 then bs.map (fun b => BitVec.ofNat 8 (fix b.toNat))
  else bs.map (fun b => BitVec.ofNat 8 (fix (b.toNat % 16) + fix (b.toNat / 16) * 16))

/-- A binary32 rounding of a non-negative exact value toward +∞. -/
def up32 (v : Val) : W32 :=
  match v with
  | .nan => nan32
  | .inf _ => 0x7F800000#32
  | v =>
    let t := (Fmt.f32.toFloat .rz false v).1
    if Val.lt (Fmt.f32.decode t) v then BitVec.ofNat 32 (t + 1) else BitVec.ofNat 32 t

/-- `a + b` and `a · b` rounded toward +∞. -/
def addUp (a b : W32) : W32 := up32 ((f32 a).add (f32 b))
def mulUp (a b : W32) : W32 := up32 ((f32 a).mul (f32 b))

/-- The exact sum as an integer in units of 2^−133 (R392). -/
def exactUnits (v : Val) : Int := match v with | .fin _ _ _ => v.over (-133) | _ => 0

/-- Bytes of a check record (R392). -/
def checkBytes (c : CheckNode) : List Byte :=
  leBytes 4 c.elem ++ leBytes 36 (unsigned 288 c.exact) ++ leBytes 4 c.mag.toNat ++ leBytes 2 (b01 c.flag) ++ zeros 2

/-- The comparison of R393: `y` against the exact sum; `dw` narrowings, `pt` terms. -/
def triFails (f : Fmt) (y : Nat) (exact : Int) (mag : W32) (dw pt : Nat) : Bool :=
  let yv := f.decode y
  let diff := (yv.add (Val.ofInt false (-exact) (-133))).abs
  let uw : Int := if f.ebits = 8 then -8 else -11
  let tw : Int := if f.ebits = 8 then -133 else -24
  let n32 := fun (n : Nat) (e : Int) => up32 (.fin false n e)
  let rel := addUp (n32 dw uw) (n32 (pt - 1) (-24))
  let bound := addUp (mulUp (mulUp (n32 2 0) rel) mag) (n32 (dw + pt) tw)
  Val.lt (f32 bound) diff

/-- The verdict record's counts as a list: NF_LOSS, NF_FWD, NF_GRAD, NF_PASS1, VETO, NF_WIRE, TRI_MISMATCH (R332). -/
structure Verd where
  stepMax : Nat
  stepMin : Nat
  counts : List Nat
  gn2 : Val
  un2 : Val
  ranks : Nat
deriving DecidableEq, Repr

def Verd.bytes (v : Verd) : List Byte :=
  leBytes 8 v.stepMax ++ leBytes 8 v.stepMin ++ (List.range 7).flatMap (fun i => leBytes 4 (v.counts.getD i 0)) ++
  x3Bytes v.gn2 ++ x3Bytes v.un2 ++ leBytes 4 v.ranks ++ zeros 4

def Verd.of (b : List Byte) : Verd :=
  ⟨leAt b 0 8, leAt b 8 8, (List.range 7).map (fun i => leAt b (16 + 4 * i) 4), x3At b 44, x3At b 50, leAt b 56 4⟩

/-- Two verdict contributions combined (R331, R398). -/
def Verd.join (a b : Verd) : Verd :=
  let sat := fun (x y : Nat) => satAdd (2 ^ 32 - 1) x y
  ⟨max a.stepMax b.stepMax, min a.stepMin b.stepMin, (a.counts.zip b.counts).map (fun x => sat x.1 x.2),
   f32 (rne32 (a.gn2.add b.gn2)), f32 (rne32 (a.un2.add b.un2)), sat a.ranks b.ranks⟩

/-- The rule of R333. -/
def Verd.ok (v : Verd) (step nranks : Nat) : Bool :=
  v.stepMax == step && v.stepMin == step && v.ranks == nranks && v.counts.all (fun c => c == 0) &&
  !v.gn2.isNan && !v.gn2.isInf && !v.un2.isNan && !v.un2.isInf

/-- The REASON bits of a SKIPPED step (`PROV_STEP_STATE`). -/
def Verd.reason (v : Verd) (step nranks : Nat) : Nat :=
  (List.range 7).foldl (fun m i => m + b01 (v.counts.getD i 0 != 0) * 2 ^ i) 0 +
  128 * b01 (v.stepMax != step || v.stepMin != step || v.ranks != nranks || v.gn2.isNan || v.gn2.isInf || v.un2.isNan || v.un2.isInf)

/-- Bases of the LEDGER section (R350). -/
def Img.hasLedger (g : Img) : Bool := (g.sect 10).isSome
def Img.nrec (g : Img) : Nat := g (g.sectOff 10) 4
def Img.ledH (g : Img) : Nat := g (g.sectOff 10 + 4) 1
def Img.coldExtra (g : Img) : Nat := g (g.sectOff 10 + 5) 1
def Img.ledgerBase (g : Img) : Nat := g (g.sectOff 10 + 8) 8
def Img.pendingBase (g : Img) : Nat := g (g.sectOff 10 + 16) 8
def Img.ncell (g : Img) : Nat := g (g.sectOff 10 + 24) 4
def Img.tallyBase (g : Img) : Nat := g (g.sectOff 10 + 32) 8
def Img.verdictBase (g : Img) : Nat := g (g.sectOff 10 + 40) 8
def Img.steplogBase (g : Img) : Nat := g (g.sectOff 10 + 48) 8
def Img.steplogSize (g : Img) : Nat := g (g.sectOff 10 + 56) 4

/-- A tally cell's address (R328). -/
def Img.cell (g : Img) (i : Nat) : Nat := g.tallyBase + 64 * i

/-- This rank's contribution to the verdict (R329, R331). -/
def State.verdOwn (s : State) (p : Nat) : Verd :=
  let g := s.img p
  let step := (s.reg p PROV_STEP).toNat
  let cells := (List.range g.ncell).map (fun i => s.vbytes p (g.cell i) 64)
  let live := cells.filter (fun b => leAt b 0 8 == step)
  let sum := fun o => live.foldl (fun n b => satAdd (2 ^ 32 - 1) n (leAt b o 4)) 0
  let norm := fun o => match live with
    | [] => Val.zero
    | b :: bs => bs.foldl (fun a x => f32 (rne32 (a.add (x3At x o)))) (f32 (rne32 (x3At b o)))
  ⟨step, step, [sum 8, sum 12, sum 16, sum 20, sum 24, s.fld 0 (RDE_PSTEP_NF_WIRE p), s.fld 0 (RDE_PSTEP_TRI_MISMATCH p)],
   norm 32, norm 38, 1⟩

end Sys2Proof.Machine
end

