-- ==== Sys2Proof/Machine/RegOps.lean ====
section
/-! DEFINITION. Reading and writing registers: access codes and reserved bits (R4–R8), registers that show live state, register accesses by DPA and through the host
map (R26, R89, R225, R321, R666, R670), and the read latch of a function (R670). -/
namespace Sys2Proof.Machine

/-- One field of a register word under a write of the bits in `mask` (R4, R6). `forming` says that the owning province is FORMING. -/
def FieldDef.put (f : FieldDef) (value mask : Nat) (forming : Bool) (w : Nat) : Nat :=
  let m := bits mask f.lo f.width
  let o := bits w f.lo f.width
  let v := bits value f.lo f.width &&& m
  let n := (o &&& (2 ^ f.width - 1 - m)) ||| v
  match f.acc with
  | .rw => if m ≠ 0 ∧ f.legal.ok n then setBits w f.lo f.width n else w
  | .rwl => if forming ∧ m ≠ 0 ∧ f.legal.ok n then setBits w f.lo f.width n else w
  | .w1c => setBits w f.lo f.width (o - (o &&& v))
  | .w1s => setBits w f.lo f.width (o ||| v)
  | .ro | .wo | .rc => w

/-- A register word under a write: reserved bits are ignored (R7, R8). -/
def RegDef.put (d : RegDef) (value mask : Nat) (forming : Bool) (w : Nat) : Nat :=
  d.fields.foldl (fun w f => f.put value mask forming w) w

/-- What a read of the word shows of its fields: write-only fields and reserved bits read 0 (R4, R7). -/
def RegDef.show (d : RegDef) (w : Nat) : Nat :=
  d.fields.foldl (fun n f => if f.acc = .wo then n else setBits n f.lo f.width (bits w f.lo f.width)) 0

/-- The register table that describes an offset. -/
def Block.find (b : Block) (off : Nat) : Option RegDef := b.table.find? (fun d => d.holds off)

/-- The register that holds an access of `n` bytes, and the bit of the register at which the access begins (the high half of a 64-bit register lies
4 bytes on). -/
def RegAt.locate (r : RegAt) (n : Nat) : Option (RegDef × RegAt × Nat) :=
  match r.block.find r.off with
  | some d => if 8 * n ≤ d.size then some (d, r, 0) else none
  | none =>
    if n ≠ 4 ∨ r.off < 4 then none
    else match r.block.find (r.off - 4) with
    | some d => if d.size = 64 then some (d, { r with off := r.off - 4 }, 32) else none
    | none => none

/-- The state of accumulator banks (`TILE_ARR_STATUS`). (DESIGN CHOICE: log 44) -/
def Tile.arrStatus (t : Tile) : Nat :=
  (List.range 4).foldl (fun n b =>
    let x := t.bank b
    let st := match x.st with | .free => 0 | .claimed => 1 | .draining => 2
    n + st * 2 ^ (2 * b) + x.owner % 8 * 2 ^ (8 + 3 * b)) 0 +
  t.aq.length * 2 ^ 20 + b01 ((t.bank 0).paired && (t.bank 0).st != .free) * 2 ^ 23 + b01 ((t.bank 2).paired && (t.bank 2).st != .free) * 2 ^ 24

/-- `CRR_TC_STATUS` (R321). -/
def Tile.crrStatus (t : Tile) : Nat :=
  let sum := fun (l : List OutEntry) => l.foldl (fun n o => n + o.size) 0 / 64
  t.tc0.length + t.tc1.length * 16 + sum (t.outbox.filter OutEntry.held) * 2 ^ 8 + sum t.outbox * 2 ^ 19

/-- A counter of a Survey unit: its event. -/
def State.counterEvent (s : State) (u i : Nat) : Nat := if i < 8 then (srvFixed u).getD i 0 else s.fld u (SRV_CFG_EVENT (i - 8))

/-- A Survey counter as it reads: events that count time are free values, since the model takes no time; `shadow` picks the copy of R615. (DESIGN CHOICE: log 45) -/
def State.counterVal (s : State) (u i : Nat) (shadow : Bool) : Nat :=
  if srvTimed (s.counterEvent u i) then s.freeVal.1.toNat % 2 ^ 48
  else if shadow then Sparse.get 0 s.shadow (16 * u + i)
  else s.fld u (if i < 8 then SRV_FIX_COUNT i else SRV_CNT_COUNT (i - 8))

/-- Collectives with segments in a slice (R417). -/
def State.sliceActive (s : State) (f : Nat) : Nat :=
  s.provs.foldl (fun n e => n + (e.2.colls.filter (fun c =>
    let ord := ((s.img e.1).coll c.idx).ord
    c.started && (c.sums.map SegNode.seg ++ c.copies.map CopySeg.seg ++ c.unacked.map Unacked.seg ++
      c.pieces.map (fun y => y.block * ((s.img e.1).dealTab ((s.img e.1).coll c.idx)).stride ((s.img e.1).coll c.idx) + y.no)).any (fun g => sliceOf g ord == f))).length) 0

/-- The buffer of a slice in use (R407, R417), in 64 KiB: what its collectives reserve for their whole run. -/
def State.sliceBuf (s : State) (f : Nat) : Nat :=
  min 512 (ceilDiv (s.provs.foldl (fun n e => (e.2.colls.filter Coll.started).foldl (fun n c => n + s.collReserve e.1 f ((s.img e.1).coll c.idx)) n) 0) 65536)

/-- A register's word as reads see it: registers that show live state, and the stored word for every other. (DESIGN CHOICE: log 14, 34, 44; DEDUCED: log 69) -/
def State.liveWord (s : State) (r : RegAt) : Nat :=
  let stored := (s.reg r.unit ⟨r.block, r.off⟩).toNat
  match r.block with
  | .cc =>
    let t := s.tile r.unit
    if r.off = 0 then (List.range 8).foldl (fun n i => n + (s.seatShown r.unit i).code * 16 ^ i) 0
    else if r.off = 0x20 then s.freeVal.1.toNat % 2 ^ 32
    else if 0x40 ≤ r.off ∧ r.off < 0x60 then (t.seat ((r.off - 0x40) / 4)).pc
    else stored
  | .tile =>
    let t := s.tile r.unit
    if r.off = 0x10 then t.arrStatus
    else if 0x400 ≤ r.off then
      (if s.fld r.unit TILE_DBG_CTRL_ACC_VIS = 1 then
        (Sparse.get (0 : W32) (t.bank (s.fld r.unit TILE_DBG_CTRL_PEEK_BANK)).cells ((r.off - 0x400) / 4)).toNat else 0)
    else stored
  | .vec => if r.off = 8 then (s.tile r.unit).vq.length + b01 (!(s.tile r.unit).vq.isEmpty) * 16 else stored
  | .crrTile => (s.tile r.unit).crrStatus
  | .crrDie =>
    if r.off % 8 = 4 then
      let b := s.bulk (16 * r.unit + (r.off - 0x104) / 8)
      b.st.code + b.queue.length * 4 + b.last * 2 ^ 16
    else stored
  | .tal =>
    if 0x200 ≤ r.off then
      let x := s.talon (64 * r.unit + (r.off - 0x200) / 4)
      x.handles.length + min 255 x.waiters.length * 2 ^ 11 + b01 (!x.putWait.isEmpty) * 2 ^ 19
    else stored
  | .rde =>
    if r.off = 8 then
      min 255 (s.sliceActive r.unit) + s.sliceBuf r.unit * 2 ^ 8
    else stored
  | .ethPort =>
    if s.portLanes r.unit = 0 then 0
    else if 0x100 ≤ r.off ∧ s.fld r.unit ETH_STAT_CTRL_SHADOW = 1 then Sparse.get 0 (s.port r.unit).shadow ((r.off - 0x100) / 8)
    else stored
  | .srv =>
    let sh := s.fld r.unit SRV_SNAP_SHADOW == 1
    if r.off < 0x40 then
      (if r.off / 8 < (srvFixed r.unit).length then s.counterVal r.unit (r.off / 8) sh else 0)
    else if r.off < 0x200 then
      (if (r.off - 0x100) / 8 < srvProgs r.unit then s.counterVal r.unit (8 + (r.off - 0x100) / 8) sh else 0)
    else if r.off < 0x240 then (if (r.off - 0x200) / 8 < srvProgs r.unit then stored else 0)
    else if (r.off = 0x310 ∨ r.off = 0x318 ∨ 0x340 ≤ r.off) ∧ 4224 ≤ r.unit then 0
    else stored
  | .dev => if r.off = 0x10 then (if s.fld 0 STW_STATUS_LC = 0 then 0 else s.stw.devid) else stored
  | .prov => if (s.prov r.unit).st = .none_ then (if r.off = 0 then 7 else 0) else stored
  | _ => stored

/-- The value a read of `n` bytes returns, before any clearing by the read: 0 where no register lies (R666, R670). -/
def State.readAt (s : State) (r : RegAt) (n : Nat) : Nat :=
  match r.locate n with
  | some (d, q, lo) => bits (d.show (s.liveWord q)) lo (8 * n)
  | none => 0

/-- A read's free value is spent. -/
def State.spend (s : State) : State := { s with free := s.free + 1 }

/-- Registers of a hand that are writable only while it is CLOSED (`HAND_RING_BASE`, `HAND_CPL_BASE`, and fields of `HAND_CTRL`). -/
def closedMask (off : Nat) : Nat := if off < 0x10 then 2 ^ 64 - 1 else if off = 0x10 then 0xFF001F04 else 0

/-- Bits that a plain register write does not set: fields whose write has a command of its own (SRV_CFG_WRITE, SRV_TAG_ENABLE, MER_TICK_PERIOD_ARM,
ETH_LANE_MODE_WRITE, ETH_PORT_RATE_WRITE), the enables that stand under the conditions of R85, and offsets that a unit does not have (R468, R624). (DEDUCED: log 43) -/
def State.heldBits (s : State) (r : RegAt) : Nat :=
  let all := 2 ^ 64 - 1
  match r.block with
  | .mer => if r.off = 0 then 0x80000000 else 0
  | .ethDie => if r.off = 0 then all else 0
  | .ethPort => if r.off = 0 ∨ s.portLanes r.unit = 0 then all else 0
  | .srv =>
    if r.off < 0x300 then all
    else if r.off = 0x318 then (if 4224 ≤ r.unit then all else 1)
    else if r.off = 0x310 ∧ 4224 ≤ r.unit then all
    else 0
  | .hand => if s.handState r.unit = H_CLOSED then 0 else closedMask r.off
  | .tile => if r.off = 0x20 ∧ !s.dbgAllowed r.unit then 1 else 0
  | .cc => if r.off = 0x80 ∧ !s.dbgAllowed r.unit then 1 else 0
  | _ => 0

/-- Bits that this value may not change: on stepping A0, `NDX_CTRL.VER_MAX` above 2 (R672). -/
def State.tooNew (s : State) (r : RegAt) (w : Nat) : Nat :=
  if r.block = .ndx ∧ r.off = NDX_CTRL.off ∧ s.stepA0 ∧ 2 < bits w 34 2 then 3 * 2 ^ 34 else 0

/-- What a register of the Legend takes (R99, R100): a word with VALID = 0 is stored as 0, an invalid descriptor leaves the entry as it was. -/
def RegAt.legend (r : RegAt) (old new : Nat) : Nat :=
  if r.block = .prov ∧ 0x120 ≤ r.off ∧ r.off < 0x140 then (if !bitAt new 31 then 0 else if descValid new then new else old) else new

/-- A write of `n` bytes to a register by its access codes (R4–R8). (DESIGN CHOICE: log 26) -/
def State.writeAt (s : State) (r : RegAt) (n value : Nat) : State :=
  match r.locate n with
  | some (d, q, lo) =>
    let m := (2 ^ (8 * n) - 1) * 2 ^ lo
    let mask := m - (m &&& (s.heldBits q ||| s.tooNew q (value % 2 ^ (8 * n) * 2 ^ lo)))
    let forming := q.block == .prov && (s.prov q.unit).st == .forming
    let old := (s.reg q.unit ⟨q.block, q.off⟩).toNat
    s.setReg q.unit ⟨q.block, q.off⟩ (BitVec.ofNat 64 (q.legend old (d.put (value % 2 ^ (8 * n) * 2 ^ lo) mask forming old)))
  | none => s

/-- The register that an access names, for its master. -/
def State.regFor (s : State) : Master → Nat → Option RegAt
  | .steward, a => dpaReg a
  | .fn f, o => s.barReg f o

/-- Every counter of a unit is copied to its shadow set (R615). -/
def State.srvCopy (s : State) (u : Nat) : State :=
  { s with shadow := (List.range 8).foldl (fun m i =>
      Sparse.set 0 (Sparse.set 0 m (16 * u + i) (s.fld u (SRV_FIX_COUNT i))) (16 * u + 8 + i) (s.fld u (SRV_CNT_COUNT i))) s.shadow }

/-- A PROV block of an ID with no province takes no write. (DEDUCED: log 95) -/
def State.provAbsent (s : State) (r : RegAt) : Bool := r.block == .prov && (s.prov r.unit).st == .none_

/-- What `MER_PPS_CTRL` brings at once: with IN_EN 0 no edge has been accepted (R46), with OUT_MODE 0 PPS_OUT is low (R47). -/
def State.ppsSettle (s : State) : State :=
  { s with mer := { s.mer with ppsLast := s.mer.ppsLast && s.fld 0 MER_PPS_CTRL_IN_EN == 1, ppsOut := s.mer.ppsOut && s.fld 0 MER_PPS_CTRL_OUT_MODE != 0 } }

/-- Whether a function's accesses reach its area (R504, R527, R567). -/
def State.areaUp (s : State) (f : Nat) : Bool := decide (f < 256) && s.fnOn f && s.fld f HIF_FN_STATUS_ATTACH != 1 && (s.fn f).tdisp != .error && s.fnProv f != 0

/-- A function's write where no register lies: the MSI-X table takes whole words (R505), all else is dropped. (PRESUMED: log 157) -/
def State.tableWrite (s : State) (f off n value : Nat) : State :=
  if !s.areaUp f ∨ off < 0xC0000 ∨ 0xC0400 < off + n ∨ off % 4 ≠ 0 then s
  else
    let i := (off - 0xC0000) / 4
    let s := s.msixWrite f i (BitVec.ofNat 32 value)
    if n = 8 then s.msixWrite f (i + 1) (BitVec.ofNat 32 (value / 2 ^ 32)) else s

/-- A steward's write where no register lies (R662, R663, R666): HBM, or a tile's sheet store or tile registers; at a
reserved DPA it is dropped, and so it is in the program store, which only the Dealer writes (R180). (DEDUCED: log 15) -/
def State.stewardMem (s : State) (a n value : Nat) : State :=
  let bs := leBytes n value
  let o := a % 0x200000
  let c := bits a 21 6
  let tile := bits a 31 3 * 528 + bits a 27 4 * 33 + c
  let t := s.tile tile
  if a + n ≤ 384 * chanSize then s.mwrite (bs.zipIdx.map (fun b => (a + b.2, b.1)))
  else if a < 0xF000000000 ∨ 0xF400000000 ≤ a ∨ 32 < c ∨ a % n ≠ 0 then s
  else if o < 0x180000 then s.setTile tile (t.write (bs.zipIdx.map (fun b => (o + b.2, b.1)))).1
  else if 0x190000 ≤ o ∧ o < 0x1A0000 then
    s.setTile tile (t.putTregs ((List.range (n / 4)).map (fun i => ((o - 0x190000) / 4 + i, BitVec.ofNat 32 (value / 2 ^ (32 * i))))))
  else s

/-- REGISTER_WRITE (R4, R6–R8, R26, R666, R670): a write of 4 or 8 bytes. A `MER_` write that is not the steward's is an error; any other write a function may not
make, an unbound virtual function's (R504), a function's write where no register lies, and one to a device held in reset (R9), is dropped. (DEDUCED: log 15) -/
def execRegisterWrite (who : Master) (addr n value : Nat) (s : State) : Res :=
  if (n ≠ 4 ∧ n ≠ 8) ∨ s.inReset then .next s
  else match s.regFor who addr with
  | none => match who with
    | .fn f => .next (s.tableWrite f addr n value)
    | .steward => .next (s.stewardMem addr n value)
  | some r =>
    match who with
    | .steward =>
      if s.provAbsent r then .next s
      else .next (s.writeAt r n value).ppsSettle
    | .fn f =>
      if r.block = .mer then .next (s.raise { cause := MER_WRITE, die := 12, addr := r.off, detail0 := f })
      else if r.hostWrites ∧ (f = 0 ∨ s.fnProv f ≠ 0) then .next (s.writeAt r n value)
      else .next s

/-- MER_GLOB_LATE_READ (R4, R5, R26): a read of `MER_GLOB_CTRL` returns LATE, and clears it. (DESIGN CHOICE: log 25) -/
def execMerGlobLateRead (who : Master) (s : State) : Res :=
  let ok := match who with
    | .steward => true
    | .fn f => (f == 0 && s.fld 0 HIF_FN_STATUS_ATTACH != 1 && (s.fn 0).tdisp != .error) || s.areaUp f
  if !ok then .next s
  else
    let v := s.readAt ⟨.mer, 0, 0x3C⟩ 4
    .next ((s.setFld 0 MER_GLOB_CTRL_LATE 0).emit (.regRead who v))

/-- A 32-bit host read that no latch serves: the high half of a 64-bit register is latched, and an RC field is cleared (R4). (DEDUCED: log 98) -/
def State.lowRead (s : State) (fn off : Nat) (r : RegAt) : State :=
  if !r.hostReads then s.emit (.regRead (.fn fn) 0)
  else
    let v := s.readAt r 4
    let t := match r.locate 8 with
      | some (d, q, _) => s.setFn fn { (s.fn fn) with latch := some (off + 4, bits (d.show (s.liveWord q)) 32 32) }
      | none => s
    let t := if r.block = .mer ∧ r.off = 0x3C then t.setFld 0 MER_GLOB_CTRL_LATE 0 else t
    t.spend.emit (.regRead (.fn fn) v)

/-- A read of a function's BAR0 where no register lies: the reattach record, the MSI-X table and its pending bits (R505, R529), else 0. -/
def State.otherRead (s : State) (f off : Nat) : Nat :=
  let x := s.fn f
  if !s.areaUp f then 0
  else if 0x800 ≤ off ∧ off + 4 ≤ 0x840 then leAt x.record (off - 0x800) 4
  else if 0xC0000 ≤ off ∧ off + 4 ≤ 0xC0400 then (x.msixWord ((off - 0xC0000) / 4)).toNat
  else if off = 0xD0000 then bits x.pend 0 32
  else if off = 0xD0004 then bits x.pend 32 32
  else 0

/-- HALF_READ_LATCH (R505, R614, R670): a 32-bit read through the host map. The low half of a 64-bit register latches the high half; the read at offset + 4 that
follows takes the latch. (DEDUCED: log 98) -/
def execHalfReadLatch (fn off : Nat) (s : State) : Res :=
  if 256 ≤ fn then .fault .noSuchUnit
  else
    let x := s.fn fn
    match x.latch, s.barReg fn off with
    | some (o, v), _ =>
      if o = off then .next ((s.setFn fn { x with latch := none }).emit (.regRead (.fn fn) v))
      else match s.barReg fn off with
      | some r => .next (s.lowRead fn off r)
      | none => .next (s.emit (.regRead (.fn fn) (s.otherRead fn off)))
    | none, some r => .next (s.lowRead fn off r)
    | none, none => .next (s.emit (.regRead (.fn fn) (s.otherRead fn off)))

end Sys2Proof.Machine
end

