-- ==== Sys2Proof/Machine/Clock.lean ====
section
/-! DEFINITION. Locking the Meridian to PTP and PPS (R39–R47), and arming a period switch (R31). -/
namespace Sys2Proof.Machine

/-- States of `MER_STATUS.STATE` (R41). -/
def MER_S_FREE : Nat := 0
def MER_S_LOCKED : Nat := 1
def MER_S_DRIFT : Nat := 2
def MER_S_HOLDOVER : Nat := 3

/-- A province that forbids a forward step (R43). -/
def State.anyLive (s : State) : Bool := s.provs.any (fun e => e.2.st == .running || e.2.st == .paused)

/-- Entry to DRIFT or HOLDOVER (R45). -/
def State.enterMer (s : State) (st : Nat) (seen : Fld) : State :=
  ((s.setFld 0 MER_STATUS_STATE st).setFld 0 seen 1).raise { cause := MER_DRIFT, die := 12, aux := st }

/-- A forward step to PTP's frame number `n` (R43): the frame number jumps at the next boundary when PTP's is the greater; a device that is ahead stretches the current frame, whose
end is then PTP's boundary. (DEDUCED: log 17) -/
def State.forwardStep (s : State) (n : Nat) : State :=
  let s := (s.setFld 0 MER_STATUS_STEPPED 1).setFld 0 MER_STATUS_STEP_PENDING 0
  { s with mer := { s.mer with jump := some (if s.fld 0 MER_FRAME_NUM_FRAME < n then n + 1 else 0) } }

/-- Whether a step, not slewing, corrects the offset `e` (R43): it exceeds 1,000 ns, or the frame number is not set yet, and PTP's number is the greater or the device is ahead. -/
def State.wantsStep (s : State) (e : Int) (n : Nat) : Bool :=
  let k := s.fld 0 MER_FRAME_NUM_FRAME
  (decide (1000 < e.natAbs) || !s.mer.locked) && (n != k || (decide (1000 < e.natAbs) && decide (e < 0)))

/-- An evaluation of the offset `e` (R41–R43). `num` is the frame number that PTP time gives by R27, where PTP gives the time of day. (DEDUCED: log 17) -/
def State.evalOffset (s : State) (e : Int) (num : Option Nat) : State :=
  let a := e.natAbs
  let st := s.fld 0 MER_STATUS_STATE
  let n := num.getD (s.fld 0 MER_FRAME_NUM_FRAME)
  let want := s.wantsStep e n
  let first := !s.mer.locked && s.mer.jump.isNone
  if st = MER_S_FREE ∧ first ∧ (num.isNone ∨ (want ∧ s.anyLive)) then
    (if num.isSome then s.setFld 0 MER_STATUS_STEP_PENDING 1 else s)
  else
    let s := if !want then s.setFld 0 MER_STATUS_STEP_PENDING 0 else if s.anyLive then s.setFld 0 MER_STATUS_STEP_PENDING 1 else s.forwardStep n
    let s := if s.mer.jump.isNone ∧ !s.mer.locked then { s with mer := { s.mer with locked := true, time := s.frameStart (s.fld 0 MER_FRAME_NUM_FRAME) } } else s
    let sat : Int := max (-(2 ^ 31 : Nat)) (min e ((2 ^ 31 - 1 : Nat) : Int))
    let s := s.setFld 0 MER_OFFSET_OFFSET (unsigned 32 sat)
    if st = MER_S_FREE then
      if a ≤ 100 then s.setFld 0 MER_STATUS_STATE MER_S_LOCKED
      else ({ s with mer := { s.mer with good := 0 } }).enterMer MER_S_DRIFT MER_STATUS_DRIFT_SEEN
    else if st = MER_S_LOCKED then
      if a ≤ 100 then s else ({ s with mer := { s.mer with good := 0 } }).enterMer MER_S_DRIFT MER_STATUS_DRIFT_SEEN
    else if st = MER_S_HOLDOVER then ({ s with mer := { s.mer with good := 0 } }).enterMer MER_S_DRIFT MER_STATUS_DRIFT_SEEN
    else if 80 < a then { s with mer := { s.mer with good := 0 } }
    else if 7 ≤ s.mer.good then ({ s with mer := { s.mer with good := 0 } }).setFld 0 MER_STATUS_STATE MER_S_LOCKED
    else { s with mer := { s.mer with good := s.mer.good + 1 } }

/-- Whether PPS_IN is the phase reference (R46). (DEDUCED: log 18) -/
def State.ppsRef (s : State) : Bool := s.fld 0 MER_PPS_CTRL_IN_EN == 1 && s.fld 0 MER_STATUS_PPS_PRESENT == 1

/-- The frame number at a PTP time (R27). (DESIGN CHOICE: log 21) -/
def State.ptpFrame (s : State) (t : Nat) : Option Nat :=
  let e := (s.reg 0 MER_EPOCH).toNat
  if t < e then none else some ((s.reg 0 MER_BASE_FRAME).toNat + (t - e) / max 1 s.frameLen)

/-- PTP_SYNC_RECEIVED (R41–R43, R46): a valid Sync from the selected master: the offset it gives and the PTP time. With a PPS reference it supplies only the time of day, by which the next edge
finds PTP's frame number. (DESIGN CHOICE: log 20, 168) -/
def execPtpSyncReceived (e : Int) (t : Nat) (s : State) : Res :=
  if s.fld 0 MER_PTP_CTRL_ENABLE = 0 then .next s
  else match s.ptpFrame t with
  | none => .next s
  | some n =>
    let s := { s with mer := { s.mer with tod := some ((n : Int) - (s.fld 0 MER_FRAME_NUM_FRAME : Nat)) } }
    .next (if s.ppsRef then s else s.evalOffset e (some n))

/-- HOLDOVER is entered (R41, R45). -/
def State.holdover (s : State) : State :=
  if s.fld 0 MER_STATUS_STATE = MER_S_LOCKED ∨ s.fld 0 MER_STATUS_STATE = MER_S_DRIFT then s.enterMer MER_S_HOLDOVER MER_STATUS_HOLDOVER_SEEN else s

/-- SYNC_LOSS_TIMEOUT (R41, R46): with a PPS reference the phase is not lost. (DEDUCED: log 18) -/
def execSyncLossTimeout (s : State) : Res := if s.ppsRef then .next s else .next s.holdover

/-- HOLDOVER_LIMIT (R41, R45). -/
def execHoldoverLimit (s : State) : Res :=
  if s.fld 0 MER_STATUS_STATE ≠ MER_S_HOLDOVER then .next s
  else
    let s := ((s.setFld 0 MER_STATUS_STATE MER_S_FREE).setFld 0 MER_STATUS_FREE_SEEN 1).setFld 0 MER_OFFSET_OFFSET 0
    if s.provs.any (fun x => x.2.st != .none_ && decide (1 < s.nranks x.1)) then .next (s.raise { cause := MER_FREE, die := 12 }) else .next s

/-- PPS_IN_EDGE (R46): `dt` nanoseconds after the last accepted edge; `e` is the offset that the edge gives. (DEDUCED: log 19) -/
def execPpsInEdge (falling : Bool) (dt : Nat) (e : Int) (s : State) : Res :=
  if s.fld 0 MER_PPS_CTRL_IN_EN = 0 ∨ b01 falling ≠ s.fld 0 MER_PPS_CTRL_IN_EDGE then .next s
  else if !s.mer.ppsLast ∨ (999900000 ≤ dt ∧ dt ≤ 1000100000) then
    let s := ({ s with mer := { s.mer with ppsLast := true } }).setFld 0 MER_STATUS_PPS_PRESENT 1
    .next (s.evalOffset e (s.mer.tod.map (fun d => Int.toNat ((s.fld 0 MER_FRAME_NUM_FRAME : Int) + d))))
  else .next ((s.setFld 0 MER_STATUS_PPS_FAULT 1).count { unit := srvStw, event := 0xA0, priv := 1 })

/-- PPS_IN_TIMEOUT (R46): no edge accepted for 3 s: the reference falls back to PTP, or to HOLDOVER when PTP is off. (DEDUCED: log 19) -/
def execPpsInTimeout (s : State) : Res :=
  if s.fld 0 MER_STATUS_PPS_PRESENT = 0 then .next s
  else
    let s := s.setFld 0 MER_STATUS_PPS_PRESENT 0
    if s.fld 0 MER_PTP_CTRL_ENABLE = 0 then .next s.holdover else .next s

/-- PPS_OUT_PULSE (R47): a rise at a whole second (OUT_MODE 1) or at a marked frame (OUT_MODE 2), and the fall after the width. -/
def execPpsOutPulse (rise : Bool) (s : State) : Res :=
  let m := s.fld 0 MER_PPS_CTRL_OUT_MODE
  if !rise ∨ s.inReset then .next { s with mer := { s.mer with ppsOut := false } }
  else if m = 1 ∨ (m = 2 ∧ s.fld 0 MER_FRAME_NUM_FRAME % 2 ^ s.fld 0 MER_PPS_CTRL_OUT_DIV = 0) then
    .next { s with mer := { s.mer with ppsOut := true } }
  else .next { s with mer := { s.mer with ppsOut := false } }

/-- PTP_SYNC_TRANSMIT (R39, R499): PTP messages leave a master port: in the boundary-clock role every enabled port but the source port, in the BMCA role the source port (64 is the
management port). (DESIGN CHOICE: log 21) -/
def execPtpSyncTransmit (port : Nat) (s : State) : Res :=
  if 64 < port then .fault .noSuchUnit
  else
    let role := s.fld 0 MER_PTP_CTRL_ROLE
    let src := s.fld 0 MER_PTP_CTRL_SRC_PORT
    let one := s.fld 0 MER_PTP_CTRL_ONE_STEP == 1 && (port == 64 || s.fld port ETH_PORT_CTRL_MACSEC_EN == 0)
    let on := port == 64 || (s.portLanes port != 0 && s.fld port ETH_PORT_CTRL_EN == 1 && s.fld port ETH_PORT_CTRL_PTP_EN == 1)
    if s.fld 0 MER_PTP_CTRL_ENABLE = 1 ∧ on ∧ ((role = 2 ∧ port ≠ src ∧ port ≠ 64) ∨ (role = 1 ∧ port = src)) then .next (s.emit (.ptp port one)) else .next s

/-- ARM is set (R31): a switch whose NEXT is out of range, or whose frame has begun, is refused at once. -/
def State.armSwitch (s : State) : State :=
  let n := s.fld 0 MER_TICK_PERIOD_NEXT
  if n < 4 ∨ 256 < n ∨ (s.reg 0 MER_SWITCH_FRAME).toNat ≤ s.fld 0 MER_FRAME_NUM_FRAME then
    (s.setFld 0 MER_TICK_PERIOD_ARM 0).setFld 0 MER_STATUS_CFG_ERR 1
  else s.setFld 0 MER_TICK_PERIOD_ARM 1

/-- MER_TICK_PERIOD_ARM (R31): the steward sets ARM. -/
def execMerTickPeriodArm (s : State) : Res := if s.inReset then .next s else .next s.armSwitch

/-- An armed switch at the start of its frame (R30, R31); the frame number has just become S. (DESIGN CHOICE: log 16) -/
def State.periodSwitch (s : State) : State :=
  if s.fld 0 MER_TICK_PERIOD_ARM = 0 ∨ s.fld 0 MER_FRAME_NUM_FRAME < (s.reg 0 MER_SWITCH_FRAME).toNat then s
  else
    let n := s.fld 0 MER_TICK_PERIOD_NEXT
    let busy := s.provs.any (fun e => e.2.st == .sealed_ || e.2.st == .running || e.2.st == .paused)
    let t := s.frameTime
    let sw := s.reg 0 MER_SWITCH_FRAME
    let s := s.setFld 0 MER_TICK_PERIOD_ARM 0
    if n < 4 ∨ 256 < n ∨ busy ∨ sw.toNat ≠ s.fld 0 MER_FRAME_NUM_FRAME then s.setFld 0 MER_STATUS_CFG_ERR 1
    else ((s.setFld 0 MER_TICK_PERIOD_PERIOD n).setReg 0 MER_EPOCH (BitVec.ofNat 64 t)).setReg 0 MER_BASE_FRAME sw

/-- The frame number and the period at a boundary (R28, R30, R43, R678). A jump of R43 is the first lock's at the latest. (DEDUCED: log 17) -/
def State.tick (s : State) : State :=
  let m := s.mer
  let n := match m.jump with | some j => max j (s.fld 0 MER_FRAME_NUM_FRAME + 1) | none => s.fld 0 MER_FRAME_NUM_FRAME + 1
  let time := if m.jump.isSome then s.frameStart n else m.time + s.frameLen
  let s := s.setFld 0 MER_FRAME_NUM_FRAME n
  let s := match m.boot with | some p => s.setFld 0 MER_TICK_PERIOD_PERIOD p | none => s
  ({ s with mer := { m with jump := none, boot := none, locked := m.locked || m.jump.isSome, time := time, tod := if m.jump.isSome then none else m.tod } }).periodSwitch

end Sys2Proof.Machine
end

