-- ==== Sys2Proof/Machine/Wire.lean ====
section
/-! DEFINITION. What stands in the headers of a frame that a port sends, in network order (R2): the Ethernet header with its 802.1Q tag (R440, R445), the IP and UDP headers of
Ndeyx-U (R471, R472, R476, R477), the Ndeyx header (R479) the header of an RDE message (R412), and the sealed payload that follows (R476, R491). A field that the spec leaves open is a free value. -/
namespace Sys2Proof.Machine

/-- The code of a control message (R496). -/
def bodyCode : NdxBody → Option Nat
  | .linkup _ _ _ => some 1
  | .close => some 2
  | .rekeyReq => some 3
  | .keyUpd _ => some 4
  | .keyUpdAck _ => some 5
  | .lowerReq _ => some 6
  | .lowerAck _ => some 7
  | .other c => some c
  | _ => none

/-- The header of an RDE message, sent in `frame` (R412). -/
def segHead (m : SegMsg) (frame : Nat) : List Byte :=
  beBytes 1 (16 + m.kind % 16) ++ beBytes 1 (b01 m.nfstep + 2 * b01 m.nf + 4 * b01 m.last + 8 * b01 m.patch) ++ beBytes 2 m.ord ++ beBytes 4 m.seg ++
  beBytes 4 m.repoch ++ beBytes 4 m.nfc ++ beBytes 8 m.step ++ beBytes 8 frame

/-- What the spec states of the beginning of a payload, in network order (R412, R483, R496). -/
def bodyNet (b : NdxBody) (frame : Nat) : List Byte :=
  match b with
  | .seg m => segHead m frame
  | .ack cum sack ce st => beBytes 4 cum ++ beBytes 8 sack ++ beBytes 2 ce ++ beBytes 1 st ++ zeros 1
  | b => match bodyCode b with | some c => beBytes 1 c | none => []

/-- The length of a payload, where the spec gives the whole of it (R412, R479, R483). -/
def bodyLen : NdxBody → Option Nat
  | .seg m => some (32 + m.payload.length)
  | .ack _ _ _ _ => some 16
  | .keepalive => some 0
  | _ => none

/-- The rank-table entry of a link's peer (R419, R469). -/
def State.linkEntry (s : State) (l : Link) : Option RankEnt :=
  if l.prov = 0 then (s.provs.flatMap (fun e => e.2.ranktab)).find? (fun e => e.devid == l.devid) else (s.prov l.prov).ranktab.find? (fun e => e.rank == some l.peer)

/-- A packet that leaves: its link, content, packet number, sequence number, stream, and whether it is a retransmission. -/
structure Leaving where
  link : Link
  body : NdxBody
  pn : Nat
  psn : Option Nat
  stream : Nat
  retx : Bool

/-- The Ndeyx header (R479): `port` and `slot` it leaves in, its priority, and a free value for what the spec leaves open (ACKREQ, the PSN of a packet without one, the length of a
payload that the spec does not lay out). -/
def State.ndxHead (s : State) (x : Leaving) (port slot pri free : Nat) : List Byte :=
  let l := x.link
  let src := if l.prov = 0 then 0xFFFFF else s.rank l.prov
  let dst := if l.prov = 0 then 0xFFFFF else l.peer
  beBytes 1 (l.ver % 16 * 16 + x.body.type) ++
  beBytes 1 (b01 l.phase + 2 * bits free 0 1 + 4 * b01 x.retx + 16 * s.fld 0 MER_STATUS_STATE) ++
  beBytes 1 (pri % 8 * 32 + x.stream % 32) ++ beBytes 1 (port % 64) ++
  beBytes 8 (src % 2 ^ 20 * 2 ^ 44 + dst % 2 ^ 20 * 2 ^ 24 + l.peerDlid.getD 0 % 2 ^ 24) ++
  beBytes 8 x.pn ++ beBytes 4 (x.psn.getD (bits free 1 32)) ++ beBytes 3 s.frame ++ beBytes 1 slot ++
  beBytes 2 ((bodyLen x.body).getD (bits free 33 16)) ++ beBytes 2 (if l.prov = 0 then 0 else s.fld l.prov PROV_EPOCH_EPOCH)

/-- The tag that a port inserts (R445). -/
def State.txTag (s : State) (n pri : Nat) : List Byte :=
  if s.fld n ETH_PORT_CTRL_VID = 0 ∧ s.fld n ETH_PORT_CTRL_PCP_TAG = 0 then []
  else beBytes 2 0x8100 ++ beBytes 2 (pri % 8 * 2 ^ 13 + s.fld n ETH_PORT_CTRL_VID)

/-- The Ethernet header (R440, R445, R476): destination, the port's address, the tag, the EtherType. -/
def State.ethHead (s : State) (n pri dst etype : Nat) : List Byte :=
  beBytes 6 dst ++ beBytes 6 (s.fld n ETH_PORT_MAC_MAC) ++ s.txTag n pri ++ beBytes 2 etype

/-- The checksum of an IPv4 header whose checksum field is 0. -/
def ipSum (h : List Byte) : Nat :=
  let t := (List.range (h.length / 2)).foldl (fun a i => a + ofBE (slice h (2 * i) 2)) 0
  let t := t % 65536 + t / 65536
  65535 - (t % 65536 + t / 65536)

/-- DSCP of a priority by the fabric settings (R477). -/
def State.dscpOf (s : State) (pri : Nat) : Nat := ((s.net.fabric.map Fabric.dscp).getD []).getD pri 0 % 64

/-- The IPv4 and UDP headers of Ndeyx-U (R471, R472, R476, R477), with a free identification. -/
def State.ip4Head (s : State) (x : Leaving) (n pri plen free : Nat) (addr : List Byte) : List Byte :=
  let h := fun (sum : Nat) =>
    beBytes 1 0x45 ++ beBytes 1 (4 * s.dscpOf pri) ++ beBytes 2 (20 + 8 + 32 + plen + 16) ++ beBytes 2 (bits free 0 16) ++ beBytes 2 0x4000 ++ beBytes 1 64 ++ beBytes 1 17 ++
    beBytes 2 sum ++ beBytes 4 ((s.net.fabric.bind Fabric.ip4).getD 0 + n) ++ beBytes 4 (ofBE (slice addr 0 4) + n)
  h (ipSum (h 0)) ++ beBytes 2 (49152 + (x.link.peerDlid.getD 0 * 32 + x.stream) % 16384) ++ beBytes 2 (s.fld 0 NDX_CTRL_UDP_PORT) ++ beBytes 2 (8 + 32 + plen + 16) ++ zeros 2

/-- The UDP checksum over IPv6 (R477): over the pseudo header, the UDP header and what follows it; a sum of 0 is sent as all ones. -/
def udpSum (src dst : Nat) (udp rest : List Byte) : Nat :=
  let n := udp.length + rest.length
  let c := ipSum (beBytes 16 src ++ beBytes 16 dst ++ beBytes 4 n ++ beBytes 4 17 ++ udp ++ rest ++ zeros (n % 2))
  if c = 0 then 0xFFFF else c

/-- The IPv6 and UDP headers of Ndeyx-U (R471, R472, R476, R477), with a free flow label, before the packet `rest`. -/
def State.ip6Head (s : State) (x : Leaving) (n pri plen free : Nat) (addr rest : List Byte) : List Byte :=
  let src := (s.net.fabric.bind Fabric.ip6).getD 0 + n
  let dst := ofBE addr + n
  let udp := beBytes 2 (49152 + (x.link.peerDlid.getD 0 * 32 + x.stream) % 16384) ++ beBytes 2 (s.fld 0 NDX_CTRL_UDP_PORT) ++ beBytes 2 (8 + 32 + plen + 16)
  beBytes 4 (6 * 2 ^ 28 + 4 * s.dscpOf pri * 2 ^ 20 + bits free 0 20) ++ beBytes 2 (8 + 32 + plen + 16) ++ beBytes 1 17 ++ beBytes 1 64 ++
  beBytes 16 src ++ beBytes 16 dst ++ udp ++ beBytes 2 (udpSum src dst (udp ++ zeros 2) rest)

/-- The 88 bytes of `link_keys` (R491) for a link of the device `own`: key lo to hi, key hi to lo, iv lo to hi, iv hi to lo. (PRESUMED: log 85) -/
def Link.keys (l : Link) (own ptag gen : Nat) : List Byte :=
  hkdfExpand (hmac384 (sha384 (Config.transcript l.master)) (Config.sharedSecret l.master))
    (ascii "NDX1 link" ++ beBytes 8 ptag ++ beBytes 8 (min own l.devid) ++ beBytes 8 (max own l.devid) ++ beBytes 4 gen) 88

/-- The nonce of a packet number (R491). -/
def ndxNonce (iv : List Byte) (pn : Nat) : List Byte := List.zipWith (fun a b => a ^^^ b) iv (zeros 4 ++ beBytes 8 pn)

/-- What follows the stated beginning of a payload. (DEDUCED: log 147) -/
def bodyData : NdxBody → List Byte
  | .seg m => m.payload
  | _ => []

/-- A packet's payload, sealed under the key of the sending direction with its header as additional data (R476, R479, R491). -/
def State.sealPayload (s : State) (x : Leaving) (head : List Byte) : List Byte :=
  let l := x.link
  let k := l.keys s.stw.devid (if l.prov = 0 then 0 else (s.reg l.prov PROV_NDX_TAG).toNat) l.gen
  let d := if s.stw.devid < l.devid then 0 else 1
  let n := ndxNonce (slice k (64 + 12 * d) 12) x.pn
  let m := bodyNet x.body s.frame ++ bodyData x.body
  gcmText (slice k (32 * d) 32) n head m ++ gcmTag (slice k (32 * d) 32) n head m

/-- Whether a frame to a link's peer has its next hop's address (R477): Ndeyx-E needs none; nor does a port whose next hop the fabric settings do not give. -/
def State.hopKnown (s : State) (l : Link) (n : Nat) : Bool :=
  ((s.linkEntry l).map RankEnt.encap).getD 0 == 0 || (s.port n).hop.isSome || !((s.net.fabric.map Fabric.hops).getD []).any (fun h => h.1 == n)

/-- An Ndeyx packet's frame (R472, R476): Ndeyx-E to the peer's port of the same number, Ndeyx-U to the next hop, a free address where the settings give none. -/
def State.frameTo (s : State) (x : Leaving) (n pri plen g : Nat) (packet : List Byte) : List Byte :=
  let e := s.linkEntry x.link
  let addr := (e.map RankEnt.addr).getD []
  let hop := (s.port n).hop.getD (bits g 16 48)
  (match (e.map RankEnt.encap).getD 0 with
   | 1 => s.ethHead n pri hop 0x0800 ++ s.ip4Head x n pri plen g addr
   | 2 => s.ethHead n pri hop 0x86DD ++ s.ip6Head x n pri plen g addr packet
   | _ => s.ethHead n pri (ofBE (slice addr 0 6) + n) (s.fld 0 NDX_CTRL_ETHERTYPE)) ++ packet

/-- A sealed packet's frame (R476, R479). (DEDUCED: log 147) -/
def State.packetFrame (s : State) (x : Leaving) (n slot pri f g : Nat) : List Byte :=
  let h := s.ndxHead x n slot pri f
  s.frameTo x n pri ((bodyLen x.body).getD (bits f 33 16)) g (h ++ s.sealPayload x h)

/-- The payload of a handshake packet (R489), whose keys and signature are free values of `k`: the versions in a byte each, the nonce, the keys, the chain, the signature, and the control link's DLID. (DEDUCED: log 81; PRESUMED: log 85) -/
def State.hsPayload (s : State) (b : NdxBody) (k : Nat) : List Byte :=
  match b with
  | .hello lo hi d _ => beBytes 1 lo ++ beBytes 1 hi ++ beBytes 4 (Config.freeWord k).toNat ++ Config.hsPart k 0 ++ Config.hsPart k 1 ++ s.certChain ++ beBytes 3 d
  | .reply v d _ _ => beBytes 1 v ++ beBytes 4 (Config.freeWord k).toNat ++ Config.hsPart k 0 ++ Config.hsPart k 1 ++ s.certChain ++ Config.hsPart k 2 ++ beBytes 3 d
  | _ => Config.hsPart k 2

/-- A handshake packet's frame (R479, R489): in clear, with VER 1, TYPE 0, DLID 0 and PN 0. (PRESUMED: log 85) -/
def State.hsFrame (s : State) (l : Link) (b : NdxBody) (n slot pri f g : Nat) : List Byte :=
  let body := s.hsPayload b s.free
  let x : Leaving := ⟨{ l with ver := 1, phase := false, peerDlid := none }, b, 0, none, 0, false⟩
  let h := s.ndxHead x n slot pri f
  s.frameTo x n pri body.length g (slice h 0 28 ++ beBytes 2 body.length ++ h.drop 30 ++ body)

/-- A MAC control frame (R440, R450): 802.3x pause, or PFC with its enables and a quantum count by priority. (PRESUMED: log 73) -/
def State.pauseFrame (s : State) (n : Nat) (pfc : Bool) (enables quanta : Nat) : List Byte :=
  let h := beBytes 6 0x0180C2000001 ++ beBytes 6 (s.fld n ETH_PORT_MAC_MAC) ++ beBytes 2 0x8808
  let b := if pfc then beBytes 2 0x0101 ++ beBytes 2 enables ++ (List.range 8).flatMap (fun i => beBytes 2 (if bitAt enables i then quanta else 0)) else beBytes 2 1 ++ beBytes 2 quanta
  h ++ b ++ zeros (46 - b.length)

/-- A frame under MACsec (R498): the addresses, a SecTAG of 16 bytes with an explicit SCI, the rest encrypted from its first byte on, and the check value. (PRESUMED: log 85) -/
def State.macsecFrame (s : State) (n : Nat) (h : List Byte) : List Byte :=
  let x := s.port n
  let tag := beBytes 2 0x88E5 ++ beBytes 1 (0x2C + x.sakNo % 4) ++ zeros 1 ++ beBytes 4 x.mtx ++ beBytes 6 (s.fld n ETH_PORT_MAC_MAC) ++ beBytes 2 1
  let k := Config.sak n x.sakNo
  let iv := List.zipWith (fun a b => a ^^^ b) (Config.sakIv n x.sakNo) (zeros 4 ++ beBytes 8 x.mtx)
  h.take 12 ++ tag ++ gcmText k iv (h.take 12 ++ tag) (h.drop 12) ++ gcmTag k iv (h.take 12 ++ tag) (h.drop 12)

/-- A frame leaves (R2): a packet's, a handshake packet's, the header of a PTP frame (R39, R445), of an EAPOL frame (R444) or of another steward frame, where the spec leaves the rest open; on a port
with MACsec all but EAPOL frames are protected (R498). -/
def State.wireOut (s : State) (n slot pri : Nat) (what : TxWhat) (x : Option Leaving) : State :=
  let f := s.freeVal.1.toNat
  let g := s.freeVal.2.freeVal.1.toNat
  let head := match x, what with
    | some x, .handshake _ => s.hsFrame x.link x.body n slot pri f g
    | some x, _ => s.packetFrame x n slot pri f g
    | none, .ptp => s.ethHead n pri (bits f 0 48) (match s.fld 0 MER_PTP_CTRL_TRANSPORT with | 1 => 0x0800 | 2 => 0x86DD | _ => 0x88F7)
    | none, .eapol => s.ethHead n pri 0x0180C2000003 0x888E
    | none, _ => s.ethHead n pri (bits f 0 48) (bits g 0 16)
  s.freeVal.2.freeVal.2.emit (.wire n (if s.fld n ETH_PORT_CTRL_MACSEC_EN = 1 ∧ what ≠ .eapol then s.macsecFrame n head else head))

end Sys2Proof.Machine
end

