-- ==== Sys2Proof/Machine/Ethernet.lean ====
section
/-! DEFINITION. The Ethernet ports at work (spec file 15): frames received and sent, pause and PFC, parking, links, lanes, modules. -/
namespace Sys2Proof.Machine

/-- Units that do not exist stop a command. (DESIGN CHOICE: log 5) -/
def onPort (port : Nat) (f : Res) : Res := if port < 64 then f else .fault .noSuchUnit

/-- Whether a port passes frames: configured, enabled, with link. -/
def State.portUp (s : State) (n : Nat) : Bool :=
  s.portLanes n != 0 && s.fld n ETH_PORT_CTRL_EN == 1 && s.fld n ETH_PORT_STATUS_LINK == 1

/-- Destination addresses that pass the filter of R444. -/
def State.dstOk (s : State) (n dst : Nat) : Bool :=
  dst == s.fld n ETH_PORT_MAC_MAC || dst == 0xFFFFFFFFFFFF || dst == 0x011B19000000 || dst == 0x0180C200000E ||
  (dst == 0x0180C2000003 && s.fld n ETH_PORT_CTRL_MACSEC_EN == 1) ||
  ([0x01005E000181, 0x01005E00006B, 0x333300000181, 0x33330000006B].contains dst && s.fld n ETH_PORT_CTRL_PTP_EN == 1) ||
  (match s.net.fabric.bind Fabric.ip6 with
   | some a => dst == 0x333300000001 || dst == 0x3333FF000000 + (a + n) % 2 ^ 24
   | none => false)

/-- Good frames by destination: 0 unicast, 1 multicast, 2 broadcast. -/
def dstKindOf (dst : Nat) : Nat := if dst = 0xFFFFFFFFFFFF then 2 else if bitAt dst 40 then 1 else 0

/-- A frame received without error is counted (R462). (DEDUCED: log 72) -/
def State.rxGood (s : State) (n : Nat) (f : EthFrame) : State :=
  let s := (s.ethStat n 0 1).ethStat n 1 f.len
  let s := s.ethStat n (3 + dstKindOf f.dst) 1
  if f.tags = [] then s else s.ethStat n 6 1

/-- A frame that a filter drops (R444). (DEDUCED: log 72) -/
def State.rxFilter (s : State) (n : Nat) (f : EthFrame) : State := (s.rxGood n f).ethStat n 33 1

/-- Priorities that a port may hold off or be held on (R450). -/
def State.pausePris (s : State) (n : Nat) : Nat :=
  match s.fld n ETH_PORT_CTRL_PAUSE_MODE with
  | 1 => 0xFF
  | 2 => s.fld n ETH_PFC_CTRL_PRI_EN
  | _ => 0

/-- A pause or PFC frame that the MAC sends (R450, R452) for the priorities of `mask`, with PAUSE_TIME quanta to hold off and 0 to let go; none where the mode lets the port send none for
them. -/
def State.sendPause (s : State) (n mask : Nat) (off : Bool) : State :=
  let m := mask &&& s.pausePris n
  if m = 0 then s
  else
    let pfc := s.fld n ETH_PORT_CTRL_PAUSE_MODE == 2
    let s := s.ethStat n (if pfc then 43 else 42) 1
    let q := if off then s.fld n ETH_PFC_CTRL_PAUSE_TIME else 0
    (((((s.ethStat n 36 1).ethStat n 37 64).ethStat n 39 1).ethStat n 45 1).emit (.wire n (s.pauseFrame n pfc m q))).emit (.pause n pfc m q)

/-- The priorities that an XOFF or XON of one priority is for: 802.3x pause is for all traffic (R450). -/
def State.priMask (s : State) (n pri : Nat) : Nat := if s.fld n ETH_PORT_CTRL_PAUSE_MODE = 1 then s.fld n ETH_PFC_STATUS_XOFF else 2 ^ (pri % 8)

/-- Priorities of `a` that are not in `b`. -/
def without (a b : Nat) : Nat := a &&& (255 ^^^ (b % 256))

/-- A hold on the priorities of `mask` begins, or ends (R450, R451); PFC_WD and hold times are kept by the frame. -/
def State.holdPris (s : State) (n mask : Nat) : State :=
  let was := s.fld n ETH_PFC_STATUS_TX_HELD
  let s := s.setFld n ETH_PFC_STATUS_TX_HELD (was ||| mask)
  if was = 0 ∧ mask ≠ 0 then s.setPort n { (s.port n) with heldAt := s.frameTime } else s
def State.freePris (s : State) (n mask : Nat) : State :=
  let was := s.fld n ETH_PFC_STATUS_TX_HELD
  let now := without was mask
  let s := s.setFld n ETH_PFC_STATUS_TX_HELD now
  if was ≠ 0 ∧ now = 0 then s.ethStat n 63 ((s.frameTime - (s.port n).heldAt) / 1000) else s

/-- PAUSE_RECEIVED (R450): a quantum count of 0 ends a hold; a priority in a declared storm ignores pause (R453). -/
def State.pauseIn (s : State) (n : Nat) (f : EthFrame) : State :=
  let s := if f.pfc then
      (List.range 8).foldl (fun s i => if bitAt f.enables i then s.ethStat n (9 + i) 1 else s) (s.ethStat n 8 1)
    else s.ethStat n 7 1
  let mode := s.fld n ETH_PORT_CTRL_PAUSE_MODE
  if (mode = 1 ∧ !f.pfc) ∨ (mode = 2 ∧ f.pfc) then
    let mask := without (if f.pfc then f.enables &&& s.pausePris n else 0xFF) (s.fld n ETH_PFC_STATUS_STORM)
    let q := fun i => f.quanta.getD (if f.pfc then i else 0) 0
    let on := (List.range 8).foldl (fun a i => if bitAt mask i && q i != 0 then a + 2 ^ i else a) 0
    let off := (List.range 8).foldl (fun a i => if bitAt mask i && q i == 0 then a + 2 ^ i else a) 0
    (s.holdPris n on).freePris n off
  else s

/-- Bytes of a province's part of a port's receive buffer, and those in use (R452). (DEDUCED: log 78) -/
def State.rxPart (s : State) (n p : Nat) : Nat :=
  let w := s.portLanes n
  let total := (s.port n).shares.foldl (fun a x => a + x.2) 0
  if p = 0 then w * 16384
  else w * 245760 * (((s.port n).shares.find? (fun x => x.1 == p)).elim 0 Prod.snd) / max 1 total
/-- Bytes of a port's receive buffer that a province holds (R452). (DEDUCED: log 78) -/
def State.rxUsed (s : State) (n p : Nat) : Nat := ((s.port n).rxbuf.filter (fun x => x.1 == p)).foldl (fun a x => a + x.2) 0

/-- XOFF_SEND (R452): on a single-owner port, when the owner's part is full up to the headroom; stuck priorities are not held off (R454). -/
def State.xoffCheck (s : State) (n : Nat) : State :=
  let o := s.fld n ETH_PORT_STATUS_OWNER
  let mask := without (without (s.pausePris n) (s.fld n ETH_PFC_STATUS_STUCK)) (s.fld n ETH_PFC_STATUS_XOFF)
  if s.fld n ETH_PORT_STATUS_SINGLE = 1 ∧ o ≠ 0 ∧ mask ≠ 0 ∧
      s.rxPart n o ≤ s.rxUsed n o + s.fld n ETH_PFC_CTRL_HEADROOM_KIB * 1024 * s.portLanes n then
    (s.orFld n ETH_PFC_STATUS_XOFF mask).sendPause n mask true
  else s

/-- An Ndeyx frame takes its place in the receive buffer, or is dropped (R452). (DEDUCED: log 88) -/
def State.rxNdeyx (s : State) (n : Nat) (f : EthFrame) : State :=
  if s.rxPart n f.prov < s.rxUsed n f.prov + f.len then s.ethStat n 34 1
  else
    let s := s.rxGood n f
    (s.setPort n { (s.port n) with rxbuf := (s.port n).rxbuf ++ [(f.prov, f.len)] }).xoffCheck n

/-- Whether an address is one of a port's Ndeyx-U addresses (R471). -/
def State.ownAddr (s : State) (n a : Nat) : Bool :=
  match s.net.fabric with
  | some f => f.ip4.map (fun b => b + n) == some a || f.ip6.map (fun b => b + n) == some a
  | none => false

/-- A frame for the steward, at most 10,000 a second on a port (R444), which takes it from its part of the receive buffer at once (R452); a question for an Ndeyx-U address of the port is
answered with the port's address, and an answer for its next hop resolves that (R477). (DEDUCED: log 78) -/
def State.rxSteward (s : State) (n : Nat) (f : EthFrame) : State :=
  let now := s.frameTime / 1000000000
  let x := s.port n
  let k := if x.stewAt = now then x.stewN else 0
  if 10000 ≤ k then s.ethStat n 35 1
  else if s.rxPart n 0 < s.rxUsed n 0 + f.len then s.ethStat n 34 1
  else
    let s := (s.setPort n { x with stewAt := now, stewN := k + 1 }).rxGood n f
    let s := match f.answer with
      | some a => if ((s.net.fabric.map Fabric.hops).getD []).contains (n, a.1) then s.setPort n { (s.port n) with hop := some a.2 } else s
      | none => s
    match f.ask with
    | some a => if s.ownAddr n a then s.emit (.address n a (s.fld n ETH_PORT_MAC_MAC)) else s
    | none => s

/-- A frame that came out of MACsec decryption moves the replay window (R498). -/
def State.noteMsec (s : State) (n : Nat) (f : EthFrame) : State :=
  if f.macsec then s.setPort n { (s.port n) with mrx := max (s.port n).mrx (f.mpn + 1) } else s

/-- ETHERNET_FRAME_RECEIVED (R442–R444, R462, R477, R498): the first check that applies decides the frame's fate. A frame that MACsec decrypts is counted when it is classified again; one below
the replay window is dropped. (PRESUMED: log 85) -/
def execEthernetFrameReceived (port : Nat) (f : EthFrame) (s : State) : Res :=
  onPort port (
    if !s.portUp port then .next s
    else
      let sec := s.fld port ETH_PORT_CTRL_MACSEC_EN == 1
      let secure := s.fld 0 (NDX_MSEC_CTRL_SECURE port) == 1
      let x := s.port port
      let ctl := f.dst == 0x0180C2000001 && f.etype == 0x8808
      let was := s
      let max := s.fld port ETH_PORT_CTRL_MAXFRAME
      let s := s.ethStat port 2 f.len
      let s := match sizeBucket f.len with | some i => s.ethStat port (17 + i) 1 | none => s
      if f.pcs then .next (s.ethStat port 32 1)
      else if !f.fcsOk then .next (s.ethStat port (if f.len < 64 then 29 else if max < f.len then 31 else 27) 1)
      else if f.len < 64 then .next (s.ethStat port 28 1)
      else if max < f.len then .next (s.ethStat port 30 1)
      else if ctl then .next (s.pauseIn port f)
      else if !s.dstOk port f.dst then .next (s.rxFilter port f)
      else if 2 ≤ f.tags.length ∨ f.tags.any (fun t => t % 4096 != 0 && t % 4096 != s.fld port ETH_PORT_CTRL_VID) then .next (s.rxFilter port f)
      else if sec ∧ f.etype ≠ 0x888E ∧ (!secure ∨ (!f.macsec ∧ f.etype ≠ 0x88E5)) then .next (s.rxFilter port f)
      else if sec ∧ f.macsec ∧ f.mpn + s.fld 0 (NDX_MSEC_CTRL_REPLAY_WIN port) < x.mrx then .next s
      else if f.etype = s.fld 0 NDX_CTRL_ETHERTYPE ∨ f.udp = some (s.fld 0 NDX_CTRL_UDP_PORT) then
        .next (let s := s.noteMsec port f; if f.refused then s.rxFilter port f else s.rxNdeyx port f)
      else if f.etype = 0x88F7 ∨ f.udp = some 319 ∨ f.udp = some 320 then .next ((s.noteMsec port f).rxGood port f)
      else if f.etype = 0x88E5 ∧ !f.macsec then .next (if sec then was else s.rxFilter port f)
      else if f.stew ∨ f.etype = 0x888E then .next ((s.noteMsec port f).rxSteward port f)
      else .next ((s.noteMsec port f).rxFilter port f))

/-- PAUSE_HOLD_EXPIRE (R451): the quanta of a hold have passed. (PRESUMED: log 73) -/
def execPauseHoldExpire (port pri : Nat) (s : State) : Res := onPort port (.next (s.freePris port (2 ^ (pri % 8))))

/-- XOFF_REPEAT (R452): while a priority of a single-owner port is held off, the frame is repeated at half its quanta. -/
def execXoffRepeat (port pri : Nat) (s : State) : Res :=
  onPort port (.next (if bitAt (s.fld port ETH_PFC_STATUS_XOFF) (pri % 8) && s.fld port ETH_PORT_STATUS_SINGLE == 1 then s.sendPause port (s.priMask port pri) true else s))

/-- XON_SEND (R452): occupancy has fallen to the XON level. -/
def execXonSend (port pri : Nat) (s : State) : Res :=
  onPort port (
    let o := s.fld port ETH_PORT_STATUS_OWNER
    let x := s.fld port ETH_PFC_STATUS_XOFF
    if bitAt x (pri % 8) ∧ s.rxUsed port o ≤ s.fld port ETH_PFC_CTRL_XON_KIB * 1024 * s.portLanes port then
      .next ((s.setFld port ETH_PFC_STATUS_XOFF (without x (s.priMask port pri))).sendPause port (s.priMask port pri) false)
    else .next s)

/-- The record of a port. -/
def portRec (cause n aux : Nat) : ErrRec := { cause := cause, die := fdDie (n / 16), unit := n, aux := aux }

/-- A recovery begins (R453, R454). -/
def State.recover (s : State) (n pri : Nat) (stuck : Bool) : State := s.setPort n { (s.port n) with recov := (s.port n).recov ++ [(pri, stuck)] }

/-- PFC_STORM (R453): a priority held for WD_MS. -/
def execPfcStorm (port pri : Nat) (s : State) : Res :=
  onPort port (
    let b := 2 ^ (pri % 8)
    if !bitAt (s.fld port ETH_PFC_STATUS_TX_HELD) (pri % 8) then .next s
    else .next (((((s.freePris port b).orFld port ETH_PFC_STATUS_STORM b).recover port (pri % 8) false).ethStat port 61 1).raise (portRec PFC_STORM_C port (pri % 8))))

/-- PFC_STUCK (R454): a priority held off for WD_MS. -/
def execPfcStuck (port pri : Nat) (s : State) : Res :=
  onPort port (
    let b := 2 ^ (pri % 8)
    let x := s.fld port ETH_PFC_STATUS_XOFF
    if !bitAt x (pri % 8) then .next s
    else .next (((((s.setFld port ETH_PFC_STATUS_XOFF (without x b)).orFld port ETH_PFC_STATUS_STUCK b).recover port (pri % 8) true).ethStat port 61 1).raise
      (portRec PFC_STUCK_C port (pri % 8))))

/-- PFC_RECOVERY_END (R453, R454): the recovery of a priority that began first is over: pause is honoured, or XOFF sent, again. -/
def execPfcRecoveryEnd (port pri : Nat) (s : State) : Res :=
  onPort port (
    let b := 2 ^ (pri % 8)
    match (s.port port).recov.find? (fun x => x.1 == pri % 8) with
    | none => .next s
    | some x =>
      let s := s.setPort port { (s.port port) with recov := (s.port port).recov.erase x }
      if x.2 then .next ((s.setFld port ETH_PFC_STATUS_STUCK (without (s.fld port ETH_PFC_STATUS_STUCK) b)).xoffCheck port)
      else .next (s.setFld port ETH_PFC_STATUS_STORM (without (s.fld port ETH_PFC_STATUS_STORM) b)))

/-- The owned run from `slot` on: slots in a row of one owner. (DEDUCED: log 74) -/
def runFrom (t : List Nat) (slot : Nat) : Nat := ((t.drop slot).takeWhile (fun x => x == t.getD slot 0x0300)).length

/-- The paths a link's packet may leave on (R485), among the up paths of its slice's die: version 3 takes any, but a retransmission another than its last where there is one; earlier versions take
the lowest. (DEDUCED: log 88) -/
def State.pathsFor (s : State) (l : Link) (die last : Option Nat) : List Nat :=
  let a := (s.upPaths l).filter (fun n => match die with | some d => n / 16 == d | none => true)
  if l.ver = 3 then
    let b := a.filter (fun n => last != some n)
    if b.isEmpty then a else b
  else a.take 1

/-- The packet of a stream with a PSN, within the window of 256, or the peer's limit where that is less (R484, R496). -/
def Link.pkt (l : Link) (stream psn : Nat) : Option TxPkt := ((Sparse.get TxStream.init l.tx stream).pkts.take (min 256 l.limit)).find? (fun k => k.psn == psn)

/-- Sending moves to the new key: KPHASE flips and PN starts again (R493, R494). -/
def Link.switchTx (l : Link) (gen now : Nat) : Link :=
  { l with gen := gen, phase := !l.phase, pn := 0, renewing := false, master := l.newMaster.getD l.master, newMaster := none, keyAt := now }

/-- A sent copy of a packet: the next PN, its path, no longer due (R481); the higher end switches its sending with its KEYUPD_ACK (R493). -/
def Link.sent (l : Link) (stream psn n now : Nat) (b : NdxBody) : Link :=
  let t := Sparse.get TxStream.init l.tx stream
  let l := { l with pn := l.pn + 1, spoke := Sparse.set 0 l.spoke n now, tx := Sparse.set TxStream.init l.tx stream { t with pkts := t.pkts.map (fun k => if k.psn = psn then { k with port := some n, pn := l.pn, sentAt := now, due := false } else k) } }
  match b with
  | .keyUpdAck g => if g = l.gen + 1 then l.switchTx g now else l
  | _ => l

/-- What a frame carries of a link, where it is one of its packets and there is one to send: the link, whether the link may send it on the port now, its content, its stream, its PSN and whether it is a retransmission.
A keep-alive leaves on a path that has not heard the peer yet (R497). -/
def State.linkFrame (s : State) (n : Nat) (what : TxWhat) : Option (Link × Bool × NdxBody × Nat × Option Nat × Bool) :=
  match what with
  | .pkt p q st psn => (s.link p q).bind (fun l => (l.pkt st psn).map (fun k =>
      (l, k.due && (s.pathsFor l k.die k.port).contains n, k.body, st, some psn, k.port.isSome)))
  | .ack p q st => (s.link p q).bind (fun l => (l.acks.find? (fun a => a.1 == none || a.1 == some n)).map (fun a =>
      (l, s.pathUp l n || (a.2 == .keepalive && (s.linkPorts l).contains n), a.2, st, none, false)))
  | _ => none

/-- The province whose slots a frame takes (R33, R475): a packet's, but the steward's for a control message. -/
def State.frameOwner (s : State) (n : Nat) (what : TxWhat) : Nat :=
  match s.linkFrame n what with
  | some x => if x.2.2.1.type = 4 then 0 else x.1.prov
  | none => match what with | .pkt p _ _ _ => p | .ack p _ _ => p | _ => 0

/-- Whether a frame waits while the steward restarts (R576): its own frames, and the announcements and control messages of stream 0. -/
def ofSteward : TxWhat → Bool | .pkt _ _ 0 _ | .handshake _ | .steward | .eapol => true | _ => false

/-- A direction whose PN has reached 2^40 shows PN_HARD (R494). -/
def State.pnHard (s : State) (p q : Nat) : State :=
  if (s.link p q).any (fun l => decide (2 ^ 40 ≤ l.pn)) then s.setFld 0 NDX_STATUS_PN_HARD 1 else s

/-- A link's frame leaves: PN, counters, retransmissions (R481, R494, R500, R608), its headers (R479); none where the link may not send: it is not keyed, its DLID at the peer is not known (R470), PN has reached
2^40 (R494), its next hop is not resolved (R477). A handshake packet leaves on its own port (R489). (DEDUCED: log 88) -/
def State.linkSend (s : State) (n slot pri : Nat) (what : TxWhat) : Option State :=
  match what with
  | .handshake d =>
    match s.link 0 d with
    | some l =>
      match l.hsOut with
      | b :: rest =>
        if s.hsPort d ≠ some n ∨ !s.hopKnown l n then none
        else some (((s.wireOut n slot pri what (some ⟨l, b, 0, none, 0, false⟩)).updLink 0 d (fun l => { l with hsOut := rest })).emit (.handshake n d b))
      | [] => none
    | none => none
  | .steward | .eapol | .ptp => some (s.wireOut n slot pri what none)
  | _ =>
    match s.linkFrame n what with
    | some (l, may, b, st, psn, again) =>
      if !l.keyed ∨ l.lost ∨ l.peerDlid.isNone ∨ !may ∨ 2 ^ 40 ≤ l.pn ∨ !s.hopKnown l n then none
      else
        let s := (s.wireOut n slot pri what (some ⟨l, b, l.pn, psn, st, again⟩)).ndxCnt 0 1
        some (match psn with
        | some k =>
          let s := (s.updLink l.prov l.peer (fun l => l.sent st k n s.frameTime b)).pnHard l.prov l.peer
          if again then
            ((s.ndxCnt 2 1).count { unit := srvPort n, event := 0x63, prov := l.prov, priv := b01 (l.prov == 0) }).count { unit := srvProv l.prov, event := 0xC3, prov := l.prov } else s
        | none =>
          ((s.updLink l.prov l.peer (fun l => { l with pn := l.pn + 1, spoke := Sparse.set 0 l.spoke n s.frameTime, acks := l.acks.eraseP (fun a => a.1 == none || a.1 == some n) })).pnHard l.prov l.peer).emit (.ndx l.prov l.peer b))
    | none => none

/-- The priority of a frame: PTP frames take PTP_PRI (R445). -/
def State.framePri (s : State) (n : Nat) (what : TxWhat) (pri : Nat) : Nat := if what = .ptp then s.fld n ETH_PORT_CTRL_PTP_PRI else pri % 8

/-- TRANSMIT_START (R33, R445, R446, R475, R481, R485, R494): a frame starts in `slot`, when CUR bytes or the whole of it are present. While the steward restarts its frames wait (R576). (DEDUCED: log 74) -/
def execTransmitStart (port slot : Nat) (what : TxWhat) (len present pri dstKind : Nat) (s : State) : Res :=
  onPort port (
    let t := s.portTable port
    let pri := s.framePri port what pri
    let held := bitAt (s.fld port ETH_PFC_STATUS_TX_HELD) pri
    let locked := s.fld port ETH_PORT_CTRL_MACSEC_EN == 1 && s.fld 0 (NDX_MSEC_CTRL_SECURE port) == 0 && what != .eapol
    if !s.portUp port ∨ s.fld port ETH_PORT_STATUS_POWER ≠ PW_ACTIVE ∨ (s.port port).run.isSome ∨ s.fld 0 TST_STATUS_FATAL = 1 ∨ held ∨ locked ∨
        len < 64 ∨ s.fld port ETH_PORT_CTRL_MAXFRAME < len ∨ present < min len (s.fld port ETH_TX_START_THRESH_CUR) ∨
        (s.stw.restarting ∧ ofSteward what) ∨ t.getD slot 0x0300 ≠ s.frameOwner port what ∨ runFrom t slot < slotsFor len (s.portRate port) s.frameLen then .next s
    else match s.linkSend port slot pri what with
    | none => .next s
    | some s' =>
      let k := slotsFor len (s.portRate port) s.frameLen
      let msec := s.fld port ETH_PORT_CTRL_MACSEC_EN == 1 && what != .eapol
      let s' := s'.setPort port { (s'.port port) with run := some ⟨what, len, decide (len ≤ present), dstKind % 3⟩, mtx := (s'.port port).mtx + b01 msec }
      let o := s.frameOwner port what
      let s' := s'.count { unit := srvPort port, event := 0x60, n := k, prov := o, priv := b01 (o == 0) }
      .next (if o = 0 then s' else s'.count { unit := srvProv o, event := 0xC0, n := k, prov := o }))

/-- TX_UNDERRUN (R447, R448): the frame ends with its FCS inverted and the PCS error code; CUR rises by 256 B and CLEAN returns to 0. A frame that was whole cannot underrun (R449). -/
def execTxUnderrun (port : Nat) (s : State) : Res :=
  onPort port (
    match (s.port port).run with
    | some r =>
      if r.whole then .next s
      else
        let s := ((s.setPort port { (s.port port) with run := none }).ethStat port 44 1).emit (.badEnd port)
        .next ((s.setFld port ETH_TX_START_THRESH_CUR (min 9216 (s.fld port ETH_TX_START_THRESH_CUR + 256))).setFld port ETH_TX_START_THRESH_CLEAN 0)
    | none => .next s)

/-- A clean frame moves CLEAN and CUR (R448). -/
def State.cleanFrame (s : State) (n : Nat) : State :=
  let c := s.fld n ETH_TX_START_THRESH_CLEAN + 1
  if c < 65536 then s.setFld n ETH_TX_START_THRESH_CLEAN c
  else
    let cur := s.fld n ETH_TX_START_THRESH_CUR
    let lo := s.fld n ETH_TX_START_THRESH_MIN
    (s.setFld n ETH_TX_START_THRESH_CUR (if cur ≤ lo then cur else max lo (cur - 256))).setFld n ETH_TX_START_THRESH_CLEAN 0

/-- TRANSMIT_END (R445, R448, R462): a frame ends without underrun. -/
def execTransmitEnd (port : Nat) (s : State) : Res :=
  onPort port (
    match (s.port port).run with
    | some r =>
      let s := (s.setPort port { (s.port port) with run := none }).cleanFrame port
      let s := ((s.ethStat port 36 1).ethStat port 37 r.len).ethStat port (38 + r.dstKind) 1
      let s := if s.fld port ETH_PORT_CTRL_VID ≠ 0 ∨ s.fld port ETH_PORT_CTRL_PCP_TAG = 1 then s.ethStat port 41 1 else s
      .next (match sizeBucket r.len with | some i => s.ethStat port (45 + i) 1 | none => s)
    | none => .next s)

/-- LPI_IDLE_TIMEOUT (R455, R456): an idle port that may sleep enters PARKING. -/
def execLpiIdleTimeout (port : Nat) (s : State) : Res :=
  onPort port (
    if !s.portUp port ∨ s.fld port ETH_PARK_CTRL_LPI_EN = 0 ∨ s.fld port ETH_PORT_STATUS_SINGLE = 0 ∨ s.fld port ETH_PORT_STATUS_POWER ≠ PW_ACTIVE ∨
        (s.port port).run.isSome ∨ (s.port port).retrain.isSome then .next s
    else .next (s.setPower port PW_PARKING))

/-- PORT_PARKED (R456, R457): the PHY is quiet; a port that changes its rate takes its link down, one with a frame waiting wakes. -/
def execPortParked (port : Nat) (s : State) : Res :=
  onPort port (
    if s.fld port ETH_PORT_STATUS_POWER ≠ PW_PARKING then .next s
    else
      let x := s.port port
      let s := s.setPort port { x with wakeNext := false }
      if x.retrain.isSome then .next ((s.setPower port PW_PARKED).clearLink port)
      else .next (s.setPower port (if x.wakeNext then PW_WAKING else PW_PARKED)))

/-- PORT_WAKE (R456): a frame is queued on a port in PARKING or PARKED. -/
def execPortWake (port : Nat) (s : State) : Res :=
  onPort port (
    let w := s.fld port ETH_PORT_STATUS_POWER
    if w = PW_PARKING then .next (s.setPort port { (s.port port) with wakeNext := true })
    else if w = PW_PARKED ∧ (s.port port).retrain.isNone then .next (s.setPower port PW_WAKING)
    else .next s)

/-- WAKE_END (R456, R457): a port whose link went down while it was parked becomes ACTIVE with its next link. -/
def execWakeEnd (port : Nat) (s : State) : Res :=
  onPort port (if s.fld port ETH_PORT_STATUS_POWER = PW_WAKING ∧ s.fld port ETH_PORT_STATUS_LINK = 1 then .next (s.setPower port PW_ACTIVE) else .next s)

/-- Whether a port may be lowered (R455, R457). (DESIGN CHOICE: log 75) -/
def State.mayLower (s : State) (n : Nat) : Bool :=
  s.portUp n && s.fld n ETH_PARK_CTRL_RATE_EN == 1 && s.fld n ETH_PORT_CTRL_RATE == 0 && s.fld n ETH_PORT_STATUS_LOWERED == 0 &&
  s.fld n ETH_PORT_STATUS_POWER == PW_ACTIVE && s.fld n ETH_PORT_STATUS_SINGLE == 1 && (s.port n).retrain.isNone &&
  (s.fld n ETH_PORT_STATUS_OWNER == 0 || (s.prov (s.fld n ETH_PORT_STATUS_OWNER)).st != .running)

/-- A lowering begins (R457). (DESIGN CHOICE: log 75) -/
def State.lowerPort (s : State) (n : Nat) : State :=
  (s.setPort n { (s.port n) with retrain := some .lower, lowerAsked := false }).setPower n PW_PARKING

/-- Whether a port's traffic was light (R457): in each of the last LOWER_S seconds, newest first, octets sent and received stayed below LOWER_PCT × 5 % of the lowered capacity, 100 Gb/s a lane. -/
def State.lightTraffic (s : State) (n : Nat) (octets : List (Nat × Nat)) : Bool :=
  let k := s.fld n ETH_PARK_CTRL_LOWER_S
  let cap := s.fld n ETH_PARK_CTRL_LOWER_PCT * 5 * s.portLanes n * 12500000000
  decide (k ≤ octets.length) && (octets.take k).all (fun x => decide (x.1 * 100 < cap) && decide (x.2 * 100 < cap))

/-- RATE_LOWER (R457, R496): a port whose traffic was light asks its partner device to lower the pair; the answer lowers it. `octets` counts those sent and received in each second, newest first. -/
def execRateLower (port devid : Nat) (octets : List (Nat × Nat)) (s : State) : Res :=
  onPort port (
    if !s.lightTraffic port octets ∨ !s.mayLower port ∨ (s.link 0 devid).isNone then .next s
    else .next ((s.setPort port { (s.port port) with lowerAsked := true }).updLink 0 devid (fun l => l.post 0 none (.lowerReq port))))

/-- A cage and its module, of a port that the fabric settings map to one (R459, R465). -/
def State.portCage (s : State) (n : Nat) : Option Cage :=
  ((List.range 32).find? (fun c => ((s.net.fabric.bind (fun f => f.cages[c]?)).bind (fun x => s.portOfLane x.1)) == some n)).map (Sparse.get Cage.init s.net.cages)

/-- Block, FEC and alignment lock, and what auto-negotiation shows: a port to a module runs none (R459). -/
def State.lockLink (s : State) (n : Nat) : State :=
  ((s.setFld n ETH_PORT_STATUS_LINK 1).setFld n ETH_PORT_STATUS_FEC_LOCK 1).setFld n ETH_PORT_STATUS_AN_DONE (if (s.portCage n).isSome then 0 else s.fld n ETH_PORT_CTRL_AN)

/-- PORT_RETRAIN_DONE (R457, R459, R603): the link is up again in its new mode; but for a lowering that is its configured rate. (DEDUCED: log 148) -/
def execPortRetrainDone (port : Nat) (s : State) : Res :=
  onPort port (
    let x := s.port port
    match x.retrain with
    | none => .next s
    | some r =>
      let s := (s.setPort port { x with retrain := none }).lockLink port
      match r with
      | .lower => .next ((s.setFld port ETH_PORT_STATUS_LOWERED 1).setPower port PW_WAKING)
      | .raise => .next ((s.setFld port ETH_PORT_STATUS_LOWERED 0).setPower port PW_WAKING)
      | _ => .next (((s.setFld port ETH_PORT_STATUS_LOWERED 0).setPower port PW_ACTIVE)))

/-- Whether a module keeps its port down (R466): it is absent, or not at high power. -/
def State.moduleDown (s : State) (n : Nat) : Bool := match s.portCage n with | some c => !c.on | none => false

/-- LINK_UP (R457, R459, R466): block, FEC and alignment lock in the configured mode; a held or disabled port, and one whose module stays in low power, brings no link up. (DEDUCED: log 84, 148) -/
def execLinkUp (port : Nat) (s : State) : Res :=
  onPort port (
    if s.portLanes port = 0 ∨ s.fld port ETH_PORT_CTRL_EN = 0 ∨ s.fld port ETH_PORT_STATUS_HELD = 1 ∨ (s.port port).retrain.isSome ∨ s.moduleDown port then .next s
    else .next ((((s.lockLink port).setFld port ETH_PORT_STATUS_LOWERED 0).setPower port PW_ACTIVE)))

/-- A port's link goes down (R460, R473, R485): the event is counted and damped; a frame on the wire is lost. -/
def State.linkDown (s : State) (port : Nat) : State :=
  if s.fld port ETH_PORT_STATUS_LINK = 0 then s
  else
    let s := ((s.clearLink port).ethStat port 62 1).setFld port ETH_PORT_STATUS_LINK_CHG 1
    let x := s.port port
    let downs := (s.frameTime :: x.downs).filter (fun t => decide (s.frameTime ≤ t + nsMin))
    if max 1 (s.fld port ETH_PORT_CTRL_FLAP_LIMIT) ≤ downs.length then
      let s := s.setPort port { x with run := none, downs := [] }
      ((s.setFld port ETH_PORT_STATUS_HELD 1).setFld port ETH_PORT_STATUS_FLAP 1).raise (portRec LINK_FLAP port 0)
    else s.setPort port { x with run := none, downs := downs }

/-- LINK_DOWN (R460). -/
def execLinkDown (port : Nat) (s : State) : Res := onPort port (.next (s.linkDown port))

/-- LINK_HOLD_EXPIRE (R460): a held port tries once more. -/
def execLinkHoldExpire (port : Nat) (s : State) : Res := onPort port (.next (s.setFld port ETH_PORT_STATUS_HELD 0))

/-- LANE_BER_SAMPLE (R461, R462, R594): corrected symbols and bits of a lane in a second, and its codewords; a lane over its threshold has a lasting fault. -/
def execLaneBerSample (lane syms nbits cw corr uncorr : Nat) (s : State) : Res :=
  if 64 ≤ lane then .fault .noSuchUnit
  else match s.portOfLane lane with
  | none => .next s
  | some n =>
    let d := lane / 16
    let s := s.setFld d (ETH_LANE_SYMERR_SYM (lane % 16)) ((s.fld d (ETH_LANE_SYMERR_SYM (lane % 16)) + syms) % 2 ^ 48)
    let s := (((s.ethStat n 55 cw).ethStat n 56 corr).ethStat n 57 uncorr).ethStat n 58 syms
    if syms * 10 ^ s.fld n ETH_PORT_CTRL_BER_EXP ≤ nbits then .next s
    else
      let s := s.setFld n ETH_PORT_STATUS_LANE_BER 1
      if s.errs.lanes.any (fun x => x.lane == lane) then .next s
      else .next { s with errs := { s.errs with lanes := s.errs.lanes ++ [({ lane := lane, waiting := true, judged := false } : LaneSteer)] } }

/-- Whether a province has another up path on a port's die (R603). -/
def State.otherPath (s : State) (p n : Nat) : Bool :=
  (s.net.links.filter (fun l => l.prov == p)).all (fun l => (s.upPaths l).any (fun m => m != n && m / 16 == n / 16))

/-- LANE_STEER (R603): the lane goes onto its group's spare slice, and the port retrains. -/
def execLaneSteer (lane : Nat) (s : State) : Res :=
  if 64 ≤ lane then .fault .noSuchUnit
  else match s.portOfLane lane, s.errs.lanes.find? (fun x => x.lane == lane && x.waiting) with
  | some n, some _ =>
    let free := !s.errs.lanes.any (fun x => !x.waiting && x.lane / 8 == lane / 8)
    let may := (s.port n).shares.all (fun x => (s.prov x.1).st != .running || s.otherPath x.1 n)
    if !free ∨ !may then .next s
    else
      let s := { s with errs := { s.errs with lanes := s.errs.lanes.map (fun (x : LaneSteer) => if x.lane = lane then { x with waiting := false } else x),
                                              soft := s.errs.soft ++ [Repair.lane lane] } }
      .next ((s.setPort n { (s.port n) with retrain := some .steer, run := none }).clearLink n)
  | _, _ => .next s

/-- LANE_STEER_CHECK (R603): the spare's estimate decides; a fault outside the device is steered back. -/
def execLaneSteerCheck (lane : Nat) (good : Bool) (s : State) : Res :=
  if 64 ≤ lane then .fault .noSuchUnit
  else match s.portOfLane lane, s.errs.lanes.find? (fun x => x.lane == lane && !x.waiting && !x.judged) with
  | some n, some _ =>
    if good then
      let s := { s with errs := { s.errs with lanes := s.errs.lanes.map (fun (x : LaneSteer) => if x.lane = lane then { x with judged := true } else x) } }
      .next (s.noteRepair.raise { cause := LANE_STEERED, die := fdDie (lane / 16), unit := lane, repaired := true })
    else
      let s := { s with errs := { s.errs with lanes := s.errs.lanes.filter (fun x => x.lane != lane),
                                              soft := s.errs.soft.filter (fun r => r != Repair.lane lane) } }
      let s := (s.setPort n { (s.port n) with retrain := some .steer, run := none }).clearLink n
      .next (s.raise { cause := LANE_EXTERNAL, die := fdDie (lane / 16), unit := lane })
  | _, _ => .next s

/-- Whether a province that is SEALED, RUNNING or PAUSED holds slots on a port (R441). -/
def State.portInUse (s : State) (n : Nat) : Bool :=
  (s.port n).shares.any (fun x => let st := (s.prov x.1).st; st == .sealed_ || st == .running || st == .paused)

/-- A port comes down in order to come up in another mode; its statistics return to 0 (R441). -/
def State.restartPort (s : State) (n : Nat) : State :=
  let s := ((s.clearLink n).setPower n PW_ACTIVE).setFld n ETH_PORT_STATUS_LOWERED 0
  let s := (List.range 64).foldl (fun s i => s.setFld n (ETH_STAT_COUNT i) 0) s
  s.setPort n { (s.port n) with run := none, retrain := none, wakeNext := false, rxbuf := [] }

/-- The lane modes that a value gives a die. -/
def modesOf (v q : Nat) : Nat := bits v (3 * q) 3

/-- The port numbers of a die that a change of modes affects: ports of the quarters that change, before and after. -/
def State.affected (s : State) (d v : Nat) : List Nat :=
  let old := fun q => s.fld d (quarterFld q)
  let chg := fun q => old q != modesOf v q
  ((List.range 16).filter (fun l =>
    let w := max (modeWidth old (l / 4) (l % 4)) (modeWidth (modesOf v) (l / 4) (l % 4))
    w != 0 && (chg (l / 4) || chg ((l + w - 1) / 4)))).map (fun l => 16 * d + l)

/-- New lane modes, with the ports they affect restarted and every slot table rebuilt (R441, R474). (DESIGN CHOICE: log 77) -/
def State.setModes (s : State) (d v : Nat) : State :=
  let l := s.affected d v
  let s := l.foldl (fun s n => s.restartPort n) s
  let s := (List.range 4).foldl (fun s q => s.setFld d (quarterFld q) (modesOf v q)) s
  s.rebuildPorts 0

/-- ETH_LANE_MODE_WRITE (R438, R441): refused with CFG_ERR where it breaks the pair rule, gives a reserved mode or touches a port in use. (DESIGN CHOICE: log 77) -/
def execEthLaneModeWrite (fdie value : Nat) (s : State) : Res :=
  if 4 ≤ fdie then .fault .noSuchUnit
  else
    let s := if bitAt value 31 then s.setFld fdie ETH_LANE_MODE_CFG_ERR 0 else s
    let m := modesOf value
    if (List.range 4).all (fun q => s.fld fdie (quarterFld q) == m q) then .next s
    else if (m 0 = 0) ≠ (m 1 = 0) ∨ (m 2 = 0) ≠ (m 3 = 0) ∨ (List.range 4).any (fun q => m q == 7) ∨ (s.affected fdie value).any s.portInUse then
      .next (s.setFld fdie ETH_LANE_MODE_CFG_ERR 1)
    else .next (s.setModes fdie value)

/-- The fields of `ETH_PORT_CTRL` but RATE (R442, R468): a MAXFRAME out of range leaves the field. -/
def State.setPortCtrl (s : State) (n value : Nat) : State :=
  let mf := bits value 32 14
  let old := (s.reg n ETH_PORT_CTRL).toNat
  let mask := [(0, 1), (2, 1), (3, 2), (5, 1), (6, 1), (8, 12), (20, 3), (23, 1), (48, 4), (52, 4), (56, 8)]
  let w := mask.foldl (fun w x => setBits w x.1 x.2 (bits value x.1 x.2)) old
  let w := if 1518 ≤ mf ∧ mf ≤ 9216 then setBits w 32 14 mf else w
  s.setReg n ETH_PORT_CTRL (BitVec.ofNat 64 w)

/-- ETH_PORT_RATE_WRITE (R441): a write of `ETH_PORT_CTRL`; a new RATE restarts the port, or is refused, and then the write has no effect but CFG_ERR. -/
def execEthPortRateWrite (port value : Nat) (s : State) : Res :=
  onPort port (
    if s.portLanes port = 0 then .next s
    else
      let r := bits value 1 1
      if r = s.fld port ETH_PORT_CTRL_RATE then .next (s.setPortCtrl port value)
      else if s.portInUse port then .next (s.setFld port ETH_PORT_STATUS_CFG_ERR 1)
      else .next (((s.setPortCtrl port value).restartPort port).setFld port ETH_PORT_CTRL_RATE r))

/-- ETH_STAT_SNAP (R464): the counters are copied to the shadow. -/
def execEthStatSnap (port : Nat) (s : State) : Res :=
  onPort port (
    if s.portLanes port = 0 then .next s
    else .next (s.setPort port { (s.port port) with
      shadow := (List.range 64).foldl (fun m i => Sparse.set 0 m i (s.fld port (ETH_STAT_COUNT i))) [] }))

/-- A module record, made when the steward first meets the serial number; at most 128 are kept (R467). -/
def State.updModule (s : State) (serial : Nat) (f : ModuleRec → ModuleRec) : State :=
  let l := s.net.modules
  let l := if l.any (fun m => m.serial == serial) then l.map (fun m => if m.serial = serial then f m else m)
    else if l.length < 128 then l ++ [f { serial := serial }] else l
  { s with net := { s.net with modules := l } }

/-- The port of a cage, by the fabric settings (R465). -/
def State.cagePort (s : State) (c : Nat) : Option Nat := (s.net.fabric.bind (fun f => f.cages[c]?)).bind (fun x => s.portOfLane x.1)

def State.cage (s : State) (c : Nat) : Cage := Sparse.get Cage.init s.net.cages c
def State.setCage (s : State) (c : Nat) (x : Cage) : State := { s with net := { s.net with cages := Sparse.set Cage.init s.net.cages c x } }

/-- MODULE_MONITOR_READ (R467): a module's monitors are read, once a second; a warning or alarm raises a CORRECTED error. `hour` says that another hour of transmission is
full. -/
def execModuleMonitorRead (cage : Nat) (temp : Int) (mon : ModuleMon) (alarm hour : Bool) (s : State) : Res :=
  if 32 ≤ cage then .fault .noSuchUnit
  else match (s.cage cage).module with
  | none => .next s
  | some m =>
    let s := (s.setCage cage { (s.cage cage) with mon := some (temp, mon) }).updModule m.serial (fun r => { r with
      hours := if hour ∧ (s.cage cage).on then r.hours + 1 else r.hours, maxTemp := some (r.maxTemp.elim temp (max temp)),
      firstBias := if r.firstBias = [] then mon.bias else r.firstBias, lastBias := mon.bias })
    .next (if alarm then s.raise { cause := MODULE_ALARM, die := 12, unit := (s.cagePort cage).getD 0xFFFF, aux := cage } else s)

/-- The module records are written to the cartridge (R467). -/
def State.saveModules (s : State) : State := if s.cartWritable then { s with net := { s.net with modulesSaved := s.net.modules } } else s

/-- The type of a port as a module advertises it: lanes, and Gb/s of a lane (R439, R466). (DEDUCED: log 76) -/
def State.portType (s : State) (n : Nat) : Nat × Nat := (s.portLanes n, if s.fld n ETH_PORT_CTRL_RATE = 1 then 100 else 200)

/-- MODULE_INSERTION (R466): a module that does not fit its cage stays in low power, with its port down; another takes the port's application. A cage whose lanes form no port asks for none. -/
def State.moduleIn (s : State) (c : Nat) (m : ModuleId) : State :=
  let room := ((s.net.fabric.bind (fun f => f.cages[c]?)).map Prod.snd).getD 0
  let s := s.updModule m.serial (fun r => { r with insertions := r.insertions + 1 })
  let unit := (s.cagePort c).getD 0xFFFF
  let want := (s.cagePort c).map s.portType
  let bad := (m.cmis != 4 && m.cmis != 5) || want.any (fun t => !m.apps.contains t)
  let on := !bad && decide (m.power ≤ room)
  let x := { s.cage c with accepted := true, module := some m, on := on, app := if on then want else none }
  let s := s.setCage c x
  if bad then s.raise { cause := MODULE_UNSUPPORTED, die := 12, unit := unit, aux := c }
  else if room < m.power then s.raise { cause := MODULE_POWER, die := 12, unit := unit, aux := c }
  else s

/-- A module that leaves takes its port's link down and ends what its parking states were about to do (R457, R460). -/
def State.moduleOut (s : State) (c : Nat) : State :=
  let s := (s.setCage c { s.cage c with accepted := false, module := none, on := false, app := none, mon := none }).saveModules
  match s.cagePort c with
  | some n => (s.linkDown n).setPort n { ((s.linkDown n).port n) with retrain := none, wakeNext := false, lowerAsked := false }
  | none => s

/-- A poll of one cage (R465): a level that every poll of 100 ms has read is accepted. (DEDUCED: log 76) -/
def State.pollCage (s : State) (c : Nat) (here : Bool) (m : Option ModuleId) : State :=
  let x := s.cage c
  let t := if x.level = here then x.since else s.frameTime
  let s := s.setCage c { x with level := here, since := t }
  if s.frameTime < t + 100000000 ∨ x.accepted = here then s
  else
    let s := match s.cagePort c with
      | some n => s.setFld n ETH_PORT_STATUS_MODULE_CHG 1
      | none => s
    let s := s.tspNote (.module c (b01 here))
    match here, m with
    | true, some m => s.moduleIn c m
    | true, none => s.setCage c { s.cage c with accepted := true }
    | false, _ => s.moduleOut c

/-- MODULE_BUS_POLL (R465–R467, R657): every cage's presence is read, every 10 ms; `ids` holds the identities that inserted modules give. -/
def execModuleBusPoll (seen : List Nat) (ids : List (Nat × ModuleId)) (s : State) : Res :=
  .next ((List.range 32).foldl (fun s c => s.pollCage c (seen.contains c) ((ids.find? (fun i => i.1 == c)).map Prod.snd)) s)

end Sys2Proof.Machine
end

