-- ==== Sys2Proof/Machine/Rde.lean ====
section
/-! DEFINITION. The Reduction and Distribution Engine at work (spec file 13): starting a collective, sums and copies, Triangulation, the Deal and
the Shuffle, acknowledgements, exclusion and patching, completion. Messages to other ranks leave the device as R412's header and payload. -/
namespace Sys2Proof.Machine

/-- A collective of a province is updated. (DEDUCED: log 144) -/
def State.updColl (s : State) (p order : Nat) (f : Coll → Coll) : State :=
  let pr := s.prov p
  s.setProv p { pr with colls := pr.colls.map (fun c => if c.order = order then f c else c) }

def State.coll (s : State) (p order : Nat) : Option Coll := (s.prov p).colls.find? (fun c => c.order == order)

/-- A message leaves, or waits while a SNAPSHOT holds sends (R411); with FATAL latched nothing is sent (R592). -/
def State.rdeSend (s : State) (p dest : Nat) (m : SegMsg) : State :=
  let pr := s.prov p
  if pr.sendHold ∨ s.fld 0 TST_STATUS_FATAL = 1 then s.setProv p { pr with outQ := pr.outQ ++ [(dest, m)] } else s.emit (.segment p dest m)

/-- A header for a segment: STEP is the sender's step index (R412). (DEDUCED: log 167) -/
def State.segMsg (s : State) (p kind ord seg nfc : Nat) (last patch : Bool) (payload : List Byte) : SegMsg :=
  { kind := kind, ord := ord, seg := seg, repoch := s.fld p PROV_EPOCH_EPOCH, step := (s.reg p PROV_STEP).toNat, sframe := s.frame,
    nfstep := s.fld 0 (RDE_PSTEP_NF_WIRE p) != 0, nf := nfc != 0, last := last, patch := patch, nfc := nfc, payload := payload }

/-- The rank at an index of a collective's group (R422). -/
def State.collRank (s : State) (p order i : Nat) : Nat :=
  match s.coll p order with | some c => s.grank p ((s.img p).coll c.idx) i | none => i
/-- The index of a rank in a collective's group. -/
def State.collIdx (s : State) (p order rank : Nat) : Nat :=
  match s.coll p order with | some c => s.gidx p ((s.img p).coll c.idx) rank | none => rank

/-- The step a collective belongs to. -/
def State.collStep (s : State) (p order : Nat) : Nat := ((s.coll p order).map Coll.step).getD 0

/-- Whether messages wait on this device instead of leaving. -/
def State.sendStopped (s : State) (p : Nat) : Bool := (s.prov p).sendHold || s.fld 0 TST_STATUS_FATAL == 1

/-- A message is sent to a group index and stays unacknowledged until its receiver acknowledges it (R408). -/
def State.sendSeg (s : State) (p order dest : Nat) (copy : Bool) (m : SegMsg) : State :=
  let held := s.sendStopped p
  (s.rdeSend p (s.collRank p order dest) m).updColl p order (fun c => { c with unacked := c.unacked ++ [⟨dest, m.seg, copy, held⟩] })

/-- The non-finite elements of a payload of a collective (R412). -/
def State.payNf (s : State) (p : Nat) (d : CollDesc) (bs : List Byte) : Nat :=
  if d.op = 8 then 0 else payloadNf (d.fmt == 18) (s.sideFmt p d.fmt) bs

/-- Whether a segment is the last of its shard. -/
def State.lastSeg (s : State) (p : Nat) (d : CollDesc) (shard seg : Nat) : Bool := seg + 1 == d.segBase (s.gn p d) (shard + 1)

/-- Source and destination of the `i`-th segment of a shard (R383, R385, R414): address and bytes. -/
def State.segSrc (s : State) (p : Nat) (d : CollDesc) (h : Shard) (i : Nat) : Nat × Nat :=
  let e := d.segElems h i
  let base := if d.op = 1 ∧ d.sharded then d.src else if d.op = 4 then d.src else d.src + h.first * d.unit s p
  (base + d.elBytes s p e.1, d.elBytes s p e.2)
def State.segDst (s : State) (p : Nat) (d : CollDesc) (h : Shard) (i : Nat) : Nat × Nat :=
  let e := d.segElems h i
  let base := if d.op = 0 ∧ d.sharded then d.dst else if d.op = 3 ∨ d.op = 4 then d.dst else d.dst + h.first * d.unit s p
  (base + d.elBytes s p e.1, d.elBytes s p e.2)

/-- This rank's own contribution to a segment (R410, R331). -/
def State.ownTerm (s : State) (p : Nat) (d : CollDesc) (h : Shard) (i : Nat) : List Byte :=
  if d.op = 8 then (s.verdOwn p).bytes
  else
    let a := s.segSrc p d h i
    if d.fold ≤ 1 then s.vbytes p a.1 a.2
    else sumPayload true Fmt.bf16 (fun _ _ => 0) ((List.range d.fold).map (fun k => (s.vbytes p (a.1 + k * d.fstride) a.2, 1)))

/-- The collective stops, and the province pauses (R411); in a frame that closes its step the step stays VERIFIED (R352). -/
def State.stopColl (s : State) (p order : Nat) (r : ErrRec) : State :=
  let f := ((s.coll p order).map Coll.pframe).getD 0
  let s := s.updColl p order (fun c => { c with stopped := true })
  ((s.contained p f).contained p ((s.prov p).cur.getD f)).raise r

/-- The limit of a slice (R395). -/
def State.sliceLag (s : State) (d : CollDesc) (seg : Nat) : Nat := max 1 (s.fld (sliceOf seg d.ord) RDE_MC_CTRL_LAG)

/-- The segments that may go to a child now: those within LAG of what it has acknowledged (R395). -/
def State.kidGo (s : State) (d : CollDesc) (c : Coll) (k : Kid) : List CopySeg :=
  let mine := c.copies.filter (fun x => x.shard == k.shard)
  ((mine.drop k.sent).zipIdx.takeWhile (fun x => decide (k.sent + x.2 - k.acked < s.sliceLag d x.1.seg))).map Prod.fst

/-- Copied segments are sent to the children on the copy tree within LAG (R395). -/
def State.pump (s : State) (p order : Nat) (d : CollDesc) : State :=
  match s.coll p order with
  | none => s
  | some c =>
    c.kids.foldl (fun s k =>
      if k.excluded then s
      else
        let go := s.kidGo d c k
        let s := go.foldl (fun s x => s.sendSeg p order k.rank true
          (s.segMsg p (if d.op = 8 then 2 else 0) d.ord x.seg (s.payNf p d x.bytes) (s.lastSeg p d k.shard x.seg) false x.bytes)) s
        s.updColl p order (fun c => { c with kids := c.kids.map (fun y =>
          if y.shard = k.shard ∧ y.rank = k.rank then { y with sent := y.sent + go.length } else y) })) s

/-- A result segment is written on this rank (R387 for copies). -/
def State.writeResult (s : State) (p order : Nat) (d : CollDesc) (h : Shard) (i : Nat) (bs : List Byte) : State :=
  let s := if d.op = 8 then s.setProv p { (s.prov p) with verdict := some bs } else s.rput p (s.segDst p d h i).1 bs
  s.updColl p order (fun c => { c with need := c.need - 1 })

/-- A segment is available for copying at this node. -/
def State.addCopy (s : State) (p order : Nat) (d : CollDesc) (h : Shard) (seg : Nat) (bs : List Byte) : State :=
  (s.updColl p order (fun c => { c with copies := c.copies ++ [⟨h.no, seg, bs⟩] })).pump p order d

/-- Non-finite terms are counted for the step, or by the Survey (R390). -/
def State.countNf (s : State) (p : Nat) (d : CollDesc) (seg n : Nat) : State :=
  if n = 0 then s
  else if d.grad then s.incFld 0 (RDE_PSTEP_NF_WIRE p) n
  else s.count { unit := srvRde (sliceOf seg d.ord), event := 0x81, n := n, prov := p, master := some 6 }

/-- A segment whose terms are all present is summed in canonical order; the partial goes on, or the result is written (R388–R390). -/
def State.trySum (s : State) (p order shard seg : Nat) : State :=
  match s.coll p order with
  | none => s
  | some c =>
    let g := s.img p
    let d := g.coll c.idx
    let n := s.gn p d
    let r := s.gr p d
    match (d.shards n)[shard]?, c.sums.find? (fun x => x.shard == shard && x.seg == seg) with
    | some h, some nd =>
      let t := d.topo g n r h seg
      if nd.done ∨ c.stopped ∨ !t.kids.all (fun k => nd.parts.any (fun q => q.1 == k.1)) then s
      else
        let parts := t.kids.map (fun k => (((nd.parts.find? (fun q => q.1 == k.1)).map Prod.snd).getD [], k.2))
        let pre := match nd.prior with | some b => [(b, d.prior)] | none => []
        let terms := pre ++ (if t.ownFirst then (nd.own, 1) :: parts else parts ++ [(nd.own, 1)])
        let x3 := d.fmt == 18
        let f := s.sideFmt p d.fmt
        let key := compassKey (s.reg p PROV_SR_SEED).toNat 6 (b01 (decide (c.pframe < g.prologue))) (if s.nranks p ≤ 1 then 0 else s.rank p) c.step
        let payload :=
          if d.op = 8 then (match terms.map (fun x => Verd.of x.1) with | [] => [] | v :: vs => (vs.foldl Verd.join v).bytes)
          else sumPayload x3 f (fun i stage => compass16 key d.ord seg stage i) terms
        let adds := (terms.length - 1) * (if d.op = 8 then 1 else if x3 then payload.length / 8 else payload.length / 2)
        let s := if d.op ≠ 8 ∧ 2 ≤ terms.length then s.countNf p d seg (terms.foldl (fun m x => m + nonFin x3 f x.1) 0) else s
        let s := if adds = 0 then s
          else (s.count { unit := srvRde (sliceOf seg d.ord), event := 0x80, n := adds, prov := p, master := some 6 }).count
            { unit := srvProv p, event := 0xC4, n := adds, prov := p, master := some 6 }
        let payload := if t.parent.isNone ∧ d.op ≠ 8 then resultBytes x3 f payload else payload
        let s := s.updColl p order (fun c => { c with sums := c.sums.map (fun x =>
          if x.shard = shard ∧ x.seg = seg then { x with done := true, result := if t.parent.isNone then payload else [], parts := [] } else x) })
        match t.parent with
        | some q =>
          s.sendSeg p order q false (s.segMsg p (if d.op = 8 then 2 else 0) d.ord seg (if d.op = 8 then 0 else nonFin x3 f payload)
            (s.lastSeg p d shard seg) false payload)
        | none =>
          let s := if d.op ≠ 8 then s.countNf p d seg (nonFin x3 f payload) else s
          let s := s.writeResult p order d h (seg - d.segBase n shard) payload
          if d.copies then s.addCopy p order d h seg payload else s
    | _, _ => s

/-- A sampled element whose check terms are all present goes on, or is compared at the owner once its result is written (R392–R394). -/
def State.tryCheck (s : State) (p order elem : Nat) : State :=
  match s.coll p order with
  | none => s
  | some c =>
    let g := s.img p
    let d := g.coll c.idx
    let n := s.gn p d
    let r := s.gr p d
    match c.checks.find? (fun x => x.elem == elem && !x.done) with
    | none => s
    | some k =>
      match (d.shards n)[k.shard]? with
      | none => s
      | some h =>
        let t := checkTopo d.fanin n h.root r
        if c.stopped ∨ !t.kids.all (fun x => k.parts.any (fun q => q.1 == x.1)) then s
        else
          let parts := t.kids.filterMap (fun x => k.parts.find? (fun q => q.1 == x.1))
          let tot : CheckNode := { k with exact := parts.foldl (fun a q => a + q.2.1) k.exact, mag := parts.foldl (fun a q => addUp a q.2.2.1) k.mag,
                                          flag := k.flag || parts.any (fun q => q.2.2.2) }
          let local_ := elem - h.first * d.perUnit
          let i := local_ / 2 ^ d.seg
          let seg := d.segBase n k.shard + i
          let fin := fun (s : State) => s.updColl p order (fun c => { c with checks := c.checks.map (fun x => if x.elem = elem then { x with done := true } else x) })
          match t.parent with
          | some q => fin (s.sendSeg p order q false (s.segMsg p 1 d.ord seg 0 (s.lastSeg p d k.shard seg) false (checkBytes tot)))
          | none =>
            match c.sums.find? (fun x => x.shard == k.shard && x.seg == seg) with
            | some nd =>
              if !nd.done then s
              else
                let f := s.sideFmt p d.fmt
                let y := leAt nd.result (2 * (local_ % 2 ^ d.seg)) 2
                let dw := if d.alg = 0 then (let x := treeDepth d.fanin n 20 0 1; if x = 0 ∧ d.acc then 1 else x) else n - 1
                let bad := !tot.flag && !(f.decode y).isNan && !(f.decode y).isInf && triFails f y tot.exact tot.mag dw (n + b01 d.acc)
                let s := fin s
                if bad then
                  let s := s.incFld 0 (RDE_PSTEP_TRI_MISMATCH p) 1
                  if c.mismatched then s
                  else (s.updColl p order (fun c => { c with mismatched := true })).raise
                    { cause := TRI_MISMATCH, prov := p, die := 8 + sliceOf (seg + 2) d.ord, addr := elem, aux := d.ord }
                else s
            | none => s

/-- Sampled elements of a segment (R391): element indices within the segment. -/
def State.sampled (s : State) (p : Nat) (d : CollDesc) (pro : Bool) (step seg n : Nat) : List Nat :=
  let key := compassKey (s.reg p PROV_SR_SEED).toNat 6 (b01 pro) 0xFFFFF step
  (List.range n).filter (fun i => compass16 key d.ord seg 0xFFFFFFFF i % 2 ^ s.fld 0 (RDE_TRI_RATE_S p) == 0)

/-- Start of the sum part: every segment's own term, and the prior value at its root (R379, R388). -/
def State.startSums (s : State) (p order : Nat) (d : CollDesc) (pro : Bool) : State :=
  let n := s.gn p d
  let r := s.gr p d
  let g := s.img p
  let segs := (d.shards n).flatMap (fun h => (List.range (d.nseg h)).map (fun i => (h, i, d.segBase n h.no + i)))
  let nodes := segs.map (fun x =>
    let root := (d.topo g n r x.1 x.2.2).parent.isNone
    let a := s.segDst p d x.1 x.2.1
    ({ shard := x.1.no, seg := x.2.2, own := s.ownTerm p d x.1 x.2.1,
       prior := if root ∧ d.acc ∧ d.alg = 0 ∧ d.op ≠ 8 then some (s.vbytes p a.1 a.2) else none } : SegNode))
  let f := s.sideFmt p d.fmt
  let checks := if !d.tri then [] else (segs.zip nodes).flatMap (fun x =>
    let h := x.1.1
    let e := d.segElems h x.1.2.1
    let root := (checkTopo d.fanin n h.root r).parent.isNone
    (s.sampled p d pro (s.collStep p order) x.1.2.2 e.2).map (fun i =>
      let vals := (match x.2.prior, root with | some b, true => [f.decode (leAt b (2 * i) 2)] | _, _ => []) ++ [f.decode (leAt x.2.own (2 * i) 2)]
      ({ shard := h.no, elem := h.first * d.perUnit + e.1 + i, exact := vals.foldl (fun a v => a + exactUnits v) 0,
         mag := vals.foldl (fun a v => addUp a (up32 v.abs)) 0, flag := vals.any (fun v => v.isNan || v.isInf) } : CheckNode)))
  let s := s.updColl p order (fun c => { c with sums := nodes, checks := checks })
  let s := segs.foldl (fun s x => s.trySum p order x.1.no x.2.2) s
  checks.foldl (fun s k =>
    let seg := d.segBase n k.shard + (k.elem - ((d.shards n)[k.shard]?.map Shard.first).getD 0 * d.perUnit) / 2 ^ d.seg
    (s.count { unit := srvRde (sliceOf (seg + 2) d.ord), event := 0x84, prov := p, master := some 6 }).tryCheck p order k.elem) s

/-- Start of a copy: the roots this rank is read their data, write it, and send it down (R395). -/
def State.startCopies (s : State) (p order : Nat) (d : CollDesc) : State :=
  let n := s.gn p d
  let r := s.gr p d
  let f := s.sideFmt p d.fmt
  ((d.shards n).filter (fun h => h.root == r)).foldl (fun s h =>
    (List.range (d.nseg h)).foldl (fun s i =>
      let a := s.segSrc p d h i
      let bs := canonCopy f (s.vbytes p a.1 a.2)
      (s.writeResult p order d h i bs).addCopy p order d h (d.segBase n h.no + i) bs) s) s

/-- The address of the `q`-th 16-column piece of row `i` of a tensor of `cols` columns. -/
def rowPiece (base cols nib i q : Nat) : Nat := base + (i / 16 * (cols / 16) + q) * (128 * nib) + i % 16 * (8 * nib)

/-- A row of a tensor, and its write. -/
def State.rowBytes (s : State) (p base cols nib i : Nat) : List Byte :=
  (List.range (cols / 16)).flatMap (fun q => s.vbytes p (rowPiece base cols nib i q) (8 * nib))
def State.putRow (s : State) (p base cols nib i : Nat) (bs : List Byte) : State :=
  (List.range (cols / 16)).foldl (fun s q => s.rput p (rowPiece base cols nib i q) (slice bs (8 * nib * q) (8 * nib))) s

/-- A block of CAP rows: the received rows and +0 (R401, R402). -/
def State.putBlock (s : State) (p base cols nib row0 cap : Nat) (bs : List Byte) : State :=
  let len := cols / 16 * (8 * nib)
  (List.range cap).foldl (fun s i => s.putRow p base cols nib (row0 + i)
    (if len * (i + 1) ≤ bs.length then slice bs (len * i) len else zeros len)) s

/-- A binary16 number. -/
def half (i : Int) : List Byte := leBytes 2 (Fmt.f16.narrow .rne false (Val.ofInt false i 0)).1

/-- One routed choice (R401): tickets, rows per expert, and the counts of dropped and bad choices. -/
structure DealRun where
  tickets : List (Nat × Int)
  rows : List (Nat × Nat)
  dropped : Nat
  bad : Nat
deriving DecidableEq, Repr

def dealChoice (t : DealTab) (x : DealRun) (i q e : Nat) : DealRun :=
  let at_ := 16 * i + q
  if e = 255 then { x with tickets := (at_, -1) :: x.tickets }
  else match t.experts[e]? with
  | some (r, _) =>
    if r = 0xFFFFFFFF then { x with tickets := (at_, -1) :: x.tickets, bad := x.bad + 1 }
    else
      let n := (x.rows.filter (fun y => y.1 == e)).length
      if n < t.cap then { x with tickets := (at_, (n : Int)) :: x.tickets, rows := x.rows ++ [(e, i)] }
      else { x with tickets := (at_, -1) :: x.tickets, dropped := x.dropped + 1 }
  | none => { x with tickets := (at_, -1) :: x.tickets, bad := x.bad + 1 }

/-- A Deal block arrives at an expert's rank from source rank `src` (R401). -/
def State.dealIn (s : State) (p order : Nat) (d : CollDesc) (src e : Nat) (bs : List Byte) : State :=
  let t := (s.img p).dealTab d
  let nib := sideNib s p d.fmt
  let slot := ((t.experts[e]?).map Prod.snd).getD 0
  let n := bs.length / max 1 (t.cols / 16 * (8 * nib))
  let s := s.putBlock p (t.ybase + slot * t.ystride) t.cols nib (src * t.cap) t.cap (canonCopy (s.sideFmt p d.fmt) bs)
  (s.rput p (t.counts + 2 * (16 * src + slot)) (half n)).updColl p order (fun c => { c with need := c.need - 1 })

/-- The choices of a source rank, in row order and choice order (R401, R403). -/
def State.dealRun (s : State) (p : Nat) (t : DealTab) : DealRun :=
  let route := fun i q => (s.vbyte p (t.route + 16 * i + q)).toNat
  (List.range t.t).foldl (fun x i => (List.range t.k).foldl (fun x q => dealChoice t x i q (route i q)) x)
    ({ tickets := [], rows := [], dropped := 0, bad := 0 } : DealRun)

/-- Bytes go to another rank in pieces, the first with segment number `base` (R401, R402, R404, R412). -/
def State.sendPieces (s : State) (p order : Nat) (d : CollDesc) (dest base : Nat) (bs : List Byte) : State :=
  let pb := d.elBytes s p (2 ^ d.seg)
  let n := max 1 (ceilDiv bs.length (max 1 pb))
  (List.range n).foldl (fun s j =>
    let b := slice bs (pb * j) (min pb (bs.length - pb * j))
    s.sendSeg p order dest false (s.segMsg p 0 d.ord (base + j) (s.payNf p d b) (j + 1 == n) false b)) s

/-- A piece of a block arrives; when all of the block is here, its bytes. -/
def State.takePiece (s : State) (p order : Nat) (x : Piece) : State × Option (List Byte) :=
  match s.coll p order with
  | none => (s, none)
  | some c =>
    let l := c.pieces ++ [x]
    let mine := l.filter (fun y => y.src == x.src && y.block == x.block)
    match mine.find? Piece.last with
    | some e =>
      let all := (List.range (e.no + 1)).map (fun j => mine.find? (fun y => y.no == j))
      if all.all Option.isSome then
        (s.updColl p order (fun c => { c with pieces := l.filter (fun y => !(y.src == x.src && y.block == x.block)) }),
         some (all.flatMap (fun y => (y.map Piece.bytes).getD [])))
      else (s.updColl p order (fun c => { c with pieces := l }), none)
    | none => (s.updColl p order (fun c => { c with pieces := l }), none)

/-- DEAL_DISPATCH on a source rank (R401). -/
def State.startDispatch (s : State) (p order : Nat) (d : CollDesc) : State :=
  let t := (s.img p).dealTab d
  let nib := sideNib s p d.fmt
  let me := s.rank p
  let x := s.dealRun p t
  let s := (s.incFld 0 (RDE_PEVT_DROP p) x.dropped).incFld 0 (RDE_PEVT_BAD p) x.bad
  let blocks := t.experts.zipIdx.filterMap (fun ex =>
    if ex.1.1 = 0xFFFFFFFF then none
    else some (ex.2, ex.1.1, (x.rows.filter (fun y => y.1 == ex.2)).flatMap (fun y => s.rowBytes p d.src t.cols nib y.2)))
  let s := s.sendWrite p 2 ((List.range (16 * t.t)).flatMap (fun a =>
    (half (((x.tickets.find? (fun k => k.1 == a)).map Prod.snd).getD (-1))).zipIdx.map (fun b => (t.ticket + 2 * a + b.2, b.1))))
  blocks.foldl (fun s b =>
    if b.2.1 = me then s.dealIn p order d me b.1 b.2.2 else s.sendPieces p order d b.2.1 (b.1 * t.stride d) b.2.2) s

/-- Rows returned by expert `e` arrive at a source rank (R402). -/
def State.returnIn (s : State) (p order : Nat) (d : CollDesc) (e : Nat) (bs : List Byte) : State :=
  let t := (s.img p).dealTab d
  (s.putBlock p d.dst t.cols (sideNib s p d.fmt) (e * t.cap) t.cap (canonCopy (s.sideFmt p d.fmt) bs)).updColl p order
    (fun c => { c with need := c.need - 1 })

/-- The rows that this rank returns (R402): the expert and its slot, the source rank, and how many. -/
def State.returnRuns (s : State) (p : Nat) (t : DealTab) : List (Nat × Nat × Nat × Nat) :=
  let mine := t.experts.zipIdx.filter (fun ex => ex.1.1 == s.rank p)
  mine.flatMap (fun ex => (List.range (s.nranks p)).map (fun src =>
    let v := Fmt.f16.decode (s.vle p (t.counts + 2 * (16 * src + ex.1.2)) 2)
    let n := match v with | .fin false m e => min t.cap (shl m e / 2 ^ (-e).toNat) | _ => 0
    (ex.2, ex.1.2, src, n)))

/-- DEAL_RETURN on an expert rank (R402). -/
def State.startReturn (s : State) (p order : Nat) (d : CollDesc) : State :=
  let t := (s.img p).dealTab d
  let nib := sideNib s p d.fmt
  let me := s.rank p
  let out := (s.returnRuns p t).map (fun r =>
    (r.1, r.2.2.1, (List.range r.2.2.2).flatMap (fun i => s.rowBytes p (d.src + r.2.1 * t.ystride) t.cols nib (r.2.2.1 * t.cap + i))))
  out.foldl (fun s b =>
    if b.2.1 = me then s.returnIn p order d b.1 b.2.2 else s.sendPieces p order d b.2.1 (b.1 * t.stride d) b.2.2) s

/-- The move list of a Shuffle (R404): source rank, destination rank, source quad, destination quad, quads. -/
def Img.moves (g : Img) (d : CollDesc) : List (Nat × Nat × Nat × Nat × Nat) :=
  let o := g.auxOff + d.aux
  (List.range (g o 4)).map (fun i => let a := o + 16 + 24 * i; (g a 4, g (a + 4) 4, g (a + 8) 4, g (a + 12) 4, g (a + 16) 4))

/-- The pieces of a move. -/
def CollDesc.movePieces (d : CollDesc) (m : Nat × Nat × Nat × Nat × Nat) : Nat := d.npieces (256 * m.2.2.2.2)

/-- The first segment number of a move: the pieces are numbered through the move list. (DESIGN CHOICE: log 154) -/
def Img.moveBase (g : Img) (d : CollDesc) (i : Nat) : Nat := ((g.moves d).take i).foldl (fun n m => n + d.movePieces m) 0

/-- A piece of a move is written (R404). -/
def State.shuffleIn (s : State) (p order : Nat) (d : CollDesc) (seg : Nat) (bs : List Byte) : State :=
  let g := s.img p
  match (g.moves d).zipIdx.find? (fun m => decide (g.moveBase d m.2 ≤ seg) && decide (seg < g.moveBase d m.2 + d.movePieces m.1)) with
  | some m =>
    let a := d.dst + m.1.2.2.2.1 * d.unit s p + (seg - g.moveBase d m.2) * d.elBytes s p (2 ^ d.seg)
    (s.rput p a (canonCopy (s.sideFmt p d.fmt) bs)).updColl p order (fun c => { c with need := c.need - 1 })
  | none => s

/-- A piece that came before this rank had read what it sends lies in STAGE, behind those that came before it, as its elements are written (R92, R93), and is copied from there
(R405). (DESIGN CHOICE: log 154) -/
def State.stagePiece (s : State) (p order : Nat) (d : CollDesc) (bs : List Byte) : State :=
  match s.coll p order with
  | some c => if d.op = 7 ∧ d.inPlace then (s.rput p (d.stage + c.staged) (canonCopy (s.sideFmt p d.fmt) bs)).updColl p order (fun c => { c with staged := c.staged + bs.length }) else s
  | none => s

/-- SHUFFLE on a rank (R404, R405): every quad it sends or moves is read before any is written. -/
def State.startShuffle (s : State) (p order : Nat) (d : CollDesc) : State :=
  let me := s.rank p
  let u := d.unit s p
  let g := s.img p
  let out := (g.moves d).zipIdx.filterMap (fun m =>
    if m.1.1 = me then some (g.moveBase d m.2, m.1.2.1, s.vbytes p (d.src + m.1.2.2.1 * u) (m.1.2.2.2.2 * u)) else none)
  let pb := d.elBytes s p (2 ^ d.seg)
  out.foldl (fun s b =>
    if b.2.1 = me then (List.range (max 1 (ceilDiv b.2.2.length (max 1 pb)))).foldl (fun s j => s.shuffleIn p order d (b.1 + j) (slice b.2.2 (pb * j) (min pb (b.2.2.length - pb * j)))) s
    else s.sendPieces p order d b.2.1 b.1 b.2.2) s

/-- The result writes a collective owes this rank (R408). -/
def State.collNeed (s : State) (p : Nat) (d : CollDesc) : Nat :=
  let n := s.gn p d
  let r := s.gr p d
  let all := (d.shards n).foldl (fun a h => a + d.nseg h) 0
  let own := ((d.shards n).filter (fun h => h.root == r)).foldl (fun a h => a + d.nseg h) 0
  match d.op with
  | 0 => own
  | 3 => own
  | 5 => n * (((s.img p).dealTab d).experts.filter (fun e => e.1 == r)).length
  | 6 => (((s.img p).dealTab d).experts.filter (fun e => e.1 != 0xFFFFFFFF)).length
  | 7 => (((s.img p).moves d).filter (fun m => m.2.1 == r)).foldl (fun n m => n + d.movePieces m) 0
  | _ => all

/-- A data message is delivered to a running collective: a partial of a sum, a copied segment, or rows and quads of a point-to-point one. -/
def State.deliver (s : State) (p order src : Nat) (m : SegMsg) : State :=
  let src := s.collIdx p order src
  match s.coll p order with
  | none => s
  | some c =>
    let g := s.img p
    let d := g.coll c.idx
    let n := s.gn p d
    let r := s.gr p d
    if c.stopped then s
    else if d.op = 5 ∨ d.op = 6 then
      let k := (g.dealTab d).stride d
      let s := if m.last then s.updColl p order (fun c => { c with got := c.got ++ [(src, m.seg / k)] }) else s
      let x := s.takePiece p order ⟨src, m.seg / k, m.seg % k, m.last, m.payload⟩
      match x.2 with
      | some bs => if d.op = 5 then x.1.dealIn p order d src (m.seg / k) bs else x.1.returnIn p order d (m.seg / k) bs
      | none => x.1
    else if d.op = 7 then (s.updColl p order (fun c => { c with got := c.got ++ [(src, m.seg)] })).shuffleIn p order d m.seg m.payload
    else match d.locate n m.seg with
    | none => s
    | some (h, i) =>
      let kid := d.sums && ((d.topo g n r h m.seg).kids.any (fun k => k.1 == src)) &&
        c.sums.any (fun x => x.shard == h.no && x.seg == m.seg && !x.done && !x.parts.any (fun q => q.1 == src))
      if kid then
        (s.updColl p order (fun c => { c with sums := c.sums.map (fun x =>
          if x.shard = h.no ∧ x.seg = m.seg then { x with parts := x.parts ++ [(src, m.payload)] } else x) })).trySum p order h.no m.seg
      else if d.copies && !c.copies.any (fun x => x.seg == m.seg) then
        let bs := if d.op = 8 then m.payload else canonCopy (if d.fmt = 18 then Fmt.bf16 else s.sideFmt p d.fmt) m.payload
        let bs := if d.fmt = 18 then m.payload else bs
        (s.writeResult p order d h i bs).addCopy p order d h m.seg bs
      else s

/-- Check records are delivered (R392). -/
def State.deliverCheck (s : State) (p order src : Nat) (m : SegMsg) : State :=
  let src := s.collIdx p order src
  (chunks 48 (m.payload.length / 48) m.payload).foldl (fun s b =>
    let e := leAt b 0 4
    let part := (src, signed 288 (leAt b 4 36), BitVec.ofNat 32 (leAt b 40 4), bitAt (leAt b 44 2) 0)
    (s.updColl p order (fun c => { c with checks := c.checks.map (fun x =>
      if x.elem = e then { x with parts := x.parts ++ [part] } else x) })).tryCheck p order e) s

/-- After a change, comparisons that waited for a result are made. -/
def State.recheck (s : State) (p order : Nat) : State :=
  match s.coll p order with
  | none => s
  | some c => (c.checks.filter (fun k => !k.done)).foldl (fun s k => s.tryCheck p order k.elem) s

/-- Whether a running collective still waits for a message of its ordinal from a rank: one that began no later than the sender's step, and that has not had this message. -/
def State.expects (s : State) (p : Nat) (c : Coll) (src : Nat) (m : SegMsg) : Bool :=
  let g := s.img p
  let d := g.coll c.idx
  let src := s.gidx p d src
  let n := s.gn p d
  d.ord == m.ord && decide (c.step ≤ m.step) && (c.stopped ||
    (if d.op = 5 ∨ d.op = 6 then !c.got.contains (src, m.seg / (g.dealTab d).stride d)
     else if d.op = 7 then !c.got.contains (src, m.seg)
     else if m.kind = 1 then c.checks.any (fun k => k.elem == leAt m.payload 0 4 && !k.done && !k.parts.any (fun q => q.1 == src))
     else match d.locate n m.seg with
     | some (h, _) =>
       (d.sums && (d.topo g n (s.gr p d) h m.seg).kids.any (fun k => k.1 == src) &&
         c.sums.any (fun x => x.shard == h.no && x.seg == m.seg && !x.done && !x.parts.any (fun q => q.1 == src))) ||
       (d.copies && !c.copies.any (fun x => x.seg == m.seg))
     | none => false))

/-- Messages that came before their collective started are delivered at the start, in the order of their arrival (R389). (DEDUCED: log 70) -/
def State.replayEarly (s : State) (p order : Nat) : State :=
  let pr := s.prov p
  pr.early.foldl (fun s e =>
    match s.coll p order with
    | some c =>
      if !s.expects p c e.1 e.2 then s.setProv p { (s.prov p) with early := (s.prov p).early ++ [e] }
      else if e.2.kind = 1 then s.deliverCheck p order e.1 e.2
      else (s.stagePiece p order ((s.img p).coll c.idx) e.2.payload).deliver p order e.1 e.2
    | none => s.setProv p { (s.prov p) with early := (s.prov p).early ++ [e] }) (s.setProv p { pr with early := [] })

/-- The pieces of a row of a tensor. -/
def rowSpans (base cols nib i : Nat) : List (Nat × Nat) := (List.range (cols / 16)).map (fun q => (rowPiece base cols nib i q, 8 * nib))

/-- What a collective reads on this rank when it starts, as addresses and lengths (R379, R381, R388, R401, R402, R404). -/
def State.collReads (s : State) (p : Nat) (d : CollDesc) : List (Nat × Nat) :=
  let g := s.img p
  let n := s.gn p d
  let r := s.gr p d
  let nib := sideNib s p d.fmt
  match d.op with
  | 8 => [(g.tallyBase, 64 * g.ncell)]
  | 5 =>
    let t := g.dealTab d
    (t.route, 16 * t.t) :: (s.dealRun p t).rows.flatMap (fun x => rowSpans d.src t.cols nib x.2)
  | 6 =>
    let t := g.dealTab d
    (t.counts, 32 * (ceilDiv (s.nranks p) 16 * 16)) :: (s.returnRuns p t).flatMap (fun x =>
      (List.range x.2.2.2).flatMap (fun i => rowSpans (d.src + x.2.1 * t.ystride) t.cols nib (x.2.2.1 * t.cap + i)))
  | 7 => (g.moves d).filterMap (fun m => if m.1 = s.rank p then some (d.src + m.2.2.1 * d.unit s p, m.2.2.2.2 * d.unit s p) else none)
  | _ =>
    (d.shards n).flatMap (fun h => (List.range (d.nseg h)).flatMap (fun i =>
      let a := s.segSrc p d h i
      (if d.sums ∨ h.root = r then (List.range (max 1 d.fold)).map (fun k => (a.1 + k * d.fstride, a.2)) else []) ++
      (if d.sums ∧ d.acc ∧ d.alg = 0 ∧ h.root = r then [s.segDst p d h i] else [])))

/-- A started collective reads its sources once the courier writes released before its start frame are made (R300, R379), and does its work. -/
def State.beginColl (s : State) (p order : Nat) : State :=
  match s.coll p order with
  | none => s
  | some c =>
    let s := s.mendAtlas p 8 [] ((s.img p).collSpans c.idx)
    let d := (s.img p).coll c.idx
    let pro := decide (c.pframe < (s.img p).prologue)
    let reads := s.collReads p d
    if s.readHeld p c.frame reads ∨ !s.hbmOpen p 2 reads then s
    else
      let s := s.updColl p order (fun c => { c with waiting := false })
      if !s.poison.isEmpty && reads.any (fun a => s.vpoison p a.1 a.2) then
        s.stopColl p order { cause := POISON_CONSUMED, die := 8 + sliceOf 0 d.ord, prov := p, addr := d.src, aux := d.ord }
      else
        let s := match d.op with
          | 0 | 2 | 3 | 8 => s.startSums p order d pro
          | 1 | 4 => s.startCopies p order d
          | 5 => s.startDispatch p order d
          | 6 => s.startReturn p order d
          | 7 => s.startShuffle p order d
          | _ => s
        (s.replayEarly p order).recheck p order

/-- A collective starts at the boundary that begins frame `f` (R381, R406). -/
def State.startColl (s : State) (p order f : Nat) : State :=
  match s.coll p order with
  | none => s
  | some c =>
    let d := (s.img p).coll c.idx
    let n := s.gn p d
    let kids := if d.copies then (d.shards n).flatMap (fun h => (d.copyKids n (s.gr p d) h).map (fun k => ({ shard := h.no, rank := k } : Kid))) else []
    let s := s.updColl p order (fun c => { c with started := true, waiting := true, frame := f, need := s.collNeed p d, kids := kids })
    let s := if d.op = 7 ∧ d.ord = s.fld p PROV_STANDIN_MIRROR_ORD ∧ d.ord ≠ 0xFFFF then s.setFld p PROV_STANDIN_MIRROR_VALID 0 else s
    s.beginColl p order

/-- Collectives of a province whose reads waited go on when a write has been made (R300, R379). -/
def State.wakeColls (s : State) (p : Nat) : State :=
  ((s.prov p).colls.filter (fun c => c.waiting && !c.stopped)).foldl (fun s c => s.beginColl p c.order) s

/-- OUTBOX_DRAIN (R271, R298, R300): the next released writes of a tile are made and free their room. -/
def execOutboxDrain (tile : Nat) (s : State) : Res :=
  onTile tile (match s.nextDrain tile with
    | some o => (s.drainOne tile o).wakeColls o.prov
    | none => s)

/-- Extents of a collective (R407): half-open intervals of PVAs that it reads or writes. -/
def State.collExt (s : State) (p : Nat) (d : CollDesc) : List Span :=
  let g := s.img p
  let n := s.nranks p
  let u := d.unit s p
  let whole := d.count * u
  let shard := (((d.shards (s.gn p d))[s.gr p d]?.map Shard.units).getD 0) * u
  match d.op with
  | 8 => [⟨g.tallyBase, g.tallyBase + 64 * g.ncell⟩, ⟨g.verdictBase, g.verdictBase + 64⟩]
  | 5 => let t := g.dealTab d
    let row := t.cols / 16 * (8 * sideNib s p d.fmt)
    [⟨d.src, d.src + t.t * row⟩, ⟨t.route, t.route + 16 * t.t⟩, ⟨t.ticket, t.ticket + 32 * t.t⟩, ⟨t.counts, t.counts + 32 * (ceilDiv n 16 * 16)⟩] ++
      (List.range t.nlocal).map (fun k => ⟨t.ybase + k * t.ystride, t.ybase + k * t.ystride + n * t.cap * row⟩)
  | 6 => let t := g.dealTab d
    let row := t.cols / 16 * (8 * sideNib s p d.fmt)
    [⟨d.dst, d.dst + t.nexp * t.cap * row⟩, ⟨t.counts, t.counts + 32 * (ceilDiv n 16 * 16)⟩] ++
      (List.range t.nlocal).map (fun k => ⟨d.src + k * t.ystride, d.src + k * t.ystride + n * t.cap * row⟩)
  | 7 =>
    let r := s.rank p
    ((g.moves d).flatMap (fun m =>
      (if m.1 = r then [(⟨d.src + m.2.2.1 * u, d.src + (m.2.2.1 + m.2.2.2.2) * u⟩ : Span)] else []) ++
      (if m.2.1 = r then [⟨d.dst + m.2.2.2.1 * u, d.dst + (m.2.2.2.1 + m.2.2.2.2) * u⟩] else []))) ++
    (if d.inPlace then [⟨d.stage, d.stage + d.stagesz⟩] else [])
  | _ =>
    let sl := if d.op = 1 ∧ d.sharded then shard else whole
    let dl := if d.op = 0 ∧ d.sharded then shard else whole
    (List.range (max 1 d.fold)).map (fun k => ⟨d.src + k * d.fstride, d.src + k * d.fstride + sl⟩) ++ [⟨d.dst, d.dst + dl⟩]

/-- Whether a pending collective may start at the boundary that begins frame `f` (R15, R406, R407, R398): the buffer is shared in start order, so every collective earlier in
that order has its room first. (DEDUCED: log 69) -/
def State.collReady (s : State) (p f : Nat) (c : Coll) : Bool :=
  let pr := s.prov p
  let d := (s.img p).coll c.idx
  let before := pr.colls.filter (fun x => decide (x.order < c.order))
  let ext := s.collExt p d
  !c.started && !c.stopped &&
  (d.mbwait == 0xFFFF || pr.mbDone.any (fun m => m.pro == decide (c.pframe < (s.img p).prologue) && m.step == c.step && m.mbatch == d.mbwait && decide (m.frame < f))) &&
  (d.op != 8 || (match pr.reducedAt with | some x => decide (x < f) | none => false)) &&
  !before.any (fun x => spansMeet (s.collExt p ((s.img p).coll x.idx)) ext) &&
  (List.range 4).all (fun sl => decide (before.foldl (fun a x => a + s.collReserve p sl ((s.img p).coll x.idx)) 0 + s.collReserve p sl d ≤ s.collShare p))

/-- The collectives that nothing holds start, in start order. (DESIGN CHOICE: log 71) -/
def State.startReady (s : State) (p f : Nat) : State :=
  ((s.prov p).colls.map Coll.order).foldl (fun s o =>
    match s.coll p o with
    | some c =>
      let s := s.mendAtlas p 8 [] ((s.img p).collSpans c.idx)
      if s.collReady p f c then s.startColl p o f else s
    | none => s) s

/-- Whether the province's Talon `tal` is owed a put by a collective that is due (R408). -/
def State.owedPut (s : State) (p tal : Nat) : Bool :=
  (s.prov p).colls.any (fun c => let d := (s.img p).coll c.idx; d.put && d.talon == tal)

/-- A province's cut is done when every message sent before it is acknowledged, on its links too (R488), and every chain submitted has completed (R50, R311). -/
def State.cutOwn (s : State) (p : Nat) : State :=
  let pr := s.prov p
  match pr.cut with
  | some c =>
    let quiet := pr.colls.all (fun x => x.unacked.all Unacked.held) && pr.patches.all Patch.held && s.net.links.all (fun l => l.prov != p || l.lost || l.quiet) &&
      !s.bulks.any (fun b => b.2.queue.any (fun j => j.ctx.prov == p)) && !s.tiles.any (fun t => t.2.waitChains.any (fun w => w.2.1.prov == p))
    if quiet ∧ !c.own then (s.setProv p { pr with cut := some { c with own := true } }).cutCheck p else s
  | none => s

/-- CHAIN_COMPLETE (R303, R309): every write of the chain is made (a host write is confirmed, R525); its completion put is made, and a cut that
waited for it is done (R311). -/
def execChainComplete (bulk : Nat) (s : State) : Res :=
  if bulk ≥ 128 then .fault .noSuchUnit
  else
    let b := s.bulk bulk
    match b.st, b.queue with
    | .running, j :: rest =>
      let p := j.ctx.prov
      let e := (s.img p).chainEnt j.req.chain
      if j.desc < e.count ∨ j.hostWrote then .next s
      else
        let s := s.setBulk bulk { b with st := .idle, queue := rest, last := j.req.chain }
        let s := match e.put, s.talonOf p e.talon with
          | true, some n => s.talonPut n (if e.putArg then j.req.arg else e.handle)
          | _, _ => s
        .next (s.resubmitAll.cutOwn p)
    | _, _ => .next s

/-- A message is refused (R411): it bears another reset epoch, or a step that is neither this device's current one nor the next. (DEDUCED: log 70) -/
def State.segDrop (s : State) (p : Nat) (m : SegMsg) : State :=
  (s.count { unit := srvRde (sliceOf m.seg m.ord), event := 0x82, prov := p, master := some 6 }).count
    { unit := srvProv p, event := 0xC5, prov := p, master := some 6 }

/-- Where a message goes (R411): to the first collective of its ordinal that runs and waits for it, else it waits for one that has not started. (DEDUCED: log 70) -/
def State.route (s : State) (p src : Nat) (m : SegMsg) (f : Nat → State) : State :=
  let pr := s.prov p
  let cur := (s.reg p PROV_STEP).toNat
  if pr.st = .none_ ∨ pr.st = .forming ∨ m.repoch ≠ s.fld p PROV_EPOCH_EPOCH then s
  else if m.step ≠ cur ∧ m.step ≠ cur + 1 then s.segDrop p m
  else match pr.colls.find? (fun c => c.started && !c.waiting && s.expects p c src m) with
  | some c => f c.order
  | none => s.setProv p { pr with early := pr.early ++ [(src, m)] }

/-- The acknowledgement of a message of this reset epoch (R408, R411). -/
def State.ackSeg (s : State) (p src : Nat) (m : SegMsg) : State :=
  if m.repoch = s.fld p PROV_EPOCH_EPOCH ∧ (s.prov p).st ≠ .none_ then
    s.emit (.segment p src (s.segMsg p 3 m.ord m.seg 0 false false [])) else s

/-- Whether a rank sends this one verdict results: it is its parent on the verdict's tree (R398). -/
def State.fromParent (s : State) (p src : Nat) (m : SegMsg) : Bool :=
  let g := s.img p
  match ((List.range g.ncoll).map g.coll).find? (fun d => d.op == 8 && d.ord == m.ord) with
  | some d => (treeTopo d.fanin (s.nranks p) 0 (s.rank p)).parent == some src
  | none => false

/-- SEGMENT_RECEIVED (R386–R390, R398, R401, R402, R404, R411): a data or verdict segment arrives and is acknowledged; a verdict result for
another step, or in the prologue, is dropped and counted (R325). -/
def execSegmentReceived (prov src : Nat) (m : SegMsg) (s : State) : Res :=
  let s := s.take prov src (.seg m)
  let pro := s.fld prov PROV_STEP_STATE_STATE == 5
  if m.kind = 2 ∧ s.fromParent prov src m ∧ (pro ∨ m.step ≠ (s.reg prov PROV_STEP).toNat) ∧ m.repoch = s.fld prov PROV_EPOCH_EPOCH then .next (s.segDrop prov m)
  else if m.kind ≠ 0 ∧ m.kind ≠ 2 then .next s
  else
    let s := s.ackSeg prov src m
    .next (s.route prov src m (fun o => (s.deliver prov o src m).recheck prov o))

/-- CHECK_RECORD_RECEIVED (R392–R394). (DEDUCED: log 144) -/
def execCheckRecordReceived (prov src : Nat) (m : SegMsg) (s : State) : Res :=
  let s := s.take prov src (.seg m)
  if m.kind ≠ 1 then .next s
  else
    let s := s.ackSeg prov src m
    .next (s.route prov src m (fun o => s.deliverCheck prov o src m))

/-- The first message to a rank with a segment number that waits for its acknowledgement; and the list without it. -/
def findUnacked (dest seg : Nat) (l : List Unacked) : Option Unacked := l.find? (fun u => u.dest == dest && u.seg == seg)
def dropFirst (dest seg : Nat) : List Unacked → List Unacked
  | [] => []
  | y :: ys => if y.dest = dest ∧ y.seg = seg then ys else y :: dropFirst dest seg ys

/-- A patched rank acknowledges a segment; a patch without open segments is complete, and counted (R397, R417). -/
def State.ackPatch (s : State) (p src : Nat) (m : SegMsg) : State :=
  let pr := s.prov p
  let l := pr.patches.map (fun (x : Patch) => if x.ord = m.ord ∧ x.rank = src then { x with segs := x.segs.erase m.seg } else x)
  (s.setProv p { pr with patches := l.filter (fun x => !x.segs.isEmpty) }).incFld 0 (RDE_PEVT_PATCH p) (l.filter (fun x => x.segs.isEmpty)).length

/-- Whether the acknowledgement is one that a patch waits for. -/
def State.patchWaits (s : State) (p src : Nat) (m : SegMsg) : Bool := (s.prov p).patches.any (fun x => x.ord == m.ord && x.rank == src && x.segs.contains m.seg)

/-- The collective whose message a rank acknowledges. (DEDUCED: log 167) -/
def State.ackedColl (s : State) (p src : Nat) (m : SegMsg) : Option Coll :=
  (s.prov p).colls.find? (fun c => let d := (s.img p).coll c.idx; c.started && d.ord == m.ord && (findUnacked (s.gidx p d src) m.seg c.unacked).isSome)

/-- SEGMENT_ACK_RECEIVED (R395, R397, R50): a segment is acknowledged; where it went down a copy tree, the child's window moves on and held sends go out. -/
def execSegmentAckReceived (prov src : Nat) (m : SegMsg) (s : State) : Res :=
  let s := s.take prov src (.seg m)
  if m.kind ≠ 3 ∨ m.repoch ≠ s.fld prov PROV_EPOCH_EPOCH then .next s
  else if s.patchWaits prov src m then .next ((s.ackPatch prov src m).cutOwn prov)
  else match s.ackedColl prov src m with
  | none => .next s
  | some c =>
    let d := (s.img prov).coll c.idx
    let src := s.gidx prov d src
    let copy := ((findUnacked src m.seg c.unacked).map Unacked.copy).getD false
    let s := s.updColl prov c.order (fun c => { c with
      unacked := dropFirst src m.seg c.unacked,
      kids := c.kids.map (fun k => if copy ∧ k.rank = src ∧ c.copies.any (fun x => x.seg == m.seg && x.shard == k.shard) ∧ k.acked < k.sent
        then { k with acked := k.acked + 1, atLimit := 0 } else k) })
    .next ((s.pump prov c.order d).cutOwn prov)

/-- Whether a child is at the limit: LAG segments beyond its last acknowledgement have been sent (R395). -/
def State.kidFull (s : State) (d : CollDesc) (c : Coll) (k : Kid) : Bool :=
  let mine := c.copies.filter (fun x => x.shard == k.shard)
  match if k.sent < mine.length then mine[k.sent]? else mine.getLast? with
  | some x => decide (s.sliceLag d x.seg ≤ k.sent - k.acked)
  | none => false

/-- Children at the limit spend another frame there (R396). -/
def State.limitTick (s : State) (p : Nat) : State :=
  let pr := s.prov p
  s.setProv p { pr with colls := pr.colls.map (fun c =>
    let d := (s.img p).coll c.idx
    { c with kids := c.kids.map (fun k => if s.kidFull d c k then { k with atLimit := k.atLimit + 1 } else { k with atLimit := 0 }) }) }

/-- The children of a rank that this node adopts on a shard's tree (R396); one that it has excluded already stays excluded, and its own children are adopted with it. (DEDUCED: log 70) -/
def CollDesc.adopt (d : CollDesc) (n : Nat) (h : Shard) (out : List Nat) (acked : Nat) : Nat → Nat → List Kid
  | 0, _ => []
  | fuel + 1, rank => (d.copyKids n rank h).flatMap (fun r =>
    { shard := h.no, rank := r, sent := acked, acked := acked, excluded := out.contains r } :: (if out.contains r then d.adopt n h out acked fuel r else []))

/-- A child that stays at the limit is excluded for the rest of the collective (R396): it is sent nothing more, and its own children are adopted on every
tree on which it is a child of this node. (DEDUCED: log 70) -/
def State.excludeKid (s : State) (p : Nat) (c : Coll) (d : CollDesc) (child : Nat) : State :=
  let n := s.gn p d
  let out := child :: (c.kids.filter Kid.excluded).map Kid.rank
  let adopted := (c.kids.filter (fun k => k.rank == child && !k.excluded)).flatMap (fun k => match (d.shards n)[k.shard]? with
    | some h => d.adopt n h out k.acked n child
    | none => [])
  let s := s.updColl p c.order (fun c => { c with
    kids := c.kids.map (fun x => if x.rank = child then { x with excluded := true } else x) ++ adopted,
    unacked := c.unacked.filter (fun u => u.dest != child || !u.copy) })
  (s.incFld 0 (RDE_PEVT_EXCL p) 1).pump p c.order d

/-- CHILD_EXCLUDED (R396, R397): a child held at the limit for EXCL frames is excluded and its children are adopted; a rank that learns that
it is excluded itself, with PATCH_EN 0, raises MC_EXCLUDED and its province pauses. A reducing collective excludes no rank. (DEDUCED: log 140) -/
def execChildExcluded (prov ord child : Nat) (s : State) : Res :=
  let pr := s.prov prov
  let excl := s.fld 0 RDE_MC_CTRL_EXCL
  match pr.colls.find? (fun c => c.started && ((s.img prov).coll c.idx).ord == ord) with
  | none => .next s
  | some c =>
    let d := (s.img prov).coll c.idx
    let child := s.gidx prov d child
    if !d.mc ∨ d.sums then .next s
    else if child = s.gr prov d then
      if s.fld 0 RDE_MC_CTRL_PATCH_EN = 0 ∧ c.need ≠ 0 then .next (s.stopColl prov c.order { cause := MC_EXCLUDED, die := 12, prov := prov, aux := ord })
      else .next s
    else if excl = 0 ∨ !c.kids.any (fun k => k.rank == child && !k.excluded && decide (excl ≤ k.atLimit)) then .next s
    else .next (s.excludeKid prov c d child)

/-- The segments of `segs` that this rank is the root of, each with its shard and place. -/
def State.patchSegs (s : State) (p : Nat) (d : CollDesc) (segs : List Nat) : List (Nat × Shard × Nat) :=
  segs.filterMap (fun q => (d.locate (s.gn p d) q).bind (fun x => if x.1.root = s.gr p d then some (q, x.1, x.2) else none))

/-- The root sends an excluded rank the segments it asks for, from its own HBM, and the patch is open until they are acknowledged (R397). -/
def State.sendPatch (s : State) (p ord rank step : Nat) (d : CollDesc) (segs : List Nat) : State :=
  let l := s.patchSegs p d segs
  let s := l.foldl (fun s x =>
    let a := s.segSrc p d x.2.1 x.2.2
    let bs := canonCopy (s.sideFmt p d.fmt) (s.vbytes p a.1 a.2)
    s.rdeSend p rank (s.segMsg p 0 ord x.1 (s.payNf p d bs) (s.lastSeg p d x.2.1.no x.1) true bs)) s
  let pr := s.prov p
  s.setProv p { pr with patches := pr.patches ++ [⟨ord, step, rank, l.map Prod.fst, s.sendStopped p⟩] }

/-- The collective that a patch belongs to: one that runs and has sent every segment of the root's shard to its own children, or one that has completed here (R397). -/
def State.patchColl (s : State) (p ord : Nat) : Option (Nat × Nat) :=
  let pr := s.prov p
  match pr.colls.find? (fun c => c.started && ((s.img p).coll c.idx).ord == ord) with
  | some c =>
    let d := (s.img p).coll c.idx
    let mine := c.kids.filter (fun k => ((d.shards (s.gn p d))[k.shard]?.map Shard.root) == some (s.gr p d))
    if !c.waiting ∧ mine.all (fun k => k.excluded || decide ((c.copies.filter (fun x => x.shard == k.shard)).length ≤ k.sent)) then some (c.idx, c.step) else none
  | none => pr.mcDone.find? (fun x => ((s.img p).coll x.1).ord == ord)

/-- PATCH (R397): the root, having sent every segment of its shard to its own children, sends an excluded rank the segments it has not
acknowledged, from its own HBM; poison there stops it (R411). -/
def execPatch (prov ord rank : Nat) (segs : List Nat) (s : State) : Res :=
  match s.patchColl prov ord with
  | none => .next s
  | some x =>
    let d := (s.img prov).coll x.1
    let l := s.patchSegs prov d segs
    if s.fld 0 RDE_MC_CTRL_PATCH_EN = 0 ∨ !d.mc ∨ !d.copies ∨ d.sums ∨ l = [] then .next s
    else if l.any (fun y => let a := s.segSrc prov d y.2.1 y.2.2; s.vpoison prov a.1 a.2) then
      .next ((s.contained prov ((s.prov prov).cur.getD 0)).raise { cause := POISON_CONSUMED, die := 8 + sliceOf 0 d.ord, prov := prov, addr := d.src, aux := ord })
    else .next (s.sendPatch prov ord rank x.2 d segs)

end Sys2Proof.Machine
end

