-- ==== Sys2Proof/Machine/Links.lean ====
section
/-! DEFINITION. Logical links as the steward makes and ends them (R418–R420, R469–R471, R490, R494), lost links (R411, R487), and the stand-in for a
failed device (R432–R434). The control link to a device is the link of province 0 whose peer is its DEVID. -/
namespace Sys2Proof.Machine

/-- The links replaced, and their number shown (R500). -/
def State.setLinks (s : State) (l : List Link) : State := { s with net := { s.net with links := l } }.setFld 0 NDX_STATUS_LINKS l.length

/-- The lowest DLID that no link of this device has (R470). (DEDUCED: log 81) -/
def State.freeDlid (s : State) : Nat :=
  (((List.range (s.net.links.length + 1)).map (fun i => i + 1)).find? (fun d => !s.net.links.any (fun l => l.dlid == d))).getD 1

/-- The peers of a province's links: rank and DEVID of every ACTIVE entry but this device's own (R418, R469); a dummy that no rank's entry names has none (R430). -/
def State.peers (s : State) (p : Nat) : List (Nat × Nat) :=
  if s.nranks p ≤ 1 ∨ !(s.prov p).ranktab.any (fun e => e.rank == some (s.rank p) && e.devid == s.stw.devid) then []
  else (s.prov p).ranktab.filterMap (fun e => match e.rank with
    | some r => if e.state = 0 ∧ r ≠ s.rank p then some (r, e.devid) else none
    | none => none)

/-- The devices that share a province with this one: those of its table that are not LOST, dummies included (R419, R430, R469). -/
def State.sharers (s : State) (p : Nat) : List Nat := (((s.prov p).ranktab.map RankEnt.devid).filter (s.shares p)).eraseDups

/-- A link context, unless it is there; a LINKUP that came before it tells its DLID at the peer (R470). -/
def State.addLink (s : State) (p peer devid : Nat) : State :=
  if (s.link p peer).isSome then s
  else
    let t := if p = 0 then none else s.net.told.find? (fun t => t.1 == devid && t.2.1 == (s.reg p PROV_NDX_TAG).toNat)
    s.setLinks (s.net.links ++ [{ prov := p, peer := peer, devid := devid, dlid := s.freeDlid, peerDlid := t.map (fun t => t.2.2.1), limit := (t.map (fun t => t.2.2.2)).getD 256 }])

/-- A link takes keys of a new master secret: both directions begin at generation 0, phase 0 and PN 0 (R491, R492). -/
def Link.keyed0 (l : Link) (ver master now : Nat) : Link :=
  { l with keyed := true, lost := false, ver := ver, master := master, newMaster := none, gen := 0, phase := false, rxPhase := false, rx0 := {}, rxNew := none, rxOld := none, pn := 0, renewing := false, keyAt := now }

/-- Province links to a device whose control link is keyed take derived keys and its version, and tell the peer their DLID (R470, R491). (PRESUMED: log 85) -/
def State.deriveKeys (s : State) (devid : Nat) : State :=
  match s.link 0 devid with
  | some c =>
    if !c.keyed then s
    else (s.net.links.filter (fun l => l.prov != 0 && l.devid == devid && !l.keyed && !l.lost)).foldl (fun s l =>
      (s.updLink l.prov l.peer (fun x => x.keyed0 c.ver (c.newMaster.getD c.master) s.frameTime)).updLink 0 devid
        (fun c => c.post 0 none (.linkup (s.reg l.prov PROV_NDX_TAG).toNat l.dlid 256))) s
  | none => s

/-- The links of a province, with the control links to every device that shares it (R469). -/
def State.openLinks (s : State) (p : Nat) : State :=
  (s.peers p).foldl (fun s x => (s.addLink p x.1 x.2).deriveKeys x.2) ((s.sharers p).foldl (fun s d => s.addLink 0 d d) s)

/-- How many links a province would add (R470). -/
def State.newLinks (s : State) (p : Nat) : Nat :=
  ((s.peers p).filter (fun x => (s.link p x.1).isNone)).length + ((s.sharers p).filter (fun d => (s.link 0 d).isNone)).length

/-- Control links to devices that share no province go. -/
def State.trimLinks (s : State) : State :=
  s.setLinks (s.net.links.filter (fun l => l.prov != 0 || s.net.links.any (fun m => m.prov != 0 && m.devid == l.devid) || s.provs.any (fun e => s.shares e.1 l.devid)))

/-- CLOSE, in stream 0 of its link (R481, R488, R496), leaves at once on the lowest up path: the link's context is erased behind it. (DEDUCED: log 84) -/
def State.sendClose (s : State) (l : Link) : State :=
  match s.upPaths l with
  | n :: _ =>
    if l.lost ∨ l.peerDlid.isNone ∨ 2 ^ 40 ≤ l.pn ∨ !s.hopKnown l n then s
    else (((s.wireOut n 0 0 (.pkt l.prov l.peer 0 (Sparse.get TxStream.init l.tx 0).next) (some ⟨l, .close, l.pn, some (Sparse.get TxStream.init l.tx 0).next, 0, false⟩)).ndxCnt 0 1)).emit (.ndx l.prov l.peer .close)
  | [] => s

/-- Dissolution closes a province's links with CLOSE and erases their contexts and keys (R488). -/
def State.closeLinks (s : State) (p : Nat) : State :=
  let s := (s.net.links.filter (fun l => l.prov == p && l.keyed)).foldl State.sendClose s
  (s.setLinks (s.net.links.filter (fun l => l.prov != p))).trimLinks

/-- RESET at a boundary (R488): streams start anew. -/
def State.resetStreams (s : State) (p : Nat) : State :=
  let s := { s with net := { s.net with inbox := s.net.inbox.filter (fun m => m.1 != p) } }
  s.setLinks (s.net.links.map (fun l => if l.prov = p then { l with tx := [], rx := [], acks := [] } else l))

/-- Whether a collective needs a rank (R411): it is not over, the rank is in its group, and this rank exchanges rows or quads with it (R400, R404, R424). -/
def State.needsRank (s : State) (p r : Nat) (c : Coll) : Bool :=
  let g := s.img p
  let d := g.coll c.idx
  let me := s.rank p
  !c.stopped && (match g.group d me with | some l => l.contains r | none => true) &&
  (match d.op with
   | 5 | 6 => (g.dealTab d).experts.any (fun e => e.1 == r || e.1 == me)
   | 7 => (g.moves d).any (fun m => (m.1 == me && m.2.1 == r) || (m.1 == r && m.2.1 == me))
   | _ => true)

/-- A province link is lost (R487, R411): its streams stop, its collectives that need the rank stop, and RANK_LOST pauses the province. (DEDUCED: log 140) -/
def State.rankLost (s : State) (p peer : Nat) : State :=
  match s.link p peer with
  | none => s
  | some l =>
    if l.lost then s
    else
      let s := (s.updLink p peer (fun l => { l with lost := true, tx := [], rx := [], acks := [] })).setFld 0 NDX_STATUS_LINK_LOST 1
      let pr := s.prov p
      let s := s.setProv p { pr with colls := pr.colls.map (fun c => if s.needsRank p peer c then { c with stopped := true } else c) }
      s.raise { cause := RANK_LOST, die := 12, prov := p, aux := peer }

/-- Replace a rank's entry. -/
def setRank (t : List RankEnt) (r : Nat) (f : RankEnt → RankEnt) : List RankEnt := t.map (fun e => if e.rank = some r then f e else e)

/-- Whether a rank still stands on the device that began with it: it has not been stood in for, its entry is ACTIVE and its link is not lost. -/
def State.survives (s : State) (p q : Nat) : Bool :=
  !(s.prov p).lost.contains q && (s.prov p).ranktab.any (fun e => e.rank == some q && e.state == 0) && (match s.link p q with | some l => !l.lost | none => true)

/-- Whether this device coordinates the stand-in for a rank (R433): the lowest-numbered surviving rank. (DESIGN CHOICE: log 80) -/
def State.coordinates (s : State) (p r : Nat) : Bool :=
  !(s.prov p).lost.contains (s.rank p) && (s.prov p).ranktab.any (fun e => e.rank == some (s.rank p) && e.devid == s.stw.devid) &&
  (List.range (s.rank p)).all (fun q => q == r || !s.survives p q)

/-- The coordinator asks for the RESET once its links are keyed (R433 steps 3 and 4). (DESIGN CHOICE: log 80) -/
def State.standinReset (s : State) (p : Nat) : State :=
  if (s.prov p).resetDue && s.linksKeyed p then (s.setProv p { (s.prov p) with resetDue := false }).requestUp p .reset else s

/-- Steps 2–4 of R433 on this device: entry r is LOST, the first spare takes it, the links to the dummy come up; the coordinator tells every other device of the table, and asks for a
RESET once its links are keyed. The dummy itself takes the rank and the coordinator's reset epoch. A second failure begins again for both ranks (R434). (DESIGN CHOICE: log 80) -/
def State.standin (s : State) (p r epoch : Nat) : State :=
  let lead := s.coordinates p r
  let t := setRank (s.prov p).ranktab r (fun e => { e with state := 1 })
  let s := s.rankLost p r
  let s := s.setLinks (s.net.links.filter (fun l => l.prov != p || l.peer != r))
  let pr := s.prov p
  match t.find? (fun e => e.state == 2 && e.rank.isNone) with
  | none =>
    let s := s.setProv p { pr with ranktab := t, standins := pr.standins.filter (fun q => q != r) }
    if lead then s.raise { cause := NO_SPARE, die := 12, prov := p, aux := r } else s
  | some sp =>
    let t := setRank (t.erase sp) r (fun e => { e with state := 0, encap := sp.encap, addr := sp.addr, devid := sp.devid })
    let s := s.setProv p { pr with ranktab := t, standins := pr.standins.filter (fun q => q != r), lost := pr.lost.filter (fun q => q != r) ++ [r], reports := [], point := none, copyIn := none }
    if sp.devid = s.stw.devid then ((s.setFld p PROV_RANK_RANK r).setFld p PROV_EPOCH_EPOCH epoch).openLinks p
    else
      let s := (s.openLinks p).trimLinks
      if lead then
        let s := (s.sharers p).foldl (fun s d => s.emit (.ndx 0 d (.standin (s.reg p PROV_NDX_TAG).toNat r sp.devid epoch))) s
        (s.setProv p { (s.prov p) with resetDue := true }).standinReset p
      else s

/-! ## The restore point (R432) -/

/-- This device's own report: the step after its mirror's, and the latest step that it has VERIFIED or COMMITTED. -/
def State.ownReport (s : State) (p : Nat) : RankReport :=
  let st := s.fld p PROV_STEP_STATE_STATE
  ⟨if s.fld p PROV_STANDIN_MIRROR_VALID = 1 then some (s.reg p PROV_MIRROR_STEP + 1).toNat else none,
   if st = 2 ∨ st = 3 then some (s.reg p PROV_STEP).toNat else (s.prov p).committed⟩

/-- The mirror Shuffle (R430), and the rank that holds a rank's mirror. -/
def State.mirrorColl (s : State) (p : Nat) : Option CollDesc :=
  let g := s.img p
  ((List.range g.ncoll).map g.coll).find? (fun d => d.op == 7 && d.ord == s.fld p PROV_STANDIN_MIRROR_ORD)
def State.buddy (s : State) (p r : Nat) : Option Nat :=
  (s.mirrorColl p).bind (fun d => (((s.img p).moves d).find? (fun m => m.1 == r && m.2.1 != r)).map (fun m => m.2.1))

/-- The step after the one that the valid mirror of a rank holds, on a buddy that has not failed. -/
def State.mirrorOf (s : State) (p r : Nat) : Option Nat :=
  let pr := s.prov p
  (s.buddy p r).bind (fun b => if pr.lost.contains b then none else (pr.reports.find? (fun x => x.1 == b)).bind (fun x => x.2.mirror))

/-- The restore point (R432), from the reports of every survivor. -/
def State.restorePoint (s : State) (p : Nat) : RestorePoint :=
  let pr := s.prov p
  let alive := (List.range (s.nranks p)).filter (fun q => !pr.lost.contains q)
  match pr.lost.map (s.mirrorOf p) with
  | some n :: l =>
    if l.any (fun x => x != some n) then .host
    else if !pr.reports.any (fun x => alive.contains x.1 && (match x.2.past with | some k => decide (n ≤ k) | none => false)) then .mirror n false
    else if alive.all (fun q => s.mirrorOf p q == some n) then .mirror n true else .host
  | _ => .host

/-- Whether a restore point gives a rank its state from its mirror. -/
def RestorePoint.restores (x : RestorePoint) (lost : List Nat) (r : Nat) : Bool :=
  match x with | .host => false | .mirror _ all => all || lost.contains r

/-- The quads of this device's mirror that are a rank's state (R404, R430): where they stand on the rank, where they stand here, their bytes. -/
def State.mirrorSpans (s : State) (p r : Nat) : List (Nat × Nat × Nat) :=
  match s.mirrorColl p with
  | some d =>
    let u := d.unit s p
    (((s.img p).moves d).filter (fun m => m.1 == r && m.2.1 == s.rank p)).map (fun m => (d.src + m.2.2.1 * u, d.dst + m.2.2.2.1 * u, m.2.2.2.2 * u))
  | none => []

/-- A rank's state as this device's mirror holds it, by the PVA it has on that rank. -/
def State.mirrorCells (s : State) (p r : Nat) : List (Nat × Byte) :=
  (s.mirrorSpans p r).flatMap (fun m => (List.range m.2.2).map (fun i => (m.1 + i, s.vbyte p (m.2.1 + i))))

/-- A buddy sends a rank's state; poison in its mirror is consumed and not sent (R274, R433 step 5). -/
def State.sendMirror (s : State) (p r : Nat) : State :=
  match (s.mirrorSpans p r).find? (fun m => s.vpoison p m.2.1 m.2.2) with
  | some m => s.raise { cause := POISON_CONSUMED, die := 12, prov := p, addr := m.2.1 }
  | none => s.emit (.ndx p r (.mirror (s.mirrorCells p r)))

/-- The state of a restored rank is written (R433 step 5). -/
def State.takeMirror (s : State) (p : Nat) (cells : List (Nat × Byte)) : State := s.vwrite p (cells.filter (fun c => (s.prov p).region c.1 == .data))

/-- Once every survivor has reported, the restore point is decided, a buddy sends the state of the ranks that are restored, and a copy that came before is taken (R432, R433 step 5). -/
def State.tryRestore (s : State) (p : Nat) : State :=
  let pr := s.prov p
  let alive := (List.range (s.nranks p)).filter (fun q => !pr.lost.contains q)
  if pr.lost = [] ∨ pr.point.isSome ∨ !alive.all (fun q => pr.reports.any (fun x => x.1 == q)) then s
  else
    let x := s.restorePoint p
    let s := s.setProv p { pr with point := some x, copyIn := none }
    let s := ((s.peers p).filter (fun y => x.restores pr.lost y.1 && s.buddy p y.1 == some (s.rank p))).foldl (fun s y => s.sendMirror p y.1) s
    match pr.copyIn with
    | some c => if pr.st = .sealed_ ∧ s.buddy p (s.rank p) = some c.1 ∧ x.restores pr.lost (s.rank p) = true then s.takeMirror p c.2 else s
    | none => s

/-- A steward's report arrives. -/
def State.reportIn (s : State) (p q : Nat) (r : RankReport) : State :=
  let pr := s.prov p
  (s.setProv p { pr with reports := pr.reports.filter (fun x => x.1 != q) ++ [(q, r)] }).tryRestore p

/-- RESET after a stand-in: every surviving steward tells the others what they need for R432. -/
def State.reportAll (s : State) (p : Nat) : State :=
  let pr := s.prov p
  if pr.lost = [] ∨ pr.lost.contains (s.rank p) then s
  else
    let r := s.ownReport p
    ((s.peers p).foldl (fun s x => s.emit (.ndx p x.1 (.report r))) s).reportIn p (s.rank p) r

/-- A buddy's copy arrives: a SEALED rank that is restored takes it, or keeps it until it knows (R433 step 5). (DESIGN CHOICE: log 80) -/
def State.mirrorIn (s : State) (p q : Nat) (cells : List (Nat × Byte)) : State :=
  let pr := s.prov p
  if pr.st ≠ .sealed_ ∨ s.buddy p (s.rank p) ≠ some q then s
  else match pr.point with
  | none => if pr.lost = [] then s else s.setProv p { pr with copyIn := some (q, cells) }
  | some x => if x.restores pr.lost (s.rank p) then s.takeMirror p cells else s

/-- The coordinator's change of the table arrives over the control link, for the province of its ptag (R433 step 2). (DESIGN CHOICE: log 80) -/
def State.standinIn (s : State) (from_ tag r devid epoch : Nat) : State :=
  match s.provs.find? (fun e => s.shares e.1 from_ && (s.reg e.1 PROV_NDX_TAG).toNat == tag) with
  | none => s
  | some e =>
  let p := e.1
  if (s.prov p).ranktab.any (fun e => e.rank == some r && e.devid == devid) ∨ ((s.prov p).st ≠ .paused ∧ (s.prov p).st ≠ .sealed_) then s else s.standin p r epoch

/-- AUTO_STANDIN (R433): the coordinator with AUTO set goes on once the province is PAUSED; with no spare NO_SPARE tells. (DESIGN CHOICE: log 80) -/
def State.autoStandin (s : State) (p r : Nat) : State :=
  if s.fld p PROV_STANDIN_AUTO = 0 ∨ !s.coordinates p r then s
  else if (s.prov p).st = .running then s.setProv p { (s.prov p) with standins := (s.prov p).standins ++ [r] }
  else if (s.prov p).st = .paused ∨ (s.prov p).st = .sealed_ then s.standin p r (s.fld p PROV_EPOCH_EPOCH)
  else s

/-- A link is lost (R487): with a control link go all province links to that device. -/
def State.loseLink (s : State) (p peer : Nat) : State :=
  if p = 0 then
    let s := (s.updLink 0 peer (fun l => { l with lost := true, keyed := false, hellos := 0, tx := [], rx := [], acks := [] })).setFld 0 NDX_STATUS_LINK_LOST 1
    (s.net.links.filter (fun l => l.prov != 0 && l.devid == peer)).foldl (fun s l => (s.rankLost l.prov l.peer).autoStandin l.prov l.peer) s
  else (s.rankLost p peer).autoStandin p peer

end Sys2Proof.Machine
end

