-- ==== Sys2Proof/Machine/StepOps.lean ====
section
/-! DEFINITION. The step machine (spec file 11): opening a step, REDUCED, the verdict, the ledger commit, COMMITTED and SKIPPED, the step log. -/
namespace Sys2Proof.Machine

/-- Values of `PROV_STEP_STATE.STATE` (R325). -/
def ST_OPEN : Nat := 0
def ST_REDUCED : Nat := 1
def ST_VERIFIED : Nat := 2
def ST_COMMITTED : Nat := 3
def ST_SKIPPED : Nat := 4
def ST_NO_STEP : Nat := 5

def State.stepState (s : State) (p : Nat) : Nat := s.fld p PROV_STEP_STATE_STATE
def State.setStepState (s : State) (p v : Nat) : State := s.setFld p PROV_STEP_STATE_STATE v
def State.stepNo (s : State) (p : Nat) : Nat := (s.reg p PROV_STEP).toNat

/-- The frame after which the ledger commit may begin (R326, R340). -/
def Img.commitEnd (g : Img) : Nat := match g.commitFrames with | some (_, b) => b | none => g.body - 1

/-- A step opens when its first planned frame is dealt (R322, R325, R409). -/
def State.openStep (s : State) (p step : Nat) (first : Bool) : State :=
  let last := s.stepState p
  let s := s.setReg p PROV_STEP (BitVec.ofNat 64 step)
  let s := if first then s else s.setFld p PROV_STEP_STATE_LAST last
  let s := s.setStepState p ST_OPEN
  let s := (s.setFld 0 (RDE_PSTEP_NF_WIRE p) 0).setFld 0 (RDE_PSTEP_TRI_MISMATCH p) 0
  let pr := s.prov p
  s.setProv p { pr with reducedAt := none, gradLast := none, verdict := none, ledgerNf := false, ledgerStop := false, ledgerDone := false, satSum := 0, commitFault := false,
                        gsync := pr.gsync.filter (fun g => !g.inst.pro && decide (step ≤ g.inst.step)),
                        mbDone := pr.mbDone.filter (fun m => m.pro || decide (step ≤ m.step + 1)) }

/-- Where the record of the step being decided stands in the step log (R355). -/
def State.logAddr (s : State) (p n : Nat) : Nat := (s.img p).steplogBase + 32 * (n % max 1 (s.img p).steplogSize)

/-- A step-log record (R355). -/
def State.stepRecord (s : State) (p result reason flags sat nf : Nat) : List Byte :=
  leBytes 8 (s.stepNo p) ++ leBytes 1 result ++ leBytes 1 reason ++ leBytes 1 flags ++ zeros 1 ++ leBytes 4 sat ++
  leBytes 8 s.frame ++ leBytes 4 nf ++ leBytes 4 (s.fld p PROV_STEP_STATE_CONSEC)

/-- The steward appends a record to the step log (R355). -/
def State.stepLog (s : State) (p result reason nf : Nat) : State :=
  let pr := s.prov p
  (s.stewardPut p (s.logAddr p pr.logSeq) (s.stepRecord p result reason 0 0 nf)).setProv p { pr with logSeq := pr.logSeq + 1 }

/-- The record of a committed step is completed (R355). -/
def State.stepLogDone (s : State) (p : Nat) : State :=
  let pr := s.prov p
  let a := s.logAddr p (pr.logSeq - 1)
  let s := s.stewardPut p (a + 8) (leBytes 1 ST_COMMITTED)
  let s := s.stewardPut p (a + 10) (leBytes 1 (b01 (pr.satSum != 0) + 2 * b01 pr.ledgerNf))
  let s := s.stewardPut p (a + 12) (leBytes 4 pr.satSum)
  s.stewardPut p (a + 28) (leBytes 4 (s.fld p PROV_STEP_STATE_CONSEC))

/-- A step becomes SKIPPED (R333, R354, R356): the counts, the reasons, escalation, the log. (DEDUCED: log 140, 141) -/
def State.skipStep (s : State) (p : Nat) (v : Verd) : State :=
  let why := v.reason (s.stepNo p) (s.nranks p)
  let s := (s.setStepState p ST_SKIPPED).setFld p PROV_STEP_STATE_REASON why
  let s := (s.incFld p PROV_STEP_STATE_CONSEC 1).incFld p PROV_SKIP_CNT_COUNT 1
  let consec := s.fld p PROV_STEP_STATE_CONSEC
  let lim := s.fld p PROV_SKIP_CTRL_LIMIT
  let nf := v.counts.foldl (fun a c => satAdd (2 ^ 32 - 1) a c) 0
  let s := (s.stepLog p ST_SKIPPED why nf).tspNote (.step p (s.stepNo p) ST_SKIPPED)
  let hit := decide (lim ≠ 0 ∧ consec % lim = 0)
  let s := if hit ∨ (s.fld p PROV_SKIP_CTRL_TRI_PAUSE = 1 ∧ v.counts.getD 6 0 ≠ 0) then s.setProv p { (s.prov p) with skipPause := true } else s
  let s := if hit then s.raise { cause := STEP_SKIPS, die := 12, prov := p, aux := s.stepNo p, detail0 := consec } else s
  s.wakeWaits p

/-- The decision (R332, R333): the held result is written at VERDICT_BASE, and the step becomes VERIFIED or SKIPPED. -/
def State.decideStep (s : State) (p : Nat) : State :=
  match (s.prov p).verdict with
  | some b =>
    if s.stepState p = ST_REDUCED then
      let s := s.setProv p { (s.prov p) with verdict := none }
      let s := s.rput p (s.img p).verdictBase b
      let v := Verd.of b
      if v.ok (s.stepNo p) (s.nranks p) then ((s.setStepState p ST_VERIFIED).stepLog p ST_VERIFIED 0 0).tspNote (.step p (s.stepNo p) ST_VERIFIED) else s.skipStep p v
    else s
  | none => s

/-- Without a LEDGER section there is no verdict (R325): a REDUCED step whose last planned frame has been dealt is VERIFIED. -/
def State.noVerdict (s : State) (p : Nat) : State :=
  let g := s.img p
  if g.hasLedger ∨ s.stepState p ≠ ST_REDUCED ∨ (s.prov p).cur.all (fun k => !g.lastOfStep k) then s else s.setStepState p ST_VERIFIED

/-- A step becomes REDUCED (R325, R409). -/
def State.reduceStep (s : State) (p : Nat) : State :=
  if s.stepState p = ST_OPEN then ((s.setStepState p ST_REDUCED).setProv p { (s.prov p) with reducedAt := some s.frame }).noVerdict p else s

/-- VERDICT_RESULT (R325, R332, R333): a result that waits is taken once the step is REDUCED. -/
def execVerdictResult (prov : Nat) (s : State) : Res := .next (s.decideStep prov)

/-- The GRAD_LAST collective and every GRAD collective started before it have completed (R409). -/
def State.checkReduced (s : State) (p : Nat) : State :=
  let pr := s.prov p
  match pr.gradLast with
  | some o =>
    if pr.colls.any (fun c => decide (c.order < o) && c.step == s.stepNo p && ((s.img p).coll c.idx).grad) then s else s.reduceStep p
  | none => s

/-- COLLECTIVE_COMPLETE (R408, R409, R431): every condition of R408 holds; the completion put is made. -/
def execCollectiveComplete (prov ord : Nat) (s : State) : Res :=
  let pr := s.prov prov
  match pr.colls.find? (fun c => c.started && ((s.img prov).coll c.idx).ord == ord) with
  | none => .next s
  | some c =>
    if c.stopped ∨ c.need ≠ 0 ∨ !c.sums.all SegNode.done ∨ !c.checks.all CheckNode.done ∨ c.unacked ≠ [] ∨ c.waiting ∨
        pr.patches.any (fun x => x.ord == ord && x.step == c.step) ∨ s.memc.waits.any (fun x => x.prov == prov && x.cls == 2) ∨ (((s.img prov).coll c.idx).op = 8 ∧ pr.verdict.isSome) then .next s
    else
      let d := (s.img prov).coll c.idx
      let s := s.setProv prov { pr with colls := pr.colls.filter (fun x => x.order != c.order),
                                        mcDone := if d.mc ∧ d.copies then (c.idx, c.step) :: pr.mcDone.filter (fun x => x.1 != c.idx) else pr.mcDone,
                                        gradLast := if d.gradLast ∧ c.step = s.stepNo prov then some c.order else pr.gradLast }
      let s := if d.op = 7 ∧ d.ord = s.fld prov PROV_STANDIN_MIRROR_ORD ∧ d.ord ≠ 0xFFFF then
          (s.setReg prov PROV_MIRROR_STEP (s.reg prov PROV_STEP - 1)).setFld prov PROV_STANDIN_MIRROR_VALID 1 else s
      let s := s.checkReduced prov
      let s := match d.put, s.talonOf prov d.talon with
        | true, some n => s.talonPut n d.handle
        | _, _ => s
      .next (s.cutOwn prov)

/-- Whether the tricks of the step's closing frames have completed and everything they released has been made (R325, R326, R340); after a contained error in one of them
this never holds (R352). -/
def State.commitOver (s : State) (p : Nat) : Bool :=
  let pr := s.prov p
  let g := s.img p
  match pr.cur with
  | none => false
  | some k =>
    let own := fun f => g.isClosing f && g.stepOfFrame f == g.stepOfFrame k
    let of := fun (c : TrickCtx) => c.prov == p && own c.pframe
    (match g.bodyIdx k with | some j => decide (g.commitEnd ≤ j) | none => false) && !pr.commitFault &&
    pr.items.all (fun i => i.st == .complete || !own i.pframe) &&
    !s.tiles.any (fun t => t.2.outbox.any (fun o => o.prov == p && own o.pframe) || t.2.owed.any (fun x => of x.ctx) || t.2.waitChains.any (fun w => of w.2.1)) &&
    !s.bulks.any (fun b => b.2.queue.any (fun j => of j.ctx))

/-- The target exponent of R340 and R344. -/
def ledgerTarget (emax margin coldExtra : Int) (cold : Bool) (cs : List Int) : Int :=
  let mx := match cs with | [] => 0 | x :: xs => xs.foldl max x
  let t := emax - mx - margin
  let t := if cold then t - coldExtra else t
  min (max t (-127)) 127

/-- A ledger descriptor (R350): target EMAX, MARGIN, MAXSTEP, INIT_C. -/
structure LedDesc where
  emax : Int
  margin : Nat
  maxstep : Nat
  initC : Int
deriving DecidableEq, Repr

def State.ledDesc (s : State) (p i : Nat) : LedDesc :=
  let g := s.img p
  let o := g.sectOff 10 + 64 + 16 * i
  ⟨((s.fmtOf p (g o 1)).map Fmt.emax).getD 127, g (o + 2) 1, g (o + 3) 1, signed 16 (g (o + 4) 2)⟩

/-- A cold ledger record (R344). -/
def State.coldRec (s : State) (p i : Nat) : List Byte :=
  let d := s.ledDesc p i
  let t := unsigned 16 (ledgerTarget d.emax d.margin (s.img p).coldExtra true [d.initC])
  leBytes 2 t ++ leBytes 2 t ++ zeros 124

/-- The ledger commit of one record (R340): the new record, and whether its code was NONFINITE. -/
def State.commitRec (s : State) (p i : Nat) : List Byte × Bool :=
  let g := s.img p
  let d := s.ledDesc p i
  let h := g.ledH
  let r := s.vbytes p (g.ledgerBase + 128 * i) 128
  let pend := s.vbytes p (g.pendingBase + 64 * i) 64
  let step := s.stepNo p
  let c := leAt pend 8 2
  let here := leAt pend 0 8 == step
  let add := here && c != 0x7FFF && c != 0x8000
  let head := leAt r 5 1
  let count := leAt r 4 1
  let r := if add then patch r (16 + 2 * head) (leBytes 2 c) else r
  let head := if add then (head + 1) % max 1 h else head
  let count := if add then min (count + 1) h else count
  let last := if add then step else leAt r 8 8
  let cold := decide (count < min 4 h)
  let cs := (List.range count).map (fun j => signed 16 (leAt r (16 + 2 * ((head + h - 1 - j) % max 1 h)) 2))
  let cs := if cold then cs ++ [d.initC] else cs
  let t := ledgerTarget d.emax d.margin g.coldExtra cold cs
  let sc := signed 16 (leAt r 0 2)
  let t := if d.maxstep = 0 then t else min (max t (sc - d.maxstep)) (sc + d.maxstep)
  (leBytes 2 (unsigned 16 t) ++ slice r 0 2 ++ leBytes 1 count ++ leBytes 1 head ++ zeros 2 ++ leBytes 8 last ++ r.drop 16, here && c == 0x7FFF)

/-- Poison met by the steward in a commit is consumed: the commit stops, the step stays VERIFIED, the province pauses (R340). (DEDUCED: log 140) -/
def State.commitPoison (s : State) (p addr : Nat) : State :=
  (s.setProv p { (s.prov p) with ledgerStop := true, pauseReq := true }).raise { cause := POISON_CONSUMED, die := 12, prov := p, addr := addr, aux := s.stepNo p }

/-- The records from `i` on (R340). (DEDUCED: log 143) -/
def State.commitRecs (s : State) (p : Nat) : Nat → Nat → State
  | 0, _ => s
  | n + 1, i =>
    let g := s.img p
    if (s.prov p).ledgerStop then s
    else if s.vpoison p (g.pendingBase + 64 * i) 64 then s.commitPoison p (g.pendingBase + 64 * i)
    else if s.vpoison p (g.ledgerBase + 128 * i) 128 then s.commitPoison p (g.ledgerBase + 128 * i)
    else
      let r := s.commitRec p i
      let s := s.stewardPut p (g.ledgerBase + 128 * i) r.1
      let s := if r.2 then s.setProv p { (s.prov p) with ledgerNf := true } else s
      s.commitRecs p n (i + 1)

/-- The SAT fields of the step's cells are summed and reported (R336). (DEDUCED: log 140, 143) -/
def State.sumSat (s : State) (p : Nat) : State :=
  let g := s.img p
  match (List.range g.ncell).find? (fun i => s.vpoison p (g.cell i) 64) with
  | some i => s.commitPoison p (g.cell i)
  | none =>
    let sum := (List.range g.ncell).foldl (fun n i =>
      if s.vle p (g.cell i) 8 = s.stepNo p then satAdd (2 ^ 32 - 1) n (s.vle p (g.cell i + 28) 4) else n) 0
    let s := s.setProv p { (s.prov p) with satSum := sum, ledgerDone := true }
    if sum = 0 then s
    else ((s.incFld p PROV_SAT_EVENTS_STEPS 1).incFld p PROV_SAT_EVENTS_ELEMENTS sum).raise
      { cause := STEP_SATURATED, die := 12, prov := p, aux := s.stepNo p, detail0 := sum }

/-- LEDGER_COMMIT (R336, R340, R341): the step is VERIFIED and its commit frames are over; while the steward restarts it waits (R576). (DEDUCED: log 143) -/
def execLedgerCommit (prov : Nat) (s : State) : Res :=
  let pr := s.prov prov
  let g := s.img prov
  if s.stw.restarting ∨ !pr.loaded ∨ !g.hasLedger ∨ s.stepState prov ≠ ST_VERIFIED ∨ pr.ledgerDone ∨ pr.ledgerStop ∨ !s.commitOver prov then .next s
  else
    let s := s.commitRecs prov g.nrec 0
    if (s.prov prov).ledgerStop then .next s else .next (s.sumSat prov)

/-- The step is COMMITTED (R325, R336, R354). -/
def State.commitStep (s : State) (p : Nat) : State :=
  let s := ((s.setStepState p ST_COMMITTED).setFld p PROV_STEP_STATE_CONSEC 0).tspNote (.step p (s.stepNo p) ST_COMMITTED)
  let pr := s.prov p
  let sat := pr.satSum != 0
  s.setProv p { pr with committed := some (s.stepNo p), satLast := sat, satSteps := pr.satSteps + b01 sat }

/-- STEP_COMMITTED (R325, R354, R355): the ledger commit is made, or, without a LEDGER section, the frame's writes have been made. -/
def execStepCommitted (prov : Nat) (s : State) : Res :=
  let pr := s.prov prov
  let g := s.img prov
  if !pr.loaded ∨ s.stepState prov ≠ ST_VERIFIED ∨ (if g.hasLedger then !pr.ledgerDone else !s.commitOver prov) then .next s
  else
    let s := s.commitStep prov
    .next ((if g.hasLedger then s.stepLogDone prov else s).wakeWaits prov)

end Sys2Proof.Machine
end

