-- ==== Sys2Proof/Machine/Dealer.lean ====
section
/-! DEFINITION. The Dealer at work (spec file 08): misdeals and re-deals (R35–R38, R245–R250), dealing a planned frame, the commit gating of R326,
completion of a trick (R217), recalls (R246), program loads (R236), the fetch of a frame's entries (R238), RESET's effect on a province. -/
namespace Sys2Proof.Machine

/-- A tile stops its trick: queues flushed, banks FREE, courier state dropped, seats idle (R84, R176, R246, R299). (DESIGN CHOICE: log 42) -/
def State.stopTile (s : State) (tile : Nat) : State :=
  let s := (s.setTile tile ((s.tile tile).flush)).dropCourier tile
  let t := s.tile tile
  s.setTile tile { t with trick := none, seats := t.seats.map (fun e => (e.1, { e.2 with st := .idle, wait := .none, busy := [], due := [] })) }

/-- Whether a TTAKE of the tile waits on a Talon that `f` accepts, by the province's index of the Talon. -/
def State.takeWaits (s : State) (p tile : Nat) (f : Nat → Bool) : Bool :=
  (List.range 8).any (fun i => f i && (match s.talonOf p i with
    | some n => (s.talon n).waiters.any (fun w => w.tile == tile)
    | none => false))

/-- Whether a Talon is owed a put by a chain that has yet to move data of the host (R309, R436). -/
def State.hostPut (s : State) (p tal : Nat) : Bool :=
  s.bulks.any (fun b => b.2.queue.any (fun j =>
    let e := (s.img p).chainEnt j.req.chain
    j.ctx.prov == p && e.put && e.talon == tal && (List.range e.count).any (fun i => decide (j.desc ≤ i) && (let x := s.jobDesc { j with desc := i }; s.usesHost p x.1 x.2.1))))

/-- The misdeal cause of the trick on a tile (R37, R38, R213, R226, R408, R436): 0 with a halted seat, else the first that applies in the order 6, 3, 1, 2, 4, 0. (DEDUCED: log 145) -/
def State.runCause (s : State) (p tile held : Nat) (stolen : Bool) : Nat :=
  let t := s.tile tile
  if (List.range 8).any (fun n => s.seatShown tile n == .halted) then 0
  else if held < (s.img p).planCycles then 6
  else if (List.range 8).any (fun n => (t.seat n).st == .waitGlobal) || s.takeWaits p tile (s.owedPut p) then 3
  else if t.xfers.any (fun x => x.rel.isNone && !(Cx.of x.insn x.words).store) || s.takeWaits p tile (s.hostPut p) then 1
  else if s.takeWaits p tile (fun _ => true) then 2
  else if stolen then 4 else 0

/-- A misdeal record (R37). (DEDUCED: log 53) -/
def misdealRec (p frame die cause run held lag : Nat) (i : DealItem) (idx : Nat) : List Byte :=
  leBytes 8 frame ++ leBytes 4 i.trick ++ leBytes 2 idx ++ leBytes 1 die ++ leBytes 1 p ++ leBytes 1 cause ++ zeros 1 ++
  leBytes 2 (min lag 0xFFFF) ++ leBytes 4 run ++ leBytes 4 held ++ zeros 4

/-- The record is written to the ring of the misdeal log, in a write slot (R266), and counted (R37, R608). (DEDUCED: log 53) -/
def State.logMisdeal (s : State) (p die : Nat) (b : List Byte) : State :=
  let g := s.img p
  let n := (s.reg p PROV_MISDEAL_CNT).toNat
  let s := s.sendWrite p 1 (b.zipIdx.map (fun x => (g.mdlogBase + 32 * (n % max 1 g.mdlogSize) + x.2, x.1)))
  let s := s.setReg p PROV_MISDEAL_CNT (BitVec.ofNat 64 (n + 1))
  (s.count { unit := srvDie die, event := 0x22, prov := p, master := some 5 }).count { unit := srvProv p, event := 0xC6, prov := p, master := some 5 }

/-- L increases by 1, saturating (R36). -/
def State.lagUp (s : State) (p : Nat) : State := s.incFld p PROV_PLAN_LAG_LAG 1

/-- The tile, the cause and whether the trick had started, for an item that has not completed (R245); with no trick on its tile, 5 while the row moves, or for a
pinned trick whose unit is out of service (R251, R252). (DEDUCED: log 145) -/
def State.itemCause (s : State) (p held : Nat) (i : DealItem) : Nat × Nat × Bool :=
  match i.st with
  | .running tile => ((s.idxOf p tile).getD i.home, s.runCause p tile held i.stolen, true)
  | .abandoned idx => (idx, 5, true)
  | _ =>
    match (s.tileOf p i.home).bind (fun t => (s.tile t).trick.map (fun c => (t, c))) with
    | some (t, c) => (i.home, s.runCause p t held c.stolen, false)
    | none =>
      let moving := (s.tileOf p i.home).any (fun t => s.fld (dieOfTile t) (DLR_ROWMAP_MOVING (rowOfTile t)) == 1)
      let out := ((s.img p).trick i.trick).pin && s.errs.retired.contains (s.unitAt p i.home)
      (i.home, if moving || out then 5 else 1, false)

/-- A misdealt item as it goes back to its home queue (R247, R248): its span doubles at attempt 2 or later with cause 0 or 6, up to 8. -/
def DealItem.again (i : DealItem) (cause : Nat) : DealItem :=
  { i with st := .queued, stolen := false,
           span := if 2 ≤ i.attempts ∧ (cause = 0 ∨ cause = 6) then min 8 (2 * i.span) else i.span }

/-- The misdeal check of a boundary (R35, R36, R221, R245, R249): `held` is the cycles the ended frame held. Completed and faulted tricks leave
the list; the others are recorded, stopped and kept for a re-deal. -/
def State.misdealCheck (s : State) (p held : Nat) : State :=
  let pr := s.prov p
  let bad := pr.items.filter (fun i => i.st != .complete && i.st != .faulted)
  if bad = [] then s.setProv p { pr with items := [], spanLeft := 0, spanLen := 1 }
  else
    let ended := s.frame - 1
    let marks := bad.map (fun i => (i, s.itemCause p held i))
    let s := s.lagUp p
    let lag := s.fld p PROV_PLAN_LAG_LAG
    let s := marks.foldl (fun s m =>
      let die := (s.unitAt p m.2.1).1
      let run := if m.2.2.2 then s.freeVal.1.toNat % 2 ^ 32 else 0
      (if m.2.2.2 then s.freeVal.2 else s).logMisdeal p die (misdealRec p ended die m.2.2.1 run held lag m.1 m.2.1)) s
    let s := bad.foldl (fun s i => match i.st with | .running tile => s.stopTile tile | _ => s) s
    let long := pr.spanLen == 8
    let s := if long then marks.foldl (fun s m =>
        s.raise { cause := PLAN_OVERRUN, die := (s.unitAt p m.2.1).1, prov := p, aux := m.1.trick }) s else s
    s.setProv p { (s.prov p) with items := marks.map (fun m => m.1.again m.2.2.1), spanLeft := 0, spanLen := 1,
                                  pauseReq := (s.prov p).pauseReq || long }

/-- The Atlas bytes that a frame's dealing reads: its frame-map entry, its deals and their descriptors (R238). -/
def Img.fetchSpans (g : Img) (k : Nat) : List (Nat × Nat) :=
  let f := g.frame k
  [(atlasBase + g.sectOff 1 + 32 * g.frameIdx k, 32), (atlasBase + g.sectOff 2 + 8 * f.dealOff, 8 * f.dealN)] ++ (g.deals f).map (fun x => (atlasBase + g.sectOff 3 + 64 * x.1, 64))

/-- A frame that R326 or R368 holds: every trick of the planned frame is recorded as misdealt with RUN 0, and L increases by 1; `left` is the cycles that this frame holds. (DEDUCED: log 53) -/
def State.holdFrame (s : State) (p k cause left : Nat) : State :=
  let g := s.img p
  let s := s.lagUp p
  let lag := s.fld p PROV_PLAN_LAG_LAG
  (g.deals (g.frame k)).foldl (fun s x =>
    let die := (s.unitAt p x.2).1
    s.logMisdeal p die (misdealRec p s.frame die cause 0 left lag { pframe := k, trick := x.1, home := x.2 } x.2)) s

/-- The items of a planned frame, in DEALS order (R231, R238). -/
def State.frameItems (s : State) (p k : Nat) : List DealItem :=
  let g := s.img p
  (g.deals (g.frame k)).map (fun x => { pframe := k, trick := x.1, home := x.2 })

/-- What the step state says of a planned frame that is due (R326, R368): dealt, run empty, or held with a cause. -/
inductive Gate where
  | deal
  | empty
  | hold (cause : Nat)
deriving DecidableEq, Repr

/-- Whether the layer-norm collective of the current step is still at work (R368). -/
def State.lnormPending (s : State) (p : Nat) : Bool :=
  (s.prov p).colls.any (fun c => c.step == s.stepNo p && bitAt ((s.img p).coll c.idx).flags 7)

/-- The gate of planned frame `k`. -/
def State.gate (s : State) (p k : Nat) : Gate :=
  let g := s.img p
  let st := s.stepState p
  if g.firstOfNext k ∧ st ≠ ST_COMMITTED ∧ st ≠ ST_SKIPPED then (if st = ST_VERIFIED then .hold 1 else .hold 3)
  else if g.isCommit k then
    if st = ST_SKIPPED then .empty
    else if st = ST_OPEN ∨ st = ST_REDUCED then .hold 3
    else if s.lnormPending p then .hold 3
    else .deal
  else .deal

/-- The step index begins, or goes on, with the first planned frame of a step (R322, R323). -/
def State.stepTurn (s : State) (p k : Nat) : State :=
  let g := s.img p
  if k = g.prologue then s.openStep p (s.prov p).startStep true
  else if g.firstOfNext k then s.openStep p (s.stepNo p + 1) false
  else s

/-- The last planned frame of a step is dealt (R325, R409): without a GRAD_LAST collective the step is REDUCED. -/
def State.lastDealt (s : State) (p k : Nat) : State :=
  let g := s.img p
  if !g.lastOfStep k then s
  else
    (if (s.prov p).gradLast.isNone && !(List.range g.ncoll).any (fun i => (g.coll i).gradLast) then s.reduceStep p else s).noVerdict p

/-- Collectives of a frame become due (R406). (DEDUCED: log 55) -/
def State.dueColls (s : State) (p k : Nat) : State :=
  let g := s.img p
  (g.collStarts (g.frame k)).foldl (fun s i =>
    let pr := s.prov p
    s.setProv p { pr with colls := pr.colls ++ [{ idx := i, order := pr.collSeq, pframe := k, step := s.stepNo p }], collSeq := pr.collSeq + 1 }) s

/-- Planned frame `k` is dealt (R238, R325): its tricks go into their home queues and free tiles take work. -/
def State.dealFrame (s : State) (p k left : Nat) (empty : Bool) : State :=
  let s := s.stepTurn p k
  let s := s.setProv p { (s.prov p) with cur := some k, k := k + 1, items := if empty then [] else s.frameItems p k, spanLeft := 0, spanLen := 1 }
  let s := if empty then s else s.dueColls p k
  (s.dealAll p left).lastDealt p k

/-- The next planned frame is offered (R36, R230, R326), its entries mended where they are poisoned (R274); a pause that R354 asks for comes before the first frame of the next step is dealt. `fuel` bounds the slack frames that L lets a
boundary skip. -/
def State.offer (s : State) (p left : Nat) : Nat → State
  | 0 => s
  | fuel + 1 =>
    let pr := s.prov p
    let k := pr.k
    let s := s.mendAtlas p (s.unitAt p 0).1 [] ((s.img p).fetchSpans k)
    let g := s.img p
    if pr.skipPause ∧ g.firstOfNext k then ((s.setProv p { pr with skipPause := false, items := [] }).setPState p .paused).lagUp p
    else if (g.frame k).slack ∧ s.fld p PROV_PLAN_LAG_LAG ≠ 0 ∧ s.gate p k = .deal then
      let s := (s.stepTurn p k).setFld p PROV_PLAN_LAG_LAG (s.fld p PROV_PLAN_LAG_LAG - 1)
      State.offer (((s.setProv p { (s.prov p) with cur := some k, k := k + 1, items := [] })).lastDealt p k) p left fuel
    else match s.gate p k with
      | .deal => s.dealFrame p k left false
      | .empty => s.dealFrame p k left true
      | .hold c => (s.setProv p { pr with items := [] }).holdFrame p k c left

/-- A re-deal frame (R246–R248): the misdealt tricks are dealt in a span of the largest of their lengths; dies without a misdealt trick have
already started the next planned frame, whose tricks the exchange of summaries recalls. (DEDUCED: log 54) -/
def State.redeal (s : State) (p left : Nat) : State :=
  let pr := s.prov p
  let n := pr.items.foldl (fun m i => max m i.span) 1
  let dies := pr.items.map (fun i => (s.unitAt p i.home).1)
  let s := (s.setProv p { pr with spanLeft := n, spanLen := n }).dealAll p left
  let g := s.img p
  if (g.frame pr.k).slack ∨ s.gate p pr.k ≠ .deal then s
  else
    let own := s.prov p
    let next := (s.frameItems p pr.k).filter (fun i => !dies.contains (s.unitAt p i.home).1)
    let s := (s.setProv p { own with items := next, cur := some pr.k }).dealAll p left
    let tent := (s.prov p).items.filter (fun i => match i.st with | .queued => false | _ => true)
    s.setProv p { (s.prov p) with items := own.items, cur := own.cur, tent := tent }

/-- What a Dealer started before it knew of a misdeal is recalled, with no record and no courier write (R246). (DESIGN CHOICE: log 52) -/
def State.recall (s : State) (p : Nat) : State :=
  let s := (s.prov p).tent.foldl (fun s i => match i.st with | .running tile => s.stopTile tile | _ => s) s
  s.setProv p { (s.prov p) with tent := [] }

/-- MISDEAL_SUMMARY_EXCHANGE (R246): every Dealer treats the frame as a re-deal frame. (DESIGN CHOICE: log 52) -/
def execMisdealSummaryExchange (prov : Nat) (s : State) : Res := .next (s.recall prov)

/-- Whether the trick on a tile is one that the exchange of misdeal summaries may still recall. (DESIGN CHOICE: log 52) -/
def State.tentative (s : State) (c : TrickCtx) : Bool :=
  (s.prov c.prov).tent.any (fun i => i.trick == c.trick && i.pframe == c.pframe)

/-- Whether the trick on a tile is over (R84, R176, R217): every started seat DONE, the array and vector queues empty. -/
def Tile.finished (t : Tile) (c : TrickCtx) : Bool :=
  (List.range 8).all (fun n => !bitAt c.started n || (t.seat n).st == .done) && t.aq.isEmpty && t.fly.all (fun a => opcOf a.insn != 0x21) && t.vq.isEmpty

/-- A trick completes (R35, R84, R217, R298): what it held is released, its tile is free and its entry in the frame's list is complete. -/
def State.completeTrick (s : State) (tile : Nat) (c : TrickCtx) : State :=
  let s := s.releaseCourier tile c
  let s := s.withdrawTakes tile
  let t := (List.range 8).foldl (fun t n => t.setSeat n { (t.seat n) with st := .idle }) (s.tile tile)
  let s := s.setTile tile { t with trick := none, banks := [], fly := [] }
  let pr := s.prov c.prov
  let pr := { pr with
    items := pr.items.map (fun i => if i.trick = c.trick ∧ i.pframe = c.pframe then { i with st := .complete, attempts := 0, span := 1 } else i),
    mbDone := if c.bwdEnd && pr.items.any (fun i => i.trick == c.trick && i.pframe == c.pframe) then pr.mbDone ++ [⟨c.pro, c.step, c.mbatch, s.frame⟩] else pr.mbDone }
  s.setProv c.prov pr

/-- TRICK_COMPLETE (R35, R84, R217, R239, R298): what the trick held is released, and the tile takes its next work; `left` is the cycles before
the next boundary. -/
def execTrickComplete (tile left : Nat) (s : State) : Res :=
  onTile tile (
    let t := s.tile tile
    match t.trick with
    | none => s
    | some c => if !t.finished c ∨ s.tentative c then s else (s.completeTrick tile c).onFree c.prov tile left)

/-- One program is loaded into a tile's program store (R232, R236). -/
def Tile.loadProg (t : Tile) (first : Nat) (code : List Nat) : Tile :=
  { t with prog := code.zipIdx.foldl (fun m w => Sparse.set 0 m (first + w.2) (BitVec.ofNat 64 w.1)) t.prog }

/-- Whether every trick of the running planned frame on a die has ended. -/
def State.dieEnded (s : State) (p die : Nat) : Bool :=
  (s.prov p).items.all (fun i => i.st == .complete || i.st == .faulted || (s.unitAt p i.home).1 != die)

/-- PROGRAM_LOAD (R236, R237, R274): the loads of the tile's next planned frame that has any, once every trick of earlier planned frames that it may
run has ended; the tile may then start its tricks. -/
def execProgramLoad (tile left : Nat) (s : State) : Res :=
  onTile tile (
    let p := s.ownerOfTile tile
    let pr := s.prov p
    let t := s.tile tile
    match s.idxOf p tile with
    | some idx =>
      if !pr.loaded ∨ (pr.st ≠ .running ∧ pr.st ≠ .sealed_) ∨ t.trick.isSome then s
      else
        let lim := match pr.cur with | some k => if s.dieEnded p (dieOfTile tile) then k + 1 else k | none => 0
        match ((List.range (lim + 1 - t.loadedFor)).map (fun i => t.loadedFor + i)).find? (fun k => !(s.loadsFor p idx k).isEmpty) with
        | some k =>
          let spans := (s.loadsFor p idx k).map (fun i => (atlasBase + ((s.img p).prog i).off, 8 * ((s.img p).prog i).n))
          if !s.hbmOpen p 0 spans then s else
          let s := s.mendAtlas p (dieOfTile tile) [] spans
          let g := s.img p
          let t := (s.loadsFor p idx k).foldl (fun t i => t.loadProg (g.prog i).first (g.code (g.prog i))) t
          (s.setTile tile { t with loadedFor := k + 1 }).onFree p tile left
        | none => s
    | none => s)

/-- ATLAS_FRAME_FETCH (R238, R266, R274): a Dealer reads the next planned frame's entries in read slots. Poison there is mended. -/
def execAtlasFrameFetch (die prov : Nat) (host : List (Nat × Byte)) (s : State) : Res :=
  if 8 ≤ die then .fault .noSuchUnit
  else
    let pr := s.prov prov
    if !pr.loaded ∨ !s.hbmOpen prov 0 ((s.img prov).fetchSpans pr.k) then .next s else .next (s.mendAtlas prov die host ((s.img prov).fetchSpans pr.k))

/-- RESET's effect on what a province has under way (R49, R299, R311, R315): its tricks, collectives, GSYNC instances and chains are discarded,
its Talons filled again, its programs loaded again from planned frame 0 on (R236, R237); HBM keeps its contents. -/
def State.discardWork (s : State) (p : Nat) : State :=
  let s := (s.tilesOf p).foldl (fun s t =>
    let s := if (s.tile t).trick.isSome then s.stopTile t else s
    s.setTile t { (s.tile t) with waitChains := [], loadedFor := 0 }) s
  let s := s.bulks.foldl (fun s b => if b.2.queue.any (fun j => j.ctx.prov == p) then
    s.setBulk b.1 { (s.bulk b.1) with st := .idle, queue := (s.bulk b.1).queue.filter (fun j => j.ctx.prov != p) } else s) s
  let s := s.resubmitAll
  let pr := s.prov p
  s.setProv p { pr with
    items := [], tent := [], cur := none, k := 0, spanLeft := 0, spanLen := 1, pauseReq := false, skipPause := false, gsync := [], anns := [],
    cut := none, colls := [], mcDone := [], patches := [], commitFault := false, early := [], sendHold := false, outQ := [], mbDone := [], reducedAt := none, gradLast := none, verdict := none,
    ledgerNf := false, ledgerStop := false, ledgerDone := false, satSum := 0 }

/-- The steward fills a province's Talons from the fill table of the loaded Atlas, in list order; a Talon it does not name is emptied (R304,
R315). -/
def State.fillTalons (s : State) (p : Nat) : State :=
  let g := s.img p
  let base := g.chainOff + g.fillOff
  (List.range 8).foldl (fun s i => match s.talonOf p i with
    | some n =>
      let rows := if (s.prov p).loaded then (List.range g.nfill).filter (fun r => g (base + 16 * r) 1 == i) else []
      s.setTalon n { handles := rows.flatMap (fun r => (List.range (g (base + 16 * r + 2) 2)).map (fun j => g (g.chainOff + g (base + 16 * r + 8) 8 + 4 * j) 4)) }
    | none => s) s

end Sys2Proof.Machine
end

