-- ==== Sys2Proof/Machine/Special.lean ====
section
/-! DEFINITION. The special functions (R153, R154): each is computed in integer fixed point with far more bits than binary32 holds and
rounded once, so its result is the binary32 value nearest to the exact one. -/
namespace Sys2Proof.Machine

/-- Fraction bits of the fixed-point evaluation. -/
def FX : Nat := 320
/-- π, ln 2 and 2/√π with 600 fraction bits (mathematical constants). -/
def piFx : Nat := 0x3243f6a8885a308d313198a2e03707344a4093822299f31d0082efa98ec4e6c89452821e638d01377be5466cf34e90c6cc0ac29b7c97c50dd3f84d5b5b54709179216d5d98979fb1bd1310b
def ln2Fx : Nat := 0xb17217f7d1cf79abc9e3b39803f2f6af40f343267298b62d8a0d175b8baafa2be7b876206debac98559552fb4afa1b10ed2eae35c138214427573b291169b8253e96ca16224ae8c51acbda
def twoOverSqrtPiFx : Nat := 0x120dd750429b6d11ae3a914fed7fd8688281341d7587cea2e7342b06199cc416180eb39f0b24e1e2281806c12d98f35d77a3e9ddc91c394f0e9eedf0efffd84a2a4ac3b98489b8cbd3845e8
/-- ln 2 at `FX` fraction bits. -/
def ln2 : Nat := ln2Fx / 2 ^ 280

/-- `Σ r^k / k!` from term `k` on, at `FX` fraction bits. -/
def expGo (r : Nat) : Nat → Nat → Nat → Nat → Nat
  | 0, _, _, acc => acc
  | f + 1, k, t, acc => let t' := t * r / 2 ^ FX / k; expGo r f (k + 1) t' (acc + t')

/-- `e^r` for `0 ≤ r < 1`. -/
def expFx (r : Nat) : Nat := expGo r 90 1 (2 ^ FX) (2 ^ FX)

/-- `x` as a signed fixed-point number. -/
def toFx (n : Bool) (m : Nat) (e : Int) : Int :=
  let a : Nat := if 0 ≤ e + FX then shl m (e + FX) else m / 2 ^ (-(e + FX)).toNat
  if n then -(a : Int) else a

/-- `e^x` as a mantissa and an exponent, for `|x| < 2^10`. -/
def expPair (x : Int) : Nat × Int :=
  let n := x / (ln2 : Int)
  (expFx (x - n * ln2).toNat, n - FX)

/-- `2^x` likewise. -/
def exp2Pair (x : Int) : Nat × Int :=
  let n := x / ((2 ^ FX : Nat) : Int)
  (expFx ((x - n * (2 ^ FX : Nat)).toNat * ln2 / 2 ^ FX), n - FX)

/-- `Σ z^(2i+1)/(2i+1)` (signed). -/
def atanhGo (z2 : Int) : Nat → Nat → Int → Int → Int
  | 0, _, _, acc => acc
  | f + 1, k, p, acc => let p' := p * z2 / (2 ^ FX : Nat); atanhGo z2 f (k + 2) p' (acc + p' / k)

/-- The binary exponent `k` and `ln y` with `m · 2^e = y · 2^k`, `0.75 ≤ y < 1.5`. -/
def lnParts (m : Nat) (e : Int) : Int × Int :=
  let l := bitLen m
  let low := decide (m * 4 < 3 * 2 ^ l)
  let k : Int := (if low then (l : Int) - 1 else l) + e
  let one : Int := if low then (2 ^ (l - 1) : Nat) else (2 ^ l : Nat)
  let z := (((m : Int) - one) * (2 ^ FX : Nat)) / ((m : Int) + one)
  (k, 2 * atanhGo (z * z / (2 ^ FX : Nat)) 80 3 z z)

/-- `Σ (±) t_k` with `t_k = t_(k-1) · r² / ((k+1)(k+2))`: the sine and cosine series. -/
def trigGo (r2 : Nat) : Nat → Nat → Nat → Bool → Int → Int
  | 0, _, _, _, acc => acc
  | f + 1, k, t, s, acc =>
    let t' := t * r2 / 2 ^ FX / ((k + 1) * (k + 2))
    trigGo r2 f (k + 2) t' (!s) (if s then acc - t' else acc + t')

def sinFx (r : Nat) : Int := trigGo (r * r / 2 ^ FX) 50 1 r true r
def cosFx (r : Nat) : Int := trigGo (r * r / 2 ^ FX) 50 0 (2 ^ FX) true (2 ^ FX : Nat)

/-- The quadrant of `|x|` and its remainder after multiples of π/2. -/
def quadrant (m : Nat) (e : Int) : Nat × Nat :=
  let x := if 0 ≤ e + 600 then shl m (e + 600) else m / 2 ^ (-(e + 600)).toNat
  let h := piFx / 2
  (x / h % 4, x % h / 2 ^ 280)

/-- `Σ (−x²)^n / (n! (2n+1))`, the erf series without its factors. -/
def erfGo (x2 : Nat) : Nat → Nat → Nat → Bool → Int → Int
  | 0, _, _, _, acc => acc
  | f + 1, n, q, s, acc =>
    let q' := q * x2 / 2 ^ FX / n
    let t : Int := q' / (2 * n + 1)
    erfGo x2 f (n + 1) q' (!s) (if s then acc - t else acc + t)

/-- `|v| < 2^k`. -/
def magLt (m : Nat) (e : Int) (k : Int) : Bool := decide ((bitLen m : Int) + e ≤ k)

/-- `1/√(m · 2^e)` with a sticky bit. -/
def rsqrtVal (m : Nat) (e : Int) : Val :=
  let m' := if e % 2 = 0 then m else 2 * m
  let e' := if e % 2 = 0 then e else e - 1
  let k := 160 + bitLen m'
  let s := isqrt (2 ^ (2 * k) / m')
  .fin false (2 * s + (if m' * s * s = 2 ^ (2 * k) then 0 else 1)) (-(k : Int) - 1 - e' / 2)

/-- `√(m · 2^e)` with a sticky bit. -/
def sqrtVal (m : Nat) (e : Int) : Val :=
  let m' := if e % 2 = 0 then m else 2 * m
  let e' := if e % 2 = 0 then e else e - 1
  let n := m' * 2 ^ 200
  let s := isqrt n
  .fin false (2 * s + (if s * s = n then 0 else 1)) (e' / 2 - 101)

/-- A value far above binary32's range, and one far below its smallest subnormal. -/
def hugeVal : Val := .fin false 1 1000
def tinyVal : Val := .fin false 1 (-1000)

/-- The exact result (to the precision above) of special function `code` on a finite, non-zero input, and its own events. -/
def specialFin (code : Nat) (n : Bool) (m : Nat) (e : Int) : Val × Ev :=
  let big := !magLt m e 8
  let x := toFx n m e
  match code with
  | 0x10 => (Val.one.div (.fin n m e))
  | 0x11 => if n then (.nan, { inv := true }) else (rsqrtVal m e, {})
  | 0x12 => if n then (.nan, { inv := true }) else (sqrtVal m e, {})
  | 0x13 => if big then (if n then tinyVal else hugeVal, {}) else let p := expPair x; (.fin false p.1 p.2, {})
  | 0x14 => if big then (if n then tinyVal else hugeVal, {}) else let p := exp2Pair x; (.fin false p.1 p.2, {})
  | 0x15 =>
    if n then (.nan, { inv := true })
    else let p := lnParts m e; (Val.ofInt false (p.1 * ln2 + p.2) (-(FX : Int)), {})
  | 0x16 =>
    if n then (.nan, { inv := true })
    else let p := lnParts m e; (Val.ofInt false (p.1 * (2 ^ FX : Nat) + p.2 * (2 ^ FX : Nat) / ln2) (-(FX : Int)), {})
  | 0x17 =>
    if magLt m e (-13) then (.fin n m e, {})
    else if !magLt m e 5 then (.fin n 1 0, {})
    else
      let p := expPair (toFx false (2 * m) e)
      let ee := shl p.1 (p.2 + FX)
      let q := quot 200 (ee - 2 ^ FX) (ee + 2 ^ FX)
      (.fin n q.1 q.2, {})
  | 0x18 =>
    if big then (if n then tinyVal else Val.one, {})
    else
      let p := expPair (toFx true m e)
      let o := shl 1 (-p.2)
      let q := if n then quot 200 p.1 (o + p.1) else quot 200 o (o + p.1)
      (.fin false q.1 q.2, {})
  | 0x19 =>
    if !magLt m e 2 then (.fin n 1 0, {})
    else
      let xa := (toFx false m e).toNat
      let r := erfGo (xa * xa / 2 ^ FX) 170 1 (2 ^ FX) true (2 ^ FX : Nat)
      (.fin n (m * r.toNat * twoOverSqrtPiFx) (e - FX - 600), {})
  | 0x1A =>
    if magLt m e (-12) then (.fin n m e, {})
    else
      let q := quadrant m e
      let v := if q.1 % 2 = 0 then sinFx q.2 else cosFx q.2
      (Val.ofInt false (if (decide (q.1 ≥ 2)) != n then -v else v) (-(FX : Int)), {})
  | 0x1B =>
    if magLt m e (-13) then (Val.one, {})
    else
      let q := quadrant m e
      let v := if q.1 % 2 = 0 then cosFx q.2 else sinFx q.2
      (Val.ofInt false (if q.1 = 1 ∨ q.1 = 2 then -v else v) (-(FX : Int)), {})
  | _ => (.nan, {})

/-- Special function `code` (0x10–0x1B) on a binary32 word (R154). -/
def special32 (code : Nat) (a : W32) : W32 × Ev :=
  match f32 a with
  | .nan => (nan32, { nanIn := true })
  | .inf n =>
    match code with
    | 0x10 => (rne32 (.fin n 0 0), {})
    | 0x11 | 0x12 | 0x15 | 0x16 =>
      if n then (nan32, { inv := true }) else if code = 0x11 then (0#32, {}) else (rne32 (.inf false), {})
    | 0x13 | 0x14 => (if n then 0#32 else rne32 (.inf false), {})
    | 0x17 | 0x19 => (rne32 (.fin n 1 0), {})
    | 0x18 => (if n then 0#32 else rne32 .one, {})
    | _ => (nan32, { inv := true })
  | .fin n 0 _ =>
    match code with
    | 0x10 | 0x11 => (rne32 (.inf n), { dz := true })
    | 0x12 | 0x17 | 0x19 | 0x1A => (rne32 (.fin n 0 0), {})
    | 0x13 | 0x14 | 0x1B => (rne32 .one, {})
    | 0x15 | 0x16 => (rne32 (.inf true), { dz := true })
    | 0x18 => (rne32 (.fin false 1 (-1)), {})
    | _ => (nan32, {})
  | .fin n m e =>
    let r := specialFin code n m e
    let o := round32 .rne r.1
    (o.1, o.2.or r.2)

/-- EXP of R154, for the softmax rules. -/
def exp32 (a : W32) : W32 × Ev := special32 0x13 a

/-- `b` truncated toward zero and clamped to −300–300 (SCALE, R149). -/
def scaleExp (b : Val) : Int :=
  match b with
  | .nan => 0
  | .inf n => if n then -300 else 300
  | .fin n m e =>
    let t : Nat := if 0 ≤ e then shl m (min e 400) else m / 2 ^ (-e).toNat
    let t' : Int := min t 300
    if n then -t' else t'

/-- SCALE of R149 and R150. -/
def scale32 (a b : W32) : W32 × Ev :=
  if (f32 b).isNan then (nan32, { inv := true, nanIn := true })
  else finish32 (f32 a).isNan ((f32 a).scale (scaleExp (f32 b))) {}

/-- One element of a VOP function (R149, R150): operands `a`, `b`, `c`. -/
def vopFn (code : Nat) (a b c : W32) : W32 × Ev :=
  let na := (f32 a).isNan
  let nb := (f32 b).isNan
  match code with
  | 0x00 => (canon32 a, { nanIn := na })
  | 0x01 => add32 a b
  | 0x02 => sub32 a b
  | 0x03 => mul32 a b
  | 0x04 => fma32 a b c
  | 0x05 => fms32 a b c
  | 0x06 => (min32 a b, { nanIn := na || nb })
  | 0x07 => (max32 a b, { nanIn := na || nb })
  | 0x08 => (abs32 a, { nanIn := na })
  | 0x09 => (neg32 a, { nanIn := na })
  | 0x0A => (if (f32 a).lt (f32 b) then rne32 .one else 0#32, { nanIn := na || nb })
  | 0x0B => (if (f32 a).le (f32 b) then rne32 .one else 0#32, { nanIn := na || nb })
  | 0x0C => (if (f32 a).eqv (f32 b) then rne32 .one else 0#32, { nanIn := na || nb })
  | 0x0D => (canon32 (if (f32 c).isZero then b else a), { nanIn := na || nb || (f32 c).isNan })
  | 0x0E => scale32 a b
  | 0x0F => (min32 (max32 a b) c, { nanIn := na || nb || (f32 c).isNan })
  | 0x1C => div32 a b
  | _ => special32 code a

/-- The operands a VOP function uses (a; a and b; a, b and c). -/
def vopArity (code : Nat) : Nat :=
  if code = 0x04 ∨ code = 0x05 ∨ code = 0x0D ∨ code = 0x0F then 3
  else if code = 0x00 ∨ code = 0x08 ∨ code = 0x09 ∨ (0x10 ≤ code ∧ code ≤ 0x1B) then 1
  else 2

end Sys2Proof.Machine
end

