-- ==== Sys2Proof/Machine/AtlasCheck.lean ====
section
/-! DEFINITION. The checks of an Atlas load (R235–R236, R350, R363, R415, R423): read from the copy, as it would lie once mapped. Each part
answers whether its rules hold. -/
namespace Sys2Proof.Machine

/-- Bytes that are reserved read 0. -/
def Img.zero (g : Img) (off n : Nat) : Bool := (List.range n).all (fun i => g (off + i) 1 == 0)

/-- An extent lies in DATA, of `top` bytes (R261). -/
def inData (top a n : Nat) : Bool := n == 0 || decide (a + n ≤ top)

/-- All of a list of rules hold. -/
def allOk (l : List Bool) : Bool := l.all (fun b => b)

/-- Every index below `n` satisfies a rule. -/
def upTo (n : Nat) (f : Nat → Bool) : Bool := (List.range n).all f

/-- A list without repeats. -/
def noRepeat (l : List Nat) : Bool := decide (l.eraseDups.length = l.length)

/-- The header (R227). -/
def Img.headOk (g : Img) (top : Nat) : Bool :=
  allOk [g 10 2 == 256, g.zero 12 4, g.ntiles % 16 == 0, decide (1 ≤ g.nranks), decide (g.nranks ≤ 131072), decide (2 ≤ g.fanin), decide (g.fanin ≤ 64),
    g.zero 90 2, decide (1 ≤ g.body), g.zero 109 3, g.mdlogBase % 32 == 0, decide (1 ≤ g.mdlogSize), decide (g.mdlogSize ≤ 2 ^ 24),
    inData top g.mdlogBase (32 * g.mdlogSize), g.zero 168 88, bits (g 156 4) 5 3 == 0, bits (g 156 4) 13 3 == 0, bits (g 156 4) 21 11 == 0,
    upTo 8 (fun i => !bitAt g.legmask i || bits (g.legend (8 + i)) 22 9 == 0),
    bits (g 164 4) 12 4 == 0, bits (g 164 4) 28 4 == 0]

/-- The section table (R228, R235): aligned, inside the image, apart from each other and from header and table, every type once, no unknown
section that may not be ignored, sections 1–5 present. (DEDUCED: log 49) -/
def Img.sectsOk (g : Img) : Bool :=
  let l := g.sects
  let ivs := (0, 256 + 16 * g.nsect) :: l.map (fun x => (x.off, x.off + x.size))
  allOk [l.all (fun x => x.off % 64 == 0 && decide (x.off + x.size ≤ g.size) && (x.known || x.ign)),
    upTo ivs.length (fun i => upTo i (fun j =>
      let a := ivs.getD i (0, 0)
      let b := ivs.getD j (0, 0)
      decide (a.2 ≤ b.1) || decide (b.2 ≤ a.1) || a.1 == a.2 || b.1 == b.2)),
    noRepeat (l.map Sect.ty), (List.range 5).all (fun i => (g.sect (i + 1)).isSome)]

/-- The size of a section, 0 with none. (DEDUCED: log 49) -/
def Img.sectSize (g : Img) (ty : Nat) : Nat := ((g.sect ty).map Sect.size).getD 0

/-- Counts of entries. -/
def Img.ndeal (g : Img) : Nat := g.sectSize 2 / 8
def Img.ntrick (g : Img) : Nat := g.sectSize 3 / 64
def Img.nprog (g : Img) : Nat := g.sectSize 4 / 16
def Img.nload (g : Img) : Nat := g.sectSize 5 / 4

/-- One frame-map entry (R229–R231). A run of no entries selects nothing, wherever it starts (DEDUCED). (DEDUCED: log 50) -/
def Img.frameOk (g : Img) (i : Nat) : Bool :=
  let o := g.sectOff 1 + 32 * i
  let f := g.frameAt i
  let homes := (g.deals f).map Prod.snd
  allOk [f.flags / 2 == 0, g.zero (o + 24) 8, f.dealN == 0 || decide (f.dealOff + f.dealN ≤ g.ndeal), f.loadN == 0 || decide (f.loadOff + f.loadN ≤ g.nload),
    f.collN == 0 || ((g.sect 6).isSome && decide (f.collOff + f.collN ≤ g.nstart)),
    !f.slack || (f.dealN == 0 && f.loadN == 0 && f.collN == 0), homes.all (fun h => decide (homes.count h ≤ 64))]

/-- A deal (R231), a program (R232), a program load (R232). -/
def Img.dealOk (g : Img) (i : Nat) : Bool :=
  let o := g.sectOff 2 + 8 * i
  decide (g o 4 < g.ntrick) && decide (g (o + 4) 2 < g.ntiles) && g.zero (o + 6) 2
def Img.progOk (g : Img) (i : Nat) : Bool :=
  let p := g.prog i
  allOk [decide (1 ≤ p.n), decide (p.n ≤ 4096), decide (p.first + p.n ≤ 4096), decide (p.off + 8 * p.n ≤ g.size), g.zero (g.sectOff 4 + 16 * i + 12) 4]
def Img.loadOk (g : Img) (i : Nat) : Bool :=
  let o := g.sectOff 5 + 4 * i
  decide (g o 2 < g.nprog) && (g (o + 2) 2 == 0xFFFF || decide (g (o + 2) 2 < g.ntiles))

/-- A trick descriptor (R233, R234). (DEDUCED: log 51) -/
def Img.trickOk (g : Img) (i : Nat) : Bool :=
  let o := g.sectOff 3 + 64 * i
  let d := g.trick i
  allOk [d.id == i, decide (d.prog < g.nprog), g (o + 10) 1 / 4 == 0, g.zero (o + 11) 1, g.zero (o + 19) 1, decide (d.first ≤ d.last),
    bits d.accCtrl (TILE_ACC_CTRL_ACC_ROUND).lo (TILE_ACC_CTRL_ACC_ROUND).width != 3,
    upTo 8 (fun n => !bitAt d.seats n || (decide (d.first ≤ d.entry.getD n 0) && decide (d.entry.getD n 0 ≤ d.last)))]

/-- The program loads of planned frame `k` onto a tile index, in order (R232). -/
def Img.loadsOn (g : Img) (idx k : Nat) : List Nat := ((g.loads (g.frame k)).filter (fun l => l.2 == idx || l.2 == 0xFFFF)).map Prod.fst

/-- The word a program holds at a program-store entry. -/
def Img.wordOf (g : Img) (prog e : Nat) : Option Nat :=
  let p := g.prog prog
  if p.first ≤ e ∧ e < p.first + p.n then some (g (p.off + 8 * (e - p.first)) 8) else none

/-- The word that the loads up to and including planned frame `k` leave at entry `e` of a tile index (R236). -/
def Img.storeAt (g : Img) (idx k e : Nat) : Option Nat :=
  (List.range (k + 1)).foldl (fun w j => (g.loadsOn idx j).foldl (fun w l => match g.wordOf l e with | some x => some x | none => w) w) none

/-- The program of a trick is resident on a tile index in planned frame `k` (R236). -/
def Img.resident (g : Img) (k idx : Nat) (d : TrickDesc) : Bool :=
  upTo (d.last + 1 - d.first) (fun i => match g.wordOf d.prog (d.first + i) with
    | some w => g.storeAt idx k (d.first + i) == some w
    | none => false)

/-- Residency and steal groups in planned frame `k` (R236). -/
def Img.residentAt (g : Img) (k : Nat) : Bool :=
  let ds := (g.deals (g.frame k)).map (fun x => (g.trick x.1, x.2))
  ds.all (fun x => g.resident k x.2 x.1) &&
  ds.all (fun x => x.1.pin || ds.all (fun y => y.1.pin || y.1.group != x.1.group || (y.1.prog == x.1.prog && g.resident k y.2 x.1)))

/-- Sections 1–5 and 8 (R229–R236). (DEDUCED: log 50) -/
def Img.dealPartOk (g : Img) : Bool :=
  allOk [g.sectSize 1 == 32 * (g.prologue + g.body), g.sectSize 2 % 8 == 0, g.sectSize 3 % 64 == 0, g.sectSize 5 % 4 == 0,
    (g.sect 8).isNone || g.sectSize 8 == 16384,
    (g.sect 8).isNone || upTo 4096 (fun o => let w := g (g.sectOff 8 + 4 * o) 4; bits w 0 2 != 3 && bits w 2 14 == 0),
    upTo (g.prologue + g.body) g.frameOk, upTo g.ndeal g.dealOk, upTo g.nprog g.progOk, upTo g.nload g.loadOk, upTo g.ntrick g.trickOk,
    upTo (g.prologue + 2 * g.body) g.residentAt]

/-- The CHAINS section's reserved fields and ranges (R304, R235). (DEDUCED: log 68) -/
def Img.chainsOk (g : Img) : Bool :=
  (g.sect 7).isNone ||
  allOk [decide (1 ≤ g.nchain), decide (g.nchain ≤ 65536), decide (g.nfill ≤ 8), g.zero (g.chainOff + 10) 54,
    upTo g.nchain (fun i => let o := g.chainOff + 64 + 16 * i
      allOk [decide (1 ≤ g (o + 4) 2), decide (g (o + 4) 2 ≤ 256), decide (g o 4 + g (o + 4) 2 ≤ g (g.chainOff + 4) 4), g (o + 7) 1 / 4 == 0, g.zero (o + 9) 3]),
    upTo g.nfill (fun i => let o := g.chainOff + g.fillOff + 16 * i
      allOk [g.zero (o + 1) 1, decide (g (o + 2) 2 ≤ 1024), g.zero (o + 4) 4, decide (g (o + 8) 8 + 4 * g (o + 2) 2 ≤ g.sectSize 7)]),
    decide (g.descOff + 64 * g (g.chainOff + 4) 4 ≤ g.sectSize 7),
    upTo (g (g.chainOff + 4) 4) (fun i => let o := g.chainOff + g.descOff + 64 * i; g (o + 1) 1 / 128 == 0 && g.zero (o + 5) 3 && g.zero (o + 36) 4)]

/-- Whether the Atlas declares a Legend entry with VALID 1 (R350). -/
def Img.declares (g : Img) (n : Nat) : Bool := bitAt g.legmask (n - 8) && bitAt (g.legend n) 31

/-- The LEDGER section (R350). -/
def Img.ledgerOk (g : Img) (top : Nat) : Bool :=
  let o := g.sectOff 10
  (g.sect 10).isNone ||
  allOk [decide (g.nrec ≤ 65536), decide (1 ≤ g.ledH), decide (g.ledH ≤ 32), decide (g.coldExtra ≤ 15), g.zero (o + 6) 2, g.ledgerBase % 128 == 0,
    g.pendingBase % 64 == 0, decide (1 ≤ g.ncell), decide (g.ncell ≤ 65536), g.zero (o + 28) 4, g.tallyBase % 64 == 0, g.verdictBase % 64 == 0,
    g.steplogBase % 32 == 0, decide (1 ≤ g.steplogSize), decide (g.steplogSize ≤ 2 ^ 20), g.zero (o + 60) 4, decide (64 + 16 * g.nrec ≤ g.sectSize 10),
    inData top g.ledgerBase (128 * g.nrec), inData top g.pendingBase (64 * g.nrec), inData top g.tallyBase (64 * g.ncell),
    inData top g.verdictBase 64, inData top g.steplogBase (32 * g.steplogSize),
    upTo g.nrec (fun i => let e := o + 64 + 16 * i
      allOk [decide (g e 1 ≤ 17), decide (g (e + 1) 1 ≤ 2), decide (g (e + 2) 1 ≤ 15), decide (g (e + 3) 1 ≤ 127), g.zero (e + 6) 10,
        decide (g e 1 < 8) || decide (15 < g e 1) || g.declares (g e 1)])]

/-- Fields of the TENSORS (R349, R318) and DROPOUT (R351) sections. -/
def Img.tensorsOk (g : Img) : Bool :=
  (g.sect 9).isNone ||
  allOk [g.zero (g.sectOff 9 + 4) 60, decide (64 + 32 * g.ntens ≤ g.sectSize 9),
    upTo g.ntens (fun i => let t := g.tensor i
      allOk [t.base % 64 == 0, t.rows % 16 == 0, t.cols % 16 == 0, decide (t.fmt ≤ 20), decide (t.cls ≤ 6), decide (t.resid ≤ 3), t.cls == 0 || t.resid == 0,
        decide (t.flags ≤ 1), t.ledger == 0xFFFFFFFF || decide (t.ledger < g.nrec), g.zero (g.sectOff 9 + 64 + 32 * i + 26) 6])]

/-- The dropout sites (R351). -/
def Img.nsite (g : Img) : Nat := match g.sect 12 with | some x => g x.off 4 | none => 0
def Img.siteOff (g : Img) (i : Nat) : Nat := g.sectOff 12 + 64 + 16 * i
def Img.dropoutOk (g : Img) : Bool :=
  (g.sect 12).isNone ||
  allOk [g.zero (g.sectOff 12 + 4) 60, decide (64 + 16 * g.nsite ≤ g.sectSize 12), noRepeat ((List.range g.nsite).map (fun i => g (g.siteOff i) 4)),
    upTo g.nsite (fun i => let o := g.siteOff i; decide (g (o + 4) 4 < g.ntens) && decide (g (o + 10) 1 ≤ 1) && g.zero (o + 11) 5)]

/-- Whether some dropout entry sets REGEN_REQ (R348). -/
def Img.needsRegen (g : Img) : Bool := (List.range g.nsite).any (fun i => bitAt (g (g.siteOff i + 10) 1) 0)

/-- The classes that a parameter-table entry asks of its eleven tensors (R362), and whether each is BF16. -/
def paramClass : List (Nat × Bool) := [(1, true), (2, false), (3, true), (3, true), (3, true), (3, true), (3, true), (3, true), (4, true), (4, true), (6, false)]

/-- `b` is the square of the finite binary32 `a` (R359), and a positive finite binary32 (R361). -/
def sqOk (a b : Nat) : Bool :=
  let x := f32 (BitVec.ofNat 32 a)
  (match x with | .fin _ _ _ => true | _ => false) && (mul32 (BitVec.ofNat 32 a) (BitVec.ofNat 32 a)).1.toNat == b
def posF32 (a : Nat) : Bool := match f32 (BitVec.ofNat 32 a) with | .fin n m _ => !n && decide (0 < m) | _ => false

/-- 1 − β rounded once (R361). -/
def ombOk (b o : Nat) : Bool := (sub32 (rne32 Val.one) (BitVec.ofNat 32 b)).1.toNat == o

/-- log2 β rounded once, or +0 (R361). -/
def log2Ok (b l : Nat) : Bool := l == 0 || (special32 0x16 (BitVec.ofNat 32 b)).1.toNat == l

/-- The blocks of a weight (R361, R362). -/
def blocksOf (w : Tensor) (b : Nat) : Nat := w.rows / max 1 b * (w.cols / max 1 b)

/-- The UPDATE section (R359–R363), checked for form. (DESIGN CHOICE: log 138) -/
def Img.updateOk (g : Img) : Bool :=
  let o := g.sectOff 11
  let ngroup := g o 4
  let nlr := g (o + 8) 1
  let nparam := g (o + 56) 4
  let gOff := o + up64 (64 + 16 * nlr)
  let pOff := gOff + up64 (96 * ngroup)
  (g.sect 11).isNone ||
  allOk [g.hasLedger, decide (1 ≤ ngroup), decide (ngroup ≤ 65535), decide (g (o + 4) 2 ≤ g (o + 6) 2), decide (g (o + 6) 2 < g.body), decide (1 ≤ nlr),
    decide (nlr ≤ 16), g.zero (o + 9) 7, g (o + 24) 8 % 64 == 0, g (o + 32) 8 % 16 == 0, g.zero (o + 60) 4,
    sqOk (g (o + 40) 4) (g (o + 44) 4), sqOk (g (o + 48) 4) (g (o + 52) 4),
    decide (pOff + 48 * nparam ≤ o + g.sectSize 11),
    upTo (nlr - 1) (fun i => decide (g (o + 64 + 16 * i) 8 < g (o + 80 + 16 * i) 8) &&
      g (o + 76 + 16 * i) 4 == (rne32 (Val.one.div (Val.ofInt false (g (o + 80 + 16 * i) 8 - g (o + 64 + 16 * i) 8 : Nat) 0)).1).toNat),
    g (o + 64 + 16 * (nlr - 1) + 12) 4 == 0,
    upTo ngroup (fun i => let e := gOff + 96 * i
      let opt := g e 1
      let pre := opt == 3
      let led := g (e + 4) 4
      allOk [decide (opt ≤ 3), if pre then g (e + 1) 1 == 2 || g (e + 1) 1 == 4 else g (e + 1) 1 == 0,
        if pre then decide (1 ≤ g (e + 2) 1) && decide (g (e + 2) 1 ≤ 32) else g (e + 2) 1 == 0, g.zero (e + 3) 1,
        posF32 (g (e + 24) 4), opt == 0 || ombOk (g (e + 8) 4) (g (e + 12) 4), ombOk (g (e + 16) 4) (g (e + 20) 4), log2Ok (g (e + 8) 4) (g (e + 32) 4),
        log2Ok (g (e + 16) 4) (g (e + 36) 4), !pre || ombOk (g (e + 48) 4) (g (e + 52) 4), !pre || posF32 (g (e + 56) 4),
        !pre || upTo g.ntens (fun x => let w := g.tensor x
          w.cls != 1 || w.layer != i || (w.rows % max 1 (g (e + 66) 2) == 0 && w.cols % max 1 (g (e + 66) 2) == 0)), decide (led < g.nrec) && g (g.sectOff 10 + 64 + 16 * led + 1) 1 == 1,
        if pre then decide (1 ≤ g (e + 64) 2) else g (e + 64) 2 == 0,
        if pre then g (e + 66) 2 % 16 == 0 && decide (16 ≤ g (e + 66) 2) && decide (g (e + 66) 2 ≤ 2048) else g (e + 66) 2 == 0, g.zero (e + 68) 28]),
    upTo nparam (fun i => let e := pOff + 48 * i
      let w := g.tensor (g e 4)
      let ge := gOff + 96 * w.layer
      let pre := g ge 1 == 3
      let b := g (ge + 66) 2
      let wire := g (g.sectOff 10 + 64 + 16 * g (ge + 4) 4) 1
      allOk [g.zero (e + 44) 4, decide (g e 4 < g.ntens), decide (w.layer < ngroup),
        upTo 11 (fun j => let x := g (e + 4 * j) 4
          let c := paramClass.getD j (0, false)
          let t := g.tensor x
          if j < 3 ∨ (j = 3 ∧ g ge 1 ≠ 0) ∨ pre then
            allOk [decide (x < g.ntens), t.cls == c.1, !c.2 || t.fmt == 16, j != 1 || t.fmt == wire, decide (j < 4) || decide (9 < j) || (t.rows == blocksOf w b * b && t.cols == b)]
          else x == 0xFFFFFFFF)]),
    upTo (g (o + 6) 2 + 1 - g (o + 4) 2) (fun i => !(g.frameAt (g.prologue + g (o + 4) 2 + i)).slack)]

/-- A table of ranks is a permutation of 0 to n − 1. -/
def isPerm (n : Nat) (l : List Nat) : Bool := decide (l.length = n) && noRepeat l && l.all (fun x => decide (x < n))

/-- A group table (R421, R423). -/
def Img.groupOk (g : Img) (d : CollDesc) : Bool :=
  let o := g.auxOff + d.aux
  let ng := g o 4
  let sz := g (o + 4) 4
  allOk [d.alg == 0, d.op != 8, !bitAt d.flags 7, g.zero (o + 8) 8, decide (2 ≤ sz), decide (sz ≤ g.nranks), ng * sz == g.nranks,
    isPerm g.nranks ((List.range (ng * sz)).map (fun i => g (o + 16 + 4 * i) 4))]

/-- The tables of point-to-point operations (R400, R404, R405): no two experts share a local slot of a rank, so none holds more than 16 (R427). -/
def State.tableOk (s : State) (p : Nat) (d : CollDesc) : Bool :=
  let g := s.img p
  let o := g.auxOff + d.aux
  let n := g.nranks
  if d.op = 5 ∨ d.op = 6 then
    let t := g.dealTab d
    allOk [t.t % 16 == 0, t.cols % 16 == 0, decide (1 ≤ t.k), decide (t.k ≤ 16), decide (1 ≤ t.nlocal), decide (t.nlocal ≤ 16), t.cap % 16 == 0,
      decide (16 ≤ t.cap), decide (t.cap ≤ 2048), decide (1 ≤ t.nexp), decide (t.nexp ≤ 128), g.zero (o + 51) 13,
      upTo t.nexp (fun e => g.zero (o + 69 + 8 * e) 3 && (g (o + 64 + 8 * e) 4 == 0xFFFFFFFF || decide (g (o + 64 + 8 * e) 4 < n)) && decide (g (o + 68 + 8 * e) 1 < 16)),
      noRepeat ((t.experts.filter (fun e => e.1 != 0xFFFFFFFF)).map (fun e => 16 * e.1 + e.2))]
  else if d.op = 7 then
    let ms := g.moves d
    let u := d.unit s p
    allOk [g.zero (o + 4) 12, ms.zipIdx.all (fun m => decide (m.1.1 < n) && decide (m.1.2.1 < n) && g.zero (o + 36 + 24 * m.2) 4),
      ms.zipIdx.all (fun a => ms.zipIdx.all (fun b => decide (b.2 ≤ a.2) || a.1.2.1 != b.1.2.1 || decide (a.1.2.2.2.1 + a.1.2.2.2.2 ≤ b.1.2.2.2.1) ||
        decide (b.1.2.2.2.1 + b.1.2.2.2.2 ≤ a.1.2.2.2.1))),
      !d.inPlace || upTo n (fun r => decide ((ms.filter (fun m => m.2.1 == r && m.1 != r)).foldl (fun x m => x + m.2.2.2.2 * u) 0 ≤ d.stagesz))]
  else if d.op ≤ 4 ∧ d.alg = 0 then d.aux == 0 || g.groupOk d
  else if d.op ≤ 4 ∧ d.aux ≠ 0 then
    upTo (max 1 d.nring) (fun i => isPerm n ((List.range n).map (fun j => g (o + 4 * (i * n + j)) 4)))
  else true

/-- One collective descriptor (R381–R414). (DEDUCED: log 50) -/
def State.collOk (s : State) (p top i : Nat) : Bool :=
  let g := s.img p
  let o := g.collDescOff + 128 * i
  let d := g.coll i
  let fan := g (o + 3) 1
  let bs := match s.fmtOf p d.fmt with | some f => f.bs | none => false
  allOk [decide (d.op ≤ 8), decide (d.alg ≤ 2), if d.op = 0 ∨ d.op = 2 then true else d.alg == 0, fan == 0 || (decide (2 ≤ fan) && decide (fan ≤ 64)),
    if d.alg = 2 then decide (2 ≤ d.nring) && decide (d.nring ≤ 4) else d.nring == 0, decide (8 ≤ d.seg), decide (d.seg ≤ 12), decide (d.flags < 512),
    if d.op = 0 ∨ d.op = 2 ∨ d.op = 3 then d.fmt == 16 || d.fmt == 17 || d.fmt == 18 else d.fmt == 16 || d.fmt == 17 || decide (d.fmt < 16) || d.fmt == 19 || d.fmt == 20,
    d.sums || !bs, !(d.tri && d.fmt == 18), decide (d.fold ≤ 1) || d.fmt == 18, decide (1 ≤ d.fold), decide (d.fold ≤ 65536),
    d.op == 8 || (decide (d.op = 3 ∨ d.op = 4) == false) || decide (d.root < s.gn p d), d.src % 64 == 0, d.dst % 64 == 0, g.zero (o + 57) 3,
    g.zero (o + 88) 40, !d.put || (s.talonOf p d.talon).isSome,
    d.op != 8 || (d.fmt == 0 && d.count == 0 && d.src == 0 && d.dst == 0 && d.aux == 0 && !d.grad && !d.tri),
    !bitAt d.flags 7 || (d.op == 2 && d.fmt == 18), d.aux != 0 || (d.alg != 2 && (decide (d.op ≤ 4) || d.op == 8)), g.tableLen d == 0 || decide (d.aux + g.tableLen d ≤ g (g.sectOff 6 + 24) 8), s.tableOk p d, (s.collExt p d).all (fun x => inData top x.lo (x.hi - x.lo))]

/-- Ordinals started in a range of frame-map entries (R415). -/
def Img.startOrds (g : Img) (a n : Nat) : List Nat := (List.range n).flatMap (fun i => (g.collStarts (g.frameAt (a + i))).eraseDups.map (fun c => c))

/-- The COLLECTIVES section (R413–R415). (DEDUCED: log 50) -/
def State.collsOk (s : State) (p top : Nat) : Bool :=
  let g := s.img p
  let o := g.sectOff 6
  let ds := (List.range g.ncoll).map g.coll
  let verds := ds.filter (fun d => d.op == 8)
  let apart := fun (l : List Nat) => noRepeat (l.eraseDups.map (fun i => (g.coll i).ord))
  if (g.sect 6).isNone then !g.hasLedger
  else
    allOk [decide (1 ≤ g.collWin), decide (g.collWin ≤ 16), decide (4 ≤ g.triS), decide (g.triS ≤ 16), g.zero (o + 10) 6, g.zero (o + 32) 32,
      decide (g.collDescOff + 128 * g.ncoll ≤ o + g.sectSize 6), decide (g.collDescOff + 128 * g.ncoll ≤ g.auxOff) || g (o + 24) 8 == 0, decide (g.auxOff + g (o + 24) 8 ≤ o + g.sectSize 6),
      upTo g.nstart (fun i => decide (g (o + 64 + 4 * i) 4 < g.ncoll)), upTo g.ncoll (s.collOk p top),
      apart (g.startOrds 0 g.prologue), apart (g.startOrds g.prologue g.body),
      decide ((ds.filter CollDesc.gradLast).length ≤ 1), decide ((ds.filter (fun d => bitAt d.flags 7)).length ≤ 1), decide (verds.length ≤ 1),
      g.hasLedger == !verds.isEmpty, verds.isEmpty || ds.any CollDesc.gradLast]

/-- Every rule whose break is ATLAS_MALFORMED, on the copy in province `p` (R235). -/
def State.atlasOk (s : State) (p : Nat) : Bool :=
  let g := s.img p
  let top := (s.prov p).dataD
  allOk [g.headOk top, g.sectsOk, g.dealPartOk, g.chainsOk, g.ledgerOk top, g.tensorsOk, g.dropoutOk, g.updateOk, s.collsOk p top]

/-- Further statuses of R522. -/
def HS_ATLAS_SPACE : Nat := 9
def HS_ATLAS_VERSION : Nat := 10
def HS_ATLAS_GENERATION : Nat := 11
def HS_ATLAS_HASH : Nat := 12
def HS_ATLAS_MALFORMED : Nat := 13
def HS_SHAPE_MISMATCH : Nat := 14
def HS_PERIOD_MISMATCH : Nat := 15
def HS_LEGEND_MISMATCH : Nat := 16
def HS_SHARE_MISMATCH : Nat := 17
def HS_RDE_BUFFER : Nat := 18
def HS_RNG_MODE : Nat := 19
def HS_LINK_DOWN : Nat := 20
def HS_START_LATE : Nat := 21

/-- The status of a load (R235, R415, R519): `g` reads the image at the host, `bytes` is the image, `s'` holds the copy. -/
def State.atlasStatus (s s' : State) (p : Nat) (g : Img) (bytes : List Byte) : Nat :=
  let pr := s.prov p
  if pr.space < ceilDiv g.size (2 ^ 21) * 2 ^ 21 then HS_ATLAS_SPACE
  else if slice bytes 0 8 ≠ [0x46, 0x4B, 0x2D, 0x41, 0x54, 0x4C, 0x41, 0x53] ∨ g 8 2 ≠ 1 then HS_ATLAS_VERSION
  else if g.gen ≠ 1 then HS_ATLAS_GENERATION
  else if g.size < 256 + 16 * g.nsect then HS_ATLAS_MALFORMED
  else if sha384 (patch bytes 24 (zeros 48)) ≠ slice bytes 24 48 then HS_ATLAS_HASH
  else if !s'.atlasOk p then HS_ATLAS_MALFORMED
  else if g.ntiles ≠ 16 * pr.units.length ∨ g.nchan ≠ pr.chans.length ∨ g.nranks ≠ s.nranks p then HS_SHAPE_MISMATCH
  else if g.period ≠ s.fld 0 MER_TICK_PERIOD_PERIOD then HS_PERIOD_MISMATCH
  else if (List.range 8).any (fun i => bitAt g.legmask i && g.legend (8 + i) != (s.reg p (PROV_LEGEND (8 + i))).toNat) then HS_LEGEND_MISMATCH
  else if bits g.memSplit 0 5 ≠ s.fld p PROV_MEM_SPLIT_READ ∨ bits g.memSplit 8 5 ≠ s.fld p PROV_MEM_SPLIT_WRITE ∨ bits g.memSplit 16 5 ≠ s.fld p PROV_MEM_SPLIT_REMOTE ∨
      g.linkSlots ≠ s.fld p PROV_LINK_SLOTS_SLOTS then HS_SHARE_MISMATCH
  else if ((List.range (if (g.sect 6).isSome then g.ncoll else 0)).map g.coll).any (fun d => (List.range 4).any (fun f => decide (s'.collShare p < s'.collReserve p f d))) then HS_RDE_BUFFER
  else HS_OK

end Sys2Proof.Machine
end

