-- ==== Sys2Proof/Machine/MemCtl.lean ====
section
/-! DEFINITION. The channel controllers at work (spec file 09): bursts with ECC and parity, retries, page walks, refresh, patrol scrub, the scrub of a
dissolving province's channel, the end of a row repair. Classes: 0 read, 1 write, 2 remote, 3 steward slots. -/
namespace Sys2Proof.Machine

/-- The number of 64-byte words of HBM. -/
def memWords : Nat := 384 * chanSize / 64

/-- The channel of a word, its DPA. -/
def wordChan (w : Nat) : Nat := chanOf (64 * w)

/-- A burst is counted by its class (R609), with the PVA of a province's traffic (R611). -/
def State.countBurst (s : State) (word cls n : Nat) : State :=
  let c := wordChan word
  s.count { unit := srvChan c, event := 0x40 + cls % 4, n := n, prov := if cls = 3 then 0 else s.fld c MEM_STATUS_PROV, cls := some (cls % 4),
            priv := if cls = 3 then 1 else 0, addr := if cls = 3 then none else s.pvaOf (64 * word) }

/-- Whether a request of a class is served in a slot of its channel's table (R33, R34, R259, R266, R276, R279): a province's request needs a slot of its class that the
table gives to a province, and reaches neither the channel reserve nor a granule that a repair holds; the steward's traffic (class 3 here) needs a steward slot. -/
def State.mayServe (s : State) (word cls slot : Nat) : Bool :=
  let e := (s.chanTable (wordChan word)).getD slot 0x0300
  decide (word < memWords) &&
  (if cls = 3 then e == 0 else e / 256 == cls && e % 256 != 0 && decide (64 * word % chanSize < chanUse) && !s.rowHeld (64 * word))

def State.wordBytes (s : State) (word : Nat) : List Byte := (List.range 64).map (fun i => s.mbyte (64 * word + i))

/-- The error record of a memory event (R587): die and number of the channel, the DPA before any remap (R281). (DEDUCED: log 58) -/
def memRec (s : State) (cause word bit : Nat) : ErrRec :=
  { cause := cause, die := dieOfChan (wordChan word), prov := s.fld (wordChan word) MEM_STATUS_PROV, unit := wordChan word, addr := 64 * word,
    bit := bit }

/-- A corrected read (R273). (DESIGN CHOICE: log 59) -/
def State.eccCorrected (s : State) (word bit : Nat) : State :=
  (s.incFld (wordChan word) MEM_ECC_CNT_CORR 1).raise (memRec s ECC_CORRECTED word bit)

/-- The poison pattern is written (R272). -/
def State.poison64 (s : State) (word : Nat) : State := (s.poisonWord word).incFld (wordChan word) MEM_ECC_CNT_POISON 1

/-- Whether a province's spans take in a 64-byte word. -/
def State.readsWord (s : State) (p word : Nat) (l : List (Nat × Nat)) : Bool :=
  match s.pvaOf (64 * word) with | some va => l.any (fun f => decide (f.1 < va + 64) && decide (va < f.1 + f.2)) && (s.prov p).chans.contains (wordChan word) | none => false

/-- The LOADs, by tile, of a province's tricks that read a word. -/
def State.loadOf (s : State) (p word : Nat) : Option (Nat × Xfer) :=
  s.tiles.findSome? (fun e => (e.2.xfers.find? (fun x => let c := Cx.of x.insn x.words
    !c.store && x.ctx.prov == p && s.readsWord p word (c.foot (sideNib s p c.fm) (sideBs s p c.fm)))).map (fun x => (e.1, x)))

/-- The bulk courier whose running descriptor reads a word. -/
def State.chainOf (s : State) (p word : Nat) : Option (Nat × ChainJob) :=
  s.bulks.findSome? (fun e => match e.2.st, e.2.queue with
    | .running, j :: _ =>
      let x := s.jobDesc j
      if j.ctx.prov = p ∧ x.1.op = 0 ∧ x.2.1 = none ∧ s.readsWord p word (sideFoot (x.1.srcSide s p false) x.1.qr (sideNib s p x.1.fs) (sideBs s p x.1.fs)) = true then some (e.1, j) else none
    | _, _ => none)

/-- The collective whose reads still wait and take in a word. -/
def State.collOf (s : State) (p word : Nat) : Option Coll :=
  (s.prov p).colls.find? (fun c => c.waiting && !c.stopped && s.readsWord p word (s.collReads p ((s.img p).coll c.idx)))

/-- A word that its consumer cannot take counts as poison consumed (R273, R274): the LOAD's trick is faulted, the chain or the collective that reads the word stops, and
the province pauses. -/
def State.consumePoison (s : State) (word cls : Nat) : State :=
  let p := s.fld (wordChan word) MEM_STATUS_PROV
  let r := memRec s POISON_CONSUMED word 0xFFFF
  if p = 0 ∨ cls = 3 then s.raise r
  else if cls = 0 then
    match s.loadOf p word, s.chainOf p word with
    | some x, _ => s.poisonTrick x.1 x.2
    | none, some y => (s.chainFault y.1 y.2).raise r
    | none, none => (s.setProv p { (s.prov p) with pauseReq := true }).raise r
  else match s.collOf p word with
    | some c => s.stopColl p c.order r
    | none => (s.setProv p { (s.prov p) with pauseReq := true }).raise r

/-- Data delivered to the requester (R269, R273): a word whose parity fails at the consumer is requested again once; a second failure counts as poison consumed. -/
def State.deliverWord (s : State) (word cls parity : Nat) : State :=
  let s := if parity = 0 then s else s.countBurst word cls 1
  if 2 ≤ parity then s.consumePoison word cls else s.emit (.readData word (some (s.wordBytes word)))

/-- MEMORY_READ (R255, R271–R274, R278): a read burst; `parity` counts its parity failures at the consumer. An uncorrectable word is to be read
again; a poisoned word returns poison. -/
def execMemoryRead (burst : Burst) (cls : Nat) (found : EccRead) (parity : Nat) (s : State) : Res :=
  let word := burst.word
  if !s.mayServe word cls burst.slot ∨ cls = 1 ∨ 3 < cls then .next s
  else
    let s := s.countBurst word cls 1
    if Sparse.get false s.poison word then .next (s.emit (.readData word none))
    else match found with
    | .clean => .next (s.deliverWord word cls parity)
    | .corrected bit => .next ((s.eccCorrected word bit).deliverWord word cls parity)
    | .inStack => .next ((s.rowEvent (64 * word) 1 false).1.deliverWord word cls parity)
    | .bad =>
      let s := s.incFld (wordChan word) MEM_ECC_CNT_UNCORR 1
      .next { s with memc := { s.memc with retry := s.memc.retry ++ [(word, cls)] } }

/-- ECC_RETRY_READ (R273, R274): the oldest read of the word that waits for its second read gets it, in a slot of its class: the data is delivered, or the word is found
uncorrectable and poisoned. -/
def execEccRetryRead (burst : Burst) (found : EccRead) (parity : Nat) (s : State) : Res :=
  let word := burst.word
  match s.memc.retry.find? (fun r => r.1 == word) with
  | none => .next s
  | some r =>
    let cls := min 3 r.2
    if !s.mayServe word cls burst.slot then .next s
    else
      let s := ({ s with memc := { s.memc with retry := s.memc.retry.erase r } }).countBurst word cls 1
      if Sparse.get false s.poison word then .next (s.emit (.readData word none))
      else match found with
      | .bad => .next (((s.poison64 word).raise (memRec s ECC_POISON word 0xFFFF)).emit (.readData word none))
      | .corrected bit => .next ((s.eccCorrected word bit).deliverWord word cls parity)
      | _ => .next ((s.eccCorrected word 0xFFFF).deliverWord word cls parity)

/-- The bytes of a word write, by DPA. -/
def wordCells (word : Nat) (cells : List (Nat × Byte)) : List (Nat × Byte) := (cells.filter (fun c => c.1 < 64)).map (fun c => (64 * word + c.1, c.2))

/-- MEMORY_WRITE (R271–R273): a word is written whole, or by a read-modify-write; one whose parity fails is refused and sent again. -/
def execMemoryWrite (burst : Burst) (cls : Nat) (cells : List (Nat × Byte)) (parityBad : Bool) (s : State) : Res :=
  let word := burst.word
  if !s.mayServe word cls burst.slot ∨ cls = 0 ∨ 3 < cls then .next s
  else if parityBad then .next { s with memc := { s.memc with wretry := s.memc.wretry ++ [⟨word, cls, cells⟩] } }
  else
    let ws := wordCells word cells
    let whole := (List.range 64).all (fun i => ws.any (fun w => w.1 == 64 * word + i))
    let s := s.countBurst word cls 1
    let s := if whole then s else (s.countBurst word (if cls = 1 then 0 else cls) 1).count
      { unit := srvChan (wordChan word), event := 0x45, prov := s.fld (wordChan word) MEM_STATUS_PROV, cls := some cls, addr := s.pvaOf (64 * word) }
    .next (s.mwrite ws)

/-- WRITE_PARITY_RETRY (R273): the write is sent again; a second failure poisons the word. -/
def execWriteParityRetry (burst : Burst) (parityBad : Bool) (s : State) : Res :=
  let word := burst.word
  match s.memc.wretry.find? (fun w => w.word == word) with
  | some w =>
    if !s.mayServe word w.cls burst.slot then .next s
    else
      let s := { s with memc := { s.memc with wretry := s.memc.wretry.erase w } }
      if parityBad then .next ((s.poison64 word).raise (memRec s PARITY_ERR word 0xFFFF))
      else execMemoryWrite burst w.cls w.cells false s
  | none => .next s

/-- PAGE_WALK (R263, R264, R274, R380): a miss is walked in steward slots of chan[0] and fills the cache of a compute die or of a slice (8–11); a full share gives up an
entry that the spec does not name. Poison in a table is not consumed: the steward writes the tables again. (DESIGN CHOICE: log 57) -/
def execPageWalk (die prov va : Nat) (tableBad : Bool) (s : State) : Res :=
  if 12 ≤ die then .fault .noSuchUnit
  else
    let pr := s.prov prov
    let c := pr.chans.getD 0 0
    let key := die * 256 + prov
    let held := Sparse.get [] s.memc.xlat key
    let bad := tableBad || (s.walkWords prov va).any (fun w => Sparse.get false s.poison w)
    if s.fld 0 (GZT_ROOT_V prov) = 0 ∨ !s.hasSlot c 0 0 then .next s
    else
      let s := if bad then (s.buildTables prov).raise { cause := TABLE_REBUILT, die := die, prov := prov, addr := va } else s
      match s.walk prov va with
      | none => .next s
      | some g =>
        if held.contains g.va then .next s
        else
          let s := s.count { unit := srvDie die, event := 0x23, prov := prov, addr := some va }
          let s := s.countBurst (c * chanSize / 64) 3 (if g.size = 2 ^ 30 then 2 else 3)
          let room := pr.xlatRoom die
          let kept := if held.length < room then held else held.eraseIdx (s.freeVal.1.toNat % max 1 held.length)
          let s := if held.length < room then s else s.freeVal.2
          .next (if room = 0 then s else { s with memc := { s.memc with xlat := Sparse.set [] s.memc.xlat key (kept ++ [g.va]) } })

/-- The temperature of a stack in 0.1 °C as last read (R255). (DEDUCED: log 60) -/
def State.stackTemp (s : State) (m : Nat) : Int := Sparse.get 0 s.memc.temps m

/-- REFRESH (R256): a per-bank refresh; above 95 °C it may take bursts from an owned run, which are counted. -/
def execRefresh (chan taken : Nat) (s : State) : Res :=
  if 384 ≤ chan then .fault .noSuchUnit
  else if taken = 0 ∨ s.stackTemp (chan / 32) ≤ 950 then .next s
  else .next (s.count { unit := srvChan chan, event := 0x46, n := taken, prov := s.fld chan MEM_STATUS_PROV })

/-- PATROL_SCRUB (R275): the next word of a channel is read in a steward slot. -/
def execPatrolScrub (chan : Nat) (found : EccRead) (s : State) : Res :=
  if 384 ≤ chan then .fault .noSuchUnit
  else if s.fld chan MEM_SCRUB_CTRL_PATROL_EN = 0 ∨ !s.hasSlot chan 0 0 then .next s
  else
    let pos := Sparse.get 0 s.memc.patrol chan
    let word := chan * chanSize / 64 + pos
    let s := ({ s with memc := { s.memc with patrol := Sparse.set 0 s.memc.patrol chan ((pos + 1) % (chanSize / 64)) } }).countBurst word 3 1
    if Sparse.get false s.poison word then .next s
    else match found with
    | .clean => .next s
    | .corrected bit => .next (s.eccCorrected word bit)
    | .inStack => .next (s.rowEvent (64 * word) 1 false).1
    | .bad =>
      let s := s.incFld chan MEM_ECC_CNT_UNCORR 1
      .next { s with memc := { s.memc with retry := s.memc.retry ++ [(word, 4)] } }

/-- CHANNEL_SCRUB_DONE (R276, R558): every granule outside the reserve is zero; granules that failed the check are repaired and the channel is
scrubbed again. -/
def execChannelScrubDone (chan : Nat) (badGranules : List Nat) (s : State) : Res :=
  if 384 ≤ chan then .fault .noSuchUnit
  else if s.fld chan MEM_STATUS_PROV = 0 ∨ (s.prov (s.fld chan MEM_STATUS_PROV)).st ≠ .dissolving then .next s
  else if badGranules ≠ [] then
    .next (badGranules.foldl (fun s g => s.remapRow (chan * chanSize + g % 786432 * 2048)) s)
  else
    let inChan := fun (a : Nat) => a / chanSize == chan && decide (a % chanSize < chanUse)
    let s := { s with mem := Sparse.drop inChan s.mem, poison := Sparse.drop (fun w => inChan (64 * w)) s.poison }
    .next ((s.setFld chan MEM_STATUS_PROV 0).setFld chan MEM_STATUS_STATE (if s.memc.failing.contains chan then 3 else 0))

/-- ROW_REPAIR_DONE (R279): the granule is written back to its new place from the copy in the steward area, poison included, its hold is released, and the writes that waited are
made. -/
def execRowRepairDone (granule : Nat) (s : State) : Res :=
  let g := granule * 2048
  match s.errs.rows.find? (fun r => r.granule == g) with
  | none => .next s
  | some r =>
    let c := chanOf g
    let s := s.copyGranule r.copy g
    let s := { s with errs := { s.errs with rows := s.errs.rows.filter (fun r => r.granule != g) } }
    let s := s.setFld c MEM_STATUS_HOLD (b01 (s.errs.rows.any (fun r => chanOf r.granule == c)))
    .next ((s.resendWrites.remapRow g).raise { cause := ROW_REPAIRED, die := dieOfChan c, prov := s.fld c MEM_STATUS_PROV, unit := c, addr := g, repaired := true })

end Sys2Proof.Machine
end

