-- ==== Sys2Proof/Machine/Host.lean ====
section
/-! DEFINITION. The host interface at work (spec file 17): hands, doorbells and fetches, the seven commands, confirmation of host writes, the Inset,
resets of functions, reattachment. -/
namespace Sys2Proof.Machine

/-- Units that do not exist stop a command. (DESIGN CHOICE: log 5) -/
def onFn (fn : Nat) (f : Res) : Res := if fn < 256 then f else .fault .noSuchUnit

/-- Whether accesses to a function's BARs reach it and find a province behind it (R504, R527, R567). -/
def State.barUp (s : State) (f : Nat) : Bool := s.fnOn f && s.fld f HIF_FN_STATUS_ATTACH != 1 && (s.fn f).tdisp != .error && s.fnProv f != 0

/-- The hand a BAR access reaches (R513). -/
def State.barHand (s : State) (f h : Nat) : Option Nat := if s.barUp f then s.handOf f h else none

/-- Errors of `HAND_STATUS.ERR`. -/
def State.handErr (s : State) (k e : Nat) : State := s.setFld k HAND_STATUS_ERR e

/-- HAND_OPEN (R514, R531): a write of 1 to OPEN of a CLOSED hand. -/
def execHandOpen (fn hand : Nat) (s : State) : Res :=
  onFn fn (match s.barHand fn hand with
    | none => .next s
    | some k =>
      let n := s.fld k HAND_CTRL_LOG2SIZE
      if s.handState k ≠ H_CLOSED then .next s
      else if s.fld k HAND_CTRL_FMT ≠ 1 then .next (s.handErr k 1)
      else if n < 6 ∨ 16 < n then .next (s.handErr k 2)
      else if s.noSession k fn then .next (s.handErr k 6)
      else
        let s := ((s.setFld k HAND_STATUS_STATE H_OPEN).handErr k 0).setFld k HAND_CONSUMED_COUNT 0
        .next (s.setHand k { fn := fn, gen := (s.hand k).gen + 1 }))

/-- HAND_CLOSE (R515): fetching stops, running commands complete, then the hand is CLOSED. (DEDUCED: log 90) -/
def execHandClose (fn hand : Nat) (s : State) : Res :=
  onFn fn (match s.barHand fn hand with
    | none => .next s
    | some k =>
      if s.handState k ≠ H_OPEN ∧ s.handState k ≠ H_ERROR then .next s
      else .next ((s.setHand k { (s.hand k) with closing := true, mismatch := none }).advance k))

/-- A doorbell takes effect on an OPEN hand (R523). -/
def State.ring (s : State) (k value : Nat) : State :=
  let n := (value % 2 ^ 32 + 2 ^ 32 - s.fld k HAND_CONSUMED_COUNT) % 2 ^ 32
  if n = 0 then s
  else if 2 ^ s.fld k HAND_CTRL_LOG2SIZE < n then (s.setFld k HAND_STATUS_STATE H_ERROR).handErr k 4
  else s.setHand k { (s.hand k) with prod := value % 2 ^ 32, mismatch := none }

/-- DOORBELL (R523, R530): held in REATTACHING, dropped where the hand is not open. -/
def execDoorbell (fn hand value : Nat) (s : State) : Res :=
  onFn fn (match s.barHand fn hand with
    | none => .next s
    | some k =>
      if s.handState k = H_OPEN ∧ !(s.hand k).closing then .next (s.ring k value)
      else if s.handState k = H_SUSPENDED ∧ s.fld fn HIF_FN_STATUS_ATTACH = 2 then .next (s.setHand k { (s.hand k) with heldBell := some value })
      else .next s)

/-- Entries taken in order (R516, R524, R532): `n` is how many were taken from this fetch. -/
def State.takeEntries (s : State) (k : Nat) : List (List Byte × Bool) → Nat → State
  | [], _ => s
  | (e, macOk) :: l, n =>
    let c := s.fld k HAND_CONSUMED_COUNT
    let x := s.hand k
    if c = x.prod ∨ e.length ≠ 64 ∨ n = 16 then s
    else if leAt e 0 4 ≠ c then s.setHand k { x with mismatch := if n = 0 then some (x.mismatch.getD 0) else some 0 }
    else if s.fld k HAND_CTRL_SECURE = 1 ∧ !macOk then ((s.setFld k HAND_STATUS_STATE H_ERROR).handErr k 5).setHand k { x with mismatch := none }
    else
      let s := s.setHand k { x with mismatch := none, cmds := x.cmds ++ [{ seq := c, entry := e }] }
      (s.setFld k HAND_CONSUMED_COUNT ((c + 1) % 2 ^ 32)).takeEntries k l (n + 1)

/-- DESCRIPTOR_FETCH_RETURN (R524, R517, R532): each entry with whether its MAC holds. -/
def execDescriptorFetchReturn (fn hand : Nat) (entries : List (List Byte × Bool)) (s : State) : Res :=
  onFn fn (match s.handOf fn hand with
    | none => .next s
    | some k =>
      if s.handState k ≠ H_OPEN ∨ (s.hand k).closing ∨ (s.hand k).fn ≠ fn ∨ !s.fnUp fn ∨ s.fld 0 TST_STATUS_FATAL = 1 then .next s
      else .next ((s.takeEntries k entries 0).advance k))

/-- DESCRIPTOR_REFETCH (R524): another fetch from the mismatch, or, when the retries have run out, STALE. (DEDUCED: log 96) -/
def execDescriptorRefetch (fn hand : Nat) (s : State) : Res :=
  onFn fn (match s.handOf fn hand with
    | none => .next s
    | some k =>
      let x := s.hand k
      match x.mismatch with
      | none => .next s
      | some r =>
        if s.handState k ≠ H_OPEN ∨ x.closing ∨ x.fn ≠ fn ∨ !s.fnUp fn ∨ s.fld 0 TST_STATUS_FATAL = 1 then .next s
        else if r < s.fld 0 HIF_DB_RETRY_COUNT then
          .next ((s.setHand k { x with mismatch := some (r + 1) }).count { unit := srvStw, event := 0xA1, prov := s.fnProv fn, priv := 2, master := some 7 })
        else
          let s := s.setHand k { x with mismatch := none, prod := s.fld k HAND_CONSUMED_COUNT }
          .next ((s.setFld k HAND_STATUS_STALE 1).raise { cause := DOORBELL_STALE, die := 12, prov := s.fnProv fn, aux := hand }))

/-- A command of a hand that may start (R518), while its function may issue requests and no Inset write that the province has received is still to be made (R510). -/
def State.startable (s : State) (f h seq op : Nat) : Option (Nat × HandCmd) :=
  match s.handOf f h with
  | none => none
  | some k =>
    if (s.handState k ≠ H_OPEN ∧ s.handState k ≠ H_ERROR) ∨ (s.hand k).fn ≠ f ∨ !s.fnUp f ∨ s.fld 0 TST_STATUS_FATAL = 1 ∨ s.memc.waits.any (fun x => x.prov == k / 4096 && x.cls == 2) then none
    else match (s.hand k).mayStart seq with
    | some c => if c.op = op then some (k, c) else none
    | none => none

/-- A byte of host memory that a command reads. (DESIGN CHOICE: log 65) -/
def State.hbyte (s : State) (host : List (Nat × Byte)) (a : Nat) : Byte :=
  match host.find? (fun c => c.1 == a) with | some c => c.2 | none => Config.hostByte s.free a
def State.hbytes (s : State) (host : List (Nat × Byte)) (a n : Nat) : List Byte := (List.range n).map (fun i => s.hbyte host (a + i))

/-- Whether a province takes data commands (R519). -/
def State.dataState (s : State) (p : Nat) : Bool := (s.prov p).st == .sealed_ || (s.prov p).st == .running || (s.prov p).st == .paused

/-- Whether the operands of a WRITE or READ are multiples of 64, with a length (R517). -/
def HandCmd.aligned (c : HandCmd) : Bool := c.q 0 % 64 == 0 && c.q 1 % 64 == 0 && c.len % 64 == 0 && c.len != 0

/-- WRITE (R517, R519, R520, R532). `host` gives host memory; `stop` names the bytes made before the command was stopped and why: POISON, AUTH or
HOST_ABORT; of a page whose tag fails nothing is made (R532). (DEDUCED: log 89; DESIGN CHOICE: log 94) -/
def execWrite (fn hand seq : Nat) (host : List (Nat × Byte)) (stop : Option (Nat × Nat)) (s : State) : Res :=
  onFn fn (match s.startable fn hand seq 3 with
    | none => .next s
    | some (k, c) =>
      let p := k / 4096
      let put := bitAt c.flags 2
      if !c.aligned ∨ (put ∧ (s.talonOf p c.talon).isNone) then .next (s.complete k seq HS_BAD_DESC 0 0)
      else if !s.dataState p then .next (s.complete k seq HS_PROV_STATE 0 0)
      else if !(s.prov p).within .data (c.q 1) c.len then .next (s.complete k seq HS_TRANSLATION 0 0)
      else if !s.hbmOpen p 2 [(c.q 1, c.len)] then .next s
      else
        let part := fun why => if why = HS_AUTH ∧ s.fld k HAND_CTRL_SECURE = 1 then 4096 else 64
        let made := match stop with | some (n, why) => min c.len (n / part why * part why) | none => c.len
        let t := (s.vput p (c.q 1) (s.hbytes host (c.q 0) made))
        let t := { t with free := t.free + 1 }
        match stop with
        | some (_, why) =>
          let st := if why = HS_POISON ∨ why = HS_AUTH then why else HS_HOST_ABORT
          let t := if st = HS_HOST_ABORT then (t.setFld fn HIF_FN_STATUS_HOST_ERR 1).raise { cause := HOST_ABORT, die := 12, prov := p, aux := hand } else t
          .next (t.complete k seq st made 0)
        | none =>
          let t := match put, s.talonOf p c.talon with
            | true, some n => t.talonPut n c.handle
            | _, _ => t
          .next (t.complete k seq HS_OK made 0))

/-- Data leaves for the host: from a secure hand in sealed pages of 4 KiB, with a tag for each (R532). (DESIGN CHOICE: log 91) -/
def State.sendData (s : State) (k : Nat) (c : HandCmd) (bs : List Byte) : State :=
  let f := (s.hand k).fn
  if s.fld k HAND_CTRL_SECURE = 1 then
    let pages := (List.range (ceilDiv bs.length 4096)).map (fun i =>
      s.handSeal k 2 c.seq i (beBytes 8 (c.q 1 + 4096 * i)) ((bs.drop (4096 * i)).take 4096))
    s.emit (.hostData f (cellsAt (c.q 0) (pages.flatMap Prod.fst) ++ cellsAt (leAt c.entry 32 8) (pages.flatMap Prod.snd)))
  else s.emit (.hostData f (cellsAt (c.q 0) bs))

/-- READ (R517, R519, R520, R525): the data is sent, poisoned words as poison; the command completes once the host confirms. (DEDUCED: log 89, 146) -/
def execRead (fn hand seq : Nat) (s : State) : Res :=
  onFn fn (match s.startable fn hand seq 4 with
    | none => .next s
    | some (k, c) =>
      let p := k / 4096
      if !c.aligned then .next (s.complete k seq HS_BAD_DESC 0 0)
      else if !s.dataState p then .next (s.complete k seq HS_PROV_STATE 0 0)
      else if !((s.prov p).within .data (c.q 1) c.len || (s.prov p).within .atlas (c.q 1) c.len) then .next (s.complete k seq HS_TRANSLATION 0 0)
      else if !s.hbmOpen p 2 [(c.q 1, c.len)] then .next s
      else
        let bad := (List.range (c.len / 64)).filter (fun i => s.vpoison p (c.q 1 + 64 * i) 64)
        let t := s.sendData k c (s.vbytes p (c.q 1) c.len)
        let t := bad.foldl (fun t i => t.emit (.hostPoison fn (c.q 0 + 64 * i))) t
        .next (t.setCmd k seq (.unconf (if bad = [] then HS_OK else HS_POISON) c.len 0 s.frame)))

/-- WAIT_STEP (R517, R676). -/
def execWaitStep (fn hand seq : Nat) (s : State) : Res :=
  onFn fn (match s.startable fn hand seq 5 with
    | none => .next s
    | some (k, c) =>
      match s.judgeWait (k / 4096) (c.q 0) false with
      | some (a, b, d) => .next (s.complete k seq a b d)
      | none => .next ((s.setCmd k seq .running).advance k))

/-- MANIFEST (R517, R571): the chain of manifests takes the record. -/
def execManifest (fn hand seq : Nat) (host : List (Nat × Byte)) (authOk : Bool) (s : State) : Res :=
  onFn fn (match s.startable fn hand seq 6 with
    | none => .next s
    | some (k, c) =>
      let p := k / 4096
      if s.fld k HAND_CTRL_SECURE = 1 ∧ !authOk then .next (s.complete k seq HS_AUTH 0 0)
      else
        let r := s.hbytes host (c.q 0) 64
        let pr := s.prov p
        let s := { s with free := s.free + 1 }
        .next ((s.setProv p { pr with manifest := sha384 (pr.manifest ++ r), manFirst := leAt r 48 8 }).complete k seq HS_OK 0 0))

/-- Every record of the ledger is set cold (R344). -/
def State.coldLedger (s : State) (p : Nat) : State :=
  let g := s.img p
  if !g.hasLedger then s else (List.range g.nrec).foldl (fun s i => s.stewardPut p (g.ledgerBase + 128 * i) (s.coldRec p i)) s

/-- The Atlas copy is mapped and written (R261): zeros follow the image up to A bytes. (DEDUCED: log 56) -/
def State.mapAtlas (s : State) (p : Nat) (img : List Byte) : State :=
  let s := s.setProv p { (s.prov p) with atlasSize := img.length }
  let pr := s.prov p
  s.mwrite ((img ++ zeros (pr.atlasA - img.length)).zipIdx.map (fun b => (pr.vdpa (atlasBase + b.2), b.1)))

/-- Whether a repair holds a granule that the new copy will fill (R279): the load waits. -/
def State.atlasHeld (s : State) (p size : Nat) : Bool :=
  let pr := { (s.prov p) with atlasSize := size }
  !s.errs.rows.isEmpty && (List.range (pr.atlasA / 2048)).any (fun i => s.rowHeld (pr.vdpa (atlasBase + 2048 * i)))

/-- What a load that passed its checks sets (R123, R237, R304, R315, R344, R356, R417, R559, R568, R571; `PROV_EPOCH` returns to 0). -/
def State.loaded (s : State) (p f addr seed : Nat) : State :=
  let g := s.img p
  let s := s.setProv p { (s.prov p) with
    loaded := true, loadFn := f, loadAddr := addr, k := 0, cur := none, items := [], tent := [], spanLeft := 0, spanLen := 1,
    gsync := [], colls := [], mcDone := [], patches := [], commitFault := false, early := [], mbDone := [], reducedAt := none, gradLast := none, startStep := 0, verdict := none, logSeq := 0,
    ledgerNf := false, ledgerStop := false, ledgerDone := false, satSum := 0, manifest := zeros 48,
    recMark := false, coldMark := false, manFirst := 0, committed := none, satLast := false }
  let s := s.setReg p PROV_SR_SEED (BitVec.ofNat 64 seed)
  let s := ([PROV_STEP, PROV_STEP_STATE, PROV_SKIP_CNT, PROV_SAT_EVENTS, PROV_MISDEAL_CNT]).foldl (fun s r => s.setReg p r 0) s
  let s := (s.setFld p PROV_PLAN_LAG_LAG 0).setFld p PROV_EPOCH_EPOCH 0
  let s := ([RDE_PEVT_EXCL, RDE_PEVT_PATCH, RDE_PEVT_DROP, RDE_PEVT_BAD]).foldl (fun s r => s.setFld 0 (r p) 0) s
  let s := if (g.sect 6).isSome then s.setFld 0 (RDE_TRI_RATE_S p) g.triS else s
  let s := (s.tilesOf p).foldl (fun s t => s.setTile t { (s.tile t) with loadedFor := 0 }) s
  (((s.coldLedger p).fillTalons p).dropXlat p).buildTables p

/-- LOAD_ATLAS (R123, R235–R237, R457, R517, R519). `host` gives the image; `authOk` says that every page's tag holds. Where a port of the province is
lowered, it is raised first; the command then reads its image again (R530). (DEDUCED: log 89) -/
def execLoadAtlas (fn hand seq : Nat) (host : List (Nat × Byte)) (authOk : Bool) (s : State) : Res :=
  onFn fn (match s.startable fn hand seq 1 with
    | none => .next s
    | some (k, c) =>
      let p := k / 4096
      let pr := s.prov p
      let a := c.q 0
      let old := s.result0 k c
      let g : Img := fun o n => ofLE (s.hbytes host (a + o) n)
      if s.stw.restarting then .next s
      else if pr.st ≠ .sealed_ then .next (s.complete k seq HS_PROV_STATE old 0)
      else if s.fld k HAND_CTRL_SECURE = 1 ∧ !authOk then .next (s.complete k seq HS_AUTH old 0)
      else if pr.space < ceilDiv g.size (2 ^ 21) * 2 ^ 21 then .next (s.complete k seq HS_ATLAS_SPACE old 0)
      else if s.atlasHeld p g.size then .next s
      else
        let img := s.hbytes host a g.size
        let t := s.mapAtlas p img
        let st := s.atlasStatus (t.setFld p PROV_RANK_LASTRANK (g.nranks - 1)) p g img
        let s := { s with free := s.free + 1 }
        if st ≠ HS_OK then .next (s.complete k seq st old 0)
        else if s.loweredPorts p ≠ [] then .next (((s.loweredPorts p).foldl (fun t n => t.raisePort n) s).setCmd k seq .running)
        else
          let seed := if bitAt c.flags 1 then c.q 1 else g.seed
          .next ((({ t with free := s.free }).loaded p fn a seed).complete k seq HS_OK seed 0))

/-- LEDGER_START_CHECK (R344): a record that fails its check is set cold. -/
def State.ledgerCheck (s : State) (p : Nat) : State :=
  let g := s.img p
  let s := s.setProv p { (s.prov p) with coldMark := false }
  if !g.hasLedger then s
  else (List.range g.nrec).foldl (fun s i =>
    let a := g.ledgerBase + 128 * i
    let sg := fun o => signed 16 (s.vle p (a + o) 2)
    let inRange := fun (x : Int) => decide (-127 ≤ x) && decide (x ≤ 127)
    if !s.vpoison p a 128 ∧ s.vle p (a + 4) 1 ≤ g.ledH ∧ s.vle p (a + 5) 1 < g.ledH ∧ inRange (sg 0) ∧ inRange (sg 2) then s
    else ((s.stewardPut p a (s.coldRec p i)).setProv p { (s.prov p) with coldMark := true }).raise { cause := LEDGER_INVALID, die := 12, prov := p, addr := a, aux := i }) s

/-- START (R322, R344, R348, R490, R519): the province will run from frame S0, at which the command completes. (DEDUCED: log 93) -/
def execStart (fn hand seq : Nat) (s : State) : Res :=
  onFn fn (match s.startable fn hand seq 2 with
    | none => .next s
    | some (k, c) =>
      let p := k / 4096
      let pr := s.prov p
      let s0 := c.q 0
      if s.stw.restarting then .next s
      else if pr.st ≠ .sealed_ ∨ !pr.loaded ∨ pr.start.isSome then .next (s.complete k seq HS_PROV_STATE s0 0)
      else if s0 < s.frame + 2 then .next (s.complete k seq HS_START_LATE s0 0)
      else if s.fld p PROV_RNG_MODE_MODE = 0 ∧ (s.img p).needsRegen then .next (s.complete k seq HS_RNG_MODE s0 0)
      else if !s.linksKeyed p then .next (s.complete k seq HS_LINK_DOWN s0 0)
      else
        let s := s.ledgerCheck p
        let s := s.setProv p { (s.prov p) with start := some ⟨s0, if bitAt c.flags 1 then c.q 1 else 0, k, seq⟩ }
        .next (s.setCmd k seq .running))

/-- The host's writes of one hand are confirmed (R525): completions that were written leave the ring, those that waited for their data are written, and each command's
interrupt is sent. -/
def State.confirmHand (s : State) (fn : Nat) (e : Nat × Hand) : State :=
  if e.2.fn ≠ fn ∨ (s.handState e.1 ≠ H_OPEN ∧ s.handState e.1 ≠ H_ERROR) then s
  else
    let irqs := b01 e.2.wake + (e.2.cmds.filter (fun c => (match c.st with | .written _ _ _ _ => true | _ => false) &&
      (bitAt c.flags 0 || s.fld e.1 HAND_CTRL_IRQ == 1))).length
    let left := (e.2.cmds.filter (fun c => match c.st with | .written _ _ _ _ => false | _ => true)).map (fun (c : HandCmd) => match c.st with
      | .unconf a b d _ => { c with st := .complete a b d s.frame }
      | _ => c)
    let s := s.setHand e.1 { e.2 with cmds := left, wake := false }
    ((List.range irqs).foldl (fun s _ => s.msix fn (s.fld e.1 HAND_CTRL_VEC)) s).advance e.1

/-- Chains of the function have their host writes confirmed (R309, R525). -/
def State.confirmChains (s : State) (fn : Nat) : State :=
  { s with bulks := s.bulks.map (fun b => (b.1, { b.2 with queue := b.2.queue.map (fun (j : ChainJob) =>
      if s.chainFn j.ctx.prov = fn then { j with hostWrote := false } else j) })) }

/-- HOST_WRITE_CONFIRM (R525): every write of the function so far has arrived. Written completion entries make their MSI-X and are over; commands whose data
was unconfirmed complete. -/
def execHostWriteConfirm (fn : Nat) (s : State) : Res :=
  onFn fn (if !s.fnUp fn then .next s else .next ((s.hands.foldl (fun s e => s.confirmHand fn e) s).confirmChains fn))

/-- HOST_REQUEST_FAILED (R310, R512, R525): Unsupported Request, Completer Abort, or no completion in time; of a command that is over only the read that confirms its entry can fail. A function that is not attached has no request under way (R527). -/
def execHostRequestFailed (fn : Nat) (what : HostReq) (s : State) : Res :=
  onFn fn (if s.fld fn HIF_FN_STATUS_ATTACH ≠ 0 then .next s else match what with
    | .fetch h => match s.handOf fn h with
      | some k =>
        if s.handState k ≠ H_OPEN ∨ (s.hand k).fn ≠ fn then .next s
        else .next (((s.setFld fn HIF_FN_STATUS_HOST_ERR 1).setFld k HAND_STATUS_STATE H_ERROR).handErr k 7)
      | none => .next s
    | .cmd h seq => match s.handOf fn h with
      | some k =>
        if (s.hand k).fn = fn ∧ (s.hand k).cmds.any (fun c => c.seq == seq && c.started && !c.over) ||
            ((s.hand k).mayStart seq).isSome && (s.hand k).fn == fn && s.fnUp fn then
          let s := (s.setFld fn HIF_FN_STATUS_HOST_ERR 1).raise { cause := HOST_ABORT, die := 12, prov := k / 4096, aux := h }
          .next (s.complete k seq HS_HOST_ABORT ((((s.hand k).cmds.find? (fun c => c.seq == seq)).map (s.result0 k)).getD 0) 0)
        else if (s.hand k).fn = fn ∧ (s.hand k).cmds.any (fun c => c.seq == seq && (match c.st with | .written _ _ _ _ => true | _ => false)) then
          .next ((s.setFld fn HIF_FN_STATUS_HOST_ERR 1).raise { cause := HOST_ABORT, die := 12, prov := k / 4096, aux := h })
        else .next s
      | none => .next s
    | .chain n =>
      if 128 ≤ n then .fault .noSuchUnit
      else match (s.bulk n).queue with
      | j :: _ =>
        if s.chainFn j.ctx.prov = fn ∧ (s.bulk n).st = .running then .next ((s.setFld fn HIF_FN_STATUS_HOST_ERR 1).chainFault n j)
        else .next s
      | [] => .next s)

/-- The PVA of an Inset access (R507); none where it is refused (R508), as in a province whose tables are not valid (R262, R265). -/
def State.insetVa (s : State) (f off n : Nat) (write : Bool) : Option Nat :=
  let pr := s.prov (s.fnProv f)
  let va := s.fld f HIF_INSET_BASE_BASE * 2 ^ 26 + off
  if s.fld f HIF_INSET_BASE_EN = 0 ∨ s.fld 0 (GZT_ROOT_V (s.fnProv f)) = 0 ∨ (if f = 0 then 2 ^ 28 else 2 ^ 26) < off + n then none
  else if pr.within .data va n || (!write && pr.within .atlas va n) then some va else none

/-- INSET_READ (R504, R507–R509): one whose slots or granule are closed waits, under the base at which it came. -/
def execInsetRead (fn off n : Nat) (s : State) : Res :=
  onFn fn (
    if !s.fnOn fn ∨ s.fld fn HIF_FN_STATUS_ATTACH = 1 then .next s
    else if (s.fn fn).tdisp = .error then .next (s.emit (.insetData fn off none false))
    else
      let p := s.fnProv fn
      if p = 0 then .next (s.emit (.insetData fn off (some (zeros n)) false))
      else match s.insetVa fn off n false with
      | none => .next ((s.setFld fn HIF_FN_STATUS_INSET_ERR 1).emit (.insetData fn off none false))
      | some va =>
        if s.hbmOpen p 2 [(va, n)] then .next (s.insetAnswer ⟨fn, off, p, va, n⟩)
        else .next { s with memc := { s.memc with insets := s.memc.insets ++ [⟨fn, off, p, va, n⟩] } })

/-- INSET_WRITE (R504, R507–R510): what a closed granule holds up is made later, in order. -/
def execInsetWrite (fn off : Nat) (bytes : List Byte) (s : State) : Res :=
  onFn fn (
    if !s.barUp fn then .next s
    else match s.insetVa fn off bytes.length true with
    | none => .next (s.setFld fn HIF_FN_STATUS_INSET_ERR 1)
    | some va => .next ((s.count { unit := srvStw, event := 0xA3, prov := s.fnProv fn, priv := 2, master := some 7 }).rput (s.fnProv fn) va bytes))

/-- HIF_INSET_BASE_WRITE (R509): reserved bits stay 0. -/
def execHifInsetBaseWrite (fn value : Nat) (s : State) : Res :=
  onFn fn (if s.barUp fn then .next ((s.setFld fn HIF_INSET_BASE_EN (bits value 0 1)).setFld fn HIF_INSET_BASE_BASE (bits value 26 22)) else .next s)

/-- HIF_SRV_PAGE_WRITE (R669, R670). -/
def execHifSrvPageWrite (fn value : Nat) (s : State) : Res :=
  onFn fn (if s.barUp fn then .next (s.setFld fn HIF_SRV_PAGE_PAGE (bits value 0 8)) else .next s)

/-- Chains that waited for the host go on; a descriptor with unconfirmed writes restarts from its start (R308, R529). -/
def State.resumeChains (s : State) (f : Nat) : State :=
  s.bulks.foldl (fun s b => match b.2.st, b.2.queue with
    | .waitHost, j :: _ => if s.chainFn j.ctx.prov = f ∧ s.hostUp j.ctx.prov then
        s.setBulk b.1 { b.2 with st := .running, queue := { (s.rewind j) with frame := s.frame } :: b.2.queue.drop 1 } else s
    | _, _ => s) s

/-- BUS_MASTER_ENABLE_WRITE (R504, R511, R567): the host has enabled the virtual functions up to this one; waiting requests and messages go on; a locked or running interface is in ERROR. (DEDUCED: log 97) -/
def execBusMasterEnableWrite (fn : Nat) (on : Bool) (s : State) : Res :=
  onFn fn (
    let x := s.fn fn
    if s.inReset then .next s
    else
    let s := if fn = 0 then s else s.setFn 0 { (s.fn 0) with numVfs := max (s.fn 0).numVfs fn }
    if x.bme = on then .next s
    else
      let t := if x.tdisp = .locked ∨ x.tdisp = .run then Tdisp.error else x.tdisp
      let s := s.setFn fn { x with bme := on, tdisp := t }
      .next ((s.hands.foldl (fun s e => if e.2.fn = fn then s.advance e.1 else s) (s.msixPend fn)).resumeChains fn))

/-- Functions that may reattach do so (R526, R529). -/
def State.reattachAll (s : State) : State :=
  if s.perst ∨ !s.dlUp then s else allFns.foldl (fun s f => if (s.fn f).flr then s else s.reattachFn f) s

/-- PCIE_LINK_TRAINED (R503, R526, R650): from BRINGUP on, DL_Up at a rate and width; below 16 GT/s or 16 lanes the link is degraded. (DEDUCED: log 97) -/
def execPcieLinkTrained (rate width : Nat) (s : State) : Res :=
  if s.perst ∨ rate = 0 ∨ 6 < rate ∨ width = 0 ∨ 16 < width ∨ s.fld 0 STW_STATUS_BOOT < 4 ∨ s.fld 0 STW_STATUS_BOOT = 8 then .next s
  else
    let s := ({ s with dlUp := true }.setFld 0 HIF_LINK_STATUS_RATE rate).setFld 0 HIF_LINK_STATUS_WIDTH width
    let s := if rate < 4 ∨ width < 16 then (s.setFld 0 HIF_LINK_STATUS_DEGRADED 1).raise { cause := LINK_DEGRADED, die := 12 } else s
    .next s.reattachAll

/-- The link is down. -/
def State.linkGone (s : State) : State := ({ s with dlUp := false }.setFld 0 HIF_LINK_STATUS_RATE 0).setFld 0 HIF_LINK_STATUS_WIDTH 0
def State.detachAll (s : State) (cause : Nat) : State := allFns.foldl (fun s f => s.detachFn f cause) s

/-- PERST_N_ASSERT (R526); the pin is not sampled while the device is held in reset (R650). -/
def execPerstNAssert (s : State) : Res :=
  if s.perst then .next s
  else if s.inReset then .next { s with perst := true }
  else
    let t := ({ s with perst := true }.linkGone).detachAll 0
    .next { t with stw := { t.stw with persts := t.stw.persts + 1 } }

/-- PERST_N_RELEASE (R526). (DEDUCED: log 97) -/
def execPerstNRelease (s : State) : Res :=
  if s.inReset then .next { s with perst := false } else .next ({ s with perst := false }).reattachAll

/-- DL_DOWN (R526). -/
def execDlDown (s : State) : Res := if s.dlUp then .next (s.linkGone.detachAll 1) else .next s

/-- HOT_RESET (R526): every function detaches; with the link up again they reattach. -/
def execHotReset (s : State) : Res :=
  if s.inReset then .next s
  else
  let t := s.linkGone.detachAll 2
  .next { t with stw := { t.stw with hotResets := t.stw.hotResets + 1 } }

/-- FLR (R526): one function detaches. -/
def execFlr (fn : Nat) (s : State) : Res :=
  onFn fn (
    if s.inReset then .next s
    else
    let s := s.detachFn fn 3
    let s := s.setFn fn { (s.fn fn) with flr := true }
    .next { s with stw := { s.stw with flrs := Sparse.upd 0 s.stw.flrs fn (fun n => n + 1) } })

/-- FLR_COMPLETE (R526). -/
def execFlrComplete (fn : Nat) (s : State) : Res :=
  onFn fn (
    if !(s.fn fn).flr then .next s
    else .next ((s.setFn fn { (s.fn fn) with flr := false }).reattachAll))

/-- A hand resumes (R529, R533): a READ whose data is unconfirmed starts again, completion entries are written again. (DESIGN CHOICE: log 92) -/
def State.resumeHand (s : State) (k : Nat) : State :=
  let x := s.hand k
  let wr := x.cmds.any (fun c => match c.st with | .written _ _ _ _ => true | _ => false)
  let cs := x.cmds.map (fun (c : HandCmd) => match c.st with | .unconf _ _ _ _ => { c with st := .waiting } | _ => c)
  let s := (s.setHand k { x with gen := x.gen + 1, heldBell := none, wake := wr, cmds := cs }).setFld k HAND_STATUS_STATE (if s.handState k = H_ERROR then H_ERROR else H_OPEN)
  let s := x.cmds.foldl (fun s c => match c.st with | .written a b d e => s.writeCompl k c a b d e | _ => s) s
  match x.heldBell with | some v => s.ring k v | none => s

/-- The START of a hand is dropped, or is too late (R529, R530). (DEDUCED: log 93) -/
def State.dropStart (s : State) (k : Nat) : State :=
  match (s.prov (k / 4096)).start with
  | some r => if r.hand = k then s.setProv (k / 4096) { (s.prov (k / 4096)) with start := none } else s
  | none => s
def State.lateStart (s : State) (k : Nat) : State :=
  match (s.prov (k / 4096)).start with
  | some r => if r.hand = k ∧ r.s0 ≤ s.frame then (s.dropStart k).complete k r.seq HS_START_LATE r.s0 0 else s
  | none => s

/-- RESUME (R526, R529, R530, R533). -/
def execResume (fn : Nat) (s : State) : Res :=
  onFn fn (
    if s.fld fn HIF_FN_STATUS_ATTACH ≠ 2 ∨ !(s.fn fn).bme then .next s
    else
      let l := s.suspended fn
      let s := s.setFld fn HIF_FN_STATUS_ATTACH 0
      let s := l.foldl (fun s k => if s.noSession k fn then (s.dropStart k).discardHand k else s.resumeHand k) s
      let s := l.foldl (fun s k => (s.lateStart k).advance k) s
      .next (s.resumeChains fn))

/-- What DISCARD does to a function's hands and chains (R529, R567). -/
def State.discardFn (s : State) (f : Nat) : State :=
  let s := (s.suspended f).foldl (fun s k => (s.dropStart k).discardHand k) s
  (s.bulks.foldl (fun s b => match b.2.st, b.2.queue with
    | .waitHost, j :: rest =>
      if s.chainFn j.ctx.prov = f then
        ((s.setBulk b.1 { b.2 with st := .faulted, queue := rest, last := j.req.chain }).contained j.ctx.prov j.ctx.pframe).raiseSev 2 { cause := HOST_LOST, die := b.1 / 16, prov := j.ctx.prov, aux := j.req.chain }
      else s
    | _, _ => s) s).resubmitAll

/-- DISCARD (R526, R529). -/
def execDiscard (fn : Nat) (s : State) : Res :=
  onFn fn (
    if s.fld fn HIF_FN_STATUS_ATTACH ≠ 2 ∨ !(s.fn fn).bme then .next s
    else .next ((s.discardFn fn).setFld fn HIF_FN_STATUS_ATTACH 0))

/-- HOST_LOST_TIMER (R528): DETACHED for LIMIT_S seconds; once. -/
def execHostLostTimer (fn : Nat) (s : State) : Res :=
  onFn fn (
    if s.fld fn HIF_FN_STATUS_ATTACH ≠ 1 ∨ (s.fn fn).lost then .next s
    else .next ((s.setFn fn { (s.fn fn) with lost := true }).raiseSev 1 { cause := HOST_LOST, die := 12, prov := s.fnProv fn, aux := fn }))

end Sys2Proof.Machine
end

