-- ==== Sys2Proof/Machine/Power.lean ====
section
/-! DEFINITION. Power, temperature and throttling (R255, R605, R625–R640, R645, R646): Contour curves, the capping loop, the fast limiter, sensors, the Itinerary machines. -/
namespace Sys2Proof.Machine

/-- The table image of a kind that is in force. -/
def State.tableOf (s : State) (k : TableKind) : Option (List Byte) := (s.stw.tables.find? (fun t => t.kind == k)).map TableImg.bytes

/-- The points of a curve (R634). -/
def curvePts (b : List Byte) (h : Nat) : List (Nat × Nat) :=
  (List.range (leAt b (h + 2) 1)).map (fun i => (leAt b (leAt b (h + 4) 4 + 4 * i) 2, leAt b (leAt b (h + 4) 4 + 4 * i + 2) 2))

/-- The headers of the curves of an image. -/
def curveHeads (b : List Byte) : List Nat := (List.range (leAt b 10 2)).map (fun i => 64 + 16 * i)

/-- The curve of a KIND and PROFILE. -/
def curveOf (b : List Byte) (kind prof : Nat) : List (Nat × Nat) :=
  match (curveHeads b).find? (fun h => leAt b h 1 == kind && leAt b (h + 1) 1 == prof) with
  | some h => curvePts b h
  | none => []

/-- The value of a curve (R635). -/
def contour (pts : List (Nat × Nat)) (x : Int) : Int :=
  match pts with
  | [] => 0
  | p0 :: _ =>
    let pn := pts.getLastD p0
    if x ≤ p0.1 then p0.2
    else if (pn.1 : Int) ≤ x then pn.2
    else
      let i := (pts.takeWhile (fun p => decide ((p.1 : Int) ≤ x))).length - 1
      let a := pts.getD i p0
      let b := pts.getD (i + 1) p0
      a.2 + ((b.2 : Int) - a.2) * (x - a.1) / ((b.1 : Int) - a.1)

/-- A chain of neighbours that all satisfy a relation. -/
def chainOk (f : Nat × Nat → Nat × Nat → Bool) : List (Nat × Nat) → Bool
  | a :: b :: l => f a b && chainOk f (b :: l)
  | _ => true

/-- Ceilings of the profiles (R626): clock in MHz and power in W. -/
def profMhz (p : Nat) : Nat := match p with | 0 => 1500 | 1 => 1200 | _ => 950
def profW (p : Nat) : Nat := match p with | 0 => 1600 | 1 => 1200 | _ => 900

/-- The shape that R634 requires of a curve. -/
def curveShape (kind prof : Nat) (l : List (Nat × Nat)) : Bool :=
  decide (2 ≤ l.length) && decide (l.length ≤ 32) && chainOk (fun a b => decide (a.1 < b.1)) l &&
  (match kind with
   | 0 => chainOk (fun a b => decide (a.2 ≤ b.2)) l && l.all (fun p => decide (650 ≤ p.2) && decide (p.2 ≤ 850)) &&
     decide ((l.headD (0, 0)).1 ≤ 500) && decide (1500 ≤ (l.getLastD (0, 0)).1) && decide (contour l 500 ≤ 750) && prof == 0xFF
   | 1 => chainOk (fun a b => decide (b.2 ≤ a.2)) l && decide (prof < 3) && l.all (fun p => decide (p.2 ≤ profW prof))
   | 2 | 3 => chainOk (fun a b => decide (b.2 ≤ a.2)) l && l.all (fun p => decide (500 ≤ p.2)) && prof == 0xFF
   | _ => false)

/-- A Contour image that keeps R634. -/
def contourOk (b : List Byte) : Bool :=
  let n := leAt b 10 2
  let hs := curveHeads b
  let key := fun h => (leAt b h 1, leAt b (h + 1) 1)
  decide (leAt b 0 8 = 0x52544E4F432D4B46) && leAt b 8 2 == 1 && decide (4 ≤ n) && decide (n ≤ 32) && decide (64 + 16 * n ≤ b.length) &&
  (slice b 12 52).all (fun x => x == 0) &&
  hs.all (fun h => leAt b (h + 3) 1 == 0 && leAt b (h + 8) 8 == 0 && decide (leAt b (h + 4) 4 + 4 * leAt b (h + 2) 1 ≤ b.length) &&
    curveShape (key h).1 (key h).2 (curvePts b h)) &&
  [(0, 0xFF), (2, 0xFF), (3, 0xFF), (1, 0), (1, 1), (1, 2)].all (fun k => (hs.filter (fun h => key h == k)).length == 1)

/-- The entry of a machine KIND in an Itinerary image (R636). -/
def machHead (b : List Byte) (kind : Nat) : Option Nat := ((List.range 3).map (fun i => 64 + 16 * i)).find? (fun h => leAt b h 1 == kind)

/-- A transition (R636). -/
structure Trans where
  src : Nat
  dst : Nat
  input : Nat
  op : Nat
  value : Nat
  action : Nat
  arg : Nat
deriving DecidableEq, Repr

/-- The transitions of a machine. -/
def machTrans (b : List Byte) (h : Nat) : List Trans :=
  (List.range (leAt b (h + 4) 2)).map (fun i =>
    let o := leAt b (h + 8) 8 + 16 * i
    ⟨leAt b o 1, leAt b (o + 1) 1, leAt b (o + 2) 1, leAt b (o + 3) 1, leAt b (o + 4) 4, leAt b (o + 8) 1, leAt b (o + 12) 4⟩)

/-- Inputs and actions of a machine kind (R637, R638). -/
def machInput (kind i : Nat) : Bool :=
  i == 0 || (match kind with | 0 => decide (1 ≤ i) && decide (i ≤ 3) | 1 => decide (4 ≤ i) && decide (i ≤ 6) | _ => i == 5 || (decide (7 ≤ i) && decide (i ≤ 9)))
def machAction (kind a : Nat) : Bool :=
  a == 0 || (match kind with | 0 => decide (a ≤ 4) | 1 => a == 5 | _ => decide (6 ≤ a) && decide (a ≤ 10))

/-- An Itinerary image that keeps R636–R638. -/
def itinOk (b : List Byte) : Bool :=
  decide (leAt b 0 8 = 0x524E4954492D4B46) && leAt b 8 2 == 1 && leAt b 10 2 == 3 && decide (112 ≤ b.length) && (slice b 12 52).all (fun x => x == 0) &&
  [0, 1, 2].all (fun k => match machHead b k with
    | none => false
    | some h =>
      let ns := leAt b (h + 1) 1
      let nt := leAt b (h + 4) 2
      decide (1 ≤ ns) && decide (ns ≤ 16) && decide (leAt b (h + 2) 1 < ns) && leAt b (h + 3) 1 == 0 && leAt b (h + 6) 2 == 0 &&
      decide (1 ≤ nt) && decide (nt ≤ 256) && decide (leAt b (h + 8) 8 + 16 * nt ≤ b.length) &&
      (List.range nt).all (fun i => slice b (leAt b (h + 8) 8 + 16 * i + 9) 3 == zeros 3) &&
      (machTrans b h).all (fun t => (t.src == 0xFF || decide (t.src < ns)) && decide (t.dst < ns) && decide (t.op < 4) && machInput k t.input && machAction k t.action))

/-! ## Limits and the clock -/

/-- The array clock in MHz. -/
def State.clock (s : State) : Nat := s.fld 0 PWR_STATUS_CLOCK_MHZ

/-- The hottest die (R632): none before the first reading. -/
def State.hottest (s : State) : Option Int :=
  match s.pwr.dies with | [] => none | e :: l => some (l.foldl (fun m x => max m x.2) e.2)
/-- The hottest stack. -/
def State.hotStack (s : State) : Option Int :=
  match s.memc.temps with | [] => none | e :: l => some (l.foldl (fun m x => max m x.2) e.2)

/-- The throttle limit while THROTTLE_N counts as asserted (R605, R627, R633). (DEDUCED: log 132) -/
def State.throttleMhz (s : State) : Option Nat :=
  if s.fld 0 TST_THROTTLE_ASSERTED = 1 then some (s.pwr.machMhz.getD (s.fld 0 PWR_THROT_MHZ)) else none

/-- The limits of R627 in their order, each with its LIMITER code. (DESIGN CHOICE: log 130) -/
def State.limits (s : State) (img : List Byte) : List (Nat × Int) :=
  let ceil : Int := profMhz (s.fld 0 PWR_STATUS_PROFILE)
  let curve := fun (k : Nat) (t : Option Int) => match t with | some x => contour (curveOf img k 0xFF) x | none => ceil
  let jct : Int := if s.pwr.hot ∨ s.pwr.trip then 500 else curve 2 s.hottest
  let thr : Int := match s.throttleMhz with | some m => m | none => ceil
  [(0, ceil), (1, s.pwr.cap), (2, jct), (3, curve 3 s.hotStack), (4, thr), (5, if s.pwr.fast then 500 else ceil)]

/-- The lowest limit, the first listed of equals (R627), and the clock it gives. -/
def lowest (l : List (Nat × Int)) : Nat × Int :=
  match l with | [] => (0, 500) | x :: r => r.foldl (fun m y => if y.2 < m.2 then y else m) x
def clockFor (m : Int) : Nat := max 500 (m / 25 * 25).toNat

/-- The clock falls at once, without waiting for a voltage (R628). (DEDUCED: log 131) -/
def State.dropClock (s : State) (mhz lim : Nat) : State :=
  let s := { s with pwr := { s.pwr with rise := none } }
  if mhz < s.clock then (s.setFld 0 PWR_STATUS_CLOCK_MHZ mhz).setFld 0 PWR_STATUS_LIMITER lim else s

/-- A voltage is written over AVSBus (R628, R645). -/
def State.avsWrite (s : State) (mv : Nat) : State :=
  ({ s with pwr := { s.pwr with avs := true } }.setFld 0 PWR_MEAS_VDD_MV mv).emit (.avs mv)

/-- The clock goes to what the limits give (R627, R628): a fall first, its voltage after; before a rise the voltage, and its acknowledgement. (DEDUCED: log 131) -/
def State.setClock (s : State) : State :=
  match s.tableOf .contour with
  | none => s
  | some img =>
    let x := lowest (s.limits img)
    let c := clockFor x.2
    let v := (contour (curveOf img 0 0xFF) c).toNat
    let s := ({ s with pwr := { s.pwr with rise := none } }).setFld 0 PWR_STATUS_LIMITER x.1
    let old := s.fld 0 PWR_MEAS_VDD_MV
    if c ≤ s.clock then
      let s := s.setFld 0 PWR_STATUS_CLOCK_MHZ c
      if v = old then s else s.avsWrite v
    else if v ≤ old ∧ !s.pwr.avs then s.setFld 0 PWR_STATUS_CLOCK_MHZ c
    else
      let s := s.avsWrite v
      { s with pwr := { s.pwr with rise := some c } }

/-- The inlet temperature in use and its source (R630). -/
def State.inletNow (s : State) : Int × Nat :=
  let now := s.frameTime
  match s.pwr.inlet with
  | some (t, at_) => if now ≤ at_ + 3000000000 then (t, 1) else report now
  | none => report now
where
  report (now : Nat) : Int × Nat :=
    match s.stw.inlet with
    | some (t, at_) => if now ≤ at_ + 10000000000 then (t, 2) else (350, 0)
    | none => (350, 0)

/-- CAPPING_EVALUATION (R626–R630): `corr` is what the on-die estimators add to the regulators' readings. (DESIGN CHOICE: log 130) -/
def execCappingEvaluation (corr : Int) (s : State) : Res :=
  match s.tableOf .contour with
  | none => .next s
  | some img =>
    let prof := s.pwr.profile
    let s := s.setFld 0 PWR_STATUS_PROFILE prof
    let inl := s.inletNow
    let s := (s.setFld 0 PWR_STATUS_INLET (unsigned 12 inl.1)).setFld 0 PWR_STATUS_INLET_SRC inl.2
    let p : Int := max 0 ((s.pwr.pout.foldl (fun n x => n + x) 0 : Nat) + corr)
    let s := s.setFld 0 PWR_MEAS_POWER_W (min 65535 p.toNat)
    let c : Int := min (profW prof) (contour (curveOf img 1 prof) inl.1)
    let room := decide (p < c - s.fld 0 PWR_CAP_HYST_W)
    let w := s.pwr
    let n := if room then w.room + 1 else 0
    let cap : Int := if c < p then w.cap - 25 * max 1 ((p - c) / 20) else if 10 ≤ n then w.cap + 25 else w.cap
    let s := { s with pwr := { w with cap := min cap (profMhz prof), room := if 10 ≤ n then 0 else n } }
    .next s.setClock

/-- AVS_ACK (R628): the voltage stands; a rise that waited for it is made. (DEDUCED: log 131) -/
def execAvsAck (s : State) : Res :=
  if !s.pwr.avs then .next s
  else
    let t := { s with pwr := { s.pwr with avs := false, rise := none } }
    match s.pwr.rise with
    | some c => .next (t.setFld 0 PWR_STATUS_CLOCK_MHZ c)
    | none => .next t

/-- AVS_ACK_TIMEOUT (R645): the clock is not raised. -/
def execAvsAckTimeout (s : State) : Res :=
  if !s.pwr.avs then .next s
  else .next (({ s with pwr := { s.pwr with avs := false, rise := none } }).incFld 0 PWR_RAIL_AVS_NACK 1)

/-- FAST_LIMITER (R631): the estimated current in A. -/
def execFastLimiter (amps : Nat) (s : State) : Res :=
  if amps ≤ s.fld 0 PWR_CAP_ICC_A ∨ s.pwr.fast then .next s
  else .next ((({ s with pwr := { s.pwr with fast := true } }).incFld 0 PWR_STATUS_ICC_EVENTS 1).dropClock 500 5)

/-- FAST_LIMITER_RELEASE (R631). -/
def execFastLimiterRelease (s : State) : Res :=
  if !s.pwr.fast then .next s else .next ({ s with pwr := { s.pwr with fast := false } }).setClock

/-! ## Sensors -/

/-- A sensor reading that counts (R632). (DESIGN CHOICE: log 134) -/
def validTemp (t : Option Int) : Option Int := match t with | some x => if -400 ≤ x ∧ x ≤ 1500 then some x else none | none => none

/-- The reading of a die: the hottest valid sensor, or the die's limit with fewer than two. (DESIGN CHOICE: log 134) -/
def dieTemp (l : List (Option Int)) : Int × Bool :=
  match l.filterMap validTemp with
  | a :: b :: r => ((b :: r).foldl max a, true)
  | _ => (1050, false)

/-- JUNCTION_SENSOR_READ (R632): the readings of every die in 0.1 °C: compute dies, fabric dies, the steward die. -/
def execJunctionSensorRead (reads : List (List (Option Int))) (s : State) : Res :=
  if reads.length ≠ 13 then .next s
  else
    let ts := reads.map dieTemp
    let valid := (reads.flatMap (fun l => l)).filterMap validTemp
    let dies : Sparse Int := ts.zipIdx.map (fun x => (x.2, x.1.1))
    let mx : Int := ts.foldl (fun (m : Int) x => max m x.1) (-400)
    let s := if ts.all Prod.snd then s else s.setFld 0 PWR_STATUS_SENSOR_FAULT 1
    let s := match valid with | [] => s | a :: r => s.setFld 0 PWR_MEAS_TJ_MAX (unsigned 12 (r.foldl max a))
    let hot := decide (1050 ≤ mx) || (s.pwr.hot && decide (1000 ≤ mx))
    let t := { s with pwr := { s.pwr with dies := dies, hot := hot } }
    if hot then .next (t.dropClock 500 2) else if s.pwr.hot then .next t.setClock else .next t

/-- STACK_TEMPERATURE_READ (R255, R632): a stack whose sensor fails counts as reading 95 °C. (DEDUCED: log 60) -/
def execStackTemperatureRead (stack : Nat) (t : Option Int) (s : State) : Res :=
  if 12 ≤ stack then .fault .noSuchUnit
  else
    let x := (validTemp t).getD 950
    let s := if (validTemp t).isNone then s.setFld 0 PWR_STATUS_SENSOR_FAULT 1 else s
    let s := { s with memc := { s.memc with temps := Sparse.put true s.memc.temps stack x } }
    let s := (List.range 32).foldl (fun s c => s.setFld (32 * stack + c) MEM_STATUS_HOT (b01 (decide (850 ≤ x)))) s
    .next (s.setFld 0 PWR_MEAS_HBM_MAX (unsigned 12 (s.hotStack.getD 0)))

/-- THERMAL_TRIP (R632): a junction at 115 °C for 100 µs, or a stack at 105 °C for 1 s. -/
def execThermalTrip (stack : Option Nat) (s : State) : Res :=
  match stack with
  | some m =>
    if 12 ≤ m then .fault .noSuchUnit
    else if s.stackTemp m < 1050 then .next s
    else .next (s.raise { cause := THERMAL_TRIP_C, die := 16 + m })
  | none =>
    match s.pwr.dies.find? (fun d => decide (1150 ≤ d.2)) with
    | none => .next s
    | some d => .next ((({ s with pwr := { s.pwr with trip := true } }).dropClock 500 2).raise { cause := THERMAL_TRIP_C, die := d.1 })

/-- A temperature in LINEAR11 (R630) in 0.1 °C, rounded down: a mantissa of 11 bits and a power of two of 5, both signed. (DESIGN CHOICE: log 134) -/
def linear11 (w : Nat) : Int :=
  let y := signed 11 w
  let n := signed 5 (w / 2 ^ 11)
  if 0 ≤ n then 10 * y * (2 ^ n.toNat : Nat) else 10 * y / (2 ^ (-n).toNat : Nat)

/-- INLET_SENSOR_READ (R630): READ_TEMPERATURE_1 of the PMBus inlet sensor that the fabric settings name; none where it does not answer. -/
def execInletSensorRead (word : Option Nat) (s : State) : Res :=
  if !((s.net.fabric.map Fabric.inlet).getD false) then .next s
  else match word.map linear11 with
  | some x => if -100 ≤ x ∧ x ≤ 700 then .next { s with pwr := { s.pwr with inlet := some (x, s.frameTime) } } else .next s
  | none => .next s

/-- PMBUS_READ (R646): READ_POUT of every regulator, in W. -/
def execPmbusRead (pout : List Nat) (s : State) : Res :=
  .next { s with pwr := { s.pwr with pout := pout.take ((s.net.fabric.map Fabric.regulators).getD 0) } }

/-- PMB_ALERT (R646): STATUS_WORD of every regulator, reported by GET_STATUS. -/
def execPmbAlert (words : List Nat) (s : State) : Res :=
  .next { s with pwr := { s.pwr with words := words.take ((s.net.fabric.map Fabric.regulators).getD 0) } }

/-! ## THROTTLE_N -/

/-- THROTTLE_N counts as asserted: the clock falls to the throttle limit (R605, R633). -/
def State.throttleOn (s : State) : State :=
  let s := s.setFld 0 TST_THROTTLE_ASSERTED 1
  s.dropClock (clockFor (s.fld 0 PWR_THROT_MHZ : Nat)) 4

/-- The throttle limit is removed (R633). -/
def State.throttleOff (s : State) : State :=
  ({ s.setFld 0 TST_THROTTLE_ASSERTED 0 with pwr := { s.pwr with qualified := false, machMhz := none } }).setClock

/-- THROTTLE_N_FALL (R605, R633). -/
def execThrottleNFall (s : State) : Res :=
  if s.inReset ∨ s.errs.thrLow then .next s
  else
    let t := { s with errs := { s.errs with thrLow := true } }
    if t.errs.thrToggle then .next t else .next t.throttleOn

/-- THROTTLE_N_RISE (R633): while toggling the pin still counts as held. -/
def execThrottleNRise (s : State) : Res :=
  if s.inReset ∨ !s.errs.thrLow then .next s
  else
    let t := { s with errs := { s.errs with thrLow := false } }
    if t.errs.thrToggle then .next t else .next t.throttleOff

/-- THROTTLE_QUALIFIED (R605, R633): an assertion of 25 µs. -/
def execThrottleQualified (s : State) : Res :=
  if s.inReset ∨ s.fld 0 TST_THROTTLE_ASSERTED = 0 ∨ s.pwr.qualified then .next s
  else .next (({ s with pwr := { s.pwr with qualified := true } }).incFld 0 TST_THROTTLE_QUALIFIED 1)

/-- THROTTLE_HELD (R605). -/
def execThrottleHeld (s : State) : Res :=
  if s.inReset ∨ s.fld 0 TST_THROTTLE_ASSERTED = 0 then .next s else .next (s.raise { cause := THROTTLE_HELD_C, die := 12 })

/-- THROTTLE_TOGGLE (R605): more than 1,000 falling edges within 1 s. The record is raised at most once a minute. -/
def execThrottleToggle (s : State) : Res :=
  if s.inReset then .next s else
  let t := ({ s with errs := { s.errs with thrToggle := true } }.setFld 0 TST_THROTTLE_TOGGLE 1).throttleOn
  match s.pwr.toggleAt with
  | some at_ => if s.frameTime < at_ + nsMin then .next t else .next (rec_ t)
  | none => .next (rec_ t)
where
  /-- The record, and its time. -/
  rec_ (t : State) : State := { t with pwr := { t.pwr with toggleAt := some t.frameTime } }.raise { cause := THROTTLE_TOGGLE_C, die := 12 }

/-- THROTTLE_TOGGLE_END (R605): high for 1 s. -/
def execThrottleToggleEnd (s : State) : Res :=
  if s.inReset ∨ !s.errs.thrToggle ∨ s.errs.thrLow then .next s
  else .next ({ s with errs := { s.errs with thrToggle := false } }).throttleOff

/-! ## Itinerary machines -/

/-- A field takes a value that an action gives (R638). (DESIGN CHOICE: log 133) -/
def State.actFld (s : State) (u : Nat) (f : Fld) (lo hi v : Nat) : State := if lo ≤ v ∧ v ≤ hi then s.setFld u f v else s

/-- The action of a transition (R638); `u` is the instance. (DEDUCED: log 132) -/
def State.act (s : State) (u : Nat) (a arg : Nat) : State :=
  match a with
  | 1 => s.actFld u ETH_PARK_CTRL_LPI_EN 0 1 arg
  | 2 => s.actFld u ETH_PARK_CTRL_RATE_EN 0 1 arg
  | 3 => s.actFld u ETH_PARK_CTRL_IDLE_US 0 1023 arg
  | 4 => s.actFld u ETH_PARK_CTRL_LOWER_S 0 255 arg
  | 5 => if 500 ≤ arg ∧ arg ≤ 1500 ∧ s.pwr.qualified ∧ s.fld 0 TST_THROTTLE_ASSERTED = 1 then { s with pwr := { s.pwr with machMhz := some arg } } else s
  | 6 => s.actFld 0 TST_WIN_SRAM_LIMIT 0 255 arg
  | 7 => s.actFld 0 TST_WIN_TILE_LIMIT 0 255 arg
  | 8 => if arg ≤ 255 then (List.range 384).foldl (fun s c => s.setFld c MEM_ROW_WIN_LIMIT arg) s else s
  | 9 => s.actFld 0 TST_ALERT_CTRL_SEV_MASK 0 15 (arg ||| 8)
  | 10 => if 1 ≤ arg ∧ arg ≤ 168 then (List.range 384).foldl (fun s c => s.setFld c MEM_SCRUB_CTRL_PERIOD_H arg) s else s
  | _ => s

/-- Records that satisfy `f` written to the log within a time. (DESIGN CHOICE: log 133) -/
def State.logCount (s : State) (within_ : Nat) (f : ErrRec → Bool) : Nat :=
  (s.errs.log ++ s.errs.waitLog.filterMap HeldRec.rec?).foldl (fun n r => if f r ∧ s.frameTime ≤ r.time.toNat + within_ then n + 1 else n) 0

/-- An input of a machine (R637). `util` gives the ports' utilisation, `corr` the CORRECTED records of the last hour. (DESIGN CHOICE: log 133) -/
def State.machIn (s : State) (u i ms : Nat) (util : List Nat) (corr : Nat) : Nat :=
  match i with
  | 0 => ms
  | 1 => util.getD u 0
  | 2 => b01 ((s.prov (s.fld u ETH_PORT_STATUS_OWNER)).st == .running)
  | 3 => s.fld u ETH_PORT_STATUS_LINK
  | 4 => s.fld 0 TST_THROTTLE_ASSERTED
  | 5 => s.fld 0 PWR_MEAS_TJ_MAX
  | 6 => s.fld 0 PWR_MEAS_POWER_W
  | 7 => corr
  | 8 => s.logCount (1440 * nsMin) ErrRec.repaired
  | 9 => s.fld 0 TST_FUSE_LEFT_LEFT
  | _ => 0

/-- One evaluation of a machine instance (R637). (DESIGN CHOICE: log 133) -/
def State.machStep (s : State) (img : List Byte) (u : Nat) (util : List Nat) (corr : Nat) (restart : Bool) : State :=
  let kind := if u < 64 then 0 else if u = 64 then 1 else 2
  match machHead img kind with
  | none => s
  | some h =>
    let x := Sparse.get MachInst.init s.pwr.machs u
    let x : MachInst := if restart then ⟨leAt img (h + 2) 1, 0⟩ else { x with ms := x.ms + 1 }
    let t := (machTrans img h).find? (fun t =>
      (t.src == 0xFF || t.src == x.st) &&
      (let v := s.machIn u t.input x.ms util corr
       match t.op with | 0 => decide (t.value ≤ v) | 1 => decide (v < t.value) | 2 => v == t.value | _ => v != t.value))
    let r : MachInst × State := match t with
      | some t => (⟨t.dst, 0⟩, s.act u t.action t.arg)
      | none => (x, s)
    let s := { r.2 with pwr := { r.2.pwr with machs := Sparse.set MachInst.init r.2.pwr.machs u r.1 } }
    if kind = 1 then s.setFld 0 PWR_THROT_STATE r.1.st else s

/-- ITINERARY_EVALUATION (R637–R640): every instance fires at most one transition. -/
def execItineraryEvaluation (util : List Nat) (corr : Nat) (s : State) : Res :=
  match s.tableOf .itinerary with
  | none => .next s
  | some img =>
    let t := (List.range 66).foldl (fun s u =>
      if u < 64 ∧ s.portLanes u = 0 then s else s.machStep img u util corr s.pwr.restart) s
    .next { t with pwr := { t.pwr with restart := false } }

end Sys2Proof.Machine
end

