-- ==== Sys2Proof/Machine/Errors.lean ====
section
/-! DEFINITION. Errors at work (spec file 19): records arriving and being handled (R586–R594), SRAM and tile repair (R597–R602), the alert pin
(R593), debug deals (R604). -/
namespace Sys2Proof.Machine

/-- A record as reported by a unit. -/
def errOf (r : ErrIn) : ErrRec :=
  { cause := r.cause, prov := r.prov, die := r.die, unit := r.unit, addr := r.addr, bit := r.bit, aux := r.aux, detail0 := r.detail0,
    detail1 := r.detail1 }

/-- ERROR_RECORD_ARRIVE (R586–R592): a unit reports an error, which takes its place in its queue, or latches FATAL. (DEDUCED: log 127) -/
def execErrorRecordArrive (r : ErrIn) (s : State) : Res := .next (s.raise (errOf r))

/-- FATAL (R592): STEWARD_FAIL, ISOLATION_FAULT or THERMAL_TRIP stops dealing, sending and fetching. (DEDUCED: log 128) -/
def execFatal (cause die : Nat) (s : State) : Res :=
  if causeSev cause = 3 then .next (s.raise { cause := cause, die := die }) else .next s

/-- RECORDS_LOST (R590): raised with the number lost, at most once a second. -/
def execRecordsLost (s : State) : Res :=
  if s.errs.lost = 0 ∨ s.errs.lostAt.any (fun t => decide (s.frameTime < t + 1000000000)) then .next s
  else
    let n := s.errs.lost
    .next ({ s with errs := { s.errs with lost := 0, lostAt := some s.frameTime } }.raise { cause := RECORDS_LOST_C, die := 12, aux := n })

/-- ALERT_PULSE_END (R593): the pulse is over; a pin held asserted stays low. -/
def execAlertPulseEnd (s : State) : Res := .next { s with errs := { s.errs with pulse := false } }.alertView

/-- The physical tile that a record's DIE and UNIT name (R587). (DEDUCED: log 58) -/
def recTile (r : ErrRec) : Nat := r.die * 528 + r.unit / 256 * 33 + r.unit % 256

/-- The row of a tile as one number of the device, die by die. -/
def rowKey (tile : Nat) : Nat := dieOfTile tile * 16 + rowOfTile tile

/-- An allocation unit is retired (R602); what the handling of a record raises is NESTED (R591). (DEDUCED: log 108, 129) -/
def State.retireUnit (s : State) (tile : Nat) : State :=
  match s.logCol tile with
  | none => s
  | some c =>
    let u := (dieOfTile tile, c)
    if s.errs.retired.contains u then s
    else
      let p := s.unitOwner u.1 u.2
      let s := { s with errs := { s.errs with retired := s.errs.retired ++ [u] } }
      (if p = 0 then s else s.askPause p).raise { cause := UNIT_RETIRED, die := u.1, prov := p, unit := tileUnit tile, nested := true }

/-- A lasting tile fault (R600, R602): the row's spare is tested and the row moved, or the unit is retired. -/
def State.tileLasting (s : State) (tile : Nat) : State :=
  let e := s.errs
  if (s.logCol tile).isNone ∨ e.moves.any (fun m => m.tile == tile) then s
  else if s.fld (dieOfTile tile) (DLR_ROWMAP_FAULTCOL (rowOfTile tile)) = 32 ∧ !e.badSpare.contains (rowKey tile) ∧
      !e.moves.any (fun m => rowKey m.tile == rowKey tile) then
    { s with errs := { e with moves := e.moves ++ [{ tile := tile, phase := .test }] } }
  else s.retireUnit tile

/-- The bank of a sheet-store byte address (R67). -/
def sheetBank (a : Nat) : Nat := (a / 16 % 32 + a / 512 + a / 512 / 32) % 32

/-- Spares of each kind (R597). -/
def SpareKind.count : SpareKind → Nat | .row => 8 | .col => 2 | .prog => 4

/-- A lasting SRAM-bit fault (R597, R599): `march` spares fail their march and are marked bad; with none left it is a lasting tile fault. (DEDUCED: log 62) -/
def State.sramLasting (s : State) (tile : Nat) (prog : Bool) (addr bit march : Nat) : State :=
  let e := s.errs
  let bank := if prog then 32 else sheetBank addr
  let mine := e.spares.filter (fun u => u.tile == tile && u.bank == bank)
  let kind : SpareKind := if prog then .prog
    else if mine.any (fun u => !u.bad && u.bit == bit && u.addr / 512 != addr / 512) then .col else .row
  let left := kind.count - (mine.filter (fun u => u.kind == kind)).length
  if e.fixes.any (fun f => f.tile == tile && f.prog == prog && f.addr / 16 == addr / 16) then s
  else
    let bad := (List.range (min march left)).map (fun _ => ({ tile := tile, bank := bank, kind := kind, addr := addr, bit := bit, bad := true } : SpareUse))
    let s := { s with errs := { e with spares := e.spares ++ bad } }
    if march < left then
      let u : SpareUse := { tile := tile, bank := bank, kind := kind, addr := addr, bit := bit, bad := false }
      State.noteRepair ({ s with errs := { s.errs with spares := s.errs.spares ++ [u], soft := s.errs.soft ++ [.spare u],
                                                        fixes := s.errs.fixes ++ [{ tile := tile, prog := prog, addr := addr }] } } : State)
    else s.tileLasting tile

/-- Nanoseconds in a window of hours; 0 hours is treated as 1. (DESIGN CHOICE: log 61) -/
def nsHours (h : Nat) : Nat := 60 * nsMin * max 1 h

/-- A record is counted in its window `n` times (R594). -/
def State.winTimes (s : State) (k : WinKind) (unit limit window n : Nat) : State × Bool :=
  (List.range (max 1 n)).foldl (fun (x : State × Bool) _ =>
    let y := x.1.winHit k unit limit window
    (y.1, x.2 || y.2)) (s, false)

/-- The window of a record, and the repair that a lasting fault begins (R278, R594, R599, R600). -/
def State.judge (s : State) (r : ErrRec) (march : Nat) : State × Bool :=
  if r.cause = SRAM_CORRECTED then
    let x := s.winTimes .sram ((recTile r * 2 + r.aux % 2) * 2 ^ 24 + r.addr / 8) (s.fld 0 TST_WIN_SRAM_LIMIT) (nsHours (s.fld 0 TST_WIN_SRAM_WINDOW_H)) r.count
    if x.2 then (x.1.sramLasting (recTile r) (r.aux == 1) r.addr r.bit march, true) else x
  else if r.cause = TILE_FAULT then
    let x := s.winTimes .tile (recTile r) (s.fld 0 TST_WIN_TILE_LIMIT) (nsHours (s.fld 0 TST_WIN_TILE_WINDOW_H)) r.count
    if x.2 then (x.1.tileLasting (recTile r), true) else x
  else if r.cause = ECC_CORRECTED then s.rowEvent r.addr r.count false
  else if r.cause = ECC_POISON then s.rowEvent r.addr r.count true
  else (s, false)

/-- Whether ERRLOG takes a record (R593). -/
def ErrRec.logged (r : ErrRec) : Bool :=
  decide (1 ≤ r.sev) || r.lasting || r.repaired || r.cause == BIST_REPAIRED || r.cause == BIST_UNREPAIRED || r.cause == STEWARD_RESTART ||
  r.cause == THROTTLE_HELD_C

/-- The record the steward takes next (R589): among the heads of the queues, the highest severity, then the lowest SEQ; with its queue. -/
def State.headRec (s : State) : Option (Nat × ErrRec) :=
  s.errs.queues.foldl (fun best e => match e.2, best with
    | [], _ => best
    | r :: _, none => some (e.1, r)
    | r :: _, some b => if b.2.sev < r.sev ∨ (b.2.sev = r.sev ∧ r.seq < b.2.seq) then some (e.1, r) else best) none

/-- ERROR_RECORD_HANDLE (R589, R591, R593, R594): the steward takes a record, counts it in its window, begins the repair of a lasting fault, logs
and reports it. Nothing is handled while the steward restarts or FATAL is latched. `march` counts the spares that fail their march. -/
def execErrorRecordHandle (march : Nat) (s : State) : Res :=
  if s.stw.restarting ∨ s.fld 0 TST_STATUS_FATAL = 1 then .next s
  else match s.headRec with
  | none => .next s
  | some (k, r) =>
    let e := s.errs
    let s := { s with errs := { e with queues := Sparse.set [] e.queues k ((Sparse.get [] e.queues k).drop 1) } }
    let s := s.setFld 0 TST_STATUS_QFULL (b01 s.anyFull)
    let x := s.judge r march
    let r := { r with lasting := r.lasting || x.2 }
    let s := if r.logged then x.1.logErr r else x.1
    .next (s.tspNote (.error r))

/-- The SCRATCH range of an Atlas (R227): first byte and bytes. -/
def Img.scratch (g : Img) : Nat × Nat := let w := g 164 4; (bits w 0 12 * 512, bits w 16 12 * 512)

/-- A repair copy met uncorrectable words (R601): they are zero, and data lost outside SCRATCH stops the province. (DEDUCED: log 129) -/
def State.copyLost (s : State) (tile : Nat) (words : List Nat) : State :=
  let p := s.ownerOfTile tile
  let t := s.tile tile
  let s := s.setTile tile { (t.write (words.flatMap (fun w => (List.range 16).map (fun i => (16 * w + i, (0 : Byte)))))).1 with badWords := t.badWords.filter (fun w => !words.contains w.1) }
  let r := (s.img p).scratch
  let inside := fun (w : Nat) => (s.prov p).loaded && decide (r.1 ≤ 16 * w) && decide (16 * w < r.1 + r.2)
  if p = 0 ∨ words.all inside then s
  else s.raise { cause := TILE_DATA_LOST, die := dieOfTile tile, prov := p, unit := tileUnit tile, addr := 16 * (words.getD 0 0), nested := true }

/-- What the move of a row copies from one tile to the next (R252): sheet store and program store. -/
def State.copyTile (s : State) (src dst : Nat) : State :=
  let a := s.tile src
  s.setTile dst { (s.tile dst) with sheet := a.sheet, badWords := a.badWords, prog := a.prog, loadedFor := a.loadedFor }

/-- TILE_MOVE_DONE (R252, R600, R601): the copies run from the highest moved position down to the failed tile, and FAULTCOL is written; MOVING
clears at the next boundary. -/
def execTileMoveDone (tile : Nat) (s : State) : Res :=
  onTile tile (
    if !s.errs.moves.any (fun m => m.tile == tile && m.phase == .moving) then s
    else
      let base := tile / 33 * 33
      let f := tile % 33
      let s := (List.range (32 - f)).foldl (fun s i =>
        let src := base + (31 - i)
        let bad := (s.tile src).badWords.map Prod.fst
        let s := if bad = [] then s else s.copyLost src bad
        s.copyTile src (src + 1)) s
      let s := s.setFld (dieOfTile tile) (DLR_ROWMAP_FAULTCOL (rowOfTile tile)) f
      State.noteRepair ({ s with errs := { s.errs with moves := s.errs.moves.map (fun m => if m.tile = tile then { m with phase := .done } else m),
                                                        soft := s.errs.soft ++ [.col (rowKey tile) f] } } : State))

/-- RELEASE_TEST_DONE (R595, R596, R600, R602): the RELEASE program on the spare tile of a row, or on an allocation unit. One record for each
failing location; in DEPLOYED without DETAIL and AUX. -/
def execReleaseTestDone (die n : Nat) (spare : Bool) (found : List ErrIn) (s : State) : Res :=
  if 8 ≤ die then .fault .noSuchUnit
  else
    let shown := s.fld 0 STW_STATUS_LC != 3
    let fails := found.any (fun r => r.cause == BIST_UNREPAIRED)
    let s := (found.filter (fun r => r.cause == BIST_REPAIRED || r.cause == BIST_UNREPAIRED)).foldl (fun s r =>
      s.raise (if shown then (errOf r) else { (errOf r) with aux := 0, detail0 := 0, detail1 := 0 })) s
    let e := s.errs
    if spare then
      match e.moves.find? (fun m => m.phase == .test && rowKey m.tile == die * 16 + n) with
      | none => .next (if fails then { s with errs := { e with badSpare := (die * 16 + n) :: e.badSpare } } else s)
      | some m =>
        if fails then
          .next ({ s with errs := { e with badSpare := (die * 16 + n) :: e.badSpare, moves := e.moves.filter (fun (x : TileMove) => x.tile != m.tile) } }.retireUnit m.tile)
        else .next { s with errs := { e with moves := e.moves.map (fun (x : TileMove) => if x.tile = m.tile then { x with phase := .ready } else x) } }
    else if fails then .next s
    else .next { s with errs := { e with untested := e.untested.filter (fun u => u != (die, n)) } }

/-- Whether no tile of a tile's row runs a trick. (DEDUCED: log 63) -/
def State.rowIdle (s : State) (tile : Nat) : Bool := (List.range 33).all (fun c => (s.tile (tile / 33 * 33 + c)).trick.isNone)

/-- MOVING of a tile's row. (DEDUCED: log 63) -/
def State.setMoving (s : State) (tile v : Nat) : State := s.setFld (dieOfTile tile) (DLR_ROWMAP_MOVING (rowOfTile tile)) v

/-- Repairs at a frame boundary (R252, R599, R600, R616): a repair whose work is done clears MOVING; one that is ready sets it. (DEDUCED: log 63) -/
def State.repairBoundary (s : State) : State :=
  let s := s.errs.fixes.foldl (fun s f =>
    if f.moving then
      let bad := !f.prog && Sparse.get false (s.tile f.tile).badWords (f.addr / 16)
      let s := if bad then s.copyLost f.tile [f.addr / 16] else s
      let s := { s with errs := { s.errs with fixes := s.errs.fixes.filter (fun x => x != f) } }
      (s.setMoving f.tile 0).raise { cause := SRAM_REPAIRED, die := dieOfTile f.tile, prov := s.ownerOfTile f.tile, unit := tileUnit f.tile,
                                     addr := f.addr, aux := b01 f.prog, repaired := true }
    else if s.fld (dieOfTile f.tile) (DLR_ROWMAP_MOVING (rowOfTile f.tile)) = 0 ∧ s.rowIdle f.tile then
      { s with errs := { s.errs with fixes := s.errs.fixes.map (fun x => if x = f then { x with moving := true } else x) } }.setMoving f.tile 1
    else s) s
  s.errs.moves.foldl (fun s m => match m.phase with
    | .done =>
      let s := { s with errs := { s.errs with moves := s.errs.moves.filter (fun x => x.tile != m.tile) } }
      let f := m.tile % 33
      let s := (List.range (33 - f)).foldl (fun s i => (s.srvClear (srvTile (m.tile + i))).setFld (m.tile + i) SRV_STATUS_MOVED 1) s
      (s.setMoving m.tile 0).raise { cause := TILE_REPAIRED, die := dieOfTile m.tile, unit := tileUnit m.tile, repaired := true }
    | .ready =>
      if s.fld (dieOfTile m.tile) (DLR_ROWMAP_MOVING (rowOfTile m.tile)) = 0 ∧ s.rowIdle m.tile then
        { s with errs := { s.errs with moves := s.errs.moves.map (fun (x : TileMove) => if x.tile = m.tile then { x with phase := .moving } else x) } }.setMoving m.tile 1
      else s
    | _ => s) s

/-- DEBUG_DEAL (R559, R604): the steward starts one trick of a province in recovery on one of its tiles. -/
def execDebugDeal (tile trick : Nat) (s : State) : Res :=
  onTile tile (
    let p := s.ownerOfTile tile
    let pr := s.prov p
    match s.idxOf p tile with
    | some idx =>
      if p = 0 ∨ pr.st ≠ .paused ∨ !pr.recovery ∨ !pr.loaded ∨ (s.tile tile).trick.isSome then s
      else
        let s := s.startTrick p tile idx { pframe := pr.k, trick := trick, home := idx }
        s.setTile tile { (s.tile tile) with trick := (s.tile tile).trick.map (fun c => { c with debug := true }) }
    | none => s)

end Sys2Proof.Machine
end

