-- ==== Sys2Proof/Machine/Survey.lean ====
section
/-! DEFINITION. The Survey's configuration and its by-products (R610–R622): filters, snapshots, half-range marks, skid samples and their ring, tagging. -/
namespace Sys2Proof.Machine

/-- SRV_CFG_WRITE (R610–R613): the counter returns to 0; an event of another unit leaves EVENT and sets CFG_ERR; a virtual function's filter stays within its province. -/
def execSrvCfgWrite (who : Master) (addr value : Nat) (s : State) : Res :=
  match s.regFor who addr with
  | none => .next s
  | some r =>
    let i := (r.off - 0x200) / 8
    if r.block ≠ .srv ∨ r.off < 0x200 ∨ 0x240 ≤ r.off ∨ r.off % 8 ≠ 0 ∨ srvProgs r.unit ≤ i then .next s
    else
      let v := match who with
        | .steward => value
        | .fn f => if f = 0 then value else setBits (setBits value 8 8 (s.fnProv f)) 17 1 0
      let e := bits v 0 8
      let rg := srvRange r.unit
      let ok := e == 0 || (decide (rg.1 ≤ e) && decide (e ≤ rg.2))
      let old := (s.reg r.unit (SRV_CFG i)).toNat
      let v := if ok then v else setBits v 0 8 (bits old 0 8)
      let w := match Block.srv.find r.off with | some d => d.put v (2 ^ 64 - 1) false old | none => old
      let s := (s.setReg r.unit (SRV_CFG i) (BitVec.ofNat 64 w)).setFld r.unit (SRV_CNT_COUNT i) 0
      .next (if ok then s else s.setFld r.unit SRV_STATUS_CFG_ERR 1)

/-- SRV_SNAP (R615): a write of `SRV_SNAP` with SNAP = 1. -/
def execSrvSnap (who : Master) (addr value : Nat) (s : State) : Res :=
  match s.regFor who addr with
  | none => .next s
  | some r =>
    if r.block ≠ .srv ∨ r.off ≠ 0x328 then .next s
    else
      let s := s.writeAt r 4 value
      .next (if bitAt value 0 then s.srvCopy r.unit else s)

/-- PROV_SRV_SNAP (R615): a write of `PROV_SRV_CTRL.SNAP`; the copies are made at the next boundary. -/
def execProvSrvSnap (who : Master) (addr value : Nat) (s : State) : Res :=
  match s.regFor who addr with
  | none => .next s
  | some r =>
    if r.block ≠ .prov ∨ r.off ≠ 0x248 ∨ !bitAt value 0 ∨ s.provAbsent r then .next s
    else .next (s.setProv r.unit { (s.prov r.unit) with snapReq := true })

/-- The Survey units of a province (R613). -/
def State.provUnits (s : State) (p : Nat) : List Nat :=
  let pr := s.prov p
  (List.range (16 * pr.units.length)).filterMap (fun i => s.tileOf p i) ++ ((List.range 8).filter (fun d => s.holdsDie p d)).map srvDie ++
  pr.chans.map srvChan ++ [srvProv p]

/-- A province's snapshot at a boundary (R615). -/
def State.provSnap (s : State) (p : Nat) : State :=
  if (s.prov p).snapReq then ((s.provUnits p).foldl State.srvCopy s).setProv p { (s.prov p) with snapReq := false } else s

/-- COUNTER_HALF_RANGE (R608): a counter of an event that counts time sets bit 47 (other counters do so as they count). Counters 0–7 are fixed, 8–15 programmable. -/
def execCounterHalfRange (unit ctr : Nat) (s : State) : Res :=
  if srvProv 255 < unit ∨ 16 ≤ ctr then .fault .noSuchUnit
  else
    let has := if ctr < 8 then decide (ctr < (srvFixed unit).length) else decide (ctr - 8 < srvProgs unit)
    if !has ∨ !srvTimed (s.counterEvent unit ctr) then .next s
    else if ctr < 8 then .next ((s.orFld unit SRV_HALF_FIX (2 ^ ctr)).emit (.stewardIrq unit))
    else .next ((s.orFld unit SRV_HALF_CNT (2 ^ (ctr - 8))).emit (.stewardIrq unit))

/-- A sample record (R618). (DESIGN CHOICE: log 23, 34) -/
def State.sampleRec (s : State) (tile : Nat) (seat : Option Nat) (skid cycle : Nat) : List Byte :=
  let t := s.tile tile
  let ctr := s.fld tile SRV_SAMP_CTR
  let cnt := s.counterVal tile (if ctr < 4 then ctr else 4 + ctr) false
  let p := s.ownerOfTile tile
  leBytes 4 ((t.trick.map TrickCtx.trick).getD 0xFFFFFFFF) ++ leBytes 2 ((seat.map (fun n => (t.seat n).pc)).getD 0) ++ leBytes 1 (seat.getD 0xFF) ++
  leBytes 1 (if seat.isNone then 0xFF else skid) ++ leBytes 8 s.frame ++ leBytes 4 cycle ++ leBytes 2 ((s.idxOf p tile).getD 0) ++ leBytes 1 ctr ++
  leBytes 1 (b01 t.sampleLost) ++ leBytes 8 cnt

/-- SKID_SAMPLE (R617–R619): the sample names a seat's next instruction, or none. A full buffer loses it. (DESIGN CHOICE: log 23, 48) -/
def execSkidSample (tile : Nat) (seat : Option Nat) (skid : Nat) (s : State) : Res :=
  onTile tile (
    let t := s.tile tile
    if s.fld tile SRV_SAMP_EN = 0 ∨ !(seat.all (fun n => decide (n < 8))) ∨ (16 < skid ∧ skid ≠ 0xFF) then s
    else if 8 ≤ t.samples.length then (s.setTile tile { t with sampleLost := true }).incFld tile SRV_STATUS_LOST 1
    else
      let r := s.sampleRec tile seat skid (s.freeVal.1.toNat / 2 ^ 32)
      s.spend.setTile tile { t with samples := t.samples ++ [r], sampleLost := false })

/-- One sample goes to its province's ring (R619); with no ring it is discarded. (DESIGN CHOICE: log 48) -/
def State.ringPut (s : State) (p : Nat) (r : List Byte) : State :=
  let size := s.fld p PROV_SRV_RING_SIZE
  let pr := s.prov p
  if p = 0 ∨ size = 0 then s
  else (s.vput p (s.fld p PROV_SRV_RING_BASE + 32 * (pr.ringPos % size)) r).setProv p { pr with ringPos := (pr.ringPos + 1) % size }

/-- SAMPLE_RING_MOVE (R619): a die collector moves up to 128 samples, tile by tile, oldest first. -/
def execSampleRingMove (die : Nat) (s : State) : Res :=
  if 8 ≤ die then .fault .noSuchUnit
  else .next ((List.range 528).foldl (fun (x : State × Nat) i =>
    let t := die * 528 + i
    let l := ((x.1.tile t).samples).take x.2
    if l.isEmpty then x
    else
      let s := x.1.setTile t { (x.1.tile t) with samples := (x.1.tile t).samples.drop l.length }
      (l.foldl (fun s r => s.ringPut (s.ownerOfTile t) r) s, x.2 - l.length)) (s, 128)).1

/-- When tagging may be enabled (R621). -/
def State.tagAllowed (s : State) (tile : Nat) : Bool :=
  s.fld 0 STW_STATUS_BOOT == 2 || s.dbgAllowed tile

/-- SRV_TAG_ENABLE (R621, R622): a write of `SRV_TAG` by the steward or PF0; the tagged instruction is a free value within the window. (DESIGN CHOICE: log 23; DEDUCED: log 46) -/
def execSrvTagEnable (who : Master) (addr value : Nat) (s : State) : Res :=
  match s.regFor who addr with
  | none => .next s
  | some r =>
    let mine := match who with | .steward => true | .fn f => f == 0
    if r.block ≠ .srv ∨ r.off ≠ 0x318 ∨ 4224 ≤ r.unit ∨ !mine then .next s
    else if bitAt value 0 ∧ !s.tagAllowed r.unit then .next (s.setFld r.unit SRV_STATUS_DENIED 1)
    else
      let w := bits value 2 5
      let s := s.setFld r.unit SRV_TAG_EN (value % 2)
      let s := if w ≤ 20 then s.setFld r.unit SRV_TAG_WIN w else s
      let s := if bitAt value 1 then s.setFld r.unit SRV_TAG_DONE 0 else s
      let t := s.tile r.unit
      if bitAt value 0 then .next (s.spend.setTile r.unit { t with tag := .armed (s.freeVal.1.toNat % 2 ^ s.fld r.unit SRV_TAG_WIN) })
      else .next (s.setTile r.unit { t with tag := .off })

/-- A tile's tag is withdrawn (R559, R621). -/
def State.dropTag (s : State) (tile : Nat) : State := (s.setTile tile { (s.tile tile) with tag := .off }).setFld tile SRV_TAG_EN 0

/-- TAG_RECORD_DONE (R622): the tagged instruction completes, or its trick was misdealt, recalled or faulted first. Cycle counts are free values. (DEDUCED: log 47) -/
def execTagRecordDone (tile : Nat) (complete : Bool) (s : State) : Res :=
  onTile tile (
    let t := s.tile tile
    match t.tag with
    | .held trick pc seat insn =>
      let ok := complete && (match t.trick with | some c => c.trick == trick | none => false)
      let a := s.freeVal.1
      let s := s.spend
      let b := s.freeVal.1
      let s := s.spend
      let s := s.setReg tile (SRV_TAGREC 0) (BitVec.ofNat 64 (trick % 2 ^ 32 + pc % 4096 * 2 ^ 32 + seat % 8 * 2 ^ 44 + b01 ok * 2 ^ 47))
      let s := ((s.setReg tile (SRV_TAGREC 1) (BitVec.ofNat 64 insn)).setReg tile (SRV_TAGREC 2) a).setReg tile (SRV_TAGREC 3) b
      (s.setFld tile SRV_TAG_DONE 1).setTile tile { t with tag := .off }
    | _ => s)

end Sys2Proof.Machine
end

