-- ==== Sys2Proof/Machine/Boot.lean ====
section
/-! DEFINITION. Reset, boot and shut-down (R536–R546, R595–R598, R645, R647, R649–R652, R656, R678), the cartridge's presence and writes (R540–R542, R606, R658), the TAP (R659). -/
namespace Sys2Proof.Machine

/-- Stages of `STW_STATUS.BOOT` (R543). -/
def BOOT_ROM : Nat := 0
def BOOT_CARTRIDGE : Nat := 1
def BOOT_SELFTEST : Nat := 2
def BOOT_HBM_INIT : Nat := 3
def BOOT_BRINGUP : Nat := 4
def BOOT_READY : Nat := 5
def BOOT_SHUTDOWN : Nat := 6
def BOOT_OFF_READY : Nat := 7
def BOOT_FAIL : Nat := 8

/-- Life-cycle states (R546). -/
def LC_BLANK : Nat := 0
def LC_MANUFACTURE : Nat := 1
def LC_PROVISIONED : Nat := 2
def LC_DEPLOYED : Nat := 3
def LC_RETURNED : Nat := 4
def LC_SCRAPPED : Nat := 5

/-- The life-cycle state and the ownership number that the fuses give (R546). -/
def StwState.life (x : StwState) : Nat :=
  if x.scrap then LC_SCRAPPED
  else if x.fuseK = 0 then LC_BLANK
  else if x.fuseK = 1 then LC_MANUFACTURE
  else match x.fuseK % 3 with | 2 => LC_PROVISIONED | 0 => LC_DEPLOYED | _ => LC_RETURNED
def StwState.ownership (x : StwState) : Nat := if x.life = LC_DEPLOYED then x.fuseK / 3 else 0

def State.boot (s : State) : Nat := s.fld 0 STW_STATUS_BOOT
def State.setBoot (s : State) (n : Nat) : State := s.setFld 0 STW_STATUS_BOOT n

/-- `STW_STATUS` shows the fuses' life-cycle state (R545, R546). -/
def State.showLife (s : State) : State := (s.setFld 0 STW_STATUS_LC s.stw.life).setFld 0 STW_STATUS_OWNERSHIP s.stw.ownership

/-- Whether a province exists. -/
def State.anyProv (s : State) : Bool := s.provs.any (fun e => e.2.st != .none_)

/-! ## The repair map (R597, R598) -/

/-- An orderly shut-down writes the fault windows beside the map (R594). -/
def State.saveWins (s : State) : State := { s with errs := { s.errs with saved := s.errs.saved.map (fun m => { m with wins := s.errs.wins }) } }

/-- ERRLOG, the module records and, after a clean shut-down, the fault windows of the cartridge that is read; the record count goes on from ERRLOG (R587, R594). A cartridge that the
device has not used last has none; a log page that fails its check is ignored with every later one (R540). (DESIGN CHOICE: log 122) -/
def State.readLogs (s : State) (c : Cartridge) : State :=
  let mine := s.errs.logCart == some c.id
  let log := if mine then (match c.badErr with | some n => s.errs.log.drop (s.errs.log.length - n) | none => s.errs.log) else []
  let wins := match s.errs.saved with | some m => if m.cart = c.id ∧ c.testRecord then m.wins else [] | none => []
  { s with errs := { s.errs with log := log, logCart := some c.id, wins := wins, seq := max s.errs.seq (match log.head? with | some r => r.seq + 1 | none => 0) },
           net := { s.net with modulesSaved := if mine then s.net.modulesSaved else [] } }

/-- One repair is applied again. -/
def State.applyRepair (s : State) : Repair → State
  | .spare u => { s with errs := { s.errs with spares := s.errs.spares ++ [u] } }
  | .col row f => s.setFld (row / 16) (DLR_ROWMAP_FAULTCOL (row % 16)) f
  | .lane n => { s with errs := { s.errs with lanes := s.errs.lanes ++ [⟨n, false, true⟩] } }

/-- Fuses and the repair map of the cartridge in use, where it verifies, are applied (R543, R544, R597). (DESIGN CHOICE: log 124) -/
def State.applyRepairs (s : State) : State :=
  let m := match s.errs.saved with | some m => if (s.cartIn.map Cartridge.id) = some m.cart ∧ (s.cartIn.map Cartridge.repairOk) = some true then some m else none | none => none
  let soft := ((m.map RepairMap.soft).getD []).filter (fun r => !s.errs.fuses.contains r)
  let s := (s.errs.fuses ++ soft).foldl State.applyRepair s
  let hard := fun (g : Nat) => s.errs.hppr.contains g
  let rows := ((m.map RepairMap.remap).getD []).filterMap (fun e => let l := e.2.filter (fun x => !hard x.1); if l = [] then none else some (e.1, l))
  let s := { s with errs := { s.errs with soft := soft }, memc := { s.memc with remap := rows, sppr := ((m.map RepairMap.sppr).getD []).filter (fun g => !hard g) } }
  s.memc.remap.foldl (fun s e => s.setFld e.1 MEM_STATUS_REMAP_USED e.2.length) s

/-- Soft repairs turn into fuses, oldest first, for as long as entries remain (R598). -/
def State.blowRepairs (s : State) : State :=
  let room := 512 - s.errs.fuses.length
  let e := s.errs
  let s := { s with errs := { e with fuses := e.fuses ++ e.soft.take room, soft := e.soft.drop room } }
  let s := s.setFld 0 TST_FUSE_LEFT_LEFT (512 - s.errs.fuses.length)
  if s.errs.soft = [] then s else s.raise { cause := FUSE_BUDGET, die := 12, aux := s.errs.soft.length }

/-- Soft repairs of HBM rows become hPPR where the stack allows it (R280, R598); it is held in the stack. (DESIGN CHOICE: log 124) -/
def State.hardenRows (s : State) : State :=
  let rows := s.memc.sppr ++ s.memc.remap.flatMap (fun e => e.2.map Prod.fst)
  { s with errs := { s.errs with hppr := s.errs.hppr ++ rows.filter (fun g => Config.hpprAllows g && !s.errs.hppr.contains g) } }

/-- The records of a self-test (R596): in DEPLOYED without DETAIL and AUX. A location that a spare replaced in a tile's SRAMs takes that spare. (DESIGN CHOICE: log 120) -/
def State.bistRec (s : State) (r : ErrIn) : State :=
  if r.cause ≠ BIST_REPAIRED ∧ r.cause ≠ BIST_UNREPAIRED then s
  else
    let x := errOf r
    let tile := recTile x
    let s := if r.cause = BIST_REPAIRED ∧ r.die < 8 ∧ tile < 4224 then
        let prog := r.aux == 1
        let u : SpareUse := ⟨tile, if prog then 32 else sheetBank r.addr, if prog then .prog else .row, r.addr, r.bit, false⟩
        { s with errs := { s.errs with spares := s.errs.spares ++ [u], soft := s.errs.soft ++ [.spare u] } }
      else s
    s.raise (if s.fld 0 STW_STATUS_LC = LC_DEPLOYED then { x with aux := 0, detail0 := 0, detail1 := 0 } else x)

/-- A FULL test gives back the retired units in which it finds nothing unrepaired (R602). (DEDUCED: log 108) -/
def State.fullPass (s : State) (found : List ErrIn) : State :=
  let bad := fun (u : Nat × Nat) => found.any (fun r => r.cause == BIST_UNREPAIRED && r.die == u.1 && s.logCol (recTile (errOf r)) == some u.2)
  { s with errs := { s.errs with retired := s.errs.retired.filter bad } }

/-! ## Reset -/

/-- What a reset of the whole device leaves (R9, R649): fuses, the rows that hPPR repaired, the cartridge with its logs, pins, retired units (R602), and the commands that wait are kept. -/
def State.cleared (s : State) : State :=
  let x := s.stw
  { State.reset with
    pending := s.pending, free := s.free, sent := s.sent, perst := s.perst, pinReset := s.pinReset, railLow := s.railLow, clkLow := s.clkLow,
    stw := { ({} : StwState) with cart := x.cart, cartSeen := x.cartSeen, cartPolls := x.cartPolls, fuseK := x.fuseK, scrap := x.scrap, uds := x.uds, devid := x.devid, troots := x.troots, owners := x.owners,
                                  svnFused := x.svnFused, revoked := x.revoked },
    errs := { ({} : ErrState) with log := s.errs.log, logCart := s.errs.logCart, saved := s.errs.saved, fuses := s.errs.fuses, hppr := s.errs.hppr, retired := s.errs.retired },
    net := { ({} : NetState) with modulesSaved := s.net.modulesSaved } }

/-- The device after a reset (R649); repairs that are made stand in the saved map (R597). (DEDUCED: log 108) -/
def State.deviceReset (s : State) : State := s.saveRepair.cleared

/-- DEV_RESET_N_ASSERT (R649, R656). (DESIGN CHOICE: log 135) -/
def execDevResetNAssert (s : State) : Res := .next ({ s with pinReset := true }).deviceReset

/-- The device leaves reset (R9, R543, R650): nothing that came while it was held stays, it is in stage ROM, and functions stay DETACHED while PERST_N is asserted. -/
def State.leaveReset (s : State) : State := if s.perst then s.cleared.detachAll 0 else s.cleared

/-- DEV_RESET_N_RELEASE (R543, R656). -/
def execDevResetNRelease (s : State) : Res :=
  if !s.pinReset then .next s
  else
    let s := { s with pinReset := false }
    .next (if s.inReset then s else s.leaveReset)

/-- RAIL_UNDERVOLTAGE (R647): the whole device is held in reset. -/
def execRailUndervoltage (rail : Nat) (s : State) : Res :=
  if 12 ≤ rail then .fault .noSuchUnit
  else .next ({ s with railLow := if s.railLow.contains rail then s.railLow else s.railLow ++ [rail] }).deviceReset

/-- RAIL_RECOVERED (R647): every rail has been within tolerance for 10 ms with `DEV_RESET_N` released. -/
def execRailRecovered (s : State) : Res :=
  if s.railLow = [] ∨ s.pinReset then .next s else .next ({ s with railLow := [] }).leaveReset

/-! ## Reference clocks (R652) -/

/-- The monitors' bits of `STW_CLK_STATUS` for a clock: 0 CLK25_IN, 1 PCIE_REFCLK, 2 + f ETH_REFCLK[f]. -/
def State.showClk (s : State) (clk : Nat) : State :=
  let ok := b01 (!s.clkLow.contains clk)
  match clk with
  | 0 => s.setFld 0 STW_CLK_STATUS_REF25_OK ok
  | 1 => s.setFld 0 STW_CLK_STATUS_REFPCIE_OK ok
  | _ => s.setFld 0 STW_CLK_STATUS_REFETH_OK (setBits (s.fld 0 STW_CLK_STATUS_REFETH_OK) (clk - 2) 1 ok)

/-- REFCLK_LOST (R652). -/
def execRefclkLost (clk : Nat) (s : State) : Res :=
  if 6 ≤ clk then .fault .noSuchUnit
  else
    let s := { s with clkLow := if s.clkLow.contains clk then s.clkLow else s.clkLow ++ [clk] }
    if s.inReset then .next s
    else
      let s := (s.showClk clk).setFld 0 STW_CLK_STATUS_LOSS_SEEN 1
      match clk with
      | 0 =>
        if s.boot = BOOT_ROM then .next s
        else .next ({ (s.setFld 0 STW_CLK_STATUS_FALLBACK 1).setFld 0 STW_MGMT_LINK 0 with errs := { s.errs with heldClk := true } }).alertView
      | 1 => .next (if s.dlUp then s.linkGone.detachAll 1 else s)
      | f => .next ((List.range 16).foldl (fun s i => s.linkDown (16 * (f - 2) + i)) s)

/-- REFCLK_RETURN (R652). -/
def execRefclkReturn (clk : Nat) (s : State) : Res :=
  if 6 ≤ clk then .fault .noSuchUnit
  else
    let s := { s with clkLow := s.clkLow.filter (fun x => x != clk) }
    if s.inReset then .next s
    else
      let s := s.showClk clk
      if clk ≠ 0 ∨ s.boot = BOOT_ROM then .next s
      else .next ({ (s.setFld 0 STW_CLK_STATUS_FALLBACK 0).setFld 0 STW_MGMT_LINK (b01 (s.stw.brought || s.boot == BOOT_FAIL)) with
                    errs := { s.errs with heldClk := false } }).alertView

/-! ## The boot stages (R543) -/

/-- ROM_STAGE (R538, R543, R545, R549, R550, R652): the fuses are sensed and keys derived; without CLK25_IN the stage waits. In BLANK it stays, and runs a test image that
a Tamtur key of the ROM has signed. (DEDUCED: log 113, 121) -/
def execRomStage (test : Option FwImage) (s : State) : Res :=
  if s.inReset ∨ s.boot ≠ BOOT_ROM ∨ s.clkLow.contains 0 then .next s
  else
    let s := s.showLife.setFld 0 STW_FW_VERSION_SVN_FUSED s.stw.svnFused
    let s := (s.setFld 0 TST_FUSE_LEFT_LEFT (512 - s.errs.fuses.length)).setFld 0 PWR_RAIL_GOOD 0xFFF
    let s := (List.range 6).foldl State.showClk s
    let lc := s.stw.life
    let s := { s with stw := { s.stw with sensed := true, keys := lc != LC_BLANK && lc != LC_SCRAPPED, wrap := if lc = LC_BLANK ∨ lc = LC_SCRAPPED then none else s.stw.uds } }
    if lc = LC_BLANK then
      .next (match test with
        | some im => if im.sigOk then { s with stw := { s.stw with running := some im } } else s
        | none => s)
    else .next (s.setBoot BOOT_CARTRIDGE)

/-- The IPv6 link-local address of a MAC address. (PRESUMED: log 177) -/
def linkLocal (mac : Nat) : Nat := 0xFE80 * 2 ^ 112 + (mac / 2 ^ 24 * 2 ^ 40 + 0xFFFE * 2 ^ 24 + mac % 2 ^ 24) ^^^ 2 ^ 57

/-- The management port's addresses as the fabric settings give them (R578); without settings DHCPv4 and a link-local address (R544). (PRESUMED: log 177) -/
def State.mgmtAddrs (s : State) (f : Option Fabric) : State :=
  let mac := (f.map Fabric.mgmtMac).getD s.stw.mgmtMac
  let ips := (f.map Fabric.mgmtIp).getD []
  { s with stw := { s.stw with mgmtMac := mac, mgmtDhcp := ips.isEmpty, mgmtIps := if ips.isEmpty then [linkLocal mac] else ips } }

/-- BOOT_FAIL (R544): the management port comes up as 1000BASE-X with DHCPv4 and an IPv6 link-local address, and `ALERT_N` is asserted. -/
def State.bootFail (s : State) : State :=
  let s := s.mgmtAddrs none
  let s := ((s.setBoot BOOT_FAIL).setFld 0 STW_MGMT_LINK (b01 (!s.clkLow.contains 0))).setFld 0 STW_MGMT_TEN_G 0
  { s with errs := { s.errs with held := true } }.alertView

/-- Whether the device accepts a cartridge (R537, R538). -/
def State.cartOk (s : State) (c : Cartridge) : Bool :=
  let mine := c.paired == some s.stw.devid
  c.certOk && !bitAt s.stw.revoked c.root && (if s.stw.life = LC_PROVISIONED ∨ s.stw.life = LC_DEPLOYED then mine && c.pairSig else c.paired.isNone || mine)

/-- The partitions of a cartridge (R536): ID, first erase block of 256 KiB, blocks. (DESIGN CHOICE: log 122) -/
def cartParts : List (Nat × Nat × Nat) :=
  [(1, 0, 4), (2, 4, 1024), (3, 1028, 1024), (4, 2052, 256), (5, 2308, 64), (6, 2372, 1024), (7, 3396, 64), (8, 3460, 16384), (9, 19844, 64)]

/-- The partition that holds an erase block; 0 for a spare block. (DESIGN CHOICE: log 122) -/
def partOfBlock (b : Nat) : Nat := ((cartParts.find? (fun p => decide (p.2.1 ≤ b) && decide (b < p.2.1 + p.2.2))).map Prod.fst).getD 0

/-- The block with the highest erase count, with that count (R541). -/
def topErase (l : List (Nat × Nat)) : Nat × Nat := l.foldl (fun (m x : Nat × Nat) => if m.2 < x.2 then x else m) (0, 0)

/-- The highest erase count in percent of the rated 30,000 cycles (R541). -/
def wearPct (l : List (Nat × Nat)) : Nat := (topErase l).2 * 100 / 30000

/-- One more erase cycle of a block. (DESIGN CHOICE: log 122) -/
def eraseOnce (l : List (Nat × Nat)) (b : Nat) : List (Nat × Nat) := Sparse.upd 0 l b (fun n => n + 1)

/-- `STW_BASFIN_WEAR` shows a cartridge's wear (R541). (DESIGN CHOICE: log 122) -/
def State.showWear (s : State) (c : Cartridge) : State :=
  let w := wearPct c.erases
  ((s.setFld 0 STW_BASFIN_WEAR_PCT (min 255 w)).setFld 0 STW_BASFIN_WEAR_PART (if w = 0 ∧ c.erases = [] then 0 else partOfBlock (topErase c.erases).1)).setFld 0 STW_BASFIN_WEAR_READONLY
    (b01 (decide (100 ≤ w) || !c.spares))

/-- Whether a firmware slot passes (R544); an SVN lies in 0–128 (R545). -/
def State.fwOk (s : State) (f : FwImage) : Bool := f.sigOk && decide (s.stw.svnFused ≤ f.svn) && decide (f.svn ≤ 128)

/-- The running firmware as `STW_FW_VERSION` shows it. -/
def State.showFw (s : State) (f : FwImage) : State :=
  (s.setFld 0 STW_FW_VERSION_VERSION f.version).setFld 0 STW_FW_VERSION_SVN f.svn

/-- Whether a table's signature verifies: against the owner's root in DEPLOYED, the Tamtur roots in other states (R544). (PRESUMED: log 117) -/
def State.tableSig (s : State) (t : TableImg) : Bool := t.signer == (if s.stw.life = LC_DEPLOYED then ChainEnd.owner else .tamtur)

/-- Whether a table keeps the rules of its own kind (R634, R640). -/
def TableImg.ok (t : TableImg) : Bool :=
  (match t.kind with
    | .contour => contourOk t.bytes
    | .itinerary => itinOk t.bytes
    | .legend => decide (t.bytes.length ≤ 256) && t.bytes.length % 4 == 0
    | .templates => t.bytes.length % 64 == 0
    | _ => true)

/-- The SEQ of the next imprint, from the log (R572). -/
def nextSeq (l : List (List Byte)) : Nat := match l.getLast? with | some r => leAt r 16 8 + 1 | none => 0

/-- The active firmware slot and the other one. -/
def fwSlot (c : Cartridge) (b : Bool) : Option FwImage := if b then c.fwB else c.fwA

/-- Firmware and tables of an accepted cartridge are read and verified (R539, R544), and the update state is read from STATE (R540). (DEDUCED: log 109; DESIGN CHOICE: log 122) -/
def State.readCart (s : State) (c : Cartridge) (fab : Fabric) : State :=
  let pass := fun (f : Option FwImage) => match f with | some f => s.fwOk f | none => false
  let slot := if pass (fwSlot c c.slotB) then some c.slotB else if pass (fwSlot c (!c.slotB)) then some (!c.slotB) else none
  let good := c.tables.filter (fun t => s.tableSig t && TableImg.ok t)
  let has := fun k => good.any (fun t => t.kind == k)
  match slot.bind (fun b => (fwSlot c b).map (fun f => (b, f))) with
  | none => s.bootFail
  | some (b, f) =>
    let c := { c with imprints := (match c.badImprint with | some n => c.imprints.take n | none => c.imprints), update := if b = c.slotB then c.update else 0 }
    let s := { s with stw := { s.stw with running := some f, cart := some { c with slotB := b, badImprint := none, badErr := none }, tables := good } }.deriveAlias
    let s := (((s.readLogs c).showFw f).setFld 0 STW_STATUS_FW_SLOT (b01 b)).setFld 0 STW_STATUS_FW_UPDATE c.update
    let s := if b = c.slotB then s else s.raise { cause := FW_FALLBACK, die := 12, aux := b01 b }
    let s := if has .legend then s else s.raise { cause := TABLE_INVALID, die := 12, aux := 4 }
    let s := if has .templates then s else s.raise { cause := TABLE_INVALID, die := 12, aux := 5 }
    if !has .contour ∨ !has .itinerary ∨ !has .fabric then s.bootFail
    else
      let s := { s with net := { s.net with fabric := some fab, modules := s.net.modulesSaved }, pwr := { s.pwr with profile := fab.profile } }
      ((s.setReg 0 STW_IMPRINT_SEQ (BitVec.ofNat 64 (nextSeq c.imprints))).setFld 0 STW_STATUS_CLEAN (b01 (c.testRecord && c.repairOk))).setBoot BOOT_SELFTEST

/-- CARTRIDGE_STAGE (R537–R539, R544): `fab` is what the fabric settings say. (DEDUCED: log 121) -/
def execCartridgeStage (fab : Fabric) (s : State) : Res :=
  if s.inReset ∨ s.boot ≠ BOOT_CARTRIDGE then .next s
  else
    let s := s.setFld 0 STW_STATUS_CART_PRESENT (b01 s.stw.cart.isSome)
    match s.stw.cart with
    | none => .next s.bootFail
    | some c =>
      if !s.cartOk c then .next s.bootFail
      else
        let s := { s with stw := { s.stw with cartId := some c.id } }
        let s := s.setFld 0 STW_STATUS_CART_PAIRED (b01 (c.certOk && c.paired == some s.stw.devid && c.pairSig))
        .next ((s.showWear c).readCart c fab)

/-- The clock at which the self-test runs (R645). -/
def testClock (vf : List (Nat × Nat)) (acked : Bool) : Nat :=
  if acked then 950
  else ((List.range 41).map (fun i => 500 + 25 * i)).foldl (fun (best c : Nat) => if contour vf c ≤ 750 then c else best) 500

/-- SELFTEST_STAGE (R543, R595–R598, R645): the voltage of 950 MHz is written; the quick test after a clean shut-down, else the full one, which blows fuses outside DEPLOYED. The
shut-down test record serves one boot. -/
def execSelftestStage (acked : Bool) (found : List ErrIn) (s : State) : Res :=
  if s.inReset ∨ s.boot ≠ BOOT_SELFTEST then .next s
  else
    let vf := match s.tableOf .contour with | some img => curveOf img 0 0xFF | none => []
    let mv := (contour vf 950).toNat
    let s := s.emit (.avs mv)
    let s := if acked then s.setFld 0 PWR_MEAS_VDD_MV mv else s.incFld 0 PWR_RAIL_AVS_NACK 1
    let s := s.setFld 0 PWR_STATUS_CLOCK_MHZ (testClock vf acked)
    let s := found.foldl State.bistRec s
    let full := s.fld 0 STW_STATUS_CLEAN = 0
    let s := if full then s.fullPass found else s
    let s := if full ∧ s.fld 0 STW_STATUS_LC ≠ LC_DEPLOYED then s.blowRepairs else s
    let s := match s.cartIn with | some c => s.setCart { c with testRecord := false } | none => s
    .next (s.setBoot BOOT_HBM_INIT)

/-- HBM_INIT_STAGE (R277, R543, R597): the repair map is applied, and every channel is zero, without poison. -/
def execHbmInitStage (s : State) : Res :=
  if s.inReset ∨ s.boot ≠ BOOT_HBM_INIT then .next s
  else .next (({ s with mem := [], poison := [] }).applyRepairs.setBoot BOOT_BRINGUP)

/-- The lane modes that the fabric settings give a die. -/
def fabModes (f : Fabric) (d : Nat) : Nat := (List.range 4).foldl (fun n q => n + f.laneModes.getD (4 * d + q) 0 % 8 * 2 ^ (3 * q)) 0

/-- Lane modes as the settings give them, where the mode is legal and touches no port in use (R438, R441). -/
def State.fabricModes (s : State) (f : Fabric) : State :=
  (List.range 4).foldl (fun s d =>
    let v := fabModes f d
    let m := modesOf v
    if (List.range 4).all (fun q => s.fld d (quarterFld q) == m q) then s
    else if (m 0 = 0) ≠ (m 1 = 0) ∨ (m 2 = 0) ≠ (m 3 = 0) ∨ (List.range 4).any (fun q => m q == 7) ∨ (s.affected d v).any s.portInUse then s.setFld d ETH_LANE_MODE_CFG_ERR 1
    else s.setModes d v) s

/-- What the fabric settings set besides the Meridian: lane modes, addresses (R471), MACsec keys (R498), the management port (R578), the power profile (R626). (DESIGN CHOICE: log 123) -/
def State.applyFabric (s : State) (f : Fabric) : State :=
  let s := { s with net := { s.net with fabric := some f }, pwr := { s.pwr with profile := f.profile } }
  let s := s.fabricModes f
  let s := (List.range 64).foldl (fun s n => (s.setFld n ETH_PORT_MAC_MAC (f.mac + n)).setFld 0 (NDX_MSEC_CTRL_CAK_VALID n) (b01 (f.caks.contains n))) s
  ((s.mgmtAddrs (some f)).setFld 0 STW_MGMT_TCP_PORT f.tcp).setFld 0 STW_MGMT_TEN_G (b01 f.tenG)

/-- BRINGUP_STAGE (R441, R471, R543, R578, R678). (DEDUCED: log 121) -/
def execBringupStage (s : State) : Res :=
  if s.inReset ∨ s.boot ≠ BOOT_BRINGUP ∨ s.stw.brought then .next s
  else match s.net.fabric with
  | none => .next s
  | some f =>
    let s := (s.setReg 0 MER_EPOCH (BitVec.ofNat 64 f.epoch)).setReg 0 MER_BASE_FRAME (BitVec.ofNat 64 f.base)
    let s := { s with mer := { s.mer with boot := some f.period }, stw := { s.stw with brought := true } }
    .next ((s.applyFabric f).setFld 0 STW_MGMT_LINK (b01 (!s.clkLow.contains 0)))

/-- READY (R543). (DEDUCED: log 121) -/
def execReady (s : State) : Res :=
  if s.inReset ∨ s.boot ≠ BOOT_BRINGUP ∨ !s.stw.brought then .next s else .next (s.setBoot BOOT_READY)

/-- SHUTDOWN_COMPLETE (R540, R543, R595, R598): the SHUTDOWN program has run after the last province was dissolved; repairs become fuses, the repair map and the fault windows are written, rows take hPPR, the module records and,
last, the test record are written. Without a writable cartridge the shut-down is unclean (R542). -/
def execShutdownComplete (found : List ErrIn) (s : State) : Res :=
  if s.inReset ∨ s.boot ≠ BOOT_SHUTDOWN ∨ s.anyProv then .next s
  else
    let s := ((found.foldl State.bistRec s).fullPass found).blowRepairs.saveRepair.saveWins.hardenRows.saveModules
    let s := match s.cartIn with | some c => if s.cartWritable then s.setCart { c with testRecord := true, repairOk := true } else s | none => s
    .next (s.setBoot BOOT_OFF_READY)

/-! ## The cartridge while the device runs -/

/-- The cartridge in use is gone (R542). -/
def State.cartGone (s : State) : State :=
  let used := s.cartIn.isSome
  let s := s.saveRepair
  let s := ({ s with stw := { s.stw with cart := none } }.setFld 0 STW_STATUS_CART_PRESENT 0).setFld 0 STW_STATUS_CART_PAIRED 0
  if used then s.raise { cause := CARTRIDGE_LOST, die := 12 } else s

/-- A cartridge is present (R542): the same one that was accepted at boot is used again and takes the held writes; another waits for the next boot. -/
def State.cartBack (s : State) (c : Cartridge) : State :=
  let s := { s with stw := { s.stw with cart := some c } }.setFld 0 STW_STATUS_CART_PRESENT 1
  if s.stw.cartId = some c.id ∧ s.cartOk c then
    let s := (s.showWear c).setFld 0 STW_STATUS_CART_PAIRED (b01 (c.paired == some s.stw.devid))
    if s.cartWritable then ({ s with errs := { s.errs with log := (s.errs.waitLog.filterMap HeldRec.rec?).reverse ++ s.errs.log, waitLog := [] } }).saveRepair else s
  else { s with stw := { s.stw with cartId := if s.stw.cartId = some c.id then none else s.stw.cartId } }

/-- CARTRIDGE_PRESENCE_POLL (R542, R606, R658): what the sideband reports; ten equal polls are accepted, and a level that is not stable counts as absent. (DEDUCED: log 76) -/
def execCartridgePresencePoll (seen : Option Cartridge) (s : State) : Res :=
  if s.inReset then .next s
  else
    let x := s.stw
    let k := if x.cartSeen = seen.map Cartridge.id then min 10 (x.cartPolls + 1) else 1
    let s := { s with stw := { x with cartSeen := seen.map Cartridge.id, cartPolls := k } }
    if k < 10 ∨ x.cart.map Cartridge.id = seen.map Cartridge.id then .next s
    else
      let s := if x.cart.isSome then s.cartGone else s
      match seen with
      | some c => .next (s.cartBack c)
      | none => .next s

/-- CARTRIDGE_WRITE (R540, R541): a partition is written and read back; `blocks` names its erase blocks that this erased. The wear that it leaves is shown, and its thresholds raise BASFIN_WEAR. -/
def execCartridgeWrite (part : Nat) (blocks : List Nat) (spares : Bool) (s : State) : Res :=
  match s.cartIn with
  | none => .next s
  | some c =>
    if !s.cartWritable ∨ part = 0 ∨ 9 < part then .next s
    else
      let old := s.fld 0 STW_BASFIN_WEAR_PCT
      let c := { c with erases := (blocks.filter (fun b => partOfBlock b == part)).foldl eraseOnce c.erases, spares := spares }
      let w := wearPct c.erases
      let s := (s.setCart c).showWear c
      let s := if old < 80 ∧ 80 ≤ w then s.raise { cause := BASFIN_WEAR, die := 12, aux := part, detail0 := w } else s
      .next (if old < 95 ∧ 95 ≤ w then s.raiseSev 1 { cause := BASFIN_WEAR, die := 12, aux := part, detail0 := w } else s)

/-! ## The TAP (R548, R659) -/

/-- Whether the TAP accepts an instruction. -/
def State.tapOk (s : State) (i : TapInsn) : Bool :=
  match i with
  | .bypass | .idcode => true
  | .sample => s.stw.sensed && s.stw.life != LC_SCRAPPED
  | .extest | .clamp => s.stw.sensed && s.stw.life != LC_SCRAPPED && (s.stw.life != LC_DEPLOYED || !s.anyProv)
  | .bist _ _ _ _ | .other _ => s.stw.sensed && s.stw.life != LC_SCRAPPED && s.stw.life != LC_DEPLOYED

/-- The IDCODE (R659). -/
def State.idcode (s : State) : Nat :=
  (4 * s.fld 0 DEV_REVISION_MAJOR + s.fld 0 DEV_REVISION_MINOR) % 16 * 2 ^ 28 + s.fld 0 DEV_IDENT_PART % 65536 * 2 ^ 12 + s.fld 0 DEV_IDENT_VENDOR % 2048 * 2 + 1

/-- A self-test program's run (R595, R596, R598), outside what the boot runs: FULL while no province exists, RELEASE on free units, PORT on unowned ports; else the status that refuses it. (DESIGN CHOICE: log 120) -/
def State.runTest (s : State) (program : Nat) (units : List (Nat × Nat)) (ports : List Nat) (found : List ErrIn) : Except Nat State :=
  if s.fld 0 STW_STATUS_LC = LC_DEPLOYED ∧ program ≠ 4 then .error TS_LIFE_CYCLE
  else match program with
  | 2 => if s.anyProv then .error TS_PROV_EXIST else .ok ((found.foldl State.bistRec s).fullPass found).blowRepairs
  | 4 =>
    if units = [] ∨ units.any (fun u => decide (8 ≤ u.1) || decide (32 ≤ u.2)) then .error TS_BAD_REQ
    else if units.any (fun u => s.unitOwner u.1 u.2 != 0) then .error TS_NO_RESOURCE
    else
      let s := found.foldl State.bistRec s
      let bad := fun (u : Nat × Nat) => found.any (fun r => r.cause == BIST_UNREPAIRED && r.die == u.1 && s.logCol (recTile (errOf r)) == some u.2)
      .ok { s with errs := { s.errs with untested := s.errs.untested.filter (fun u => !units.contains u) ++ units.filter bad } }
  | 5 =>
    if ports = [] ∨ ports.any (fun n => s.portLanes n == 0) then .error TS_BAD_REQ
    else if ports.any (fun n => !(s.port n).shares.isEmpty) then .error TS_NO_RESOURCE
    else .ok (found.foldl State.bistRec s)
  | _ => .error TS_BAD_REQ

/-- JTAG_INSTRUCTION (R548, R659): an instruction that is not accepted selects BYPASS; where the TAP accepts every instruction it runs self-tests. (DESIGN CHOICE: log 120; DEDUCED: log 121) -/
def execJtagInstruction (insn : TapInsn) (s : State) : Res :=
  let i := if s.tapOk insn then insn else .bypass
  let s := { s with tap := i }
  match i with
  | .idcode => .next (s.emit (.idcode s.idcode))
  | .bist program units ports found => .next (if s.inReset then s else match s.runTest program units ports found with | .ok t => t | .error _ => s)
  | _ => .next s

end Sys2Proof.Machine
end

