-- ==== Sys2Proof/Machine/TspOps.lean ====
section
/-! DEFINITION. Serving TSP requests (R579–R584): statuses, roles, the checks that every request passes, answers, commands of one province. -/
namespace Sys2Proof.Machine

/-- Whether a role allows a command (R579, R582); LIFECYCLE and TAKE_OWNERSHIP rest on their tokens. -/
def Role.allows (r : Role) (cmd : Nat) : Bool :=
  if cmd = 0x60 ∨ cmd = 0x61 then true
  else match r with
  | .restricted => cmd == 2 || cmd == 3
  | .observer => decide (cmd < 0x10)
  | .operator => decide (cmd < 0x50)
  | .owner => true

/-- The commands that a device serves in BOOT_FAIL and with FATAL latched (R544, R592): GET_IDENTITY, GET_STATUS, LOG_READ. (DEDUCED: log 100) -/
def tspMinimal (cmd : Nat) : Bool := cmd == 2 || cmd == 4 || cmd == 7

/-- The status that turns a request away before its own checks (R543, R544, R581, R582, R592). (DEDUCED: log 100) -/
def State.tspRefuse (s : State) (c : TspConn) (cmd : Nat) : Option Nat :=
  if !c.hello then some TS_BAD_REQ
  else if (s.fld 0 TST_STATUS_FATAL = 1 ∨ s.boot = BOOT_FAIL) ∧ !tspMinimal cmd then some TS_BUSY
  else if s.boot ≠ BOOT_READY ∧ s.boot ≠ BOOT_FAIL then some TS_BUSY
  else if !c.role.allows cmd then some TS_ROLE
  else none

/-- A request arrives on a connection and is served, or turned away; while the steward restarts there is no connection (R576), and nothing is answered before READY (R577). (DEDUCED: log 100) -/
def tspDo (conn cmd : Nat) (s : State) (f : State → State) : Res :=
  match s.conn conn with
  | none => .next s
  | some c =>
    if s.stw.restarting ∨ s.boot < BOOT_READY then .next s
    else match s.tspRefuse c cmd with
    | some st => .next (s.answer conn cmd st [])
    | none => .next (f s)

/-- Whether an earlier command of a province has not completed: later ones wait (R554). -/
def State.provBusy (s : State) (p : Nat) : Bool :=
  (s.prov p).sealing.isSome || (s.prov p).ending.isSome || s.stw.waits.any (fun w => w.prov == p) || s.stw.reqs.any (fun r => r.1 == p)

/-- A request that acts on a province in one of the states that `ok` accepts (R554, R584). Requests are served in the order of arrival: `i`, the request, waits while an earlier one
of its province does. (DEDUCED: log 99) -/
def provDo (i : Instr) (conn cmd p : Nat) (ok : PState → Bool) (s : State) (f : State → State) : Res :=
  tspDo conn cmd s (fun s =>
    if (s.prov p).st = .none_ ∨ 255 < p then s.answer conn cmd TS_UNKNOWN_PROV []
    else if s.provBusy p then { s with stw := { s.stw with reqs := s.stw.reqs ++ [(p, i)] } }
    else if !ok (s.prov p).st then s.answer conn cmd HS_PROV_STATE []
    else f s)

/-- The first waiting request whose province is free for it, with the state that it meets and the requests that go on waiting (R554). (DESIGN CHOICE: log 1; DEDUCED: log 99) -/
def State.dueReq (s : State) : Option (Instr × State × List (Nat × Instr)) :=
  let free := { s with stw := { s.stw with reqs := [] } }
  if s.stw.restarting then none
  else match s.stw.reqs.findIdx? (fun r => !free.provBusy r.1) with
  | some k => (s.stw.reqs[k]?).map (fun r => (r.2, free, s.stw.reqs.eraseIdx k))
  | none => none

/-- Requests that still wait stand before those that came meanwhile. (DESIGN CHOICE: log 1) -/
def State.backReqs (s : State) (l : List (Nat × Instr)) : State := { s with stw := { s.stw with reqs := l ++ s.stw.reqs } }

/-- A request whose answer waits (R556). -/
def State.addWait (s : State) (conn cmd p : Nat) : State := { s with stw := { s.stw with waits := s.stw.waits ++ [⟨conn, cmd, p⟩] } }

/-- The table of a kind in force (R539). -/
def State.table (s : State) (k : TableKind) : Option TableImg := s.stw.tables.find? (fun t => t.kind == k)

/-- A TDISP interface that is locked or running is in ERROR (R567). -/
def State.tdispErr (s : State) (f : Nat) : State :=
  if (s.fn f).tdisp = .locked ∨ (s.fn f).tdisp = .run then s.setFn f { (s.fn f) with tdisp := .error } else s

/-- BOUND and PROV of a function (R504). (DEDUCED: log 107) -/
def State.bindFn (s : State) (f : Nat) : State :=
  (s.setFld f HIF_FN_STATUS_BOUND (b01 (s.fnProv f != 0))).setFld f HIF_FN_STATUS_PROV (s.fnProv f)

end Sys2Proof.Machine
end

