-- ==== Sys2Proof/Machine/Provinces.lean ====
section
/-! DEFINITION. Provinces (R551–R559): creation and reservations, settings, the seal, dissolution, recovery, and the TSP commands that act on them. -/
namespace Sys2Proof.Machine

/-! ## Resources (R551) -/

/-- `PROV_STATE.UNITS` and `PROV_RESOURCES` show what a province holds. -/
def State.showRes (s : State) (p : Nat) : State :=
  let pr := s.prov p
  let s := (s.setFld p PROV_STATE_UNITS (min 255 pr.units.length)).setFld p PROV_RESOURCES_UNITS pr.units.length
  ((s.setFld p PROV_RESOURCES_CHANS pr.chans.length).setFld p PROV_RESOURCES_NBULK pr.bulks.length).setFld p PROV_RESOURCES_NTALON pr.tals.length

/-- Whether an allocation unit may be given (R551, R595, R602). -/
def State.unitFree (s : State) (d c : Nat) : Bool :=
  decide (c < 32) && s.unitOwner d c == 0 && !s.provs.any (fun e => e.2.units.contains (d, c)) && !s.errs.retired.contains (d, c) &&
  !s.errs.untested.contains (d, c)

/-- A list of pairs in increasing order. -/
def insPair (x : Nat × Nat) : List (Nat × Nat) → List (Nat × Nat)
  | [] => [x]
  | y :: l => if x.1 < y.1 ∨ (x.1 = y.1 ∧ x.2 ≤ y.2) then x :: y :: l else y :: insPair x l
/-- A list of numbers in increasing order. -/
def insNat (x : Nat) : List Nat → List Nat
  | [] => [x]
  | y :: l => if x ≤ y then x :: y :: l else y :: insNat x l

/-- `n` units on a die: the lowest free run of adjacent logical columns (R56, R551). (DEDUCED: log 104) -/
def State.takeUnits (s : State) (p d n : Nat) : Option State :=
  if n = 0 then some s
  else match (List.range 32).find? (fun c => (List.range n).all (fun i => s.unitFree d (c + i))) with
  | some c =>
    let pr := s.prov p
    some (s.setProv p { pr with units := (List.range n).foldl (fun l i => insPair (d, c + i) l) pr.units })
  | none => none

/-- Channels on a die, lowest free first (R551); a FAILING channel is not free. (DEDUCED: log 104) -/
def State.takeChans (s : State) (p d n : Nat) : Option State :=
  let free := ((List.range 48).map (globalChan d)).filter (fun c => !s.provs.any (fun e => e.2.chans.contains c) && !s.memc.failing.contains c)
  if free.length < n then none
  else some (s.setProv p { (s.prov p) with chans := (free.take n).foldl (fun l c => insNat c l) (s.prov p).chans })

/-- The dies that hold a province's units, in increasing order. -/
def Prov.dies (pr : Prov) : List Nat := (List.range 8).filter (fun d => pr.units.any (fun u => u.1 == d))

/-- Bulk couriers, at most 16 (R302, R551). -/
def State.takeBulks (s : State) (p n : Nat) : Option State :=
  let pr := s.prov p
  let free := (pr.dies.flatMap (fun d => (List.range 16).map (fun i => 16 * d + i))).filter (fun b => !s.provs.any (fun e => e.2.bulks.contains b))
  if n = 0 then some s
  else if pr.units = [] ∨ free.length < n ∨ 16 < pr.bulks.length + n then none
  else some (s.setProv p { pr with bulks := (free.take n).foldl (fun l b => insNat b l) pr.bulks })

/-- Talons, at most 8 (R312, R551). -/
def State.takeTalons (s : State) (p n : Nat) : Option State :=
  let pr := s.prov p
  let free := (pr.dies.flatMap (fun d => (List.range 64).map (fun i => 64 * d + i))).filter (fun b => !s.provs.any (fun e => e.2.tals.contains b))
  if n = 0 then some s
  else if pr.units = [] ∨ free.length < n ∨ 8 < pr.tals.length + n then none
  else some (s.setProv p { pr with tals := (free.take n).foldl (fun l b => insNat b l) pr.tals })

/-! ## Settings (R4, R99, R100, R552, R554) -/

/-- Whether a word may stand in a Legend entry (R99): invalid ones are refused unless their VALID bit is 0. -/
def legendOk (w : Nat) : Bool := !bitAt w 31 || descValid w

/-- A Legend entry takes a descriptor (R99, R100): none where it is invalid. -/
def State.setLegend (s : State) (p e w : Nat) : Option State :=
  if e < 8 ∨ 15 < e ∨ !legendOk w then none
  else some (s.setReg p (PROV_LEGEND e) (BitVec.ofNat 64 (if bits w 31 1 = 0 then 0 else w % 2 ^ 32)))

/-- The descriptor at an index of the Legend image (R100, R544). -/
def State.legendImage (s : State) (i : Nat) : Option Nat :=
  match s.table .legend with
  | some t => if 64 ≤ i ∨ t.bytes.length < 4 * i + 4 then none else some (leAt t.bytes (4 * i) 4)
  | none => none

/-- The template with a number (R552). -/
def State.template (s : State) (n : Nat) : Option (List Byte) :=
  match s.table .templates with
  | some t => ((List.range (t.bytes.length / 64)).map (fun i => slice t.bytes (64 * i) 64)).find? (fun r => leAt r 0 4 == n)
  | none => none

/-- A field of a register of the province's block is set by its access codes. -/
def State.putProv (s : State) (p : Nat) (r : Reg) (n v : Nat) : State := s.writeAt ⟨.prov, p, r.off⟩ n v

/-- What a template sets besides resources and Legend entries (R552). -/
def State.templateRegs (s : State) (p : Nat) (r : List Byte) : State :=
  let s := (s.putProv p PROV_HANDS 4 (leAt r 20 2)).putProv p PROV_MEM_SPLIT 4 (leAt r 24 4)
  let s := (s.putProv p PROV_LINK_PORTS 8 (leAt r 28 8)).putProv p PROV_LINK_SLOTS 4 (leAt r 36 2)
  let s := (s.putProv p PROV_RNG_MODE 4 (leAt r 38 1)).putProv p PROV_HOST_POLICY 4 (leAt r 39 1 % 2 + leAt r 40 2 * 2 ^ 8)
  s.putProv p PROV_SKIP_CTRL 4 (leAt r 42 2 % 512)

/-- One item after another, while none fails. -/
def chainOpt {α : Type} (l : List α) (f : State → α → Option State) (s : State) : Option State :=
  l.foldl (fun x a => x.bind (fun s => f s a)) (some s)

/-- A province is built from a template (R551, R552): the status, and the state where it is made. (DEDUCED: log 103) -/
def State.fromTemplate (s : State) (p : Nat) (r : List Byte) : Except Nat State :=
  let res := (chainOpt (List.range 8) (fun s d => s.takeUnits p d (leAt r (4 + d) 1)) s).bind (fun s =>
    (chainOpt (List.range 8) (fun s d => s.takeChans p d (leAt r (12 + d) 1)) s).bind (fun s => (s.takeBulks p (leAt r 22 1)).bind (fun s => s.takeTalons p (leAt r 23 1))))
  match res with
  | none => .error TS_NO_RESOURCE
  | some s =>
    let entries := (List.range 8).filter (fun i => leAt r (44 + i) 1 != 0xFF)
    if entries.any (fun i => (s.legendImage (leAt r (44 + i) 1)).isNone) then .error TS_BAD_REQ
    else match chainOpt entries (fun s i => (s.legendImage (leAt r (44 + i) 1)).bind (fun w => s.setLegend p (8 + i) w)) s with
    | none => .error TS_LEGEND_INVALID
    | some s => .ok (s.templateRegs p r)

/-- A province in FORMING with nothing reserved (R551, R553). (DEDUCED: log 107) -/
def State.newProv (s : State) (p : Nat) : State :=
  let s := (s.clearRegs .prov p).setProv p {}
  ((s.setPState p .forming).setFld p PROV_STATE_ID p).bindFn p

/-- PROV_CREATE (R548, R551, R552). -/
def execProvCreate (conn : Nat) (id template : Option Nat) (s : State) : Res :=
  tspDo conn 0x10 s (fun s =>
    let no := fun (n : Nat) => s.answer conn 0x10 n []
    let lc := s.fld 0 STW_STATUS_LC
    let p := match id with
      | some n => some n
      | none => ((List.range 255).map (fun i => i + 1)).find? (fun n => (s.prov n).st == PState.none_)
    if lc ≠ LC_MANUFACTURE ∧ lc ≠ LC_DEPLOYED ∧ lc ≠ LC_RETURNED then no TS_LIFE_CYCLE
    else match p with
    | none => no TS_NO_RESOURCE
    | some p =>
      if p = 0 ∨ 255 < p then no TS_BAD_REQ
      else if (s.prov p).st ≠ PState.none_ then no TS_PROV_EXIST
      else
        let t := s.newProv p
        let built : Except Nat State := match template with
          | none => .ok t
          | some n => match t.template n with
            | some r => t.fromTemplate p r
            | none => .error TS_BAD_REQ
        match built with
        | .error st => no st
        | .ok t => (t.showRes p).answer conn 0x10 HS_OK (leBytes 1 p))

/-- What PROV_SET does (R4, R100, R551, R554): a status, or the state after it. (DEDUCED: log 103) -/
def State.provSet (s : State) (p : Nat) (what : ProvSet) : Except Nat State :=
  let forming := (s.prov p).st == .forming
  let need := fun (x : Option State) (st : Nat) => match x with
    | some s => Except.ok (s.showRes p)
    | none => Except.error st
  match what with
  | .units d n => if !forming then .error HS_PROV_STATE else if 8 ≤ d then .error TS_BAD_REQ else need (s.takeUnits p d n) TS_NO_RESOURCE
  | .chans d n => if !forming then .error HS_PROV_STATE else if 8 ≤ d then .error TS_BAD_REQ else need (s.takeChans p d n) TS_NO_RESOURCE
  | .bulks n => if !forming then .error HS_PROV_STATE else need (s.takeBulks p n) TS_NO_RESOURCE
  | .talons n => if !forming then .error HS_PROV_STATE else need (s.takeTalons p n) TS_NO_RESOURCE
  | .legend e w => if !forming then .error HS_PROV_STATE else if e < 8 ∨ 15 < e then .error TS_BAD_REQ else need (s.setLegend p e w) TS_LEGEND_INVALID
  | .legendAt e i =>
    if !forming then .error HS_PROV_STATE
    else if e < 8 ∨ 15 < e then .error TS_BAD_REQ
    else if i = 0xFF then .ok (s.setReg p (PROV_LEGEND e) 0)
    else match s.legendImage i with
    | some w => need (s.setLegend p e w) TS_LEGEND_INVALID
    | none => .error TS_BAD_REQ
  | .reg off v =>
    if 0x120 ≤ off ∧ off < 0x140 then .error TS_BAD_REQ
    else match Block.find .prov off with
    | some d =>
      if d.fields.any (fun f => f.acc == .rwl) then (if forming then .ok (s.putProv p ⟨.prov, off⟩ (d.size / 8) v) else .error HS_PROV_STATE)
      else if d.fields.any (fun f => f.acc == .rw) then .ok (s.putProv p ⟨.prov, off⟩ (d.size / 8) v)
      else .error TS_BAD_REQ
    | none => .error TS_BAD_REQ

/-- PROV_SET (R551, R554, R582). -/
def execProvSet (conn prov : Nat) (what : ProvSet) (s : State) : Res :=
  let anyState := match what with | .reg off _ => off == PROV_SKIP_CTRL.off || off == PROV_STANDIN.off | _ => false
  provDo (.provSet conn prov what) conn 0x11 prov (fun st => anyState || st != .dissolving) s (fun s =>
    match s.provSet prov what with
    | .error st => s.answer conn 0x11 st []
    | .ok t => t.answer conn 0x11 HS_OK [])

/-- An entry joins a rank table (R419): in place of the rank's old one, or after the others. -/
def upsertRank (t : List RankEnt) (e : RankEnt) : List RankEnt :=
  match e.rank with
  | some r => if t.any (fun x => x.rank == some r) then setRank t r (fun _ => e) else t ++ [e]
  | none => t ++ [e]

/-- A rank-table entry of 32 bytes (R419); none where a reserved value or an unused byte is not as the layout says. -/
def RankEnt.parse (b : List Byte) : Option RankEnt :=
  let r := leAt b 0 4
  let en := leAt b 5 1
  let zero := fun (o n : Nat) => leAt b o n == 0
  if b.length ≠ 32 ∨ 3 ≤ leAt b 4 1 ∨ 3 ≤ en ∨ (r ≠ 0xFFFFFFFF ∧ 2 ^ 17 ≤ r) ∨ !zero 6 2 ∨ !(if en = 0 then zero 14 10 else if en = 1 then zero 12 12 else true) then none
  else some ⟨if r = 0xFFFFFFFF then none else some r, leAt b 4 1, en, slice b 8 16, leAt b 24 8⟩

/-- Entries one after another. -/
def rankEntries (b : List Byte) : Option (List RankEnt) :=
  if b.length % 32 ≠ 0 then none
  else
    let l := (List.range (b.length / 32)).map (fun i => RankEnt.parse (slice b (32 * i) 32))
    if l.all Option.isSome then some (l.filterMap id) else none

/-- PROV_RANKTAB (R419, R420). -/
def execProvRanktab (conn prov : Nat) (bytes : List Byte) (s : State) : Res :=
  provDo (.provRanktab conn prov bytes) conn 0x12 prov (fun st => st == .forming) s (fun s =>
    match rankEntries bytes with
    | none => s.answer conn 0x12 TS_BAD_REQ []
    | some entries =>
      let t := entries.foldl upsertRank (s.prov prov).ranktab
      if 8 < (t.filter (fun e => e.rank.isNone)).length then s.answer conn 0x12 TS_BAD_REQ []
      else (s.setProv prov { (s.prov prov) with ranktab := t }).answer conn 0x12 HS_OK [])

/-! ## The seal (R555) -/

/-- The shares of a port with the province's own and those of seals under way, in increasing ID (R474). -/
def State.sealShares (s : State) (p n : Nat) : List (Nat × Nat) :=
  (s.provs.filter (fun e => (e.1 == p || e.2.sealing.isSome || e.2.st == .sealed_ || e.2.st == .running || e.2.st == .paused) &&
    bitAt (s.fld e.1 PROV_LINK_PORTS_PORTS) n && (e.1 == p || s.fld e.1 PROV_LINK_SLOTS_SLOTS != 0))).map (fun e => (e.1, s.fld e.1 PROV_LINK_SLOTS_SLOTS))

/-- The ports of a province's set. -/
def State.portSet (s : State) (p : Nat) : List Nat :=
  (List.range 64).filter (fun n => s.portLanes n != 0 && bitAt (s.fld p PROV_LINK_PORTS_PORTS) n)

/-- The overhead of a frame of a province on a port (R478). (DEDUCED: log 105) -/
def State.ndxOverhead (s : State) (p n : Nat) : Nat :=
  let e := (s.prov p).ranktab.foldl (fun m x => max m x.encap) 0
  (if e = 0 then 66 else if e = 1 then 94 else 114) + (if s.fld n ETH_PORT_CTRL_VID = 0 ∧ s.fld n ETH_PORT_CTRL_PCP_TAG = 0 then 0 else 4) + (if s.fld n ETH_PORT_CTRL_MACSEC_EN = 1 then 32 else 0)

/-- The first check of R555 that fails. (DEDUCED: log 105) -/
def State.sealCheck (s : State) (p : Nat) : Nat :=
  let pr := s.prov p
  let n := s.nranks p
  let sp := [s.fld p PROV_MEM_SPLIT_READ, s.fld p PROV_MEM_SPLIT_WRITE, s.fld p PROV_MEM_SPLIT_REMOTE]
  let ports := s.portSet p
  let others := s.provs.filter (fun e => e.1 != p && (e.2.sealing.isSome || (e.2.st != .forming && e.2.st != .none_)))
  let bound := fun (q : Nat) => s.fld q ETH_PORT_CTRL_MAXFRAME
  if pr.units = [] ∨ pr.chans = [] then TS_NO_RESOURCE
  else if sp.any (fun x => x == 0) ∨ sp.foldl (fun a x => a + x) 0 ≠ 16 then TS_SPLIT_INVALID
  else if (List.range 8).any (fun i => !legendOk (s.reg p (PROV_LEGEND (8 + i))).toNat) then TS_LEGEND_INVALID
  else if 1 < n ∧ (!(List.range n).all (fun r => pr.ranktab.any (fun e => e.rank == some r)) ∨ pr.ranktab.any (fun e => e.rank.any (fun r => decide (n ≤ r))) ∨
      n ≤ s.rank p ∨ !pr.ranktab.any (fun e => e.devid == s.stw.devid && (e.rank == some (s.rank p) || (e.rank.isNone && e.state == 2)))) then TS_RANK_TABLE
  else if 1 < n ∧ s.reg p PROV_NDX_TAG = 0 then TS_PTAG
  else if ports.any (fun q => (buildPortTable (s.sealShares p q) (guardSlots (s.fld 0 MER_TICK_PERIOD_PERIOD)) (slotsFor (bound q) (s.portRate q) s.frameLen)).isNone) then TS_LINK_SHARE
  else if ports.any (fun q => decide (bound q < 8224 + s.ndxOverhead p q)) then TS_LINK_MTU
  else if 262144 < s.net.links.length + s.newLinks p then TS_LINK_TABLE
  else if 4096 < others.foldl (fun a e => a + s.fld e.1 PROV_HANDS_COUNT) (s.fld p PROV_HANDS_COUNT) then TS_HAND_TABLE
  else HS_OK

/-- PROV_SEAL (R555): the checks; the changes are made at the next frame boundary. -/
def execProvSeal (conn prov : Nat) (s : State) : Res :=
  provDo (.provSeal conn prov) conn TC_PROV_SEAL prov (fun st => st == .forming) s (fun s =>
    let st := s.sealCheck prov
    if st ≠ HS_OK then s.answer conn TC_PROV_SEAL st []
    else s.setProv prov { (s.prov prov) with sealing := some conn })

/-- A tile's sheet store, program store and tile registers are zero (R555, R558). -/
def Tile.zeroed (t : Tile) : Tile := { t with sheet := [], badWords := [], prog := [], treg := [], loadedFor := 0 }

/-- Debug control and tags of a tile end (R559, R621). -/
def State.dbgClear (s : State) (t : Nat) : State :=
  ((s.setReg t TILE_DBG_CTRL TILE_DBG_CTRL.resetVal).setReg t CC_DBG_CTRL CC_DBG_CTRL.resetVal).dropTag t

/-- Bulk couriers and Talons belong to a province, or to none (R302, R312). -/
def State.assignUnits (s : State) (p : Nat) (on : Bool) : State :=
  let pr := s.prov p
  let v := if on then p else 0
  let s := pr.bulks.zipIdx.foldl (fun s b =>
    (((s.setFld (b.1 / 16) (CRR_BC_CTRL_PROV (b.1 % 16)) v).setFld (b.1 / 16) (CRR_BC_CTRL_INDEX (b.1 % 16)) (if on then b.2 else 0)).setFld (b.1 / 16)
      (CRR_BC_CTRL_EN (b.1 % 16)) (b01 on)).setBulk b.1 {}) s
  pr.tals.zipIdx.foldl (fun s b =>
    (((s.setFld (b.1 / 64) (TAL_CFG_PROV (b.1 % 64)) v).setFld (b.1 / 64) (TAL_CFG_INDEX (b.1 % 64)) (if on then b.2 else 0)).setFld (b.1 / 64)
      (TAL_CFG_EN (b.1 % 64)) (b01 on)).setTalon b.1 {}) s

/-- The Survey counters of a province's tiles and of its ID return to 0 (R609). -/
def State.srvProvClear (s : State) (p : Nat) : State := ((s.tilesOf p).foldl (fun s t => s.srvClear (srvTile t)) s).srvClear (srvProv p)

/-- The changes of a seal, at a frame boundary (R261, R263, R267, R302, R312, R474, R504, R555, R559, R609). The tables lie in the steward area of chan[0], the first at a
page that the spec leaves open. (DESIGN CHOICE: log 57) -/
def State.sealNow (s : State) (p : Nat) : State :=
  match (s.prov p).sealing with
  | none => s
  | some conn =>
    let pr := s.prov p
    let s := s.setProv p { pr with sealing := none }
    let page := stewardArea (pr.chans.getD 0 0) / 4096 + s.freeVal.1.toNat % 64
    let s := (((s.setFld 0 (GZT_ROOT_V p) 1).setFld 0 (GZT_ROOT_ADDR p) page).spend).buildTables p
    let share : SlotShare := ⟨p, s.fld p PROV_MEM_SPLIT_WRITE, s.fld p PROV_MEM_SPLIT_REMOTE, s.fld 0 MER_TICK_PERIOD_PERIOD⟩
    let s := pr.chans.foldl (fun s c =>
      ({ s with memc := { s.memc with slots := Sparse.set SlotShare.free s.memc.slots c share } }.setFld c MEM_STATUS_PROV p).setFld c MEM_STATUS_STATE 1) s
    let s := (s.tilesOf p).foldl (fun s t => (s.setTile t (s.tile t).zeroed).dbgClear t) s
    let s := (s.assignUnits p true).srvProvClear p
    let s := ((s.setPState p .sealed_).rebuildPorts 0).openLinks p
    (s.bindFn p).answer conn TC_PROV_SEAL HS_OK []

/-! ## Operations at named frames (R556) -/

/-- PROV_PAUSE (R223, R556). -/
def execProvPause (conn prov : Nat) (s : State) : Res :=
  provDo (.provPause conn prov) conn TC_PROV_PAUSE prov (opAllowed .pause) s (fun s => (s.addWait conn TC_PROV_PAUSE prov).ask prov .pause)

/-- PROV_RESUME (R553, R556). -/
def execProvResume (conn prov : Nat) (s : State) : Res :=
  provDo (.provResume conn prov) conn TC_PROV_RESUME prov (opAllowed .resume) s (fun s => (s.addWait conn TC_PROV_RESUME prov).ask prov .resume)

/-- PROV_SNAPSHOT (R50, R556). -/
def execProvSnapshot (conn prov : Nat) (s : State) : Res :=
  provDo (.provSnapshot conn prov) conn TC_PROV_SNAPSHOT prov (opAllowed .snapshot) s (fun s => (s.addWait conn TC_PROV_SNAPSHOT prov).ask prov .snapshot)

/-- PROV_RESET (R49, R553, R556). -/
def execProvReset (conn prov : Nat) (s : State) : Res :=
  provDo (.provReset conn prov) conn TC_PROV_RESET prov (opAllowed .reset) s (fun s => (s.addWait conn TC_PROV_RESET prov).ask prov .reset)

/-! ## Dissolution (R276, R554, R558) -/

/-- Recovery is over, on every tile of a province (R559). (DEDUCED: log 106) -/
def State.recoveryOver (s : State) (p : Nat) : State :=
  let s := s.setProv p { (s.prov p) with recovery := false, ending := none }
  let s := s.setFld p PROV_STATE_RECOVERY 0
  let s := s.setFld 0 STW_STATUS_RECOVERY_ANY (b01 (s.provs.any (fun e => e.2.recovery)))
  (s.tilesOf p).foldl (fun s t =>
    let s := if (s.tile t).trick.any TrickCtx.debug then s.stopTile t else s
    s.dbgClear t) s

/-- A province's ID is free again (R504, R506, R558). (DEDUCED: log 106) -/
def State.freeProv (s : State) (p : Nat) : State :=
  let s := (s.handsOf p).foldl (fun s k => s.discardHand k) s
  let s := (s.setPState p .none_).setProv p Prov.empty
  let s := (s.clearRegs .prov p).bindFn p
  if s.fld 0 HIF_PF0_GRANT_PROV = p then (s.setFld 0 HIF_PF0_GRANT_PROV 0).bindFn 0 else s

/-- Operations that still wait for a province are overtaken (R554). (DEDUCED: log 99) -/
def State.overtake (s : State) (p : Nat) : State :=
  let pr := s.prov p
  let s := [GlobOp.pause, .resume, .snapshot, .reset].foldl (fun s op => s.settle p op HS_ABORTED) s
  let s := match pr.sealing with | some c => s.answer c TC_PROV_SEAL HS_ABORTED [] | none => s
  let s := match pr.ending with | some c => s.answer c TC_PROV_RECOVER HS_ABORTED [] | none => s
  s.setProv p { (s.prov p) with sealing := none, ending := none, start := none, standins := [], lost := [], reports := [], point := none, copyIn := none, resetDue := false }

/-- A province dissolves (R262, R267, R276, R304, R315, R411, R474, R488, R515, R554, R558, R559, R567, R595, R609). -/
def State.dissolve (s : State) (p : Nat) : State :=
  let s := s.overtake p
  if (s.prov p).st = .forming then (s.closeHands p).freeProv p
  else
    let s := (s.discardWork p).closeHands p
    let s := (s.recoveryOver p).closeLinks p
    let s := (s.tilesOf p).foldl (fun s t => s.setTile t (s.tile t).zeroed) s
    let s := s.assignUnits p false
    let s := (List.range 8).foldl (fun s i => s.setReg p (PROV_LEGEND (8 + i)) 0) s
    let s := (s.setReg p PROV_SR_SEED 0).setReg p PROV_NDX_TAG 0
    let pr := s.prov p
    let s := s.setProv p { pr with ranktab := [], bulks := [], tals := [] }
    let s := ((s.setFld 0 (GZT_ROOT_V p) 0).setFld 0 (GZT_ROOT_ADDR p) 0).dropXlat p
    let s := pr.chans.foldl (fun s c =>
      { s with memc := { s.memc with slots := Sparse.set SlotShare.free s.memc.slots c SlotShare.free } }.setFld c MEM_STATUS_STATE 2) s
    let s := s.srvProvClear p
    let s := { s with errs := { s.errs with untested := s.errs.untested ++ pr.units.filter (fun u => !s.errs.untested.contains u) } }
    let s := (s.tdispErr p).setPState p .dissolving
    (s.showRes p).rebuildPorts 0

/-- PROV_DISSOLVE (R554, R558): accepted in every state. -/
def execProvDissolve (conn prov : Nat) (s : State) : Res :=
  tspDo conn TC_PROV_DISSOLVE s (fun s =>
    if (s.prov prov).st = .none_ ∨ 255 < prov then s.answer conn TC_PROV_DISSOLVE TS_UNKNOWN_PROV []
    else if (s.prov prov).st = .dissolving then s.addWait conn TC_PROV_DISSOLVE prov
    else
      let s := s.dissolve prov
      if (s.prov prov).st = .none_ then s.answer conn TC_PROV_DISSOLVE HS_OK [] else s.addWait conn TC_PROV_DISSOLVE prov)

/-- DISSOLUTION_COMPLETE (R276, R504, R506, R558): every channel has checked clean. -/
def execDissolutionComplete (prov : Nat) (s : State) : Res :=
  if (s.prov prov).st ≠ .dissolving ∨ (s.prov prov).chans.any (fun c => s.fld c MEM_STATUS_PROV == prov) then .next s
  else .next (((s.clearTables prov).freeProv prov).answerWaits prov [TC_PROV_DISSOLVE] HS_OK)

/-! ## Other commands -/

/-- PROV_READ (R582): up to 64 KiB of DATA. -/
def execProvRead (conn prov addr n : Nat) (s : State) : Res :=
  provDo (.provRead conn prov addr n) conn 0x19 prov (fun st => st == .sealed_ || st == .paused) s (fun s =>
    if n = 0 ∨ 65536 < n then s.answer conn 0x19 TS_BAD_REQ []
    else if !(s.prov prov).within .data addr n then s.answer conn 0x19 HS_TRANSLATION []
    else if s.vpoison prov addr n then s.answer conn 0x19 HS_POISON []
    else s.answer conn 0x19 HS_OK (s.vbytes prov addr n))

/-- PROV_GRANT_PF0 (R506, R567): 0 ends a grant. -/
def execProvGrantPf0 (conn prov : Nat) (s : State) : Res :=
  let grant := fun (s : State) =>
    let s := (s.setFld 0 HIF_PF0_GRANT_PROV prov).bindFn 0
    (if prov = 0 then s else s.tdispErr prov).answer conn 0x1A HS_OK []
  if prov = 0 then tspDo conn 0x1A s grant else provDo (.provGrantPf0 conn prov) conn 0x1A prov (fun st => st != .dissolving) s grant

/-- PROV_STANDIN (R432–R434): the operator starts the procedure for a rank; `epoch` is the coordinator's reset epoch, which the dummy takes. (DESIGN CHOICE: log 80) -/
def execProvStandin (conn prov rank epoch : Nat) (s : State) : Res :=
  provDo (.provStandin conn prov rank epoch) conn 0x1B prov (fun st => st == .sealed_ || st == .paused) s (fun s =>
    if s.nranks prov ≤ 1 ∨ !(s.prov prov).ranktab.any (fun e => e.rank == some rank) then s.answer conn 0x1B TS_BAD_REQ []
    else (s.standin prov rank epoch).answer conn 0x1B HS_OK [])

/-- PROV_RECOVER (R559, R567, R621): a PAUSED province enters recovery; recovery ends at a frame boundary. (DEDUCED: log 106) -/
def execProvRecover (conn prov : Nat) (on : Bool) (s : State) : Res :=
  provDo (.provRecover conn prov on) conn TC_PROV_RECOVER prov (fun st => st == .paused || (!on && (st == .sealed_ || st == .running))) s (fun s =>
    let pr := s.prov prov
    if on then
      let s := (s.setProv prov { pr with recovery := true, recMark := true }).setFld prov PROV_STATE_RECOVERY 1
      ((s.setFld 0 STW_STATUS_RECOVERY_ANY 1).tdispErr prov).answer conn TC_PROV_RECOVER HS_OK []
    else if !pr.recovery then s.answer conn TC_PROV_RECOVER HS_OK []
    else (s.setProv prov { pr with ending := some conn }).tdispErr prov)

end Sys2Proof.Machine
end

