-- ==== Sys2Proof/Machine/Boundary.lean ====
section
/-! DEFINITION. A frame boundary (R28–R31, R35–R38, R49–R51, R213, R223, R245–R251, R322–R326, R406, R519, R553, R555, R559, R615, R677, R678). -/
namespace Sys2Proof.Machine

/-- Seats that wait for a released instance go on (R213). -/
def State.releaseSeats (s : State) (p : Nat) (i : GInst) : State :=
  (s.tilesOf p).foldl (fun s t =>
    let x := s.tile t
    match x.trick with
    | some c =>
      if c.prov ≠ p ∨ c.pro ≠ i.pro ∨ (!c.pro ∧ c.step ≠ i.step) then s
      else s.setTile t ((List.range 8).foldl (fun x n =>
        if (x.seat n).st = .waitGlobal ∧ (x.seat n).wait = .gsync i.ord then x.setSeat n (x.seat n).goOn else x) x)
    | none => s) s

/-- A GSYNC instance is released at the start of F (R49, R213). -/
def State.gsyncRelease (s : State) (p : Nat) (i : GInst) (bcast : Bool) (payload : List Byte) : State :=
  let pr := s.prov p
  let g := pr.gsyncOf i bcast
  (s.setProv p (pr.setGsync { g with released := true, payload := if bcast then payload.take 64 else g.payload })).releaseSeats p i

/-- Messages kept back while a cut stood leave in order, each with the frame of its sending (R50, R412). -/
def State.flushOut (s : State) (p : Nat) : State :=
  let pr := s.prov p
  pr.outQ.foldl (fun s m => s.emit (.segment p m.1 { m.2 with sframe := s.frame })) (s.setProv p { pr with
    sendHold := false, outQ := [], patches := pr.patches.map (fun x => { x with held := false }),
    colls := pr.colls.map (fun c => { c with unacked := c.unacked.map (fun u => { u with held := false }) }) })

/-- RESET at a boundary (R49, R299, R311, R315, R411, R488, R519). -/
def State.resetProv (s : State) (p f : Nat) : State :=
  let later := (s.prov p).anns.filter (fun a => decide (f < a.frame) && a.op == .reset)
  let s := ((s.discardWork p).abortWaits p).resetStreams p
  let s := s.setProv p { (s.prov p) with anns := later }
  let s := s.setReg p PROV_EPOCH (BitVec.ofNat 64 ((s.fld p PROV_EPOCH_EPOCH + 1) % 2 ^ 32))
  let s := if (s.prov p).st = .sealed_ then s else s.setPState p .sealed_
  let s := [GlobOp.pause, .resume, .snapshot].foldl (fun s op => s.settle p op HS_ABORTED) (s.fillTalons p)
  (s.acted p .reset).reportAll p

/-- A SNAPSHOT at a boundary (R50): dealing and sending stop, and the cut begins; one that is late here has failed and only pauses (R51, R250). -/
def State.snapProv (s : State) (p f : Nat) (late : Bool) : State :=
  if (s.prov p).st ≠ .running ∧ (s.prov p).st ≠ .paused then s
  else
    let s := if (s.prov p).st = .running then s.setPState p .paused else s
    let s := s.setProv p { (s.prov p) with sendHold := true, cut := if late then none else some { frame := f, verified := s.stepState p == ST_VERIFIED } }
    if late then s else s.cutOwn p

/-- The province goes on (R50, R553, R556). -/
def State.resumeProv (s : State) (p : Nat) : State :=
  if (s.prov p).st ≠ .paused then s
  else
    let s := s.setProv p { (s.prov p) with cut := none, pauseReq := false }
    ((s.setPState p .running).flushOut p).acted p .resume

/-- An operation whose frame was inside a span of several frames is late on this device (R51, R250): the report goes up; at the root a late SNAPSHOT makes the province resume. -/
def State.spanLate (s : State) (p : Nat) (a : Ann) : State :=
  let s := s.incFld 0 MER_GLOB_CTRL_LATE 1
  if s.rank p ≠ 0 then s.emit (.lateReport p (treeParent (s.fanin p) (s.rank p)) a.op a.frame)
  else if a.op = .snapshot then (s.settle p .snapshot TS_CUT).rootAnnounce p .resume
  else s

/-- One operation is applied (R49, R677). -/
def State.applyOp (s : State) (p f : Nat) (a : Ann) : State :=
  let new := !a.late && decide (a.frame < f)
  let late := a.late || new
  match a.op with
  | .barrier i => s.gsyncRelease p i false []
  | .broadcast i b => s.gsyncRelease p i true b
  | .snapshot => (if new then s.spanLate p a else s).snapProv p a.frame late
  | .reset => (if new then s.spanLate p a else s).resetProv p f
  | .pause => (if (s.prov p).st = .running then s.setPState p .paused else s).acted p .pause
  | .resume => s.resumeProv p

/-- The operations due at the start of frame `f` (R49–R51); inside a span only releases are applied (R250). -/
def State.applyDue (s : State) (p f : Nat) (span : Bool) : State :=
  let due := fun (a : Ann) => decide (a.frame ≤ f) && (!span || (match a.op with | .barrier _ | .broadcast _ _ => true | _ => false))
  let l := (s.prov p).anns.filter due
  let s := s.setProv p { (s.prov p) with anns := (s.prov p).anns.filter (fun a => !due a) }
  l.foldl (fun s a => s.applyOp p f a) s

/-- A pause that a fault, a loss or the host asked for (R223, R278, R528): this rank pauses, and the others at a frame that rank 0 names. -/
def State.localPause (s : State) (p : Nat) : State :=
  let pr := s.prov p
  if !pr.pauseReq then s
  else
    let s := s.setProv p { pr with pauseReq := false }
    if pr.st ≠ .running then s
    else
      let s := s.setPState p .paused
      if 1 < s.nranks p then s.requestUp p .pause else s

/-- START completes at S0 (R36, R322, R323, R519, R553), once the hand's function is ATTACHED (R530). (DEDUCED: log 93) -/
def State.startDue (s : State) (p f : Nat) : State :=
  let pr := s.prov p
  match pr.start with
  | none => s
  | some r =>
    if f < r.s0 ∨ pr.st ≠ .sealed_ ∨ s.fld (s.hand r.hand).fn HIF_FN_STATUS_ATTACH ≠ 0 then s
    else
      let s := s.setProv p { pr with start := none, s0 := f, k := 0, cur := none, items := [], startStep := r.step, lost := [], reports := [], point := none, copyIn := none, resetDue := false }
      let s := ((s.setPState p .running).setFld p PROV_PLAN_LAG_LAG 0).setReg p PROV_STEP (BitVec.ofNat 64 r.step)
      let s := if 0 < (s.img p).prologue then s.setStepState p ST_NO_STEP else s
      (s.complete r.hand r.seq HS_OK r.s0 0).wakeWaits p

/-- The end of a frame for one province (R245, R246): what was started and recalled goes, and, unless a span goes on, tricks that have not completed are misdealt. A span
in which the province paused ends so too. (DEDUCED: log 152) -/
def State.provEnd (s : State) (p held : Nat) : State :=
  let s := s.recall p
  let pr := s.prov p
  if 1 < pr.spanLeft ∨ (pr.st ≠ .running ∧ pr.spanLeft = 0) then s else s.misdealCheck p held

/-- The boundary of a RUNNING province deals (R36, R238, R247, R326): misdealt tricks first, else the next planned frame; then collectives start (R406, R407). -/
def State.dealBoundary (s : State) (p left : Nat) : State :=
  if (s.prov p).st ≠ .running then s
  else
    let s := if (s.prov p).items = [] then s.offer p left (s.fld p PROV_PLAN_LAG_LAG + 1) else s.redeal p left
    s.wakeWaits p

/-- Collectives at a boundary (R396, R406, R407): those whose reads a row's repair held look again. (DEDUCED: log 55; DESIGN CHOICE: log 71) -/
def State.collBoundary (s : State) (p f : Nat) : State :=
  let s := s.wakeColls p
  if (s.prov p).st = .running then (s.limitTick p).startReady p f else s

/-- What the boundary means for one province once its misdeals are known; `f` is the frame that begins. Within a span only releases are applied (R250), but a fault pauses the
province (R223). -/
def State.provBoundary (s : State) (p f left : Nat) : State :=
  let pr := s.prov p
  if 1 < pr.spanLeft then
    ((((s.setProv p { pr with spanLeft := pr.spanLeft - 1 }).lagUp p).applyDue p f true).localPause p).collBoundary p f
  else
    let s := ((s.applyDue p f false).localPause p)
    let s := if (s.prov p).st = .paused ∨ (s.prov p).st = .sealed_ then s.standinReset p else s
    let s := if (s.prov p).st = .paused then ((s.prov p).standins.foldl (fun s r => s.standin p r (s.fld p PROV_EPOCH_EPOCH)) s).lagUp p else s
    ((s.startDue p f).dealBoundary p left).collBoundary p f

/-- The steward's own changes at a boundary (R555, R559): not while it restarts (R576). (DEDUCED: log 111) -/
def State.stewardBoundary (s : State) (p : Nat) : State :=
  if s.stw.restarting then s
  else
    let s := s.sealNow p
    match (s.prov p).ending with
    | some c => (s.recoveryOver p).answer c TC_PROV_RECOVER HS_OK []
    | none => s

/-- Whether the boundary means something for a province: not while it forms or is dissolved, and not with FATAL latched (R592). -/
def State.provLive (s : State) (p : Nat) : Bool :=
  s.fld 0 TST_STATUS_FATAL != 1 && (s.prov p).st != .none_ && (s.prov p).st != .forming && (s.prov p).st != .dissolving

/-- A boundary's first part for every province: the steward's changes, and the misdeals of the frame that ends. -/
def State.endFrame (s : State) (held : Nat) : State :=
  (s.provs.map Prod.fst).foldl (fun s p =>
    let s := (s.stewardBoundary p).provSnap p
    if s.provLive p then s.provEnd p held else s) s

/-- A boundary's last part: writes that waited for a slot (R266), then every province's operations, dealing and collectives. -/
def State.beginFrame (s : State) (left : Nat) : State :=
  (s.provs.map Prod.fst).foldl (fun s p => if s.provLive p then s.provBoundary p s.frame left else s) s.resendWrites

/-- FRAME_BOUNDARY (R28): rows that move are given back between the misdeals of the frame that ends and the dealing of the next (R252). `held` is the cycles that the ended frame held, `left` those of the frame that begins. With FATAL latched nothing is dealt (R592). -/
def execFrameBoundary (held left : Nat) (s : State) : Res :=
  if s.inReset then .next s else .next ((((s.tick).endFrame held).repairBoundary).beginFrame left)

end Sys2Proof.Machine
end

