-- ==== Sys2Proof/Machine/Csr.lean ====
section
/-! DEFINITION. CSR instructions (R201–R204): the tile's own `CC_`, `TILE_`, `VEC_`, tile-courier and Survey registers. -/
namespace Sys2Proof.Machine

/-- The register a CSR number names, with its table and size (R201, R203); none where the number is illegal. -/
def csrReg (tile csrn : Nat) : Option (RegDef × RegAt) :=
  match csrBlock tile (csrn / 4096) (csrn % 4096) with
  | none => none
  | some r =>
    match r.block.find r.off with
    | some d => some (d, r)
    | none => none

/-- Whether an array command or a vector instruction of the seat has not completed (R204; LD and ST are not vector instructions). -/
def Tile.seatBusy (t : Tile) (seat : Nat) : Bool :=
  t.arrPending.any (fun a => a.seat == seat) || t.vq.any (fun v => v.seat == seat && opcOf v.insn != 0x06 && opcOf v.insn != 0x07)

/-- What a seat's write changes (R85, R202, R613, R621): the fields of the steward and `SRV_CFG`, `SRV_ADDR_`, `SRV_SAMP` and `SRV_TAG` stay as they are. -/
def RegAt.seatWrites (r : RegAt) : Bool :=
  (r.block == .tile && r.off != 0x20) || r.block == .vec || (r.block == .srv && (r.off == 0x320 || r.off == 0x328 || r.off == 0x330))

/-- A seat's write of a register it may write; a 1 to `SRV_SNAP.SNAP` copies the unit's counters (R202, R615). -/
def State.csrPut (s : State) (r : RegAt) (n v : Nat) : State :=
  if !r.seatWrites then s
  else
    let t := s.writeAt r n v
    if r.block = .srv ∧ r.off = 0x328 ∧ bitAt v 0 then t.srvCopy r.unit else t

/-- A CSR instruction: `f` gives the value written from the old value and s[RA]; none for a READ. -/
def csrAccess (tile seat fn : Nat) (s : State) (f : Nat → Nat → Option Nat) : Res :=
  if tile < 4224 ∧ seat < 8 then
    match s.issue tile seat with
    | some i =>
      if opcOf i.insn ≠ 0x08 ∨ bits i.insn 46 2 ≠ fn then .next s
      else .next (s.readyOr i [fRA i.insn] (
        let csrn := bits i.insn 0 16
        if bits i.insn 16 30 ≠ 0 then s.except i IX_ILLEGAL
        else match csrReg tile csrn with
        | none => s.except i IX_CSR csrn
        | some (d, r) =>
          if (r.block = .tile ∨ r.block = .vec) ∧ (s.tile tile).seatBusy seat ∧ !(r.block = .tile ∧ r.off = 0 ∧ fn ≠ 0) then s.stall i
          else
            let old := d.show (s.liveWord r)
            let t := match f old (i.reg (fRA i.insn)) with
              | some v => s.csrPut r (d.size / 8) (v % 2 ^ d.size)
              | none => s
            t.spend.writeRd i (BitVec.ofNat 64 old)))
    | none => .next s
  else .fault .noSuchUnit

/-- CSR_READ (R201, R203, R204). -/
def execCsrRead (tile seat : Nat) (s : State) : Res := csrAccess tile seat 0 s (fun _ _ => none)

/-- CSR_WRITE (R201–R204). -/
def execCsrWrite (tile seat : Nat) (s : State) : Res := csrAccess tile seat 1 s (fun _ a => some a)

/-- CSR_SET (R201, R202): the old value with the bits of s[RA] set is written. -/
def execCsrSet (tile seat : Nat) (s : State) : Res := csrAccess tile seat 2 s (fun o a => some (o ||| a))

/-- CSR_CLEAR (R201, R202): the old value with the bits of s[RA] cleared is written. -/
def execCsrClear (tile seat : Nat) (s : State) : Res := csrAccess tile seat 3 s (fun o a => some (o - (o &&& a)))

end Sys2Proof.Machine
end

