-- ==== Sys2Proof/Machine/Ndeyx.lean ====
section
/-! DEFINITION. Ndeyx at work (spec file 16): packets received, acknowledgements, retransmission, loss, handshakes, key renewal, keep-alives, MACsec. A
packet's message is put in the inbox of its province; the consumer's command takes it from there. -/
namespace Sys2Proof.Machine

/-- Whether a PN passes the replay check (R492). -/
def RxKey.passes (k : RxKey) (pn : Nat) : Bool := decide (k.high < pn) || (decide (k.high ≤ pn + 1024) && !k.seen.contains pn)
/-- The window after a PN. -/
def RxKey.note (k : RxKey) (pn : Nat) : RxKey :=
  let h := max k.high pn
  { high := h, seen := (pn :: k.seen).filter (fun x => decide (h ≤ x + 1024)) }

/-- The receive key of a phase (R479, R493): the current one, the new one before it is first used, or the old one until it is erased. -/
def Link.rxKey (l : Link) (ph : Bool) : Option RxKey :=
  if ph = l.rxPhase then some l.rx0 else match l.rxNew with | some k => some k | none => l.rxOld

/-- A packet that passes all checks moves its key's window; the first one under the new phase makes the new key the current one (R480, R493). -/
def Link.noteKey (l : Link) (ph : Bool) (pn : Nat) : Link :=
  if ph = l.rxPhase then { l with rx0 := l.rx0.note pn }
  else match l.rxNew with
  | some k => { l with rxPhase := ph, rxOld := some l.rx0, rx0 := k.note pn, rxNew := none }
  | none => { l with rxOld := l.rxOld.map (fun k => k.note pn) }

/-- A frame leaves the receive buffer (R452). (DEDUCED: log 78) -/
def State.rxFree (s : State) (n p : Nat) : State := s.setPort n { (s.port n) with rxbuf := (s.port n).rxbuf.eraseP (fun x => x.1 == p) }

/-- How far PSN `a` lies past `b`, modulo 2^32. -/
def psnDist (a b : Nat) : Nat := (a % 2 ^ 32 + 2 ^ 32 - b % 2 ^ 32) % 2 ^ 32

/-- Whether this device is the lower-DEVID end (R489, R493). -/
def State.lowerEnd (s : State) (l : Link) : Bool := decide (s.stw.devid < l.devid)

/-- The new receive key stands beside the old one (R493). -/
def Link.newRx (l : Link) : Link := { l with rxNew := some {} }
/-- KEYUPD is sent by the lower-DEVID end (R493). (DESIGN CHOICE: log 139) -/
def State.startRenewal (s : State) (l : Link) : State :=
  if l.renewing then s else s.updLink l.prov l.peer (fun l => { (l.newRx.post 0 none (.keyUpd (l.gen + 1))) with renewing := true })

/-- A control message takes effect (R496, R493, R457, R470). (DEDUCED: log 81, 84) -/
def State.control (s : State) (l : Link) (b : NdxBody) : State :=
  match b with
  | .linkup tag dlid limit =>
    { s with net := { s.net with
      told := s.net.told.filter (fun t => !(t.1 == l.devid && t.2.1 == tag)) ++ [(l.devid, tag, dlid, limit)]
      links := s.net.links.map (fun x =>
        if x.prov ≠ 0 ∧ x.devid = l.devid ∧ (s.reg x.prov PROV_NDX_TAG).toNat = tag then { x with peerDlid := some dlid, limit := limit } else x) } }
  | .close => (s.updLink l.prov l.peer (fun l => { l with keyed := false, tx := [], rx := [], acks := [] })).rankLost l.prov l.peer
  | .rekeyReq => if s.lowerEnd l then s.startRenewal l else s
  | .keyUpd g =>
    if s.lowerEnd l ∨ g ≠ l.gen + 1 then s else s.updLink l.prov l.peer (fun l => l.newRx.post 0 none (.keyUpdAck g))
  | .keyUpdAck g => if !l.renewing ∨ g ≠ l.gen + 1 then s else s.updLink l.prov l.peer (fun l => l.switchTx g s.frameTime)
  | .lowerReq n => if s.mayLower n then (s.updLink l.prov l.peer (fun l => l.post 0 none (.lowerAck n))).lowerPort n else s
  | .lowerAck n => if (s.port n).lowerAsked ∧ s.mayLower n then s.lowerPort n else s
  | _ => s.count { unit := srvStw, event := 0xA2, prov := l.prov, priv := 1 }

/-- A message takes effect: control messages and what stewards tell each other; others wait for their consumer. -/
def State.actMsg (s : State) (p peer : Nat) (b : NdxBody) : State :=
  if b.type = 4 then match s.link p peer with | some l => s.control l b | none => s
  else match b with
  | .forward tag r op => s.forwardIn peer tag r op
  | .acted tag r op => s.actedIn peer tag r op
  | .done tag op st => s.doneIn peer tag op st
  | .standin g r d e => s.standinIn peer g r d e
  | .cutOver f => s.cutOverIn p peer f
  | .report x => s.reportIn p peer x
  | .mirror c => s.mirrorIn p peer c
  | _ => { s with net := { s.net with inbox := s.net.inbox ++ [(p, peer, b)] } }

/-- A message is delivered (R482); while the steward restarts what is for it waits (R576). -/
def State.deliverMsg (s : State) (p peer : Nat) (b : NdxBody) : State :=
  let stw := match b with | .seg _ | .request _ | .announce _ _ | .late _ _ | .cut _ _ => false | _ => true
  if s.stw.restarting && stw then { s with net := { s.net with late := s.net.late ++ [(p, peer, b)] } } else s.actMsg p peer b

/-- The packets of a stream that may be delivered, in PSN order: those that follow `next` without a hole. -/
def runHeld : Nat → Nat → List (Nat × NdxBody) → List NdxBody × Nat × List (Nat × NdxBody)
  | 0, next, held => ([], next, held)
  | f + 1, next, held =>
    match held.find? (fun x => x.1 == next) with
    | some x =>
      let r := runHeld f ((next + 1) % 2 ^ 32) (held.filter (fun y => y.1 != next))
      (x.2 :: r.1, r.2)
    | none => ([], next, held)

/-- Bytes of packets that a province holds out of order for an RDE slice (R380, R482). (DEDUCED: log 84) -/
def State.heldBytes (s : State) (p f : Nat) : Nat :=
  (((s.net.links.filter (fun l => l.prov == p)).flatMap (fun l => l.rx.flatMap (fun r => r.2.held))).filter (fun x => match x.2 with | .seg m => segSlice m == f | _ => f == 0)).foldl
    (fun n x => n + (bodyLen x.2).getD 64) 0

/-- Whether there is room to hold a packet out of order (R482): in the province's share of its slice's buffer, beside what its collectives reserve there; in the steward's buffer on a control
link, whose size the spec does not give. (DEDUCED: log 84) -/
def State.holdRoom (s : State) (p : Nat) (k : NdxPkt) : Bool :=
  if p = 0 then k.room
  else
    let f := match k.body with | .seg m => segSlice m | _ => 0
    let used := ((s.prov p).colls.filter (fun c => c.started && !c.stopped)).foldl (fun n c => n + s.collReserve p f ((s.img p).coll c.idx)) 0
    decide (used + s.heldBytes p f + (bodyLen k.body).getD 64 ≤ s.collShare p)

/-- A DATA or CONTROL packet joins its stream (R482); what it leaves to acknowledge dates from the first, and ACKREQ or a packet already delivered asks for an ACK at once (R483). -/
def State.rxData (s : State) (l : Link) (k : NdxPkt) : State :=
  let r := Sparse.get RxStream.init l.rx k.stream
  let r := { r with ce := if k.ce then satAdd 0xFFFF r.ce 1 else r.ce }
  let news := fun (x : RxStream) (ask : Bool) => { x with fresh := x.fresh + 1, since := if x.fresh = 0 then s.frameTime else x.since, ask := x.ask || ask }
  let put := fun (s : State) (x : RxStream) => s.updLink l.prov l.peer (fun l => { l with rx := Sparse.set RxStream.init l.rx k.stream x })
  let d := psnDist k.psn r.next
  if 2 ^ 31 ≤ d then put s (news r true)
  else if d ≠ 0 ∧ (!s.holdRoom l.prov k ∨ r.held.any (fun x => x.1 == k.psn)) then put s r
  else
    let x := runHeld (r.held.length + 1) r.next (r.held ++ [(k.psn, k.body)])
    x.1.foldl (fun s b => s.deliverMsg l.prov l.peer b) (put s (news { r with next := x.2.1, held := x.2.2 } k.ackreq))

/-- ACK_RECEIVED (R483, R484): acknowledged packets leave; from version 2 a hole below three higher PSNs is sent again at once. (DEDUCED: log 83) -/
def Link.acked (l : Link) (cum sack stream : Nat) : Link :=
  let t := Sparse.get TxStream.init l.tx stream
  let sack := if l.ver = 1 then 0 else sack % 2 ^ 64
  let left := t.pkts.filter (fun k => let d := psnDist k.psn cum; decide (d < 2 ^ 31) && !(decide (1 ≤ d) && bitAt sack (d - 1)))
  let above := fun (k : TxPkt) => ((List.range 64).filter (fun i => bitAt sack i && decide (psnDist k.psn cum < i + 1))).length
  { l with tx := Sparse.set TxStream.init l.tx stream { t with pkts := left.map (fun k => if k.port.isSome ∧ 3 ≤ above k then { k with due := true } else k) } }

/-- A failed tag (R480, R495): more than 1,000 within 1 s on a link are a burst, after which the count begins again. (DEDUCED: log 82) -/
def State.authFail (s : State) (l : Link) : State :=
  let a := s.frameTime :: l.auths.filter (fun t => decide (s.frameTime < t + 1000000000))
  let s := (s.updLink l.prov l.peer (fun l => { l with auths := if 1000 < a.length then [] else a })).ndxCnt 3 1
  if 1000 < a.length then (s.setFld 0 NDX_STATUS_AUTH_BURST 1).raise { cause := AUTH_FAIL, die := 12, prov := l.prov, aux := l.peer } else s

/-- A handshake ends in failure (R490). -/
def State.hsFail (s : State) (devid : Nat) : State :=
  ((s.updLink 0 devid (fun l => { l with handshaking := false })).setFld 0 NDX_STATUS_HS_FAIL 1).raise { cause := HANDSHAKE_FAIL, die := 12, aux := devid }

/-- The control link is keyed, under the master secret of a new handshake (R489, R491, R494): links that have keys already move onto it at their next renewal. (PRESUMED: log 85) -/
def State.hsDone (s : State) (devid ver : Nat) : State :=
  match s.link 0 devid with
  | some c =>
    if c.keyed then
      let n := s.free
      let s := s.freeVal.2.updLink 0 devid (fun l => { l with handshaking := false, hellos := 0 })
      { s with net := { s.net with links := s.net.links.map (fun l => if l.devid = devid ∧ l.keyed then { l with newMaster := some n } else l) } }
    else
      (s.freeVal.2.updLink 0 devid (fun l => { (l.keyed0 ver s.free s.frameTime) with handshaking := false, hellos := 0 })).deriveKeys devid
  | none => s

/-- Whether a DEVID is in a rank-table entry of a province that the devices share (R420, R490). -/
def State.knows (s : State) (devid : Nat) : Bool := s.provs.any (fun e => s.shares e.1 devid)

/-- A handshake packet is made: it leaves in clear in a steward slot (R475, R489). -/
def State.hsSend (s : State) (devid : Nat) (b : NdxBody) : State := s.updLink 0 devid (fun l => { l with hsOut := l.hsOut ++ [b] })

/-- HELLO_RECEIVED, REPLY_RECEIVED, FINISH_RECEIVED (R490). (PRESUMED: log 85) -/
def State.handshakeIn (s : State) (k : NdxPkt) : State :=
  match s.link 0 k.devid with
  | none => s
  | some c =>
    let lo := s.fld 0 NDX_CTRL_VER_MIN
    let hi := s.fld 0 NDX_CTRL_VER_MAX
    match k.body with
    | .hello vmin vmax dlid chainOk =>
      if s.lowerEnd c then s
      else if !chainOk ∨ !s.knows k.devid then s.hsFail k.devid
      else
        let v := min hi vmax
        if v < max lo vmin then (s.hsSend k.devid (.reply 0 c.dlid true true)).hsFail k.devid
        else (s.updLink 0 k.devid (fun l => { l with handshaking := true, peerDlid := some dlid, ver := if l.keyed then l.ver else v })).hsSend k.devid (.reply v c.dlid true true)
    | .reply v dlid chainOk sigOk =>
      if !s.lowerEnd c ∨ !c.handshaking then s
      else if v = 0 ∨ v < lo ∨ hi < v ∨ !chainOk ∨ !sigOk ∨ !s.knows k.devid then s.hsFail k.devid
      else ((s.updLink 0 k.devid (fun l => { l with peerDlid := some dlid })).hsSend k.devid (.finish true)).hsDone k.devid v
    | .finish sigOk => if s.lowerEnd c ∨ !c.handshaking then s else if !sigOk then s.hsFail k.devid else s.hsDone k.devid c.ver
    | _ => s

/-- Whether a packet's ranks are its link's (R480). -/
def State.ranksOk (s : State) (l : Link) (k : NdxPkt) : Bool :=
  if l.prov = 0 then k.srank == 0xFFFFF && k.drank == 0xFFFFF else k.srank == l.peer && k.drank == s.rank l.prov
/-- The reset epoch a link's packets carry (R479). -/
def State.linkEpoch (s : State) (l : Link) : Nat := if l.prov = 0 then 0 else s.fld l.prov PROV_EPOCH_EPOCH % 65536

/-- NDEYX_PACKET_RECEIVED (R479–R484, R489–R496): the checks in order; the first that fails drops the packet. (DEDUCED: log 82, 83, 84) -/
def execNdeyxPacketReceived (port : Nat) (p : NdxPkt) (s : State) : Res :=
  onPort port (
    let l? := s.net.links.find? (fun l => l.dlid == p.dlid && l.keyed && !l.lost)
    let s := s.rxFree port (match l? with | some l => l.prov | none => 0)
    if p.type = 0 then .next (if p.ver ≠ 1 then s else if p.dlid ≠ 0 then s.ndxCnt 5 1 else if s.stw.restarting then { s with net := { s.net with lateHs := s.net.lateHs ++ [p] } } else s.handshakeIn p)
    else if 5 ≤ p.type ∨ p.body.type ≠ p.type then .next (s.count { unit := srvStw, event := 0xA2, priv := 1 })
    else match l? with
    | none => .next (s.ndxCnt 5 1)
    | some l =>
      if p.ver ≠ l.ver then .next (s.count { unit := srvStw, event := 0xA2, prov := l.prov, priv := 1 })
      else if !s.ranksOk l p then .next (s.ndxCnt 5 1)
      else
        let key := l.rxKey p.kphase
        if !(match key with | some k => k.passes p.pn | none => true) then .next (s.ndxCnt 4 1)
        else if key.isNone ∨ !p.tagOk then .next (s.authFail l)
        else if p.epoch ≠ s.linkEpoch l then .next (s.ndxCnt 6 1)
        else
          let s := (s.ndxCnt 1 1).ndxCnt 7 (b01 p.ce)
          let s := s.updLink l.prov l.peer (fun l => { (l.noteKey p.kphase p.pn) with
            mer := p.mer, paths := (if l.paths.contains p.path then l.paths else l.paths ++ [p.path]), heard := Sparse.set 0 l.heard p.path s.frameTime })
          match p.body with
          | .ack cum sack _ st => .next ((s.updLink l.prov l.peer (fun l => l.acked cum sack st)).cutOwn l.prov)
          | .keepalive => .next s
          | _ => match s.link l.prov l.peer with
            | some l => .next (s.rxData l p)
            | none => .next s)

/-- Whether a stream's ACK is due (R483): ACK_EVERY new packets, ACK_US µs with packets unacknowledged, or at once where that is asked for. -/
def State.ackDue (s : State) (r : RxStream) : Bool :=
  r.fresh != 0 && (decide (s.fld 0 NDX_RELY_ACK_EVERY ≤ r.fresh) || r.ask || s.mayBe (r.since + s.fld 0 NDX_RELY_ACK_US * 1000))

/-- ACK_SEND (R483): an ACK of a stream is made, which the transmitter then sends. (DESIGN CHOICE: log 7) -/
def execAckSend (prov peer stream : Nat) (s : State) : Res :=
  match s.link prov peer with
  | some l =>
    let r := Sparse.get RxStream.init l.rx stream
    if !l.keyed ∨ l.lost ∨ !s.ackDue r then .next s
    else
      let sack := if l.ver = 1 then 0 else r.held.foldl (fun n x => let d := psnDist x.1 r.next; if 1 ≤ d ∧ d ≤ 64 then n ||| 2 ^ (d - 1) else n) 0
      .next (s.updLink prov peer (fun l => { l with
        acks := l.acks ++ [(none, .ack r.next sack r.ce stream)],
        rx := Sparse.set RxStream.init l.rx stream { r with fresh := 0, ce := 0, since := 0, ask := false } }))
  | none => .next s

/-- RETRANSMIT_TIMEOUT (R484, R487): the packet is due again; in version 1 so is every other one sent and not acknowledged; at RETRY_LIMIT the link is lost. (DESIGN CHOICE: log 7, 86) -/
def execRetransmitTimeout (prov peer stream psn : Nat) (s : State) : Res :=
  match s.link prov peer with
  | some l =>
    match l.pkt stream psn with
    | some k =>
      if l.lost ∨ k.due ∨ k.port.isNone ∨ !s.mayBe (k.sentAt + s.fld 0 NDX_RELY_RTO_US * 1000 * min 64 (2 ^ k.retries)) then .next s
      else if max 1 (s.fld 0 NDX_RELY_RETRY_LIMIT) ≤ k.retries + 1 then .next (s.loseLink prov peer)
      else
        let t := Sparse.get TxStream.init l.tx stream
        let pkts := t.pkts.map (fun (x : TxPkt) =>
          if x.psn = psn then { x with due := true, retries := x.retries + 1 }
          else if l.ver = 1 ∧ x.port.isSome then { x with due := true } else x)
        .next (s.updLink prov peer (fun l => { l with tx := Sparse.set TxStream.init l.tx stream { t with pkts := pkts } }))
    | none => .next s
  | none => .next s

/-- Whether a link may be lost (R487): silence for LOST_MS, or no up path on some fabric die of its ports; how long that has lasted is the command's to say. -/
def State.lossDue (s : State) (l : Link) : Bool :=
  let last := l.heard.foldl (fun t x => max t x.2) l.keyAt
  s.mayBe (last + s.fld 0 NDX_LIVE_LOST_MS * 1000000) || (s.linkPorts l).any (fun n => !(s.upPaths l).any (fun m => m / 16 == n / 16))

/-- NDEYX_LINK_LOST (R487, R411, R433): silence, or no up path on some die, for LOST_MS. (DESIGN CHOICE: log 7) -/
def execNdeyxLinkLost (prov peer : Nat) (s : State) : Res :=
  match s.link prov peer with
  | some l => if l.lost ∨ !s.lossDue l then .next s else .next (s.loseLink prov peer)
  | none => .next s

/-- KEEPALIVE_SEND (R497): a silent path sends a keep-alive, unless its port is parking or parked. (DESIGN CHOICE: log 7) -/
def execKeepaliveSend (prov peer port : Nat) (s : State) : Res :=
  onPort port (match s.link prov peer with
    | some l =>
      let w := s.fld port ETH_PORT_STATUS_POWER
      if !l.keyed ∨ l.lost ∨ !s.mayBe (Sparse.get 0 l.spoke port + s.fld 0 NDX_LIVE_KA_US * 1000) ∨ s.fld port ETH_PORT_STATUS_LINK = 0 ∨ w = PW_PARKING ∨ w = PW_PARKED ∨ !(s.linkPorts l).contains port then .next s
      else .next (s.updLink prov peer (fun l => { l with acks := l.acks ++ [(some port, .keepalive)] }))
    | none => .next s)

/-- The lower-DEVID end sends a HELLO. -/
def State.sendHello (s : State) (devid : Nat) : State :=
  (s.updLink 0 devid (fun l => { l with handshaking := true, hellos := l.hellos + 1 })).hsSend devid
    (.hello (s.fld 0 NDX_CTRL_VER_MIN) (s.fld 0 NDX_CTRL_VER_MAX) (((s.link 0 devid).map Link.dlid).getD 0) true)

/-- Whether a handshake is wanted: the control link has no keys, or takes new ones. -/
def Link.wantsKeys (l : Link) : Bool := !l.keyed || l.handshaking

/-- HELLO (R489): while the control link is not keyed and fewer than 50 HELLOs are unanswered. -/
def execHello (devid : Nat) (s : State) : Res :=
  match s.link 0 devid with
  | some l => if !l.wantsKeys ∨ !s.lowerEnd l ∨ 50 ≤ l.hellos ∨ (s.hsPort devid).isNone then .next s else .next (s.sendHello devid)
  | none => .next s

/-- HANDSHAKE_RETRY_TIMER (R489): 50 HELLOs went unanswered: HANDSHAKE_FAIL, and one HELLO every 10 s. -/
def execHandshakeRetryTimer (devid : Nat) (s : State) : Res :=
  match s.link 0 devid with
  | some l =>
    if !l.wantsKeys ∨ !s.lowerEnd l ∨ l.hellos < 50 then .next s
    else
      let s := if l.hellos = 50 then (s.setFld 0 NDX_STATUS_HS_FAIL 1).raise { cause := HANDSHAKE_FAIL, die := 12, aux := devid } else s
      .next (if (s.hsPort devid).isSome then s.sendHello devid else s)
  | none => .next s

/-- MASTER_REKEY_TIMER (R494): a new handshake. -/
def execMasterRekeyTimer (devid : Nat) (s : State) : Res :=
  match s.link 0 devid with
  | some l => if !l.keyed ∨ l.handshaking ∨ !s.lowerEnd l ∨ (s.hsPort devid).isNone then .next s else .next ((s.updLink 0 devid (fun l => { l with hellos := 0 })).sendHello devid)
  | none => .next s

/-- Whether a key of a link has reached its end (R493): by the PN of either direction, or its age. (DESIGN CHOICE: log 139) -/
def State.keyDue (s : State) (l : Link) : Bool :=
  let top := 2 ^ s.fld 0 NDX_KEY_PN_SOFT_EXP
  decide (top ≤ l.pn) || decide (top ≤ l.rx0.high) || s.mayBe (l.keyAt + s.fld 0 NDX_KEY_KEY_MAX_S * 1000000000)

/-- KEY_RENEWAL_DUE (R493): the lower-DEVID end sends KEYUPD, the other asks for it. (DESIGN CHOICE: log 7) -/
def execKeyRenewalDue (prov peer : Nat) (s : State) : Res :=
  match s.link prov peer with
  | some l =>
    if !l.keyed ∨ l.lost ∨ l.renewing ∨ !s.keyDue l then .next s
    else if s.lowerEnd l then .next (s.startRenewal l)
    else .next (s.updLink prov peer (fun l => l.post 0 none .rekeyReq))
  | none => .next s

/-- OLD_KEY_ERASE (R493). (DESIGN CHOICE: log 139) -/
def execOldKeyErase (prov peer : Nat) (s : State) : Res := .next (s.updLink prov peer (fun l => { l with rxOld := none }))

/-- A new SAK, whose packet numbers begin anew (R498). -/
def State.newSak (s : State) (n : Nat) : State := s.setPort n { (s.port n) with sakNo := (s.port n).sakNo + 1, mtx := 0, mrx := 0 }

/-- Whether this end's bid as key server wins (R498): the lower priority, then the lower SCI. (PRESUMED: log 85) -/
def State.winsBid (s : State) (n : Nat) (m : MkaPeer) : Bool :=
  let me := s.fld 0 (NDX_MSEC_CTRL_KEY_SERVER_PRI n)
  decide (me < m.pri) || (me == m.pri && decide (s.fld n ETH_PORT_MAC_MAC * 65536 + 1 < m.sci))

/-- MKA_HELLO (R498): a hello leaves; `peer` is the peer with which the exchange has agreed on a SAK, which brings the secure channel up; a key server at the peer may distribute a new one. (PRESUMED: log 85) -/
def execMkaHello (port : Nat) (peer : Option MkaPeer) (s : State) : Res :=
  onPort port (
    if s.fld port ETH_PORT_CTRL_MACSEC_EN = 0 ∨ s.fld 0 (NDX_MSEC_CTRL_CAK_VALID port) = 0 ∨ s.fld port ETH_PORT_STATUS_LINK = 0 then .next s
    else
      let s := s.emit (.mka port)
      match peer with
      | none => .next s
      | some m =>
        let mine := s.winsBid port m
        let s := s.setPort port { (s.port port) with keyServer := mine }
        .next (if s.fld 0 (NDX_MSEC_CTRL_SECURE port) = 0 then (s.newSak port).setFld 0 (NDX_MSEC_CTRL_SECURE port) 1
          else if m.newSak ∧ !mine then s.newSak port else s))

/-- MKA_LIFE_EXPIRE (R498): no secure channel; the paths are down. -/
def execMkaLifeExpire (port : Nat) (s : State) : Res :=
  onPort port (
    if s.fld port ETH_PORT_CTRL_MACSEC_EN = 0 then .next s
    else .next ((s.setFld 0 (NDX_MSEC_CTRL_SECURE port) 0).pathsDown port))

/-- SAK_RENEWAL (R498): the key server distributes a new SAK once the transmit PN has reached its limit. -/
def execSakRenewal (port : Nat) (s : State) : Res :=
  onPort port (
    if s.fld 0 (NDX_MSEC_CTRL_SECURE port) = 0 ∨ !(s.port port).keyServer ∨ (s.port port).mtx < 0xC000000000000000 then .next s
    else .next ((s.newSak port).emit (.mka port)))

/-- PATH_SILENCE_TIMEOUT (R473, R485): a path of an ACTIVE port goes down; its packets are sent again on other paths. (DESIGN CHOICE: log 7) -/
def execPathSilenceTimeout (prov peer port : Nat) (s : State) : Res :=
  onPort port (
    let heard := ((s.link prov peer).map (fun l => Sparse.get 0 l.heard port)).getD 0
    if s.fld port ETH_PORT_STATUS_LINK = 0 ∨ s.fld port ETH_PORT_STATUS_POWER ≠ PW_ACTIVE ∨ !s.mayBe (heard + 4 * s.fld 0 NDX_LIVE_KA_US * 1000) then .next s
    else .next (s.updLink prov peer (fun l => l.dropPath port)))

/-- What the steward received while it restarted takes effect (R576). (DEDUCED: log 111) -/
def State.lateMsgs (s : State) : State :=
  let l := s.net.late
  let h := s.net.lateHs
  let s := { s with net := { s.net with late := [], lateHs := [] } }
  h.foldl State.handshakeIn (l.foldl (fun s x => s.actMsg x.1 x.2.1 x.2.2) s)

end Sys2Proof.Machine
end

