-- ==== Sys2Proof/Machine/Tsp.lean ====
section
/-! DEFINITION. The management port and TSP connections (R578–R583), and the TSP commands that read the device or set the Meridian. Payload fields
are in network order, records of the manual as stored (R580). -/
namespace Sys2Proof.Machine

/-! ## Connections (R578, R579, R581, R583) -/

/-- Connections replaced, and their number shown. -/
def State.setConns (s : State) (l : List TspConn) : State := { s with stw := { s.stw with conns := l } }.setFld 0 STW_MGMT_CONNS l.length

/-- The role that a client gets (R544, R579); none where its chain fails. `role`: 0 OBSERVER, 1 OPERATOR, 2 OWNER. (DEDUCED: log 119) -/
def State.clientRole (s : State) (chain : ChainEnd) (revoked : Bool) (role : Nat) : Option Role :=
  let named : Option Role := match role with | 0 => some .observer | 1 => some .operator | 2 => some .owner | _ => none
  let lc := s.fld 0 STW_STATUS_LC
  if lc = LC_BLANK ∨ lc = LC_SCRAPPED then none
  else if s.boot = BOOT_FAIL then (if chain = .bad then none else some .observer)
  else if lc = LC_PROVISIONED then some .restricted
  else if revoked then none
  else if chain = (if lc = LC_DEPLOYED then .owner else .tamtur) then named
  else none

/-- The parameters of R579: TLS 1.3, TLS_AES_256_GCM_SHA384, secp384r1, ecdsa_secp384r1_sha384. (PRESUMED: log 117) -/
def TlsClient.ok (c : TlsClient) : Bool := c.version == 0x0304 && c.suite == 0x1302 && c.group == 0x0018 && c.scheme == 0x0503

/-- TSP_CONNECTION_OPEN (R579): at most 8 connections, over TLS 1.3 with the one suite, group and scheme; the device presents its certificate chain, then judges the client's. (PRESUMED: log 117) -/
def execTspConnectionOpen (conn : Nat) (tls : TlsClient) (revoked : Bool) (role : Nat) (s : State) : Res :=
  if s.inReset ∨ s.fld 0 STW_MGMT_LINK = 0 ∨ s.stw.restarting ∨ !s.stw.keys ∨ 8 ≤ s.stw.conns.length ∨ (s.conn conn).isSome ∨ !TlsClient.ok tls then .next s
  else
    let s := s.emit (.tls conn s.certChain)
    match s.clientRole tls.chain revoked role with
    | some r => .next (s.setConns (s.stw.conns ++ [{ id := conn, role := r }]))
    | none => .next s

/-- TSP_IDLE_TIMEOUT (R579). -/
def execTspIdleTimeout (conn : Nat) (s : State) : Res := .next (s.setConns (s.stw.conns.filter (fun c => c.id != conn)))

/-- TSP_HELLO (R577, R581): version 1, or VERSION and the connection closes; nothing is answered before READY. (DEDUCED: log 100) -/
def execTspHello (conn lo hi : Nat) (s : State) : Res :=
  if (s.conn conn).isNone ∨ s.stw.restarting ∨ s.boot < BOOT_READY then .next s
  else if lo ≤ 1 ∧ 1 ≤ hi then
    .next ((s.setConns (s.stw.conns.map (fun c => if c.id = conn then { c with hello := true } else c))).answer conn 1 HS_OK [1])
  else
    let s := s.answer conn 1 TS_VERSION []
    .next (s.setConns (s.stw.conns.filter (fun c => c.id != conn)))

/-- SUBSCRIBE (R582, R583): bits 0–3 name error records, step decisions, province states, module changes. -/
def execSubscribe (conn classes : Nat) (s : State) : Res :=
  tspDo conn 6 s (fun s => (s.setConns (s.stw.conns.map (fun c => if c.id = conn then { c with subs := classes % 16 } else c))).answer conn 6 HS_OK [])

/-- TSP_EVENT_SEND (R583): the count of lost events first, then the oldest event. -/
def execTspEventSend (conn : Nat) (s : State) : Res :=
  match s.conn conn with
  | none => .next s
  | some c =>
    let put := fun (x : TspConn) => s.setConns (s.stw.conns.map (fun y => if y.id = conn then x else y))
    if s.stw.restarting then .next s
    else if 0 < c.lost then .next ((put { c with lost := 0 }).emit (.tspEvent conn (.lost c.lost)))
    else match c.queue with
    | e :: l => .next ((put { c with queue := l }).emit (.tspEvent conn e))
    | [] => .next s

/-- MGMT_FRAME_RECEIVED (R578): ARP, neighbour discovery and echo up to 1,000 a second, PTP, TLS on the TSP port; DHCP gives an address; every other frame is dropped. (PRESUMED: log 177) -/
def execMgmtFrameReceived (f : MgmtFrame) (s : State) : Res :=
  if s.inReset ∨ s.fld 0 STW_MGMT_LINK = 0 ∨ s.stw.restarting then .next s
  else
    let sec := s.frameTime / 1000000000
    let n := if sec = s.stw.mgmtSec then s.stw.mgmtCount else 0
    match f with
    | .arp | .neighbour | .echo =>
      if 1000 ≤ n then .next s
      else .next ({ s with stw := { s.stw with mgmtSec := sec, mgmtCount := n + 1 } }.emit (.mgmt f))
    | .ptp => .next (s.emit (.mgmt f))
    | .lease a => .next (if s.stw.mgmtDhcp then { s with stw := { s.stw with mgmtIps := s.stw.mgmtIps.filter (fun x => x == linkLocal s.stw.mgmtMac) ++ [a] } } else s)
    | .tcp port => .next (if port = s.fld 0 STW_MGMT_TCP_PORT then s.emit (.mgmt f) else s)
    | .other => .next s

/-! ## Reading the device -/

/-- A register as the device shows it. (DESIGN CHOICE: log 101) -/
def State.show4 (s : State) (b : Block) (u off : Nat) : Nat := s.readAt ⟨b, u, off⟩ 4

/-- GET_IDENTITY (R582). (DESIGN CHOICE: log 101) -/
def execGetIdentity (conn : Nat) (s : State) : Res :=
  tspDo conn 2 s (fun s => s.answer conn 2 HS_OK
    (beBytes 8 (s.readAt ⟨.dev, 0, DEV_DEVID.off⟩ 8) ++ beBytes 4 (s.show4 .dev 0 DEV_IDENT.off) ++ beBytes 4 (s.show4 .dev 0 DEV_REVISION.off) ++
     beBytes 1 (s.fld 0 STW_STATUS_LC) ++ s.certChain))

/-- GET_STATUS (R497, R582, R646). (DESIGN CHOICE: log 101) -/
def execGetStatus (conn : Nat) (s : State) : Res :=
  tspDo conn 4 s (fun s => s.answer conn 4 HS_OK
    (beBytes 4 (s.show4 .stw 0 STW_STATUS.off) ++ beBytes 4 (s.show4 .mer 0 MER_STATUS.off) ++ beBytes 4 (s.show4 .stw 0 STW_BASFIN_WEAR.off) ++
     (s.provs.filter (fun e => e.2.st != .none_)).flatMap (fun e => beBytes 4 (s.show4 .prov e.1 PROV_STATE.off)) ++
     (s.net.links.filter (fun l => l.prov != 0)).flatMap (fun l => beBytes 1 l.prov ++ beBytes 8 l.devid ++ beBytes 1 l.mer) ++
     s.pwr.words.flatMap (beBytes 2)))

/-- Blocks that READ_REG reads (R582). -/
def Block.tspReads (b : Block) : Bool :=
  match b with
  | .dev | .mer | .stw | .pwr | .tst | .hifDev | .ndx | .prov | .srv | .mem | .gzt | .rde | .ethDie | .ethPort => true
  | _ => false

/-- READ_REG (R4, R582): a register by its DPA; a read of `MER_GLOB_CTRL` clears LATE. (DESIGN CHOICE: log 25) -/
def execReadReg (conn addr n : Nat) (s : State) : Res :=
  tspDo conn 5 s (fun s =>
    if n ≠ 4 ∧ n ≠ 8 then s.answer conn 5 TS_BAD_REQ []
    else match dpaReg addr with
    | some r =>
      if !r.block.tspReads then s.answer conn 5 TS_BAD_REQ []
      else
        let v := s.readAt r n
        let s := if r.block = .mer ∧ r.off = MER_GLOB_CTRL.off then s.setFld 0 MER_GLOB_CTRL_LATE 0 else s
        s.spend.answer conn 5 HS_OK (beBytes n v)
    | none => s.answer conn 5 TS_BAD_REQ [])

/-- An error record (R587). (DESIGN CHOICE: log 101) -/
def ErrRec.bytes (r : ErrRec) : List Byte :=
  leBytes 8 r.seq ++ leBytes 8 r.time.toNat ++ leBytes 8 r.dframe ++ leBytes 2 r.cause ++ leBytes 1 r.sev ++
  leBytes 1 (b01 r.overflow + 2 * b01 r.nested + 4 * b01 r.lasting + 8 * b01 r.repaired + 16 * b01 r.proxy) ++ leBytes 1 r.prov ++ leBytes 1 r.die ++
  leBytes 2 r.unit ++ leBytes 8 r.addr ++ leBytes 2 r.bit ++ leBytes 2 r.count ++ leBytes 4 r.aux ++ leBytes 8 r.detail0 ++ leBytes 8 r.detail1

/-- A module record (R467). (DESIGN CHOICE: log 101) -/
def ModuleRec.bytes (r : ModuleRec) : List Byte :=
  beBytes 8 r.serial ++ beBytes 4 r.hours ++ beBytes 4 r.insertions ++ beBytes 2 (unsigned 16 (r.maxTemp.getD 0)) ++
  r.firstBias.flatMap (beBytes 2) ++ r.lastBias.flatMap (beBytes 2)

/-- The records of a province's step log, oldest first (R355). -/
def State.stepRecs (s : State) (p : Nat) : List (List Byte) :=
  let g := s.img p
  let n := (s.prov p).logSeq
  let k := min n g.steplogSize
  (List.range k).map (fun i => s.vbytes p (s.logAddr p (n - k + i)) 32)

/-- LOG_READ (R355, R467, R539, R582). -/
def execLogRead (conn : Nat) (what : LogSel) (s : State) : Res :=
  tspDo conn 7 s (fun s =>
    match what with
    | .errors i n =>
      if s.cartIn.isNone then s.answer conn 7 TS_CARTRIDGE []
      else s.answer conn 7 HS_OK (((s.errs.log.reverse.drop i).take n).flatMap ErrRec.bytes)
    | .modules i n => s.answer conn 7 HS_OK (((s.net.modules.drop i).take n).flatMap ModuleRec.bytes)
    | .steps p i n =>
      let pr := s.prov p
      if pr.st = .none_ ∨ 255 < p then s.answer conn 7 TS_UNKNOWN_PROV []
      else if !pr.loaded then s.answer conn 7 HS_PROV_STATE []
      else s.answer conn 7 HS_OK (((s.stepRecs p).drop i).take n).flatten)

/-- IMPRINT_READ (R539, R582): the records whose SEQ lies in a range. -/
def execImprintRead (conn lo n : Nat) (s : State) : Res :=
  tspDo conn 8 s (fun s =>
    match s.cartIn with
    | none => s.answer conn 8 TS_CARTRIDGE []
    | some c => s.answer conn 8 HS_OK (c.imprints.filter (fun r => decide (lo ≤ leAt r 16 8) && decide (leAt r 16 8 < lo + n))).flatten)

/-! ## Settings -/

/-- INLET_REPORT (R582, R630): 0.1 °C, signed 16 bits. -/
def execInletReport (conn : Nat) (t : Int) (s : State) : Res :=
  tspDo conn 0x42 s (fun s =>
    if t < -32768 ∨ 32767 < t then s.answer conn 0x42 TS_BAD_REQ []
    else { s with stw := { s.stw with inlet := some (t, s.frameTime) } }.answer conn 0x42 HS_OK [])

/-- MER_SET (R30, R31, R582). (DESIGN CHOICE: log 26) -/
def execMerSet (conn : Nat) (what : MerSet) (s : State) : Res :=
  tspDo conn 0x30 s (fun s =>
    let ok := fun (s : State) => s.answer conn 0x30 HS_OK []
    let no := s.answer conn 0x30 TS_BAD_REQ []
    match what with
    | .reg off v =>
      match Block.find .mer off with
      | some d =>
        if !d.fields.any (fun f => f.acc == .rw || f.acc == .w1c) then no
        else
          let s := s.writeAt ⟨.mer, 0, off⟩ (d.size / 8) v
          ok s.ppsSettle
      | none => no
    | .arm => ok s.armSwitch
    | .prio1 v => if 255 < v then no else ok { s with mer := { s.mer with prio1 := v } }
    | .prio2 v => if 255 < v then no else ok { s with mer := { s.mer with prio2 := v } }
    | .clockClass v => if 255 < v then no else ok { s with mer := { s.mer with clockClass := v } })

end Sys2Proof.Machine
end

