-- ==== Sys2Proof/Machine/Firmware.lean ====
section
/-! DEFINITION. Tables and credentials (R539, R540, R582, R640), firmware updates and restarts of the steward (R575–R577, R591, R649), the life cycle (R545–R548), TEST_RUN and SHUTDOWN
(R595–R598). -/
namespace Sys2Proof.Machine

/-! ## Tables, settings, credentials -/

/-- A table takes effect, and its copy goes to the cartridge (R539, R540). -/
def State.putTable (s : State) (t : TableImg) : State :=
  let put := fun (l : List TableImg) => l.filter (fun x => x.kind != t.kind) ++ [t]
  let s := { s with stw := { s.stw with tables := put s.stw.tables } }
  match s.cartIn with | some c => s.setCart { c with tables := put c.tables } | none => s

/-- TABLE_LOAD (R539, R542, R577, R582, R640): Legend image, Contour or Itinerary tables, templates. (DEDUCED: log 109) -/
def execTableLoad (conn : Nat) (img : TableImg) (s : State) : Res :=
  tspDo conn 0x52 s (fun s =>
    if !s.tableSig img then s.answer conn 0x52 TS_SIGNATURE []
    else if !s.cartWritable then s.answer conn 0x52 TS_CARTRIDGE []
    else match img.kind with
    | .legend | .contour | .itinerary | .templates =>
      if !TableImg.ok img then s.answer conn 0x52 TS_BAD_REQ []
      else
        let s := s.putTable img
        let s := if img.kind = .itinerary then { s with pwr := { s.pwr with restart := true } } else s
        s.answer conn 0x52 HS_OK []
    | _ => s.answer conn 0x52 TS_BAD_REQ [])

/-- FABRIC_SET (R498, R582, R626): fabric settings, lane modes, MACsec CAKs; `fab` is what the image says. (DESIGN CHOICE: log 123) -/
def execFabricSet (conn : Nat) (img : TableImg) (fab : Fabric) (s : State) : Res :=
  tspDo conn 0x53 s (fun s =>
    if !s.tableSig img then s.answer conn 0x53 TS_SIGNATURE []
    else if !s.cartWritable then s.answer conn 0x53 TS_CARTRIDGE []
    else if img.kind ≠ .fabric then s.answer conn 0x53 TS_BAD_REQ []
    else ((s.putTable img).applyFabric fab).answer conn 0x53 HS_OK [])

/-- CRED_SET (R582): the operator CA list and the revocation list. (DEDUCED: log 109) -/
def execCredSet (conn : Nat) (ca rev : TableImg) (s : State) : Res :=
  tspDo conn 0x54 s (fun s =>
    if !s.tableSig ca ∨ !s.tableSig rev then s.answer conn 0x54 TS_SIGNATURE []
    else if !s.cartWritable then s.answer conn 0x54 TS_CARTRIDGE []
    else if ca.kind ≠ .caList ∨ rev.kind ≠ .revocations then s.answer conn 0x54 TS_BAD_REQ []
    else ((s.putTable ca).putTable rev).answer conn 0x54 HS_OK [])

/-! ## Firmware (R575, R576) -/

/-- Values of `STW_STATUS.FW_UPDATE`. -/
def FU_NONE : Nat := 0
def FU_STAGED : Nat := 1
def FU_ACTIVATING : Nat := 2
def FU_UNCOMMITTED : Nat := 3

/-- The update state, which STATE of the cartridge holds too (R540). (DEDUCED: log 110) -/
def State.setUpdate (s : State) (v : Nat) : State :=
  let s := s.setFld 0 STW_STATUS_FW_UPDATE v
  match s.cartIn with | some c => if s.cartWritable then s.setCart { c with update := v } else s | none => s

/-- The slot that does not run. -/
def State.otherSlot (s : State) : Bool := s.fld 0 STW_STATUS_FW_SLOT == 0

/-- FW_STAGE (R540, R542, R545, R575). (DEDUCED: log 110) -/
def execFwStage (conn : Nat) (img : FwImage) (s : State) : Res :=
  tspDo conn 0x55 s (fun s =>
    if !img.sigOk ∨ 128 < img.svn then s.answer conn 0x55 TS_SIGNATURE []
    else if img.svn < s.stw.svnFused then s.answer conn 0x55 TS_FW_ROLLBACK []
    else if !s.cartWritable then s.answer conn 0x55 TS_CARTRIDGE []
    else match s.cartIn with
    | some c =>
      let s := s.setCart (if s.otherSlot then { c with fwB := some img } else { c with fwA := some img })
      (s.setUpdate FU_STAGED).answer conn 0x55 HS_OK []
    | none => s.answer conn 0x55 TS_CARTRIDGE [])

/-- A secure hand has lost its session (R576). -/
def State.handNoSession (s : State) (k : Nat) : State :=
  if (s.handState k = H_OPEN ∨ s.handState k = H_SUSPENDED) ∧ s.fld k HAND_CTRL_SECURE = 1 then
    ((s.setHand k { (s.hand k) with mismatch := none }).setFld k HAND_STATUS_STATE H_ERROR).setFld k HAND_STATUS_ERR 6
  else s

/-- The steward restarts (R576, R649): connections close, sessions end, secure hands and locked interfaces are in ERROR; an IMPRINT that waits goes on waiting (R577). (DEDUCED: log 111) -/
def State.beginRestart (s : State) (act : Option (FwImage × Bool × Nat)) : State :=
  let s : State := { s with stw := { s.stw with restarting := true, activating := act, sessions := [], spdmState := 0, waits := [], reqs := [], actSince := none,
                                                  lateImprints := s.stw.reqs.filterMap (fun r => match r.2 with | .imprint c p => some (c, p) | _ => none) } }
  let s := s.setConns []
  let s := s.hands.foldl (fun s e => s.handNoSession e.1) s
  allFns.foldl (fun s f => s.tdispErr f) s

/-- Whether a LOAD_ATLAS, START, IMPRINT or ledger commit is running (R575): a commit runs from the last commit frame's end until the ledger is written. (DEDUCED: log 110) -/
def State.activationWaits (s : State) : Bool :=
  s.hands.any (fun e => e.2.cmds.any (fun c => c.exclusive && c.st == .running)) || s.stw.reqs.any (fun r => match r.2 with | .imprint _ _ => true | _ => false) ||
  s.provs.any (fun e => e.2.st == .running && (s.img e.1).hasLedger && s.stepState e.1 == ST_VERIFIED && !e.2.ledgerDone && !e.2.ledgerStop && s.commitOver e.1)

/-- FW_ACTIVATE (R539, R575, R576): the staged image, or the previous slot while the running one is not committed. It waits for what is running up to 10 s: the request stands among those not yet served,
under no province. (DEDUCED: log 110) -/
def execFwActivate (conn : Nat) (prev : Bool) (s : State) : Res :=
  tspDo conn 0x56 s (fun s =>
    let st := s.fld 0 STW_STATUS_FW_UPDATE
    if st ≠ (if prev then FU_UNCOMMITTED else FU_STAGED) then s.answer conn 0x56 TS_BAD_REQ []
    else match s.cartIn.bind (fun c => fwSlot c s.otherSlot) with
    | none => s.answer conn 0x56 TS_CARTRIDGE []
    | some img =>
      if s.activationWaits then
        let since := s.stw.actSince.getD s.frameTime
        if since + 10000000000 ≤ s.frameTime then { s with stw := { s.stw with actSince := none } }.answer conn 0x56 TS_BUSY []
        else { s with stw := { s.stw with actSince := some since, reqs := s.stw.reqs ++ [(256, .fwActivate conn prev)] } }
      else
        let slot := s.otherSlot
        (((s.answer conn 0x56 HS_OK []).setFld 0 STW_STATUS_FW_UPDATE FU_ACTIVATING).beginRestart (some (img, slot, st))))

/-- FW_COMMIT (R575). -/
def execFwCommit (conn : Nat) (s : State) : Res :=
  tspDo conn 0x57 s (fun s =>
    match s.stw.running with
    | none => s.answer conn 0x57 TS_BAD_REQ []
    | some f =>
      if s.fld 0 STW_STATUS_FW_UPDATE ≠ FU_UNCOMMITTED then s.answer conn 0x57 TS_BAD_REQ []
      else
        let n := min 128 (max s.stw.svnFused f.svn)
        let s := { s with stw := { s.stw with svnFused := n } }.setFld 0 STW_FW_VERSION_SVN_FUSED n
        (s.setUpdate FU_NONE).answer conn 0x57 HS_OK [])

/-- STEWARD_WATCHDOG (R591): a restart on the running firmware. -/
def execStewardWatchdog (s : State) : Res := if s.inReset ∨ s.stw.restarting then .next s else .next (s.beginRestart none)

/-- A restart by the watchdog is over (R591): STEWARD_RESTART with PROXY, or STEWARD_FAIL at the third within 60 minutes. (DEDUCED: log 111) -/
def State.watchdogOver (s : State) : State :=
  let l := s.frameTime :: s.errs.restarts.filter (fun t => decide (s.frameTime ≤ t + 60 * nsMin))
  let s := { s with errs := { s.errs with restarts := l } }.setFld 0 TST_STATUS_RESTARTS (min 15 l.length)
  if 3 ≤ l.length then s.raise { cause := STEWARD_FAIL, die := 12, proxy := true } else s.raise { cause := STEWARD_RESTART, die := 12, proxy := true }

/-! ## The life cycle (R537, R538, R545–R547) -/

/-- The fuses of one more transition. -/
def State.burnLife (s : State) : State := { s with stw := { s.stw with fuseK := s.stw.fuseK + 1 } }.showLife

/-- The cartridge's pairing changes, and the identity certificate is written to DIR (R537, R547). (DEDUCED: log 112) -/
def State.pairCart (s : State) (p : Option Nat) : State :=
  match s.stw.cart with
  | some c => (s.setCart { c with paired := p, pairSig := p.isSome, devCert := if p.isSome then (s.stw.uds.map Config.identityCert).getD [] else c.devCert }).setFld 0 STW_STATUS_CART_PAIRED (b01 p.isSome)
  | none => s

/-- What a return to Tamtur scrubs and erases (R547). -/
def State.scrubAll (s : State) : State :=
  let keep := fun (l : List TableImg) => l.filter (fun t => t.kind != .caList && t.kind != .revocations)
  let s := { s with mem := [], poison := [], stw := { s.stw with tables := keep s.stw.tables } }
  let s := match s.stw.cart with | some c => s.setCart { c with tables := keep c.tables } | none => s
  s.tiles.foldl (fun s e => s.setTile e.1 { e.2 with sheet := [], badWords := [], prog := [], loadedFor := 0 }) s

/-- The DEVID that the identity key of a device secret gives (R550). (DESIGN CHOICE: log 158) -/
def devidOf (uds : Nat) : Nat := ofBE ((sha384 (Config.identityKey uds)).take 8)

/-- A transition of R547 with its token: a status, or the state after it. A JTAG command reaches the fuses in every state but DEPLOYED and SCRAPPED (R548). (DEDUCED: log 112, 113, 125) -/
def State.lifeStep (s : State) (tok : LifeToken) (jtag : Bool) : Except Nat State :=
  let lc := s.stw.life
  if jtag ∧ (!s.stw.sensed ∨ lc = LC_DEPLOYED ∨ lc = LC_SCRAPPED) then .error TS_LIFE_CYCLE
  else if s.anyProv then .error TS_PROV_EXIST
  else match tok.target with
  | 1 =>
    if lc ≠ LC_BLANK ∨ !jtag then .error TS_LIFE_CYCLE
    else
      let t := s.freeVal.2
      .ok ({ t with stw := { t.stw with uds := some s.free, troots := Config.tamturRoots, devid := devidOf s.free } }.burnLife)
  | 2 =>
    if (lc ≠ LC_MANUFACTURE ∧ lc ≠ LC_RETURNED) ∨ 10 ≤ s.stw.fuseK then .error TS_LIFE_CYCLE
    else if !tok.tamtur ∨ !tok.named then .error TS_SIGNATURE
    else match s.cartIn with
    | some c => if !s.cartWritable ∨ !c.production ∨ c.paired.isSome then .error TS_CARTRIDGE else .ok ((s.pairCart (some s.stw.devid)).burnLife)
    | none => .error TS_CARTRIDGE
  | 4 =>
    if lc ≠ LC_DEPLOYED ∨ jtag then .error TS_LIFE_CYCLE
    else if !tok.owner ∨ !tok.named then .error TS_SIGNATURE
    else if !s.cartWritable then .error TS_CARTRIDGE
    else .ok ((s.scrubAll.pairCart none).burnLife)
  | 5 =>
    if lc = LC_SCRAPPED then .error TS_LIFE_CYCLE
    else if !(if lc = LC_DEPLOYED then tok.owner else tok.tamtur) ∨ !tok.named then .error TS_SIGNATURE
    else if lc ≠ LC_BLANK ∧ !s.cartWritable then .error TS_CARTRIDGE
    else .ok ({ s with stw := { s.stw with scrap := true, keys := false, aliasKey := none, wrap := none, sessions := [], spdmState := 0 } }.showLife)
  | _ => .error TS_LIFE_CYCLE

/-- A SCRAPPED device answers no TSP (R547). -/
def State.scrapConns (s : State) : State := if s.stw.scrap then s.setConns [] else s

/-- LIFECYCLE (R547): by TSP, or over JTAG (`conn` none). -/
def execLifecycle (conn : Option Nat) (tok : LifeToken) (s : State) : Res :=
  match conn with
  | none =>
    if s.inReset then .next s
    else match s.lifeStep tok true with
    | .ok t => .next t.scrapConns
    | .error _ => .next s
  | some conn => tspDo conn 0x60 s (fun s =>
    match s.lifeStep tok false with
    | .ok t => (t.answer conn 0x60 HS_OK []).scrapConns
    | .error st => s.answer conn 0x60 st [])

/-- TAKE_OWNERSHIP (R545, R547): `tokOk` says that the ownership token for this DEVID and key verifies. -/
def execTakeOwnership (conn : Nat) (key : List Byte) (tokOk : Bool) (s : State) : Res :=
  tspDo conn 0x61 s (fun s =>
    if s.stw.life ≠ LC_PROVISIONED then s.answer conn 0x61 TS_LIFE_CYCLE []
    else if s.anyProv then s.answer conn 0x61 TS_PROV_EXIST []
    else if !tokOk then s.answer conn 0x61 TS_SIGNATURE []
    else if !s.cartWritable then s.answer conn 0x61 TS_CARTRIDGE []
    else ({ s with stw := { s.stw with owners := s.stw.owners ++ [sha384 key] } }.burnLife).answer conn 0x61 HS_OK [])

/-! ## Tests and shut-down (R595–R598) -/

/-- TEST_RUN (R548, R595, R596, R598): `found` is what the program finds. (DESIGN CHOICE: log 120) -/
def execTestRun (conn program : Nat) (units : List (Nat × Nat)) (ports : List Nat) (found : List ErrIn) (s : State) : Res :=
  tspDo conn 0x40 s (fun s => match s.runTest program units ports found with | .ok t => t.answer conn 0x40 HS_OK [] | .error n => s.answer conn 0x40 n [])

/-- SHUTDOWN (R543, R582, R595): FORCE dissolves the provinces first. -/
def execShutdown (conn : Nat) (force : Bool) (s : State) : Res :=
  tspDo conn 0x41 s (fun s =>
    if s.anyProv ∧ !force then s.answer conn 0x41 TS_PROV_EXIST []
    else
      let s := (s.provs.map Prod.fst).foldl (fun s p => if (s.prov p).st = .dissolving then s else s.dissolve p) s
      (s.answer conn 0x41 HS_OK []).setBoot BOOT_SHUTDOWN)

end Sys2Proof.Machine
end

