-- ==== Sys2Proof/Machine/Imprint.lean ====
section
/-! DEFINITION. Imprints (R568–R574): the quads a rank owns (R357, R362), the result hash, the record, the log. -/
namespace Sys2Proof.Machine

/-- How a tensor is divided among ranks (R357, R362): by quads, by square blocks of an edge, or by the rows of its blocks. -/
inductive Division where
  | quads
  | square (b : Nat)
  | rows (b : Nat)
deriving DecidableEq, Repr

/-- The division that the UPDATE section gives a tensor: by the blocks of its PRECOND group, which its parameter entry or a WEIGHT's LAYER names (R349, R357, R359); else by quads. -/
def Img.division (g : Img) (t : Nat) : Division :=
  let o := g.sectOff 11
  let ngroup := g o 4
  let gOff := o + up64 (64 + 16 * g (o + 8) 1)
  let pOff := gOff + up64 (96 * ngroup)
  if (g.sect 11).isNone then .quads
  else
    let lead := gOff + 96 * (g.tensor t).layer
    let hits := (List.range (g (o + 56) 4)).flatMap (fun i =>
      let e := pOff + 48 * i
      let ge := gOff + 96 * (g.tensor (g e 4)).layer
      if g ge 1 ≠ 3 then []
      else (List.range 8).filterMap (fun j => if g (e + 4 * j) 4 = t then some (if j < 4 then Division.square (g (ge + 66) 2) else .rows (g (ge + 66) 2)) else none))
    hits.headD (if (g.tensor t).cls = 1 ∧ (g.tensor t).layer < ngroup ∧ g lead 1 = 3 then .square (g (lead + 66) 2) else .quads)

/-- Whether rank `r` of `n` owns item `i` of `q` (R357). -/
def ownsItem (r n q i : Nat) : Bool := decide (r * q / n ≤ i) && decide (i < (r + 1) * q / n)

/-- The quads of a tensor that a rank owns, in storage order (R3, R357). -/
def Img.ownQuads (g : Img) (i r n : Nat) : List Nat :=
  let t := g.tensor i
  let qc := t.cols / 16
  let q := t.rows / 16 * qc
  (List.range q).filter (fun k => match g.division i with
    | .quads => ownsItem r n q k
    | .square b =>
      let bc := t.cols / max 1 b
      ownsItem r n (t.rows / max 1 b * bc) (16 * (k / max 1 qc) / max 1 b * bc + 16 * (k % max 1 qc) / max 1 b)
    | .rows b => ownsItem r n (t.rows / max 1 b) (16 * (k / max 1 qc) / max 1 b))

/-- The extents of the result hash, in order (R570). -/
def State.resultExt (s : State) (p : Nat) : List (Nat × Nat) :=
  let g := s.img p
  (List.range g.ntens).flatMap (fun i =>
    let t := g.tensor i
    let qb := quadBytes (sideNib s p t.fmt) (t.fmt == 18)
    if t.cls = 1 ∨ t.cls = 3 then (g.ownQuads i (s.rank p) (s.nranks p)).map (fun k => (t.base + k * qb, qb)) else []) ++
  (if g.hasLedger then [(g.ledgerBase, 128 * g.nrec)] else [])

/-- The imprint log holds this many records (R574): 4 GiB of 512 bytes. -/
def imprintRoom : Nat := 8388608

/-- Bytes 0–415 of an imprint record (R569). -/
def State.imprintBody (s : State) (p : Nat) (c : Cut) (data prev : List Byte) : List Byte :=
  let pr := s.prov p
  let flags := b01 (pr.satLast || pr.satSteps != 0) + 2 * b01 pr.recMark + 4 * b01 (s.fld p PROV_RNG_MODE_MODE == 0) + 8 * b01 pr.coldMark
  beBytes 8 0x464B2D494D505254 ++ leBytes 2 1 ++ leBytes 2 flags ++ zeros 4 ++
  leBytes 8 (s.reg 0 STW_IMPRINT_SEQ).toNat ++ leBytes 8 s.stw.devid ++ leBytes 8 c.frame ++ leBytes 1 p ++ zeros 3 ++ leBytes 4 (s.rank p) ++
  leBytes 4 (s.nranks p) ++ zeros 4 ++ leBytes 8 (pr.committed.getD 0xFFFFFFFFFFFFFFFF) ++ s.vbytes p (atlasBase + 24) 48 ++
  leBytes 8 (s.reg p PROV_SR_SEED).toNat ++ leBytes 8 pr.startStep ++ pr.manifest ++ leBytes 8 pr.manFirst ++ sha384 data ++ leBytes 8 data.length ++
  leBytes 4 pr.satSteps ++ leBytes 4 (s.fld p PROV_SKIP_CNT_COUNT) ++ ((s.stw.running.map FwImage.digest).getD (zeros 48)) ++ prev ++
  zeros 72

/-- Whether a cut may be imprinted (R50, R568): the province is PAUSED by a SNAPSHOT whose cut is complete. -/
def State.cutDone (s : State) (p : Nat) : Option Cut :=
  match (s.prov p).cut with
  | some c => if (s.prov p).st = .paused ∧ c.complete then some c else none
  | none => none

/-- The record is written to the log and returned (R540, R572). (DEDUCED: log 114) -/
def State.imprint (s : State) (conn p : Nat) (c : Cut) (cart : Cartridge) : State :=
  let ext := s.resultExt p
  if ext.any (fun x => s.vpoison p x.1 x.2) then s.answer conn 0x20 HS_POISON []
  else
    let data := ext.flatMap (fun x => s.vbytes p x.1 x.2)
    let prev := match cart.imprints.getLast? with | some r => sha384 r | none => zeros 48
    let body := s.imprintBody p c data prev
    let sig := s.freeBytes 96
    let r := body ++ sig.1
    let s := sig.2.setCart { cart with imprints := cart.imprints ++ [r] }
    let s := s.setReg 0 STW_IMPRINT_SEQ (s.reg 0 STW_IMPRINT_SEQ + 1)
    (s.setProv p { (s.prov p) with satSteps := 0 }).answer conn 0x20 HS_OK r

/-- What IMPRINT asks for (R540, R548, R568–R574). -/
def State.tryImprint (s : State) (conn prov : Nat) : State :=
  let no := fun (n : Nat) => s.answer conn 0x20 n []
  if s.fld 0 STW_STATUS_LC ≠ LC_DEPLOYED then no TS_LIFE_CYCLE
  else match s.cutDone prov with
  | none => no TS_CUT
  | some c =>
    if c.verified then no TS_NOT_COMMITTED
    else match s.cartIn with
    | none => no TS_CARTRIDGE
    | some cart =>
      if !s.cartWritable then no TS_CARTRIDGE
      else if imprintRoom ≤ cart.imprints.length then (s.raise { cause := LOG_FULL, die := 12 }).answer conn 0x20 TS_LOG_FULL []
      else s.imprint conn prov c cart

/-- IMPRINT. One that comes while the steward restarts waits with the requests that the restart's end serves (R577). (DEDUCED: log 114) -/
def execImprint (conn prov : Nat) (s : State) : Res :=
  if s.stw.restarting then .next { s with stw := { s.stw with reqs := s.stw.reqs ++ [(prov, .imprint conn prov)] } }
  else provDo (.imprint conn prov) conn 0x20 prov (fun _ => true) s (fun s => s.tryImprint conn prov)

/-- IMPRINT_ROLL (R574): the oldest half of the log is erased; `seq` must be that of the newest record erased. (DEDUCED: log 114) -/
def execImprintRoll (conn seq : Nat) (s : State) : Res :=
  tspDo conn 0x51 s (fun s =>
    match s.cartIn with
    | none => s.answer conn 0x51 TS_CARTRIDGE []
    | some cart =>
      let n := cart.imprints.length / 2
      if !s.cartWritable then s.answer conn 0x51 TS_CARTRIDGE []
      else match cart.imprints[n - 1]? with
      | some r =>
        if n = 0 ∨ leAt r 16 8 ≠ seq then s.answer conn 0x51 TS_BAD_REQ []
        else (s.setCart { cart with imprints := cart.imprints.drop n }).answer conn 0x51 HS_OK []
      | none => s.answer conn 0x51 TS_BAD_REQ [])

/-- The imprints that waited for a restart are made (R577). (DEDUCED: log 111) -/
def State.imprintsDue (s : State) (l : List (Nat × Nat)) : State := l.foldl (fun s e => s.tryImprint e.1 e.2) s

/-- STEWARD_RESTART_END (R549, R575–R577, R591): `ok` says that the image being activated starts; one that does not leaves the previous slot running. The imprints that waited are made then (R577). (DEDUCED: log 110) -/
def execStewardRestartEnd (ok : Bool) (s : State) : Res :=
  if !s.stw.restarting then .next s
  else
    let act := s.stw.activating
    let late := s.stw.lateImprints
    let s := { s with stw := { s.stw with restarting := false, activating := none, lateImprints := [] } }
    match act with
    | none => .next (s.watchdogOver.lateMsgs.imprintsDue late)
    | some (img, slot, before) =>
      if ok then
        let s := { s with stw := { s.stw with running := some img, activations := s.stw.activations + 1 } }.deriveAlias
        let s := match s.stw.cart with | some c => s.setCart { c with slotB := slot } | none => s
        .next ((((s.showFw img).setFld 0 STW_STATUS_FW_SLOT (b01 slot)).setUpdate FU_UNCOMMITTED).lateMsgs.imprintsDue late)
      else .next (((s.setUpdate before).raise { cause := FW_FAILED, die := 12 }).lateMsgs.imprintsDue late)

end Sys2Proof.Machine
end

