-- ==== Sys2Proof/Machine/Spdm.lean ====
section
/-! DEFINITION. The cartouche and SPDM (R531, R560–R564), IDE and TDISP (R565–R567). Message codes are those of SPDM 1.3; payloads leave out what only the DOE transport adds. Signatures,
key shares and MACs are free bytes. -/
namespace Sys2Proof.Machine

/-! ## The cartouche (R561, R562) -/

/-- The numbers that a repair holds. -/
def Repair.nats : Repair → List Nat
  | .spare u => [0, u.tile, u.bank, match u.kind with | .row => 0 | .col => 1 | .prog => 2, u.addr, u.bit, b01 u.bad]
  | .col r f => [1, r, f]
  | .lane n => [2, n]

/-- The numbers that the repair map holds (R597). -/
def State.repairNats (s : State) : List Nat :=
  (s.errs.fuses ++ s.errs.soft).flatMap Repair.nats ++ s.memc.remap.flatMap (fun e => e.2.flatMap (fun x => [3, e.1, x.1, x.2])) ++ (s.memc.sppr ++ s.errs.hppr).flatMap (fun g => [4, g])

/-- The bytes of a table in force; none is empty. -/
def State.tableBytes (s : State) (k : TableKind) : List Byte := ((s.table k).map TableImg.bytes).getD []

/-- The province record of a function (R562). -/
def State.provRecord (s : State) (f : Nat) : List Byte :=
  let p := s.fnProv f
  let pr := s.prov p
  if p = 0 then zeros 128
  else
    leBytes 1 p ++ leBytes 1 pr.st.code ++ leBytes 1 (b01 pr.recovery) ++ leBytes 1 (s.fld p PROV_RNG_MODE_MODE) ++ leBytes 4 (16 * pr.units.length) ++
    leBytes 4 pr.chans.length ++ leBytes 4 (s.nranks p) ++ leBytes 4 (s.rank p) ++ leBytes 8 (s.reg p PROV_NDX_TAG).toNat ++
    leBytes 4 (s.reg p PROV_MEM_SPLIT).toNat ++ leBytes 8 (s.reg p PROV_LINK_PORTS).toNat ++ leBytes 4 (s.reg p PROV_LINK_SLOTS).toNat ++
    leBytes 4 (s.fld p PROV_EPOCH_EPOCH) ++ (if pr.loaded then s.vbytes p (atlasBase + 24) 48 else zeros 48) ++ leBytes 8 (s.reg p PROV_SR_SEED).toNat ++
    (sha384 ((List.range 8).flatMap (fun i => leBytes 4 (s.reg p (PROV_LEGEND (8 + i))).toNat))).take 24

/-- The security state (index 9 of R561). -/
def State.securityState (s : State) : List Byte :=
  leBytes 1 s.stw.life ++ leBytes 1 s.stw.ownership ++ (if s.stw.life = LC_DEPLOYED then s.stw.owners.getD (s.stw.ownership - 1) (zeros 48) else zeros 48) ++
  leBytes 1 s.stw.revoked ++ leBytes 32 ((s.provs.filter (fun e => e.2.recovery)).foldl (fun n e => n + 2 ^ e.1) 0)

/-- The value of a measurement with its DMTF type, bit 7 for a raw value (R561). -/
def State.measure (s : State) (i : Nat) : Option (Nat × List Byte) :=
  match i with
  | 1 => some (0, Config.romDigest)
  | 2 => some (1, (s.stw.running.map FwImage.digest).getD (zeros 48))
  | 3 => some (0x82, leBytes 4 (s.show4 .dev 0 DEV_IDENT.off) ++ leBytes 4 (s.show4 .dev 0 DEV_REVISION.off) ++ leBytes 4 (s.fld 0 STW_FW_VERSION_VERSION) ++
      leBytes 1 (s.fld 0 STW_FW_VERSION_SVN) ++ leBytes 1 s.stw.svnFused)
  | 4 => some (3, sha384 (s.tableBytes .legend))
  | 5 => some (3, sha384 (s.tableBytes .contour))
  | 6 => some (3, sha384 (s.tableBytes .itinerary))
  | 7 => some (3, sha384 (s.tableBytes .fabric))
  | 8 => some (3, sha384 (s.tableBytes .templates ++ s.tableBytes .caList ++ s.tableBytes .revocations))
  | 9 => some (0x83, s.securityState)
  | 10 => some (3, Config.repairDigest s.repairNats)
  | 11 => some (0x83, leBytes 1 (s.fld 0 STW_STATUS_FW_UPDATE) ++
      ((s.cartIn.bind (fun c => fwSlot c s.otherSlot)).map FwImage.digest).getD (zeros 48))
  | 12 => some (0x83, leBytes 4 s.stw.activations ++ leBytes 4 s.stw.persts ++ leBytes 4 s.stw.hotResets ++ leBytes 4 (Sparse.get 0 s.stw.flrs s.stw.selFn))
  | 16 => some (0x83, s.provRecord s.stw.selFn)
  | _ => none

/-- A DMTF measurement block. (PRESUMED: log 115) -/
def measBlock (i : Nat) (v : Nat × List Byte) : List Byte :=
  leBytes 1 i ++ leBytes 1 1 ++ leBytes 2 (v.2.length + 3) ++ leBytes 1 v.1 ++ leBytes 2 v.2.length ++ v.2

/-- The blocks that a request names, taken at one instant (R563): 0xFF for all; none where there is no such block. -/
def State.measBlocks (s : State) (i : Nat) : List (List Byte) :=
  (List.range 17).filterMap (fun n => if i = 0xFF ∨ i = n then (s.measure n).map (measBlock n) else none)

/-- The measurement record with its count and length, the nonce, and no opaque data. (PRESUMED: log 115) -/
def measRecord (bs : List (List Byte)) (nonce : List Byte) : List Byte :=
  leBytes 1 bs.length ++ leBytes 3 bs.flatten.length ++ bs.flatten ++ nonce ++ zeros 2

/-- GET_CARTOUCHE (R563, R564): the blocks, signed over the client's nonce and the blocks. -/
def execGetCartouche (conn : Nat) (nonce : List Byte) (s : State) : Res :=
  tspDo conn 3 s (fun s =>
    if nonce.length ≠ 32 then s.answer conn 3 TS_BAD_REQ []
    else
      let sig := s.freeBytes 96
      sig.2.answer conn 3 HS_OK (measRecord (s.measBlocks 0xFF) nonce ++ sig.1))

/-! ## SPDM (R531, R560) -/

/-- Error codes of SPDM 1.3. -/
def SE_INVALID : Nat := 0x01
def SE_SESSION : Nat := 0x02
def SE_BUSY : Nat := 0x03
def SE_UNEXPECTED : Nat := 0x04
def SE_DECRYPT : Nat := 0x06
def SE_LIMIT : Nat := 0x0A

/-- An ERROR response. -/
def State.spdmErr (s : State) (e : Nat) : State := s.emit (.spdm 0x7F (leBytes 1 e))

/-- A request over DOE on PF0, once `need` steps of the negotiation are done; the device signs nothing without keys and answers nothing before READY (R547, R577). (PRESUMED: log 115) -/
def spdmDo (need : Nat) (s : State) (f : State → State) : Res :=
  if s.inReset ∨ s.boot ≠ BOOT_READY ∨ !s.stw.keys ∨ !s.dlUp ∨ s.fld 0 HIF_FN_STATUS_ATTACH = 1 then .next s
  else if s.stw.restarting then .next (s.spdmErr SE_BUSY)
  else if s.stw.spdmState < need then .next (s.spdmErr SE_UNEXPECTED)
  else .next (f s)

/-- A request inside a session; FINISH alone serves one that is not complete. -/
def sessionDo (sid : Nat) (done : Bool) (s : State) (f : SpdmSession → State) : Res :=
  spdmDo 3 s (fun s => match s.stw.sessions.find? (fun x => x.id == sid && x.done == done) with
    | some x => f x
    | none => s.spdmErr SE_SESSION)

/-- A session changes. -/
def State.putSession (s : State) (x : SpdmSession) : State :=
  { s with stw := { s.stw with sessions := s.stw.sessions.map (fun y => if y.id = x.id then x else y) } }

/-- GET_VERSION (R560): SPDM 1.3 alone. (PRESUMED: log 115, 116) -/
def execGetVersion (s : State) : Res :=
  spdmDo 0 s (fun s => { s with stw := { s.stw with spdmState := 1 } }.emit (.spdm 0x04 [0, 1, 0x00, 0x13]))

/-- GET_CAPABILITIES (R560): CERT, CHAL, MEAS with signature and fresh, ENCRYPT, MAC, KEY_EX, HBEAT, KEY_UPD. -/
def execGetCapabilities (s : State) : Res :=
  spdmDo 1 s (fun s =>
    if s.stw.spdmState ≠ 1 then s.spdmErr SE_UNEXPECTED
    else { s with stw := { s.stw with spdmState := 2 } }.emit (.spdm 0x61 (leBytes 4 (2 ^ 1 + 2 ^ 2 + 2 * 2 ^ 3 + 2 ^ 5 + 2 ^ 6 + 2 ^ 7 + 2 ^ 9 + 2 ^ 13 + 2 ^ 14))))

/-- NEGOTIATE_ALGORITHMS (R560): `common` says that the requester offers ECDSA P-384, SHA-384, secp384r1 and AES-256-GCM. -/
def execNegotiateAlgorithms (common : Bool) (s : State) : Res :=
  spdmDo 2 s (fun s =>
    if s.stw.spdmState ≠ 2 then s.spdmErr SE_UNEXPECTED
    else if !common then s.spdmErr SE_INVALID
    else { s with stw := { s.stw with spdmState := 3 } }.emit (.spdm 0x63 (leBytes 4 0x80 ++ leBytes 4 0x02 ++ leBytes 2 0x10 ++ leBytes 2 0x02)))

/-- GET_DIGESTS (R560, R577): slot 0. -/
def execGetDigests (s : State) : Res := spdmDo 3 s (fun s => s.emit (.spdm 0x01 ([1, 1] ++ sha384 s.certChain)))

/-- GET_CERTIFICATE (R550, R560): a portion of slot 0's chain. -/
def execGetCertificate (slot off n : Nat) (s : State) : Res :=
  spdmDo 3 s (fun s =>
    let c := s.certChain
    if slot ≠ 0 ∨ c.length < off then s.spdmErr SE_INVALID
    else
      let part := (c.drop off).take n
      s.emit (.spdm 0x02 (leBytes 2 part.length ++ leBytes 2 (c.length - off - part.length) ++ part)))

/-- CHALLENGE (R560). -/
def execChallenge (slot : Nat) (s : State) : Res :=
  spdmDo 3 s (fun s =>
    if slot ≠ 0 then s.spdmErr SE_INVALID
    else
      let x := s.freeBytes 128
      x.2.emit (.spdm 0x03 (sha384 s.certChain ++ x.1.take 32 ++ zeros 2 ++ x.1.drop 32)))

/-- GET_MEASUREMENTS (R560–R563, R577): index 0 asks how many blocks there are, 0xFF for all of them. -/
def execGetMeasurements (index : Nat) (signed : Bool) (s : State) : Res :=
  spdmDo 3 s (fun s =>
    if index = 0 then s.emit (.spdm 0x60 (leBytes 1 (s.measBlocks 0xFF).length))
    else
      let bs := s.measBlocks index
      if bs = [] then s.spdmErr SE_INVALID
      else
        let x := s.freeBytes 128
        x.2.emit (.spdm 0x60 (measRecord bs (x.1.take 32) ++ (if signed then x.1.drop 32 else []))))

/-- KEY_EXCHANGE (R531, R560): at most 64 sessions; a session begins. -/
def execKeyExchange (slot : Nat) (s : State) : Res :=
  spdmDo 3 s (fun s =>
    if slot ≠ 0 then s.spdmErr SE_INVALID
    else if 64 ≤ s.stw.sessions.length then s.spdmErr SE_LIMIT
    else
      let id := (((List.range 65).map (fun i => i + 1)).find? (fun i => !s.stw.sessions.any (fun x => x.id == i))).getD 1
      let t : State := { s with stw := { s.stw with sessions := s.stw.sessions ++ [{ id := id, secret := s.free }] } }
      let x := t.freeBytes 240
      x.2.emit (.spdm 0x64 (leBytes 4 id ++ x.1)))

/-- SPDM_FINISH (R560): a FINISH whose MAC fails ends the session that it would complete. -/
def execSpdmFinish (sid : Nat) (macOk : Bool) (s : State) : Res :=
  sessionDo sid false s (fun x =>
    if macOk then (s.putSession { x with done := true }).emit (.spdm 0x65 [])
    else (s.endSessions (fun y => y.id == sid)).spdmErr SE_DECRYPT)

/-- HEARTBEAT (R560). -/
def execHeartbeat (sid : Nat) (s : State) : Res := sessionDo sid true s (fun _ => s.emit (.spdm 0x68 []))

/-- SPDM_KEY_UPDATE (R560): the session's keys take their next phase. -/
def execSpdmKeyUpdate (sid : Nat) (s : State) : Res :=
  sessionDo sid true s (fun x => (s.putSession { x with phase := x.phase + 1 }).emit (.spdm 0x69 []))

/-- END_SESSION (R560). -/
def execEndSession (sid : Nat) (s : State) : Res := sessionDo sid true s (fun _ => (s.endSessions (fun y => y.id == sid)).emit (.spdm 0x6C []))

/-- BIND_FN (R531, R560). -/
def execBindFn (sid fn : Nat) (s : State) : Res :=
  onFn fn (sessionDo sid true s (fun x => (s.putSession { x with fn := some fn }).emit (.spdm 0x7E [])))

/-- SELECT_FN (R560, R562): inside a session or outside one. -/
def execSelectFn (fn : Nat) (s : State) : Res :=
  onFn fn (spdmDo 3 s (fun s => { s with stw := { s.stw with selFn := fn } }.emit (.spdm 0x7E [])))

/-! ## IDE and TDISP (R565–R567) -/

/-- `HIF_LINK_STATUS.IDE` shows whether a stream is keyed. -/
def State.setIde (s : State) (l : List IdeStream) : State := { s with stw := { s.stw with ide := l } }.setFld 0 HIF_LINK_STATUS_IDE (b01 (!l.isEmpty))

/-- IDE_KM (R565): a stream is keyed, or stopped: one link stream and up to 8 selective streams. (PRESUMED: log 116) -/
def execIdeKm (sid stream : Nat) (fn : Option Nat) (stop : Bool) (s : State) : Res :=
  sessionDo sid true s (fun _ =>
    let l := s.stw.ide.filter (fun x => x.id != stream)
    if stop then (s.setIde l).emit (.spdm 0x7E [])
    else if fn.any (fun f => decide (256 ≤ f)) ∨ (fn.isNone ∧ l.any (fun x => x.fn.isNone)) ∨ (fn.isSome ∧ 8 ≤ (l.filter (fun x => x.fn.isSome)).length) then s.spdmErr SE_INVALID
    else (s.setIde (l ++ [⟨stream, fn⟩])).emit (.spdm 0x7E []))

/-- The interface report of a virtual function (R565): its memory ranges BAR0, with the MSI-X table, and BAR2 (R505), by free page addresses, pages and attributes, and the record of R562. (PRESUMED: log 116) -/
def State.tdispReport (s : State) (f : Nat) (page0 page2 : Nat) : List Byte :=
  let r := s.provRecord f
  leBytes 2 0 ++ zeros 10 ++ leBytes 4 2 ++ leBytes 8 page0 ++ leBytes 4 256 ++ leBytes 4 1 ++ leBytes 8 page2 ++ leBytes 4 16384 ++ leBytes 4 (2 * 2 ^ 16) ++ leBytes 4 r.length ++ r

/-- A TDISP answer: the state of an interface, with its report. -/
def State.tdispAns (s : State) (f : Nat) : State :=
  let a := s.freeVal
  let b := a.2.freeVal
  b.2.emit (.tdisp f (b.2.fn f).tdisp (b.2.tdispReport f a.1.toNat b.1.toNat))

/-- A TDISP request within a session; PF0 is no TDISP interface (R565). -/
def tdispDo (sid fn : Nat) (s : State) (f : State → State) : Res :=
  onFn fn (sessionDo sid true s (fun _ => if fn = 0 then s.spdmErr SE_INVALID else (f s).tdispAns fn))

/-- LOCK_INTERFACE (R565, R566; refused on stepping A0, R672). (PRESUMED: log 116) -/
def execLockInterface (sid fn : Nat) (s : State) : Res :=
  tdispDo sid fn s (fun s =>
    let st := (s.prov (s.fnProv fn)).st
    if s.stepA0 = false ∧ (s.fn fn).tdisp = .unlocked ∧ s.fnProv fn ≠ 0 ∧ (st = .sealed_ ∨ st = .running ∨ st = .paused) ∧ s.stw.ide.any (fun x => x.fn == some fn) ∧
        s.fld fn HIF_FN_STATUS_ATTACH = 0 then s.setFn fn { (s.fn fn) with tdisp := .locked }
    else s)

/-- START_INTERFACE (R566). -/
def execStartInterface (sid fn : Nat) (s : State) : Res :=
  tdispDo sid fn s (fun s => if (s.fn fn).tdisp = .locked then s.setFn fn { (s.fn fn) with tdisp := .run } else s)

/-- STOP_INTERFACE (R529, R567): CONFIG_UNLOCKED; every hand of the function is closed as DISCARD closes it, and chains that wait for the host fault. -/
def execStopInterface (sid fn : Nat) (s : State) : Res :=
  tdispDo sid fn s (fun s =>
    let s := s.setFn fn { (s.fn fn) with tdisp := .unlocked }
    let l := (s.hands.filter (fun e => e.2.fn == fn && s.handState e.1 != H_CLOSED)).map Prod.fst
    (l.foldl (fun s k => (s.dropStart k).discardHand k) s).discardFn fn)

/-- TDISP_INTERFACE_ERROR (R567): a change of the function's BARs or Memory Space Enable, or an IDE integrity failure. -/
def execTdispInterfaceError (fn : Nat) (s : State) : Res := onFn fn (.next (s.tdispErr fn))

end Sys2Proof.Machine
end

