-- ==== Sys2Proof/Machine/VecMath.lean ====
section
/-! DEFINITION. The arithmetic of the vector engine (spec file 06): operand elements, result placement, reductions (R157–R159), softmax and
merging (R161, R162), element programs (R166–R168). -/
namespace Sys2Proof.Machine

/-- A binary32 word widened from an exact value (R103, R110). -/
def widen32 (v : Val) : W32 := canon32 (rne32 v)

/-- Element `i` of a stream, with its events: an element of a block may overflow or underflow as it is widened, and a block scale of 0xFF is
consumed (R110, R143, R146, R177). (DEDUCED: log 36) -/
def Tile.streamElem (t : Tile) (x : StreamWord) (f : Fmt) (i : Nat) : W32 × Ev :=
  let e := t.elem f.nib (x.pos f.nib i)
  if f.bs then
    let sc := (t.byte (x.sbase + i / 32)).toNat
    let r := round32 .rne (f.mxDecode sc e)
    (canon32 r.1, { r.2 with blk := sc == 0xFF })
  else (widen32 (f.decode e), {})

/-- Element `i` of an operand (R141, R144). -/
def Tile.opElem (t : Tile) (f : Option Fmt) (o : Opnd) (i : Nat) : W32 × Ev :=
  let x := TregWord.of o.word
  match o.kind with
  | 1 => match f with | some f => t.streamElem (StreamWord.of o.word) f i | none => (nan32, {})
  | 2 => (t.tr (x.elem i), {})
  | 3 => (BitVec.ofNat 32 o.word, {})
  | 4 => (t.tr (tregIdx x.reg (x.row + i / 64) x.col), {})
  | 5 => (t.tr (tregIdx x.reg x.row (i % 64)), {})
  | _ => (0, {})

/-- The format of an operand that is a stream. -/
def Opnd.fmt (o : Opnd) (s : State) (p : Nat) : Option Fmt :=
  if o.kind = 1 then s.fmtOf p (StreamWord.of o.word).fmt else none

/-- The narrowing mode of an element (R151): RM names SR when 2. -/
def vecRnd (rm : Nat) (draw : Nat → Nat) (i : Nat) : Rnd := if rm = 2 then .sr (draw i) else if rm = 1 then .rz else .rne

/-- What an instruction writes: sheet-store bytes, tile-register entries, and its events. -/
structure VecOut where
  sheet : List (Nat × Byte) := []
  treg : List (Nat × W32) := []
  ev : Ev := {}
deriving DecidableEq, Repr

def VecOut.join (a b : VecOut) : VecOut := ⟨a.sheet ++ b.sheet, a.treg ++ b.treg, a.ev.or b.ev⟩

/-- The results of a stream destination (R147, R151): narrowed, block by block when block scaled; beat by beat (R173), the scales of a beat after
its elements. (DESIGN CHOICE: log 172) -/
def Tile.streamOut (t : Tile) (x : StreamWord) (f : Fmt) (sat : Bool) (vs : List (W32 × Rnd)) : VecOut :=
  if f.bs then
    let blocks := chunks 32 (vs.length + 1) vs
    let enc := blocks.map (fun b => f.mxEncode (b.map (fun e => (f32 e.1, e.2))))
    let beats := chunks 2 (enc.length + 1) enc.zipIdx
    { sheet := beats.flatMap (fun bt =>
        t.elemWrites f.nib (bt.flatMap (fun e => e.1.2.1.zipIdx.map (fun c => (x.pos f.nib (32 * e.2 + c.2), c.1)))) ++
        bt.map (fun e => (x.sbase + e.2, BitVec.ofNat 8 e.1.1))),
      ev := enc.foldl (fun a e => a.or e.2.2) {} }
  else
    let nar := vs.map (fun e => f.narrow e.2 sat (f32 e.1))
    { sheet := t.elemWrites f.nib (nar.zipIdx.map (fun c => (x.pos f.nib c.2, c.1.1))),
      ev := nar.foldl (fun a e => a.or e.2) {} }

/-- The results of a destination (R147). -/
def Tile.opOut (t : Tile) (f : Option Fmt) (o : Opnd) (sat : Bool) (vs : List (W32 × Rnd)) : VecOut :=
  match o.kind, f with
  | 1, some f => t.streamOut (StreamWord.of o.word) f sat vs
  | 2, _ => { treg := vs.zipIdx.map (fun v => ((TregWord.of o.word).elem v.2, v.1.1)) }
  | _, _ => {}

/-- `tree_sum` of R157 with its events (`fuel` levels). (DESIGN CHOICE: log 174) -/
def treeSum : Nat → List W32 → Ev → W32 × Ev
  | 0, xs, ev => (xs.headD 0, ev)
  | _ + 1, [], ev => (0, ev)
  | _ + 1, [x], ev => (x, ev)
  | f + 1, xs, ev =>
    let ys := (chunks 2 (xs.length + 1) xs).map (fun p => match p with | [a, b] => add32 a b | a :: _ => (a, {}) | [] => (0, {}))
    treeSum f (ys.map Prod.fst) (ys.foldl (fun e y => e.or y.2) ev)

/-- `better` of R158. -/
def redBetter (fn : Nat) (a b : W32) : Bool :=
  if fn = 2 then (f32 b).lt (f32 a) else if fn = 3 then (f32 a).lt (f32 b) else (f32 b).abs.lt (f32 a).abs

/-- `pick` of R158: the winner's index over a first best. -/
def redPick (fn : Nat) (best : W32) (bi : Option Nat) : List (Nat × W32) → W32 × Option Nat
  | [] => (best, bi)
  | (j, x) :: r =>
    if (f32 best).isNan then (best, bi)
    else if (f32 x).isNan || redBetter fn x best then redPick fn x (some j) r else redPick fn best bi r

/-- The winner of a list of candidates (index, value), after an old value when ACC = 1 (R158, R159): the value, the index (none when the old
value stays the winner), and whether a NaN was seen. -/
def redWin (fn : Nat) (old : Option W32) (xs : List (Nat × W32)) : W32 × Option Nat :=
  let r := match old with
    | some o => redPick fn o none xs
    | none => match xs with
      | [] => (0, none)
      | (j, x) :: t => redPick fn x (some j) t
  (if fn = 4 then abs32 r.1 else canon32 r.1, r.2)

/-- The reduction of one group of entries (R156–R159): entries with their indices, the old value when ACC = 1. `rows` gives the entries row by
row for ALL sums. -/
def redOne (fn : Nat) (old : Option W32) (rows : List (List W32)) (cands : List (Nat × W32)) : W32 × Option Nat × Ev :=
  let nan := cands.any (fun c => (f32 c.2).isNan) || (old.map (fun o => (f32 o).isNan)).getD false
  if fn ≤ 1 then
    let term := fun (x : W32) => if fn = 1 then mul32 x x else (x, ({ nanIn := (f32 x).isNan } : Ev))
    let rs := rows.map (fun r =>
      let ts := r.map term
      treeSum 14 (ts.map Prod.fst) (ts.foldl (fun e t => e.or t.2) {}))
    let tot := treeSum 14 (rs.map Prod.fst) (rs.foldl (fun e t => e.or t.2) {})
    match old with
    | some o => let a := add32 o tot.1; (canon32 a.1, none, tot.2.or a.2)
    | none => (canon32 tot.1, none, tot.2)
  else if fn = 5 then
    let n := (cands.filter (fun c => (f32 c.2).isNan || (f32 c.2).isInf)).length
    let cnt := rne32 (.fin false n 0)
    match old with
    | some o => ((add32 o cnt).1, none, {})
    | none => (cnt, none, {})
  else
    let r := redWin fn old cands
    (r.1, r.2, { nanIn := nan })

/-- The exact binary32 of a small count. -/
def nat32 (n : Nat) : W32 := rne32 (.fin false n 0)

/-- −∞, +∞ and 1 in binary32. -/
def ninf32 : W32 := 0xFF800000#32
def pinf32 : W32 := 0x7F800000#32
def one32 : W32 := 0x3F800000#32

/-- The larger of finite values, the earlier one when equal. -/
def maxFin (xs : List W32) : W32 := (redWin 2 none ((xs.filter (fun x => !(f32 x).isInf)).map (fun x => (0, x)))).1

/-- What a softmax row gives (R161): the outputs, m, s, whether the row was vacant, whether INFROW is set, the events. -/
structure SmRow where
  out : List W32
  m : W32
  s : W32
  vacant : Bool := false
  infRow : Bool := false
  ev : Ev := {}
deriving DecidableEq, Repr

/-- Divide every element by `s` (NORM), or keep them (PART). -/
def smDiv (part : Bool) (es : List W32) (s : W32) (ev : Ev) : List W32 × Ev :=
  if part then (es, ev)
  else
    let ds := es.map (fun e => div32 e s)
    (ds.map Prod.fst, ds.foldl (fun a d => a.or d.2) ev)

/-- `softmax_row` of R161. -/
def softmaxRow (x : List W32) (part strict : Bool) : SmRow :=
  if x.any (fun v => (f32 v).isNan) then { out := x.map (fun _ => nan32), m := nan32, s := nan32, ev := { nanIn := true } }
  else
    let k := (x.filter (fun v => v == pinf32)).length
    if 0 < k then
      if strict then { out := x.map (fun _ => nan32), m := nan32, s := nan32, ev := { inv := true } }
      else
        let es := x.map (fun v => if v = pinf32 then one32 else 0)
        let d := smDiv part es (nat32 k) {}
        { out := d.1, m := pinf32, s := nat32 k, infRow := true, ev := d.2 }
    else if x.all (fun v => v == ninf32) then { out := x.map (fun _ => 0), m := ninf32, s := 0, vacant := true }
    else
      let m := maxFin x
      let es := x.map (fun v => let a := sub32 v m; let e := exp32 a.1; (e.1, a.2.or e.2))
      let s := treeSum 14 (es.map Prod.fst) (es.foldl (fun a e => a.or e.2) {})
      let d := smDiv part (es.map Prod.fst) s.1 s.2
      { out := d.1, m := m, s := s.1, ev := d.2 }

/-- `merge_row` of R162. -/
def mergeRow (m1 s1 : W32) (o1 : List W32) (m2 s2 : W32) (o2 : List W32) (final strict : Bool) : SmRow :=
  if (f32 m1).isNan || (f32 m2).isNan then { out := o1.map (fun _ => nan32), m := nan32, s := nan32, ev := { nanIn := true } }
  else
    let m := if (f32 m2).le (f32 m1) then m1 else m2
    if m = pinf32 ∧ strict then { out := o1.map (fun _ => nan32), m := nan32, s := nan32, ev := { inv := true } }
    else
      let scale := fun (mi : W32) => if (f32 mi).eqv (f32 m) then (one32, ({} : Ev)) else let d := sub32 mi m; let e := exp32 d.1; (e.1, d.2.or e.2)
      let a1 := scale m1
      let a2 := scale m2
      let mix := fun (x y : W32) => let p := mul32 a2.1 y; let q := fma32 a1.1 x p.1; (q.1, p.2.or q.2)
      let s := mix s1 s2
      let os := (o1.zip o2).map (fun p => mix p.1 p.2)
      let ev := os.foldl (fun e o => e.or o.2) ((a1.2.or a2.2).or s.2)
      if final then
        if (f32 s.1).isZero then { out := os.map (fun _ => 0), m := m, s := s.1, vacant := true, ev := ev }
        else
          let d := smDiv false (os.map Prod.fst) s.1 ev
          { out := d.1, m := m, s := s.1, ev := d.2 }
      else { out := os.map Prod.fst, m := m, s := s.1, ev := ev }

/-- The sources of a micro-operation that its function reads (R166). (DESIGN CHOICE: log 162) -/
def uopSrcs (w : Nat) : List Nat :=
  let n := if bits w 0 6 = 0x20 then 0 else vopArity (bits w 0 6)
  [bits w 10 5, bits w 15 5, bits w 20 5].take n

/-- Whether a micro-operation's code is one of R166. -/
def uopOk (w : Nat) : Bool := decide (bits w 0 6 ≤ 0x1C) || bits w 0 6 == 0x20

/-- The checks of R169 on the micro-operations: `wr` lists the temporaries written so far. (DESIGN CHOICE: log 162) -/
def uopsOk (nin : Nat) : List Nat → List Nat → Option (List Nat)
  | [], wr => some wr
  | w :: ws, wr =>
    if uopOk w && (uopSrcs w).all (fun c =>
        if c < 16 then wr.contains c else if c < 20 then decide (c - 16 < nin) else decide (c ≤ 24)) then
      uopsOk nin ws (bits w 6 4 :: wr)
    else none

/-- A source's value in one element's run (R166): temporaries, inputs, constants, the element index. -/
def uopVal (vs : List W32) (ins consts : List W32) (i c : Nat) : W32 :=
  if c < 16 then vs.getD c 0 else if c < 20 then ins.getD (c - 16) 0 else if c < 24 then consts.getD (c - 20) 0 else nat32 i

/-- The micro-operations of a program on one element (R167, R168): the temporaries and the events; `draw` gives the DRAW value of each micro-operation. -/
def runUops (ops : List Nat) (ins consts : List W32) (i : Nat) (draw : Nat → W32) : List W32 × Ev :=
  ops.zipIdx.foldl (fun st x =>
    let w := x.1
    let v := fun c => uopVal st.1 ins consts i c
    let r := if bits w 0 6 = 0x20 then (draw x.2, ({} : Ev)) else vopFn (bits w 0 6) (v (bits w 10 5)) (v (bits w 15 5)) (v (bits w 20 5))
    (setAt st.1 (bits w 6 4) r.1, st.2.or r.2)) (List.replicate 16 0, {})

end Sys2Proof.Machine
end

