-- ==== Sys2Proof/Machine/Vector.lean ====
section
/-! DEFINITION. The vector engine's instructions (spec file 06): issue checks of VOP, VRED, VSMX, VSMG, VEP, VQL and VQS in the order of R675,
and VECTOR_INSTRUCTION_DONE, which carries out the instruction at the head of the queue. -/
namespace Sys2Proof.Machine

/-- Whether the reserved bits of an operand's word are 0 (R674); a SCALAR operand is a value. -/
def Opnd.rsvOk (o : Opnd) : Bool :=
  if o.kind = 1 then !(StreamWord.of o.word).rsv
  else if o.kind = 2 ∨ o.kind = 4 ∨ o.kind = 5 then !(TregWord.of o.word).rsv else true

/-- VX_FMT of a stream (R178). -/
def Opnd.fmtBad (o : Opnd) (s : State) (p : Nat) : Bool := o.kind == 1 && (s.fmtOf p (StreamWord.of o.word).fmt).isNone

/-- VX_ALIGN of a stream (R142). -/
def Opnd.alignBad (o : Opnd) (s : State) (p : Nat) : Bool :=
  let x := StreamWord.of o.word
  match o.fmt s p with
  | some f => x.base % (max 1 (f.nib / 2)) != 0 || (x.gstride != 0 && x.base % 16 != 0)
  | none => false

/-- VX_RANGE of an operand of `n` elements (R178): sheet-store bytes, tile-register elements, rows of COLB. -/
def Opnd.rangeBad (o : Opnd) (s : State) (p n : Nat) : Bool :=
  let x := TregWord.of o.word
  (o.sheetSpans s p n).any (fun g => decide (g.hi > sheetSize)) ||
  (o.kind == 2 && decide (x.elem 0 + n > 16384)) ||
  (o.kind == 4 && decide (x.row + (n - 1) / 64 > 31))

/-- VX_BLOCK of a destination (R151). -/
def Opnd.blockBad (o : Opnd) (s : State) (p n : Nat) : Bool :=
  match o.fmt s p with
  | some f => (f.bs && n % 32 != 0) || (f.nib == 1 && n % 2 != 0)
  | none => false

/-- VX_OVERLAP of a destination against a source (R152): allowed when both describe exactly the same elements. -/
def overlapBad (s : State) (p n : Nat) (d o : Opnd) : Bool :=
  !(d.kind == o.kind && d.word == o.word) &&
  (spansMeet (d.sheetSpans s p n) (o.sheetSpans s p n) || spansMeet (d.tregSpans n) (o.tregSpans n))

/-- The operand checks shared by VOP and VEP after kinds and functions (R178, R675). -/
def opndChecks (s : State) (p n : Nat) (ins outs : List Opnd) : List (Bool × Nat) :=
  [((ins ++ outs).any (fun o => o.fmtBad s p), 16), ((ins ++ outs).any (fun o => o.alignBad s p), 18),
   ((ins ++ outs).any (fun o => o.rangeBad s p n), 19), (outs.any (fun o => o.blockBad s p n), 20),
   (outs.any (fun d => ins.any (fun o => overlapBad s p n d o)), 21)]

/-- A vector instruction is issued: registers ready, IX_ILLEGAL, the checks, then the queue. -/
def State.vecChecked (s : State) (i : Issue) (regs : List Nat) (illegal : Bool) (checks : List (Bool × Nat)) (words : List Nat) (site : Bool)
    (busy : Option Nat) : State :=
  s.vecOr i regs (if illegal then s.except i IX_ILLEGAL
  else match firstExc checks with
  | some c => s.except i c
  | none => s.vecIssue i words site busy)

/-- A vector instruction as issue sees it: the registers it reads, whether IX_ILLEGAL holds, its exception checks in order, the operand words it
takes along and whether it takes a rounding site (R145, R178, R674, R675). -/
structure VecForm where
  regs : List Nat
  illegal : Bool
  checks : List (Bool × Nat)
  words : List Nat
  site : Bool
  deriving DecidableEq, Repr

/-- Issue of a vector instruction of that form. -/
def State.vecForm (s : State) (i : Issue) (q : VecForm) : State := s.vecChecked i q.regs q.illegal q.checks q.words q.site none

/-- The operands of the shared layout (R148) with the words taken at issue: D, A, B, C. -/
def Issue.opnds (i : Issue) (f : VecFields) : List Opnd :=
  [⟨f.kd, i.reg f.sd⟩, ⟨f.ka, i.reg f.sa⟩, ⟨f.kb, i.reg f.sb⟩, ⟨f.kc, i.reg f.sc⟩]

/-- The registers of the operands in use. -/
def VecFields.regs (f : VecFields) : List Nat :=
  (if f.kd = 0 then [] else [f.sd]) ++ (if f.ka = 0 then [] else [f.sa]) ++ (if f.kb = 0 then [] else [f.sb]) ++ (if f.kc = 0 then [] else [f.sc])

/-- What VOP reads and is checked for at issue (R145, R178, R674, R675). -/
def State.vopForm (s : State) (i : Issue) : VecForm :=
  let f := VecFields.of i.insn
  let n := f.count + 1
  let os := i.opnds f
  let d := os.getD 0 ⟨0, 0⟩
  let src := os.drop 1
  let ar := vopArity f.fn
  let used := src.take ar
  let unused := src.drop ar
  ⟨f.regs, (f.rm == 3 || os.any (fun o => !o.rsvOk)),
    ([(decide (f.fn > 0x1C) || f.opt != 0, 23),
        (!(d.kind == 1 || d.kind == 2) || used.any (fun o => o.kind == 0 || decide (o.kind > 5)) || unused.any (fun o => o.kind != 0), 17)] ++
       opndChecks s i.c.prov n used [d]),
    (os.map Opnd.word), (f.rm == 2)⟩

/-- VOP (R148–R152). -/
def execVop (tile seat : Nat) (s : State) : Res := onIssue tile seat 0x28 s (fun i => s.vecForm i (s.vopForm i))

/-- The reserved fields of VRED, VSMX and VSMG (R148, R155, R674). -/
def VecFields.regionRsv (f : VecFields) : Bool := f.rm != 0 || f.sat || bits f.count 11 2 != 0

/-- A TREG word whose region of `nr` rows from its ROW passes row 31. -/
def rowsBad (w nr : Nat) : Bool := decide ((TregWord.of w).row + nr > 32)

/-- What VRED reads and is checked for at issue (R155–R159, R178, R674, R675). -/
def Issue.vredForm (i : Issue) : VecForm :=
  let f := VecFields.of i.insn
  let os := i.opnds f
  let w := fun k => (os.getD k ⟨0, 0⟩).word
  let axis := f.opt % 4
  let acc := bitAt f.opt 2
  let index := f.fn == 2 || f.fn == 3 || f.fn == 4
  let nr := f.nr
  let nc := f.nc
  let dst := fun (k w : Nat) => k == 2 &&
    ((axis == 0 && rowsBad w nr) || (axis == 1 && decide ((TregWord.of w).col + nc > 64)))
  ⟨(if f.kd = 2 ∨ (f.kd = 3 ∧ acc) then [f.sd] else []) ++ (if f.ka = 0 then [] else [f.sa]) ++
      (if f.kb = 2 ∨ (f.kb = 3 ∧ acc) then [f.sb] else []) ++ (if f.kc = 0 then [] else [f.sc]),
    f.regionRsv || (os.take 3).any (fun o => o.kind == 2 && !o.rsvOk),
    [(decide (f.fn > 5) || axis == 3 || bitAt f.opt 3, 23),
      (f.ka != 2 || !(f.kd == 2 || (f.kd == 3 && axis == 2)) ||
        !(f.kb == 0 || (index && (f.kb == 2 || (f.kb == 3 && axis == 2)))) || f.kc != 0, 17),
      (rowsBad (w 1) nr || dst f.kd (w 0) || dst f.kb (w 2), 19),
      (spansMeet (vredSpans f.kd (w 0) axis nr nc) (vredSpans f.kb (w 2) axis nr nc) || (f.kd == 3 && f.kb == 3 && f.sd == f.sb), 21)],
    os.map Opnd.word, false⟩

/-- The scalar destinations of a VRED that has joined the queue wait for it (R155, R185). -/
def Seat.awaitScalars (x : Seat) (f : VecFields) (q : Nat) : Seat :=
  let x := if f.kd = 3 then x.await f.sd q else x
  if f.kb = 3 then x.await f.sb q else x

/-- VRED (R155–R159). -/
def execVred (tile seat : Nat) (s : State) : Res :=
  onIssue tile seat 0x29 s (fun i =>
    let s' := s.vecForm i i.vredForm
    if (s'.tile tile).seq = (s.tile tile).seq then s'
    else s'.setTile tile ((s'.tile tile).setSeat seat (((s'.tile tile).seat seat).awaitScalars (VecFields.of i.insn) (s.tile tile).seq)))

/-- What VSMX reads and is checked for at issue (R145, R178, R674, R675). (DESIGN CHOICE: log 160) -/
def Issue.vsmxForm (i : Issue) : VecForm :=
  let f := VecFields.of i.insn
  let os := i.opnds f
  let w := fun k => (os.getD k ⟨0, 0⟩).word
  let c := (TregWord.of (w 3)).col
  ⟨f.regs, (f.regionRsv || os.any (fun o => o.kind == 2 && !o.rsvOk)),
    [(decide (f.fn > 1) || decide (f.opt > 1), 23),
       (f.ka != 2 || f.kd != 2 || f.kb != 0 || !(f.kc == 2 || (f.kc == 0 && f.fn == 0)), 17),
       (rowsBad (w 1) f.nr || rowsBad (w 0) f.nr || (f.kc == 2 && (rowsBad (w 3) f.nr || c % 2 == 1 || decide (c + 1 > 63))), 19)],
    (os.map Opnd.word), false⟩

/-- VSMX (R160, R161, R163). -/
def execVsmx (tile seat : Nat) (s : State) : Res := onIssue tile seat 0x2A s (fun i => s.vecForm i i.vsmxForm)

/-- What VSMG reads and is checked for at issue (R145, R178, R674, R675). (DESIGN CHOICE: log 160) -/
def Issue.vsmgForm (i : Issue) : VecForm :=
  let f := VecFields.of i.insn
  let os := i.opnds f
  let w := fun k => (os.getD k ⟨0, 0⟩).word
  let c := (TregWord.of (w 3)).col
  let d := regionSpans (w 0) 0 f.nr f.nc
  let b := if f.kb = 2 then regionSpans (w 2) 0 f.nr f.nc else []
  let stat := regionSpans (w 3) c f.nr 4
  ⟨f.regs, (f.regionRsv || os.any (fun o => o.kind == 2 && !o.rsvOk)),
    [(decide (f.fn > 1) || decide (f.opt > 1), 23),
       (f.ka != 2 || f.kd != 2 || !(f.kb == 0 || f.kb == 2) || f.kc != 2, 17),
       (rowsBad (w 1) f.nr || rowsBad (w 0) f.nr || (f.kb == 2 && rowsBad (w 2) f.nr) || rowsBad (w 3) f.nr || c % 2 == 1 ||
         decide (c + 3 > 63), 19),
       ((w 0 != w 2 && spansMeet d b) || spansMeet d stat || spansMeet (regionSpans (w 3) c f.nr 2) b, 21)],
    (os.map Opnd.word), false⟩

/-- VSMG (R160, R162, R163). -/
def execVsmg (tile seat : Nat) (s : State) : Res := onIssue tile seat 0x2B s (fun i => s.vecForm i i.vsmgForm)

/-- The program of a VEP as a number: its header and micro-operations (R165), read at issue (R145). -/
def Tile.vepProg (t : Tile) (a : Nat) : Nat :=
  let h := ofLE (t.bytes a 32)
  h + ofLE (t.bytes (a + 32) (4 * (VepHead.of h).nops)) * 2 ^ 256

/-- Whether VEP's program lies outside the sheet store (R165). -/
def Issue.vepFar (i : Issue) : Bool := decide (i.reg (fieldOf i.insn 53 5) + 32 > sheetSize)

/-- The program that VEP fetches, and the words it takes along: the program's address, seven operand words, the program (R145, R165). -/
def State.vepFetch (s : State) (i : Issue) : Nat := if i.vepFar then 0 else (s.tile i.tile).vepProg (i.reg (fieldOf i.insn 53 5))
def State.vepWords (s : State) (i : Issue) : List Nat :=
  i.reg (fieldOf i.insn 53 5) :: ((List.range 7).map (fun k => i.reg (fieldOf i.insn 48 5 + k)) ++ [s.vepFetch i])

/-- VEP may fetch its program: its reserved fields are 0, its operand registers exist and the program lies in the sheet store. -/
def Issue.vepFetches (i : Issue) : Bool :=
  decide (fieldOf i.insn 48 5 ≤ 25) && !i.vepFar

/-- VEP waits for writes to its program that are under way (R145, R165). -/
def State.vepWaits (s : State) (i : Issue) : Bool :=
  let a := i.reg (fieldOf i.insn 53 5)
  fieldOf i.insn 0 32 == 0 && fieldOf i.insn 33 2 != 3 && i.vepFetches &&
    s.overtakes i.tile i.c.prov (s.tile i.tile).seq { sr := [⟨a, min sheetSize (a + 160)⟩] }

/-- VEP's program has a word that cannot be corrected (R53). -/
def State.vepUnreadable (s : State) (i : Issue) : Bool :=
  i.vepFetches && (s.tile i.tile).readBad (i.reg (fieldOf i.insn 53 5)) (32 + 4 * (VepHead.of (s.vepFetch i)).nops)

/-- What VEP reads and is checked for at issue (R165–R169, R178, R674, R675). (DESIGN CHOICE: log 175) -/
def State.vepForm (s : State) (i : Issue) : VecForm :=
  let ob := fieldOf i.insn 48 5
  let ps := fieldOf i.insn 53 5
  let n := fieldOf i.insn 35 13 + 1
  let a := i.reg ps
  let p := i.c.prov
  let prog := s.vepFetch i
  let h := VepHead.of prog
  let ws := s.vepWords i
  let ins := vepIns ws
  let outs := vepOuts ws
  let ops := (List.range h.nops).map (fun j => vepOp prog j)
  let wr := uopsOk h.nin ops []
  ⟨ps :: (if ob ≤ 25 then (List.range 7).map (fun k => ob + k) else []),
    fieldOf i.insn 0 32 != 0 || fieldOf i.insn 33 2 == 3 ||
      (decide (ob ≤ 25) && wordAt ws 7 / 2 ^ 35 != 0) || (i.vepFetches && (ins ++ outs).any (fun o => !o.rsvOk)),
    [(decide (ob > 25), 22), (a % 16 != 0 && i.vepFar, 18), (i.vepFar, 19),
      (decide (h.nin > 4) || h.nout == 0 || decide (h.nout > 2) ||
        ins.any (fun o => o.kind == 0 || decide (o.kind > 5)) || outs.any (fun o => !(o.kind == 1 || o.kind == 2)) ||
        (match wr with
         | none => true
         | some l => (List.range h.nout).any (fun k => !l.contains (h.outs.getD k 0))), 22),
      ((ins ++ outs).any (fun o => o.fmtBad s p), 16),
      (a % 16 != 0 || (ins ++ outs).any (fun o => o.alignBad s p), 18),
      (decide (a + 32 + 4 * h.nops > sheetSize), 19)] ++ opndChecks s p n ins outs,
    ws, fieldOf i.insn 33 2 == 2⟩

/-- VEP (R164–R169). -/
def execVep (tile seat : Nat) (s : State) : Res :=
  onIssue tile seat 0x2C s (fun i =>
    if i.blocked (s.vepForm i).regs ∨ 8 ≤ (s.tile tile).vq.length then s.stall i
    else if s.vepWaits i then s.stall i
    else if s.vepUnreadable i then s.tileFault tile (i.reg (fieldOf i.insn 53 5))
    else s.vecForm i (s.vepForm i))

/-- The checks of VQL and VQS (R171, R172, R178). (DESIGN CHOICE: log 166) -/
def quadMoveChecks (s : State) (p insn w slot : Nat) : List (Bool × Nat) :=
  let qn := bits insn 39 3 + 1
  let o := OpWord.of w
  let f := s.fmtOf p (bits insn 53 5)
  let nib := (f.map Fmt.nib).getD 4
  [(f.isNone || ((f.map Fmt.bs).getD false), 16), (o.base % 16 != 0 || o.qstep % 16 != 0, 18),
   ((quadSpans o nib qn).any (fun g => decide (g.hi > sheetSize)) || decide ((qSlot slot (qn - 1)).1 > 7), 19)]

/-- What VQL reads and is checked for at issue (R145, R178, R674, R675). -/
def State.vqlForm (s : State) (i : Issue) : VecForm :=
  let w := i.reg (fieldOf i.insn 47 5)
  let slot := i.reg (fieldOf i.insn 42 5)
  ⟨[fieldOf i.insn 47 5, fieldOf i.insn 42 5], (fieldOf i.insn 0 39 != 0 || (OpWord.of w).rsv != 0 || slotRsv slot != 0),
    (quadMoveChecks s i.c.prov i.insn w slot),
    [w, slot], false⟩

/-- VQL (R171, R172). -/
def execVql (tile seat : Nat) (s : State) : Res := onIssue tile seat 0x2D s (fun i => s.vecForm i (s.vqlForm i))

/-- What VQS reads and is checked for at issue (R145, R178, R674, R675). -/
def State.vqsForm (s : State) (i : Issue) : VecForm :=
  let w := i.reg (fieldOf i.insn 47 5)
  let slot := i.reg (fieldOf i.insn 42 5)
  ⟨[fieldOf i.insn 47 5, fieldOf i.insn 42 5], (fieldOf i.insn 0 36 != 0 || fieldOf i.insn 37 2 == 3 || (OpWord.of w).rsv != 0 || slotRsv slot != 0),
    (quadMoveChecks s i.c.prov i.insn w slot),
    [w, slot], (fieldOf i.insn 37 2 == 2)⟩

/-- VQS (R171, R172). -/
def execVqs (tile seat : Nat) (s : State) : Res := onIssue tile seat 0x2E s (fun i => s.vecForm i (s.vqsForm i))

/-- The Compass value of domain 3 (R120) for index `i` of an instruction's site. -/
def State.vecDraw (s : State) (c : TrickCtx) (site : Nat) : Nat → Nat := fun i => compass16 (s.trickKey c 3) c.trick site 0 i

/-- What a VOP writes. -/
def State.runVop (s : State) (tile : Nat) (c : TrickCtx) (v : VecCmd) : VecOut :=
  let f := VecFields.of v.insn
  let t := s.tile tile
  let w := wordAt v.words
  let n := f.count + 1
  let o := fun (k : Nat) (wd : Nat) => (⟨k, wd⟩ : Opnd)
  let a := o f.ka (w 1)
  let b := o f.kb (w 2)
  let cc := o f.kc (w 3)
  let d := o f.kd (w 0)
  let fa := a.fmt s c.prov
  let fb := b.fmt s c.prov
  let fc := cc.fmt s c.prov
  let rs := (List.range n).map (fun i =>
    let x := t.opElem fa a i
    let y := t.opElem fb b i
    let z := t.opElem fc cc i
    let r := vopFn f.fn x.1 y.1 z.1
    (r.1, ((r.2.or x.2).or y.2).or z.2))
  let vs := rs.zipIdx.map (fun r => (r.1.1, vecRnd f.rm (s.vecDraw c v.site) r.2))
  let out := t.opOut (d.fmt s c.prov) d f.sat vs
  { out with ev := rs.foldl (fun e r => e.or r.2) out.ev }

/-- The entries of region row `i` of `nc` columns. -/
def Tile.regRow (t : Tile) (w i nc : Nat) : List W32 :=
  let x := TregWord.of w
  (List.range nc).map (fun j => t.tr (tregIdx x.reg (x.row + i) j))

/-- What a VRED writes: entries, and scalar results (register, value) of ALL; an index register keeps its contents when the old value stays the winner (R159). -/
def State.runVred (s : State) (tile : Nat) (v : VecCmd) : VecOut × List (Nat × W64) :=
  let f := VecFields.of v.insn
  let t := s.tile tile
  let w := wordAt v.words
  let axis := f.opt % 4
  let acc := bitAt f.opt 2
  let dx := TregWord.of (w 0)
  let bx := TregWord.of (w 2)
  let rows := (List.range f.nr).map (fun i => t.regRow (w 1) i f.nc)
  let pos := fun (x : TregWord) (k : Nat) =>
    if axis = 0 then tregIdx x.reg (x.row + k) x.col else if axis = 1 then tregIdx x.reg x.row (x.col + k) else tregIdx x.reg x.row x.col
  let groups : List (List (List W32) × List (Nat × W32)) :=
    if axis = 0 then rows.map (fun r => ([r], r.zipIdx.map (fun e => (e.2, e.1))))
    else if axis = 1 then (List.range f.nc).map (fun j =>
      let col := rows.map (fun r => r.getD j 0)
      ([col], col.zipIdx.map (fun e => (e.2, e.1))))
    else [(rows, rows.zipIdx.flatMap (fun r => r.1.zipIdx.map (fun e => (64 * r.2 + e.2, e.1))))]
  let res := groups.zipIdx.map (fun g =>
    let old := if acc then some (if f.kd = 3 then BitVec.ofNat 32 (w 0) else t.tr (pos dx g.2)) else none
    (g.2, redOne f.fn old g.1.1 g.1.2))
  let ev := res.foldl (fun e r => e.or r.2.2.2) {}
  let dv := if f.kd = 2 then res.map (fun r => (pos dx r.1, r.2.1)) else []
  let bv := if f.kb = 2 then res.filterMap (fun r => r.2.2.1.map (fun ix => (pos bx r.1, nat32 ix))) else []
  let sd := if f.kd = 3 then res.map (fun r => (f.sd, r.2.1.setWidth 64)) else []
  let sb := if f.kb = 3 then res.map (fun r => (f.sb, match r.2.2.1 with | some ix => BitVec.ofNat 64 ix | none => (t.seat v.seat).reg f.sb)) else []
  (⟨[], dv ++ bv, if f.fn = 5 then {} else ev⟩, sd ++ sb)

/-- What a VSMX or VSMG writes, the VACANT rows when it rewrites `VEC_VACANT`, and whether INFROW is set (R161–R163). (DESIGN CHOICE: log 161) -/
def State.runSm (s : State) (tile : Nat) (v : VecCmd) : VecOut × Option Nat × Bool :=
  let f := VecFields.of v.insn
  let t := s.tile tile
  let w := wordAt v.words
  let dx := TregWord.of (w 0)
  let cx := TregWord.of (w 3)
  let strict := bitAt f.opt 0
  let smg := opcOf v.insn == 0x2B
  let stat := fun i k => t.tr (tregIdx cx.reg (cx.row + i) (cx.col + k))
  let rows := (List.range f.nr).map (fun i =>
    let x := t.regRow (w 1) i f.nc
    (i, if smg then
          (if f.kb = 2 then mergeRow (stat i 0) (stat i 1) x (stat i 2) (stat i 3) (t.regRow (w 2) i f.nc) (f.fn == 1) strict
           else mergeRow (stat i 0) (stat i 1) x ninf32 0 (x.map (fun _ => 0)) (f.fn == 1) strict)
        else softmaxRow x (f.fn == 1) strict))
  let dv := rows.flatMap (fun r => r.2.out.zipIdx.map (fun e => (tregIdx dx.reg (dx.row + r.1) e.2, e.1)))
  let cv := if f.kc = 2 then rows.flatMap (fun r =>
      [(tregIdx cx.reg (cx.row + r.1) cx.col, r.2.m), (tregIdx cx.reg (cx.row + r.1) (cx.col + 1), r.2.s)]) else []
  let full := if smg then f.fn == 1 else f.fn == 0
  let vac := rows.foldl (fun m r => if r.2.vacant then m + 2 ^ r.1 else m) 0
  (⟨[], dv ++ cv, rows.foldl (fun e r => e.or r.2.ev) {}⟩, if full then some vac else none, rows.any (fun r => r.2.infRow))

/-- The DRAW value of element `i` at micro-operation `j` of `n` (R125, R168, R346): domain 8 in REGEN mode, a free value of its own in FREE mode. -/
def State.vepDraw (s : State) (c : TrickCtx) (dsite idxbase n i j : Nat) : W32 :=
  if s.fld c.prov PROV_RNG_MODE_MODE = 1 then nat32 (compass16 (s.trickKey c 8) dsite c.mbatch 0 (idxbase + i))
  else nat32 ((Config.freeWord (s.free + n * i + j)).toNat % 65536)

/-- What a VEP writes, and how many free draws it took (R167, R168). (DESIGN CHOICE: log 164) -/
def State.runVep (s : State) (tile : Nat) (c : TrickCtx) (v : VecCmd) : VecOut × Nat :=
  let t := s.tile tile
  let w := wordAt v.words
  let n := bits v.insn 35 13 + 1
  let rm := bits v.insn 33 2
  let prog := w 8
  let h := VepHead.of prog
  let ops := (List.range h.nops).map (fun j => vepOp prog j)
  let ins := vepIns v.words
  let fs := ins.map (fun o => o.fmt s c.prov)
  let consts := h.consts.map (fun x => BitVec.ofNat 32 x)
  let rs := (List.range n).map (fun i =>
    let xs := (ins.zip fs).map (fun o => t.opElem o.2 o.1 i)
    let r := runUops ops (xs.map Prod.fst) consts i (s.vepDraw c h.dsite (w 7) h.nops i)
    (r.1, xs.foldl (fun e x => e.or x.2) r.2))
  let outs := vepOuts v.words
  let out := outs.zipIdx.foldl (fun (acc : VecOut) o =>
    let vs := rs.zipIdx.map (fun r => (r.1.1.getD (h.outs.getD o.2 0) 0, vecRnd rm (s.vecDraw c v.site) (r.2 + 8192 * o.2)))
    acc.join (t.opOut (o.1.fmt s c.prov) o.1 (bitAt v.insn 32) vs)) {}
  let usesDraw := ops.any (fun x => bits x 0 6 == 0x20)
  ({ out with ev := rs.foldl (fun e r => e.or r.2) out.ev }, if usesDraw && s.fld c.prov PROV_RNG_MODE_MODE != 1 then h.nops * n else 0)

/-- What a VQL or VQS writes (R172). (DESIGN CHOICE: log 173) -/
def State.runQuads (s : State) (tile : Nat) (c : TrickCtx) (v : VecCmd) : VecOut :=
  let t := s.tile tile
  let w := wordAt v.words
  let o := OpWord.of (w 0)
  let tq := bitAt v.insn 52
  let qn := bits v.insn 39 3 + 1
  match s.fmtOf c.prov (bits v.insn 53 5) with
  | none => {}
  | some f =>
    let cells := (List.range qn).flatMap (fun j => (List.range 256).map (fun e =>
      let row := e / 16
      let col := e % 16
      let q := qSlot (w 1) j
      (256 * j + e, slotIdx q.1 q.2 row col, o.pos f.nib j (if tq then col else row) (if tq then row else col))))
    if opcOf v.insn = 0x2D then { treg := cells.map (fun x => (x.2.1, widen32 (f.decode (t.elem f.nib x.2.2)))) }
    else
      let rs := cells.map (fun x => (x.2.2, f.narrow (vecRnd (bits v.insn 37 2) (s.vecDraw c v.site) x.1) (bitAt v.insn 36) (f32 (t.tr x.2.1))))
      { sheet := t.elemWrites f.nib (rs.map (fun r => (r.1, r.2.1))), ev := rs.foldl (fun e r => e.or r.2.2) {} }

/-- How many Compass values an instruction consumes (R122, R151). -/
def vecDraws (v : VecCmd) : Nat :=
  match opcOf v.insn with
  | 0x28 => if bits v.insn 5 2 = 2 ∧ (VecFields.of v.insn).kd = 1 then bits v.insn 39 13 + 1 else 0
  | 0x2C => if bits v.insn 33 2 = 2 then (bits v.insn 35 13 + 1) * ((vepOuts v.words).filter (fun o => o.kind == 1)).length else 0
  | 0x2E => if bits v.insn 37 2 = 2 then 256 * (bits v.insn 39 3 + 1) else 0
  | _ => 0

/-- The writes of a vector instruction are made: flags, tile registers, sheet store (R72, R177). -/
def State.vecApply (s : State) (tile : Nat) (o : VecOut) : State :=
  ((s.vecFlags tile (vecMask o.ev)).setTile tile ((s.tile tile).putTregs o.treg)).sheetWrite tile o.sheet

/-- A vector instruction runs. -/
def State.runVec (s : State) (tile : Nat) (c : TrickCtx) (v : VecCmd) : State :=
  let s := if vecDraws v = 0 then s
    else s.count { unit := srvTile tile, event := 0x0C, n := vecDraws v, prov := c.prov, master := some 1 }
  match opcOf v.insn with
  | 0x28 => s.vecApply tile (s.runVop tile c v)
  | 0x29 =>
    let r := s.runVred tile v
    let s := s.vecApply tile r.1
    s.setTile tile (r.2.foldl (fun t x => t.setSeat v.seat ((t.seat v.seat).arrive x.1 v.seq x.2)) (s.tile tile))
  | 0x2A | 0x2B =>
    let r := s.runSm tile v
    let s := (s.vecApply tile r.1).vecFlags tile (flagIf r.2.2 VF_INFROW)
    match r.2.1 with
    | some vac => (s.setFld tile VEC_VACANT_ROWS vac).vecFlags tile (flagIf (vac != 0) VF_VACANT)
    | none => s
  | 0x2C =>
    let r := s.runVep tile c v
    let s := s.vecApply tile r.1
    { s with free := s.free + r.2 }
  | _ => s.vecApply tile (s.runQuads tile c v)

/-- VECTOR_INSTRUCTION_DONE (R174, R175): the vector instruction at the head of the queue makes its writes and VECDONE counts it. -/
def execVectorInstructionDone (tile : Nat) (s : State) : Res :=
  onTile tile (
    let t := s.tile tile
    match t.trick, t.vq with
    | some c, v :: rest =>
      let x := v.spans s c.prov
      if opcOf v.insn < 0x28 ∨ s.overtakes tile c.prov v.seq x then s
      else if x.sr.any (fun r => t.readBad r.lo (r.hi - r.lo)) then s.tileFault tile
      else
        let s := (s.setTile tile { t with vq := rest }).runVec tile c v
        if (s.tile tile).trick = none then s
        else (s.setTile tile ((s.tile tile).countVec v.seat)).drainStores tile 8
    | _, _ => s)

end Sys2Proof.Machine
end

