-- ==== Sys2Proof/Machine/Dispatch.lean ====
section
/-! DEFINITION. One arm per command, each a direct call of its meaning. -/
namespace Sys2Proof.Machine

/-- The effect of a command on everything but the queue of waiting commands. -/
def exec (i : Instr) (s : State) : Host.Outcome State Fault Refusal :=
  match i with
  | .frameBoundary held left => Sys2Proof.Machine.execFrameBoundary held left s
  | .merTickPeriodArm => Sys2Proof.Machine.execMerTickPeriodArm s
  | .ptpSyncReceived e t => Sys2Proof.Machine.execPtpSyncReceived e t s
  | .syncLossTimeout => Sys2Proof.Machine.execSyncLossTimeout s
  | .holdoverLimit => Sys2Proof.Machine.execHoldoverLimit s
  | .ppsInEdge falling dt e => Sys2Proof.Machine.execPpsInEdge falling dt e s
  | .ppsOutPulse rise => Sys2Proof.Machine.execPpsOutPulse rise s
  | .globalRequestArrive prov child op => Sys2Proof.Machine.execGlobalRequestArrive prov child op s
  | .announcementReceived prov op frame => Sys2Proof.Machine.execAnnouncementReceived prov op frame s
  | .snapshotCutReport prov child late => Sys2Proof.Machine.execSnapshotCutReport prov child late s
  | .merGlobLateRead who => Sys2Proof.Machine.execMerGlobLateRead who s
  | .halfReadLatch fn off => Sys2Proof.Machine.execHalfReadLatch fn off s
  | .registerWrite who addr n value => Sys2Proof.Machine.execRegisterWrite who addr n value s
  | .mxm tile seat => Sys2Proof.Machine.execMxm tile seat s
  | .mxd tile seat => Sys2Proof.Machine.execMxd tile seat s
  | .mxl tile seat => Sys2Proof.Machine.execMxl tile seat s
  | .mxz tile seat => Sys2Proof.Machine.execMxz tile seat s
  | .arrayCommandStart tile => Sys2Proof.Machine.execArrayCommandStart tile s
  | .mxmComplete tile => Sys2Proof.Machine.execMxmComplete tile s
  | .drainFenceEnd tile => Sys2Proof.Machine.execDrainFenceEnd tile s
  | .mxdComplete tile => Sys2Proof.Machine.execMxdComplete tile s
  | .bankReady tile => Sys2Proof.Machine.execBankReady tile s
  | .sheetStoreEccError tile site corrected bit => Sys2Proof.Machine.execSheetStoreEccError tile site corrected bit s
  | .vop tile seat => Sys2Proof.Machine.execVop tile seat s
  | .vred tile seat => Sys2Proof.Machine.execVred tile seat s
  | .vsmx tile seat => Sys2Proof.Machine.execVsmx tile seat s
  | .vsmg tile seat => Sys2Proof.Machine.execVsmg tile seat s
  | .vep tile seat => Sys2Proof.Machine.execVep tile seat s
  | .vql tile seat => Sys2Proof.Machine.execVql tile seat s
  | .vqs tile seat => Sys2Proof.Machine.execVqs tile seat s
  | .vectorInstructionDone tile => Sys2Proof.Machine.execVectorInstructionDone tile s
  | .opr tile seat => Sys2Proof.Machine.execOpr tile seat s
  | .opi tile seat => Sys2Proof.Machine.execOpi tile seat s
  | .lih tile seat => Sys2Proof.Machine.execLih tile seat s
  | .li tile seat => Sys2Proof.Machine.execLi tile seat s
  | .fop tile seat => Sys2Proof.Machine.execFop tile seat s
  | .ld tile seat => Sys2Proof.Machine.execLd tile seat s
  | .ldComplete tile => Sys2Proof.Machine.execLdComplete tile s
  | .st tile seat => Sys2Proof.Machine.execSt tile seat s
  | .csrRead tile seat => Sys2Proof.Machine.execCsrRead tile seat s
  | .csrWrite tile seat => Sys2Proof.Machine.execCsrWrite tile seat s
  | .csrSet tile seat => Sys2Proof.Machine.execCsrSet tile seat s
  | .csrClear tile seat => Sys2Proof.Machine.execCsrClear tile seat s
  | .get tile seat => Sys2Proof.Machine.execGet tile seat s
  | .br tile seat => Sys2Proof.Machine.execBr tile seat s
  | .jal tile seat => Sys2Proof.Machine.execJal tile seat s
  | .jalr tile seat => Sys2Proof.Machine.execJalr tile seat s
  | .seatRunOff tile seat => Sys2Proof.Machine.execSeatRunOff tile seat s
  | .swait tile seat => Sys2Proof.Machine.execSwait tile seat s
  | .sbar tile seat => Sys2Proof.Machine.execSbar tile seat s
  | .deadlockDetected tile => Sys2Proof.Machine.execDeadlockDetected tile s
  | .arrive tile seat => Sys2Proof.Machine.execArrive tile seat s
  | .wait tile seat => Sys2Proof.Machine.execWait tile seat s
  | .test tile seat => Sys2Proof.Machine.execTest tile seat s
  | .pload tile seat => Sys2Proof.Machine.execPload tile seat s
  | .nop tile seat => Sys2Proof.Machine.execNop tile seat s
  | .tend tile seat => Sys2Proof.Machine.execTend tile seat s
  | .trap tile seat => Sys2Proof.Machine.execTrap tile seat s
  | .bkpt tile seat => Sys2Proof.Machine.execBkpt tile seat s
  | .debugHalt tile seats => Sys2Proof.Machine.execDebugHalt tile seats s
  | .debugStep tile => Sys2Proof.Machine.execDebugStep tile s
  | .breakpointHit tile seat => Sys2Proof.Machine.execBreakpointHit tile seat s
  | .trickComplete tile left => Sys2Proof.Machine.execTrickComplete tile left s
  | .misdealSummaryExchange prov => Sys2Proof.Machine.execMisdealSummaryExchange prov s
  | .programLoad tile left => Sys2Proof.Machine.execProgramLoad tile left s
  | .atlasFrameFetch die prov host => Sys2Proof.Machine.execAtlasFrameFetch die prov host s
  | .memoryRead burst cls found parity => Sys2Proof.Machine.execMemoryRead burst cls found parity s
  | .memoryWrite burst cls cells parityBad => Sys2Proof.Machine.execMemoryWrite burst cls cells parityBad s
  | .eccRetryRead burst found parity => Sys2Proof.Machine.execEccRetryRead burst found parity s
  | .writeParityRetry burst parityBad => Sys2Proof.Machine.execWriteParityRetry burst parityBad s
  | .pageWalk die prov va tableBad => Sys2Proof.Machine.execPageWalk die prov va tableBad s
  | .refresh chan taken => Sys2Proof.Machine.execRefresh chan taken s
  | .stackTemperatureRead stack t => Sys2Proof.Machine.execStackTemperatureRead stack t s
  | .patrolScrub chan found => Sys2Proof.Machine.execPatrolScrub chan found s
  | .channelScrubDone chan badGranules => Sys2Proof.Machine.execChannelScrubDone chan badGranules s
  | .rowRepairDone granule => Sys2Proof.Machine.execRowRepairDone granule s
  | .cxfr tile seat => Sys2Proof.Machine.execCxfr tile seat s
  | .loadComplete tile cour => Sys2Proof.Machine.execLoadComplete tile cour s
  | .storeComplete tile cour => Sys2Proof.Machine.execStoreComplete tile cour s
  | .outboxDrain tile => Sys2Proof.Machine.execOutboxDrain tile s
  | .cchn tile seat => Sys2Proof.Machine.execCchn tile seat s
  | .chainStart bulk => Sys2Proof.Machine.execChainStart bulk s
  | .chainDescriptorDone bulk host => Sys2Proof.Machine.execChainDescriptorDone bulk host s
  | .chainComplete bulk => Sys2Proof.Machine.execChainComplete bulk s
  | .tput tile seat => Sys2Proof.Machine.execTput tile seat s
  | .ttake tile seat => Sys2Proof.Machine.execTtake tile seat s
  | .ttakeComplete talon => Sys2Proof.Machine.execTtakeComplete talon s
  | .talonPutAppend talon => Sys2Proof.Machine.execTalonPutAppend talon s
  | .verdictResult prov => Sys2Proof.Machine.execVerdictResult prov s
  | .ledgerCommit prov => Sys2Proof.Machine.execLedgerCommit prov s
  | .stepCommitted prov => Sys2Proof.Machine.execStepCommitted prov s
  | .segmentReceived prov src m => Sys2Proof.Machine.execSegmentReceived prov src m s
  | .segmentAckReceived prov src m => Sys2Proof.Machine.execSegmentAckReceived prov src m s
  | .checkRecordReceived prov src m => Sys2Proof.Machine.execCheckRecordReceived prov src m s
  | .childExcluded prov ord child => Sys2Proof.Machine.execChildExcluded prov ord child s
  | .patch prov ord rank segs => Sys2Proof.Machine.execPatch prov ord rank segs s
  | .collectiveComplete prov ord => Sys2Proof.Machine.execCollectiveComplete prov ord s
  | .ethernetFrameReceived port f => Sys2Proof.Machine.execEthernetFrameReceived port f s
  | .pauseHoldExpire port pri => Sys2Proof.Machine.execPauseHoldExpire port pri s
  | .xoffRepeat port pri => Sys2Proof.Machine.execXoffRepeat port pri s
  | .xonSend port pri => Sys2Proof.Machine.execXonSend port pri s
  | .pfcStorm port pri => Sys2Proof.Machine.execPfcStorm port pri s
  | .pfcStuck port pri => Sys2Proof.Machine.execPfcStuck port pri s
  | .pfcRecoveryEnd port pri => Sys2Proof.Machine.execPfcRecoveryEnd port pri s
  | .transmitStart port slot what len present pri dstKind => Sys2Proof.Machine.execTransmitStart port slot what len present pri dstKind s
  | .txUnderrun port => Sys2Proof.Machine.execTxUnderrun port s
  | .transmitEnd port => Sys2Proof.Machine.execTransmitEnd port s
  | .lpiIdleTimeout port => Sys2Proof.Machine.execLpiIdleTimeout port s
  | .portParked port => Sys2Proof.Machine.execPortParked port s
  | .portWake port => Sys2Proof.Machine.execPortWake port s
  | .wakeEnd port => Sys2Proof.Machine.execWakeEnd port s
  | .rateLower port devid light => Sys2Proof.Machine.execRateLower port devid light s
  | .portRetrainDone port => Sys2Proof.Machine.execPortRetrainDone port s
  | .linkUp port => Sys2Proof.Machine.execLinkUp port s
  | .linkDown port => Sys2Proof.Machine.execLinkDown port s
  | .linkHoldExpire port => Sys2Proof.Machine.execLinkHoldExpire port s
  | .laneBerSample lane syms nbits cw corr uncorr => Sys2Proof.Machine.execLaneBerSample lane syms nbits cw corr uncorr s
  | .ethLaneModeWrite fdie value => Sys2Proof.Machine.execEthLaneModeWrite fdie value s
  | .ethPortRateWrite port value => Sys2Proof.Machine.execEthPortRateWrite port value s
  | .ethStatSnap port => Sys2Proof.Machine.execEthStatSnap port s
  | .moduleMonitorRead cage temp bias alarm hour => Sys2Proof.Machine.execModuleMonitorRead cage temp bias alarm hour s
  | .moduleBusPoll seen ids => Sys2Proof.Machine.execModuleBusPoll seen ids s
  | .ndeyxPacketReceived port p => Sys2Proof.Machine.execNdeyxPacketReceived port p s
  | .ackSend lprov peer stream => Sys2Proof.Machine.execAckSend lprov peer stream s
  | .retransmitTimeout lprov peer stream psn => Sys2Proof.Machine.execRetransmitTimeout lprov peer stream psn s
  | .ndeyxLinkLost lprov peer => Sys2Proof.Machine.execNdeyxLinkLost lprov peer s
  | .keepaliveSend lprov peer port => Sys2Proof.Machine.execKeepaliveSend lprov peer port s
  | .hello devid => Sys2Proof.Machine.execHello devid s
  | .handshakeRetryTimer devid => Sys2Proof.Machine.execHandshakeRetryTimer devid s
  | .masterRekeyTimer devid => Sys2Proof.Machine.execMasterRekeyTimer devid s
  | .keyRenewalDue lprov peer => Sys2Proof.Machine.execKeyRenewalDue lprov peer s
  | .oldKeyErase lprov peer => Sys2Proof.Machine.execOldKeyErase lprov peer s
  | .mkaHello port agreed => Sys2Proof.Machine.execMkaHello port agreed s
  | .mkaLifeExpire port => Sys2Proof.Machine.execMkaLifeExpire port s
  | .sakRenewal port => Sys2Proof.Machine.execSakRenewal port s
  | .pcieLinkTrained rate width => Sys2Proof.Machine.execPcieLinkTrained rate width s
  | .perstNAssert => Sys2Proof.Machine.execPerstNAssert s
  | .perstNRelease => Sys2Proof.Machine.execPerstNRelease s
  | .dlDown => Sys2Proof.Machine.execDlDown s
  | .hotReset => Sys2Proof.Machine.execHotReset s
  | .flr fn => Sys2Proof.Machine.execFlr fn s
  | .resume fn => Sys2Proof.Machine.execResume fn s
  | .discard fn => Sys2Proof.Machine.execDiscard fn s
  | .hostLostTimer fn => Sys2Proof.Machine.execHostLostTimer fn s
  | .insetRead fn off n => Sys2Proof.Machine.execInsetRead fn off n s
  | .insetWrite fn off bytes => Sys2Proof.Machine.execInsetWrite fn off bytes s
  | .hifInsetBaseWrite fn value => Sys2Proof.Machine.execHifInsetBaseWrite fn value s
  | .hifSrvPageWrite fn value => Sys2Proof.Machine.execHifSrvPageWrite fn value s
  | .hostRequestFailed fn what => Sys2Proof.Machine.execHostRequestFailed fn what s
  | .handOpen fn hand => Sys2Proof.Machine.execHandOpen fn hand s
  | .handClose fn hand => Sys2Proof.Machine.execHandClose fn hand s
  | .doorbell fn hand value => Sys2Proof.Machine.execDoorbell fn hand value s
  | .descriptorFetchReturn fn hand entries => Sys2Proof.Machine.execDescriptorFetchReturn fn hand entries s
  | .descriptorRefetch fn hand => Sys2Proof.Machine.execDescriptorRefetch fn hand s
  | .loadAtlas fn hand seq host authOk => Sys2Proof.Machine.execLoadAtlas fn hand seq host authOk s
  | .start fn hand seq => Sys2Proof.Machine.execStart fn hand seq s
  | .write fn hand seq host stop => Sys2Proof.Machine.execWrite fn hand seq host stop s
  | .read fn hand seq => Sys2Proof.Machine.execRead fn hand seq s
  | .waitStep fn hand seq => Sys2Proof.Machine.execWaitStep fn hand seq s
  | .manifest fn hand seq host authOk => Sys2Proof.Machine.execManifest fn hand seq host authOk s
  | .hostWriteConfirm fn => Sys2Proof.Machine.execHostWriteConfirm fn s
  | .getVersion => Sys2Proof.Machine.execGetVersion s
  | .getCapabilities => Sys2Proof.Machine.execGetCapabilities s
  | .negotiateAlgorithms common => Sys2Proof.Machine.execNegotiateAlgorithms common s
  | .getDigests => Sys2Proof.Machine.execGetDigests s
  | .getCertificate slot off n => Sys2Proof.Machine.execGetCertificate slot off n s
  | .challenge slot => Sys2Proof.Machine.execChallenge slot s
  | .getMeasurements index signed => Sys2Proof.Machine.execGetMeasurements index signed s
  | .keyExchange slot => Sys2Proof.Machine.execKeyExchange slot s
  | .spdmFinish sid macOk => Sys2Proof.Machine.execSpdmFinish sid macOk s
  | .heartbeat sid => Sys2Proof.Machine.execHeartbeat sid s
  | .spdmKeyUpdate sid => Sys2Proof.Machine.execSpdmKeyUpdate sid s
  | .endSession sid => Sys2Proof.Machine.execEndSession sid s
  | .bindFn sid fn => Sys2Proof.Machine.execBindFn sid fn s
  | .selectFn fn => Sys2Proof.Machine.execSelectFn fn s
  | .ideKm sid stream fn stop => Sys2Proof.Machine.execIdeKm sid stream fn stop s
  | .lockInterface sid fn => Sys2Proof.Machine.execLockInterface sid fn s
  | .startInterface sid fn => Sys2Proof.Machine.execStartInterface sid fn s
  | .stopInterface sid fn => Sys2Proof.Machine.execStopInterface sid fn s
  | .tdispInterfaceError fn => Sys2Proof.Machine.execTdispInterfaceError fn s
  | .tspHello conn lo hi => Sys2Proof.Machine.execTspHello conn lo hi s
  | .getIdentity conn => Sys2Proof.Machine.execGetIdentity conn s
  | .getCartouche conn nonce => Sys2Proof.Machine.execGetCartouche conn nonce s
  | .getStatus conn => Sys2Proof.Machine.execGetStatus conn s
  | .readReg conn addr n => Sys2Proof.Machine.execReadReg conn addr n s
  | .subscribe conn classes => Sys2Proof.Machine.execSubscribe conn classes s
  | .tspEventSend conn => Sys2Proof.Machine.execTspEventSend conn s
  | .logRead conn what => Sys2Proof.Machine.execLogRead conn what s
  | .imprintRead conn lo n => Sys2Proof.Machine.execImprintRead conn lo n s
  | .provCreate conn id template => Sys2Proof.Machine.execProvCreate conn id template s
  | .provSet conn prov what => Sys2Proof.Machine.execProvSet conn prov what s
  | .provRanktab conn prov bytes => Sys2Proof.Machine.execProvRanktab conn prov bytes s
  | .provSeal conn prov => Sys2Proof.Machine.execProvSeal conn prov s
  | .provPause conn prov => Sys2Proof.Machine.execProvPause conn prov s
  | .provResume conn prov => Sys2Proof.Machine.execProvResume conn prov s
  | .provSnapshot conn prov => Sys2Proof.Machine.execProvSnapshot conn prov s
  | .provReset conn prov => Sys2Proof.Machine.execProvReset conn prov s
  | .provDissolve conn prov => Sys2Proof.Machine.execProvDissolve conn prov s
  | .dissolutionComplete prov => Sys2Proof.Machine.execDissolutionComplete prov s
  | .provRead conn prov addr n => Sys2Proof.Machine.execProvRead conn prov addr n s
  | .provGrantPf0 conn prov => Sys2Proof.Machine.execProvGrantPf0 conn prov s
  | .provStandin conn prov rank epoch => Sys2Proof.Machine.execProvStandin conn prov rank epoch s
  | .imprint conn prov => Sys2Proof.Machine.execImprint conn prov s
  | .merSet conn what => Sys2Proof.Machine.execMerSet conn what s
  | .testRun conn program units ports found => Sys2Proof.Machine.execTestRun conn program units ports found s
  | .shutdown conn force => Sys2Proof.Machine.execShutdown conn force s
  | .inletReport conn t => Sys2Proof.Machine.execInletReport conn t s
  | .provRecover conn prov on => Sys2Proof.Machine.execProvRecover conn prov on s
  | .imprintRoll conn seq => Sys2Proof.Machine.execImprintRoll conn seq s
  | .tableLoad conn img => Sys2Proof.Machine.execTableLoad conn img s
  | .fabricSet conn img fab => Sys2Proof.Machine.execFabricSet conn img fab s
  | .credSet conn ca rev => Sys2Proof.Machine.execCredSet conn ca rev s
  | .fwStage conn img => Sys2Proof.Machine.execFwStage conn img s
  | .fwActivate conn prev => Sys2Proof.Machine.execFwActivate conn prev s
  | .fwCommit conn => Sys2Proof.Machine.execFwCommit conn s
  | .stewardRestartEnd ok => Sys2Proof.Machine.execStewardRestartEnd ok s
  | .lifecycle conn tok => Sys2Proof.Machine.execLifecycle conn tok s
  | .takeOwnership conn key tokOk => Sys2Proof.Machine.execTakeOwnership conn key tokOk s
  | .tspIdleTimeout conn => Sys2Proof.Machine.execTspIdleTimeout conn s
  | .cartridgePresencePoll seen => Sys2Proof.Machine.execCartridgePresencePoll seen s
  | .cartridgeWrite part pct spares => Sys2Proof.Machine.execCartridgeWrite part pct spares s
  | .devResetNAssert => Sys2Proof.Machine.execDevResetNAssert s
  | .devResetNRelease => Sys2Proof.Machine.execDevResetNRelease s
  | .romStage test => Sys2Proof.Machine.execRomStage test s
  | .cartridgeStage fab => Sys2Proof.Machine.execCartridgeStage fab s
  | .selftestStage acked found => Sys2Proof.Machine.execSelftestStage acked found s
  | .hbmInitStage => Sys2Proof.Machine.execHbmInitStage s
  | .bringupStage => Sys2Proof.Machine.execBringupStage s
  | .ready => Sys2Proof.Machine.execReady s
  | .shutdownComplete found => Sys2Proof.Machine.execShutdownComplete found s
  | .errorRecordArrive r => Sys2Proof.Machine.execErrorRecordArrive r s
  | .errorRecordHandle march => Sys2Proof.Machine.execErrorRecordHandle march s
  | .recordsLost => Sys2Proof.Machine.execRecordsLost s
  | .stewardWatchdog => Sys2Proof.Machine.execStewardWatchdog s
  | .fatal cause die => Sys2Proof.Machine.execFatal cause die s
  | .alertPulseEnd => Sys2Proof.Machine.execAlertPulseEnd s
  | .tileMoveDone tile => Sys2Proof.Machine.execTileMoveDone tile s
  | .laneSteer lane => Sys2Proof.Machine.execLaneSteer lane s
  | .laneSteerCheck lane good => Sys2Proof.Machine.execLaneSteerCheck lane good s
  | .releaseTestDone die n spare found => Sys2Proof.Machine.execReleaseTestDone die n spare found s
  | .debugDeal tile trick => Sys2Proof.Machine.execDebugDeal tile trick s
  | .throttleNFall => Sys2Proof.Machine.execThrottleNFall s
  | .throttleNRise => Sys2Proof.Machine.execThrottleNRise s
  | .throttleQualified => Sys2Proof.Machine.execThrottleQualified s
  | .throttleHeld => Sys2Proof.Machine.execThrottleHeld s
  | .throttleToggle => Sys2Proof.Machine.execThrottleToggle s
  | .srvCfgWrite who addr value => Sys2Proof.Machine.execSrvCfgWrite who addr value s
  | .srvSnap who addr value => Sys2Proof.Machine.execSrvSnap who addr value s
  | .provSrvSnap who addr value => Sys2Proof.Machine.execProvSrvSnap who addr value s
  | .counterHalfRange unit ctr => Sys2Proof.Machine.execCounterHalfRange unit ctr s
  | .skidSample tile sseat skid => Sys2Proof.Machine.execSkidSample tile sseat skid s
  | .sampleRingMove die => Sys2Proof.Machine.execSampleRingMove die s
  | .srvTagEnable who addr value => Sys2Proof.Machine.execSrvTagEnable who addr value s
  | .tagRecordDone tile complete => Sys2Proof.Machine.execTagRecordDone tile complete s
  | .cappingEvaluation corr => Sys2Proof.Machine.execCappingEvaluation corr s
  | .fastLimiter amps => Sys2Proof.Machine.execFastLimiter amps s
  | .fastLimiterRelease => Sys2Proof.Machine.execFastLimiterRelease s
  | .junctionSensorRead reads => Sys2Proof.Machine.execJunctionSensorRead reads s
  | .thermalTrip which => Sys2Proof.Machine.execThermalTrip which s
  | .itineraryEvaluation util corr => Sys2Proof.Machine.execItineraryEvaluation util corr s
  | .inletSensorRead word => Sys2Proof.Machine.execInletSensorRead word s
  | .pmbusRead pout => Sys2Proof.Machine.execPmbusRead pout s
  | .pmbAlert words => Sys2Proof.Machine.execPmbAlert words s
  | .avsAck => Sys2Proof.Machine.execAvsAck s
  | .avsAckTimeout => Sys2Proof.Machine.execAvsAckTimeout s
  | .railUndervoltage rail => Sys2Proof.Machine.execRailUndervoltage rail s
  | .refclkLost clk => Sys2Proof.Machine.execRefclkLost clk s
  | .refclkReturn clk => Sys2Proof.Machine.execRefclkReturn clk s
  | .jtagInstruction insn => Sys2Proof.Machine.execJtagInstruction insn s
  | .ppsInTimeout => Sys2Proof.Machine.execPpsInTimeout s
  | .pathSilenceTimeout lprov peer port => Sys2Proof.Machine.execPathSilenceTimeout lprov peer port s
  | .ptpSyncTransmit pport => Sys2Proof.Machine.execPtpSyncTransmit pport s
  | .flrComplete fn => Sys2Proof.Machine.execFlrComplete fn s
  | .railRecovered => Sys2Proof.Machine.execRailRecovered s
  | .throttleToggleEnd => Sys2Proof.Machine.execThrottleToggleEnd s
  | .mgmtFrameReceived f => Sys2Proof.Machine.execMgmtFrameReceived f s
  | .tspConnectionOpen conn chain revoked role => Sys2Proof.Machine.execTspConnectionOpen conn chain revoked role s
  | .busMasterEnableWrite fn on => Sys2Proof.Machine.execBusMasterEnableWrite fn on s
  | .reservedOpcodeIssue tile seat => Sys2Proof.Machine.execReservedOpcodeIssue tile seat s

end Sys2Proof.Machine
end

