-- ==== Sys2Proof/Machine/Step.lean ====
section
/-! DEFINITION. One step of the device: the command at the front of the queue takes effect; with no command waiting the steward serves the next TSP request that had to wait, or the device idles. -/
namespace Sys2Proof.Machine

/-- One step: the first waiting command leaves the queue and takes effect on the rest of the state; with none, a TSP request whose turn has come is served (R554), or nothing happens. (DESIGN CHOICE: log 1) -/
def step (s : State) : Host.Outcome State Fault Refusal :=
  match s.pending with
  | [] =>
    match s.dueReq with
    | none => .next s
    | some (c, t, rest) =>
      match exec c t with
      | .next u => .next (u.backReqs rest)
      | .fault f => .fault f
      | .refused r => .refused r
  | c :: rest => exec c { s with pending := rest }

/-- The state with the command that a word spells put at the front of its queue. (DESIGN CHOICE: log 6) -/
def State.withFetchWord (s : State) (nbits w : Nat) : State :=
  match decodeTableWord nbits w with
  | some c => { s with pending := c :: s.pending }
  | none => s

end Sys2Proof.Machine
end

