-- ==== Sys2Proof/WellFormed.lean ====
section
/-! DEFINITION. Well-formed commands: every operand that names a unit names one the device has. -/
namespace Sys2Proof

/-- Whether every unit a command names exists (R10, R53, R254, R437, R463, R501, R513, R579). -/
def Instr.wf : Instr → Bool
  | .frameBoundary _ _ => true
  | .merTickPeriodArm => true
  | .ptpSyncReceived _ _ => true
  | .syncLossTimeout => true
  | .holdoverLimit => true
  | .ppsInEdge _ _ _ => true
  | .ppsOutPulse _ => true
  | .globalRequestArrive prov _ _ => (decide (1 ≤ prov) && decide (prov ≤ 255))
  | .announcementReceived prov _ _ => (decide (1 ≤ prov) && decide (prov ≤ 255))
  | .snapshotCutReport prov _ _ => (decide (1 ≤ prov) && decide (prov ≤ 255))
  | .merGlobLateRead _ => true
  | .halfReadLatch fn _ => decide (fn < 256)
  | .registerWrite _ _ _ _ => true
  | .mxm tile seat => decide (tile < 4224) && decide (seat < 8)
  | .mxd tile seat => decide (tile < 4224) && decide (seat < 8)
  | .mxl tile seat => decide (tile < 4224) && decide (seat < 8)
  | .mxz tile seat => decide (tile < 4224) && decide (seat < 8)
  | .arrayCommandStart tile => decide (tile < 4224)
  | .mxmComplete tile => decide (tile < 4224)
  | .drainFenceEnd tile => decide (tile < 4224)
  | .mxdComplete tile => decide (tile < 4224)
  | .bankReady tile => decide (tile < 4224)
  | .sheetStoreEccError tile _ _ _ => decide (tile < 4224)
  | .vop tile seat => decide (tile < 4224) && decide (seat < 8)
  | .vred tile seat => decide (tile < 4224) && decide (seat < 8)
  | .vsmx tile seat => decide (tile < 4224) && decide (seat < 8)
  | .vsmg tile seat => decide (tile < 4224) && decide (seat < 8)
  | .vep tile seat => decide (tile < 4224) && decide (seat < 8)
  | .vql tile seat => decide (tile < 4224) && decide (seat < 8)
  | .vqs tile seat => decide (tile < 4224) && decide (seat < 8)
  | .vectorInstructionDone tile => decide (tile < 4224)
  | .opr tile seat => decide (tile < 4224) && decide (seat < 8)
  | .opi tile seat => decide (tile < 4224) && decide (seat < 8)
  | .lih tile seat => decide (tile < 4224) && decide (seat < 8)
  | .li tile seat => decide (tile < 4224) && decide (seat < 8)
  | .fop tile seat => decide (tile < 4224) && decide (seat < 8)
  | .ld tile seat => decide (tile < 4224) && decide (seat < 8)
  | .ldComplete tile => decide (tile < 4224)
  | .st tile seat => decide (tile < 4224) && decide (seat < 8)
  | .csrRead tile seat => decide (tile < 4224) && decide (seat < 8)
  | .csrWrite tile seat => decide (tile < 4224) && decide (seat < 8)
  | .csrSet tile seat => decide (tile < 4224) && decide (seat < 8)
  | .csrClear tile seat => decide (tile < 4224) && decide (seat < 8)
  | .get tile seat => decide (tile < 4224) && decide (seat < 8)
  | .br tile seat => decide (tile < 4224) && decide (seat < 8)
  | .jal tile seat => decide (tile < 4224) && decide (seat < 8)
  | .jalr tile seat => decide (tile < 4224) && decide (seat < 8)
  | .seatRunOff tile seat => decide (tile < 4224) && decide (seat < 8)
  | .swait tile seat => decide (tile < 4224) && decide (seat < 8)
  | .sbar tile seat => decide (tile < 4224) && decide (seat < 8)
  | .deadlockDetected tile => decide (tile < 4224)
  | .arrive tile seat => decide (tile < 4224) && decide (seat < 8)
  | .wait tile seat => decide (tile < 4224) && decide (seat < 8)
  | .test tile seat => decide (tile < 4224) && decide (seat < 8)
  | .pload tile seat => decide (tile < 4224) && decide (seat < 8)
  | .nop tile seat => decide (tile < 4224) && decide (seat < 8)
  | .tend tile seat => decide (tile < 4224) && decide (seat < 8)
  | .trap tile seat => decide (tile < 4224) && decide (seat < 8)
  | .bkpt tile seat => decide (tile < 4224) && decide (seat < 8)
  | .debugHalt tile _ => decide (tile < 4224)
  | .debugStep tile => decide (tile < 4224)
  | .breakpointHit tile seat => decide (tile < 4224) && decide (seat < 8)
  | .trickComplete tile _ => decide (tile < 4224)
  | .misdealSummaryExchange prov => (decide (1 ≤ prov) && decide (prov ≤ 255))
  | .programLoad tile _ => decide (tile < 4224)
  | .atlasFrameFetch die prov _ => decide (die < 8) && (decide (1 ≤ prov) && decide (prov ≤ 255))
  | .memoryRead b _ _ _ => decide (b.word < 9663676416) && decide (b.slot < 256)
  | .memoryWrite b _ _ _ => decide (b.word < 9663676416) && decide (b.slot < 256)
  | .eccRetryRead b _ _ => decide (b.word < 9663676416) && decide (b.slot < 256)
  | .writeParityRetry b _ => decide (b.word < 9663676416) && decide (b.slot < 256)
  | .pageWalk die prov _ _ => decide (die < 12) && (decide (1 ≤ prov) && decide (prov ≤ 255))
  | .refresh chan _ => decide (chan < 384)
  | .stackTemperatureRead stack _ => decide (stack < 12)
  | .patrolScrub chan _ => decide (chan < 384)
  | .channelScrubDone chan _ => decide (chan < 384)
  | .rowRepairDone _ => true
  | .cxfr tile seat => decide (tile < 4224) && decide (seat < 8)
  | .loadComplete tile cour => decide (tile < 4224) && decide (cour < 2)
  | .storeComplete tile cour => decide (tile < 4224) && decide (cour < 2)
  | .outboxDrain tile => decide (tile < 4224)
  | .cchn tile seat => decide (tile < 4224) && decide (seat < 8)
  | .chainStart bulk => decide (bulk < 128)
  | .chainDescriptorDone bulk _ => decide (bulk < 128)
  | .chainComplete bulk => decide (bulk < 128)
  | .tput tile seat => decide (tile < 4224) && decide (seat < 8)
  | .ttake tile seat => decide (tile < 4224) && decide (seat < 8)
  | .ttakeComplete talon => decide (talon < 512)
  | .talonPutAppend talon => decide (talon < 512)
  | .verdictResult prov => (decide (1 ≤ prov) && decide (prov ≤ 255))
  | .ledgerCommit prov => (decide (1 ≤ prov) && decide (prov ≤ 255))
  | .stepCommitted prov => (decide (1 ≤ prov) && decide (prov ≤ 255))
  | .segmentReceived prov _ _ => (decide (1 ≤ prov) && decide (prov ≤ 255))
  | .segmentAckReceived prov _ _ => (decide (1 ≤ prov) && decide (prov ≤ 255))
  | .checkRecordReceived prov _ _ => (decide (1 ≤ prov) && decide (prov ≤ 255))
  | .childExcluded prov _ _ => (decide (1 ≤ prov) && decide (prov ≤ 255))
  | .patch prov _ _ _ => (decide (1 ≤ prov) && decide (prov ≤ 255))
  | .collectiveComplete prov _ => (decide (1 ≤ prov) && decide (prov ≤ 255))
  | .ethernetFrameReceived port _ => decide (port < 64)
  | .pauseHoldExpire port _ => decide (port < 64)
  | .xoffRepeat port _ => decide (port < 64)
  | .xonSend port _ => decide (port < 64)
  | .pfcStorm port _ => decide (port < 64)
  | .pfcStuck port _ => decide (port < 64)
  | .pfcRecoveryEnd port _ => decide (port < 64)
  | .transmitStart port _ _ _ _ _ _ => decide (port < 64)
  | .txUnderrun port => decide (port < 64)
  | .transmitEnd port => decide (port < 64)
  | .lpiIdleTimeout port => decide (port < 64)
  | .portParked port => decide (port < 64)
  | .portWake port => decide (port < 64)
  | .wakeEnd port => decide (port < 64)
  | .rateLower port _ _ => decide (port < 64)
  | .portRetrainDone port => decide (port < 64)
  | .linkUp port => decide (port < 64)
  | .linkDown port => decide (port < 64)
  | .linkHoldExpire port => decide (port < 64)
  | .laneBerSample lane _ _ _ _ _ => decide (lane < 64)
  | .ethLaneModeWrite fdie _ => decide (fdie < 4)
  | .ethPortRateWrite port _ => decide (port < 64)
  | .ethStatSnap port => decide (port < 64)
  | .moduleMonitorRead cage _ _ _ _ => decide (cage < 32)
  | .moduleBusPoll _ _ => true
  | .ndeyxPacketReceived port _ => decide (port < 64)
  | .ackSend lprov _ _ => decide (lprov ≤ 255)
  | .retransmitTimeout lprov _ _ _ => decide (lprov ≤ 255)
  | .ndeyxLinkLost lprov _ => decide (lprov ≤ 255)
  | .keepaliveSend lprov _ port => decide (lprov ≤ 255) && decide (port < 64)
  | .hello _ => true
  | .handshakeRetryTimer _ => true
  | .masterRekeyTimer _ => true
  | .keyRenewalDue lprov _ => decide (lprov ≤ 255)
  | .oldKeyErase lprov _ => decide (lprov ≤ 255)
  | .mkaHello port _ => decide (port < 64)
  | .mkaLifeExpire port => decide (port < 64)
  | .sakRenewal port => decide (port < 64)
  | .pcieLinkTrained _ _ => true
  | .perstNAssert => true
  | .perstNRelease => true
  | .dlDown => true
  | .hotReset => true
  | .flr fn => decide (fn < 256)
  | .resume fn => decide (fn < 256)
  | .discard fn => decide (fn < 256)
  | .hostLostTimer fn => decide (fn < 256)
  | .insetRead fn _ _ => decide (fn < 256)
  | .insetWrite fn _ _ => decide (fn < 256)
  | .hifInsetBaseWrite fn _ => decide (fn < 256)
  | .hifSrvPageWrite fn _ => decide (fn < 256)
  | .hostRequestFailed fn _ => decide (fn < 256)
  | .handOpen fn hand => decide (fn < 256) && decide (hand < 4096)
  | .handClose fn hand => decide (fn < 256) && decide (hand < 4096)
  | .doorbell fn hand _ => decide (fn < 256) && decide (hand < 4096)
  | .descriptorFetchReturn fn hand _ => decide (fn < 256) && decide (hand < 4096)
  | .descriptorRefetch fn hand => decide (fn < 256) && decide (hand < 4096)
  | .loadAtlas fn hand _ _ _ => decide (fn < 256) && decide (hand < 4096)
  | .start fn hand _ => decide (fn < 256) && decide (hand < 4096)
  | .write fn hand _ _ _ => decide (fn < 256) && decide (hand < 4096)
  | .read fn hand _ => decide (fn < 256) && decide (hand < 4096)
  | .waitStep fn hand _ => decide (fn < 256) && decide (hand < 4096)
  | .manifest fn hand _ _ _ => decide (fn < 256) && decide (hand < 4096)
  | .hostWriteConfirm fn => decide (fn < 256)
  | .getVersion => true
  | .getCapabilities => true
  | .negotiateAlgorithms _ => true
  | .getDigests => true
  | .getCertificate _ _ _ => true
  | .challenge _ => true
  | .getMeasurements _ _ => true
  | .keyExchange _ => true
  | .spdmFinish _ _ => true
  | .heartbeat _ => true
  | .spdmKeyUpdate _ => true
  | .endSession _ => true
  | .bindFn _ fn => decide (fn < 256)
  | .selectFn fn => decide (fn < 256)
  | .ideKm _ _ _ _ => true
  | .lockInterface _ fn => decide (fn < 256)
  | .startInterface _ fn => decide (fn < 256)
  | .stopInterface _ fn => decide (fn < 256)
  | .tdispInterfaceError fn => decide (fn < 256)
  | .tspHello conn _ _ => decide (conn < 8)
  | .getIdentity conn => decide (conn < 8)
  | .getCartouche conn _ => decide (conn < 8)
  | .getStatus conn => decide (conn < 8)
  | .readReg conn _ _ => decide (conn < 8)
  | .subscribe conn _ => decide (conn < 8)
  | .tspEventSend conn => decide (conn < 8)
  | .logRead conn _ => decide (conn < 8)
  | .imprintRead conn _ _ => decide (conn < 8)
  | .provCreate conn _ _ => decide (conn < 8)
  | .provSet conn prov _ => decide (conn < 8) && (decide (1 ≤ prov) && decide (prov ≤ 255))
  | .provRanktab conn prov _ => decide (conn < 8) && (decide (1 ≤ prov) && decide (prov ≤ 255))
  | .provSeal conn prov => decide (conn < 8) && (decide (1 ≤ prov) && decide (prov ≤ 255))
  | .provPause conn prov => decide (conn < 8) && (decide (1 ≤ prov) && decide (prov ≤ 255))
  | .provResume conn prov => decide (conn < 8) && (decide (1 ≤ prov) && decide (prov ≤ 255))
  | .provSnapshot conn prov => decide (conn < 8) && (decide (1 ≤ prov) && decide (prov ≤ 255))
  | .provReset conn prov => decide (conn < 8) && (decide (1 ≤ prov) && decide (prov ≤ 255))
  | .provDissolve conn prov => decide (conn < 8) && (decide (1 ≤ prov) && decide (prov ≤ 255))
  | .dissolutionComplete prov => (decide (1 ≤ prov) && decide (prov ≤ 255))
  | .provRead conn prov _ _ => decide (conn < 8) && (decide (1 ≤ prov) && decide (prov ≤ 255))
  | .provGrantPf0 conn prov => decide (conn < 8) && (decide (1 ≤ prov) && decide (prov ≤ 255))
  | .provStandin conn prov _ _ => decide (conn < 8) && (decide (1 ≤ prov) && decide (prov ≤ 255))
  | .imprint conn prov => decide (conn < 8) && (decide (1 ≤ prov) && decide (prov ≤ 255))
  | .merSet conn _ => decide (conn < 8)
  | .testRun conn _ _ _ _ => decide (conn < 8)
  | .shutdown conn _ => decide (conn < 8)
  | .inletReport conn _ => decide (conn < 8)
  | .provRecover conn prov _ => decide (conn < 8) && (decide (1 ≤ prov) && decide (prov ≤ 255))
  | .imprintRoll conn _ => decide (conn < 8)
  | .tableLoad conn _ => decide (conn < 8)
  | .fabricSet conn _ _ => decide (conn < 8)
  | .credSet conn _ _ => decide (conn < 8)
  | .fwStage conn _ => decide (conn < 8)
  | .fwActivate conn _ => decide (conn < 8)
  | .fwCommit conn => decide (conn < 8)
  | .stewardRestartEnd _ => true
  | .lifecycle _ _ => true
  | .takeOwnership conn _ _ => decide (conn < 8)
  | .tspIdleTimeout conn => decide (conn < 8)
  | .cartridgePresencePoll _ => true
  | .cartridgeWrite _ _ _ => true
  | .devResetNAssert => true
  | .devResetNRelease => true
  | .romStage _ => true
  | .cartridgeStage _ => true
  | .selftestStage _ _ => true
  | .hbmInitStage => true
  | .bringupStage => true
  | .ready => true
  | .shutdownComplete _ => true
  | .errorRecordArrive _ => true
  | .errorRecordHandle _ => true
  | .recordsLost => true
  | .stewardWatchdog => true
  | .fatal _ die => decide (die < 8)
  | .alertPulseEnd => true
  | .tileMoveDone tile => decide (tile < 4224)
  | .laneSteer lane => decide (lane < 64)
  | .laneSteerCheck lane _ => decide (lane < 64)
  | .releaseTestDone die _ _ _ => decide (die < 8)
  | .debugDeal tile _ => decide (tile < 4224)
  | .throttleNFall => true
  | .throttleNRise => true
  | .throttleQualified => true
  | .throttleHeld => true
  | .throttleToggle => true
  | .srvCfgWrite _ _ _ => true
  | .srvSnap _ _ _ => true
  | .provSrvSnap _ _ _ => true
  | .counterHalfRange _ _ => true
  | .skidSample tile _ _ => decide (tile < 4224)
  | .sampleRingMove die => decide (die < 8)
  | .srvTagEnable _ _ _ => true
  | .tagRecordDone tile _ => decide (tile < 4224)
  | .cappingEvaluation _ => true
  | .fastLimiter _ => true
  | .fastLimiterRelease => true
  | .junctionSensorRead _ => true
  | .thermalTrip _ => true
  | .itineraryEvaluation _ _ => true
  | .inletSensorRead w => w.all (fun x => decide (x < 65536))
  | .pmbusRead _ => true
  | .pmbAlert _ => true
  | .avsAck => true
  | .avsAckTimeout => true
  | .railUndervoltage rail => decide (rail < 12)
  | .refclkLost clk => decide (clk < 6)
  | .refclkReturn clk => decide (clk < 6)
  | .jtagInstruction _ => true
  | .ppsInTimeout => true
  | .pathSilenceTimeout lprov _ port => decide (lprov ≤ 255) && decide (port < 64)
  | .ptpSyncTransmit _ => true
  | .flrComplete fn => decide (fn < 256)
  | .railRecovered => true
  | .throttleToggleEnd => true
  | .mgmtFrameReceived _ => true
  | .tspConnectionOpen conn _ _ _ => decide (conn < 8)
  | .busMasterEnableWrite fn _ => decide (fn < 256)
  | .reservedOpcodeIssue tile seat => decide (tile < 4224) && decide (seat < 8)

end Sys2Proof
end

