-- ==== Sys2Proof/Safety.lean ====
section
/-! DEFINITION. The terms the statements use: a well-kept memory, a seat about to issue, what an instruction of a seat writes and what it leaves
alone, a TSP command that is served, an SPDM request that is served. -/
namespace Sys2Proof.Machine

/-- The memory's canonical form: addresses strictly rising, no byte equal to what an unlisted byte reads as (R277). -/
def State.memWf (s : State) : Bool := Sparse.wf (fun _ => (0 : Byte)) s.mem

/-- Seat `seat` of `tile` is about to issue an instruction of the given opcode, and `i` says which (R180, R184, R198). -/
def State.Issues (s : State) (tile seat opc : Nat) (i : Issue) : Prop :=
  tile < 4224 ∧ seat < 8 ∧ s.issue tile seat = some i ∧ opcOf i.insn = opc

/-- The same, for a function of an opcode whose FN field lies in bits [57:54]. -/
def State.IssuesFn (s : State) (tile seat opc fn : Nat) (i : Issue) : Prop :=
  s.Issues tile seat opc i ∧ bits i.insn 54 4 = fn

/-- A scalar register of a seat, and the seat's PC. -/
def State.sreg (s : State) (tile seat r : Nat) : W64 := ((s.tile tile).seat seat).reg r
def State.spc (s : State) (tile seat : Nat) : Nat := ((s.tile tile).seat seat).pc

/-- What an instruction that acts on its own seat alone leaves as it was: memory, poison, provinces, Talons, bulk couriers, error records, the
steward, the network, the hands and functions, power, every other tile, the tile's own sheet store, tile registers, banks, queues and couriers,
every other seat, and every register but `CC_RETIRED` of the tile and the Survey's counters. -/
structure State.SeatOnly (s t : State) (tile seat : Nat) : Prop where
  mem : t.mem = s.mem
  poison : t.poison = s.poison
  provs : t.provs = s.provs
  talons : t.talons = s.talons
  bulks : t.bulks = s.bulks
  errs : t.errs = s.errs
  memc : t.memc = s.memc
  mer : t.mer = s.mer
  stw : t.stw = s.stw
  net : t.net = s.net
  hands : t.hands = s.hands
  fns : t.fns = s.fns
  pwr : t.pwr = s.pwr
  tiles : ∀ k, k ≠ tile → t.tile k = s.tile k
  sheet : (t.tile tile).sheet = (s.tile tile).sheet
  treg : (t.tile tile).treg = (s.tile tile).treg
  banks : (t.tile tile).banks = (s.tile tile).banks
  aq : (t.tile tile).aq = (s.tile tile).aq
  fly : (t.tile tile).fly = (s.tile tile).fly
  vq : (t.tile tile).vq = (s.tile tile).vq
  outbox : (t.tile tile).outbox = (s.tile tile).outbox
  seats : ∀ n, n ≠ seat → (t.tile tile).seat n = (s.tile tile).seat n
  regs : ∀ u r, u < 2 ^ 24 → r.off < 2 ^ 16 → r.block ≠ .srv → ¬ (u = tile ∧ r = CC_RETIRED) → t.reg u r = s.reg u r

/-- Scalar register `rd` of the seat takes `v` (s0 stays 0), every other scalar register stays, the PC moves to `pc`, and nothing outside the
seat changes (R183, R185). -/
def State.Writes (s t : State) (tile seat rd : Nat) (v : W64) (pc : Nat) : Prop :=
  t.sreg tile seat rd = (if rd = 0 then 0 else v) ∧ (∀ r, r ≠ rd → t.sreg tile seat r = s.sreg tile seat r) ∧ t.spc tile seat = pc ∧
  s.SeatOnly t tile seat

/-- No scalar register of the seat changes, the PC moves to `pc`, and nothing outside the seat changes. -/
def State.Moves (s t : State) (tile seat pc : Nat) : Prop :=
  (∀ r, t.sreg tile seat r = s.sreg tile seat r) ∧ t.spc tile seat = pc ∧ s.SeatOnly t tile seat

/-- The seat's instruction has joined one of its tile's queues: the PC has moved on, no scalar register has changed value, and memory, the other
tiles, the other seats and the tile's own sheet store, tile registers and banks are as they were (R185). -/
structure State.Queued (s t : State) (tile seat pc : Nat) : Prop where
  pc : t.spc tile seat = pc
  regs : ∀ r, t.sreg tile seat r = s.sreg tile seat r
  mem : t.mem = s.mem
  tiles : ∀ k, k ≠ tile → t.tile k = s.tile k
  seats : ∀ n, n ≠ seat → (t.tile tile).seat n = (s.tile tile).seat n
  sheet : (t.tile tile).sheet = (s.tile tile).sheet
  treg : (t.tile tile).treg = (s.tile tile).treg
  banks : (t.tile tile).banks = (s.tile tile).banks

/-- The array queue has taken the seat's word with the scalar words `words`, behind every earlier command; the vector queue is unchanged (R78, R145). -/
def State.JoinsArray (s t : State) (tile seat : Nat) (i : Issue) (words : List Nat) : Prop :=
  s.Queued t tile seat (i.pc + 1) ∧ (t.tile tile).vq = (s.tile tile).vq ∧
  ∃ c : ArrCmd, c.seat = seat ∧ c.insn = i.insn ∧ c.words = words ∧ c.acted = false ∧ (t.tile tile).aq = (s.tile tile).aq ++ [c]

/-- The vector queue has taken the seat's word with the operand words `words`, behind every earlier entry; the array queue is unchanged (R145, R174). -/
def State.JoinsVector (s t : State) (tile seat : Nat) (i : Issue) (words : List Nat) : Prop :=
  s.Queued t tile seat (i.pc + 1) ∧ (t.tile tile).aq = (s.tile tile).aq ∧
  ∃ c : VecCmd, c.seat = seat ∧ c.insn = i.insn ∧ c.words = words ∧ (t.tile tile).vq = (s.tile tile).vq ++ [c]

/-- An array command passes its issue checks: its registers are ready, the queue has room, no exception holds (R87, R188). -/
def State.ArrPasses (s : State) (i : Issue) (q : ArrForm) : Prop :=
  i.blocked q.regs = false ∧ (s.tile i.tile).aq.length < 4 ∧ q.illegal = false ∧ firstExc q.checks = none

/-- A vector instruction passes its issue checks (R178, R188). -/
def State.VecPasses (s : State) (i : Issue) (q : VecForm) : Prop :=
  i.blocked q.regs = false ∧ (s.tile i.tile).vq.length < 8 ∧ q.illegal = false ∧ firstExc q.checks = none

/-- The connection is open, the steward is not restarting and serves the command (R579–R584). -/
def State.Serves (s : State) (conn cmd : Nat) : Prop :=
  ∃ c, s.conn conn = some c ∧ s.stw.restarting = false ∧ BOOT_READY ≤ s.boot ∧ s.tspRefuse c cmd = none

/-- The SPDM responder answers requests that need state `need` (R560, R577). -/
def State.Responds (s : State) (need : Nat) : Prop :=
  s.inReset = false ∧ s.boot = BOOT_READY ∧ s.stw.keys = true ∧ s.dlUp = true ∧ s.fld 0 HIF_FN_STATUS_ATTACH ≠ 1 ∧ s.stw.restarting = false ∧
  need ≤ s.stw.spdmState

/-- The province exists, waits for no other command, and is in a state that the command accepts (R554). -/
def State.Accepts (s : State) (p : Nat) (ok : PState → Bool) : Prop :=
  (s.prov p).st ≠ .none_ ∧ p ≤ 255 ∧ s.provBusy p = false ∧ ok (s.prov p).st = true

end Sys2Proof.Machine
end

