-- ==== Sys2Proof/Certificates/Slice0/Obligations.lean ====
section
/-! DEFINITION. The statements for the provers, each a `def Obligations.<Name> : Prop`. -/
open Sys2Proof Sys2Proof.Machine

/-! ## The queue and the whole machine -/

/-- A step takes the command at the front of the queue and runs it on the state with the rest of the queue. -/
def Obligations.StepRunsTheFrontCommand : Prop :=
  ∀ (c : Instr) (rest : List Instr) (s : State), step { s with pending := c :: rest } = exec c { s with pending := rest }

/-- On an empty queue the device idles, unless a TSP request that had to wait for its province may run now: then that request's command runs, and the requests behind it
keep their places (the model's choice, log entry 1). -/
def Obligations.EmptyQueueServesOrIdles : Prop :=
  ∀ (s t u : State) (c : Instr) (rest : List (Nat × Instr)), s.pending = [] →
    (s.dueReq = none → step s = .next s) ∧
    (s.dueReq = some (c, t, rest) → exec c t = .next u → step s = .next (u.backReqs rest)) ∧
    (s.dueReq = some (c, t, rest) → ∃ k, k < s.stw.reqs.length ∧ rest = s.stw.reqs.eraseIdx k ∧ s.stw.restarting = false ∧
      (∀ r, s.stw.reqs[k]? = some r → r.2 = c ∧ t.provBusy r.1 = false) ∧ t.stw.reqs = [] ∧ t.regs = s.regs ∧ t.provs = s.provs ∧ t.mem = s.mem)

/-- Memory's canonical form is kept by every step from every state that has it. -/
def Obligations.EveryStepKeepsMemoryCanonical : Prop :=
  ∀ s t : State, s.memWf = true → step s = .next t → t.memWf = true

/-- After reset memory is in canonical form and lists nothing, so every byte reads 0 and no word is poisoned; no province exists, no command waits, and registers hold the values
that the register tables give. -/
def Obligations.ResetLeavesTheGivenValues : Prop :=
  (State.reset.memWf = true ∧ (∀ a, State.reset.mbyte a = 0) ∧ (∀ w, Sparse.get false State.reset.poison w = false) ∧ State.reset.pending = [] ∧
    ∀ p, (State.reset.prov p).st = .none_) ∧
  ∀ u : Nat,
    (State.reset.fld u MER_TICK_PERIOD_PERIOD = 16 ∧ State.reset.fld u MER_HOLDOVER_LIMIT_S = 600 ∧ State.reset.fld u MER_STATUS_STATE = 0) ∧
    (State.reset.fld u TILE_ACC_CTRL_LONGSUM_THRESH = 2048 ∧ State.reset.fld u TILE_ACC_CTRL_ACC_ROUND = 1) ∧
    (State.reset.fld u DLR_CTRL_STEAL_EN = 1 ∧ State.reset.fld u DLR_CTRL_MARGIN = 256 ∧ State.reset.fld u (DLR_ROWMAP_FAULTCOL 0) = 32) ∧
    (State.reset.fld u MEM_SCRUB_CTRL_PERIOD_H = 24 ∧ State.reset.fld u MEM_ROW_WIN_LIMIT = 3) ∧
    (State.reset.fld u RDE_MC_CTRL_LAG = 32 ∧ State.reset.fld u RDE_MC_CTRL_EXCL = 64 ∧ State.reset.fld u RDE_MC_CTRL_PATCH_EN = 1) ∧
    (State.reset.fld u ETH_PORT_CTRL_MAXFRAME = 9216 ∧ State.reset.fld u ETH_TX_START_THRESH_CUR = 256) ∧
    (State.reset.fld u NDX_CTRL_ETHERTYPE = 34997 ∧ State.reset.fld u NDX_RELY_RETRY_LIMIT = 16) ∧
    (State.reset.fld u HAND_CTRL_LOG2SIZE = 6 ∧ State.reset.fld u HAND_STATUS_STATE = H_CLOSED ∧ State.reset.fld u HIF_DB_RETRY_COUNT = 8) ∧
    (State.reset.fld u STW_MGMT_TCP_PORT = 7430 ∧ State.reset.fld u STW_STATUS_BOOT = BOOT_ROM ∧ State.reset.fld u TST_FUSE_LEFT_LEFT = 512 ∧
      State.reset.fld u TST_STATUS_FATAL = 0 ∧ State.reset.fld u PWR_THROT_MHZ = 950 ∧ State.reset.fld u SRV_SAMP_PEXP = 16) ∧
    (State.reset.fld u PROV_RNG_MODE_MODE = 1 ∧ State.reset.fld u PROV_HANDS_COUNT = 16 ∧ State.reset.fld u PROV_STATE_STATE = 7 ∧ State.reset.fld u PROV_MEM_SPLIT_READ = 10)

/-- Commands of a unit that the device does not have stop with the fault that says so. -/
def Obligations.AbsentUnitsFault : Prop :=
  ∀ (s : State) (n seat : Nat),
    (4224 ≤ n → exec (.opr n seat) s = .fault .noSuchUnit ∧ exec (.mxm n seat) s = .fault .noSuchUnit ∧
      exec (.vop n seat) s = .fault .noSuchUnit ∧ exec (.cxfr n seat) s = .fault .noSuchUnit ∧ exec (.ttake n seat) s = .fault .noSuchUnit ∧
      exec (.arrayCommandStart n) s = .fault .noSuchUnit ∧ exec (.outboxDrain n) s = .fault .noSuchUnit) ∧
    (8 ≤ seat → exec (.opr n seat) s = .fault .noSuchUnit ∧ exec (.seatRunOff n seat) s = .fault .noSuchUnit) ∧
    (64 ≤ n → (∀ f, exec (.ethernetFrameReceived n f) s = .fault .noSuchUnit) ∧ exec (.linkUp n) s = .fault .noSuchUnit ∧
      exec (.transmitEnd n) s = .fault .noSuchUnit) ∧
    (256 ≤ n → (∀ h v, exec (.doorbell n h v) s = .fault .noSuchUnit) ∧ exec (.flr n) s = .fault .noSuchUnit ∧ exec (.resume n) s = .fault .noSuchUnit) ∧
    (384 ≤ n → (∀ f, exec (.patrolScrub n f) s = .fault .noSuchUnit) ∧ (∀ l, exec (.channelScrubDone n l) s = .fault .noSuchUnit)) ∧
    (512 ≤ n → exec (.ttakeComplete n) s = .fault .noSuchUnit ∧ exec (.talonPutAppend n) s = .fault .noSuchUnit) ∧
    (128 ≤ n → exec (.chainStart n) s = .fault .noSuchUnit ∧ exec (.chainComplete n) s = .fault .noSuchUnit)

/-! ## Seats: the Control Core -/

/-- The scalar instructions write their result to their destination register, step the PC and change nothing outside the seat. -/
def Obligations.ScalarResultsAreWritten : Prop :=
  ∀ (s : State) (tile seat : Nat) (i : Issue) (v : W64),
    (s.Issues tile seat 0x01 i → i.blocked [fRA i.insn, fRB i.insn] = false → bits i.insn 0 37 = 0 →
      (scalarUnary (bits i.insn 37 6) = true → fRB i.insn = 0) →
      scalarFn (bits i.insn 37 6) (i.x.reg (fRA i.insn)) (i.x.reg (fRB i.insn)) = some v →
      ∃ t, exec (.opr tile seat) s = .next t ∧ s.Writes t tile seat (fRD i.insn) v (i.pc + 1)) ∧
    (s.Issues tile seat 0x02 i → i.blocked [fRA i.insn] = false → bits i.insn 32 10 = 0 →
      (scalarUnary (bits i.insn 42 6) = true → bits i.insn 0 32 = 0) →
      scalarFn (bits i.insn 42 6) (i.x.reg (fRA i.insn)) (BitVec.ofInt 64 (signed 32 i.insn)) = some v →
      ∃ t, exec (.opi tile seat) s = .next t ∧ s.Writes t tile seat (fRD i.insn) v (i.pc + 1)) ∧
    (s.Issues tile seat 0x03 i → i.blocked [fRD i.insn] = false → bits i.insn 16 37 = 0 →
      ∃ t, exec (.lih tile seat) s = .next t ∧
        s.Writes t tile seat (fRD i.insn) (BitVec.ofNat 64 (setBits (i.x.reg (fRD i.insn)).toNat 48 16 i.insn)) (i.pc + 1)) ∧
    (s.Issues tile seat 0x04 i → bits i.insn 48 5 = 0 →
      ∃ t, exec (.li tile seat) s = .next t ∧ s.Writes t tile seat (fRD i.insn) (BitVec.ofInt 64 (signed 48 i.insn)) (i.pc + 1)) ∧
    (s.Issues tile seat 0x05 i →
      i.blocked ([fRA i.insn, fRB i.insn] ++ if bits i.insn 37 6 = 0x0D then [fRD i.insn] else []) = false → bits i.insn 0 37 = 0 →
      (fopUnary (bits i.insn 37 6) = true → fRB i.insn = 0) →
      fopFn (bits i.insn 37 6) (i.x.reg (fRA i.insn)) (i.x.reg (fRB i.insn)) (i.x.reg (fRD i.insn)) = some v →
      ∃ t, exec (.fop tile seat) s = .next t ∧ s.Writes t tile seat (fRD i.insn) v (i.pc + 1)) ∧
    (∀ n s', s.Issues tile seat 0x09 i → bits i.insn 8 45 = 0 → s.getSel i (bits i.insn 0 8) = some (n, s') →
      ∃ t, exec (.get tile seat) s = .next t ∧ s.Writes t tile seat (fRD i.insn) (BitVec.ofNat 64 n) (i.pc + 1))

/-- A branch sets the PC to its target when its condition holds and steps it otherwise; JAL and JALR write the return address; a target outside
the trick's program is IX_PC. -/
def Obligations.BranchesAndJumpsSetThePc : Prop :=
  ∀ (s : State) (tile seat pc : Nat) (i : Issue),
    (s.Issues tile seat 0x10 i → i.blocked [bits i.insn 50 5, bits i.insn 45 5] = false → bits i.insn 16 29 = 0 →
      brCond (bits i.insn 55 3) (i.x.reg (bits i.insn 50 5)) (i.x.reg (bits i.insn 45 5)) = some true →
      i.target ((i.pc : Int) + signed 16 i.insn) = some pc →
      ∃ t, exec (.br tile seat) s = .next t ∧ s.Moves t tile seat pc) ∧
    (s.Issues tile seat 0x10 i → i.blocked [bits i.insn 50 5, bits i.insn 45 5] = false → bits i.insn 16 29 = 0 →
      brCond (bits i.insn 55 3) (i.x.reg (bits i.insn 50 5)) (i.x.reg (bits i.insn 45 5)) = some false →
      ∃ t, exec (.br tile seat) s = .next t ∧ s.Moves t tile seat (i.pc + 1)) ∧
    (s.Issues tile seat 0x11 i → bits i.insn 16 37 = 0 → i.target ((i.pc : Int) + signed 16 i.insn) = some pc →
      ∃ t, exec (.jal tile seat) s = .next t ∧ s.Writes t tile seat (fRD i.insn) (BitVec.ofNat 64 (i.pc + 1)) pc) ∧
    (s.Issues tile seat 0x11 i → bits i.insn 16 37 = 0 → i.target ((i.pc : Int) + signed 16 i.insn) = none →
      exec (.jal tile seat) s = .next (s.except i IX_PC 0 (unsigned 64 ((i.pc : Int) + signed 16 i.insn)))) ∧
    (s.Issues tile seat 0x12 i → i.blocked [fRA i.insn] = false → bits i.insn 16 32 = 0 →
      i.target (((i.reg (fRA i.insn) : Int) + signed 16 i.insn) % 4096) = some pc →
      ∃ t, exec (.jalr tile seat) s = .next t ∧ s.Writes t tile seat (fRD i.insn) (BitVec.ofNat 64 (i.pc + 1)) pc)

/-- NOP moves on; BKPT moves on, and halts its seat under debug control; SWAIT passes when its counter has reached the target and waits otherwise;
SBAR waits while a seat of its mask has not arrived, and the last of them lets all go on; TEND moves on and ends the seat. -/
def Obligations.SeatControlInstructions : Prop :=
  ∀ (s : State) (tile seat : Nat) (i : Issue),
    (s.IssuesFn tile seat 0x1A 0 i → sysRsv i = false → ∃ t, exec (.nop tile seat) s = .next t ∧ s.Moves t tile seat (i.pc + 1)) ∧
    (s.IssuesFn tile seat 0x1A 3 i → sysRsv i = false → s.fld tile CC_DBG_CTRL_EN ≠ 1 →
      ∃ t, exec (.bkpt tile seat) s = .next t ∧ s.Moves t tile seat (i.pc + 1)) ∧
    (s.IssuesFn tile seat 0x1A 3 i → sysRsv i = false → s.fld tile CC_DBG_CTRL_EN = 1 →
      ∃ t, exec (.bkpt tile seat) s = .next t ∧ s.Moves t tile seat (i.pc + 1) ∧ ((t.tile tile).seat seat).st = .halted) ∧
    (s.IssuesFn tile seat 0x18 0 i → i.blocked [bits i.insn 47 5] = false → bits i.insn 0 47 = 0 →
      i.reg (bits i.insn 47 5) % 2 ^ 32 ≤ i.x.ctr (bits i.insn 52 2) →
      ∃ t, exec (.swait tile seat) s = .next t ∧ s.Moves t tile seat (i.pc + 1)) ∧
    (s.IssuesFn tile seat 0x18 0 i → i.blocked [bits i.insn 47 5] = false → bits i.insn 0 47 = 0 →
      i.x.ctr (bits i.insn 52 2) < i.reg (bits i.insn 47 5) % 2 ^ 32 →
      ∃ t, exec (.swait tile seat) s = .next t ∧ s.Moves t tile seat (i.pc + 1) ∧ ((t.tile tile).seat seat).st = .waitLocal ∧
        ((t.tile tile).seat seat).wait = .swait (bits i.insn 52 2) (i.reg (bits i.insn 47 5) % 2 ^ 32)) ∧
    (s.IssuesFn tile seat 0x18 1 i → bits i.insn 8 46 = 0 → bitAt (bits i.insn 0 8) seat = true →
      (∀ n ∈ (maskSeats (bits i.insn 0 8)).filter (fun n => n != seat), ((s.tile tile).seat n).st ≠ .idle ∧ ((s.tile tile).seat n).st ≠ .done) →
      (∀ n < 8, ∀ m, ((s.tile tile).seat n).wait = .sbar m → bitAt m seat = true → m = bits i.insn 0 8) →
      (∃ n ∈ (maskSeats (bits i.insn 0 8)).filter (fun n => n != seat), ((s.tile tile).seat n).wait ≠ .sbar (bits i.insn 0 8)) →
      ∃ t, exec (.sbar tile seat) s = .next t ∧ s.Moves t tile seat (i.pc + 1) ∧ ((t.tile tile).seat seat).st = .waitLocal ∧
        ((t.tile tile).seat seat).wait = .sbar (bits i.insn 0 8)) ∧
    (s.IssuesFn tile seat 0x18 1 i → bits i.insn 8 46 = 0 → bitAt (bits i.insn 0 8) seat = true →
      (∀ n < 8, ∀ m, ((s.tile tile).seat n).wait = .sbar m → bitAt m seat = true → m = bits i.insn 0 8) →
      (∀ n ∈ (maskSeats (bits i.insn 0 8)).filter (fun n => n != seat), ((s.tile tile).seat n).st = .waitLocal ∧ ((s.tile tile).seat n).wait = .sbar (bits i.insn 0 8)) →
      ∃ t, exec (.sbar tile seat) s = .next t ∧ t.spc tile seat = i.pc + 1 ∧
        (∀ n ∈ (maskSeats (bits i.insn 0 8)).filter (fun n => n != seat), (t.tile tile).seat n = ((s.tile tile).seat n).goOn) ∧
        (∀ r, t.sreg tile seat r = s.sreg tile seat r) ∧ t.mem = s.mem) ∧
    (s.IssuesFn tile seat 0x1A 1 i → sysRsv i = false →
      (∀ n < 8, ∀ m, ((s.tile tile).seat n).wait = .sbar m → bitAt m seat = false) →
      ∃ t, exec (.tend tile seat) s = .next t ∧ s.Moves t tile seat (i.pc + 1) ∧ ((t.tile tile).seat seat).st = .done)

/-- An LD or ST whose address is not a multiple of its size raises IX_ALIGN; one that passes the sheet store's end raises IX_RANGE; both at issue. -/
def Obligations.LoadAndStoreAddressesAreCheckedAtIssue : Prop :=
  ∀ (s : State) (tile seat a n : Nat) (i : Issue), a = ldAddr (i.reg (fRA i.insn)) i.insn → n = 2 ^ bits i.insn 46 2 →
    (s.tile tile).vq.length < 8 →
    (s.Issues tile seat 0x06 i → i.blocked [fRA i.insn] = false → bits i.insn 21 24 = 0 → ¬ (bits i.insn 46 2 = 3 ∧ bitAt i.insn 45 = true) →
      (a % n ≠ 0 → exec (.ld tile seat) s = .next (s.except i IX_ALIGN 0 a)) ∧
      (a % n = 0 → 0x17FFFF < a + (n - 1) → exec (.ld tile seat) s = .next (s.except i IX_RANGE 0 a))) ∧
    (s.Issues tile seat 0x07 i → i.blocked [fRA i.insn, fRD i.insn] = false → bits i.insn 21 25 = 0 →
      (a % n ≠ 0 → exec (.st tile seat) s = .next (s.except i IX_ALIGN 0 a)) ∧
      (a % n = 0 → 0x17FFFF < a + (n - 1) → exec (.st tile seat) s = .next (s.except i IX_RANGE 0 a)))

/-- An LD that passes its checks joins the vector queue and its RD waits for it; LD_COMPLETE writes the value of the bytes it names to RD and no other scalar register; an ST with
no earlier work of the tile before it writes its bytes into the sheet store and no other byte. -/
def Obligations.LoadsAndStoresReachTheSheetStore : Prop :=
  ∀ (s : State) (tile seat a n : Nat) (i : Issue), a = ldAddr (i.reg (fRA i.insn)) i.insn → n = 2 ^ bits i.insn 46 2 →
    a % n = 0 → a + n ≤ 0x180000 → (s.tile tile).vq.length < 8 →
    (s.Issues tile seat 0x06 i → i.blocked [fRA i.insn] = false → bits i.insn 21 24 = 0 → ¬ (bits i.insn 46 2 = 3 ∧ bitAt i.insn 45 = true) →
      ∃ t, exec (.ld tile seat) s = .next t ∧ s.JoinsVector t tile seat i [a] ∧
        (fRD i.insn ≠ 0 → Sparse.get none ((t.tile tile).seat seat).busy (fRD i.insn) = some (s.tile tile).seq)) ∧
    (s.Issues tile seat 0x07 i → i.blocked [fRA i.insn, fRD i.insn] = false → bits i.insn 21 25 = 0 →
      (s.tile tile).vq = [] → (s.tile tile).arrPending = [] → (s.tile tile).xfers = [] → (s.tile tile).badWords = [] →
      ∃ t, exec (.st tile seat) s = .next t ∧ t.spc tile seat = i.pc + 1 ∧ (∀ r, t.sreg tile seat r = s.sreg tile seat r) ∧ t.mem = s.mem ∧
        (∀ k, (t.tile tile).byte (a + k) = if k < n then BitVec.ofNat 8 (i.reg (fRD i.insn) / 256 ^ k) else (s.tile tile).byte (a + k)) ∧
        (∀ k, k < a → (t.tile tile).byte k = (s.tile tile).byte k)) ∧
    (∀ (v : VecCmd) (rest : List VecCmd), tile < 4224 → (s.tile tile).vq = v :: rest → opcOf v.insn = 0x06 →
      s.overtakes tile (s.provOf tile) v.seq (v.spans s (s.provOf tile)) = false →
      (s.tile tile).readBad (wordAt v.words 0) (2 ^ bits v.insn 46 2) = false → (∀ w ∈ rest, opcOf w.insn ≠ 0x07) →
      Sparse.get none ((s.tile tile).seat v.seat).busy (fRD v.insn) = some v.seq → fRD v.insn ≠ 0 →
      ∃ t, exec (.ldComplete tile) s = .next t ∧ t.sreg tile v.seat (fRD v.insn) = (s.tile tile).loadVal v ∧ (t.tile tile).vq = rest ∧
        (∀ r, r ≠ fRD v.insn → t.sreg tile v.seat r = s.sreg tile v.seat r) ∧ t.mem = s.mem)

/-- A CSR instruction writes the register's value before it to RD; WRITE writes s[RA] to the register, SET and CLEAR the old value with the bits of s[RA] set or
cleared; a register that seats may not write stays as it is. -/
def Obligations.CsrInstructionsAccessTheTilesRegisters : Prop :=
  ∀ (s : State) (tile seat old : Nat) (i : Issue) (d : RegDef) (r : RegAt),
    s.Issues tile seat 0x08 i → i.blocked [fRA i.insn] = false → bits i.insn 16 30 = 0 → csrReg tile (bits i.insn 0 16) = some (d, r) →
    old = d.show (s.liveWord r) → (s.tile tile).seatBusy seat = false →
    (bits i.insn 46 2 = 0 → ∃ t, exec (.csrRead tile seat) s = .next t ∧ s.Writes t tile seat (fRD i.insn) (BitVec.ofNat 64 old) (i.pc + 1)) ∧
    (bits i.insn 46 2 = 1 → exec (.csrWrite tile seat) s =
      .next ((s.csrPut r (d.size / 8) (i.reg (fRA i.insn) % 2 ^ d.size)).spend.writeRd i (BitVec.ofNat 64 old))) ∧
    (bits i.insn 46 2 = 2 → exec (.csrSet tile seat) s =
      .next ((s.csrPut r (d.size / 8) ((old ||| i.reg (fRA i.insn)) % 2 ^ d.size)).spend.writeRd i (BitVec.ofNat 64 old))) ∧
    (bits i.insn 46 2 = 3 → exec (.csrClear tile seat) s =
      .next ((s.csrPut r (d.size / 8) ((old - (old &&& i.reg (fRA i.insn))) % 2 ^ d.size)).spend.writeRd i (BitVec.ofNat 64 old))) ∧
    (r.seatWrites = false → ∀ v, s.csrPut r (d.size / 8) v = s)

/-- GSYNC: ARRIVE adds its trick to its instance and moves on, the one that completes a broadcast at rank 0 with 64 bytes of the sheet store as its payload; WAIT passes once its instance is released and waits otherwise, TEST writes to RD whether it is released, PLOAD
writes to RD a word of a released broadcast's payload. -/
def Obligations.GlobalSynchronisation : Prop :=
  ∀ (s : State) (tile seat want : Nat) (bcast : Bool) (i : Issue) (g : Gsync),
    (s.img i.c.prov).gsync (bits i.insn 0 12) = some (bcast, want) → g = (s.prov i.c.prov).gsyncOf i.inst bcast →
    (s.IssuesFn tile seat 0x19 0 i → i.blocked [bits i.insn 44 5] = false → bits i.insn 12 32 = 0 → bits i.insn 49 5 = 0 →
      (bcast = true ∨ bits i.insn 44 5 = 0) → g.tricks.contains i.c.trick = false → g.tricks.length < want →
      (bcast = false ∨ g.tricks.length + 1 ≠ want ∨ s.rank i.c.prov ≠ 0) →
      exec (.arrive tile seat) s = .next ((s.issued i (i.pc + 1) (fun x => x)).gsyncUp i.c.prov
        { g with tricks := g.tricks ++ [i.c.trick], own := g.tricks.length + 1 == want })) ∧
    (s.IssuesFn tile seat 0x19 0 i → i.blocked [bits i.insn 44 5] = false → bits i.insn 12 32 = 0 → bits i.insn 49 5 = 0 → bcast = true → s.rank i.c.prov = 0 →
      g.tricks.contains i.c.trick = false → g.tricks.length + 1 = want → i.reg (bits i.insn 44 5) % 64 = 0 → i.reg (bits i.insn 44 5) ≤ 0x17FFC0 →
      s.overtakes tile i.c.prov (s.tile tile).seq { sr := [⟨i.reg (bits i.insn 44 5), i.reg (bits i.insn 44 5) + 64⟩] } = false →
      (s.tile tile).readBad (i.reg (bits i.insn 44 5)) 64 = false →
      exec (.arrive tile seat) s = .next ((s.issued i (i.pc + 1) (fun x => x)).gsyncUp i.c.prov
        { g with tricks := g.tricks ++ [i.c.trick], own := true, payload := (s.tile tile).bytes (i.reg (bits i.insn 44 5)) 64 })) ∧
    (s.IssuesFn tile seat 0x19 1 i → bits i.insn 12 42 = 0 → g.released = true →
      ∃ t, exec (.wait tile seat) s = .next t ∧ s.Moves t tile seat (i.pc + 1)) ∧
    (s.IssuesFn tile seat 0x19 1 i → bits i.insn 12 42 = 0 → g.released = false →
      ∃ t, exec (.wait tile seat) s = .next t ∧ s.Moves t tile seat (i.pc + 1) ∧ ((t.tile tile).seat seat).st = .waitGlobal ∧
        ((t.tile tile).seat seat).wait = .gsync (bits i.insn 0 12)) ∧
    (s.IssuesFn tile seat 0x19 2 i → bits i.insn 12 37 = 0 →
      ∃ t, exec (.test tile seat) s = .next t ∧ s.Writes t tile seat (bits i.insn 49 5) (if g.released then 1 else 0) (i.pc + 1)) ∧
    (s.IssuesFn tile seat 0x19 3 i → bits i.insn 12 29 = 0 → bits i.insn 44 5 = 0 → bcast = true → g.released = true →
      ∃ t, exec (.pload tile seat) s = .next t ∧
        s.Writes t tile seat (bits i.insn 49 5) (BitVec.ofNat 64 (leAt g.payload (8 * bits i.insn 41 3) 8)) (i.pc + 1))

/-- TRAP, a reserved opcode, a seat past its program and a deadlock raise their exceptions. -/
def Obligations.ExceptionsAreRaised : Prop :=
  ∀ (s : State) (tile seat : Nat) (i : Issue) (c : TrickCtx),
    (s.IssuesFn tile seat 0x1A 2 i → bits i.insn 16 38 = 0 → exec (.trap tile seat) s = .next (s.except i IX_TRAP (bits i.insn 0 16))) ∧
    (s.Issues tile seat (opcOf i.insn) i → opReserved i.insn = true → exec (.reservedOpcodeIssue tile seat) s = .next (s.except i IX_ILLEGAL)) ∧
    (tile < 4224 → seat < 8 → (s.tile tile).trick = some c → s.mayIssue tile seat ((s.tile tile).seat seat) = true → s.spc tile seat = c.last + 1 →
      exec (.seatRunOff tile seat) s =
        .next (s.trap tile seat c.last (Sparse.get (0 : W64) (s.tile tile).prog c.last).toNat false ⟨IX_PC, 0, c.last + 1⟩)) ∧
    (tile < 4224 → seat < 8 → (s.tile tile).trick = some c → (∀ n < seat, ((s.tile tile).seat n).st = .idle ∨ ((s.tile tile).seat n).st = .done) →
      ((s.tile tile).seat seat).st = .waitLocal →
      (∀ n < 8, ((s.tile tile).seat n).st = .idle ∨ ((s.tile tile).seat n).st = .done ∨ ((s.tile tile).seat n).st = .waitLocal) →
      (s.tile tile).aq = [] → (s.tile tile).fly = [] → (s.tile tile).vq = [] → (s.tile tile).tc0 = [] → (s.tile tile).tc1 = [] → (∀ e ∈ s.talons, ∀ w ∈ e.2.waiters, w.tile ≠ tile) →
      exec (.deadlockDetected tile) s = .next (s.trap tile seat (s.spc tile seat - 1)
        (Sparse.get (0 : W64) (s.tile tile).prog (s.spc tile seat - 1)).toNat false ⟨IX_DEADLOCK, 0, 0⟩))

/-- Debug control, where EN is set: DEBUG_HALT sets HALT and halts a named seat that was ready, DEBUG_STEP grants a halted seat one instruction, a breakpoint at a seat's
PC halts it; the PC, the scalar registers and memory stay. -/
def Obligations.DebugControlHaltsAndSteps : Prop :=
  ∀ (s : State) (tile seat seats n : Nat), tile < 4224 → n < 8 →
    (seats < 256 → bitAt seats n = true → s.fld tile CC_DBG_CTRL_EN = 1 → ((s.tile tile).seat n).st = .ready → ((s.tile tile).seat n).steps = 0 →
      ∃ t, exec (.debugHalt tile seats) s = .next t ∧ t.fld tile CC_DBG_CTRL_HALT = 1 ∧ t.fld tile CC_DBG_CTRL_SEATS = seats ∧ ((t.tile tile).seat n).st = .halted ∧ t.mem = s.mem ∧
        t.spc tile n = s.spc tile n ∧ (∀ k, t.sreg tile n k = s.sreg tile n k)) ∧
    (s.fld tile CC_DBG_CTRL_EN = 1 → bitAt (s.fld tile CC_DBG_CTRL_SEATS) n = true → ((s.tile tile).seat n).st = .halted →
      ∃ t, exec (.debugStep tile) s = .next t ∧ ((t.tile tile).seat n).steps = 1 ∧ t.spc tile n = s.spc tile n ∧ (∀ k, t.sreg tile n k = s.sreg tile n k) ∧ t.mem = s.mem) ∧
    (seat < 8 → (s.tile tile).trick.isSome = true → ((s.tile tile).seat seat).st = .ready → s.fld tile CC_DBG_CTRL_BP_EN = 1 →
      s.fld tile CC_DBG_CTRL_BP_PC = s.spc tile seat → s.dbgHolds tile seat ((s.tile tile).seat seat) = true →
      ∃ t, exec (.breakpointHit tile seat) s = .next t ∧ ((t.tile tile).seat seat).st = .halted ∧ t.spc tile seat = s.spc tile seat ∧ (∀ k, t.sreg tile seat k = s.sreg tile seat k) ∧ t.mem = s.mem)

/-! ## The matrix array -/

/-- MXM, MXD, MXL and MXZ that pass their checks join the array queue with the scalar words of their registers; the first exception in order is raised instead. -/
def Obligations.ArrayCommandsJoinTheQueue : Prop :=
  ∀ (s : State) (tile seat c : Nat) (i : Issue),
    (s.Issues tile seat 0x20 i → s.ArrPasses i (s.mxmForm i) → ∃ t, exec (.mxm tile seat) s = .next t ∧ s.JoinsArray t tile seat i ((s.mxmForm i).regs.map i.reg)) ∧
    (s.Issues tile seat 0x21 i → s.ArrPasses i (s.mxdForm i) → ∃ t, exec (.mxd tile seat) s = .next t ∧ s.JoinsArray t tile seat i ((s.mxdForm i).regs.map i.reg)) ∧
    (s.Issues tile seat 0x22 i → s.ArrPasses i (s.mxlForm i) → ∃ t, exec (.mxl tile seat) s = .next t ∧ s.JoinsArray t tile seat i ((s.mxlForm i).regs.map i.reg)) ∧
    (s.Issues tile seat 0x23 i → s.ArrPasses i (s.mxzForm i) → ∃ t, exec (.mxz tile seat) s = .next t ∧ s.JoinsArray t tile seat i ((s.mxzForm i).regs.map i.reg)) ∧
    (s.Issues tile seat 0x23 i → i.blocked [] = false → (s.tile tile).aq.length < 4 → bits i.insn 0 54 = 0 → firstExc (s.mxzForm i).checks = some c →
      exec (.mxz tile seat) s = .next (s.except i c))

/-- The array's events: the command at the head of the queue starts once nothing holds it back: an MXM reads its operands, an MXD has its banks DRAINING, an MXL or MXZ claims its
banks for its seat with g = 0; a command that the drain fence held acts likewise at its end; a completed command leaves the array and counts ARRDONE; a completed MXD writes its
words and its banks become FREE, or stay claimed with KEEP. -/
def Obligations.ArrayEventsMoveCommandsOn : Prop :=
  ∀ (s : State) (tile : Nat) (a : ArrCmd) (rest : List ArrCmd) (c : TrickCtx), tile < 4224 →
    ((s.tile tile).trick = some c → (s.tile tile).aq = a :: rest → (s.tile tile).fly = [] → a.acted = false → s.arrWaits tile c.prov a = false → (s.tile tile).badWords = [] →
      (opcOf a.insn = 0x20 → exec (.arrayCommandStart tile) s = .next ((s.setTile tile { (s.tile tile) with aq := rest, fly := [a] }).runMxm tile c a)) ∧
      (opcOf a.insn = 0x21 → ∃ t, exec (.arrayCommandStart tile) s = .next t ∧ (t.tile tile).aq = rest ∧ (t.tile tile).fly.map ArrCmd.acted = [true] ∧
        (∀ b ∈ acBanks a.insn, ((t.tile tile).bank b).st = .draining) ∧ (t.tile tile).sheet = (s.tile tile).sheet ∧ t.mem = s.mem) ∧
      (opcOf a.insn = 0x22 ∨ opcOf a.insn = 0x23 → ∃ t, exec (.arrayCommandStart tile) s = .next t ∧ (t.tile tile).aq = rest ∧ (t.tile tile).fly = [{ a with acted := true }] ∧
        (∀ b ∈ acBanks a.insn, ((t.tile tile).bank b).st = .claimed ∧ ((t.tile tile).bank b).owner = a.seat ∧ ((t.tile tile).bank b).g = 0) ∧
        (opcOf a.insn = 0x23 → ∀ b ∈ acBanks a.insn, ((t.tile tile).bank b).cells = []) ∧ t.mem = s.mem)) ∧
    ((s.tile tile).trick = some c → (s.tile tile).fly = [a] → opcOf a.insn ≠ 0x20 → a.acted = false → s.arrWaits tile c.prov a = false →
      exec (.drainFenceEnd tile) s = .next ((s.actArr tile c a).1.setTile tile (((s.actArr tile c a).1.tile tile).setFly (s.actArr tile c a).2))) ∧
    ((s.tile tile).fly = [a] → opcOf a.insn = 0x20 →
      ∃ t, exec (.mxmComplete tile) s = .next t ∧ (t.tile tile).fly = [] ∧ ((t.tile tile).seat a.seat).arrDone = inc32 ((s.tile tile).seat a.seat).arrDone ∧
        (t.tile tile).banks = (s.tile tile).banks ∧ t.mem = s.mem) ∧
    ((s.tile tile).trick = some c → (s.tile tile).fly = [a] → opcOf a.insn = 0x21 → a.acted = true → s.overtakes tile c.prov a.seq (a.spans s c.prov) = false →
      (∀ b ∈ acBanks a.insn, ((s.tile tile).bank b).st = .draining) → (s.tile tile).badWords = [] → (∀ v l, (s.tile tile).vq = v :: l → opcOf v.insn ≠ 0x07) →
      ∃ t, exec (.mxdComplete tile) s = .next t ∧ (t.tile tile).fly = [] ∧ ((t.tile tile).seat a.seat).arrDone = inc32 ((s.tile tile).seat a.seat).arrDone ∧
        (∀ b ∈ acBanks a.insn, ((t.tile tile).bank b).st = (if bitAt a.insn 53 then .claimed else .free)) ∧
        (t.tile tile).sheet = ((s.tile tile).putBytes a.sheetOut).sheet ∧ (t.tile tile).treg = ((s.tile tile).putTregs a.tregOut).treg ∧ t.mem = s.mem) ∧
    ((s.tile tile).fly = [a] → opcOf a.insn = 0x22 ∨ opcOf a.insn = 0x23 → a.acted = true →
      ∃ t, exec (.bankReady tile) s = .next t ∧ (t.tile tile).fly = [] ∧ ((t.tile tile).seat a.seat).arrDone = inc32 ((s.tile tile).seat a.seat).arrDone ∧
        (t.tile tile).banks = (s.tile tile).banks ∧ t.mem = s.mem)

/-! ## The vector engine -/

/-- Every vector instruction that passes its issue checks joins the vector queue with its operand words. -/
def Obligations.VectorInstructionsJoinTheQueue : Prop :=
  ∀ (s : State) (tile seat : Nat) (i : Issue),
    (s.Issues tile seat 0x28 i → s.VecPasses i (s.vopForm i) → ∃ t, exec (.vop tile seat) s = .next t ∧ s.JoinsVector t tile seat i (s.vopForm i).words) ∧
    (s.Issues tile seat 0x29 i → s.VecPasses i i.vredForm → ∃ t, exec (.vred tile seat) s = .next t ∧ s.JoinsVector t tile seat i i.vredForm.words) ∧
    (s.Issues tile seat 0x2A i → s.VecPasses i i.vsmxForm → ∃ t, exec (.vsmx tile seat) s = .next t ∧ s.JoinsVector t tile seat i i.vsmxForm.words) ∧
    (s.Issues tile seat 0x2B i → s.VecPasses i i.vsmgForm → ∃ t, exec (.vsmg tile seat) s = .next t ∧ s.JoinsVector t tile seat i i.vsmgForm.words) ∧
    (s.Issues tile seat 0x2C i → s.VecPasses i (s.vepForm i) → s.vepWaits i = false → s.vepUnreadable i = false →
      ∃ t, exec (.vep tile seat) s = .next t ∧ s.JoinsVector t tile seat i (s.vepForm i).words) ∧
    (s.Issues tile seat 0x2D i → s.VecPasses i (s.vqlForm i) → ∃ t, exec (.vql tile seat) s = .next t ∧ s.JoinsVector t tile seat i (s.vqlForm i).words) ∧
    (s.Issues tile seat 0x2E i → s.VecPasses i (s.vqsForm i) → ∃ t, exec (.vqs tile seat) s = .next t ∧ s.JoinsVector t tile seat i (s.vqsForm i).words)

/-- VECTOR_INSTRUCTION_DONE carries out the instruction at the head of the vector queue and counts VECDONE; it waits while earlier work of the tile
still has to reach the same words. -/
def Obligations.VectorInstructionsAreCarriedOutInOrder : Prop :=
  ∀ (s t : State) (tile : Nat) (c : TrickCtx) (v : VecCmd) (rest : List VecCmd), tile < 4224 → (s.tile tile).trick = some c →
    (s.tile tile).vq = v :: rest → 0x28 ≤ opcOf v.insn →
    (s.overtakes tile c.prov v.seq (v.spans s c.prov) = true → exec (.vectorInstructionDone tile) s = .next s) ∧
    (s.overtakes tile c.prov v.seq (v.spans s c.prov) = false → (v.spans s c.prov).sr.any (fun r => (s.tile tile).readBad r.lo (r.hi - r.lo)) = false →
      t = (s.setTile tile { (s.tile tile) with vq := rest }).runVec tile c v → (t.tile tile).trick ≠ none →
      exec (.vectorInstructionDone tile) s = .next ((t.setTile tile ((t.tile tile).countVec v.seat)).drainStores tile 8))

/-! ## Couriers, chains and Talons -/

/-- A CXFR that passes its checks joins its courier's queue; LOAD_COMPLETE writes the converted block into the sheet store and nothing into memory; STORE_COMPLETE puts its block into
the outbox, held unless its trick has completed; OUTBOX_DRAIN makes the writes that are next in memory and frees their room. -/
def Obligations.CourierTransfers : Prop :=
  ∀ (s : State) (tile seat cour : Nat) (i : Issue) (ws : List Nat) (x : Xfer) (rest : List Xfer) (o : OutEntry) (foot : List (Nat × Nat)), tile < 4224 →
    (s.Issues tile seat 0x30 i → ws = (List.range 5).map (fun k => i.reg (bits i.insn 51 5 + k)) →
      ((s.tile tile).cq (bits i.insn 57 1)).length < 8 → i.blocked ((List.range 5).map (fun k => bits i.insn 51 5 + k)) = false →
      1 ≤ bits i.insn 51 5 → bits i.insn 51 5 ≤ 27 → bits i.insn 0 29 = 0 → bits i.insn 38 2 ≠ 3 →
      bits (wordAt ws 0) 48 16 = 0 → bits (wordAt ws 1) 33 31 = 0 → bits (wordAt ws 2) 56 8 = 0 →
      firstExc (s.cxChecks i (Cx.of i.insn ws)) = none →
      ∃ t y, exec (.cxfr tile seat) s = .next t ∧ y.seat = seat ∧ y.insn = i.insn ∧ y.words = ws ∧ y.ctx = i.c ∧ y.frame = s.frame ∧ y.rel = none ∧
        (t.tile tile).cq (bits i.insn 57 1) = (s.tile tile).cq (bits i.insn 57 1) ++ [y] ∧ s.Queued t tile seat (i.pc + 1)) ∧
    ((s.tile tile).cq cour = x :: rest → (Cx.of x.insn x.words).store = false →
      foot = (Cx.of x.insn x.words).foot (sideNib s x.ctx.prov (Cx.of x.insn x.words).fm) (sideBs s x.ctx.prov (Cx.of x.insn x.words).fm) →
      s.overtakes tile x.ctx.prov x.seq { sw := x.sheet s x.ctx.prov } = false → (∀ f ∈ foot, s.vpoison x.ctx.prov f.1 f.2 = false) →
      s.readHeld x.ctx.prov x.frame foot = false → s.hbmOpen x.ctx.prov 0 foot = true → (s.tile tile).badWords = [] →
      (∀ v l, (s.tile tile).vq = v :: l → opcOf v.insn ≠ 0x07) →
      ∃ t, exec (.loadComplete tile cour) s = .next t ∧ (t.tile tile).cq cour = rest ∧ (t.tile tile).sheet = ((s.tile tile).putBytes (s.loadCells x)).sheet ∧
        t.mem = s.mem ∧ (t.tile tile).trick = (s.tile tile).trick) ∧
    ((s.tile tile).cq cour = x :: rest → (Cx.of x.insn x.words).store = true →
      s.overtakes tile x.ctx.prov x.seq { sr := x.sheet s x.ctx.prov } = false →
      s.outTaken tile x.ctx.prov x + (Cx.of x.insn x.words).outSize s x.ctx.prov ≤ 65536 →
      (x.sheet s x.ctx.prov).any (fun r => (s.tile tile).readBad r.lo (r.hi - r.lo)) = false → (∀ v l, (s.tile tile).vq = v :: l → opcOf v.insn ≠ 0x07) →
      ∃ t, exec (.storeComplete tile cour) s = .next t ∧ (t.tile tile).cq cour = rest ∧ t.mem = s.mem ∧ (t.tile tile).sheet = (s.tile tile).sheet ∧
        (t.tile tile).outbox = (s.tile tile).outbox ++
          [⟨x.seq, x.rel.isNone, (Cx.of x.insn x.words).outSize s x.ctx.prov, s.storeCells tile x, x.rel.getD 0, x.ctx.prov, x.ctx.pframe⟩]) ∧
    (s.nextDrain tile = some o → exec (.outboxDrain tile) s = .next ((s.drainOne tile o).wakeColls o.prov) ∧
      (s.drainOne tile o).mem = (s.vwrite o.prov o.cells).mem ∧ ((s.drainOne tile o).tile tile).outbox = (s.tile tile).outbox.filter (fun y => y.seq != o.seq) ∧
      ∀ k, k ≠ tile → (s.drainOne tile o).tile k = s.tile k)

/-- A CCHN is held by its trick; a bulk courier that runs no chain starts the one at the head of its queue once the writes released before it are made, and waits with a chain that needs
the host while the host is not there; a descriptor's block is written, or handed on where it has LINK; after the last descriptor the chain's handle is put and the courier is idle. -/
def Obligations.ChainsRunDescriptorByDescriptor : Prop :=
  ∀ (s : State) (tile seat bulk n : Nat) (i : Issue) (j : ChainJob) (rest : List ChainJob) (host : List (Nat × Byte)) (p : Nat) (d : ChainDesc) (foot dest : List (Nat × Nat)), bulk < 128 →
    (s.Issues tile seat 0x31 i → i.blocked [bits i.insn 53 5] = false → bits i.insn 0 53 = 0 → ((s.img i.c.prov).sect 7).isSome = true →
      i.reg (bits i.insn 53 5) % 65536 < (s.img i.c.prov).nchain →
      (s.bulkOf i.c.prov ((s.img i.c.prov).chainEnt (i.reg (bits i.insn 53 5) % 65536)).bc).isSome = true →
      ∃ t, exec (.cchn tile seat) s = .next t ∧ s.Queued t tile seat (i.pc + 1) ∧ t.bulks = s.bulks ∧ (t.tile tile).chains = (s.tile tile).chains ++
        [⟨i.reg (bits i.insn 53 5) % 65536, bits (i.reg (bits i.insn 53 5)) 16 16, bits (i.reg (bits i.insn 53 5)) 32 32⟩]) ∧
    ((s.bulk bulk).queue = j :: rest → p = j.ctx.prov → d = (s.jobDesc j).1 →
      ((s.bulk bulk).st ≠ .running → (s.tile j.tile).unmade j.afterSeq = false → s.fld 0 TST_STATUS_FATAL = 0 →
        (∀ f ∈ (s.img p).chainSpans j.req.chain, s.vpoison p f.1 f.2 = false) → s.descBad p d (s.jobDesc j).2.1 (s.jobDesc j).2.2 = false →
        (s.usesHost p d (s.jobDesc j).2.1 = false ∨ s.hostUp p = true →
          ∃ t, exec (.chainStart bulk) s = .next t ∧ (t.bulk bulk).st = .running ∧ (t.bulk bulk).queue = { j with frame := s.frame } :: rest ∧ t.mem = s.mem ∧
            (∀ n, n ≠ bulk → t.bulk n = s.bulk n)) ∧
        (s.usesHost p d (s.jobDesc j).2.1 = true → s.hostUp p = false →
          ∃ t, exec (.chainStart bulk) s = .next t ∧ (t.bulk bulk).st = .waitHost ∧ (t.bulk bulk).queue = j :: rest ∧ t.mem = s.mem)) ∧
      ((s.bulk bulk).st = .running → j.desc < ((s.img p).chainEnt j.req.chain).count → j.hostWrote = false → s.usesHost p d (s.jobDesc j).2.1 = false ∨ s.hostUp p = true →
        foot = (sideFoot (d.srcSide s p (s.jobDesc j).2.1.isSome) d.qr (sideNib s p d.fs) (sideBs s p d.fs)).filter (fun f => decide (f.1 < hostBase)) →
        dest = (sideFoot (d.dstSide s p) d.dqr (sideNib s p d.fd) (sideBs s p d.fd)).filter (fun f => decide (f.1 < hostBase)) →
        (d.op = 0 → (s.jobDesc j).2.1 = none → s.readHeld p j.frame foot = false ∧ s.hbmOpen p 0 foot = true ∧ ∀ f ∈ foot, s.vpoison p f.1 f.2 = false) →
        (d.link = false → (s.jobDesc j).2.2 = true → s.hbmOpen p 1 dest = true →
          ∃ t k, exec (.chainDescriptorDone bulk host) s = .next t ∧ t.mem = (s.anyWrite p (s.chainCells host j)).mem ∧
            (t.bulk bulk).st = .running ∧ (t.bulk bulk).queue = k :: rest ∧ k.desc = j.desc + 1 ∧ k.req = j.req ∧ k.carry = none ∧
            k.hostWrote = ((s.prov p).region d.dst == .host)) ∧
        (d.link = true → (s.jobDesc j).2.2 = false →
          s.descBad p (s.jobDesc { j with desc := j.desc + 1 }).1 (s.jobDesc { j with desc := j.desc + 1 }).2.1 (s.jobDesc { j with desc := j.desc + 1 }).2.2 = false →
          s.usesHost p (s.jobDesc { j with desc := j.desc + 1 }).1 (s.jobDesc { j with desc := j.desc + 1 }).2.1 = false ∨ s.hostUp p = true →
          ∃ t k, exec (.chainDescriptorDone bulk host) s = .next t ∧ t.mem = s.mem ∧ t.sent = s.sent ∧
            (t.bulk bulk).st = .running ∧ (t.bulk bulk).queue = k :: rest ∧ k.desc = j.desc + 1 ∧ k.req = j.req ∧ k.carry = some (s.chainCells host j))) ∧
      ((s.bulk bulk).st = .running → ((s.img p).chainEnt j.req.chain).count ≤ j.desc → j.hostWrote = false → (∀ e ∈ s.tiles, e.2.waitChains = []) →
        (((s.img p).chainEnt j.req.chain).put = false →
          ∃ t, exec (.chainComplete bulk) s = .next t ∧ (t.bulk bulk).st = .idle ∧ (t.bulk bulk).queue = rest ∧ t.mem = s.mem ∧ t.talons = s.talons) ∧
        (((s.img p).chainEnt j.req.chain).put = true → s.talonOf p ((s.img p).chainEnt j.req.chain).talon = some n → (s.talon n).handles.length < 1024 → (s.talon n).putWait = [] →
          ∃ t, exec (.chainComplete bulk) s = .next t ∧ (t.bulk bulk).st = .idle ∧ (t.bulk bulk).queue = rest ∧ t.mem = s.mem ∧
            (t.talon n).handles = (s.talon n).handles ++ [if ((s.img p).chainEnt j.req.chain).putArg then j.req.arg else ((s.img p).chainEnt j.req.chain).handle])))

/-- A Talon hands out its handles first in, first out: TPUT is held by its trick, TTAKE waits for its handle, the first waiter takes the first handle,
and the first waiting put is appended when there is room. -/
def Obligations.TalonsAreFirstInFirstOut : Prop :=
  ∀ (s : State) (tile seat talon h n : Nat) (i : Issue) (w : TakeWait) (ws : List TakeWait) (hs : List Nat),
    (s.Issues tile seat 0x34 i → i.blocked [bits i.insn 50 5] = false → bits i.insn 0 50 = 0 → (s.talonOf i.c.prov (bits i.insn 55 3)).isSome = true →
      (s.tile tile).puts.length < 16 →
      ∃ t, exec (.tput tile seat) s = .next t ∧ (t.tile tile).puts = (s.tile tile).puts ++ [(bits i.insn 55 3, i.reg (bits i.insn 50 5) % 2 ^ 32)] ∧
        ((t.tile tile).seat seat).talDone = inc32 ((s.tile tile).seat seat).talDone ∧ t.spc tile seat = i.pc + 1 ∧ t.mem = s.mem ∧ t.talons = s.talons) ∧
    (s.Issues tile seat 0x35 i → bits i.insn 0 50 = 0 → s.talonOf i.c.prov (bits i.insn 55 3) = some n →
      (s.tile tile).taken.length + s.talons.foldl (fun n e => n + (e.2.waiters.filter (fun w => w.tile == tile)).length) 0 < 64 →
      ∃ t, exec (.ttake tile seat) s = .next t ∧ s.Queued t tile seat (i.pc + 1) ∧ (t.talon n).handles = (s.talon n).handles ∧
        (t.talon n).waiters = (s.talon n).waiters ++ [⟨tile, seat, bits i.insn 50 5, (s.tile tile).seq⟩]) ∧
    (talon < 512 → (s.talon talon).waiters = w :: ws → (s.talon talon).handles = h :: hs →
      Sparse.get none ((s.tile w.tile).seat w.seat).busy w.rd = some w.seq → w.rd ≠ 0 →
      ∃ t, exec (.ttakeComplete talon) s = .next t ∧ (t.talon talon).waiters = ws ∧ (t.talon talon).handles = hs ∧
        t.sreg w.tile w.seat w.rd = BitVec.ofNat 64 h ∧ (t.tile w.tile).taken = (talon, h) :: (s.tile w.tile).taken ∧
        ((t.tile w.tile).seat w.seat).talDone = inc32 ((s.tile w.tile).seat w.seat).talDone ∧ t.mem = s.mem) ∧
    (talon < 512 → (s.talon talon).putWait = h :: hs → (s.talon talon).handles.length < 1024 →
      ∃ t, exec (.talonPutAppend talon) s = .next t ∧ (t.talon talon).handles = (s.talon talon).handles ++ [h] ∧ (t.talon talon).putWait = hs ∧
        (t.talon talon).waiters = (s.talon talon).waiters ∧ (∀ k, k ≠ talon → t.talon k = s.talon k))

/-! ## The Dealers -/

/-- TRICK_COMPLETE frees the tile and its banks and deals the tile's next work; PROGRAM_LOAD puts the programs of planned frame 0 into a tile of a SEALED province; the exchange of misdeal
summaries recalls the tricks started early; the fetch of a frame changes nothing, unless it meets poison: then the Atlas copy is mended and a record raised; DEBUG_DEAL starts one
trick of a PAUSED province in recovery. -/
def Obligations.DealersDealCompleteAndRecall : Prop :=
  ∀ (s u : State) (tile left p die idx trick : Nat) (c : TrickCtx) (host : List (Nat × Byte)), tile < 4224 →
    ((s.tile tile).trick = some c → (s.tile tile).finished c = true → s.tentative c = false →
      exec (.trickComplete tile left) s = .next ((s.completeTrick tile c).onFree c.prov tile left) ∧
      ((s.completeTrick tile c).tile tile).trick = none ∧ ((s.completeTrick tile c).tile tile).banks = []) ∧
    (∃ t, exec (.misdealSummaryExchange p) s = .next t ∧ (t.prov p).tent = []) ∧
    (s.ownerOfTile tile = p → s.idxOf p tile = some idx → (s.prov p).loaded = true → (s.prov p).st = .sealed_ → (s.prov p).cur = none →
      (s.tile tile).trick = none → (s.tile tile).loadedFor = 0 → s.loadsFor p idx 0 ≠ [] →
      s.hbmOpen p 0 ((s.loadsFor p idx 0).map (fun i => (atlasBase + ((s.img p).prog i).off, 8 * ((s.img p).prog i).n))) = true →
      (∀ i ∈ s.loadsFor p idx 0, s.vpoison p (atlasBase + ((s.img p).prog i).off) (8 * ((s.img p).prog i).n) = false) →
      exec (.programLoad tile left) s = .next ((s.setTile tile { ((s.loadsFor p idx 0).foldl (fun t i => t.loadProg (((s.img p).prog i).first)
        ((s.img p).code ((s.img p).prog i))) (s.tile tile)) with loadedFor := 1 }).onFree p tile left)) ∧
    (die < 8 → (s.prov p).loaded = true → s.hbmOpen p 0 ((s.img p).fetchSpans (s.prov p).k) = true →
      (((s.img p).fetchSpans (s.prov p).k).any (fun x => (s.prov p).region x.1 == .atlas && s.vpoison p x.1 x.2) = true →
        exec (.atlasFrameFetch die p host) s = .next ((s.recopyAtlas p host).raise { cause := TABLE_REBUILT, die := die, prov := p, addr := atlasBase })) ∧
      (((s.img p).fetchSpans (s.prov p).k).any (fun x => (s.prov p).region x.1 == .atlas && s.vpoison p x.1 x.2) = false →
        exec (.atlasFrameFetch die p host) s = .next s)) ∧
    (s.ownerOfTile tile = p → p ≠ 0 → s.idxOf p tile = some idx → u = s.startTrick p tile idx { pframe := (s.prov p).k, trick := trick, home := idx } → (s.prov p).st = .paused → (s.prov p).recovery = true → (s.prov p).loaded = true →
      (s.tile tile).trick = none →
      exec (.debugDeal tile trick) s = .next (u.setTile tile { (u.tile tile) with trick := (u.tile tile).trick.map (fun x => { x with debug := true }) }))

/-- Sheet-store errors are recorded, or fault the trick and mark the word; a finished tile move sets FAULTCOL; a passed release test releases its unit. -/
def Obligations.TileErrorsAndRepairs : Prop :=
  ∀ (s : State) (tile a bit die n : Nat) (found : List ErrIn), tile < 4224 →
    (exec (.sheetStoreEccError tile (.sheet a) true bit) s =
      .next (s.raise { cause := SRAM_CORRECTED, prov := s.provOf tile, die := dieOfTile tile, unit := tileUnit tile, addr := a, bit := bit })) ∧
    (exec (.sheetStoreEccError tile (.sheet a) false bit) s =
      .next ((s.setTile tile { (s.tile tile) with badWords := Sparse.set false (s.tile tile).badWords (a / 16) true }).tileFault tile a bit)) ∧
    (s.errs.moves.any (fun m => m.tile == tile && m.phase == .moving) = true →
      ∃ t, exec (.tileMoveDone tile) s = .next t ∧ t.fld (dieOfTile tile) (DLR_ROWMAP_FAULTCOL (rowOfTile tile)) = tile % 33 ∧
        (∀ m ∈ t.errs.moves, m.tile = tile → m.phase = .done)) ∧
    (die < 8 → (∀ r ∈ found, r.cause ≠ BIST_UNREPAIRED ∧ r.cause ≠ BIST_REPAIRED) →
      ∃ t, exec (.releaseTestDone die n false found) s = .next t ∧ (die, n) ∉ t.errs.untested ∧ (∀ u ∈ s.errs.untested, u ≠ (die, n) → u ∈ t.errs.untested))

/-! ## Memory -/

/-- A whole or partial write of a 64-byte word, in a slot of its class, writes its bytes and no other byte of memory; one whose parity fails is held, changes no byte and is sent again; a
second failure poisons the word, which then reads as zeros. -/
def Obligations.MemoryWritesChangeTheirBytesAlone : Prop :=
  ∀ (s : State) (word cls slot : Nat) (cells : List (Nat × Byte)) (w : ParityWrite),
    (s.mayServe word cls slot = true → cls ≠ 0 → cls ≤ 3 →
      (s.poison = [] → (wordCells word cells).Pairwise (fun x y => x.1 ≠ y.1) →
        ∃ t, exec (.memoryWrite ⟨word, slot⟩ cls cells false) s = .next t ∧ (∀ c ∈ wordCells word cells, t.mbyte c.1 = c.2) ∧
          (∀ a, (∀ c ∈ wordCells word cells, c.1 ≠ a) → t.mbyte a = s.mbyte a) ∧ t.tiles = s.tiles ∧ t.provs = s.provs) ∧
      (∃ t, exec (.memoryWrite ⟨word, slot⟩ cls cells true) s = .next t ∧ t.mem = s.mem ∧ t.memc.wretry = s.memc.wretry ++ [⟨word, cls, cells⟩])) ∧
    (s.memc.wretry = [w] → w.word = word → s.mayServe word w.cls slot = true →
      exec (.writeParityRetry ⟨word, slot⟩ false) s = exec (.memoryWrite ⟨word, slot⟩ w.cls w.cells false) { s with memc := { s.memc with wretry := [] } } ∧
      (∃ t, exec (.writeParityRetry ⟨word, slot⟩ true) s = .next t ∧ (∀ a, t.mbyte a = if a / 64 = word then 0 else s.mbyte a) ∧
        Sparse.get false t.poison word = true ∧ t.memc.wretry = []))

/-- A read in a slot of its class delivers the word's bytes, or poison where the word is poisoned, and changes no byte; an uncorrectable word waits for a second read, which delivers its
bytes or, when it fails too, poisons the word and delivers poison. -/
def Obligations.MemoryReadsDeliverTheWord : Prop :=
  ∀ (s : State) (word cls slot : Nat), s.mayServe word cls slot = true → cls ≠ 1 → cls ≤ 3 →
    (Sparse.get false s.poison word = false →
      ∃ t, exec (.memoryRead ⟨word, slot⟩ cls .clean 0) s = .next t ∧ t.mem = s.mem ∧ t.poison = s.poison ∧ t.sent.head? = some (.readData word (some (s.wordBytes word)))) ∧
    (Sparse.get false s.poison word = true → ∃ t, exec (.memoryRead ⟨word, slot⟩ cls .clean 0) s = .next t ∧ t.mem = s.mem ∧ t.poison = s.poison ∧
      t.sent.head? = some (.readData word none)) ∧
    (Sparse.get false s.poison word = false → ∃ t, exec (.memoryRead ⟨word, slot⟩ cls .bad 0) s = .next t ∧ t.mem = s.mem ∧ t.sent = s.sent ∧
      t.memc.retry = s.memc.retry ++ [(word, cls)]) ∧
    (s.memc.retry = [(word, cls)] →
      (Sparse.get false s.poison word = false → ∃ t, exec (.eccRetryRead ⟨word, slot⟩ .clean 0) s = .next t ∧ t.memc.retry = [] ∧ t.mem = s.mem ∧ t.poison = s.poison ∧
        t.sent.head? = some (.readData word (some (s.wordBytes word)))) ∧
      (Sparse.get false s.poison word = false → ∃ t, exec (.eccRetryRead ⟨word, slot⟩ .bad 0) s = .next t ∧ t.memc.retry = [] ∧ Sparse.get false t.poison word = true ∧
        (∀ a, t.mbyte a = if a / 64 = word then 0 else s.mbyte a) ∧ t.sent.head? = some (.readData word none)))

/-- The controllers' upkeep: the patrol reads the next word of its channel and moves on by one; a scrubbed channel of a dissolving province is freed and its words outside the reserve read 0; the end
of a row repair writes the granule back from its copy and releases its hold; a page walk keeps the page it finds; above 95 °C the bursts that a refresh takes are counted; a stack at
85 °C or more shows HOT in each of its channels, a cooler one does not. -/
def Obligations.MemoryUpkeep : Prop :=
  ∀ (s : State) (chan die p va granule stack taken : Nat) (g : Page) (r : RowFix) (x : Int),
    (chan < 384 → s.fld chan MEM_SCRUB_CTRL_PATROL_EN ≠ 0 → s.hasSlot chan 0 0 = true →
      ∃ t, exec (.patrolScrub chan .clean) s = .next t ∧ t.mem = s.mem ∧ Sparse.get 0 t.memc.patrol chan = (Sparse.get 0 s.memc.patrol chan + 1) % (chanSize / 64)) ∧
    (chan < 384 → s.fld chan MEM_STATUS_PROV ≠ 0 → (s.prov (s.fld chan MEM_STATUS_PROV)).st = .dissolving →
      ∃ t, exec (.channelScrubDone chan []) s = .next t ∧ t.fld chan MEM_STATUS_PROV = 0 ∧
        (∀ a, t.mbyte a = if a / chanSize = chan ∧ a % chanSize < chanUse then 0 else s.mbyte a)) ∧
    (s.errs.rows = [r] → r.granule = granule * 2048 →
      ∃ t, exec (.rowRepairDone granule) s = .next t ∧ t.errs.rows = [] ∧ t.fld (chanOf (granule * 2048)) MEM_STATUS_HOLD = 0 ∧
        t.mem = (s.copyGranule r.copy (granule * 2048)).mem ∧ t.poison = (s.copyGranule r.copy (granule * 2048)).poison) ∧
    (die < 12 → s.walk p va = some g → (s.walkWords p va).any (fun w => Sparse.get false s.poison w) = false → s.hasSlot ((s.prov p).chans.getD 0 0) 0 0 = true →
      Sparse.get [] s.memc.xlat (die * 256 + p) = [] → 0 < (s.prov p).xlatRoom die →
      ∃ t, exec (.pageWalk die p va false) s = .next t ∧ Sparse.get [] t.memc.xlat (die * 256 + p) = [g.va] ∧ t.mem = s.mem) ∧
    (chan < 384 → taken ≠ 0 → 950 < s.stackTemp (chan / 32) →
      exec (.refresh chan taken) s = .next (s.count { unit := srvChan chan, event := 0x46, n := taken, prov := s.fld chan MEM_STATUS_PROV })) ∧
    (stack < 12 → chan / 32 = stack → -400 ≤ x → x ≤ 1500 →
      ∃ t, exec (.stackTemperatureRead stack (some x)) s = .next t ∧ t.fld chan MEM_STATUS_HOT = (if 850 ≤ x then 1 else 0) ∧ t.stackTemp stack = x ∧ t.mem = s.mem)

/-! ## The Meridian -/

/-- FRAME_BOUNDARY is the clock's tick, then the end of the old frame for every province in order (a seal, a survey copy, its misdeals), then the repairs that wait for a boundary, then the writes that wait for a channel, then the new frame
for every province in order (operations, dealing, collectives); the tick raises the frame number by exactly one, or to the number of a forward step, and so never lowers it; with the
reset held nothing happens. -/
def Obligations.FrameNumbersAdvance : Prop :=
  ∀ (s a b : State) (held left : Nat),
    (s.inReset = false →
      a = (s.tick.provs.map Prod.fst).foldl (fun t p =>
        if ((t.stewardBoundary p).provSnap p).provLive p then ((t.stewardBoundary p).provSnap p).provEnd p held else (t.stewardBoundary p).provSnap p) s.tick →
      b = a.repairBoundary →
      exec (.frameBoundary held left) s = .next ((b.provs.map Prod.fst).foldl (fun t p => if t.provLive p then t.provBoundary p t.frame left else t) b.resendWrites)) ∧
    (s.inReset = true → exec (.frameBoundary held left) s = .next s) ∧
    (s.mer.jump = none → s.frame + 1 < 2 ^ 64 → s.tick.frame = s.frame + 1) ∧
    (∀ j, s.mer.jump = some j → s.frame + 1 < 2 ^ 64 → j < 2 ^ 64 → s.tick.frame = max j (s.frame + 1)) ∧
    (s.tick.mem = s.mem ∧ s.tick.tiles = s.tiles ∧ s.tick.provs = s.provs ∧ s.tick.hands = s.hands)

/-- An armed switch that reaches the start of frame S: PERIOD takes NEXT, MER_EPOCH the start time of S, MER_BASE_FRAME S, ARM is cleared, and the frame
number is S. -/
def Obligations.ArmedSwitchTakesEffect : Prop :=
  ∀ s : State, s.fld 0 MER_TICK_PERIOD_ARM = 1 → s.mer.jump = none → s.mer.boot = none → (s.reg 0 MER_SWITCH_FRAME).toNat = s.frame + 1 →
    4 ≤ s.fld 0 MER_TICK_PERIOD_NEXT → s.fld 0 MER_TICK_PERIOD_NEXT ≤ 256 →
    s.provs.any (fun e => e.2.st == .sealed_ || e.2.st == .running || e.2.st == .paused) = false → s.mer.time + s.frameLen < 2 ^ 64 →
    s.tick.fld 0 MER_TICK_PERIOD_PERIOD = s.fld 0 MER_TICK_PERIOD_NEXT ∧ (s.tick.reg 0 MER_EPOCH).toNat = s.mer.time + s.frameLen ∧
    s.tick.reg 0 MER_BASE_FRAME = s.reg 0 MER_SWITCH_FRAME ∧ s.tick.fld 0 MER_TICK_PERIOD_ARM = 0 ∧ s.tick.frame = s.frame + 1

/-- The switch is refused when NEXT lies outside 4–256, when S has already begun when ARM is set, or when a province is SEALED, RUNNING or PAUSED at the
start of S; a refused switch clears ARM, sets CFG_ERR and leaves the period, the epoch and the base frame; a switch that is not refused at arming sets ARM. -/
def Obligations.SwitchIsRefused : Prop :=
  ∀ s : State, s.inReset = false →
    ((s.fld 0 MER_TICK_PERIOD_NEXT < 4 ∨ 256 < s.fld 0 MER_TICK_PERIOD_NEXT ∨ (s.reg 0 MER_SWITCH_FRAME).toNat ≤ s.frame) →
      ∃ t, exec .merTickPeriodArm s = .next t ∧ t.fld 0 MER_TICK_PERIOD_ARM = 0 ∧ t.fld 0 MER_STATUS_CFG_ERR = 1 ∧
        t.fld 0 MER_TICK_PERIOD_PERIOD = s.fld 0 MER_TICK_PERIOD_PERIOD ∧ t.reg 0 MER_EPOCH = s.reg 0 MER_EPOCH ∧ t.reg 0 MER_BASE_FRAME = s.reg 0 MER_BASE_FRAME) ∧
    (4 ≤ s.fld 0 MER_TICK_PERIOD_NEXT → s.fld 0 MER_TICK_PERIOD_NEXT ≤ 256 → s.frame < (s.reg 0 MER_SWITCH_FRAME).toNat →
      ∃ t, exec .merTickPeriodArm s = .next t ∧ t.fld 0 MER_TICK_PERIOD_ARM = 1 ∧ t.fld 0 MER_STATUS_CFG_ERR = s.fld 0 MER_STATUS_CFG_ERR) ∧
    (s.fld 0 MER_TICK_PERIOD_ARM = 1 → s.mer.jump = none → s.mer.boot = none → (s.reg 0 MER_SWITCH_FRAME).toNat = s.frame + 1 → s.frame + 1 < 2 ^ 64 →
      (s.fld 0 MER_TICK_PERIOD_NEXT < 4 ∨ 256 < s.fld 0 MER_TICK_PERIOD_NEXT ∨
        s.provs.any (fun e => e.2.st == .sealed_ || e.2.st == .running || e.2.st == .paused) = true) →
      s.tick.fld 0 MER_TICK_PERIOD_ARM = 0 ∧ s.tick.fld 0 MER_STATUS_CFG_ERR = 1 ∧ s.tick.fld 0 MER_TICK_PERIOD_PERIOD = s.fld 0 MER_TICK_PERIOD_PERIOD ∧
        s.tick.reg 0 MER_EPOCH = s.reg 0 MER_EPOCH ∧ s.tick.reg 0 MER_BASE_FRAME = s.reg 0 MER_BASE_FRAME)

/-- The Meridian's states by the offsets of PTP: FREE goes to LOCKED at |e| ≤ 100 ns and to DRIFT beyond it, LOCKED to DRIFT beyond 100 ns, HOLDOVER to DRIFT, DRIFT to LOCKED at the eighth
offset in a row within 80 ns; lost synchronisation makes LOCKED and DRIFT HOLDOVER, and the holdover limit makes it FREE with offset 0. An accepted PPS edge sets PPS_PRESENT, one too early
or too late PPS_FAULT alone; PPS lost for long falls back to PTP, or to HOLDOVER without it. PPS_OUT follows its pulses in mode 1 and stays low in mode 0. A boundary clock sends
Sync on its other ports. -/
def Obligations.MeridianStates : Prop :=
  ∀ (s : State) (e : Int) (dt n time port : Nat),
    (s.fld 0 MER_PTP_CTRL_ENABLE = 1 → s.ppsRef = false → s.mer.locked = true → s.ptpFrame time = some n →
      (s.fld 0 MER_STATUS_STATE = MER_S_FREE → e.natAbs ≤ 100 → ∃ t, exec (.ptpSyncReceived e time) s = .next t ∧ t.fld 0 MER_STATUS_STATE = MER_S_LOCKED) ∧
      (s.fld 0 MER_STATUS_STATE = MER_S_FREE ∨ s.fld 0 MER_STATUS_STATE = MER_S_LOCKED → 100 < e.natAbs →
        ∃ t, exec (.ptpSyncReceived e time) s = .next t ∧ t.fld 0 MER_STATUS_STATE = MER_S_DRIFT ∧ t.fld 0 MER_STATUS_DRIFT_SEEN = 1) ∧
      (s.fld 0 MER_STATUS_STATE = MER_S_HOLDOVER →
        ∃ t, exec (.ptpSyncReceived e time) s = .next t ∧ t.fld 0 MER_STATUS_STATE = MER_S_DRIFT ∧ t.fld 0 MER_STATUS_DRIFT_SEEN = 1) ∧
      (s.fld 0 MER_STATUS_STATE = MER_S_DRIFT → e.natAbs ≤ 80 → s.mer.good = 7 →
        ∃ t, exec (.ptpSyncReceived e time) s = .next t ∧ t.fld 0 MER_STATUS_STATE = MER_S_LOCKED)) ∧
    (s.ppsRef = false → (s.fld 0 MER_STATUS_STATE = MER_S_LOCKED ∨ s.fld 0 MER_STATUS_STATE = MER_S_DRIFT) →
      ∃ t, exec .syncLossTimeout s = .next t ∧ t.fld 0 MER_STATUS_STATE = MER_S_HOLDOVER ∧ t.fld 0 MER_STATUS_HOLDOVER_SEEN = 1) ∧
    (s.fld 0 MER_STATUS_STATE = MER_S_HOLDOVER → ∃ t, exec .holdoverLimit s = .next t ∧ t.fld 0 MER_STATUS_STATE = MER_S_FREE ∧ t.fld 0 MER_STATUS_FREE_SEEN = 1 ∧
        t.fld 0 MER_OFFSET_OFFSET = 0) ∧
    (s.fld 0 MER_PPS_CTRL_IN_EN = 1 → s.fld 0 MER_PPS_CTRL_IN_EDGE = 0 → s.mer.ppsLast = true →
      (999900000 ≤ dt → dt ≤ 1000100000 → ∃ t, exec (.ppsInEdge false dt e) s = .next t ∧ t.fld 0 MER_STATUS_PPS_PRESENT = 1 ∧
        t.fld 0 MER_STATUS_PPS_FAULT = s.fld 0 MER_STATUS_PPS_FAULT) ∧
      (dt < 999900000 ∨ 1000100000 < dt → ∃ t, exec (.ppsInEdge false dt e) s = .next t ∧ t.fld 0 MER_STATUS_PPS_FAULT = 1 ∧
        t.fld 0 MER_STATUS_PPS_PRESENT = s.fld 0 MER_STATUS_PPS_PRESENT ∧ t.fld 0 MER_STATUS_STATE = s.fld 0 MER_STATUS_STATE)) ∧
    (s.fld 0 MER_STATUS_PPS_PRESENT = 1 → s.fld 0 MER_STATUS_STATE = MER_S_LOCKED →
      (s.fld 0 MER_PTP_CTRL_ENABLE = 0 → ∃ t, exec .ppsInTimeout s = .next t ∧ t.fld 0 MER_STATUS_PPS_PRESENT = 0 ∧ t.fld 0 MER_STATUS_STATE = MER_S_HOLDOVER) ∧
      (s.fld 0 MER_PTP_CTRL_ENABLE ≠ 0 → ∃ t, exec .ppsInTimeout s = .next t ∧ t.fld 0 MER_STATUS_PPS_PRESENT = 0 ∧ t.fld 0 MER_STATUS_STATE = MER_S_LOCKED)) ∧
    (s.inReset = false → (s.fld 0 MER_PPS_CTRL_OUT_MODE = 1 → ∃ t, exec (.ppsOutPulse true) s = .next t ∧ t.mer.ppsOut = true ∧ t.regs = s.regs) ∧
      (s.fld 0 MER_PPS_CTRL_OUT_MODE = 0 → ∃ t, exec (.ppsOutPulse true) s = .next t ∧ t.mer.ppsOut = false ∧ t.regs = s.regs) ∧
      (∃ t, exec (.ppsOutPulse false) s = .next t ∧ t.mer.ppsOut = false ∧ t.regs = s.regs)) ∧
    (s.fld 0 MER_PTP_CTRL_ENABLE = 1 → s.fld 0 MER_PTP_CTRL_ROLE = 2 → port < 64 → port ≠ s.fld 0 MER_PTP_CTRL_SRC_PORT → s.portLanes port ≠ 0 →
      s.fld port ETH_PORT_CTRL_EN = 1 → s.fld port ETH_PORT_CTRL_PTP_EN = 1 → exec (.ptpSyncTransmit port) s = .next (s.emit (.ptp port (s.fld 0 MER_PTP_CTRL_ONE_STEP == 1 && s.fld port ETH_PORT_CTRL_MACSEC_EN == 0))))

/-! ## Operations at named frames -/

/-- A child's request for a barrier or a broadcast is noted at its instance; one for another operation goes up to the parent, or, at rank 0, is announced. An announcement is kept with its
frame and sent to every child; one of a frame that has begun is marked late, counts in LATE and is reported to the parent. A child's cut report is noted; when this rank's cut is
done and the last child has reported, the report goes up, or at rank 0 the snapshot is complete; a late report ends the cut and goes up, or at rank 0 RESUME is announced. -/
def Obligations.NamedFrameOperations : Prop :=
  ∀ (s u : State) (p child f : Nat) (g : GInst) (b : List Byte) (op : GlobOp) (c : Cut) (rs : List Nat),
    (s.stw.restarting = false → (s.prov p).st ≠ .none_ → (s.children p).contains child = true →
      (u = s.take p child (.request (.barrier g)) →
        exec (.globalRequestArrive p child (.barrier g)) s = .next (u.gsyncUp p { ((s.prov p).gsyncOf g false) with
          children := if ((s.prov p).gsyncOf g false).children.contains child then ((s.prov p).gsyncOf g false).children
            else ((s.prov p).gsyncOf g false).children ++ [child] })) ∧
      (u = s.take p child (.request (.broadcast g b)) →
        exec (.globalRequestArrive p child (.broadcast g b)) s = .next (u.gsyncUp p { ((s.prov p).gsyncOf g true) with
          children := if ((s.prov p).gsyncOf g true).children.contains child then ((s.prov p).gsyncOf g true).children
            else ((s.prov p).gsyncOf g true).children ++ [child] })) ∧
      (op = .snapshot ∨ op = .reset ∨ op = .pause ∨ op = .resume → s.rank p = 0 →
        ∃ t, exec (.globalRequestArrive p child op) s = .next t ∧ (t.prov p).anns.map Ann.op = (s.prov p).anns.map Ann.op ++ [op] ∧
          (∀ a ∈ (t.prov p).anns.drop (s.prov p).anns.length, s.frame < a.frame ∧ a.late = false ∧ ∀ k ∈ s.children p, .announce p k op a.frame ∈ t.sent) ∧ t.mem = s.mem) ∧
      (op = .snapshot ∨ op = .reset ∨ op = .pause ∨ op = .resume → s.rank p ≠ 0 →
        ∃ t, exec (.globalRequestArrive p child op) s = .next t ∧ t.sent = .request p ((s.rank p - 1) / s.fanin p) op :: s.sent ∧ t.provs = s.provs ∧ t.mem = s.mem)) ∧
    (s.stw.restarting = false → (s.prov p).st ≠ .none_ → s.rank p ≠ 0 →
      (s.frame < f → ∃ t, exec (.announcementReceived p op f) s = .next t ∧ (t.prov p).anns = (s.prov p).anns ++ [⟨op, f, false⟩] ∧
        (∀ k ∈ s.children p, .announce p k op f ∈ t.sent) ∧ t.fld 0 MER_GLOB_CTRL_LATE = s.fld 0 MER_GLOB_CTRL_LATE ∧ t.mem = s.mem) ∧
      (f ≤ s.frame → ∃ t, exec (.announcementReceived p op f) s = .next t ∧ (t.prov p).anns = (s.prov p).anns ++ [⟨op, f, true⟩] ∧
        (∀ k ∈ s.children p, .announce p k op f ∈ t.sent) ∧ t.sent.head? = some (.lateReport p ((s.rank p - 1) / s.fanin p) op f) ∧
        t.fld 0 MER_GLOB_CTRL_LATE = (s.incFld 0 MER_GLOB_CTRL_LATE 1).fld 0 MER_GLOB_CTRL_LATE ∧ t.mem = s.mem)) ∧
    (s.stw.restarting = false → (s.children p).contains child = true → (s.prov p).cut = some c →
      (rs = (if c.reports.contains child then c.reports else c.reports ++ [child]) →
        (c.own = false ∨ c.reported = true ∨ (s.children p).all (fun r => rs.contains r) = false →
          ∃ t, exec (.snapshotCutReport p child false) s = .next t ∧ (t.prov p).cut = some { c with reports := rs } ∧ t.sent = s.sent ∧ t.mem = s.mem) ∧
        (c.own = true → c.reported = false → (s.children p).all (fun r => rs.contains r) = true →
          ∃ t, exec (.snapshotCutReport p child false) s = .next t ∧
            (t.prov p).cut = some { c with reports := rs, reported := true, complete := c.complete || s.rank p == 0 } ∧
            (if s.rank p = 0 then Emit.snapshotDone p c.frame else .cutReport p ((s.rank p - 1) / s.fanin p) c.frame false) ∈ t.sent ∧ t.mem = s.mem)) ∧
      (s.rank p ≠ 0 → ∃ t, exec (.snapshotCutReport p child true) s = .next t ∧ (t.prov p).cut = none ∧
        t.sent.head? = some (.cutReport p ((s.rank p - 1) / s.fanin p) c.frame true) ∧ t.mem = s.mem) ∧
      (s.rank p = 0 → ∃ t, exec (.snapshotCutReport p child true) s = .next t ∧ (t.prov p).cut = none ∧
        (t.prov p).anns.map Ann.op = (s.prov p).anns.map Ann.op ++ [.resume] ∧ t.mem = s.mem))

/-! ## Registers and the Survey -/

/-- The steward's register write takes effect by the register's access codes, and reaches memory where no register lies; a function's write takes effect where the host may write and changes
nothing else, a MER_ write of a function raises a record; a read of MER_GLOB_CTRL returns it and clears LATE; a 32-bit read by a function takes the latch where one waits at its offset,
and else returns the register's low half and latches the high half. -/
def Obligations.RegisterAccesses : Prop :=
  ∀ (s : State) (addr n value fn off v lo : Nat) (r q : RegAt) (d : RegDef), n = 4 ∨ n = 8 → s.inReset = false →
    (dpaReg addr = some r → s.provAbsent r = false →
      exec (.registerWrite .steward addr n value) s = .next (s.writeAt r n value).ppsSettle) ∧
    (dpaReg addr = none → exec (.registerWrite .steward addr n value) s = .next (s.stewardMem addr n value)) ∧
    (s.barReg fn addr = some r → r.block = .mer →
      exec (.registerWrite (.fn fn) addr n value) s = .next (s.raise { cause := MER_WRITE, die := 12, addr := r.off, detail0 := fn })) ∧
    (s.barReg fn addr = some r → r.block ≠ .mer → exec (.registerWrite (.fn fn) addr n value) s = .next (if r.hostWrites then s.writeAt r n value else s)) ∧
    (∃ t, exec (.merGlobLateRead .steward) s = .next t ∧ t.fld 0 MER_GLOB_CTRL_LATE = 0 ∧
      t.sent.head? = some (.regRead .steward (s.readAt ⟨.mer, 0, 0x3C⟩ 4)) ∧ t.mem = s.mem) ∧
    (fn < 256 → (s.fn fn).latch = some (off, v) →
      ∃ t, exec (.halfReadLatch fn off) s = .next t ∧ (t.fn fn).latch = none ∧ t.sent.head? = some (.regRead (.fn fn) v) ∧ t.regs = s.regs) ∧
    (fn < 256 → (s.fn fn).latch = none → s.barReg fn off = some r →
      (r.hostReads = true → r.locate 8 = some (d, q, lo) → ∃ t, exec (.halfReadLatch fn off) s = .next t ∧ t.sent.head? = some (.regRead (.fn fn) (s.readAt r 4)) ∧
        (t.fn fn).latch = some (off + 4, bits (d.show (s.liveWord q)) 32 32) ∧ t.mem = s.mem) ∧
      (r.hostReads = false → exec (.halfReadLatch fn off) s = .next (s.emit (.regRead (.fn fn) 0))))

/-- A write of an SRV_CFG word sets its counter to 0 and takes the event; one that names another unit's event leaves EVENT and sets CFG_ERR; SNAP copies the unit's counters; a province's SNAP
is kept for the boundary; a timed counter's half-range bit, fixed or programmable, is set and the steward is told. -/
def Obligations.SurveyCounters : Prop :=
  ∀ (s : State) (addr value i unit : Nat) (r : RegAt),
    (dpaReg addr = some r → r.block = .srv → r.off = 0x200 + 8 * i → i < 8 → i < srvProgs r.unit →
      (bits value 0 8 = 0 ∨ (srvRange r.unit).1 ≤ bits value 0 8 ∧ bits value 0 8 ≤ (srvRange r.unit).2 →
        ∃ t, exec (.srvCfgWrite .steward addr value) s = .next t ∧ t.fld r.unit (SRV_CNT_COUNT i) = 0 ∧ t.fld r.unit (SRV_CFG_EVENT i) = bits value 0 8 ∧
          t.fld r.unit SRV_STATUS_CFG_ERR = s.fld r.unit SRV_STATUS_CFG_ERR) ∧
      (bits value 0 8 ≠ 0 → bits value 0 8 < (srvRange r.unit).1 ∨ (srvRange r.unit).2 < bits value 0 8 →
        ∃ t, exec (.srvCfgWrite .steward addr value) s = .next t ∧ t.fld r.unit (SRV_CNT_COUNT i) = 0 ∧ t.fld r.unit (SRV_CFG_EVENT i) = s.fld r.unit (SRV_CFG_EVENT i) ∧
          t.fld r.unit SRV_STATUS_CFG_ERR = 1)) ∧
    (dpaReg addr = some r → r.block = .srv → r.off = 0x328 → bitAt value 0 = true →
      exec (.srvSnap .steward addr value) s = .next ((s.writeAt r 4 value).srvCopy r.unit)) ∧
    (dpaReg addr = some r → r.block = .prov → r.off = 0x248 → bitAt value 0 = true → s.provAbsent r = false →
      ∃ t, exec (.provSrvSnap .steward addr value) s = .next t ∧ (t.prov r.unit).snapReq = true ∧ t.regs = s.regs) ∧
    (unit ≤ srvProv 255 → i < (srvFixed unit).length → srvTimed (s.counterEvent unit i) = true →
      ∃ t, exec (.counterHalfRange unit i) s = .next t ∧ bitAt (t.fld unit SRV_HALF_FIX) i = true ∧ t.sent.head? = some (.stewardIrq unit)) ∧
    (unit ≤ srvProv 255 → i < srvProgs unit → srvTimed (s.counterEvent unit (8 + i)) = true →
      ∃ t, exec (.counterHalfRange unit (8 + i)) s = .next t ∧ bitAt (t.fld unit SRV_HALF_CNT) i = true ∧ t.sent.head? = some (.stewardIrq unit))

/-- A sample joins its tile's buffer of eight, or is lost and counted when the buffer is full; a die's collector moves the samples of its tiles to their provinces' rings, oldest first;
tagging is armed where it is allowed and denied elsewhere; a tagged instruction's record names its trick and word. -/
def Obligations.SurveySamplesAndTags : Prop :=
  ∀ (s : State) (tile seat skid die addr value trick pc insn : Nat) (r : RegAt), tile < 4224 →
    (s.fld tile SRV_SAMP_EN = 1 → seat < 8 → skid ≤ 16 → (s.tile tile).samples.length < 8 →
      ∃ t, exec (.skidSample tile (some seat) skid) s = .next t ∧
        (t.tile tile).samples = (s.tile tile).samples ++ [s.sampleRec tile (some seat) skid (s.freeVal.1.toNat / 2 ^ 32)] ∧ t.mem = s.mem) ∧
    (s.fld tile SRV_SAMP_EN = 1 → seat < 8 → skid ≤ 16 → 8 ≤ (s.tile tile).samples.length →
      ∃ t, exec (.skidSample tile (some seat) skid) s = .next t ∧ (t.tile tile).samples = (s.tile tile).samples ∧ (t.tile tile).sampleLost = true ∧
        t.fld tile SRV_STATUS_LOST = (s.incFld tile SRV_STATUS_LOST 1).fld tile SRV_STATUS_LOST) ∧
    (tile / 528 = die → (∀ k < 528, die * 528 + k ≠ tile → (s.tile (die * 528 + k)).samples = []) → (s.tile tile).samples ≠ [] → (s.tile tile).samples.length ≤ 128 →
      exec (.sampleRingMove die) s = .next ((s.tile tile).samples.foldl (fun u x => u.ringPut (s.ownerOfTile tile) x) (s.setTile tile { (s.tile tile) with samples := [] }))) ∧
    (dpaReg addr = some r → r.block = .srv → r.off = 0x318 → r.unit < 4224 → bitAt value 0 = true → s.tagAllowed r.unit = true →
      ∃ t n, exec (.srvTagEnable .steward addr value) s = .next t ∧ (t.tile r.unit).tag = .armed n) ∧
    (dpaReg addr = some r → r.block = .srv → r.off = 0x318 → r.unit < 4224 → bitAt value 0 = true → s.tagAllowed r.unit = false →
      ∃ t, exec (.srvTagEnable .steward addr value) s = .next t ∧ t.fld r.unit SRV_STATUS_DENIED = 1 ∧ t.tiles = s.tiles) ∧
    ((s.tile tile).tag = .held trick pc seat insn → insn < 2 ^ 64 →
      ∃ t, exec (.tagRecordDone tile true) s = .next t ∧ (t.tile tile).tag = .off ∧ t.fld tile SRV_TAG_DONE = 1 ∧
        (t.reg tile (SRV_TAGREC 1)).toNat = insn ∧ bits (t.reg tile (SRV_TAGREC 0)).toNat 0 32 = trick % 2 ^ 32)

/-! ## Steps and collectives -/

/-- A REDUCED step whose verdict is good becomes VERIFIED and is logged; with any other verdict the verdict is stored and the step is skipped. LEDGER_COMMIT, for a VERIFIED step whose commit
frames are over, appends the ledger's records and sums the saturation counts. STEP_COMMITTED, once the ledger commit is made, or, without a LEDGER section, once the commit frames are
over, makes the step COMMITTED and returns CONSEC to 0. -/
def Obligations.StepsAreDecidedAndCommitted : Prop :=
  ∀ (s : State) (p : Nat) (b : List Byte),
    ((s.prov p).verdict = some b → s.stepState p = ST_REDUCED →
      ((Verd.of b).ok (s.stepNo p) (s.nranks p) = true →
        ∃ t, exec (.verdictResult p) s = .next t ∧ t.stepState p = ST_VERIFIED ∧ (t.prov p).verdict = none ∧ (t.prov p).logSeq = (s.prov p).logSeq + 1) ∧
      ((Verd.of b).ok (s.stepNo p) (s.nranks p) = false →
        exec (.verdictResult p) s = .next (((s.setProv p { (s.prov p) with verdict := none }).rput p (s.img p).verdictBase b).skipStep p (Verd.of b)))) ∧
    (s.stw.restarting = false → (s.prov p).loaded = true → (s.img p).hasLedger = true → s.stepState p = ST_VERIFIED → (s.prov p).ledgerDone = false →
      (s.prov p).ledgerStop = false → s.commitOver p = true → ((s.commitRecs p (s.img p).nrec 0).prov p).ledgerStop = false →
      exec (.ledgerCommit p) s = .next ((s.commitRecs p (s.img p).nrec 0).sumSat p)) ∧
    ((s.prov p).loaded = true → s.stepState p = ST_VERIFIED →
      ((s.img p).hasLedger = true → (s.prov p).ledgerDone = true → exec (.stepCommitted p) s = .next (((s.commitStep p).stepLogDone p).wakeWaits p)) ∧
      ((s.img p).hasLedger = false → s.commitOver p = true → exec (.stepCommitted p) s = .next ((s.commitStep p).wakeWaits p))) ∧
    ((s.commitStep p).stepState p = ST_COMMITTED ∧ (s.commitStep p).fld p PROV_STEP_STATE_CONSEC = 0 ∧ ((s.commitStep p).prov p).committed = some (s.stepNo p) ∧
      (s.commitStep p).mem = s.mem)

/-- A data segment, or a check record, of a running province is acknowledged and goes to its collective; a verdict result for another step is dropped. The acknowledgement of a segment takes it off
its collective's open messages, and, where it went down a copy tree, moves the child's window on; that of a patch takes it off the patch. A collective whose work is over and
whose messages are acknowledged, once no write of its province waits for a channel, completes: it leaves the province, and its put is made. -/
def Obligations.CollectiveMessages : Prop :=
  ∀ (s u : State) (p src ord n : Nat) (m : SegMsg) (c : Coll) (d : CollDesc),
    (u = (s.take p src (.seg m)).ackSeg p src m →
      (m.kind = 0 → exec (.segmentReceived p src m) s = .next (u.route p src m (fun o => (u.deliver p o src m).recheck p o))) ∧
      (m.kind = 2 → s.fromParent p src m = true → m.step ≠ (s.reg p PROV_STEP).toNat → m.repoch = s.fld p PROV_EPOCH_EPOCH →
        exec (.segmentReceived p src m) s = .next ((s.take p src (.seg m)).segDrop p m)) ∧
      (m.kind = 1 → exec (.checkRecordReceived p src m) s = .next (u.route p src m (fun o => u.deliverCheck p o src m))) ∧
      (m.repoch = s.fld p PROV_EPOCH_EPOCH → (s.prov p).st ≠ .none_ →
        u.sent.head? = some (.segment p src (s.segMsg p 3 m.ord m.seg 0 false false [])) ∧ u.mem = s.mem)) ∧
    (u = s.take p src (.seg m) → m.kind = 3 → m.repoch = s.fld p PROV_EPOCH_EPOCH →
      (s.patchWaits p src m = true → exec (.segmentAckReceived p src m) s = .next ((u.ackPatch p src m).cutOwn p)) ∧
      (s.patchWaits p src m = false → s.ackedColl p src m = some c → d = (s.img p).coll c.idx →
        exec (.segmentAckReceived p src m) s = .next (((u.updColl p c.order (fun x => { x with
          unacked := dropFirst (s.gidx p d src) m.seg x.unacked,
          kids := x.kids.map (fun k => if ((findUnacked (s.gidx p d src) m.seg c.unacked).map Unacked.copy).getD false = true ∧ k.rank = s.gidx p d src ∧
            x.copies.any (fun y => y.seg == m.seg && y.shard == k.shard) ∧ k.acked < k.sent then { k with acked := k.acked + 1, atLimit := 0 } else k) })).pump p c.order d).cutOwn p))) ∧
    ((s.prov p).colls.find? (fun x => x.started && ((s.img p).coll x.idx).ord == ord) = some c → d = (s.img p).coll c.idx → c.stopped = false → c.need = 0 →
      c.sums.all SegNode.done = true → c.checks.all CheckNode.done = true → c.unacked = [] → c.waiting = false →
      (s.prov p).patches.any (fun x => x.ord == ord && x.step == c.step) = false → (d.op = 8 → (s.prov p).verdict = none) →
      s.memc.waits.any (fun x => x.prov == p && x.cls == 2) = false →
      (d.put = false → ∃ t, exec (.collectiveComplete p ord) s = .next t ∧ (t.prov p).colls = (s.prov p).colls.filter (fun x => x.order != c.order) ∧ t.talons = s.talons ∧
        t.mem = s.mem) ∧
      (d.put = true → s.talonOf p d.talon = some n → (s.talon n).handles.length < 1024 → (s.talon n).putWait = [] →
        ∃ t, exec (.collectiveComplete p ord) s = .next t ∧ (t.prov p).colls = (s.prov p).colls.filter (fun x => x.order != c.order) ∧
          (t.talon n).handles = (s.talon n).handles ++ [d.handle] ∧ t.mem = s.mem))

/-- In a copying collective with MC, a child that has spent EXCL frames at the limit is excluded on every tree, its own children are adopted where it stood (below a child that is excluded already, that one's children in turn, and it stays excluded), what it has not acknowledged is
no longer waited for, and EXCL counts it; a rank that is itself excluded stops when PATCH_EN is 0. PATCH, at the root, sends an excluded rank the segments it asks for and
leaves them open. -/
def Obligations.ExclusionAndPatch : Prop :=
  ∀ (s u : State) (p ord child rank x step i : Nat) (segs out : List Nat) (c : Coll) (d : CollDesc) (adopted : List Kid),
    ((s.prov p).colls.find? (fun y => y.started && ((s.img p).coll y.idx).ord == ord) = some c → d = (s.img p).coll c.idx → d.mc = true → d.sums = false → x = s.gidx p d child →
      (x ≠ s.gr p d → s.fld 0 RDE_MC_CTRL_EXCL ≠ 0 →
        c.kids.any (fun k => k.rank == x && !k.excluded && decide (s.fld 0 RDE_MC_CTRL_EXCL ≤ k.atLimit)) = true →
        out = x :: (c.kids.filter Kid.excluded).map Kid.rank →
        adopted = (c.kids.filter (fun k => k.rank == x && !k.excluded)).flatMap (fun k => match (d.shards (s.gn p d))[k.shard]? with
          | some h => d.adopt (s.gn p d) h out k.acked (s.gn p d) x
          | none => []) →
        u = (s.updColl p c.order (fun y => { y with
          kids := y.kids.map (fun k => if k.rank = x then { k with excluded := true } else k) ++ adopted
          unacked := y.unacked.filter (fun a => a.dest != x || !a.copy) })).incFld 0 (RDE_PEVT_EXCL p) 1 →
        exec (.childExcluded p ord child) s = .next (u.pump p c.order d)) ∧
      (x = s.gr p d → s.fld 0 RDE_MC_CTRL_PATCH_EN = 0 → c.need ≠ 0 →
        exec (.childExcluded p ord child) s = .next (s.stopColl p c.order { cause := MC_EXCLUDED, die := 12, prov := p, aux := ord })) ∧
      (x = s.gr p d → s.fld 0 RDE_MC_CTRL_PATCH_EN ≠ 0 → exec (.childExcluded p ord child) s = .next s)) ∧
    (s.patchColl p ord = some (i, step) → d = (s.img p).coll i → s.fld 0 RDE_MC_CTRL_PATCH_EN ≠ 0 → d.mc = true → d.copies = true → d.sums = false → s.patchSegs p d segs ≠ [] →
      (∀ y ∈ s.patchSegs p d segs, s.vpoison p (s.segSrc p d y.2.1 y.2.2).1 (s.segSrc p d y.2.1 y.2.2).2 = false) →
      ∃ t, exec (.patch p ord rank segs) s = .next t ∧ t = s.sendPatch p ord rank step d segs ∧
        (t.prov p).patches = (s.prov p).patches ++ [⟨ord, step, rank, (s.patchSegs p d segs).map Prod.fst, s.sendStopped p⟩] ∧ t.mem = s.mem)

/-! ## Ethernet -/

/-- What R442 to R444 make of a frame that an up port receives with no PCS error. Its octets and its size class are counted first. A frame of a valid length with a bad FCS counts CRC_ERR;
one with a good FCS and fewer than 64 bytes counts as a runt; a MAC control frame of a valid length meets the pause rules; one whose destination passes no filter is dropped by the
filter. A frame of a valid length that passes the filters of destination and tag, with MACsec off or out of a secure channel and within its replay window, goes on by its
type: an Ndeyx frame, by EtherType or UDP port, that R477 does not refuse takes its place in the receive buffer where its province's part has room for it, and is
dropped and counted otherwise. -/
def Obligations.ReceivedFramesAreClassified : Prop :=
  ∀ (s u v : State) (port : Nat) (f : EthFrame), port < 64 → s.portUp port = true → f.pcs = false →
    u = (match sizeBucket f.len with | some i => (s.ethStat port 2 f.len).ethStat port (17 + i) 1 | none => s.ethStat port 2 f.len) → v = u.noteMsec port f →
    (f.fcsOk = false → 64 ≤ f.len → f.len ≤ s.fld port ETH_PORT_CTRL_MAXFRAME →
      exec (.ethernetFrameReceived port f) s = .next (u.ethStat port 27 1) ∧ (u.ethStat port 27 1).mem = s.mem ∧
        ((u.ethStat port 27 1).port port).rxbuf = (s.port port).rxbuf) ∧
    (f.fcsOk = true → f.len < 64 →
      exec (.ethernetFrameReceived port f) s = .next (u.ethStat port 28 1) ∧ (u.ethStat port 28 1).mem = s.mem ∧
        ((u.ethStat port 28 1).port port).rxbuf = (s.port port).rxbuf) ∧
    (f.fcsOk = true → 64 ≤ f.len → f.len ≤ s.fld port ETH_PORT_CTRL_MAXFRAME →
      (f.dst = 0x0180C2000001 → f.etype = 0x8808 → exec (.ethernetFrameReceived port f) s = .next (u.pauseIn port f)) ∧
      (f.etype ≠ 0x8808 → u.dstOk port f.dst = false → exec (.ethernetFrameReceived port f) s = .next (u.rxFilter port f)) ∧
      (f.etype ≠ 0x8808 → u.dstOk port f.dst = true → f.tags.length ≤ 1 → (∀ x ∈ f.tags, x % 4096 = 0 ∨ x % 4096 = s.fld port ETH_PORT_CTRL_VID) →
        (s.fld port ETH_PORT_CTRL_MACSEC_EN ≠ 1 ∨ (s.fld 0 (NDX_MSEC_CTRL_SECURE port) = 1 ∧ f.macsec = true ∧
          (s.port port).mrx ≤ f.mpn + s.fld 0 (NDX_MSEC_CTRL_REPLAY_WIN port))) →
        (f.etype = s.fld 0 NDX_CTRL_ETHERTYPE ∨ f.udp = some (s.fld 0 NDX_CTRL_UDP_PORT)) → f.refused = false →
        (v.rxUsed port f.prov + f.len ≤ v.rxPart port f.prov →
          ∃ t, exec (.ethernetFrameReceived port f) s = .next t ∧ t = v.rxNdeyx port f ∧ (t.port port).rxbuf = (s.port port).rxbuf ++ [(f.prov, f.len)] ∧ t.mem = s.mem) ∧
        (v.rxPart port f.prov < v.rxUsed port f.prov + f.len → exec (.ethernetFrameReceived port f) s = .next (v.ethStat port 34 1))))

/-- The end of a hold lets its priority go. While a priority is held off, XOFF_REPEAT sends the frame again, with PAUSE_TIME quanta where the mode lets the port hold it off;
XON_SEND, once the owner's frames have fallen to the XON level, lets it go and clears its bit. A held priority in a storm is let go and shown in STORM; one
held off for too long is no longer held off and shown in STUCK; the end of a recovery ends the oldest one of its priority, and clears that one's bit alone. In mode 1, where a pause
holds all traffic, one frame speaks for every priority that is held off. -/
def Obligations.PauseAndPriorityFlowControl : Prop :=
  ∀ (s : State) (port pri : Nat), port < 64 → pri < 8 →
    (∃ t, exec (.pauseHoldExpire port pri) s = .next t ∧ t.fld port ETH_PFC_STATUS_TX_HELD = without (s.fld port ETH_PFC_STATUS_TX_HELD) (2 ^ pri) ∧ t.mem = s.mem) ∧
    (bitAt (s.fld port ETH_PFC_STATUS_XOFF) pri = true → s.fld port ETH_PORT_STATUS_SINGLE = 1 → exec (.xoffRepeat port pri) s = .next (s.sendPause port (s.priMask port pri) true) ∧
      (s.priMask port pri &&& s.pausePris port ≠ 0 → (s.sendPause port (s.priMask port pri) true).sent.head? =
        some (.pause port (s.fld port ETH_PORT_CTRL_PAUSE_MODE == 2) (s.priMask port pri &&& s.pausePris port) (s.fld port ETH_PFC_CTRL_PAUSE_TIME)))) ∧
    (s.fld port ETH_PORT_STATUS_SINGLE ≠ 1 → exec (.xoffRepeat port pri) s = .next s) ∧
    s.priMask port pri = (if s.fld port ETH_PORT_CTRL_PAUSE_MODE = 1 then s.fld port ETH_PFC_STATUS_XOFF else 2 ^ pri) ∧
    (bitAt (s.fld port ETH_PFC_STATUS_XOFF) pri = true →
      s.rxUsed port (s.fld port ETH_PORT_STATUS_OWNER) ≤ s.fld port ETH_PFC_CTRL_XON_KIB * 1024 * s.portLanes port →
      ∃ t, exec (.xonSend port pri) s = .next t ∧ t.fld port ETH_PFC_STATUS_XOFF = without (s.fld port ETH_PFC_STATUS_XOFF) (s.priMask port pri) ∧
        (s.priMask port pri &&& s.pausePris port ≠ 0 →
          t.sent.head? = some (.pause port (s.fld port ETH_PORT_CTRL_PAUSE_MODE == 2) (s.priMask port pri &&& s.pausePris port) 0))) ∧
    (bitAt (s.fld port ETH_PFC_STATUS_TX_HELD) pri = true →
      ∃ t, exec (.pfcStorm port pri) s = .next t ∧ bitAt (t.fld port ETH_PFC_STATUS_STORM) pri = true ∧ bitAt (t.fld port ETH_PFC_STATUS_TX_HELD) pri = false) ∧
    (bitAt (s.fld port ETH_PFC_STATUS_XOFF) pri = true →
      ∃ t, exec (.pfcStuck port pri) s = .next t ∧ bitAt (t.fld port ETH_PFC_STATUS_STUCK) pri = true ∧ bitAt (t.fld port ETH_PFC_STATUS_XOFF) pri = false) ∧
    (∀ stuck : Bool, (s.port port).recov.find? (fun x => x.1 == pri) = some (pri, stuck) →
      ∃ t, exec (.pfcRecoveryEnd port pri) s = .next t ∧ (t.port port).recov = (s.port port).recov.erase (pri, stuck) ∧
        bitAt (t.fld port ETH_PFC_STATUS_STORM) pri = (bitAt (s.fld port ETH_PFC_STATUS_STORM) pri && stuck) ∧
        bitAt (t.fld port ETH_PFC_STATUS_STUCK) pri = (bitAt (s.fld port ETH_PFC_STATUS_STUCK) pri && !stuck))

/-- A frame that its link may send starts on an active port that sends nothing, in a run of slots of its owner that is long enough, when CUR bytes or the whole of it are
present; in a slot of another owner it does not start, and a control packet of a province's link is the steward's. An underrun ends the frame with the error code, raises CUR by 256, at most to 9,216, and returns CLEAN to 0; a whole
frame's end counts it and its octets. -/
def Obligations.TransmissionFollowsTheSlots : Prop :=
  ∀ (s u : State) (port slot len present pri kind : Nat) (what : TxWhat) (r : TxRun), port < 64 →
    (s.portUp port = true → s.fld port ETH_PORT_STATUS_POWER = PW_ACTIVE → (s.port port).run = none → s.fld 0 TST_STATUS_FATAL = 0 →
      bitAt (s.fld port ETH_PFC_STATUS_TX_HELD) (s.framePri port what pri) = false →
      (s.fld port ETH_PORT_CTRL_MACSEC_EN ≠ 1 ∨ s.fld 0 (NDX_MSEC_CTRL_SECURE port) ≠ 0 ∨ what = .eapol) → 64 ≤ len →
      len ≤ s.fld port ETH_PORT_CTRL_MAXFRAME → min len (s.fld port ETH_TX_START_THRESH_CUR) ≤ present → (s.portTable port).getD slot 0x0300 = s.frameOwner port what → (s.stw.restarting = true → ofSteward what = false) →
      slotsFor len (s.portRate port) s.frameLen ≤ runFrom (s.portTable port) slot →
      s.linkSend port slot (s.framePri port what pri) what = some u →
      ∃ t, exec (.transmitStart port slot what len present pri kind) s = .next t ∧ (t.port port).run = some ⟨what, len, decide (len ≤ present), kind % 3⟩ ∧
        t.net.links = u.net.links ∧ t.mem = u.mem) ∧
    ((s.portTable port).getD slot 0x0300 ≠ s.frameOwner port what → exec (.transmitStart port slot what len present pri kind) s = .next s) ∧
    (∀ x, s.linkFrame port what = some x → s.frameOwner port what = if x.2.2.1.type = 4 then 0 else x.1.prov) ∧
    ((s.port port).run = some r → r.whole = false →
      ∃ t, exec (.txUnderrun port) s = .next t ∧ (t.port port).run = none ∧ t.sent.head? = some (.badEnd port) ∧
        t.fld port ETH_TX_START_THRESH_CUR = min 9216 (s.fld port ETH_TX_START_THRESH_CUR + 256) ∧ t.fld port ETH_TX_START_THRESH_CLEAN = 0) ∧
    ((s.port port).run = some r → ∃ t, exec (.transmitEnd port) s = .next t ∧ (t.port port).run = none ∧
      t.fld port (ETH_STAT_COUNT 36) = (s.fld port (ETH_STAT_COUNT 36) + 1) % 2 ^ 48 ∧ t.fld port (ETH_STAT_COUNT 37) = (s.fld port (ETH_STAT_COUNT 37) + r.len) % 2 ^ 56)

/-- A port's power states. An idle port with link, LPI_EN and one owner at most enters PARKING; the quiet PHY is PARKED, or WAKING where a frame waits, and a port that changes its rate
takes its link down there; a frame queued wakes a PARKED port, and waits on a PARKING one; the end of waking makes it ACTIVE where it has link. RATE_LOWER on a port that may be
lowered asks the peer, once LOWER_S seconds have each carried less than LOWER_PCT in either direction; the retrain that follows ends LOWERED and WAKING for a lowering, not lowered and WAKING for a raise, not lowered and ACTIVE
otherwise, with link. -/
def Obligations.PortPowerStates : Prop :=
  ∀ (s : State) (port devid : Nat) (octets : List (Nat × Nat)) (r : Retrain), port < 64 →
    (s.portUp port = true → s.fld port ETH_PARK_CTRL_LPI_EN = 1 → s.fld port ETH_PORT_STATUS_SINGLE = 1 → s.fld port ETH_PORT_STATUS_POWER = PW_ACTIVE →
      (s.port port).run = none → (s.port port).retrain = none → ∃ t, exec (.lpiIdleTimeout port) s = .next t ∧ t.fld port ETH_PORT_STATUS_POWER = PW_PARKING ∧
        t.fld port (ETH_STAT_COUNT 59) = (s.fld port (ETH_STAT_COUNT 59) + 1) % 2 ^ 48) ∧
    (s.fld port ETH_PORT_STATUS_POWER = PW_PARKING →
      ((s.port port).retrain = none → (s.port port).wakeNext = false →
        ∃ t, exec (.portParked port) s = .next t ∧ t.fld port ETH_PORT_STATUS_POWER = PW_PARKED ∧ (t.port port).parkedAt = s.frameTime) ∧
      ((s.port port).retrain = none → (s.port port).wakeNext = true → ∃ t, exec (.portParked port) s = .next t ∧ t.fld port ETH_PORT_STATUS_POWER = PW_WAKING) ∧
      ((s.port port).retrain = some r → ∃ t, exec (.portParked port) s = .next t ∧ t.fld port ETH_PORT_STATUS_POWER = PW_PARKED ∧ t.fld port ETH_PORT_STATUS_LINK = 0) ∧
      exec (.portWake port) s = .next (s.setPort port { (s.port port) with wakeNext := true })) ∧
    (s.fld port ETH_PORT_STATUS_POWER = PW_PARKED → (s.port port).retrain = none →
      ∃ t, exec (.portWake port) s = .next t ∧ t.fld port ETH_PORT_STATUS_POWER = PW_WAKING) ∧
    (s.fld port ETH_PORT_STATUS_POWER = PW_WAKING → s.fld port ETH_PORT_STATUS_LINK = 1 → exec (.wakeEnd port) s = .next (s.setPower port PW_ACTIVE) ∧
      (s.setPower port PW_ACTIVE).fld port ETH_PORT_STATUS_POWER = PW_ACTIVE) ∧
    (s.lightTraffic port octets = true → s.mayLower port = true → (s.link 0 devid).isSome = true → exec (.rateLower port devid octets) s =
      .next ((s.setPort port { (s.port port) with lowerAsked := true }).updLink 0 devid (fun l => l.post 0 none (.lowerReq port)))) ∧
    ((s.port port).retrain = some r → ∃ t, exec (.portRetrainDone port) s = .next t ∧ t.fld port ETH_PORT_STATUS_LINK = 1 ∧ (t.port port).retrain = none ∧
      t.fld port ETH_PORT_STATUS_LOWERED = b01 (r == .lower) ∧
      t.fld port ETH_PORT_STATUS_POWER = if r = .lower ∨ r = .raise then PW_WAKING else PW_ACTIVE)

/-- The link of an enabled port that is not held, retrains not and is not kept down by its module comes up ACTIVE and not lowered. A link that goes down is counted and shown in LINK_CHG, and ends the frame on
the wire; below the flap limit the port is not held, at a limit of 1 it is held and FLAP is set; the hold's end lets it try again. New lane modes are refused
with CFG_ERR, modes kept, where they affect a port in use, and set where they affect none, keep the pair rule and name no reserved mode. A new RATE of a port in use is refused with CFG_ERR and no
other effect; else the port restarts with it; a write with the same RATE sets the other fields. SNAP copies the counters to the shadow. -/
def Obligations.PortLinksAndModes : Prop :=
  ∀ (s u : State) (port fdie value i : Nat), port < 64 →
    (s.portLanes port ≠ 0 → s.fld port ETH_PORT_CTRL_EN = 1 → s.fld port ETH_PORT_STATUS_HELD = 0 → (s.port port).retrain = none →
      s.moduleDown port = false → ∃ t, exec (.linkUp port) s = .next t ∧ t.fld port ETH_PORT_STATUS_LINK = 1 ∧ t.fld port ETH_PORT_STATUS_POWER = PW_ACTIVE ∧
        t.fld port ETH_PORT_STATUS_LOWERED = 0 ∧ t.mem = s.mem) ∧
    (s.fld port ETH_PORT_STATUS_LINK = 1 → (s.port port).downs = [] → 2 ≤ s.fld port ETH_PORT_CTRL_FLAP_LIMIT →
      ∃ t, exec (.linkDown port) s = .next t ∧ t.fld port ETH_PORT_STATUS_LINK = 0 ∧ t.fld port ETH_PORT_STATUS_LINK_CHG = 1 ∧ (t.port port).run = none ∧
        t.fld port (ETH_STAT_COUNT 62) = (s.fld port (ETH_STAT_COUNT 62) + 1) % 2 ^ 48 ∧ t.fld port ETH_PORT_STATUS_HELD = s.fld port ETH_PORT_STATUS_HELD) ∧
    (s.fld port ETH_PORT_STATUS_LINK = 1 → s.fld port ETH_PORT_CTRL_FLAP_LIMIT = 1 →
      ∃ t, exec (.linkDown port) s = .next t ∧ t.fld port ETH_PORT_STATUS_LINK = 0 ∧ t.fld port ETH_PORT_STATUS_HELD = 1 ∧ t.fld port ETH_PORT_STATUS_FLAP = 1) ∧
    (∃ t, exec (.linkHoldExpire port) s = .next t ∧ t.fld port ETH_PORT_STATUS_HELD = 0 ∧ t.mem = s.mem) ∧
    (fdie < 4 → u = (if bitAt value 31 = true then s.setFld fdie ETH_LANE_MODE_CFG_ERR 0 else s) →
      ((∀ q < 4, u.fld fdie (quarterFld q) = modesOf value q) → exec (.ethLaneModeWrite fdie value) s = .next u) ∧
      ((∃ q < 4, u.fld fdie (quarterFld q) ≠ modesOf value q) →
        ((u.affected fdie value).any u.portInUse = true →
          ∃ t, exec (.ethLaneModeWrite fdie value) s = .next t ∧ t.fld fdie ETH_LANE_MODE_CFG_ERR = 1 ∧ t.net = s.net ∧ (∀ q < 4, t.fld fdie (quarterFld q) = s.fld fdie (quarterFld q))) ∧
        ((u.affected fdie value).any u.portInUse = false → (modesOf value 0 = 0 ↔ modesOf value 1 = 0) → (modesOf value 2 = 0 ↔ modesOf value 3 = 0) → (∀ q < 4, modesOf value q ≠ 7) →
          exec (.ethLaneModeWrite fdie value) s = .next (u.setModes fdie value)))) ∧
    (s.portLanes port ≠ 0 →
      (bits value 1 1 = s.fld port ETH_PORT_CTRL_RATE → exec (.ethPortRateWrite port value) s = .next (s.setPortCtrl port value)) ∧
      (bits value 1 1 ≠ s.fld port ETH_PORT_CTRL_RATE → s.portInUse port = true → exec (.ethPortRateWrite port value) s = .next (s.setFld port ETH_PORT_STATUS_CFG_ERR 1)) ∧
      (bits value 1 1 ≠ s.fld port ETH_PORT_CTRL_RATE → s.portInUse port = false →
        exec (.ethPortRateWrite port value) s = .next (((s.setPortCtrl port value).restartPort port).setFld port ETH_PORT_CTRL_RATE (bits value 1 1)))) ∧
    (s.portLanes port ≠ 0 → i < 64 → ∃ t, exec (.ethStatSnap port) s = .next t ∧ Sparse.get 0 (t.port port).shadow i = s.fld port (ETH_STAT_COUNT i) ∧ t.regs = s.regs)

/-- A lane's symbol errors are counted, and at its threshold or above mark the port and the lane. A marked lane that waits is steered once no other of its group uses the spare and every running
province has another path: the port retrains without link. Its check then keeps it or steers it back. A module's monitors are recorded, and an alarm raises its record. A poll notes
every cage's presence, and accepts what every poll of 100 ms has read. -/
def Obligations.LanesAndModules : Prop :=
  ∀ (s u : State) (lane n syms nbits cw corr uncorr cage : Nat) (x : LaneSteer) (m : ModuleId) (mon : ModuleMon) (seen : List Nat) (ids : List (Nat × ModuleId)) (temp : Int) (alarm hour : Bool),
    (lane < 64 → s.portOfLane lane = some n → nbits < syms * 10 ^ s.fld n ETH_PORT_CTRL_BER_EXP →
      ∃ t, exec (.laneBerSample lane syms nbits cw corr uncorr) s = .next t ∧ t.fld n ETH_PORT_STATUS_LANE_BER = 1 ∧ t.errs.lanes.any (fun y => y.lane == lane) = true ∧
        t.fld (lane / 16) (ETH_LANE_SYMERR_SYM (lane % 16)) = (s.fld (lane / 16) (ETH_LANE_SYMERR_SYM (lane % 16)) + syms) % 2 ^ 48) ∧
    (lane < 64 → s.portOfLane lane = some n → s.errs.lanes = [x] → x.lane = lane → x.waiting = true →
      (∀ y ∈ (s.port n).shares, (s.prov y.1).st ≠ .running ∨ s.otherPath y.1 n = true) →
      ∃ t, exec (.laneSteer lane) s = .next t ∧ (t.port n).retrain = some .steer ∧ t.fld n ETH_PORT_STATUS_LINK = 0 ∧ t.errs.lanes = [{ x with waiting := false }]) ∧
    (lane < 64 → s.portOfLane lane = some n → s.errs.lanes = [x] → x.lane = lane → x.waiting = false → x.judged = false →
      (∃ t, exec (.laneSteerCheck lane true) s = .next t ∧ t.errs.lanes = [{ x with judged := true }]) ∧
      (∃ t, exec (.laneSteerCheck lane false) s = .next t ∧ t.errs.lanes = [] ∧ (t.port n).retrain = some .steer ∧ t.fld n ETH_PORT_STATUS_LINK = 0)) ∧
    (cage < 32 → (s.cage cage).module = some m →
      u = (s.setCage cage { (s.cage cage) with mon := some (temp, mon) }).updModule m.serial (fun r => { r with
        hours := if hour = true ∧ (s.cage cage).on = true then r.hours + 1 else r.hours
        maxTemp := some (r.maxTemp.elim temp (max temp))
        firstBias := if r.firstBias = [] then mon.bias else r.firstBias
        lastBias := mon.bias }) →
      exec (.moduleMonitorRead cage temp mon alarm hour) s = .next (if alarm = true then
        u.raise { cause := MODULE_ALARM, die := 12, unit := (u.cagePort cage).getD 0xFFFF, aux := cage } else u)) ∧
    (∃ t, exec (.moduleBusPoll seen ids) s = .next t ∧ (∀ c < 32, (t.cage c).level = seen.contains c) ∧
      (∀ c < 32, (s.cage c).level = seen.contains c → (s.cage c).since + 100000000 ≤ s.frameTime → (t.cage c).accepted = seen.contains c))

/-! ## Ndeyx -/

/-- What R480 makes of a DATA, ACK, keep-alive or control packet. It leaves the receive buffer. The first check that fails drops it and counts it: its TYPE, its DLID, its version, its ranks, the replay
window of its key, its tag, its epoch. One that passes them all moves the replay window, refreshes its path and the peer's Meridian state, and then takes effect by its type: an
ACK removes what it acknowledges, and a cut that waits for that is looked at again; DATA and CONTROL join their stream. -/
def Obligations.PacketsAreCheckedInOrder : Prop :=
  ∀ (s u w : State) (port cum sack ce st : Nat) (p : NdxPkt) (l m : Link) (k : RxKey), port < 64 → 1 ≤ p.type → p.type ≤ 4 →
    (s.net.links.find? (fun l => l.dlid == p.dlid && l.keyed && !l.lost) = none →
      (p.body.type ≠ p.type → exec (.ndeyxPacketReceived port p) s = .next ((s.rxFree port 0).count { unit := srvStw, event := 0xA2, priv := 1 })) ∧
      (p.body.type = p.type → exec (.ndeyxPacketReceived port p) s = .next ((s.rxFree port 0).ndxCnt 5 1))) ∧
    (s.net.links.find? (fun l => l.dlid == p.dlid && l.keyed && !l.lost) = some l → u = s.rxFree port l.prov → p.body.type = p.type →
      (p.ver ≠ l.ver → exec (.ndeyxPacketReceived port p) s = .next (u.count { unit := srvStw, event := 0xA2, prov := l.prov, priv := 1 })) ∧
      (p.ver = l.ver → u.ranksOk l p = false → exec (.ndeyxPacketReceived port p) s = .next (u.ndxCnt 5 1)) ∧
      (p.ver = l.ver → u.ranksOk l p = true → l.rxKey p.kphase = none → exec (.ndeyxPacketReceived port p) s = .next (u.authFail l)) ∧
      (p.ver = l.ver → u.ranksOk l p = true → l.rxKey p.kphase = some k →
        (k.passes p.pn = false → exec (.ndeyxPacketReceived port p) s = .next (u.ndxCnt 4 1)) ∧
        (k.passes p.pn = true → p.tagOk = false → exec (.ndeyxPacketReceived port p) s = .next (u.authFail l)) ∧
        (k.passes p.pn = true → p.tagOk = true → p.epoch ≠ u.linkEpoch l → exec (.ndeyxPacketReceived port p) s = .next (u.ndxCnt 6 1)) ∧
        (k.passes p.pn = true → p.tagOk = true → p.epoch = u.linkEpoch l →
          w = ((u.ndxCnt 1 1).ndxCnt 7 (b01 p.ce)).updLink l.prov l.peer (fun x => { (x.noteKey p.kphase p.pn) with
            mer := p.mer
            paths := if x.paths.contains p.path = true then x.paths else x.paths ++ [p.path]
            heard := Sparse.set 0 x.heard p.path u.frameTime }) →
          (p.body = .keepalive → exec (.ndeyxPacketReceived port p) s = .next w) ∧
          (p.body = .ack cum sack ce st → exec (.ndeyxPacketReceived port p) s = .next ((w.updLink l.prov l.peer (fun x => x.acked cum sack st)).cutOwn l.prov)) ∧
          (p.type = 1 ∨ p.type = 4 → w.link l.prov l.peer = some m → exec (.ndeyxPacketReceived port p) s = .next (w.rxData m p)))))

/-- A link's timers. ACK_SEND on a keyed link makes the ACK of a stream whose ACK is due, by the number of new packets, by a request or by time, with the packets held out of order from version 2 on, and counts them from 0 again. The timeout of a
packet that was sent, once it can have passed, makes it due again, and in version 1 every other one that was sent; with its retries spent, or where every path was silent for LOST_MS or a die has none left, the link is lost. A path of a port with link that
is not parked or parking gets a keep-alive once KA_US can have passed since anything left on it; a path of an active port goes down once nothing came on it for four times that. -/
def Obligations.LinksRetransmitAndStayAlive : Prop :=
  ∀ (s : State) (prov peer stream psn port sack : Nat) (l : Link) (k : TxPkt) (r : RxStream), s.link prov peer = some l →
    (r = Sparse.get RxStream.init l.rx stream → l.keyed = true → l.lost = false → s.ackDue r = true →
      sack = (if l.ver = 1 then 0 else r.held.foldl (fun n x => if 1 ≤ psnDist x.1 r.next ∧ psnDist x.1 r.next ≤ 64 then n ||| 2 ^ (psnDist x.1 r.next - 1) else n) 0) →
      exec (.ackSend prov peer stream) s = .next (s.updLink prov peer (fun x => { x with
        acks := x.acks ++ [(none, .ack r.next sack r.ce stream)]
        rx := Sparse.set RxStream.init x.rx stream { r with fresh := 0, ce := 0, since := 0, ask := false } }))) ∧
    (r.fresh ≠ 0 → (s.fld 0 NDX_RELY_ACK_EVERY ≤ r.fresh ∨ r.ask = true ∨ r.since + s.fld 0 NDX_RELY_ACK_US * 1000 ≤ s.frameTime) → s.ackDue r = true) ∧
    (l.pkt stream psn = some k → l.lost = false → k.due = false → k.port.isSome = true →
      s.mayBe (k.sentAt + s.fld 0 NDX_RELY_RTO_US * 1000 * min 64 (2 ^ k.retries)) = true →
      (max 1 (s.fld 0 NDX_RELY_RETRY_LIMIT) ≤ k.retries + 1 → exec (.retransmitTimeout prov peer stream psn) s = .next (s.loseLink prov peer)) ∧
      (k.retries + 1 < max 1 (s.fld 0 NDX_RELY_RETRY_LIMIT) →
        exec (.retransmitTimeout prov peer stream psn) s = .next (s.updLink prov peer (fun x => { x with
          tx := Sparse.set TxStream.init x.tx stream { (Sparse.get TxStream.init l.tx stream) with
            pkts := (Sparse.get TxStream.init l.tx stream).pkts.map (fun (y : TxPkt) =>
              if y.psn = psn then { y with due := true, retries := y.retries + 1 }
              else if l.ver = 1 ∧ y.port.isSome = true then { y with due := true } else y) } })))) ∧
    (l.lost = false → s.lossDue l = true → exec (.ndeyxLinkLost prov peer) s = .next (s.loseLink prov peer)) ∧
    (port < 64 → s.fld port ETH_PORT_STATUS_LINK = 1 →
      (l.keyed = true → l.lost = false → s.fld port ETH_PORT_STATUS_POWER ≠ PW_PARKING → s.fld port ETH_PORT_STATUS_POWER ≠ PW_PARKED →
        s.mayBe (Sparse.get 0 l.spoke port + s.fld 0 NDX_LIVE_KA_US * 1000) = true → (s.linkPorts l).contains port = true →
        exec (.keepaliveSend prov peer port) s = .next (s.updLink prov peer (fun x => { x with acks := x.acks ++ [(some port, .keepalive)] }))) ∧
      (s.fld port ETH_PORT_STATUS_POWER = PW_ACTIVE → s.mayBe (Sparse.get 0 l.heard port + 4 * s.fld 0 NDX_LIVE_KA_US * 1000) = true →
        exec (.pathSilenceTimeout prov peer port) s = .next (s.updLink prov peer (fun x => x.dropPath port))))

/-- The lower end of a control link with a port to leave on says HELLO while the link is not keyed and fewer than 50 are unanswered, again at a master rekey, and once every retry after 50,
the first of which sets HS_FAIL and raises HANDSHAKE_FAIL; the HELLO, with the DLID that this end chose, joins the handshake packets that leave in the steward's slots. On a keyed link whose keys are due the lower end starts the renewal, the
other asks for it; the old receive key is erased. On a port with MACsec, an agreement settles the key server by the bids and makes the channel SECURE under a new SAK; the end of MKA's life ends it and takes the port's paths down; at the
packet number's limit the key server has a new SAK agreed. -/
def Obligations.KeysAreAgreedAndRenewed : Prop :=
  ∀ (s u : State) (devid prov peer port n : Nat) (l : Link) (mp : MkaPeer),
    (s.link 0 devid = some l → s.lowerEnd l = true → s.hsPort devid = some n →
      (l.wantsKeys = true → l.hellos < 50 → exec (.hello devid) s = .next (s.sendHello devid)) ∧
      (l.keyed = true → l.handshaking = false → exec (.masterRekeyTimer devid) s = .next ((s.updLink 0 devid (fun x => { x with hellos := 0 })).sendHello devid)) ∧
      (l.wantsKeys = true → 50 < l.hellos → exec (.handshakeRetryTimer devid) s = .next (s.sendHello devid)) ∧
      (l.wantsKeys = true → l.hellos = 50 → u = (s.setFld 0 NDX_STATUS_HS_FAIL 1).raise { cause := HANDSHAKE_FAIL, die := 12, aux := devid } →
        (u.hsPort devid).isSome = true → exec (.handshakeRetryTimer devid) s = .next (u.sendHello devid)) ∧
      s.sendHello devid = (s.updLink 0 devid (fun x => { x with handshaking := true, hellos := x.hellos + 1 })).updLink 0 devid (fun x => { x with
        hsOut := x.hsOut ++ [.hello (s.fld 0 NDX_CTRL_VER_MIN) (s.fld 0 NDX_CTRL_VER_MAX) l.dlid true] })) ∧
    (s.link prov peer = some l → l.keyed = true → l.lost = false → l.renewing = false → s.keyDue l = true →
      (s.lowerEnd l = true → exec (.keyRenewalDue prov peer) s = .next (s.startRenewal l)) ∧
      (s.lowerEnd l = false → exec (.keyRenewalDue prov peer) s = .next (s.updLink prov peer (fun x => x.post 0 none .rekeyReq)))) ∧
    (exec (.oldKeyErase prov peer) s = .next (s.updLink prov peer (fun x => { x with rxOld := none }))) ∧
    (port < 64 → s.fld port ETH_PORT_CTRL_MACSEC_EN = 1 →
      (s.fld 0 (NDX_MSEC_CTRL_CAK_VALID port) = 1 → s.fld port ETH_PORT_STATUS_LINK = 1 → s.fld 0 (NDX_MSEC_CTRL_SECURE port) = 0 →
        ∃ t, exec (.mkaHello port (some mp)) s = .next t ∧ (t.port port).keyServer = s.winsBid port mp ∧ t.fld 0 (NDX_MSEC_CTRL_SECURE port) = 1 ∧ (t.port port).sakNo = (s.port port).sakNo + 1 ∧ t.sent.head? = some (.mka port)) ∧
      (∃ t, exec (.mkaLifeExpire port) s = .next t ∧ t.fld 0 (NDX_MSEC_CTRL_SECURE port) = 0 ∧ ∀ x ∈ t.net.links, port ∉ x.paths) ∧
      (s.fld 0 (NDX_MSEC_CTRL_SECURE port) = 1 → (s.port port).keyServer = true → 0xC000000000000000 ≤ (s.port port).mtx →
        ∃ t, exec (.sakRenewal port) s = .next t ∧ (t.port port).sakNo = (s.port port).sakNo + 1 ∧ (t.port port).mtx = 0 ∧ t.sent.head? = some (.mka port)))

/-! ## The host -/

/-- A CLOSED hand opens under FMT 1, a LOG2SIZE of 6 to 16 and, where it is SECURE, a session bound to its function; ERR says what is wrong otherwise. CLOSE of an open hand lets it go on to its end,
and with nothing left closes it at once. A doorbell on an OPEN hand names new entries, or, where it names more than the ring holds, puts the hand in ERROR; one that names none changes nothing. An
entry of a fetch is taken when its SEQ is the next, and its MAC holds where the hand is SECURE; one with another SEQ is a mismatch. A mismatch is fetched again while
retries are left, which event 0xA1 counts; then the hand is STALE and fetches no more. -/
def Obligations.HandsOpenFetchAndClose : Prop :=
  ∀ (s : State) (fn hand k value n r : Nat) (e : List Byte) (ok : Bool), fn < 256 →
    (s.barHand fn hand = some k → s.handState k = H_CLOSED →
      (s.fld k HAND_CTRL_FMT ≠ 1 → exec (.handOpen fn hand) s = .next (s.setFld k HAND_STATUS_ERR 1)) ∧
      (s.fld k HAND_CTRL_FMT = 1 → ¬ (6 ≤ s.fld k HAND_CTRL_LOG2SIZE ∧ s.fld k HAND_CTRL_LOG2SIZE ≤ 16) →
        exec (.handOpen fn hand) s = .next (s.setFld k HAND_STATUS_ERR 2)) ∧
      (s.fld k HAND_CTRL_FMT = 1 → 6 ≤ s.fld k HAND_CTRL_LOG2SIZE → s.fld k HAND_CTRL_LOG2SIZE ≤ 16 → s.noSession k fn = true →
        exec (.handOpen fn hand) s = .next (s.setFld k HAND_STATUS_ERR 6)) ∧
      (s.fld k HAND_CTRL_FMT = 1 → 6 ≤ s.fld k HAND_CTRL_LOG2SIZE → s.fld k HAND_CTRL_LOG2SIZE ≤ 16 → s.noSession k fn = false →
        ∃ t, exec (.handOpen fn hand) s = .next t ∧ t.fld k HAND_STATUS_STATE = H_OPEN ∧ t.fld k HAND_STATUS_ERR = 0 ∧ t.fld k HAND_CONSUMED_COUNT = 0 ∧
          t.hand k = { fn := fn, gen := (s.hand k).gen + 1 } ∧ t.mem = s.mem ∧ ∀ j, j ≠ k → t.hand j = s.hand j)) ∧
    (s.barHand fn hand = some k → (s.handState k = H_OPEN ∨ s.handState k = H_ERROR) →
      exec (.handClose fn hand) s = .next ((s.setHand k { (s.hand k) with closing := true, mismatch := none }).advance k) ∧
      ((s.hand k).cmds = [] → ∃ t, exec (.handClose fn hand) s = .next t ∧ t.fld k HAND_STATUS_STATE = H_CLOSED ∧ t.mem = s.mem ∧ ∀ j, j ≠ k → t.hand j = s.hand j)) ∧
    (s.barHand fn hand = some k → s.handState k = H_OPEN → (s.hand k).closing = false → n = (value % 2 ^ 32 + 2 ^ 32 - s.fld k HAND_CONSUMED_COUNT) % 2 ^ 32 →
      (n = 0 → exec (.doorbell fn hand value) s = .next s) ∧
      (n ≠ 0 → n ≤ 2 ^ s.fld k HAND_CTRL_LOG2SIZE →
        exec (.doorbell fn hand value) s = .next (s.setHand k { (s.hand k) with prod := value % 2 ^ 32, mismatch := none })) ∧
      (2 ^ s.fld k HAND_CTRL_LOG2SIZE < n →
        exec (.doorbell fn hand value) s = .next ((s.setFld k HAND_STATUS_STATE H_ERROR).setFld k HAND_STATUS_ERR 4))) ∧
    (s.handOf fn hand = some k → s.handState k = H_OPEN → (s.hand k).closing = false → (s.hand k).fn = fn → s.fnUp fn = true → s.fld 0 TST_STATUS_FATAL = 0 →
      (s.fld k HAND_CONSUMED_COUNT ≠ (s.hand k).prod → e.length = 64 → leAt e 0 4 = s.fld k HAND_CONSUMED_COUNT → (s.fld k HAND_CTRL_SECURE ≠ 1 ∨ ok = true) →
        exec (.descriptorFetchReturn fn hand [(e, ok)]) s = .next (((s.setHand k { (s.hand k) with
          mismatch := none
          cmds := (s.hand k).cmds ++ [{ seq := s.fld k HAND_CONSUMED_COUNT, entry := e }] }).setFld k HAND_CONSUMED_COUNT
            ((s.fld k HAND_CONSUMED_COUNT + 1) % 2 ^ 32)).advance k)) ∧
      (s.fld k HAND_CONSUMED_COUNT ≠ (s.hand k).prod → e.length = 64 → leAt e 0 4 ≠ s.fld k HAND_CONSUMED_COUNT →
        exec (.descriptorFetchReturn fn hand [(e, ok)]) s = .next ((s.setHand k { (s.hand k) with mismatch := some ((s.hand k).mismatch.getD 0) }).advance k)) ∧
      ((s.hand k).mismatch = some r → r < s.fld 0 HIF_DB_RETRY_COUNT →
        exec (.descriptorRefetch fn hand) s = .next ((s.setHand k { (s.hand k) with mismatch := some (r + 1) }).count
          { unit := srvStw, event := 0xA1, prov := s.fnProv fn, priv := 2, master := some 7 })) ∧
      ((s.hand k).mismatch = some r → s.fld 0 HIF_DB_RETRY_COUNT ≤ r →
        ∃ t, exec (.descriptorRefetch fn hand) s = .next t ∧ t.fld k HAND_STATUS_STALE = 1 ∧ (t.hand k).prod = s.fld k HAND_CONSUMED_COUNT ∧ t.mem = s.mem))

/-- A hand's command that may start, its operands aligned, its extent in the province's space and its channels open. WRITE stores the host's bytes in DATA, makes its put and completes; stopped by poison
or a failed tag it stores the whole words, under a session the whole pages, that came before and completes with that status. READ sends the bytes, poisoned words as poison, and waits for their confirmation. WAIT_STEP completes when its step is
decided, and waits until then. MANIFEST extends the chain. LOAD_ATLAS of a SEALED province loads an image that passes its checks, at once, or, where a port of it is lowered, raises those ports first
and loads nothing yet; it completes with the check's status and the seed in force otherwise. START of a loaded SEALED province names the first frame. -/
def Obligations.HandCommandsRun : Prop :=
  ∀ (s u t : State) (fn hand seq k st m why n : Nat) (c : HandCmd) (g : Img) (host : List (Nat × Byte)) (bad : List Nat) (authOk : Bool), fn < 256 →
    (s.startable fn hand seq 3 = some (k, c) → c.aligned = true → s.dataState (k / 4096) = true →
      (s.prov (k / 4096)).within .data (c.q 1) c.len = true → s.hbmOpen (k / 4096) 2 [(c.q 1, c.len)] = true →
      (u = s.vput (k / 4096) (c.q 1) (s.hbytes host (c.q 0) c.len) →
        (bitAt c.flags 2 = false → exec (.write fn hand seq host none) s = .next ({ u with free := u.free + 1 }.complete k seq HS_OK c.len 0)) ∧
        (bitAt c.flags 2 = true → s.talonOf (k / 4096) c.talon = some n → u.talonOf (k / 4096) c.talon = some n →
          exec (.write fn hand seq host none) s = .next (({ u with free := u.free + 1 }.talonPut n c.handle).complete k seq HS_OK c.len 0))) ∧
      (bitAt c.flags 2 = false → why = HS_POISON ∨ why = HS_AUTH → st = (if why = HS_AUTH ∧ s.fld k HAND_CTRL_SECURE = 1 then 4096 else 64) →
        u = s.vput (k / 4096) (c.q 1) (s.hbytes host (c.q 0) (min c.len (m / st * st))) →
        exec (.write fn hand seq host (some (m, why))) s = .next ({ u with free := u.free + 1 }.complete k seq why (min c.len (m / st * st)) 0))) ∧
    (s.startable fn hand seq 4 = some (k, c) → c.aligned = true → s.dataState (k / 4096) = true →
      ((s.prov (k / 4096)).within .data (c.q 1) c.len = true ∨ (s.prov (k / 4096)).within .atlas (c.q 1) c.len = true) → s.hbmOpen (k / 4096) 2 [(c.q 1, c.len)] = true →
      bad = (List.range (c.len / 64)).filter (fun i => s.vpoison (k / 4096) (c.q 1 + 64 * i) 64) →
      exec (.read fn hand seq) s = .next ((bad.foldl (fun t i => t.emit (.hostPoison fn (c.q 0 + 64 * i))) (s.sendData k c (s.vbytes (k / 4096) (c.q 1) c.len))).setCmd k seq
        (.unconf (if bad = [] then HS_OK else HS_POISON) c.len 0 s.frame))) ∧
    (s.startable fn hand seq 5 = some (k, c) →
      (s.judgeWait (k / 4096) (c.q 0) false = none → exec (.waitStep fn hand seq) s = .next ((s.setCmd k seq .running).advance k)) ∧
      (∀ a b d, s.judgeWait (k / 4096) (c.q 0) false = some (a, b, d) → exec (.waitStep fn hand seq) s = .next (s.complete k seq a b d))) ∧
    (s.startable fn hand seq 6 = some (k, c) → (s.fld k HAND_CTRL_SECURE ≠ 1 ∨ authOk = true) →
      exec (.manifest fn hand seq host authOk) s = .next (({ s with free := s.free + 1 }.setProv (k / 4096) { (s.prov (k / 4096)) with
        manifest := sha384 ((s.prov (k / 4096)).manifest ++ s.hbytes host (c.q 0) 64)
        manFirst := leAt (s.hbytes host (c.q 0) 64) 48 8 }).complete k seq HS_OK 0 0)) ∧
    (s.startable fn hand seq 1 = some (k, c) → s.stw.restarting = false → (s.prov (k / 4096)).st = .sealed_ → (s.fld k HAND_CTRL_SECURE ≠ 1 ∨ authOk = true) →
      g = (fun o n => ofLE (s.hbytes host (c.q 0 + o) n)) → ceilDiv g.size (2 ^ 21) * 2 ^ 21 ≤ (s.prov (k / 4096)).space →
      s.atlasHeld (k / 4096) g.size = false →
      u = s.mapAtlas (k / 4096) (s.hbytes host (c.q 0) g.size) →
      st = s.atlasStatus (u.setFld (k / 4096) PROV_RANK_LASTRANK (g.nranks - 1)) (k / 4096) g (s.hbytes host (c.q 0) g.size) →
      t = { u with free := s.free + 1 }.loaded (k / 4096) fn (c.q 0) (if bitAt c.flags 1 then c.q 1 else g.seed) →
      exec (.loadAtlas fn hand seq host authOk) s = .next (
        if st ≠ HS_OK then { s with free := s.free + 1 }.complete k seq st (s.result0 k c) 0
        else if s.loweredPorts (k / 4096) = [] then t.complete k seq HS_OK (if bitAt c.flags 1 then c.q 1 else g.seed) 0
        else ((s.loweredPorts (k / 4096)).foldl (fun (t : State) n => t.raisePort n) { s with free := s.free + 1 }).setCmd k seq .running)) ∧
    (s.startable fn hand seq 2 = some (k, c) → s.stw.restarting = false → (s.prov (k / 4096)).st = .sealed_ → (s.prov (k / 4096)).loaded = true →
      (s.prov (k / 4096)).start = none → s.frame + 2 ≤ c.q 0 → (s.fld (k / 4096) PROV_RNG_MODE_MODE ≠ 0 ∨ (s.img (k / 4096)).needsRegen = false) →
      s.linksKeyed (k / 4096) = true → u = s.ledgerCheck (k / 4096) →
      exec (.start fn hand seq) s = .next ((u.setProv (k / 4096) { (u.prov (k / 4096)) with
        start := some ⟨c.q 0, if bitAt c.flags 1 then c.q 1 else 0, k, seq⟩ }).setCmd k seq .running))

/-- Accesses of an attached function. A read of its Inset gives the bytes of its province, and their poison, where the window shows them and their channels are open; zeros without a province; INSET_ERR and Completer
Abort elsewhere; one whose channel is not open is kept until it is; a write stores there, or sets INSET_ERR. The host writes HIF_INSET_BASE and HIF_SRV_PAGE. A change of Bus Master Enable is taken, and puts a locked or running
interface in ERROR; a virtual function's shows that it is enabled. The confirmation of writes goes to the function's hands and chains. A failed request of an attached function sets HOST_ERR and puts its hand in ERROR,
completes its command with HOST_ABORT, or faults its chain; where the command's entry is written already it does no more. -/
def Obligations.FunctionAccesses : Prop :=
  ∀ (s u : State) (fn off n va value hand k : Nat) (bytes : List Byte) (on : Bool) (j : ChainJob) (rest : List ChainJob), fn < 256 →
    (s.fnOn fn = true → s.fld fn HIF_FN_STATUS_ATTACH ≠ 1 → (s.fn fn).tdisp ≠ .error →
      (s.fnProv fn = 0 → exec (.insetRead fn off n) s = .next (s.emit (.insetData fn off (some (zeros n)) false))) ∧
      (s.fnProv fn ≠ 0 → s.insetVa fn off n false = none →
        exec (.insetRead fn off n) s = .next ((s.setFld fn HIF_FN_STATUS_INSET_ERR 1).emit (.insetData fn off none false))) ∧
      (s.fnProv fn ≠ 0 → s.insetVa fn off n false = some va → s.hbmOpen (s.fnProv fn) 2 [(va, n)] = true →
        ∃ t, exec (.insetRead fn off n) s = .next t ∧ t.mem = s.mem ∧
          t.sent.head? = some (.insetData fn off (some (s.vbytes (s.fnProv fn) va n)) (s.vpoison (s.fnProv fn) va n))) ∧
      (s.fnProv fn ≠ 0 → s.insetVa fn off n false = some va → s.hbmOpen (s.fnProv fn) 2 [(va, n)] = false →
        exec (.insetRead fn off n) s = .next { s with memc := { s.memc with insets := s.memc.insets ++ [⟨fn, off, s.fnProv fn, va, n⟩] } })) ∧
    (s.barUp fn = true →
      (s.insetVa fn off bytes.length true = none → exec (.insetWrite fn off bytes) s = .next (s.setFld fn HIF_FN_STATUS_INSET_ERR 1)) ∧
      (s.insetVa fn off bytes.length true = some va →
        exec (.insetWrite fn off bytes) s = .next ((s.count { unit := srvStw, event := 0xA3, prov := s.fnProv fn, priv := 2, master := some 7 }).rput (s.fnProv fn) va bytes)) ∧
      (∃ t, exec (.hifInsetBaseWrite fn value) s = .next t ∧ t.fld fn HIF_INSET_BASE_EN = bits value 0 1 ∧ t.fld fn HIF_INSET_BASE_BASE = bits value 26 22 ∧ t.mem = s.mem) ∧
      (∃ t, exec (.hifSrvPageWrite fn value) s = .next t ∧ t.fld fn HIF_SRV_PAGE_PAGE = bits value 0 8 ∧ t.mem = s.mem)) ∧
    ((s.fn fn).bme ≠ on → s.inReset = false →
      ∃ t, exec (.busMasterEnableWrite fn on) s = .next t ∧ (t.fn fn).bme = on ∧ t.mem = s.mem ∧
        ((s.fn fn).tdisp = .locked ∨ (s.fn fn).tdisp = .run → (t.fn fn).tdisp = .error) ∧
        (∀ f, f ≠ fn → f ≠ 0 → t.fn f = s.fn f) ∧ (fn ≠ 0 → t.fn 0 = { (s.fn 0) with numVfs := max (s.fn 0).numVfs fn })) ∧
    (s.fnUp fn = true → exec (.hostWriteConfirm fn) s = .next ((s.hands.foldl (fun x e => x.confirmHand fn e) s).confirmChains fn)) ∧
    (s.fld fn HIF_FN_STATUS_ATTACH = 0 →
      (s.handOf fn hand = some k → s.handState k = H_OPEN → (s.hand k).fn = fn →
        exec (.hostRequestFailed fn (.fetch hand)) s = .next (((s.setFld fn HIF_FN_STATUS_HOST_ERR 1).setFld k HAND_STATUS_STATE H_ERROR).setFld k HAND_STATUS_ERR 7)) ∧
      (s.handOf fn hand = some k → (s.hand k).fn = fn → ((s.hand k).cmds.any (fun c => c.seq == value && c.started && !c.over) = true ∨
          (((s.hand k).mayStart value).isSome = true ∧ s.fnUp fn = true)) →
        u = (s.setFld fn HIF_FN_STATUS_HOST_ERR 1).raise { cause := HOST_ABORT, die := 12, prov := k / 4096, aux := hand } →
        exec (.hostRequestFailed fn (.cmd hand value)) s =
          .next (u.complete k value HS_HOST_ABORT ((((u.hand k).cmds.find? (fun c => c.seq == value)).map (u.result0 k)).getD 0) 0)) ∧
      (s.handOf fn hand = some k → (s.hand k).fn = fn → (∃ c ∈ (s.hand k).cmds, c.seq = value ∧ ∃ a b d e, c.st = .written a b d e) →
        (∀ c ∈ (s.hand k).cmds, c.seq = value → c.over = true) → (s.hand k).mayStart value = none →
        exec (.hostRequestFailed fn (.cmd hand value)) s = .next ((s.setFld fn HIF_FN_STATUS_HOST_ERR 1).raise { cause := HOST_ABORT, die := 12, prov := k / 4096, aux := hand })) ∧
      (n < 128 → (s.bulk n).queue = j :: rest → s.chainFn j.ctx.prov = fn → (s.bulk n).st = .running →
        exec (.hostRequestFailed fn (.chain n)) s = .next ((s.setFld fn HIF_FN_STATUS_HOST_ERR 1).chainFault n j)))

/-- The PCIe link and its resets, out of device reset. Training from BRINGUP on shows rate and width, and a slow or narrow link is degraded; PERST_N, DL_Down and a hot reset take the link down and detach every
function, FLR its one. A function whose FLR is complete reattaches while the link is up. RESUME and DISCARD of a reattaching function with Bus Master Enable
attach it and leave none of its hands SUSPENDED, DISCARD each of them CLOSED. HOST_LOST is raised once for a detached function. -/
def Obligations.FunctionsDetachAndReattach : Prop :=
  ∀ (s : State) (fn rate width : Nat), fn < 256 → s.inReset = false →
    (s.perst = false → 1 ≤ rate → rate ≤ 6 → 1 ≤ width → width ≤ 16 → 4 ≤ s.boot → s.boot ≠ 8 →
      ∃ t, exec (.pcieLinkTrained rate width) s = .next t ∧ t.dlUp = true ∧ t.fld 0 HIF_LINK_STATUS_RATE = rate ∧ t.fld 0 HIF_LINK_STATUS_WIDTH = width ∧
        (rate < 4 ∨ width < 16 → t.fld 0 HIF_LINK_STATUS_DEGRADED = 1) ∧ t.mem = s.mem) ∧
    (s.perst = false → ∃ t, exec .perstNAssert s = .next t ∧ t.perst = true ∧ t.dlUp = false ∧ t.fld fn HIF_FN_STATUS_ATTACH = 1 ∧ t.mem = s.mem) ∧
    (∃ t, exec .perstNRelease s = .next t ∧ t.perst = false ∧ t.mem = s.mem) ∧
    (s.dlUp = true → ∃ t, exec .dlDown s = .next t ∧ t.dlUp = false ∧ t.fld fn HIF_FN_STATUS_ATTACH = 1 ∧ t.mem = s.mem) ∧
    (∃ t, exec .hotReset s = .next t ∧ t.dlUp = false ∧ t.fld fn HIF_FN_STATUS_ATTACH = 1 ∧ t.mem = s.mem) ∧
    (∃ t, exec (.flr fn) s = .next t ∧ t.fld fn HIF_FN_STATUS_ATTACH = 1 ∧ (t.fn fn).flr = true ∧ t.mem = s.mem ∧
      ∀ f < 256, f ≠ fn → t.fld f HIF_FN_STATUS_ATTACH = s.fld f HIF_FN_STATUS_ATTACH) ∧
    ((s.fn fn).flr = true → s.perst = false → s.dlUp = true → s.fld fn HIF_FN_STATUS_ATTACH = 1 →
      ∃ t, exec (.flrComplete fn) s = .next t ∧ t.fld fn HIF_FN_STATUS_ATTACH = 2 ∧ (t.fn fn).flr = false ∧ (t.fn fn).attachFrame = s.frame ∧ t.mem = s.mem) ∧
    (s.fld fn HIF_FN_STATUS_ATTACH = 2 → (s.fn fn).bme = true →
      (∃ t, exec (.resume fn) s = .next t ∧ t.fld fn HIF_FN_STATUS_ATTACH = 0 ∧ (∀ k ∈ s.suspended fn, t.handState k ≠ H_SUSPENDED) ∧ t.mem = s.mem) ∧
      (∃ t, exec (.discard fn) s = .next t ∧ t = (s.discardFn fn).setFld fn HIF_FN_STATUS_ATTACH 0 ∧ t.fld fn HIF_FN_STATUS_ATTACH = 0 ∧
        ∀ k ∈ s.suspended fn, t.handState k = H_CLOSED)) ∧
    (s.fld fn HIF_FN_STATUS_ATTACH = 1 → (s.fn fn).lost = false →
      exec (.hostLostTimer fn) s = .next ((s.setFn fn { (s.fn fn) with lost := true }).raiseSev 1 { cause := HOST_LOST, die := 12, prov := s.fnProv fn, aux := fn }))

/-! ## SPDM, IDE and TDISP -/

/-- The responder, once the device is READY with its keys and the host attached, answers the negotiation step by step; after it the digests, the portions of slot 0's certificate chain, the challenge, and the measurements
with a nonce, signed where the request asks for it. KEY_EXCHANGE begins a session, of at most 64, under an ID that none has; FINISH completes it, or ends it where its MAC fails; a complete session
answers HEARTBEAT, KEY_UPDATE, END_SESSION and BIND_FN. SELECT_FN is answered. CHALLENGE of another slot is an error. -/
def Obligations.SpdmRequestsAreAnswered : Prop :=
  ∀ (s : State) (slot off n sid fn : Nat) (x : SpdmSession) (p : List Byte) (signed : Bool),
    (s.Responds 0 → exec .getVersion s = .next ({ s with stw := { s.stw with spdmState := 1 } }.emit (.spdm 0x04 [0, 1, 0x00, 0x13]))) ∧
    (s.Responds 1 → s.stw.spdmState = 1 → ∃ t, exec .getCapabilities s = .next t ∧ t.stw.spdmState = 2 ∧ t.mem = s.mem ∧ t.regs = s.regs) ∧
    (s.Responds 2 → s.stw.spdmState = 2 → ∃ t, exec (.negotiateAlgorithms true) s = .next t ∧ t.stw.spdmState = 3 ∧ t.mem = s.mem ∧ t.regs = s.regs) ∧
    (s.Responds 3 → exec .getDigests s = .next (s.emit (.spdm 0x01 ([1, 1] ++ sha384 s.certChain)))) ∧
    (s.Responds 3 → off ≤ s.certChain.length → p = (s.certChain.drop off).take n →
      exec (.getCertificate 0 off n) s = .next (s.emit (.spdm 0x02 (leBytes 2 p.length ++ leBytes 2 (s.certChain.length - off - p.length) ++ p)))) ∧
    (s.Responds 3 → ∃ t sig, exec (.challenge 0) s = .next t ∧ t.sent.head? = some (.spdm 0x03 (sha384 s.certChain ++ sig)) ∧ sig.length = 130 ∧ t.stw = s.stw) ∧
    (s.Responds 3 → s.measBlocks n ≠ [] → n ≠ 0 → ∃ t nonce sig, exec (.getMeasurements n signed) s = .next t ∧ nonce.length = 32 ∧
      sig.length = (if signed = true then 96 else 0) ∧ t.sent.head? = some (.spdm 0x60 (measRecord (s.measBlocks n) nonce ++ sig)) ∧ t.stw = s.stw) ∧
    (s.Responds 3 → s.stw.sessions.length < 64 → ∃ t id, exec (.keyExchange 0) s = .next t ∧ t.stw.sessions = s.stw.sessions ++ [{ id := id, secret := s.free }] ∧
      (∀ y ∈ s.stw.sessions, y.id ≠ id) ∧ t.mem = s.mem) ∧
    (s.Responds 3 → s.stw.sessions.find? (fun y => y.id == sid && y.done == false) = some x →
      exec (.spdmFinish sid true) s = .next ((s.putSession { x with done := true }).emit (.spdm 0x65 [])) ∧
      exec (.spdmFinish sid false) s = .next ((s.endSessions (fun y => y.id == sid)).spdmErr SE_DECRYPT)) ∧
    (s.Responds 3 → s.stw.sessions.find? (fun y => y.id == sid && y.done == true) = some x →
      exec (.heartbeat sid) s = .next (s.emit (.spdm 0x68 [])) ∧
      exec (.spdmKeyUpdate sid) s = .next ((s.putSession { x with phase := x.phase + 1 }).emit (.spdm 0x69 [])) ∧
      (∃ t, exec (.endSession sid) s = .next t ∧ ∀ y ∈ t.stw.sessions, y.id ≠ sid) ∧
      (fn < 256 → exec (.bindFn sid fn) s = .next ((s.putSession { x with fn := some fn }).emit (.spdm 0x7E [])))) ∧
    (s.Responds 3 → fn < 256 → ∃ t, exec (.selectFn fn) s = .next t ∧ t.stw.selFn = fn ∧ t.mem = s.mem ∧ t.regs = s.regs) ∧
    (s.Responds 3 → slot ≠ 0 → exec (.challenge slot) s = .next (s.spdmErr SE_INVALID))

/-- Within a complete session: a stream is stopped, or keyed, one link stream and up to 8 selective ones. An unlocked interface of an attached function whose province is sealed, running or paused and
whose stream is keyed is locked, except on stepping A0; a locked one is started; STOP_INTERFACE unlocks it. LOCK_INTERFACE answers with the interface's state and report. A locked or running interface that is changed is in ERROR. -/
def Obligations.InterfacesAreLockedAndStarted : Prop :=
  ∀ (s : State) (sid stream fn : Nat) (x : SpdmSession) (l : List IdeStream), s.Responds 3 → 0 < fn → fn < 256 →
    s.stw.sessions.find? (fun y => y.id == sid && y.done == true) = some x → l = s.stw.ide.filter (fun y => y.id != stream) →
    (exec (.ideKm sid stream none true) s = .next ((s.setIde l).emit (.spdm 0x7E []))) ∧
    ((l.filter (fun y => y.fn.isSome)).length < 8 →
      ∃ t, exec (.ideKm sid stream (some fn) false) s = .next t ∧ t.stw.ide = l ++ [⟨stream, some fn⟩] ∧ t.fld 0 HIF_LINK_STATUS_IDE = 1) ∧
    (l.any (fun y => y.fn.isNone) = false →
      ∃ t, exec (.ideKm sid stream none false) s = .next t ∧ t.stw.ide = l ++ [⟨stream, none⟩] ∧ t.fld 0 HIF_LINK_STATUS_IDE = 1) ∧
    (s.stepA0 = false → (s.fn fn).tdisp = .unlocked → s.fnProv fn ≠ 0 →
      ((s.prov (s.fnProv fn)).st = .sealed_ ∨ (s.prov (s.fnProv fn)).st = .running ∨ (s.prov (s.fnProv fn)).st = .paused) →
      s.stw.ide.any (fun y => y.fn == some fn) = true →
      s.fld fn HIF_FN_STATUS_ATTACH = 0 → ∃ t a b, exec (.lockInterface sid fn) s = .next t ∧ (t.fn fn).tdisp = .locked ∧ t.regs = s.regs ∧ t.mem = s.mem ∧
        t.sent.head? = some (.tdisp fn .locked (t.tdispReport fn a b))) ∧
    ((s.fn fn).tdisp = .locked → ∃ t, exec (.startInterface sid fn) s = .next t ∧ (t.fn fn).tdisp = .run ∧ t.regs = s.regs ∧ t.mem = s.mem) ∧
    (∃ t, exec (.stopInterface sid fn) s = .next t ∧ (t.fn fn).tdisp = .unlocked ∧ t.mem = s.mem) ∧
    ((s.fn fn).tdisp = .locked ∨ (s.fn fn).tdisp = .run →
      ∃ t, exec (.tdispInterfaceError fn) s = .next t ∧ (t.fn fn).tdisp = .error ∧ t.regs = s.regs ∧ ∀ f, f ≠ fn → t.fn f = s.fn f)

/-! ## TSP -/

/-- A client with a role opens, by TLS 1.3 with its one suite, group and scheme, one of at most 8 connections while the management port has link, and is shown the device's chain; the idle time closes it. From READY on, HELLO agrees on version 1, or answers VERSION and closes. SUBSCRIBE sets the
classes of events; they go out oldest first after the count of the lost. PTP and TCP frames for the TSP port are served, ARP, neighbour discovery and echo up to 1,000 a second; the others are
dropped. -/
def Obligations.TspConnectionsAreServed : Prop :=
  ∀ (s : State) (conn lo hi role classes : Nat) (tls : TlsClient) (rev : Bool) (r : Role) (c : TspConn) (e : TspEvent) (l : List TspEvent) (f : MgmtFrame),
    (s.inReset = false → s.fld 0 STW_MGMT_LINK ≠ 0 → s.stw.restarting = false → s.stw.conns.length < 8 → s.conn conn = none → s.stw.keys = true → TlsClient.ok tls = true →
      s.clientRole tls.chain rev role = some r → ∃ t, exec (.tspConnectionOpen conn tls rev role) s = .next t ∧ t.sent.head? = some (.tls conn s.certChain) ∧ t.stw.conns = s.stw.conns ++ [{ id := conn, role := r }] ∧
        t.fld 0 STW_MGMT_CONNS = s.stw.conns.length + 1 ∧ t.mem = s.mem) ∧
    (∃ t, exec (.tspIdleTimeout conn) s = .next t ∧ t.conn conn = none ∧ (∀ n, n ≠ conn → t.conn n = s.conn n) ∧ t.mem = s.mem) ∧
    (s.conn conn = some c → s.stw.restarting = false →
      (BOOT_READY ≤ s.boot → lo ≤ 1 → 1 ≤ hi → ∃ t, exec (.tspHello conn lo hi) s = .next t ∧ t.conn conn = some { c with hello := true } ∧
        t.sent.head? = some (.tsp conn 1 HS_OK [1]) ∧ ∀ n, n ≠ conn → t.conn n = s.conn n) ∧
      (s.boot < BOOT_READY → exec (.tspHello conn lo hi) s = .next s) ∧
      (BOOT_READY ≤ s.boot → ¬ (lo ≤ 1 ∧ 1 ≤ hi) → ∃ t, exec (.tspHello conn lo hi) s = .next t ∧ t.conn conn = none ∧ t.sent.head? = some (.tsp conn 1 TS_VERSION [])) ∧
      (c.lost = 0 → c.queue = e :: l → ∃ t, exec (.tspEventSend conn) s = .next t ∧ t.conn conn = some { c with queue := l } ∧ t.sent.head? = some (.tspEvent conn e)) ∧
      (0 < c.lost → ∃ t, exec (.tspEventSend conn) s = .next t ∧ t.conn conn = some { c with lost := 0 } ∧ t.sent.head? = some (.tspEvent conn (.lost c.lost)))) ∧
    (s.Serves conn 6 → s.conn conn = some c →
      ∃ t, exec (.subscribe conn classes) s = .next t ∧ t.conn conn = some { c with subs := classes % 16 } ∧ t.sent.head? = some (.tsp conn 6 HS_OK [])) ∧
    (s.inReset = false → s.fld 0 STW_MGMT_LINK ≠ 0 → s.stw.restarting = false →
      exec (.mgmtFrameReceived .ptp) s = .next (s.emit (.mgmt .ptp)) ∧ exec (.mgmtFrameReceived .other) s = .next s ∧
      exec (.mgmtFrameReceived (.tcp lo)) s = .next (if lo = s.fld 0 STW_MGMT_TCP_PORT then s.emit (.mgmt (.tcp lo)) else s) ∧
      (f = .arp ∨ f = .neighbour ∨ f = .echo → s.stw.mgmtSec = s.frameTime / 1000000000 → 1000 ≤ s.stw.mgmtCount → exec (.mgmtFrameReceived f) s = .next s) ∧
      (f = .arp ∨ f = .neighbour ∨ f = .echo → s.stw.mgmtSec = s.frameTime / 1000000000 → s.stw.mgmtCount < 1000 → ∃ t, exec (.mgmtFrameReceived f) s = .next t ∧
        t.stw.mgmtCount = s.stw.mgmtCount + 1 ∧ t.sent.head? = some (.mgmt f)))

/-- TSP reads of the device: its identity; its status, with its provinces, its links and its regulators; registers; the error log, the module records and a province's step log; imprints; the cartouche, signed. An inlet
report is kept with its time; MER_SET arms the switch, sets the PTP priorities and the clock class, and writes a Meridian register that may be written. -/
def Obligations.TspReadsAndSettings : Prop :=
  ∀ (s : State) (conn addr n lo v p : Nat) (r : RegAt) (d : RegDef) (c : Cartridge) (nonce : List Byte) (x : Int),
    (s.Serves conn 2 → exec (.getIdentity conn) s = .next (s.emit (.tsp conn 2 HS_OK
      (beBytes 8 (s.readAt ⟨.dev, 0, DEV_DEVID.off⟩ 8) ++ beBytes 4 (s.show4 .dev 0 DEV_IDENT.off) ++ beBytes 4 (s.show4 .dev 0 DEV_REVISION.off) ++
       beBytes 1 (s.fld 0 STW_STATUS_LC) ++ s.certChain)))) ∧
    (s.Serves conn 4 → exec (.getStatus conn) s = .next (s.emit (.tsp conn 4 HS_OK
      (beBytes 4 (s.show4 .stw 0 STW_STATUS.off) ++ beBytes 4 (s.show4 .mer 0 MER_STATUS.off) ++ beBytes 4 (s.show4 .stw 0 STW_BASFIN_WEAR.off) ++
       (s.provs.filter (fun e => e.2.st != .none_)).flatMap (fun e => beBytes 4 (s.show4 .prov e.1 PROV_STATE.off)) ++
       (s.net.links.filter (fun l => l.prov != 0)).flatMap (fun l => beBytes 1 l.prov ++ beBytes 8 l.devid ++ beBytes 1 l.mer) ++
       s.pwr.words.flatMap (beBytes 2))))) ∧
    (s.Serves conn 5 → n = 4 ∨ n = 8 → dpaReg addr = some r → r.block.tspReads = true →
      ∃ t, exec (.readReg conn addr n) s = .next t ∧ t.sent.head? = some (.tsp conn 5 HS_OK (beBytes n (s.readAt r n))) ∧ t.mem = s.mem) ∧
    (s.Serves conn 7 →
      (s.cartIn.isSome = true → exec (.logRead conn (.errors lo n)) s = .next (s.emit (.tsp conn 7 HS_OK (((s.errs.log.reverse.drop lo).take n).flatMap ErrRec.bytes)))) ∧
      exec (.logRead conn (.modules lo n)) s = .next (s.emit (.tsp conn 7 HS_OK (((s.net.modules.drop lo).take n).flatMap ModuleRec.bytes))) ∧
      (p ≤ 255 → (s.prov p).st ≠ .none_ → (s.prov p).loaded = true →
        exec (.logRead conn (.steps p lo n)) s = .next (s.emit (.tsp conn 7 HS_OK (((s.stepRecs p).drop lo).take n).flatten)))) ∧
    (s.Serves conn 8 → s.cartIn = some c → exec (.imprintRead conn lo n) s = .next (s.emit (.tsp conn 8 HS_OK
      (c.imprints.filter (fun r => decide (lo ≤ leAt r 16 8) && decide (leAt r 16 8 < lo + n))).flatten))) ∧
    (s.Serves conn 3 → nonce.length = 32 → ∃ t sig, exec (.getCartouche conn nonce) s = .next t ∧ sig.length = 96 ∧
      t.sent.head? = some (.tsp conn 3 HS_OK (measRecord (s.measBlocks 0xFF) nonce ++ sig)) ∧ t.mem = s.mem ∧ t.regs = s.regs) ∧
    (s.Serves conn 0x42 → -32768 ≤ x → x ≤ 32767 → ∃ t, exec (.inletReport conn x) s = .next t ∧ t.stw.inlet = some (x, s.frameTime) ∧ t.mem = s.mem ∧ t.regs = s.regs) ∧
    (s.Serves conn 0x30 →
      (v ≤ 255 → (∃ t, exec (.merSet conn (.prio1 v)) s = .next t ∧ t.mer = { s.mer with prio1 := v } ∧ t.mem = s.mem ∧ t.regs = s.regs) ∧
        (∃ t, exec (.merSet conn (.prio2 v)) s = .next t ∧ t.mer = { s.mer with prio2 := v } ∧ t.mem = s.mem ∧ t.regs = s.regs) ∧
        (∃ t, exec (.merSet conn (.clockClass v)) s = .next t ∧ t.mer = { s.mer with clockClass := v } ∧ t.mem = s.mem ∧ t.regs = s.regs)) ∧
      (Block.find .mer addr = some d → d.fields.any (fun f => f.acc == .rw || f.acc == .w1c) = true →
        exec (.merSet conn (.reg addr v)) s = .next ((s.writeAt ⟨.mer, 0, addr⟩ (d.size / 8) v).ppsSettle.answer conn 0x30 HS_OK [])) ∧
      exec (.merSet conn .arm) s = .next (s.armSwitch.answer conn 0x30 HS_OK []))

/-- The commands of a province's life. It is created, empty or from a template, in FORMING, under the ID asked for or the lowest that is free; set; given ranks; its seal is kept for the next frame boundary, or answered with the first check that fails. A
PROV_SEAL for a province that has another request waiting waits too. PAUSE, RESUME, SNAPSHOT and RESET, in the states that R553 names, are asked for, and their answers wait. It dissolves from every state; when its channels have been scrubbed, its
ID is free. Its DATA is read; it is granted to PF0, or the grant is ended; a rank is stood in for; recovery begins, and its end is kept for a frame boundary. -/
def Obligations.ProvincesLiveAndDissolve : Prop :=
  ∀ (s u : State) (conn p rank epoch addr n : Nat) (what : ProvSet) (bytes r : List Byte) (es : List RankEnt),
    (s.Serves conn 0x10 → (s.fld 0 STW_STATUS_LC = LC_MANUFACTURE ∨ s.fld 0 STW_STATUS_LC = LC_DEPLOYED ∨ s.fld 0 STW_STATUS_LC = LC_RETURNED) → 0 < p → p ≤ 255 →
      (s.prov p).st = .none_ →
      (∃ t, exec (.provCreate conn (some p) none) s = .next t ∧ (t.prov p).st = .forming ∧ (t.prov p).units = [] ∧ (t.prov p).chans = [] ∧
        t.fld p PROV_STATE_STATE = 0 ∧ t.fld p PROV_STATE_ID = p ∧ (∀ q, q ≠ p → t.prov q = s.prov q) ∧ t.mem = s.mem) ∧
      ((∀ q, 0 < q → q < p → (s.prov q).st ≠ .none_) → exec (.provCreate conn none none) s = exec (.provCreate conn (some p) none) s) ∧
      ((s.newProv p).template n = some r → (s.newProv p).fromTemplate p r = .ok u →
        exec (.provCreate conn (some p) (some n)) s = .next ((u.showRes p).answer conn 0x10 HS_OK (leBytes 1 p)))) ∧
    (s.Serves conn 0x11 → s.Accepts p (fun st => st != .dissolving) → s.provSet p what = .ok u → exec (.provSet conn p what) s = .next (u.answer conn 0x11 HS_OK [])) ∧
    (s.Serves conn 0x12 → s.Accepts p (fun st => st == .forming) → rankEntries bytes = some es →
      ((es.foldl upsertRank (s.prov p).ranktab).filter (fun e => e.rank.isNone)).length ≤ 8 →
      exec (.provRanktab conn p bytes) s = .next ((s.setProv p { (s.prov p) with ranktab := es.foldl upsertRank (s.prov p).ranktab }).answer conn 0x12 HS_OK [])) ∧
    (s.Serves conn 0x13 →
      (s.Accepts p (fun st => st == .forming) →
        (s.sealCheck p = HS_OK → exec (.provSeal conn p) s = .next (s.setProv p { (s.prov p) with sealing := some conn })) ∧
        (s.sealCheck p ≠ HS_OK → exec (.provSeal conn p) s = .next (s.answer conn 0x13 (s.sealCheck p) []))) ∧
      ((s.prov p).st ≠ .none_ → p ≤ 255 → s.provBusy p = true →
        exec (.provSeal conn p) s = .next { s with stw := { s.stw with reqs := s.stw.reqs ++ [(p, .provSeal conn p)] } })) ∧
    (s.Serves conn 0x14 → s.Accepts p (fun st => st == .running) → exec (.provPause conn p) s = .next ((s.addWait conn 0x14 p).ask p .pause)) ∧
    (s.Serves conn 0x15 → s.Accepts p (fun st => st == .paused) → exec (.provResume conn p) s = .next ((s.addWait conn 0x15 p).ask p .resume)) ∧
    (s.Serves conn 0x16 → s.Accepts p (fun st => st == .running) → exec (.provSnapshot conn p) s = .next ((s.addWait conn 0x16 p).ask p .snapshot)) ∧
    (s.Serves conn 0x17 → s.Accepts p (fun st => st == .sealed_ || st == .running || st == .paused) →
      exec (.provReset conn p) s = .next ((s.addWait conn 0x17 p).ask p .reset)) ∧
    (s.Serves conn 0x18 → p ≤ 255 → (s.prov p).st ≠ .none_ →
      ((s.prov p).st ≠ .dissolving → exec (.provDissolve conn p) s = .next (if ((s.dissolve p).prov p).st = .none_ then (s.dissolve p).answer conn 0x18 HS_OK []
        else (s.dissolve p).addWait conn 0x18 p)) ∧
      ((s.prov p).st = .dissolving → exec (.provDissolve conn p) s = .next (s.addWait conn 0x18 p))) ∧
    ((s.prov p).st = .dissolving → (∀ c ∈ (s.prov p).chans, s.fld c MEM_STATUS_PROV ≠ p) →
      ∃ t, exec (.dissolutionComplete p) s = .next t ∧ t = (((s.clearTables p).freeProv p).answerWaits p [0x18] HS_OK) ∧ (t.prov p).st = .none_) ∧
    (s.Serves conn 0x19 → s.Accepts p (fun st => st == .sealed_ || st == .paused) → 0 < n → n ≤ 65536 → (s.prov p).within .data addr n = true →
      s.vpoison p addr n = false → exec (.provRead conn p addr n) s = .next (s.emit (.tsp conn 0x19 HS_OK (s.vbytes p addr n)))) ∧
    (s.Serves conn 0x1A →
      (0 < p → s.Accepts p (fun st => st != .dissolving) →
        ∃ t, exec (.provGrantPf0 conn p) s = .next t ∧ t.fld 0 HIF_PF0_GRANT_PROV = p ∧ t.fld 0 HIF_FN_STATUS_PROV = p ∧ t.mem = s.mem) ∧
      (∃ t, exec (.provGrantPf0 conn 0) s = .next t ∧ t.fld 0 HIF_PF0_GRANT_PROV = 0 ∧ t.fld 0 HIF_FN_STATUS_PROV = 0 ∧ t.mem = s.mem)) ∧
    (s.Serves conn 0x1B → s.Accepts p (fun st => st == .sealed_ || st == .paused) → 1 < s.nranks p → (s.prov p).ranktab.any (fun e => e.rank == some rank) = true →
      exec (.provStandin conn p rank epoch) s = .next ((s.standin p rank epoch).answer conn 0x1B HS_OK [])) ∧
    (s.Serves conn 0x50 →
      (s.Accepts p (fun st => st == .paused) →
        ∃ t, exec (.provRecover conn p true) s = .next t ∧ (t.prov p).recovery = true ∧ t.fld p PROV_STATE_RECOVERY = 1 ∧ t.fld 0 STW_STATUS_RECOVERY_ANY = 1 ∧ t.mem = s.mem) ∧
      (s.Accepts p (fun st => st == .paused || st == .sealed_ || st == .running) → (s.prov p).recovery = true →
        exec (.provRecover conn p false) s = .next ((s.setProv p { (s.prov p) with ending := some conn }).tdispErr p)))

/-- The steward's commands with a writable cartridge in use. A signed table that keeps its rules takes effect, and an Itinerary restarts its machines; fabric settings and credentials take effect. Firmware not older than its fused SVN is staged
in the other slot, activated by a restart, or the previous one is while the new one is not committed, once no load, start, imprint or ledger commit runs, for at most 10 s; and committed with its SVN fused. The watchdog restarts the steward, which closes its connections and sessions; the restart
ends on the running firmware, on the new one, or, where that does not start, on the old one with FW_FAILED, and what waited for it is done. A transition of the life cycle is made by TSP or JTAG; a new owner is
burned in. TEST_RUN runs the FULL program while no province exists, RELEASE on free units, PORT on unowned ports; SHUTDOWN, with FORCE, dissolves the provinces first. A complete cut is
imprinted while the log has room; IMPRINT_ROLL erases the oldest half of the log. -/
def Obligations.StewardCommands : Prop :=
  ∀ (s u : State) (conn seq slot before : Nat) (img ca rev : TableImg) (fab : Fabric) (fw : FwImage) (c : Cartridge) (tok : LifeToken) (key r : List Byte) (cut : Cut)
    (found : List ErrIn) (units : List (Nat × Nat)) (ports : List Nat) (b prev force : Bool), s.cartIn = some c → s.cartWritable = true →
    (s.Serves conn 0x52 → s.tableSig img = true → TableImg.ok img = true →
      (img.kind = .legend ∨ img.kind = .contour ∨ img.kind = .templates → exec (.tableLoad conn img) s = .next ((s.putTable img).answer conn 0x52 HS_OK [])) ∧
      (img.kind = .itinerary → u = s.putTable img →
        exec (.tableLoad conn img) s = .next ({ u with pwr := { u.pwr with restart := true } }.answer conn 0x52 HS_OK []))) ∧
    (s.Serves conn 0x53 → s.tableSig img = true → img.kind = .fabric → exec (.fabricSet conn img fab) s = .next (((s.putTable img).applyFabric fab).answer conn 0x53 HS_OK [])) ∧
    (s.Serves conn 0x54 → s.tableSig ca = true → s.tableSig rev = true → ca.kind = .caList → rev.kind = .revocations →
      exec (.credSet conn ca rev) s = .next (((s.putTable ca).putTable rev).answer conn 0x54 HS_OK [])) ∧
    (s.Serves conn 0x55 → fw.sigOk = true → fw.svn ≤ 128 → s.stw.svnFused ≤ fw.svn →
      exec (.fwStage conn fw) s = .next (((s.setCart (if s.otherSlot then { c with fwB := some fw } else { c with fwA := some fw })).setUpdate 1).answer
        conn 0x55 HS_OK [])) ∧
    (s.Serves conn 0x56 → s.fld 0 STW_STATUS_FW_UPDATE = (if prev = true then 3 else 1) → fwSlot c s.otherSlot = some fw →
      (s.activationWaits = false → exec (.fwActivate conn prev) s = .next (((s.answer conn 0x56 HS_OK []).setFld 0 STW_STATUS_FW_UPDATE 2).beginRestart
        (some (fw, s.otherSlot, if prev = true then 3 else 1)))) ∧
      (s.activationWaits = true → s.stw.actSince = none → exec (.fwActivate conn prev) s =
        .next { s with stw := { s.stw with actSince := some s.frameTime, reqs := s.stw.reqs ++ [(256, .fwActivate conn prev)] } }) ∧
      (∀ since, s.activationWaits = true → s.stw.actSince = some since → since + 10000000000 ≤ s.frameTime →
        exec (.fwActivate conn prev) s = .next ({ s with stw := { s.stw with actSince := none } }.answer conn 0x56 TS_BUSY []))) ∧
    (s.Serves conn 0x57 → s.stw.running = some fw → s.fld 0 STW_STATUS_FW_UPDATE = 3 →
      ∃ t, exec (.fwCommit conn) s = .next t ∧ t.stw.svnFused = min 128 (max s.stw.svnFused fw.svn) ∧ t.fld 0 STW_STATUS_FW_UPDATE = 0 ∧ t.mem = s.mem) ∧
    (s.inReset = false → s.stw.restarting = false → ∃ t, exec .stewardWatchdog s = .next t ∧ t.stw.restarting = true ∧ t.stw.conns = [] ∧ t.stw.sessions = [] ∧ t.mem = s.mem) ∧
    (s.stw.restarting = true →
      (s.stw.activating = none → exec (.stewardRestartEnd true) s =
        .next ({ s with stw := { s.stw with restarting := false, activating := none, lateImprints := [] } }.watchdogOver.lateMsgs.imprintsDue s.stw.lateImprints)) ∧
      (s.stw.activating = some (fw, b, before) →
        (u = ({ s with stw := { s.stw with restarting := false, activating := none, lateImprints := [], running := some fw, activations := s.stw.activations + 1 } } : State).deriveAlias →
          exec (.stewardRestartEnd true) s =
            .next (((((u.setCart { c with slotB := b }).showFw fw).setFld 0 STW_STATUS_FW_SLOT (b01 b)).setUpdate 3).lateMsgs.imprintsDue s.stw.lateImprints)) ∧
        (s.setUpdate 3).fld 0 STW_STATUS_FW_UPDATE = 3 ∧
        exec (.stewardRestartEnd false) s = .next ((({ s with stw := { s.stw with restarting := false, activating := none, lateImprints := [] } }.setUpdate before).raise
          { cause := FW_FAILED, die := 12 }).lateMsgs.imprintsDue s.stw.lateImprints))) ∧
    (s.Serves conn 0x60 → s.lifeStep tok false = .ok u → exec (.lifecycle (some conn) tok) s = .next ((u.answer conn 0x60 HS_OK []).scrapConns)) ∧
    (s.inReset = false → s.lifeStep tok true = .ok u → exec (.lifecycle none tok) s = .next u.scrapConns) ∧
    (s.Serves conn 0x61 → s.stw.life = LC_PROVISIONED → s.anyProv = false →
      ∃ t, exec (.takeOwnership conn key true) s = .next t ∧ t.stw.owners = s.stw.owners ++ [sha384 key] ∧ t.stw.fuseK = s.stw.fuseK + 1 ∧
        t.stw.life = LC_DEPLOYED ∧ t.fld 0 STW_STATUS_LC = LC_DEPLOYED) ∧
    (s.Serves conn 0x40 →
      (s.fld 0 STW_STATUS_LC ≠ LC_DEPLOYED → s.anyProv = false →
        exec (.testRun conn 2 units ports found) s = .next (((found.foldl State.bistRec s).fullPass found).blowRepairs.answer conn 0x40 HS_OK [])) ∧
      (units ≠ [] → (∀ x ∈ units, x.1 < 8 ∧ x.2 < 32 ∧ s.unitOwner x.1 x.2 = 0) → u = found.foldl State.bistRec s →
        exec (.testRun conn 4 units ports found) s = .next ({ u with errs := { u.errs with untested := (u.errs.untested.filter (fun x => !units.contains x) ++
            units.filter (fun (x : Nat × Nat) => found.any (fun y => y.cause == BIST_UNREPAIRED && y.die == x.1 && u.logCol (recTile (errOf y)) == some x.2))) } }.answer conn 0x40 HS_OK [])) ∧
      (s.fld 0 STW_STATUS_LC ≠ LC_DEPLOYED → ports ≠ [] → (∀ x ∈ ports, s.portLanes x ≠ 0 ∧ (s.port x).shares = []) →
        exec (.testRun conn 5 units ports found) s = .next ((found.foldl State.bistRec s).answer conn 0x40 HS_OK []))) ∧
    (s.Serves conn 0x41 → s.anyProv = false ∨ force = true →
      ∃ t, exec (.shutdown conn force) s = .next t ∧ t.boot = BOOT_SHUTDOWN ∧
        t = ((((s.provs.map Prod.fst).foldl (fun x p => if (x.prov p).st = .dissolving then x else x.dissolve p) s).answer conn 0x41 HS_OK []).setBoot BOOT_SHUTDOWN)) ∧
    (s.stw.restarting = true → exec (.imprint conn slot) s = .next { s with stw := { s.stw with reqs := s.stw.reqs ++ [(slot, .imprint conn slot)] } }) ∧
    (s.Serves conn 0x20 → s.Accepts slot (fun _ => true) → s.fld 0 STW_STATUS_LC = LC_DEPLOYED → s.cutDone slot = some cut → cut.verified = false →
      c.imprints.length < 8388608 → exec (.imprint conn slot) s = .next (s.imprint conn slot cut c)) ∧
    (s.Serves conn 0x51 → 2 ≤ c.imprints.length → c.imprints[c.imprints.length / 2 - 1]? = some r → leAt r 16 8 = seq →
      exec (.imprintRoll conn seq) s = .next ((s.setCart { c with imprints := c.imprints.drop (c.imprints.length / 2) }).answer conn 0x51 HS_OK []))

/-! ## Boot, errors, power -/

/-- Reset and boot. The device reset, by its pin or by a rail, keeps the fuses, the cartridge and the error log, and stands in stage ROM with no province; when the pin and the rails let go, the device leaves it. The loss and the return of
a reference clock are shown, and act: the management port's link, the PCIe link, the ports of a fabric die. The stages follow one another: ROM, which a BLANK device does not leave; CARTRIDGE, which a
cartridge that is absent or not accepted ends in BOOT_FAIL; SELFTEST; HBM_INIT, with empty memory; BRINGUP, with the fabric settings; READY; and from SHUTDOWN to
OFF_READY. The tenth equal poll finds the cartridge gone, or back; a write of a partition counts the erases of its blocks and shows the most worn one's share of 30,000. -/
def Obligations.BootFollowsItsStages : Prop :=
  ∀ (s u : State) (rail part clk n : Nat) (blocks : List Nat) (er : List (Nat × Nat)) (fab : Fabric) (acked spares : Bool) (test : Option FwImage) (found : List ErrIn) (c : Cartridge),
    (∃ t, exec .devResetNAssert s = .next t ∧ t.pinReset = true ∧ t.boot = BOOT_ROM ∧ t.mem = [] ∧ t.provs = [] ∧ t.stw.fuseK = s.stw.fuseK ∧ t.stw.cart = s.stw.cart ∧
      t.errs.log = s.errs.log ∧ t.errs.queues = []) ∧
    (s.pinReset = true →
      (s.railLow = [] → exec .devResetNRelease s = .next { s with pinReset := false }.leaveReset) ∧
      (s.railLow ≠ [] → exec .devResetNRelease s = .next { s with pinReset := false })) ∧
    (rail < 12 → ∃ t, exec (.railUndervoltage rail) s = .next t ∧ rail ∈ t.railLow ∧ t.boot = BOOT_ROM ∧ t.provs = []) ∧
    (s.railLow ≠ [] → s.pinReset = false → exec .railRecovered s = .next { s with railLow := [] }.leaveReset) ∧
    (s.inReset = false →
      (s.boot ≠ BOOT_ROM → ∃ t, exec (.refclkLost 0) s = .next t ∧ t.fld 0 STW_CLK_STATUS_FALLBACK = 1 ∧ t.fld 0 STW_CLK_STATUS_REF25_OK = 0 ∧
        t.fld 0 STW_CLK_STATUS_LOSS_SEEN = 1 ∧ t.fld 0 STW_MGMT_LINK = 0 ∧ t.fld 0 TST_STATUS_ALERT = 1 ∧ t.mem = s.mem) ∧
      (∃ t, exec (.refclkLost 1) s = .next t ∧ t.fld 0 STW_CLK_STATUS_REFPCIE_OK = 0 ∧ t.dlUp = false ∧ t.mem = s.mem) ∧
      (2 ≤ clk → clk < 6 → ∃ t, exec (.refclkLost clk) s = .next t ∧ ∀ i < 16, t.fld (16 * (clk - 2) + i) ETH_PORT_STATUS_LINK = 0) ∧
      (s.boot ≠ BOOT_ROM → ∃ t, exec (.refclkReturn 0) s = .next t ∧ t.fld 0 STW_CLK_STATUS_FALLBACK = 0 ∧ t.fld 0 STW_CLK_STATUS_REF25_OK = 1 ∧ t.mem = s.mem) ∧
      (∃ t, exec (.refclkReturn 1) s = .next t ∧ t.fld 0 STW_CLK_STATUS_REFPCIE_OK = 1 ∧ t.mem = s.mem) ∧
      (s.boot = BOOT_ROM → 0 ∉ s.clkLow → s.stw.life ≠ LC_BLANK → ∃ t, exec (.romStage test) s = .next t ∧ t.boot = BOOT_CARTRIDGE ∧ t.stw.sensed = true ∧
        t.fld 0 STW_STATUS_LC = s.stw.life ∧ t.mem = s.mem) ∧
      (s.boot = BOOT_ROM → 0 ∉ s.clkLow → s.stw.life = LC_BLANK → ∃ t, exec (.romStage test) s = .next t ∧ t.boot = BOOT_ROM ∧ t.stw.sensed = true ∧
        t.stw.running = (match test with | some f => if f.sigOk then some f else s.stw.running | none => s.stw.running)) ∧
      (s.boot = BOOT_CARTRIDGE → s.stw.cart = none ∨ s.stw.cart = some c ∧ s.cartOk c = false →
        ∃ t, exec (.cartridgeStage fab) s = .next t ∧ t.boot = BOOT_FAIL ∧ t.fld 0 TST_STATUS_ALERT = 1) ∧
      (s.boot = BOOT_CARTRIDGE → s.stw.cart = some c → s.cartOk c = true → u = s.setFld 0 STW_STATUS_CART_PRESENT 1 →
        exec (.cartridgeStage fab) s = .next (((({ u with stw := { u.stw with cartId := some c.id } }).setFld 0 STW_STATUS_CART_PAIRED
          (b01 (c.certOk && c.paired == some s.stw.devid && c.pairSig))).showWear c).readCart c fab)) ∧
      (s.boot = BOOT_SELFTEST → ∃ t, exec (.selftestStage acked found) s = .next t ∧ t.boot = BOOT_HBM_INIT) ∧
      (s.boot = BOOT_HBM_INIT → ∃ t, exec .hbmInitStage s = .next t ∧ t.boot = BOOT_BRINGUP ∧ t.mem = [] ∧ t.poison = []) ∧
      (s.boot = BOOT_BRINGUP → s.stw.brought = false → s.net.fabric = some fab → u = (s.setReg 0 MER_EPOCH (BitVec.ofNat 64 fab.epoch)).setReg 0 MER_BASE_FRAME (BitVec.ofNat 64 fab.base) →
        exec .bringupStage s = .next (({ u with mer := { u.mer with boot := some fab.period }, stw := { u.stw with brought := true } }.applyFabric fab).setFld 0 STW_MGMT_LINK
          (b01 (!u.clkLow.contains 0)))) ∧
      (s.boot = BOOT_BRINGUP → s.stw.brought = true → exec .ready s = .next (s.setFld 0 STW_STATUS_BOOT 5)) ∧
      (s.boot = BOOT_SHUTDOWN → s.anyProv = false → ∃ t, exec (.shutdownComplete found) s = .next t ∧ t.boot = BOOT_OFF_READY) ∧
      (s.stw.cartSeen = none → s.stw.cartPolls = 9 → s.stw.cart = some c → u = { s with stw := { s.stw with cartSeen := none, cartPolls := 10 } } →
        exec (.cartridgePresencePoll none) s = .next u.cartGone) ∧
      (s.stw.cartSeen = some c.id → s.stw.cartPolls = 9 → s.stw.cart = none → u = { s with stw := { s.stw with cartSeen := some c.id, cartPolls := 10 } } →
        exec (.cartridgePresencePoll (some c)) s = .next (u.cartBack c))) ∧
    (n < 256 → s.perst = true → s.leaveReset.fld n HIF_FN_STATUS_ATTACH = 1) ∧
    (s.perst = false → s.leaveReset.regs = [] ∧ s.leaveReset.provs = [] ∧ s.leaveReset.mem = [] ∧ s.leaveReset.stw.fuseK = s.stw.fuseK ∧ s.leaveReset.stw.cart = s.stw.cart ∧
      s.leaveReset.errs.log = s.errs.log) ∧
    (s.cartIn = some c → s.cartWritable = true → 1 ≤ part → part ≤ 9 → er = (blocks.filter (fun b => partOfBlock b == part)).foldl eraseOnce c.erases → er ≠ [] →
      ∃ t, exec (.cartridgeWrite part blocks spares) s = .next t ∧ t.stw.cart = some { c with erases := er, spares := spares } ∧
        t.fld 0 STW_BASFIN_WEAR_PCT = min 255 ((topErase er).2 * 100 / 30000) ∧ t.fld 0 STW_BASFIN_WEAR_PART = partOfBlock (topErase er).1 ∧
        t.fld 0 STW_BASFIN_WEAR_READONLY = b01 (decide (100 ≤ (topErase er).2 * 100 / 30000) || !spares) ∧ t.mem = s.mem)

/-- The TAP's IDCODE: its stepping is 4·MAJOR + MINOR, its bit 0 is 1; an instruction that is not accepted selects BYPASS; a self-test instruction that is runs its program. -/
def Obligations.TapIdcodeAndBypass : Prop :=
  ∀ (s u : State) (i : TapInsn) (program : Nat) (units : List (Nat × Nat)) (ports : List Nat) (found : List ErrIn),
    (4 * s.fld 0 DEV_REVISION_MAJOR + s.fld 0 DEV_REVISION_MINOR < 16 →
      ∃ t n, exec (.jtagInstruction .idcode) s = .next t ∧ t.tap = .idcode ∧ t.sent.head? = some (.idcode n) ∧ n < 2 ^ 32 ∧
        n / 2 ^ 28 = 4 * s.fld 0 DEV_REVISION_MAJOR + s.fld 0 DEV_REVISION_MINOR ∧ n / 2 ^ 12 % 2 ^ 16 = s.fld 0 DEV_IDENT_PART ∧
        n / 2 % 2 ^ 11 = s.fld 0 DEV_IDENT_VENDOR ∧ n % 2 = 1 ∧ t.mem = s.mem ∧ t.regs = s.regs) ∧
    (s.stw.sensed = false → i ≠ .idcode → exec (.jtagInstruction i) s = .next { s with tap := .bypass }) ∧
    (s.tapOk i = true → i = .bist program units ports found → s.inReset = false → ({ s with tap := i } : State).runTest program units ports found = .ok u →
      exec (.jtagInstruction i) s = .next u)

/-- Error records. One that is not FATAL and arrives at an empty queue joins it with the next SEQ and its cause's severity; a CONTAINED one asks its province to pause. FATAL is latched with its cause,
asserts the alert, and joins no queue. Lost records are reported with their number, once a second at most. The end of a pulse leaves the alert as the held causes say. The steward takes the record at
the head, counts it in its window, begins the repair of a lasting fault, logs it where it is one to be logged, and reports it. -/
def Obligations.ErrorRecordsAreQueuedAndHandled : Prop :=
  ∀ (s u : State) (r : ErrIn) (k cause die march : Nat) (h g : ErrRec) (x : State × Bool),
    (causeSev r.cause ≠ 3 → Sparse.get [] s.errs.queues (r.die * 16 + causeSubsystem r.cause) = [] →
      ∃ t y, exec (.errorRecordArrive r) s = .next t ∧ Sparse.get [] t.errs.queues (r.die * 16 + causeSubsystem r.cause) = [y] ∧
        y.seq = s.errs.seq ∧ y.sev = causeSev r.cause ∧ y.cause = r.cause ∧ y.addr = r.addr ∧ t.errs.seq = s.errs.seq + 1 ∧ t.errs.log = s.errs.log ∧ t.mem = s.mem) ∧
    (causeSev r.cause = 2 → r.prov ≠ 0 → (s.prov r.prov).st ≠ .none_ → ∃ t, exec (.errorRecordArrive r) s = .next t ∧ (t.prov r.prov).pauseReq = true) ∧
    (causeSev cause = 3 → s.fld 0 TST_STATUS_FATAL = 0 → cause < 2 ^ 16 →
      ∃ t, exec (.fatal cause die) s = .next t ∧ t.fld 0 TST_STATUS_FATAL = 1 ∧ t.fld 0 TST_STATUS_FATAL_CAUSE = cause ∧ t.fld 0 TST_STATUS_ALERT = 1 ∧
        t.errs.queues = s.errs.queues ∧ t.mem = s.mem) ∧
    (s.errs.lost ≠ 0 →
      ((∀ t ∈ s.errs.lostAt, t + 1000000000 ≤ s.frameTime) → exec .recordsLost s = .next ({ s with errs := { s.errs with lost := 0, lostAt := some s.frameTime } }.raise
        { cause := RECORDS_LOST_C, die := 12, aux := s.errs.lost })) ∧
      ((∃ t ∈ s.errs.lostAt, s.frameTime < t + 1000000000) → exec .recordsLost s = .next s)) ∧
    (∃ t, exec .alertPulseEnd s = .next t ∧ t.fld 0 TST_STATUS_ALERT = (if s.errs.held || s.errs.heldClk then 1 else 0) ∧ t.mem = s.mem) ∧
    (s.stw.restarting = false → s.fld 0 TST_STATUS_FATAL = 0 → s.headRec = some (k, h) →
      u = { s with errs := { s.errs with queues := Sparse.set [] s.errs.queues k ((Sparse.get [] s.errs.queues k).drop 1) } } →
      x = (u.setFld 0 TST_STATUS_QFULL (b01 u.anyFull)).judge h march → g = { h with lasting := h.lasting || x.2 } →
      exec (.errorRecordHandle march) s = .next ((if g.logged = true then x.1.logErr g else x.1).tspNote (.error g)))

/-- Power. An evaluation of the capping loop shows the profile and the power measured. A voltage acknowledged lets the clock rise that waited for it, one not acknowledged does not, and is counted. A current above ICC_A drops the clock
to 500 MHz at most, until the release. Every reading of the junction sensors is kept for its die; with no valid one at all the limit holds and SENSOR_FAULT is set. A junction at 115 °C or a stack at 105 °C trips. The inlet sensor's reading is
kept where it is in range, the regulators' readings and status words are kept. THROTTLE_N asserted drops the clock to the throttle limit, which its release removes; while toggling the pin alone moves; an assertion of 25 µs is counted, a long one
reported; toggling holds it asserted until it ends. The Itinerary machines are evaluated one after another. -/
def Obligations.PowerAndThrottling : Prop :=
  ∀ (s u : State) (corr : Int) (amps word m : Nat) (img : List Byte) (pout util : List Nat) (reads : List (List (Option Int))) (d : Nat × Int),
    (s.tableOf .contour = some img → ∃ t, exec (.cappingEvaluation corr) s = .next t ∧ t.fld 0 PWR_STATUS_PROFILE = s.pwr.profile % 4 ∧
      t.fld 0 PWR_MEAS_POWER_W = min 65535 (max 0 (((s.pwr.pout.foldl (fun n x => n + x) 0 : Nat) : Int) + corr)).toNat ∧ t.mem = s.mem) ∧
    (s.pwr.avs = true →
      (∀ m, s.pwr.rise = some m → m < 2048 → ∃ t, exec .avsAck s = .next t ∧ t.clock = m ∧ t.pwr.avs = false ∧ t.pwr.rise = none ∧ t.mem = s.mem) ∧
      (s.pwr.rise = none → ∃ t, exec .avsAck s = .next t ∧ t.clock = s.clock ∧ t.pwr.avs = false ∧ t.mem = s.mem) ∧
      (∃ t, exec .avsAckTimeout s = .next t ∧ t.clock = s.clock ∧ t.pwr.rise = none ∧ t.fld 0 PWR_RAIL_AVS_NACK = (s.fld 0 PWR_RAIL_AVS_NACK + 1) % 2 ^ 16 ∧ t.mem = s.mem)) ∧
    (s.fld 0 PWR_CAP_ICC_A < amps → s.pwr.fast = false → ∃ t, exec (.fastLimiter amps) s = .next t ∧ t.pwr.fast = true ∧ t.clock = min 500 s.clock ∧
      t.fld 0 PWR_STATUS_ICC_EVENTS = (s.fld 0 PWR_STATUS_ICC_EVENTS + 1) % 2 ^ 16 ∧ t.mem = s.mem) ∧
    (s.pwr.fast = true → exec .fastLimiterRelease s = .next { s with pwr := { s.pwr with fast := false } }.setClock) ∧
    (reads.length = 13 → ∃ t, exec (.junctionSensorRead reads) s = .next t ∧ t.pwr.dies = (reads.map dieTemp).zipIdx.map (fun x => (x.2, x.1.1)) ∧ t.mem = s.mem ∧
      ((∀ l ∈ reads, l.filterMap validTemp = []) → t.fld 0 PWR_STATUS_SENSOR_FAULT = 1 ∧ t.pwr.hot = true ∧ t.clock = min 500 s.clock)) ∧
    (s.pwr.dies.find? (fun e => decide (1150 ≤ e.2)) = some d → u = { s with pwr := { s.pwr with trip := true } }.dropClock 500 2 →
      exec (.thermalTrip none) s = .next (u.raise { cause := THERMAL_TRIP_C, die := d.1 })) ∧
    (m < 12 → 1050 ≤ s.stackTemp m → exec (.thermalTrip (some m)) s = .next (s.raise { cause := THERMAL_TRIP_C, die := 16 + m })) ∧
    (s.net.fabric.map Fabric.inlet = some true →
      (-100 ≤ linear11 word → linear11 word ≤ 700 → exec (.inletSensorRead (some word)) s = .next { s with pwr := { s.pwr with inlet := some (linear11 word, s.frameTime) } }) ∧
      (linear11 word < -100 ∨ 700 < linear11 word → exec (.inletSensorRead (some word)) s = .next s)) ∧
    (exec (.pmbusRead pout) s = .next { s with pwr := { s.pwr with pout := pout.take ((s.net.fabric.map Fabric.regulators).getD 0) } }) ∧
    (exec (.pmbAlert pout) s = .next { s with pwr := { s.pwr with words := pout.take ((s.net.fabric.map Fabric.regulators).getD 0) } }) ∧
    (s.inReset = false → s.errs.thrToggle = false →
      (s.errs.thrLow = false → ∃ t, exec .throttleNFall s = .next t ∧ t.fld 0 TST_THROTTLE_ASSERTED = 1 ∧ t.errs.thrLow = true ∧
        t.clock = min (clockFor (s.fld 0 PWR_THROT_MHZ : Nat)) s.clock ∧ t.mem = s.mem) ∧
      (s.errs.thrLow = true → ∃ t, exec .throttleNRise s = .next t ∧ t.fld 0 TST_THROTTLE_ASSERTED = 0 ∧ t.errs.thrLow = false ∧ t.pwr.qualified = false ∧ t.mem = s.mem)) ∧
    (s.inReset = false → s.errs.thrToggle = true →
      (s.errs.thrLow = false → exec .throttleNFall s = .next { s with errs := { s.errs with thrLow := true } }) ∧
      (s.errs.thrLow = true → exec .throttleNRise s = .next { s with errs := { s.errs with thrLow := false } }) ∧
      (s.errs.thrLow = false → ∃ t, exec .throttleToggleEnd s = .next t ∧ t.fld 0 TST_THROTTLE_ASSERTED = 0 ∧ t.errs.thrToggle = false ∧ t.mem = s.mem)) ∧
    (s.inReset = false → s.fld 0 TST_THROTTLE_ASSERTED = 1 →
      (s.pwr.qualified = false → ∃ t, exec .throttleQualified s = .next t ∧ t.pwr.qualified = true ∧
        t.fld 0 TST_THROTTLE_QUALIFIED = (s.fld 0 TST_THROTTLE_QUALIFIED + 1) % 2 ^ 16 ∧ t.mem = s.mem) ∧
      exec .throttleHeld s = .next (s.raise { cause := THROTTLE_HELD_C, die := 12 })) ∧
    (s.inReset = false → ∃ t, exec .throttleToggle s = .next t ∧ t.fld 0 TST_THROTTLE_TOGGLE = 1 ∧ t.fld 0 TST_THROTTLE_ASSERTED = 1 ∧ t.errs.thrToggle = true ∧ t.mem = s.mem) ∧
    (s.tableOf .itinerary = some img → u = (List.range 66).foldl (fun s n => if n < 64 ∧ s.portLanes n = 0 then s else s.machStep img n util amps s.pwr.restart) s →
      exec (.itineraryEvaluation util amps) s = .next { u with pwr := { u.pwr with restart := false } })
end

