-- ==== Sys2Proof/Laws/Sparse.lean ====
section
/-! SUPPORT. Laws of sparse maps: reading after a write, the canonical form, and that canonical maps with equal readings are equal. -/
namespace Sys2Proof.Machine

variable {α : Type}

@[simp] theorem Sparse.get_nil (d : α) (k : Nat) : Sparse.get d [] k = d := rfl

/-- The keys of a map rise strictly. -/
def Sparse.Rising : Sparse α → Prop
  | [] => True
  | [_] => True
  | (k, _) :: (k', v') :: m => k < k' ∧ Sparse.Rising ((k', v') :: m)

theorem Sparse.Rising.tail {e : Nat × α} {m : Sparse α} (h : Sparse.Rising (e :: m)) : Sparse.Rising m := by
  cases m with
  | nil => trivial
  | cons _ _ => exact h.2

theorem Sparse.Rising.head_lt {e x : Nat × α} {m : Sparse α} (h : Sparse.Rising (e :: m)) (hx : x ∈ m) : e.1 < x.1 := by
  induction m generalizing e with
  | nil => cases hx
  | cons y m ih =>
    rcases List.mem_cons.mp hx with rfl | hx
    · exact h.1
    · exact Nat.lt_trans h.1 (ih h.2 hx)

theorem Sparse.rising_cons {e : Nat × α} {m : Sparse α} (h : Sparse.Rising m) (hx : ∀ x ∈ m, e.1 < x.1) : Sparse.Rising (e :: m) := by
  cases m with
  | nil => trivial
  | cons y m => exact ⟨hx y List.mem_cons_self, h⟩

/-- The canonical form is: rising keys, no entry equal to its default. -/
theorem Sparse.wf_iff [DecidableEq α] (d : Nat → α) (m : Sparse α) :
    Sparse.wf d m = true ↔ Sparse.Rising m ∧ ∀ e ∈ m, e.2 ≠ d e.1 := by
  induction m with
  | nil => simp [Sparse.wf, Sparse.Rising]
  | cons e m ih =>
    cases m with
    | nil => obtain ⟨k, v⟩ := e; simp [Sparse.wf, Sparse.Rising]
    | cons e' m =>
      obtain ⟨k, v⟩ := e
      obtain ⟨k', v'⟩ := e'
      rw [Sparse.wf, Bool.and_eq_true, Bool.and_eq_true, ih]
      simp only [decide_eq_true_eq, Sparse.Rising, List.forall_mem_cons]
      tauto

theorem Sparse.get_of_lt {d : α} {m : Sparse α} {k : Nat} (h : ∀ e ∈ m, k < e.1) : Sparse.get d m k = d := by
  induction m with
  | nil => rfl
  | cons e m ih =>
    have h1 := h e List.mem_cons_self
    have h2 := ih (fun x hx => h x (List.mem_cons_of_mem _ hx))
    rw [Sparse.get, if_neg (by omega), h2]

theorem Sparse.get_ins_self {d : α} {m : Sparse α} {k : Nat} {v : α} : Sparse.get d (Sparse.ins m k v) k = v := by
  induction m with
  | nil => simp [Sparse.ins, Sparse.get]
  | cons e m ih =>
    simp only [Sparse.ins]
    split
    · rw [Sparse.get, if_neg (by omega), ih]
    · split <;> simp [Sparse.get]

theorem Sparse.get_ins_ne {d : α} {m : Sparse α} {k j : Nat} {v : α} (hj : j ≠ k) :
    Sparse.get d (Sparse.ins m k v) j = Sparse.get d m j := by
  have hkj : ¬ k = j := fun h => hj h.symm
  induction m with
  | nil => simp [Sparse.ins, Sparse.get, hkj]
  | cons e m ih =>
    simp only [Sparse.ins]
    split
    · simp only [Sparse.get, ih]
    · split
      · rename_i h1 h2
        simp [Sparse.get, hkj, h2]
      · simp [Sparse.get, hkj]

theorem Sparse.get_filter_self {d : α} {m : Sparse α} {k : Nat} : Sparse.get d (m.filter (fun e => e.1 != k)) k = d := by
  induction m with
  | nil => rfl
  | cons e m ih =>
    by_cases h : e.1 = k
    · simp [h, ih]
    · simp [h, Sparse.get, ih]

theorem Sparse.get_filter_ne {d : α} {m : Sparse α} {k j : Nat} (hj : j ≠ k) :
    Sparse.get d (m.filter (fun e => e.1 != k)) j = Sparse.get d m j := by
  have hkj : ¬ k = j := fun h => hj h.symm
  induction m with
  | nil => rfl
  | cons e m ih =>
    by_cases h : e.1 = k
    · simp [h, Sparse.get, hkj, ih]
    · simp [h, Sparse.get, ih]

/-- What a `put` writes is read back, or the default where it removes the entry. -/
theorem Sparse.get_put_self {d : α} {keep : Bool} {m : Sparse α} {k : Nat} {v : α} (hk : keep = false → v = d) :
    Sparse.get d (Sparse.put keep m k v) k = v := by
  cases keep
  · rw [Sparse.put, if_neg (by simp), Sparse.get_filter_self, hk rfl]
  · rw [Sparse.put, if_pos rfl, Sparse.get_ins_self]

/-- A `put` leaves every other key alone. -/
theorem Sparse.get_put_ne {d : α} {keep : Bool} {m : Sparse α} {k j : Nat} {v : α} (hj : j ≠ k) :
    Sparse.get d (Sparse.put keep m k v) j = Sparse.get d m j := by
  cases keep
  · rw [Sparse.put, if_neg (by simp), Sparse.get_filter_ne hj]
  · rw [Sparse.put, if_pos rfl, Sparse.get_ins_ne hj]

theorem Sparse.mem_ins {m : Sparse α} {k : Nat} {v : α} {e : Nat × α} (h : e ∈ Sparse.ins m k v) : e = (k, v) ∨ e ∈ m := by
  induction m with
  | nil => simpa [Sparse.ins] using h
  | cons x m ih =>
    simp only [Sparse.ins] at h
    split at h
    · rcases List.mem_cons.mp h with rfl | h
      · exact .inr List.mem_cons_self
      · rcases ih h with h | h
        · exact .inl h
        · exact .inr (List.mem_cons_of_mem _ h)
    · split at h <;> simp_all <;> tauto

theorem Sparse.mem_put {keep : Bool} {m : Sparse α} {k : Nat} {v : α} {e : Nat × α} (h : e ∈ Sparse.put keep m k v) :
    (e = (k, v) ∧ keep = true) ∨ e ∈ m := by
  cases keep
  · rw [Sparse.put, if_neg (by simp)] at h
    exact .inr (List.mem_of_mem_filter h)
  · rw [Sparse.put, if_pos rfl] at h
    rcases Sparse.mem_ins h with h | h
    · exact .inl ⟨h, rfl⟩
    · exact .inr h

theorem Sparse.rising_filter {m : Sparse α} (p : Nat × α → Bool) (h : Sparse.Rising m) : Sparse.Rising (m.filter p) := by
  induction m with
  | nil => exact h
  | cons e m ih =>
    rw [List.filter_cons]
    split
    · exact Sparse.rising_cons (ih h.tail) (fun x hx => h.head_lt (List.mem_of_mem_filter hx))
    · exact ih h.tail

theorem Sparse.rising_ins {m : Sparse α} {k : Nat} {v : α} (h : Sparse.Rising m) : Sparse.Rising (Sparse.ins m k v) := by
  induction m with
  | nil => trivial
  | cons e m ih =>
    obtain ⟨k', v'⟩ := e
    have lt : ∀ x ∈ m, k' < x.1 := fun x hx => h.head_lt hx
    simp only [Sparse.ins]
    split
    · refine Sparse.rising_cons (ih h.tail) (fun x hx => ?_)
      rcases Sparse.mem_ins hx with rfl | hx
      · assumption
      · exact lt x hx
    · split
      · rename_i h1 h2
        subst h2
        exact Sparse.rising_cons h.tail lt
      · exact ⟨by show k < k'; omega, h⟩

theorem Sparse.rising_put {keep : Bool} {m : Sparse α} {k : Nat} {v : α} (h : Sparse.Rising m) : Sparse.Rising (Sparse.put keep m k v) := by
  cases keep
  · rw [Sparse.put, if_neg (by simp)]; exact Sparse.rising_filter _ h
  · rw [Sparse.put, if_pos rfl]; exact Sparse.rising_ins h

/-- Reading after a write to the same key. -/
@[simp] theorem Sparse.get_set_self [DecidableEq α] {d : α} {m : Sparse α} {k : Nat} {v : α} :
    Sparse.get d (Sparse.set d m k v) k = v :=
  Sparse.get_put_self (by simp)

/-- A write leaves every other key alone. -/
theorem Sparse.get_set_ne [DecidableEq α] {d d' : α} {m : Sparse α} {k j : Nat} {v : α} (hj : j ≠ k) :
    Sparse.get d (Sparse.set d' m k v) j = Sparse.get d m j :=
  Sparse.get_put_ne hj

theorem Sparse.rising_set [DecidableEq α] {d : α} {m : Sparse α} {k : Nat} {v : α} (h : Sparse.Rising m) : Sparse.Rising (Sparse.set d m k v) :=
  Sparse.rising_put h

/-- A write keeps the canonical form. -/
theorem Sparse.wf_set [DecidableEq α] {d : α} {m : Sparse α} {k : Nat} {v : α} (h : Sparse.wf (fun _ => d) m = true) :
    Sparse.wf (fun _ => d) (Sparse.set d m k v) = true := by
  rw [Sparse.wf_iff] at h ⊢
  refine ⟨Sparse.rising_put h.1, fun e he => ?_⟩
  rcases Sparse.mem_put he with ⟨rfl, hk⟩ | he
  · simpa using hk
  · exact h.2 e he

/-- Dropping keys keeps the canonical form. -/
theorem Sparse.wf_drop [DecidableEq α] {d : Nat → α} {m : Sparse α} {p : Nat → Bool} (h : Sparse.wf d m = true) :
    Sparse.wf d (Sparse.drop p m) = true := by
  rw [Sparse.wf_iff] at h ⊢
  exact ⟨Sparse.rising_filter _ h.1, fun e he => h.2 e (List.mem_of_mem_filter he)⟩

/-- A dropped key reads as the default; every other key is left alone. -/
theorem Sparse.get_drop {d : α} {m : Sparse α} {p : Nat → Bool} {k : Nat} :
    Sparse.get d (Sparse.drop p m) k = if p k then d else Sparse.get d m k := by
  induction m with
  | nil => simp [Sparse.drop]
  | cons e m ih =>
    obtain ⟨k', v'⟩ := e
    simp only [Sparse.drop] at ih ⊢
    rw [List.filter_cons]
    by_cases h : k' = k
    · subst h
      cases hp : p k' <;> simp [Sparse.get, hp, ih]
    · cases hp' : p k' <;> simp [Sparse.get, h, hp', ih]

/-- Two canonical maps that read alike are equal. -/
theorem Sparse.ext_of_wf [DecidableEq α] {d : α} {m n : Sparse α} (hm : Sparse.wf (fun _ => d) m = true) (hn : Sparse.wf (fun _ => d) n = true)
    (h : ∀ k, Sparse.get d m k = Sparse.get d n k) : m = n := by
  rw [Sparse.wf_iff] at hm hn
  induction m generalizing n with
  | nil =>
    cases n with
    | nil => rfl
    | cons e n =>
      have := h e.1
      simp [Sparse.get] at this
      exact absurd this.symm (hn.2 e List.mem_cons_self)
  | cons e m ih =>
    cases n with
    | nil =>
      have := h e.1
      simp [Sparse.get] at this
      exact absurd this (hm.2 e List.mem_cons_self)
    | cons f n =>
      obtain ⟨k, v⟩ := e
      obtain ⟨j, w⟩ := f
      have hv := hm.2 (k, v) List.mem_cons_self
      have hw := hn.2 (j, w) List.mem_cons_self
      have lm : ∀ x ∈ m, k < x.1 := fun x hx => hm.1.head_lt hx
      have ln : ∀ x ∈ n, j < x.1 := fun x hx => hn.1.head_lt hx
      have hkj : k = j := by
        rcases Nat.lt_trichotomy k j with hlt | heq | hlt
        · have := h k
          rw [Sparse.get, if_pos rfl, Sparse.get, if_neg (by omega), Sparse.get_of_lt (fun x hx => by have := ln x hx; omega)] at this
          exact absurd this hv
        · exact heq
        · have := h j
          rw [Sparse.get, if_neg (by omega), Sparse.get_of_lt (fun x hx => by have := lm x hx; omega), Sparse.get, if_pos rfl] at this
          exact absurd this.symm hw
      subst hkj
      have hvw : v = w := by simpa [Sparse.get] using h k
      subst hvw
      rw [ih (n := n) ⟨hm.1.tail, fun x hx => hm.2 x (List.mem_cons_of_mem _ hx)⟩ ⟨hn.1.tail, fun x hx => hn.2 x (List.mem_cons_of_mem _ hx)⟩ ?_]
      intro i
      by_cases hi : i ≤ k
      · rw [Sparse.get_of_lt (fun x hx => by have := lm x hx; omega), Sparse.get_of_lt (fun x hx => by have := ln x hx; omega)]
      · have := h i
        rwa [Sparse.get, if_neg (by omega), Sparse.get, if_neg (by omega)] at this

end Sys2Proof.Machine
end

