-- ==== Sys2Proof/Laws/State.lean ====
section
/-! SUPPORT. One lemma per field and update: what each update of the state leaves alone. -/
namespace Sys2Proof.Machine

/-! `State.setReg` changes regs alone. -/
section
variable (s : State) (u : Nat) (r : Reg) (v : W64)
@[simp] theorem State.setReg_pending : (s.setReg u r v).pending = s.pending := by unfold State.setReg; rfl
@[simp] theorem State.setReg_free : (s.setReg u r v).free = s.free := by unfold State.setReg; rfl
@[simp] theorem State.setReg_mem : (s.setReg u r v).mem = s.mem := by unfold State.setReg; rfl
@[simp] theorem State.setReg_poison : (s.setReg u r v).poison = s.poison := by unfold State.setReg; rfl
@[simp] theorem State.setReg_tiles : (s.setReg u r v).tiles = s.tiles := by unfold State.setReg; rfl
@[simp] theorem State.setReg_provs : (s.setReg u r v).provs = s.provs := by unfold State.setReg; rfl
@[simp] theorem State.setReg_talons : (s.setReg u r v).talons = s.talons := by unfold State.setReg; rfl
@[simp] theorem State.setReg_bulks : (s.setReg u r v).bulks = s.bulks := by unfold State.setReg; rfl
@[simp] theorem State.setReg_errs : (s.setReg u r v).errs = s.errs := by unfold State.setReg; rfl
@[simp] theorem State.setReg_memc : (s.setReg u r v).memc = s.memc := by unfold State.setReg; rfl
@[simp] theorem State.setReg_mer : (s.setReg u r v).mer = s.mer := by unfold State.setReg; rfl
@[simp] theorem State.setReg_stw : (s.setReg u r v).stw = s.stw := by unfold State.setReg; rfl
@[simp] theorem State.setReg_net : (s.setReg u r v).net = s.net := by unfold State.setReg; rfl
@[simp] theorem State.setReg_hands : (s.setReg u r v).hands = s.hands := by unfold State.setReg; rfl
@[simp] theorem State.setReg_fns : (s.setReg u r v).fns = s.fns := by unfold State.setReg; rfl
@[simp] theorem State.setReg_perst : (s.setReg u r v).perst = s.perst := by unfold State.setReg; rfl
@[simp] theorem State.setReg_dlUp : (s.setReg u r v).dlUp = s.dlUp := by unfold State.setReg; rfl
@[simp] theorem State.setReg_shadow : (s.setReg u r v).shadow = s.shadow := by unfold State.setReg; rfl
@[simp] theorem State.setReg_pwr : (s.setReg u r v).pwr = s.pwr := by unfold State.setReg; rfl
@[simp] theorem State.setReg_pinReset : (s.setReg u r v).pinReset = s.pinReset := by unfold State.setReg; rfl
@[simp] theorem State.setReg_railLow : (s.setReg u r v).railLow = s.railLow := by unfold State.setReg; rfl
@[simp] theorem State.setReg_clkLow : (s.setReg u r v).clkLow = s.clkLow := by unfold State.setReg; rfl
@[simp] theorem State.setReg_tap : (s.setReg u r v).tap = s.tap := by unfold State.setReg; rfl
@[simp] theorem State.setReg_sent : (s.setReg u r v).sent = s.sent := by unfold State.setReg; rfl

end
/-! `State.setFld` changes regs alone. -/
section
variable (s : State) (u : Nat) (f : Fld) (v : Nat)
@[simp] theorem State.setFld_pending : (s.setFld u f v).pending = s.pending := by unfold State.setFld; exact State.setReg_pending ..
@[simp] theorem State.setFld_free : (s.setFld u f v).free = s.free := by unfold State.setFld; exact State.setReg_free ..
@[simp] theorem State.setFld_mem : (s.setFld u f v).mem = s.mem := by unfold State.setFld; exact State.setReg_mem ..
@[simp] theorem State.setFld_poison : (s.setFld u f v).poison = s.poison := by unfold State.setFld; exact State.setReg_poison ..
@[simp] theorem State.setFld_tiles : (s.setFld u f v).tiles = s.tiles := by unfold State.setFld; exact State.setReg_tiles ..
@[simp] theorem State.setFld_provs : (s.setFld u f v).provs = s.provs := by unfold State.setFld; exact State.setReg_provs ..
@[simp] theorem State.setFld_talons : (s.setFld u f v).talons = s.talons := by unfold State.setFld; exact State.setReg_talons ..
@[simp] theorem State.setFld_bulks : (s.setFld u f v).bulks = s.bulks := by unfold State.setFld; exact State.setReg_bulks ..
@[simp] theorem State.setFld_errs : (s.setFld u f v).errs = s.errs := by unfold State.setFld; exact State.setReg_errs ..
@[simp] theorem State.setFld_memc : (s.setFld u f v).memc = s.memc := by unfold State.setFld; exact State.setReg_memc ..
@[simp] theorem State.setFld_mer : (s.setFld u f v).mer = s.mer := by unfold State.setFld; exact State.setReg_mer ..
@[simp] theorem State.setFld_stw : (s.setFld u f v).stw = s.stw := by unfold State.setFld; exact State.setReg_stw ..
@[simp] theorem State.setFld_net : (s.setFld u f v).net = s.net := by unfold State.setFld; exact State.setReg_net ..
@[simp] theorem State.setFld_hands : (s.setFld u f v).hands = s.hands := by unfold State.setFld; exact State.setReg_hands ..
@[simp] theorem State.setFld_fns : (s.setFld u f v).fns = s.fns := by unfold State.setFld; exact State.setReg_fns ..
@[simp] theorem State.setFld_perst : (s.setFld u f v).perst = s.perst := by unfold State.setFld; exact State.setReg_perst ..
@[simp] theorem State.setFld_dlUp : (s.setFld u f v).dlUp = s.dlUp := by unfold State.setFld; exact State.setReg_dlUp ..
@[simp] theorem State.setFld_shadow : (s.setFld u f v).shadow = s.shadow := by unfold State.setFld; exact State.setReg_shadow ..
@[simp] theorem State.setFld_pwr : (s.setFld u f v).pwr = s.pwr := by unfold State.setFld; exact State.setReg_pwr ..
@[simp] theorem State.setFld_pinReset : (s.setFld u f v).pinReset = s.pinReset := by unfold State.setFld; exact State.setReg_pinReset ..
@[simp] theorem State.setFld_railLow : (s.setFld u f v).railLow = s.railLow := by unfold State.setFld; exact State.setReg_railLow ..
@[simp] theorem State.setFld_clkLow : (s.setFld u f v).clkLow = s.clkLow := by unfold State.setFld; exact State.setReg_clkLow ..
@[simp] theorem State.setFld_tap : (s.setFld u f v).tap = s.tap := by unfold State.setFld; exact State.setReg_tap ..
@[simp] theorem State.setFld_sent : (s.setFld u f v).sent = s.sent := by unfold State.setFld; exact State.setReg_sent ..

end
/-! `State.orFld` changes regs alone. -/
section
variable (s : State) (u : Nat) (f : Fld) (m : Nat)
@[simp] theorem State.orFld_pending : (s.orFld u f m).pending = s.pending := by unfold State.orFld; exact State.setFld_pending ..
@[simp] theorem State.orFld_free : (s.orFld u f m).free = s.free := by unfold State.orFld; exact State.setFld_free ..
@[simp] theorem State.orFld_mem : (s.orFld u f m).mem = s.mem := by unfold State.orFld; exact State.setFld_mem ..
@[simp] theorem State.orFld_poison : (s.orFld u f m).poison = s.poison := by unfold State.orFld; exact State.setFld_poison ..
@[simp] theorem State.orFld_tiles : (s.orFld u f m).tiles = s.tiles := by unfold State.orFld; exact State.setFld_tiles ..
@[simp] theorem State.orFld_provs : (s.orFld u f m).provs = s.provs := by unfold State.orFld; exact State.setFld_provs ..
@[simp] theorem State.orFld_talons : (s.orFld u f m).talons = s.talons := by unfold State.orFld; exact State.setFld_talons ..
@[simp] theorem State.orFld_bulks : (s.orFld u f m).bulks = s.bulks := by unfold State.orFld; exact State.setFld_bulks ..
@[simp] theorem State.orFld_errs : (s.orFld u f m).errs = s.errs := by unfold State.orFld; exact State.setFld_errs ..
@[simp] theorem State.orFld_memc : (s.orFld u f m).memc = s.memc := by unfold State.orFld; exact State.setFld_memc ..
@[simp] theorem State.orFld_mer : (s.orFld u f m).mer = s.mer := by unfold State.orFld; exact State.setFld_mer ..
@[simp] theorem State.orFld_stw : (s.orFld u f m).stw = s.stw := by unfold State.orFld; exact State.setFld_stw ..
@[simp] theorem State.orFld_net : (s.orFld u f m).net = s.net := by unfold State.orFld; exact State.setFld_net ..
@[simp] theorem State.orFld_hands : (s.orFld u f m).hands = s.hands := by unfold State.orFld; exact State.setFld_hands ..
@[simp] theorem State.orFld_fns : (s.orFld u f m).fns = s.fns := by unfold State.orFld; exact State.setFld_fns ..
@[simp] theorem State.orFld_perst : (s.orFld u f m).perst = s.perst := by unfold State.orFld; exact State.setFld_perst ..
@[simp] theorem State.orFld_dlUp : (s.orFld u f m).dlUp = s.dlUp := by unfold State.orFld; exact State.setFld_dlUp ..
@[simp] theorem State.orFld_shadow : (s.orFld u f m).shadow = s.shadow := by unfold State.orFld; exact State.setFld_shadow ..
@[simp] theorem State.orFld_pwr : (s.orFld u f m).pwr = s.pwr := by unfold State.orFld; exact State.setFld_pwr ..
@[simp] theorem State.orFld_pinReset : (s.orFld u f m).pinReset = s.pinReset := by unfold State.orFld; exact State.setFld_pinReset ..
@[simp] theorem State.orFld_railLow : (s.orFld u f m).railLow = s.railLow := by unfold State.orFld; exact State.setFld_railLow ..
@[simp] theorem State.orFld_clkLow : (s.orFld u f m).clkLow = s.clkLow := by unfold State.orFld; exact State.setFld_clkLow ..
@[simp] theorem State.orFld_tap : (s.orFld u f m).tap = s.tap := by unfold State.orFld; exact State.setFld_tap ..
@[simp] theorem State.orFld_sent : (s.orFld u f m).sent = s.sent := by unfold State.orFld; exact State.setFld_sent ..

end
/-! `State.incFld` changes regs alone. -/
section
variable (s : State) (u : Nat) (f : Fld) (n : Nat)
@[simp] theorem State.incFld_pending : (s.incFld u f n).pending = s.pending := by unfold State.incFld; exact State.setFld_pending ..
@[simp] theorem State.incFld_free : (s.incFld u f n).free = s.free := by unfold State.incFld; exact State.setFld_free ..
@[simp] theorem State.incFld_mem : (s.incFld u f n).mem = s.mem := by unfold State.incFld; exact State.setFld_mem ..
@[simp] theorem State.incFld_poison : (s.incFld u f n).poison = s.poison := by unfold State.incFld; exact State.setFld_poison ..
@[simp] theorem State.incFld_tiles : (s.incFld u f n).tiles = s.tiles := by unfold State.incFld; exact State.setFld_tiles ..
@[simp] theorem State.incFld_provs : (s.incFld u f n).provs = s.provs := by unfold State.incFld; exact State.setFld_provs ..
@[simp] theorem State.incFld_talons : (s.incFld u f n).talons = s.talons := by unfold State.incFld; exact State.setFld_talons ..
@[simp] theorem State.incFld_bulks : (s.incFld u f n).bulks = s.bulks := by unfold State.incFld; exact State.setFld_bulks ..
@[simp] theorem State.incFld_errs : (s.incFld u f n).errs = s.errs := by unfold State.incFld; exact State.setFld_errs ..
@[simp] theorem State.incFld_memc : (s.incFld u f n).memc = s.memc := by unfold State.incFld; exact State.setFld_memc ..
@[simp] theorem State.incFld_mer : (s.incFld u f n).mer = s.mer := by unfold State.incFld; exact State.setFld_mer ..
@[simp] theorem State.incFld_stw : (s.incFld u f n).stw = s.stw := by unfold State.incFld; exact State.setFld_stw ..
@[simp] theorem State.incFld_net : (s.incFld u f n).net = s.net := by unfold State.incFld; exact State.setFld_net ..
@[simp] theorem State.incFld_hands : (s.incFld u f n).hands = s.hands := by unfold State.incFld; exact State.setFld_hands ..
@[simp] theorem State.incFld_fns : (s.incFld u f n).fns = s.fns := by unfold State.incFld; exact State.setFld_fns ..
@[simp] theorem State.incFld_perst : (s.incFld u f n).perst = s.perst := by unfold State.incFld; exact State.setFld_perst ..
@[simp] theorem State.incFld_dlUp : (s.incFld u f n).dlUp = s.dlUp := by unfold State.incFld; exact State.setFld_dlUp ..
@[simp] theorem State.incFld_shadow : (s.incFld u f n).shadow = s.shadow := by unfold State.incFld; exact State.setFld_shadow ..
@[simp] theorem State.incFld_pwr : (s.incFld u f n).pwr = s.pwr := by unfold State.incFld; exact State.setFld_pwr ..
@[simp] theorem State.incFld_pinReset : (s.incFld u f n).pinReset = s.pinReset := by unfold State.incFld; exact State.setFld_pinReset ..
@[simp] theorem State.incFld_railLow : (s.incFld u f n).railLow = s.railLow := by unfold State.incFld; exact State.setFld_railLow ..
@[simp] theorem State.incFld_clkLow : (s.incFld u f n).clkLow = s.clkLow := by unfold State.incFld; exact State.setFld_clkLow ..
@[simp] theorem State.incFld_tap : (s.incFld u f n).tap = s.tap := by unfold State.incFld; exact State.setFld_tap ..
@[simp] theorem State.incFld_sent : (s.incFld u f n).sent = s.sent := by unfold State.incFld; exact State.setFld_sent ..

end
/-! `State.clearRegs` changes regs alone. -/
section
variable (s : State) (b : Block) (u : Nat)
@[simp] theorem State.clearRegs_pending : (s.clearRegs b u).pending = s.pending := by unfold State.clearRegs; rfl
@[simp] theorem State.clearRegs_free : (s.clearRegs b u).free = s.free := by unfold State.clearRegs; rfl
@[simp] theorem State.clearRegs_mem : (s.clearRegs b u).mem = s.mem := by unfold State.clearRegs; rfl
@[simp] theorem State.clearRegs_poison : (s.clearRegs b u).poison = s.poison := by unfold State.clearRegs; rfl
@[simp] theorem State.clearRegs_tiles : (s.clearRegs b u).tiles = s.tiles := by unfold State.clearRegs; rfl
@[simp] theorem State.clearRegs_provs : (s.clearRegs b u).provs = s.provs := by unfold State.clearRegs; rfl
@[simp] theorem State.clearRegs_talons : (s.clearRegs b u).talons = s.talons := by unfold State.clearRegs; rfl
@[simp] theorem State.clearRegs_bulks : (s.clearRegs b u).bulks = s.bulks := by unfold State.clearRegs; rfl
@[simp] theorem State.clearRegs_errs : (s.clearRegs b u).errs = s.errs := by unfold State.clearRegs; rfl
@[simp] theorem State.clearRegs_memc : (s.clearRegs b u).memc = s.memc := by unfold State.clearRegs; rfl
@[simp] theorem State.clearRegs_mer : (s.clearRegs b u).mer = s.mer := by unfold State.clearRegs; rfl
@[simp] theorem State.clearRegs_stw : (s.clearRegs b u).stw = s.stw := by unfold State.clearRegs; rfl
@[simp] theorem State.clearRegs_net : (s.clearRegs b u).net = s.net := by unfold State.clearRegs; rfl
@[simp] theorem State.clearRegs_hands : (s.clearRegs b u).hands = s.hands := by unfold State.clearRegs; rfl
@[simp] theorem State.clearRegs_fns : (s.clearRegs b u).fns = s.fns := by unfold State.clearRegs; rfl
@[simp] theorem State.clearRegs_perst : (s.clearRegs b u).perst = s.perst := by unfold State.clearRegs; rfl
@[simp] theorem State.clearRegs_dlUp : (s.clearRegs b u).dlUp = s.dlUp := by unfold State.clearRegs; rfl
@[simp] theorem State.clearRegs_shadow : (s.clearRegs b u).shadow = s.shadow := by unfold State.clearRegs; rfl
@[simp] theorem State.clearRegs_pwr : (s.clearRegs b u).pwr = s.pwr := by unfold State.clearRegs; rfl
@[simp] theorem State.clearRegs_pinReset : (s.clearRegs b u).pinReset = s.pinReset := by unfold State.clearRegs; rfl
@[simp] theorem State.clearRegs_railLow : (s.clearRegs b u).railLow = s.railLow := by unfold State.clearRegs; rfl
@[simp] theorem State.clearRegs_clkLow : (s.clearRegs b u).clkLow = s.clkLow := by unfold State.clearRegs; rfl
@[simp] theorem State.clearRegs_tap : (s.clearRegs b u).tap = s.tap := by unfold State.clearRegs; rfl
@[simp] theorem State.clearRegs_sent : (s.clearRegs b u).sent = s.sent := by unfold State.clearRegs; rfl

end
/-! `State.flag` changes regs alone. -/
section
variable (s : State) (u : Nat) (f : Fld) (b : Bool)
@[simp] theorem State.flag_pending : (s.flag u f b).pending = s.pending := by unfold State.flag; split <;> simp
@[simp] theorem State.flag_free : (s.flag u f b).free = s.free := by unfold State.flag; split <;> simp
@[simp] theorem State.flag_mem : (s.flag u f b).mem = s.mem := by unfold State.flag; split <;> simp
@[simp] theorem State.flag_poison : (s.flag u f b).poison = s.poison := by unfold State.flag; split <;> simp
@[simp] theorem State.flag_tiles : (s.flag u f b).tiles = s.tiles := by unfold State.flag; split <;> simp
@[simp] theorem State.flag_provs : (s.flag u f b).provs = s.provs := by unfold State.flag; split <;> simp
@[simp] theorem State.flag_talons : (s.flag u f b).talons = s.talons := by unfold State.flag; split <;> simp
@[simp] theorem State.flag_bulks : (s.flag u f b).bulks = s.bulks := by unfold State.flag; split <;> simp
@[simp] theorem State.flag_errs : (s.flag u f b).errs = s.errs := by unfold State.flag; split <;> simp
@[simp] theorem State.flag_memc : (s.flag u f b).memc = s.memc := by unfold State.flag; split <;> simp
@[simp] theorem State.flag_mer : (s.flag u f b).mer = s.mer := by unfold State.flag; split <;> simp
@[simp] theorem State.flag_stw : (s.flag u f b).stw = s.stw := by unfold State.flag; split <;> simp
@[simp] theorem State.flag_net : (s.flag u f b).net = s.net := by unfold State.flag; split <;> simp
@[simp] theorem State.flag_hands : (s.flag u f b).hands = s.hands := by unfold State.flag; split <;> simp
@[simp] theorem State.flag_fns : (s.flag u f b).fns = s.fns := by unfold State.flag; split <;> simp
@[simp] theorem State.flag_perst : (s.flag u f b).perst = s.perst := by unfold State.flag; split <;> simp
@[simp] theorem State.flag_dlUp : (s.flag u f b).dlUp = s.dlUp := by unfold State.flag; split <;> simp
@[simp] theorem State.flag_shadow : (s.flag u f b).shadow = s.shadow := by unfold State.flag; split <;> simp
@[simp] theorem State.flag_pwr : (s.flag u f b).pwr = s.pwr := by unfold State.flag; split <;> simp
@[simp] theorem State.flag_pinReset : (s.flag u f b).pinReset = s.pinReset := by unfold State.flag; split <;> simp
@[simp] theorem State.flag_railLow : (s.flag u f b).railLow = s.railLow := by unfold State.flag; split <;> simp
@[simp] theorem State.flag_clkLow : (s.flag u f b).clkLow = s.clkLow := by unfold State.flag; split <;> simp
@[simp] theorem State.flag_tap : (s.flag u f b).tap = s.tap := by unfold State.flag; split <;> simp
@[simp] theorem State.flag_sent : (s.flag u f b).sent = s.sent := by unfold State.flag; split <;> simp

end
/-! `State.setTile` changes tiles alone. -/
section
variable (s : State) (t : Nat) (x : Tile)
@[simp] theorem State.setTile_pending : (s.setTile t x).pending = s.pending := by unfold State.setTile; rfl
@[simp] theorem State.setTile_free : (s.setTile t x).free = s.free := by unfold State.setTile; rfl
@[simp] theorem State.setTile_regs : (s.setTile t x).regs = s.regs := by unfold State.setTile; rfl
@[simp] theorem State.setTile_mem : (s.setTile t x).mem = s.mem := by unfold State.setTile; rfl
@[simp] theorem State.setTile_poison : (s.setTile t x).poison = s.poison := by unfold State.setTile; rfl
@[simp] theorem State.setTile_provs : (s.setTile t x).provs = s.provs := by unfold State.setTile; rfl
@[simp] theorem State.setTile_talons : (s.setTile t x).talons = s.talons := by unfold State.setTile; rfl
@[simp] theorem State.setTile_bulks : (s.setTile t x).bulks = s.bulks := by unfold State.setTile; rfl
@[simp] theorem State.setTile_errs : (s.setTile t x).errs = s.errs := by unfold State.setTile; rfl
@[simp] theorem State.setTile_memc : (s.setTile t x).memc = s.memc := by unfold State.setTile; rfl
@[simp] theorem State.setTile_mer : (s.setTile t x).mer = s.mer := by unfold State.setTile; rfl
@[simp] theorem State.setTile_stw : (s.setTile t x).stw = s.stw := by unfold State.setTile; rfl
@[simp] theorem State.setTile_net : (s.setTile t x).net = s.net := by unfold State.setTile; rfl
@[simp] theorem State.setTile_hands : (s.setTile t x).hands = s.hands := by unfold State.setTile; rfl
@[simp] theorem State.setTile_fns : (s.setTile t x).fns = s.fns := by unfold State.setTile; rfl
@[simp] theorem State.setTile_perst : (s.setTile t x).perst = s.perst := by unfold State.setTile; rfl
@[simp] theorem State.setTile_dlUp : (s.setTile t x).dlUp = s.dlUp := by unfold State.setTile; rfl
@[simp] theorem State.setTile_shadow : (s.setTile t x).shadow = s.shadow := by unfold State.setTile; rfl
@[simp] theorem State.setTile_pwr : (s.setTile t x).pwr = s.pwr := by unfold State.setTile; rfl
@[simp] theorem State.setTile_pinReset : (s.setTile t x).pinReset = s.pinReset := by unfold State.setTile; rfl
@[simp] theorem State.setTile_railLow : (s.setTile t x).railLow = s.railLow := by unfold State.setTile; rfl
@[simp] theorem State.setTile_clkLow : (s.setTile t x).clkLow = s.clkLow := by unfold State.setTile; rfl
@[simp] theorem State.setTile_tap : (s.setTile t x).tap = s.tap := by unfold State.setTile; rfl
@[simp] theorem State.setTile_sent : (s.setTile t x).sent = s.sent := by unfold State.setTile; rfl

end
/-! `State.setProv` changes provs alone. -/
section
variable (s : State) (p : Nat) (x : Prov)
@[simp] theorem State.setProv_pending : (s.setProv p x).pending = s.pending := by unfold State.setProv; rfl
@[simp] theorem State.setProv_free : (s.setProv p x).free = s.free := by unfold State.setProv; rfl
@[simp] theorem State.setProv_regs : (s.setProv p x).regs = s.regs := by unfold State.setProv; rfl
@[simp] theorem State.setProv_mem : (s.setProv p x).mem = s.mem := by unfold State.setProv; rfl
@[simp] theorem State.setProv_poison : (s.setProv p x).poison = s.poison := by unfold State.setProv; rfl
@[simp] theorem State.setProv_tiles : (s.setProv p x).tiles = s.tiles := by unfold State.setProv; rfl
@[simp] theorem State.setProv_talons : (s.setProv p x).talons = s.talons := by unfold State.setProv; rfl
@[simp] theorem State.setProv_bulks : (s.setProv p x).bulks = s.bulks := by unfold State.setProv; rfl
@[simp] theorem State.setProv_errs : (s.setProv p x).errs = s.errs := by unfold State.setProv; rfl
@[simp] theorem State.setProv_memc : (s.setProv p x).memc = s.memc := by unfold State.setProv; rfl
@[simp] theorem State.setProv_mer : (s.setProv p x).mer = s.mer := by unfold State.setProv; rfl
@[simp] theorem State.setProv_stw : (s.setProv p x).stw = s.stw := by unfold State.setProv; rfl
@[simp] theorem State.setProv_net : (s.setProv p x).net = s.net := by unfold State.setProv; rfl
@[simp] theorem State.setProv_hands : (s.setProv p x).hands = s.hands := by unfold State.setProv; rfl
@[simp] theorem State.setProv_fns : (s.setProv p x).fns = s.fns := by unfold State.setProv; rfl
@[simp] theorem State.setProv_perst : (s.setProv p x).perst = s.perst := by unfold State.setProv; rfl
@[simp] theorem State.setProv_dlUp : (s.setProv p x).dlUp = s.dlUp := by unfold State.setProv; rfl
@[simp] theorem State.setProv_shadow : (s.setProv p x).shadow = s.shadow := by unfold State.setProv; rfl
@[simp] theorem State.setProv_pwr : (s.setProv p x).pwr = s.pwr := by unfold State.setProv; rfl
@[simp] theorem State.setProv_pinReset : (s.setProv p x).pinReset = s.pinReset := by unfold State.setProv; rfl
@[simp] theorem State.setProv_railLow : (s.setProv p x).railLow = s.railLow := by unfold State.setProv; rfl
@[simp] theorem State.setProv_clkLow : (s.setProv p x).clkLow = s.clkLow := by unfold State.setProv; rfl
@[simp] theorem State.setProv_tap : (s.setProv p x).tap = s.tap := by unfold State.setProv; rfl
@[simp] theorem State.setProv_sent : (s.setProv p x).sent = s.sent := by unfold State.setProv; rfl

end
/-! `State.setTalon` changes talons alone. -/
section
variable (s : State) (n : Nat) (x : Talon)
@[simp] theorem State.setTalon_pending : (s.setTalon n x).pending = s.pending := by unfold State.setTalon; rfl
@[simp] theorem State.setTalon_free : (s.setTalon n x).free = s.free := by unfold State.setTalon; rfl
@[simp] theorem State.setTalon_regs : (s.setTalon n x).regs = s.regs := by unfold State.setTalon; rfl
@[simp] theorem State.setTalon_mem : (s.setTalon n x).mem = s.mem := by unfold State.setTalon; rfl
@[simp] theorem State.setTalon_poison : (s.setTalon n x).poison = s.poison := by unfold State.setTalon; rfl
@[simp] theorem State.setTalon_tiles : (s.setTalon n x).tiles = s.tiles := by unfold State.setTalon; rfl
@[simp] theorem State.setTalon_provs : (s.setTalon n x).provs = s.provs := by unfold State.setTalon; rfl
@[simp] theorem State.setTalon_bulks : (s.setTalon n x).bulks = s.bulks := by unfold State.setTalon; rfl
@[simp] theorem State.setTalon_errs : (s.setTalon n x).errs = s.errs := by unfold State.setTalon; rfl
@[simp] theorem State.setTalon_memc : (s.setTalon n x).memc = s.memc := by unfold State.setTalon; rfl
@[simp] theorem State.setTalon_mer : (s.setTalon n x).mer = s.mer := by unfold State.setTalon; rfl
@[simp] theorem State.setTalon_stw : (s.setTalon n x).stw = s.stw := by unfold State.setTalon; rfl
@[simp] theorem State.setTalon_net : (s.setTalon n x).net = s.net := by unfold State.setTalon; rfl
@[simp] theorem State.setTalon_hands : (s.setTalon n x).hands = s.hands := by unfold State.setTalon; rfl
@[simp] theorem State.setTalon_fns : (s.setTalon n x).fns = s.fns := by unfold State.setTalon; rfl
@[simp] theorem State.setTalon_perst : (s.setTalon n x).perst = s.perst := by unfold State.setTalon; rfl
@[simp] theorem State.setTalon_dlUp : (s.setTalon n x).dlUp = s.dlUp := by unfold State.setTalon; rfl
@[simp] theorem State.setTalon_shadow : (s.setTalon n x).shadow = s.shadow := by unfold State.setTalon; rfl
@[simp] theorem State.setTalon_pwr : (s.setTalon n x).pwr = s.pwr := by unfold State.setTalon; rfl
@[simp] theorem State.setTalon_pinReset : (s.setTalon n x).pinReset = s.pinReset := by unfold State.setTalon; rfl
@[simp] theorem State.setTalon_railLow : (s.setTalon n x).railLow = s.railLow := by unfold State.setTalon; rfl
@[simp] theorem State.setTalon_clkLow : (s.setTalon n x).clkLow = s.clkLow := by unfold State.setTalon; rfl
@[simp] theorem State.setTalon_tap : (s.setTalon n x).tap = s.tap := by unfold State.setTalon; rfl
@[simp] theorem State.setTalon_sent : (s.setTalon n x).sent = s.sent := by unfold State.setTalon; rfl

end
/-! `State.setBulk` changes bulks alone. -/
section
variable (s : State) (n : Nat) (x : Bulk)
@[simp] theorem State.setBulk_pending : (s.setBulk n x).pending = s.pending := by unfold State.setBulk; rfl
@[simp] theorem State.setBulk_free : (s.setBulk n x).free = s.free := by unfold State.setBulk; rfl
@[simp] theorem State.setBulk_regs : (s.setBulk n x).regs = s.regs := by unfold State.setBulk; rfl
@[simp] theorem State.setBulk_mem : (s.setBulk n x).mem = s.mem := by unfold State.setBulk; rfl
@[simp] theorem State.setBulk_poison : (s.setBulk n x).poison = s.poison := by unfold State.setBulk; rfl
@[simp] theorem State.setBulk_tiles : (s.setBulk n x).tiles = s.tiles := by unfold State.setBulk; rfl
@[simp] theorem State.setBulk_provs : (s.setBulk n x).provs = s.provs := by unfold State.setBulk; rfl
@[simp] theorem State.setBulk_talons : (s.setBulk n x).talons = s.talons := by unfold State.setBulk; rfl
@[simp] theorem State.setBulk_errs : (s.setBulk n x).errs = s.errs := by unfold State.setBulk; rfl
@[simp] theorem State.setBulk_memc : (s.setBulk n x).memc = s.memc := by unfold State.setBulk; rfl
@[simp] theorem State.setBulk_mer : (s.setBulk n x).mer = s.mer := by unfold State.setBulk; rfl
@[simp] theorem State.setBulk_stw : (s.setBulk n x).stw = s.stw := by unfold State.setBulk; rfl
@[simp] theorem State.setBulk_net : (s.setBulk n x).net = s.net := by unfold State.setBulk; rfl
@[simp] theorem State.setBulk_hands : (s.setBulk n x).hands = s.hands := by unfold State.setBulk; rfl
@[simp] theorem State.setBulk_fns : (s.setBulk n x).fns = s.fns := by unfold State.setBulk; rfl
@[simp] theorem State.setBulk_perst : (s.setBulk n x).perst = s.perst := by unfold State.setBulk; rfl
@[simp] theorem State.setBulk_dlUp : (s.setBulk n x).dlUp = s.dlUp := by unfold State.setBulk; rfl
@[simp] theorem State.setBulk_shadow : (s.setBulk n x).shadow = s.shadow := by unfold State.setBulk; rfl
@[simp] theorem State.setBulk_pwr : (s.setBulk n x).pwr = s.pwr := by unfold State.setBulk; rfl
@[simp] theorem State.setBulk_pinReset : (s.setBulk n x).pinReset = s.pinReset := by unfold State.setBulk; rfl
@[simp] theorem State.setBulk_railLow : (s.setBulk n x).railLow = s.railLow := by unfold State.setBulk; rfl
@[simp] theorem State.setBulk_clkLow : (s.setBulk n x).clkLow = s.clkLow := by unfold State.setBulk; rfl
@[simp] theorem State.setBulk_tap : (s.setBulk n x).tap = s.tap := by unfold State.setBulk; rfl
@[simp] theorem State.setBulk_sent : (s.setBulk n x).sent = s.sent := by unfold State.setBulk; rfl

end
/-! `State.setHand` changes hands alone. -/
section
variable (s : State) (k : Nat) (x : Hand)
@[simp] theorem State.setHand_pending : (s.setHand k x).pending = s.pending := by unfold State.setHand; rfl
@[simp] theorem State.setHand_free : (s.setHand k x).free = s.free := by unfold State.setHand; rfl
@[simp] theorem State.setHand_regs : (s.setHand k x).regs = s.regs := by unfold State.setHand; rfl
@[simp] theorem State.setHand_mem : (s.setHand k x).mem = s.mem := by unfold State.setHand; rfl
@[simp] theorem State.setHand_poison : (s.setHand k x).poison = s.poison := by unfold State.setHand; rfl
@[simp] theorem State.setHand_tiles : (s.setHand k x).tiles = s.tiles := by unfold State.setHand; rfl
@[simp] theorem State.setHand_provs : (s.setHand k x).provs = s.provs := by unfold State.setHand; rfl
@[simp] theorem State.setHand_talons : (s.setHand k x).talons = s.talons := by unfold State.setHand; rfl
@[simp] theorem State.setHand_bulks : (s.setHand k x).bulks = s.bulks := by unfold State.setHand; rfl
@[simp] theorem State.setHand_errs : (s.setHand k x).errs = s.errs := by unfold State.setHand; rfl
@[simp] theorem State.setHand_memc : (s.setHand k x).memc = s.memc := by unfold State.setHand; rfl
@[simp] theorem State.setHand_mer : (s.setHand k x).mer = s.mer := by unfold State.setHand; rfl
@[simp] theorem State.setHand_stw : (s.setHand k x).stw = s.stw := by unfold State.setHand; rfl
@[simp] theorem State.setHand_net : (s.setHand k x).net = s.net := by unfold State.setHand; rfl
@[simp] theorem State.setHand_fns : (s.setHand k x).fns = s.fns := by unfold State.setHand; rfl
@[simp] theorem State.setHand_perst : (s.setHand k x).perst = s.perst := by unfold State.setHand; rfl
@[simp] theorem State.setHand_dlUp : (s.setHand k x).dlUp = s.dlUp := by unfold State.setHand; rfl
@[simp] theorem State.setHand_shadow : (s.setHand k x).shadow = s.shadow := by unfold State.setHand; rfl
@[simp] theorem State.setHand_pwr : (s.setHand k x).pwr = s.pwr := by unfold State.setHand; rfl
@[simp] theorem State.setHand_pinReset : (s.setHand k x).pinReset = s.pinReset := by unfold State.setHand; rfl
@[simp] theorem State.setHand_railLow : (s.setHand k x).railLow = s.railLow := by unfold State.setHand; rfl
@[simp] theorem State.setHand_clkLow : (s.setHand k x).clkLow = s.clkLow := by unfold State.setHand; rfl
@[simp] theorem State.setHand_tap : (s.setHand k x).tap = s.tap := by unfold State.setHand; rfl
@[simp] theorem State.setHand_sent : (s.setHand k x).sent = s.sent := by unfold State.setHand; rfl

end
/-! `State.setFn` changes fns alone. -/
section
variable (s : State) (f : Nat) (x : Fn)
@[simp] theorem State.setFn_pending : (s.setFn f x).pending = s.pending := by unfold State.setFn; rfl
@[simp] theorem State.setFn_free : (s.setFn f x).free = s.free := by unfold State.setFn; rfl
@[simp] theorem State.setFn_regs : (s.setFn f x).regs = s.regs := by unfold State.setFn; rfl
@[simp] theorem State.setFn_mem : (s.setFn f x).mem = s.mem := by unfold State.setFn; rfl
@[simp] theorem State.setFn_poison : (s.setFn f x).poison = s.poison := by unfold State.setFn; rfl
@[simp] theorem State.setFn_tiles : (s.setFn f x).tiles = s.tiles := by unfold State.setFn; rfl
@[simp] theorem State.setFn_provs : (s.setFn f x).provs = s.provs := by unfold State.setFn; rfl
@[simp] theorem State.setFn_talons : (s.setFn f x).talons = s.talons := by unfold State.setFn; rfl
@[simp] theorem State.setFn_bulks : (s.setFn f x).bulks = s.bulks := by unfold State.setFn; rfl
@[simp] theorem State.setFn_errs : (s.setFn f x).errs = s.errs := by unfold State.setFn; rfl
@[simp] theorem State.setFn_memc : (s.setFn f x).memc = s.memc := by unfold State.setFn; rfl
@[simp] theorem State.setFn_mer : (s.setFn f x).mer = s.mer := by unfold State.setFn; rfl
@[simp] theorem State.setFn_stw : (s.setFn f x).stw = s.stw := by unfold State.setFn; rfl
@[simp] theorem State.setFn_net : (s.setFn f x).net = s.net := by unfold State.setFn; rfl
@[simp] theorem State.setFn_hands : (s.setFn f x).hands = s.hands := by unfold State.setFn; rfl
@[simp] theorem State.setFn_perst : (s.setFn f x).perst = s.perst := by unfold State.setFn; rfl
@[simp] theorem State.setFn_dlUp : (s.setFn f x).dlUp = s.dlUp := by unfold State.setFn; rfl
@[simp] theorem State.setFn_shadow : (s.setFn f x).shadow = s.shadow := by unfold State.setFn; rfl
@[simp] theorem State.setFn_pwr : (s.setFn f x).pwr = s.pwr := by unfold State.setFn; rfl
@[simp] theorem State.setFn_pinReset : (s.setFn f x).pinReset = s.pinReset := by unfold State.setFn; rfl
@[simp] theorem State.setFn_railLow : (s.setFn f x).railLow = s.railLow := by unfold State.setFn; rfl
@[simp] theorem State.setFn_clkLow : (s.setFn f x).clkLow = s.clkLow := by unfold State.setFn; rfl
@[simp] theorem State.setFn_tap : (s.setFn f x).tap = s.tap := by unfold State.setFn; rfl
@[simp] theorem State.setFn_sent : (s.setFn f x).sent = s.sent := by unfold State.setFn; rfl

end
/-! `State.setPort` changes net alone. -/
section
variable (s : State) (n : Nat) (x : Port)
@[simp] theorem State.setPort_pending : (s.setPort n x).pending = s.pending := by unfold State.setPort; rfl
@[simp] theorem State.setPort_free : (s.setPort n x).free = s.free := by unfold State.setPort; rfl
@[simp] theorem State.setPort_regs : (s.setPort n x).regs = s.regs := by unfold State.setPort; rfl
@[simp] theorem State.setPort_mem : (s.setPort n x).mem = s.mem := by unfold State.setPort; rfl
@[simp] theorem State.setPort_poison : (s.setPort n x).poison = s.poison := by unfold State.setPort; rfl
@[simp] theorem State.setPort_tiles : (s.setPort n x).tiles = s.tiles := by unfold State.setPort; rfl
@[simp] theorem State.setPort_provs : (s.setPort n x).provs = s.provs := by unfold State.setPort; rfl
@[simp] theorem State.setPort_talons : (s.setPort n x).talons = s.talons := by unfold State.setPort; rfl
@[simp] theorem State.setPort_bulks : (s.setPort n x).bulks = s.bulks := by unfold State.setPort; rfl
@[simp] theorem State.setPort_errs : (s.setPort n x).errs = s.errs := by unfold State.setPort; rfl
@[simp] theorem State.setPort_memc : (s.setPort n x).memc = s.memc := by unfold State.setPort; rfl
@[simp] theorem State.setPort_mer : (s.setPort n x).mer = s.mer := by unfold State.setPort; rfl
@[simp] theorem State.setPort_stw : (s.setPort n x).stw = s.stw := by unfold State.setPort; rfl
@[simp] theorem State.setPort_hands : (s.setPort n x).hands = s.hands := by unfold State.setPort; rfl
@[simp] theorem State.setPort_fns : (s.setPort n x).fns = s.fns := by unfold State.setPort; rfl
@[simp] theorem State.setPort_perst : (s.setPort n x).perst = s.perst := by unfold State.setPort; rfl
@[simp] theorem State.setPort_dlUp : (s.setPort n x).dlUp = s.dlUp := by unfold State.setPort; rfl
@[simp] theorem State.setPort_shadow : (s.setPort n x).shadow = s.shadow := by unfold State.setPort; rfl
@[simp] theorem State.setPort_pwr : (s.setPort n x).pwr = s.pwr := by unfold State.setPort; rfl
@[simp] theorem State.setPort_pinReset : (s.setPort n x).pinReset = s.pinReset := by unfold State.setPort; rfl
@[simp] theorem State.setPort_railLow : (s.setPort n x).railLow = s.railLow := by unfold State.setPort; rfl
@[simp] theorem State.setPort_clkLow : (s.setPort n x).clkLow = s.clkLow := by unfold State.setPort; rfl
@[simp] theorem State.setPort_tap : (s.setPort n x).tap = s.tap := by unfold State.setPort; rfl
@[simp] theorem State.setPort_sent : (s.setPort n x).sent = s.sent := by unfold State.setPort; rfl

end
/-! `State.setCage` changes net alone. -/
section
variable (s : State) (c : Nat) (x : Cage)
@[simp] theorem State.setCage_pending : (s.setCage c x).pending = s.pending := by unfold State.setCage; rfl
@[simp] theorem State.setCage_free : (s.setCage c x).free = s.free := by unfold State.setCage; rfl
@[simp] theorem State.setCage_regs : (s.setCage c x).regs = s.regs := by unfold State.setCage; rfl
@[simp] theorem State.setCage_mem : (s.setCage c x).mem = s.mem := by unfold State.setCage; rfl
@[simp] theorem State.setCage_poison : (s.setCage c x).poison = s.poison := by unfold State.setCage; rfl
@[simp] theorem State.setCage_tiles : (s.setCage c x).tiles = s.tiles := by unfold State.setCage; rfl
@[simp] theorem State.setCage_provs : (s.setCage c x).provs = s.provs := by unfold State.setCage; rfl
@[simp] theorem State.setCage_talons : (s.setCage c x).talons = s.talons := by unfold State.setCage; rfl
@[simp] theorem State.setCage_bulks : (s.setCage c x).bulks = s.bulks := by unfold State.setCage; rfl
@[simp] theorem State.setCage_errs : (s.setCage c x).errs = s.errs := by unfold State.setCage; rfl
@[simp] theorem State.setCage_memc : (s.setCage c x).memc = s.memc := by unfold State.setCage; rfl
@[simp] theorem State.setCage_mer : (s.setCage c x).mer = s.mer := by unfold State.setCage; rfl
@[simp] theorem State.setCage_stw : (s.setCage c x).stw = s.stw := by unfold State.setCage; rfl
@[simp] theorem State.setCage_hands : (s.setCage c x).hands = s.hands := by unfold State.setCage; rfl
@[simp] theorem State.setCage_fns : (s.setCage c x).fns = s.fns := by unfold State.setCage; rfl
@[simp] theorem State.setCage_perst : (s.setCage c x).perst = s.perst := by unfold State.setCage; rfl
@[simp] theorem State.setCage_dlUp : (s.setCage c x).dlUp = s.dlUp := by unfold State.setCage; rfl
@[simp] theorem State.setCage_shadow : (s.setCage c x).shadow = s.shadow := by unfold State.setCage; rfl
@[simp] theorem State.setCage_pwr : (s.setCage c x).pwr = s.pwr := by unfold State.setCage; rfl
@[simp] theorem State.setCage_pinReset : (s.setCage c x).pinReset = s.pinReset := by unfold State.setCage; rfl
@[simp] theorem State.setCage_railLow : (s.setCage c x).railLow = s.railLow := by unfold State.setCage; rfl
@[simp] theorem State.setCage_clkLow : (s.setCage c x).clkLow = s.clkLow := by unfold State.setCage; rfl
@[simp] theorem State.setCage_tap : (s.setCage c x).tap = s.tap := by unfold State.setCage; rfl
@[simp] theorem State.setCage_sent : (s.setCage c x).sent = s.sent := by unfold State.setCage; rfl

end
/-! `State.updLink` changes net alone. -/
section
variable (s : State) (p q : Nat) (f : Link → Link)
@[simp] theorem State.updLink_pending : (s.updLink p q f).pending = s.pending := by unfold State.updLink; rfl
@[simp] theorem State.updLink_free : (s.updLink p q f).free = s.free := by unfold State.updLink; rfl
@[simp] theorem State.updLink_regs : (s.updLink p q f).regs = s.regs := by unfold State.updLink; rfl
@[simp] theorem State.updLink_mem : (s.updLink p q f).mem = s.mem := by unfold State.updLink; rfl
@[simp] theorem State.updLink_poison : (s.updLink p q f).poison = s.poison := by unfold State.updLink; rfl
@[simp] theorem State.updLink_tiles : (s.updLink p q f).tiles = s.tiles := by unfold State.updLink; rfl
@[simp] theorem State.updLink_provs : (s.updLink p q f).provs = s.provs := by unfold State.updLink; rfl
@[simp] theorem State.updLink_talons : (s.updLink p q f).talons = s.talons := by unfold State.updLink; rfl
@[simp] theorem State.updLink_bulks : (s.updLink p q f).bulks = s.bulks := by unfold State.updLink; rfl
@[simp] theorem State.updLink_errs : (s.updLink p q f).errs = s.errs := by unfold State.updLink; rfl
@[simp] theorem State.updLink_memc : (s.updLink p q f).memc = s.memc := by unfold State.updLink; rfl
@[simp] theorem State.updLink_mer : (s.updLink p q f).mer = s.mer := by unfold State.updLink; rfl
@[simp] theorem State.updLink_stw : (s.updLink p q f).stw = s.stw := by unfold State.updLink; rfl
@[simp] theorem State.updLink_hands : (s.updLink p q f).hands = s.hands := by unfold State.updLink; rfl
@[simp] theorem State.updLink_fns : (s.updLink p q f).fns = s.fns := by unfold State.updLink; rfl
@[simp] theorem State.updLink_perst : (s.updLink p q f).perst = s.perst := by unfold State.updLink; rfl
@[simp] theorem State.updLink_dlUp : (s.updLink p q f).dlUp = s.dlUp := by unfold State.updLink; rfl
@[simp] theorem State.updLink_shadow : (s.updLink p q f).shadow = s.shadow := by unfold State.updLink; rfl
@[simp] theorem State.updLink_pwr : (s.updLink p q f).pwr = s.pwr := by unfold State.updLink; rfl
@[simp] theorem State.updLink_pinReset : (s.updLink p q f).pinReset = s.pinReset := by unfold State.updLink; rfl
@[simp] theorem State.updLink_railLow : (s.updLink p q f).railLow = s.railLow := by unfold State.updLink; rfl
@[simp] theorem State.updLink_clkLow : (s.updLink p q f).clkLow = s.clkLow := by unfold State.updLink; rfl
@[simp] theorem State.updLink_tap : (s.updLink p q f).tap = s.tap := by unfold State.updLink; rfl
@[simp] theorem State.updLink_sent : (s.updLink p q f).sent = s.sent := by unfold State.updLink; rfl

end
/-! `State.take` changes net alone. -/
section
variable (s : State) (p q : Nat) (b : NdxBody)
@[simp] theorem State.take_pending : (s.take p q b).pending = s.pending := by unfold State.take; rfl
@[simp] theorem State.take_free : (s.take p q b).free = s.free := by unfold State.take; rfl
@[simp] theorem State.take_regs : (s.take p q b).regs = s.regs := by unfold State.take; rfl
@[simp] theorem State.take_mem : (s.take p q b).mem = s.mem := by unfold State.take; rfl
@[simp] theorem State.take_poison : (s.take p q b).poison = s.poison := by unfold State.take; rfl
@[simp] theorem State.take_tiles : (s.take p q b).tiles = s.tiles := by unfold State.take; rfl
@[simp] theorem State.take_provs : (s.take p q b).provs = s.provs := by unfold State.take; rfl
@[simp] theorem State.take_talons : (s.take p q b).talons = s.talons := by unfold State.take; rfl
@[simp] theorem State.take_bulks : (s.take p q b).bulks = s.bulks := by unfold State.take; rfl
@[simp] theorem State.take_errs : (s.take p q b).errs = s.errs := by unfold State.take; rfl
@[simp] theorem State.take_memc : (s.take p q b).memc = s.memc := by unfold State.take; rfl
@[simp] theorem State.take_mer : (s.take p q b).mer = s.mer := by unfold State.take; rfl
@[simp] theorem State.take_stw : (s.take p q b).stw = s.stw := by unfold State.take; rfl
@[simp] theorem State.take_hands : (s.take p q b).hands = s.hands := by unfold State.take; rfl
@[simp] theorem State.take_fns : (s.take p q b).fns = s.fns := by unfold State.take; rfl
@[simp] theorem State.take_perst : (s.take p q b).perst = s.perst := by unfold State.take; rfl
@[simp] theorem State.take_dlUp : (s.take p q b).dlUp = s.dlUp := by unfold State.take; rfl
@[simp] theorem State.take_shadow : (s.take p q b).shadow = s.shadow := by unfold State.take; rfl
@[simp] theorem State.take_pwr : (s.take p q b).pwr = s.pwr := by unfold State.take; rfl
@[simp] theorem State.take_pinReset : (s.take p q b).pinReset = s.pinReset := by unfold State.take; rfl
@[simp] theorem State.take_railLow : (s.take p q b).railLow = s.railLow := by unfold State.take; rfl
@[simp] theorem State.take_clkLow : (s.take p q b).clkLow = s.clkLow := by unfold State.take; rfl
@[simp] theorem State.take_tap : (s.take p q b).tap = s.tap := by unfold State.take; rfl
@[simp] theorem State.take_sent : (s.take p q b).sent = s.sent := by unfold State.take; rfl

end
/-! `State.setCart` changes stw alone. -/
section
variable (s : State) (c : Cartridge)
@[simp] theorem State.setCart_pending : (s.setCart c).pending = s.pending := by unfold State.setCart; rfl
@[simp] theorem State.setCart_free : (s.setCart c).free = s.free := by unfold State.setCart; rfl
@[simp] theorem State.setCart_regs : (s.setCart c).regs = s.regs := by unfold State.setCart; rfl
@[simp] theorem State.setCart_mem : (s.setCart c).mem = s.mem := by unfold State.setCart; rfl
@[simp] theorem State.setCart_poison : (s.setCart c).poison = s.poison := by unfold State.setCart; rfl
@[simp] theorem State.setCart_tiles : (s.setCart c).tiles = s.tiles := by unfold State.setCart; rfl
@[simp] theorem State.setCart_provs : (s.setCart c).provs = s.provs := by unfold State.setCart; rfl
@[simp] theorem State.setCart_talons : (s.setCart c).talons = s.talons := by unfold State.setCart; rfl
@[simp] theorem State.setCart_bulks : (s.setCart c).bulks = s.bulks := by unfold State.setCart; rfl
@[simp] theorem State.setCart_errs : (s.setCart c).errs = s.errs := by unfold State.setCart; rfl
@[simp] theorem State.setCart_memc : (s.setCart c).memc = s.memc := by unfold State.setCart; rfl
@[simp] theorem State.setCart_mer : (s.setCart c).mer = s.mer := by unfold State.setCart; rfl
@[simp] theorem State.setCart_net : (s.setCart c).net = s.net := by unfold State.setCart; rfl
@[simp] theorem State.setCart_hands : (s.setCart c).hands = s.hands := by unfold State.setCart; rfl
@[simp] theorem State.setCart_fns : (s.setCart c).fns = s.fns := by unfold State.setCart; rfl
@[simp] theorem State.setCart_perst : (s.setCart c).perst = s.perst := by unfold State.setCart; rfl
@[simp] theorem State.setCart_dlUp : (s.setCart c).dlUp = s.dlUp := by unfold State.setCart; rfl
@[simp] theorem State.setCart_shadow : (s.setCart c).shadow = s.shadow := by unfold State.setCart; rfl
@[simp] theorem State.setCart_pwr : (s.setCart c).pwr = s.pwr := by unfold State.setCart; rfl
@[simp] theorem State.setCart_pinReset : (s.setCart c).pinReset = s.pinReset := by unfold State.setCart; rfl
@[simp] theorem State.setCart_railLow : (s.setCart c).railLow = s.railLow := by unfold State.setCart; rfl
@[simp] theorem State.setCart_clkLow : (s.setCart c).clkLow = s.clkLow := by unfold State.setCart; rfl
@[simp] theorem State.setCart_tap : (s.setCart c).tap = s.tap := by unfold State.setCart; rfl
@[simp] theorem State.setCart_sent : (s.setCart c).sent = s.sent := by unfold State.setCart; rfl

end
/-! `State.setConns` changes stw and regs alone. -/
section
variable (s : State) (l : List TspConn)
@[simp] theorem State.setConns_pending : (s.setConns l).pending = s.pending := by unfold State.setConns; simp
@[simp] theorem State.setConns_free : (s.setConns l).free = s.free := by unfold State.setConns; simp
@[simp] theorem State.setConns_mem : (s.setConns l).mem = s.mem := by unfold State.setConns; simp
@[simp] theorem State.setConns_poison : (s.setConns l).poison = s.poison := by unfold State.setConns; simp
@[simp] theorem State.setConns_tiles : (s.setConns l).tiles = s.tiles := by unfold State.setConns; simp
@[simp] theorem State.setConns_provs : (s.setConns l).provs = s.provs := by unfold State.setConns; simp
@[simp] theorem State.setConns_talons : (s.setConns l).talons = s.talons := by unfold State.setConns; simp
@[simp] theorem State.setConns_bulks : (s.setConns l).bulks = s.bulks := by unfold State.setConns; simp
@[simp] theorem State.setConns_errs : (s.setConns l).errs = s.errs := by unfold State.setConns; simp
@[simp] theorem State.setConns_memc : (s.setConns l).memc = s.memc := by unfold State.setConns; simp
@[simp] theorem State.setConns_mer : (s.setConns l).mer = s.mer := by unfold State.setConns; simp
@[simp] theorem State.setConns_net : (s.setConns l).net = s.net := by unfold State.setConns; simp
@[simp] theorem State.setConns_hands : (s.setConns l).hands = s.hands := by unfold State.setConns; simp
@[simp] theorem State.setConns_fns : (s.setConns l).fns = s.fns := by unfold State.setConns; simp
@[simp] theorem State.setConns_perst : (s.setConns l).perst = s.perst := by unfold State.setConns; simp
@[simp] theorem State.setConns_dlUp : (s.setConns l).dlUp = s.dlUp := by unfold State.setConns; simp
@[simp] theorem State.setConns_shadow : (s.setConns l).shadow = s.shadow := by unfold State.setConns; simp
@[simp] theorem State.setConns_pwr : (s.setConns l).pwr = s.pwr := by unfold State.setConns; simp
@[simp] theorem State.setConns_pinReset : (s.setConns l).pinReset = s.pinReset := by unfold State.setConns; simp
@[simp] theorem State.setConns_railLow : (s.setConns l).railLow = s.railLow := by unfold State.setConns; simp
@[simp] theorem State.setConns_clkLow : (s.setConns l).clkLow = s.clkLow := by unfold State.setConns; simp
@[simp] theorem State.setConns_tap : (s.setConns l).tap = s.tap := by unfold State.setConns; simp
@[simp] theorem State.setConns_sent : (s.setConns l).sent = s.sent := by unfold State.setConns; simp

end
/-! `State.addWait` changes stw alone. -/
section
variable (s : State) (c k p : Nat)
@[simp] theorem State.addWait_pending : (s.addWait c k p).pending = s.pending := by unfold State.addWait; rfl
@[simp] theorem State.addWait_free : (s.addWait c k p).free = s.free := by unfold State.addWait; rfl
@[simp] theorem State.addWait_regs : (s.addWait c k p).regs = s.regs := by unfold State.addWait; rfl
@[simp] theorem State.addWait_mem : (s.addWait c k p).mem = s.mem := by unfold State.addWait; rfl
@[simp] theorem State.addWait_poison : (s.addWait c k p).poison = s.poison := by unfold State.addWait; rfl
@[simp] theorem State.addWait_tiles : (s.addWait c k p).tiles = s.tiles := by unfold State.addWait; rfl
@[simp] theorem State.addWait_provs : (s.addWait c k p).provs = s.provs := by unfold State.addWait; rfl
@[simp] theorem State.addWait_talons : (s.addWait c k p).talons = s.talons := by unfold State.addWait; rfl
@[simp] theorem State.addWait_bulks : (s.addWait c k p).bulks = s.bulks := by unfold State.addWait; rfl
@[simp] theorem State.addWait_errs : (s.addWait c k p).errs = s.errs := by unfold State.addWait; rfl
@[simp] theorem State.addWait_memc : (s.addWait c k p).memc = s.memc := by unfold State.addWait; rfl
@[simp] theorem State.addWait_mer : (s.addWait c k p).mer = s.mer := by unfold State.addWait; rfl
@[simp] theorem State.addWait_net : (s.addWait c k p).net = s.net := by unfold State.addWait; rfl
@[simp] theorem State.addWait_hands : (s.addWait c k p).hands = s.hands := by unfold State.addWait; rfl
@[simp] theorem State.addWait_fns : (s.addWait c k p).fns = s.fns := by unfold State.addWait; rfl
@[simp] theorem State.addWait_perst : (s.addWait c k p).perst = s.perst := by unfold State.addWait; rfl
@[simp] theorem State.addWait_dlUp : (s.addWait c k p).dlUp = s.dlUp := by unfold State.addWait; rfl
@[simp] theorem State.addWait_shadow : (s.addWait c k p).shadow = s.shadow := by unfold State.addWait; rfl
@[simp] theorem State.addWait_pwr : (s.addWait c k p).pwr = s.pwr := by unfold State.addWait; rfl
@[simp] theorem State.addWait_pinReset : (s.addWait c k p).pinReset = s.pinReset := by unfold State.addWait; rfl
@[simp] theorem State.addWait_railLow : (s.addWait c k p).railLow = s.railLow := by unfold State.addWait; rfl
@[simp] theorem State.addWait_clkLow : (s.addWait c k p).clkLow = s.clkLow := by unfold State.addWait; rfl
@[simp] theorem State.addWait_tap : (s.addWait c k p).tap = s.tap := by unfold State.addWait; rfl
@[simp] theorem State.addWait_sent : (s.addWait c k p).sent = s.sent := by unfold State.addWait; rfl

end
/-! `State.putSession` changes stw alone. -/
section
variable (s : State) (x : SpdmSession)
@[simp] theorem State.putSession_pending : (s.putSession x).pending = s.pending := by unfold State.putSession; rfl
@[simp] theorem State.putSession_free : (s.putSession x).free = s.free := by unfold State.putSession; rfl
@[simp] theorem State.putSession_regs : (s.putSession x).regs = s.regs := by unfold State.putSession; rfl
@[simp] theorem State.putSession_mem : (s.putSession x).mem = s.mem := by unfold State.putSession; rfl
@[simp] theorem State.putSession_poison : (s.putSession x).poison = s.poison := by unfold State.putSession; rfl
@[simp] theorem State.putSession_tiles : (s.putSession x).tiles = s.tiles := by unfold State.putSession; rfl
@[simp] theorem State.putSession_provs : (s.putSession x).provs = s.provs := by unfold State.putSession; rfl
@[simp] theorem State.putSession_talons : (s.putSession x).talons = s.talons := by unfold State.putSession; rfl
@[simp] theorem State.putSession_bulks : (s.putSession x).bulks = s.bulks := by unfold State.putSession; rfl
@[simp] theorem State.putSession_errs : (s.putSession x).errs = s.errs := by unfold State.putSession; rfl
@[simp] theorem State.putSession_memc : (s.putSession x).memc = s.memc := by unfold State.putSession; rfl
@[simp] theorem State.putSession_mer : (s.putSession x).mer = s.mer := by unfold State.putSession; rfl
@[simp] theorem State.putSession_net : (s.putSession x).net = s.net := by unfold State.putSession; rfl
@[simp] theorem State.putSession_hands : (s.putSession x).hands = s.hands := by unfold State.putSession; rfl
@[simp] theorem State.putSession_fns : (s.putSession x).fns = s.fns := by unfold State.putSession; rfl
@[simp] theorem State.putSession_perst : (s.putSession x).perst = s.perst := by unfold State.putSession; rfl
@[simp] theorem State.putSession_dlUp : (s.putSession x).dlUp = s.dlUp := by unfold State.putSession; rfl
@[simp] theorem State.putSession_shadow : (s.putSession x).shadow = s.shadow := by unfold State.putSession; rfl
@[simp] theorem State.putSession_pwr : (s.putSession x).pwr = s.pwr := by unfold State.putSession; rfl
@[simp] theorem State.putSession_pinReset : (s.putSession x).pinReset = s.pinReset := by unfold State.putSession; rfl
@[simp] theorem State.putSession_railLow : (s.putSession x).railLow = s.railLow := by unfold State.putSession; rfl
@[simp] theorem State.putSession_clkLow : (s.putSession x).clkLow = s.clkLow := by unfold State.putSession; rfl
@[simp] theorem State.putSession_tap : (s.putSession x).tap = s.tap := by unfold State.putSession; rfl
@[simp] theorem State.putSession_sent : (s.putSession x).sent = s.sent := by unfold State.putSession; rfl

end
/-! `State.setIde` changes stw and regs alone. -/
section
variable (s : State) (l : List IdeStream)
@[simp] theorem State.setIde_pending : (s.setIde l).pending = s.pending := by unfold State.setIde; simp
@[simp] theorem State.setIde_free : (s.setIde l).free = s.free := by unfold State.setIde; simp
@[simp] theorem State.setIde_mem : (s.setIde l).mem = s.mem := by unfold State.setIde; simp
@[simp] theorem State.setIde_poison : (s.setIde l).poison = s.poison := by unfold State.setIde; simp
@[simp] theorem State.setIde_tiles : (s.setIde l).tiles = s.tiles := by unfold State.setIde; simp
@[simp] theorem State.setIde_provs : (s.setIde l).provs = s.provs := by unfold State.setIde; simp
@[simp] theorem State.setIde_talons : (s.setIde l).talons = s.talons := by unfold State.setIde; simp
@[simp] theorem State.setIde_bulks : (s.setIde l).bulks = s.bulks := by unfold State.setIde; simp
@[simp] theorem State.setIde_errs : (s.setIde l).errs = s.errs := by unfold State.setIde; simp
@[simp] theorem State.setIde_memc : (s.setIde l).memc = s.memc := by unfold State.setIde; simp
@[simp] theorem State.setIde_mer : (s.setIde l).mer = s.mer := by unfold State.setIde; simp
@[simp] theorem State.setIde_net : (s.setIde l).net = s.net := by unfold State.setIde; simp
@[simp] theorem State.setIde_hands : (s.setIde l).hands = s.hands := by unfold State.setIde; simp
@[simp] theorem State.setIde_fns : (s.setIde l).fns = s.fns := by unfold State.setIde; simp
@[simp] theorem State.setIde_perst : (s.setIde l).perst = s.perst := by unfold State.setIde; simp
@[simp] theorem State.setIde_dlUp : (s.setIde l).dlUp = s.dlUp := by unfold State.setIde; simp
@[simp] theorem State.setIde_shadow : (s.setIde l).shadow = s.shadow := by unfold State.setIde; simp
@[simp] theorem State.setIde_pwr : (s.setIde l).pwr = s.pwr := by unfold State.setIde; simp
@[simp] theorem State.setIde_pinReset : (s.setIde l).pinReset = s.pinReset := by unfold State.setIde; simp
@[simp] theorem State.setIde_railLow : (s.setIde l).railLow = s.railLow := by unfold State.setIde; simp
@[simp] theorem State.setIde_clkLow : (s.setIde l).clkLow = s.clkLow := by unfold State.setIde; simp
@[simp] theorem State.setIde_tap : (s.setIde l).tap = s.tap := by unfold State.setIde; simp
@[simp] theorem State.setIde_sent : (s.setIde l).sent = s.sent := by unfold State.setIde; simp

end
/-! `State.spend` changes free alone. -/
section
variable (s : State) 
@[simp] theorem State.spend_pending : s.spend.pending = s.pending := by unfold State.spend; rfl
@[simp] theorem State.spend_regs : s.spend.regs = s.regs := by unfold State.spend; rfl
@[simp] theorem State.spend_mem : s.spend.mem = s.mem := by unfold State.spend; rfl
@[simp] theorem State.spend_poison : s.spend.poison = s.poison := by unfold State.spend; rfl
@[simp] theorem State.spend_tiles : s.spend.tiles = s.tiles := by unfold State.spend; rfl
@[simp] theorem State.spend_provs : s.spend.provs = s.provs := by unfold State.spend; rfl
@[simp] theorem State.spend_talons : s.spend.talons = s.talons := by unfold State.spend; rfl
@[simp] theorem State.spend_bulks : s.spend.bulks = s.bulks := by unfold State.spend; rfl
@[simp] theorem State.spend_errs : s.spend.errs = s.errs := by unfold State.spend; rfl
@[simp] theorem State.spend_memc : s.spend.memc = s.memc := by unfold State.spend; rfl
@[simp] theorem State.spend_mer : s.spend.mer = s.mer := by unfold State.spend; rfl
@[simp] theorem State.spend_stw : s.spend.stw = s.stw := by unfold State.spend; rfl
@[simp] theorem State.spend_net : s.spend.net = s.net := by unfold State.spend; rfl
@[simp] theorem State.spend_hands : s.spend.hands = s.hands := by unfold State.spend; rfl
@[simp] theorem State.spend_fns : s.spend.fns = s.fns := by unfold State.spend; rfl
@[simp] theorem State.spend_perst : s.spend.perst = s.perst := by unfold State.spend; rfl
@[simp] theorem State.spend_dlUp : s.spend.dlUp = s.dlUp := by unfold State.spend; rfl
@[simp] theorem State.spend_shadow : s.spend.shadow = s.shadow := by unfold State.spend; rfl
@[simp] theorem State.spend_pwr : s.spend.pwr = s.pwr := by unfold State.spend; rfl
@[simp] theorem State.spend_pinReset : s.spend.pinReset = s.pinReset := by unfold State.spend; rfl
@[simp] theorem State.spend_railLow : s.spend.railLow = s.railLow := by unfold State.spend; rfl
@[simp] theorem State.spend_clkLow : s.spend.clkLow = s.clkLow := by unfold State.spend; rfl
@[simp] theorem State.spend_tap : s.spend.tap = s.tap := by unfold State.spend; rfl
@[simp] theorem State.spend_sent : s.spend.sent = s.sent := by unfold State.spend; rfl

end
/-! `State.alertView` changes regs alone. -/
section
variable (s : State) 
@[simp] theorem State.alertView_pending : s.alertView.pending = s.pending := by unfold State.alertView; exact State.setFld_pending ..
@[simp] theorem State.alertView_free : s.alertView.free = s.free := by unfold State.alertView; exact State.setFld_free ..
@[simp] theorem State.alertView_mem : s.alertView.mem = s.mem := by unfold State.alertView; exact State.setFld_mem ..
@[simp] theorem State.alertView_poison : s.alertView.poison = s.poison := by unfold State.alertView; exact State.setFld_poison ..
@[simp] theorem State.alertView_tiles : s.alertView.tiles = s.tiles := by unfold State.alertView; exact State.setFld_tiles ..
@[simp] theorem State.alertView_provs : s.alertView.provs = s.provs := by unfold State.alertView; exact State.setFld_provs ..
@[simp] theorem State.alertView_talons : s.alertView.talons = s.talons := by unfold State.alertView; exact State.setFld_talons ..
@[simp] theorem State.alertView_bulks : s.alertView.bulks = s.bulks := by unfold State.alertView; exact State.setFld_bulks ..
@[simp] theorem State.alertView_errs : s.alertView.errs = s.errs := by unfold State.alertView; exact State.setFld_errs ..
@[simp] theorem State.alertView_memc : s.alertView.memc = s.memc := by unfold State.alertView; exact State.setFld_memc ..
@[simp] theorem State.alertView_mer : s.alertView.mer = s.mer := by unfold State.alertView; exact State.setFld_mer ..
@[simp] theorem State.alertView_stw : s.alertView.stw = s.stw := by unfold State.alertView; exact State.setFld_stw ..
@[simp] theorem State.alertView_net : s.alertView.net = s.net := by unfold State.alertView; exact State.setFld_net ..
@[simp] theorem State.alertView_hands : s.alertView.hands = s.hands := by unfold State.alertView; exact State.setFld_hands ..
@[simp] theorem State.alertView_fns : s.alertView.fns = s.fns := by unfold State.alertView; exact State.setFld_fns ..
@[simp] theorem State.alertView_perst : s.alertView.perst = s.perst := by unfold State.alertView; exact State.setFld_perst ..
@[simp] theorem State.alertView_dlUp : s.alertView.dlUp = s.dlUp := by unfold State.alertView; exact State.setFld_dlUp ..
@[simp] theorem State.alertView_shadow : s.alertView.shadow = s.shadow := by unfold State.alertView; exact State.setFld_shadow ..
@[simp] theorem State.alertView_pwr : s.alertView.pwr = s.pwr := by unfold State.alertView; exact State.setFld_pwr ..
@[simp] theorem State.alertView_pinReset : s.alertView.pinReset = s.pinReset := by unfold State.alertView; exact State.setFld_pinReset ..
@[simp] theorem State.alertView_railLow : s.alertView.railLow = s.railLow := by unfold State.alertView; exact State.setFld_railLow ..
@[simp] theorem State.alertView_clkLow : s.alertView.clkLow = s.clkLow := by unfold State.alertView; exact State.setFld_clkLow ..
@[simp] theorem State.alertView_tap : s.alertView.tap = s.tap := by unfold State.alertView; exact State.setFld_tap ..
@[simp] theorem State.alertView_sent : s.alertView.sent = s.sent := by unfold State.alertView; exact State.setFld_sent ..

end
/-! `State.emit` changes sent, net alone. -/
section
variable (s : State) (e : Emit)
@[simp] theorem State.emit_pending : (s.emit e).pending = s.pending := by unfold State.emit; dsimp only; split <;> rfl
@[simp] theorem State.emit_free : (s.emit e).free = s.free := by unfold State.emit; dsimp only; split <;> rfl
@[simp] theorem State.emit_regs : (s.emit e).regs = s.regs := by unfold State.emit; dsimp only; split <;> rfl
@[simp] theorem State.emit_mem : (s.emit e).mem = s.mem := by unfold State.emit; dsimp only; split <;> rfl
@[simp] theorem State.emit_poison : (s.emit e).poison = s.poison := by unfold State.emit; dsimp only; split <;> rfl
@[simp] theorem State.emit_tiles : (s.emit e).tiles = s.tiles := by unfold State.emit; dsimp only; split <;> rfl
@[simp] theorem State.emit_provs : (s.emit e).provs = s.provs := by unfold State.emit; dsimp only; split <;> rfl
@[simp] theorem State.emit_talons : (s.emit e).talons = s.talons := by unfold State.emit; dsimp only; split <;> rfl
@[simp] theorem State.emit_bulks : (s.emit e).bulks = s.bulks := by unfold State.emit; dsimp only; split <;> rfl
@[simp] theorem State.emit_errs : (s.emit e).errs = s.errs := by unfold State.emit; dsimp only; split <;> rfl
@[simp] theorem State.emit_memc : (s.emit e).memc = s.memc := by unfold State.emit; dsimp only; split <;> rfl
@[simp] theorem State.emit_mer : (s.emit e).mer = s.mer := by unfold State.emit; dsimp only; split <;> rfl
@[simp] theorem State.emit_stw : (s.emit e).stw = s.stw := by unfold State.emit; dsimp only; split <;> rfl
@[simp] theorem State.emit_hands : (s.emit e).hands = s.hands := by unfold State.emit; dsimp only; split <;> rfl
@[simp] theorem State.emit_fns : (s.emit e).fns = s.fns := by unfold State.emit; dsimp only; split <;> rfl
@[simp] theorem State.emit_perst : (s.emit e).perst = s.perst := by unfold State.emit; dsimp only; split <;> rfl
@[simp] theorem State.emit_dlUp : (s.emit e).dlUp = s.dlUp := by unfold State.emit; dsimp only; split <;> rfl
@[simp] theorem State.emit_shadow : (s.emit e).shadow = s.shadow := by unfold State.emit; dsimp only; split <;> rfl
@[simp] theorem State.emit_pwr : (s.emit e).pwr = s.pwr := by unfold State.emit; dsimp only; split <;> rfl
@[simp] theorem State.emit_pinReset : (s.emit e).pinReset = s.pinReset := by unfold State.emit; dsimp only; split <;> rfl
@[simp] theorem State.emit_railLow : (s.emit e).railLow = s.railLow := by unfold State.emit; dsimp only; split <;> rfl
@[simp] theorem State.emit_clkLow : (s.emit e).clkLow = s.clkLow := by unfold State.emit; dsimp only; split <;> rfl
@[simp] theorem State.emit_tap : (s.emit e).tap = s.tap := by unfold State.emit; dsimp only; split <;> rfl

end
/-! `State.srvAdd` changes sent, net, regs alone. -/
section
variable (s : State) (u : Nat) (c h : Fld) (i n : Nat)
@[simp] theorem State.srvAdd_pending : (s.srvAdd u c h i n).pending = s.pending := by unfold State.srvAdd; dsimp only; split <;> simp
@[simp] theorem State.srvAdd_free : (s.srvAdd u c h i n).free = s.free := by unfold State.srvAdd; dsimp only; split <;> simp
@[simp] theorem State.srvAdd_mem : (s.srvAdd u c h i n).mem = s.mem := by unfold State.srvAdd; dsimp only; split <;> simp
@[simp] theorem State.srvAdd_poison : (s.srvAdd u c h i n).poison = s.poison := by unfold State.srvAdd; dsimp only; split <;> simp
@[simp] theorem State.srvAdd_tiles : (s.srvAdd u c h i n).tiles = s.tiles := by unfold State.srvAdd; dsimp only; split <;> simp
@[simp] theorem State.srvAdd_provs : (s.srvAdd u c h i n).provs = s.provs := by unfold State.srvAdd; dsimp only; split <;> simp
@[simp] theorem State.srvAdd_talons : (s.srvAdd u c h i n).talons = s.talons := by unfold State.srvAdd; dsimp only; split <;> simp
@[simp] theorem State.srvAdd_bulks : (s.srvAdd u c h i n).bulks = s.bulks := by unfold State.srvAdd; dsimp only; split <;> simp
@[simp] theorem State.srvAdd_errs : (s.srvAdd u c h i n).errs = s.errs := by unfold State.srvAdd; dsimp only; split <;> simp
@[simp] theorem State.srvAdd_memc : (s.srvAdd u c h i n).memc = s.memc := by unfold State.srvAdd; dsimp only; split <;> simp
@[simp] theorem State.srvAdd_mer : (s.srvAdd u c h i n).mer = s.mer := by unfold State.srvAdd; dsimp only; split <;> simp
@[simp] theorem State.srvAdd_stw : (s.srvAdd u c h i n).stw = s.stw := by unfold State.srvAdd; dsimp only; split <;> simp
@[simp] theorem State.srvAdd_hands : (s.srvAdd u c h i n).hands = s.hands := by unfold State.srvAdd; dsimp only; split <;> simp
@[simp] theorem State.srvAdd_fns : (s.srvAdd u c h i n).fns = s.fns := by unfold State.srvAdd; dsimp only; split <;> simp
@[simp] theorem State.srvAdd_perst : (s.srvAdd u c h i n).perst = s.perst := by unfold State.srvAdd; dsimp only; split <;> simp
@[simp] theorem State.srvAdd_dlUp : (s.srvAdd u c h i n).dlUp = s.dlUp := by unfold State.srvAdd; dsimp only; split <;> simp
@[simp] theorem State.srvAdd_shadow : (s.srvAdd u c h i n).shadow = s.shadow := by unfold State.srvAdd; dsimp only; split <;> simp
@[simp] theorem State.srvAdd_pwr : (s.srvAdd u c h i n).pwr = s.pwr := by unfold State.srvAdd; dsimp only; split <;> simp
@[simp] theorem State.srvAdd_pinReset : (s.srvAdd u c h i n).pinReset = s.pinReset := by unfold State.srvAdd; dsimp only; split <;> simp
@[simp] theorem State.srvAdd_railLow : (s.srvAdd u c h i n).railLow = s.railLow := by unfold State.srvAdd; dsimp only; split <;> simp
@[simp] theorem State.srvAdd_clkLow : (s.srvAdd u c h i n).clkLow = s.clkLow := by unfold State.srvAdd; dsimp only; split <;> simp
@[simp] theorem State.srvAdd_tap : (s.srvAdd u c h i n).tap = s.tap := by unfold State.srvAdd; dsimp only; split <;> simp

end
/-- What holds of the state at the start and is kept by each turn of a fold holds of its result. -/
theorem foldl_keeps {α β : Type} {P : β → Prop} (f : β → α → β) (l : List α) (b : β) (hb : P b) (h : ∀ b a, P b → P (f b a)) :
    P (l.foldl f b) := by
  induction l generalizing b with
  | nil => exact hb
  | cons a l ih => exact ih _ (h _ _ hb)

/-- The same, where a turn may use that its element is in the list. -/
theorem foldl_keeps_mem {α β : Type} {P : β → Prop} (f : β → α → β) (l : List α) (b : β) (hb : P b) (h : ∀ b, ∀ a ∈ l, P b → P (f b a)) :
    P (l.foldl f b) := by
  induction l generalizing b with
  | nil => exact hb
  | cons a l ih => exact ih _ (h _ _ List.mem_cons_self hb) (fun b x hx => h b x (List.mem_cons_of_mem _ hx))

/-! `State.count` changes sent, net, regs alone. -/
section
variable (s : State) (e : SrvEv)
@[simp] theorem State.count_pending : (s.count e).pending = s.pending := by
  unfold State.count
  refine foldl_keeps (P := fun x : State => x.pending = s.pending) _ _ _ (by split <;> simp) (fun x i h => ?_)
  split <;> simp [h]
@[simp] theorem State.count_free : (s.count e).free = s.free := by
  unfold State.count
  refine foldl_keeps (P := fun x : State => x.free = s.free) _ _ _ (by split <;> simp) (fun x i h => ?_)
  split <;> simp [h]
@[simp] theorem State.count_mem : (s.count e).mem = s.mem := by
  unfold State.count
  refine foldl_keeps (P := fun x : State => x.mem = s.mem) _ _ _ (by split <;> simp) (fun x i h => ?_)
  split <;> simp [h]
@[simp] theorem State.count_poison : (s.count e).poison = s.poison := by
  unfold State.count
  refine foldl_keeps (P := fun x : State => x.poison = s.poison) _ _ _ (by split <;> simp) (fun x i h => ?_)
  split <;> simp [h]
@[simp] theorem State.count_tiles : (s.count e).tiles = s.tiles := by
  unfold State.count
  refine foldl_keeps (P := fun x : State => x.tiles = s.tiles) _ _ _ (by split <;> simp) (fun x i h => ?_)
  split <;> simp [h]
@[simp] theorem State.count_provs : (s.count e).provs = s.provs := by
  unfold State.count
  refine foldl_keeps (P := fun x : State => x.provs = s.provs) _ _ _ (by split <;> simp) (fun x i h => ?_)
  split <;> simp [h]
@[simp] theorem State.count_talons : (s.count e).talons = s.talons := by
  unfold State.count
  refine foldl_keeps (P := fun x : State => x.talons = s.talons) _ _ _ (by split <;> simp) (fun x i h => ?_)
  split <;> simp [h]
@[simp] theorem State.count_bulks : (s.count e).bulks = s.bulks := by
  unfold State.count
  refine foldl_keeps (P := fun x : State => x.bulks = s.bulks) _ _ _ (by split <;> simp) (fun x i h => ?_)
  split <;> simp [h]
@[simp] theorem State.count_errs : (s.count e).errs = s.errs := by
  unfold State.count
  refine foldl_keeps (P := fun x : State => x.errs = s.errs) _ _ _ (by split <;> simp) (fun x i h => ?_)
  split <;> simp [h]
@[simp] theorem State.count_memc : (s.count e).memc = s.memc := by
  unfold State.count
  refine foldl_keeps (P := fun x : State => x.memc = s.memc) _ _ _ (by split <;> simp) (fun x i h => ?_)
  split <;> simp [h]
@[simp] theorem State.count_mer : (s.count e).mer = s.mer := by
  unfold State.count
  refine foldl_keeps (P := fun x : State => x.mer = s.mer) _ _ _ (by split <;> simp) (fun x i h => ?_)
  split <;> simp [h]
@[simp] theorem State.count_stw : (s.count e).stw = s.stw := by
  unfold State.count
  refine foldl_keeps (P := fun x : State => x.stw = s.stw) _ _ _ (by split <;> simp) (fun x i h => ?_)
  split <;> simp [h]
@[simp] theorem State.count_hands : (s.count e).hands = s.hands := by
  unfold State.count
  refine foldl_keeps (P := fun x : State => x.hands = s.hands) _ _ _ (by split <;> simp) (fun x i h => ?_)
  split <;> simp [h]
@[simp] theorem State.count_fns : (s.count e).fns = s.fns := by
  unfold State.count
  refine foldl_keeps (P := fun x : State => x.fns = s.fns) _ _ _ (by split <;> simp) (fun x i h => ?_)
  split <;> simp [h]
@[simp] theorem State.count_perst : (s.count e).perst = s.perst := by
  unfold State.count
  refine foldl_keeps (P := fun x : State => x.perst = s.perst) _ _ _ (by split <;> simp) (fun x i h => ?_)
  split <;> simp [h]
@[simp] theorem State.count_dlUp : (s.count e).dlUp = s.dlUp := by
  unfold State.count
  refine foldl_keeps (P := fun x : State => x.dlUp = s.dlUp) _ _ _ (by split <;> simp) (fun x i h => ?_)
  split <;> simp [h]
@[simp] theorem State.count_shadow : (s.count e).shadow = s.shadow := by
  unfold State.count
  refine foldl_keeps (P := fun x : State => x.shadow = s.shadow) _ _ _ (by split <;> simp) (fun x i h => ?_)
  split <;> simp [h]
@[simp] theorem State.count_pwr : (s.count e).pwr = s.pwr := by
  unfold State.count
  refine foldl_keeps (P := fun x : State => x.pwr = s.pwr) _ _ _ (by split <;> simp) (fun x i h => ?_)
  split <;> simp [h]
@[simp] theorem State.count_pinReset : (s.count e).pinReset = s.pinReset := by
  unfold State.count
  refine foldl_keeps (P := fun x : State => x.pinReset = s.pinReset) _ _ _ (by split <;> simp) (fun x i h => ?_)
  split <;> simp [h]
@[simp] theorem State.count_railLow : (s.count e).railLow = s.railLow := by
  unfold State.count
  refine foldl_keeps (P := fun x : State => x.railLow = s.railLow) _ _ _ (by split <;> simp) (fun x i h => ?_)
  split <;> simp [h]
@[simp] theorem State.count_clkLow : (s.count e).clkLow = s.clkLow := by
  unfold State.count
  refine foldl_keeps (P := fun x : State => x.clkLow = s.clkLow) _ _ _ (by split <;> simp) (fun x i h => ?_)
  split <;> simp [h]
@[simp] theorem State.count_tap : (s.count e).tap = s.tap := by
  unfold State.count
  refine foldl_keeps (P := fun x : State => x.tap = s.tap) _ _ _ (by split <;> simp) (fun x i h => ?_)
  split <;> simp [h]

end
/-! `State.alertPulse` changes errs, regs alone. -/
section
variable (s : State) (v : Nat)
@[simp] theorem State.alertPulse_pending : (s.alertPulse v).pending = s.pending := by simp [State.alertPulse, apply_ite State.pending]
@[simp] theorem State.alertPulse_free : (s.alertPulse v).free = s.free := by simp [State.alertPulse, apply_ite State.free]
@[simp] theorem State.alertPulse_mem : (s.alertPulse v).mem = s.mem := by simp [State.alertPulse, apply_ite State.mem]
@[simp] theorem State.alertPulse_poison : (s.alertPulse v).poison = s.poison := by simp [State.alertPulse, apply_ite State.poison]
@[simp] theorem State.alertPulse_tiles : (s.alertPulse v).tiles = s.tiles := by simp [State.alertPulse, apply_ite State.tiles]
@[simp] theorem State.alertPulse_provs : (s.alertPulse v).provs = s.provs := by simp [State.alertPulse, apply_ite State.provs]
@[simp] theorem State.alertPulse_talons : (s.alertPulse v).talons = s.talons := by simp [State.alertPulse, apply_ite State.talons]
@[simp] theorem State.alertPulse_bulks : (s.alertPulse v).bulks = s.bulks := by simp [State.alertPulse, apply_ite State.bulks]
@[simp] theorem State.alertPulse_memc : (s.alertPulse v).memc = s.memc := by simp [State.alertPulse, apply_ite State.memc]
@[simp] theorem State.alertPulse_mer : (s.alertPulse v).mer = s.mer := by simp [State.alertPulse, apply_ite State.mer]
@[simp] theorem State.alertPulse_stw : (s.alertPulse v).stw = s.stw := by simp [State.alertPulse, apply_ite State.stw]
@[simp] theorem State.alertPulse_net : (s.alertPulse v).net = s.net := by simp [State.alertPulse, apply_ite State.net]
@[simp] theorem State.alertPulse_hands : (s.alertPulse v).hands = s.hands := by simp [State.alertPulse, apply_ite State.hands]
@[simp] theorem State.alertPulse_fns : (s.alertPulse v).fns = s.fns := by simp [State.alertPulse, apply_ite State.fns]
@[simp] theorem State.alertPulse_perst : (s.alertPulse v).perst = s.perst := by simp [State.alertPulse, apply_ite State.perst]
@[simp] theorem State.alertPulse_dlUp : (s.alertPulse v).dlUp = s.dlUp := by simp [State.alertPulse, apply_ite State.dlUp]
@[simp] theorem State.alertPulse_shadow : (s.alertPulse v).shadow = s.shadow := by simp [State.alertPulse, apply_ite State.shadow]
@[simp] theorem State.alertPulse_pwr : (s.alertPulse v).pwr = s.pwr := by simp [State.alertPulse, apply_ite State.pwr]
@[simp] theorem State.alertPulse_pinReset : (s.alertPulse v).pinReset = s.pinReset := by simp [State.alertPulse, apply_ite State.pinReset]
@[simp] theorem State.alertPulse_railLow : (s.alertPulse v).railLow = s.railLow := by simp [State.alertPulse, apply_ite State.railLow]
@[simp] theorem State.alertPulse_clkLow : (s.alertPulse v).clkLow = s.clkLow := by simp [State.alertPulse, apply_ite State.clkLow]
@[simp] theorem State.alertPulse_tap : (s.alertPulse v).tap = s.tap := by simp [State.alertPulse, apply_ite State.tap]
@[simp] theorem State.alertPulse_sent : (s.alertPulse v).sent = s.sent := by simp [State.alertPulse, apply_ite State.sent]

end
/-! `State.logErr` changes errs alone. -/
section
variable (s : State) (r : ErrRec)
@[simp] theorem State.logErr_pending : (s.logErr r).pending = s.pending := by unfold State.logErr; repeat first | rfl | split
@[simp] theorem State.logErr_free : (s.logErr r).free = s.free := by unfold State.logErr; repeat first | rfl | split
@[simp] theorem State.logErr_regs : (s.logErr r).regs = s.regs := by unfold State.logErr; repeat first | rfl | split
@[simp] theorem State.logErr_mem : (s.logErr r).mem = s.mem := by unfold State.logErr; repeat first | rfl | split
@[simp] theorem State.logErr_poison : (s.logErr r).poison = s.poison := by unfold State.logErr; repeat first | rfl | split
@[simp] theorem State.logErr_tiles : (s.logErr r).tiles = s.tiles := by unfold State.logErr; repeat first | rfl | split
@[simp] theorem State.logErr_provs : (s.logErr r).provs = s.provs := by unfold State.logErr; repeat first | rfl | split
@[simp] theorem State.logErr_talons : (s.logErr r).talons = s.talons := by unfold State.logErr; repeat first | rfl | split
@[simp] theorem State.logErr_bulks : (s.logErr r).bulks = s.bulks := by unfold State.logErr; repeat first | rfl | split
@[simp] theorem State.logErr_memc : (s.logErr r).memc = s.memc := by unfold State.logErr; repeat first | rfl | split
@[simp] theorem State.logErr_mer : (s.logErr r).mer = s.mer := by unfold State.logErr; repeat first | rfl | split
@[simp] theorem State.logErr_stw : (s.logErr r).stw = s.stw := by unfold State.logErr; repeat first | rfl | split
@[simp] theorem State.logErr_net : (s.logErr r).net = s.net := by unfold State.logErr; repeat first | rfl | split
@[simp] theorem State.logErr_hands : (s.logErr r).hands = s.hands := by unfold State.logErr; repeat first | rfl | split
@[simp] theorem State.logErr_fns : (s.logErr r).fns = s.fns := by unfold State.logErr; repeat first | rfl | split
@[simp] theorem State.logErr_perst : (s.logErr r).perst = s.perst := by unfold State.logErr; repeat first | rfl | split
@[simp] theorem State.logErr_dlUp : (s.logErr r).dlUp = s.dlUp := by unfold State.logErr; repeat first | rfl | split
@[simp] theorem State.logErr_shadow : (s.logErr r).shadow = s.shadow := by unfold State.logErr; repeat first | rfl | split
@[simp] theorem State.logErr_pwr : (s.logErr r).pwr = s.pwr := by unfold State.logErr; repeat first | rfl | split
@[simp] theorem State.logErr_pinReset : (s.logErr r).pinReset = s.pinReset := by unfold State.logErr; repeat first | rfl | split
@[simp] theorem State.logErr_railLow : (s.logErr r).railLow = s.railLow := by unfold State.logErr; repeat first | rfl | split
@[simp] theorem State.logErr_clkLow : (s.logErr r).clkLow = s.clkLow := by unfold State.logErr; repeat first | rfl | split
@[simp] theorem State.logErr_tap : (s.logErr r).tap = s.tap := by unfold State.logErr; repeat first | rfl | split
@[simp] theorem State.logErr_sent : (s.logErr r).sent = s.sent := by unfold State.logErr; repeat first | rfl | split

end
/-! `State.fatal` changes errs, regs alone. -/
section
variable (s : State) (r : ErrRec)
@[simp] theorem State.fatal_pending : (s.fatal r).pending = s.pending := by simp [State.fatal, apply_ite State.pending]
@[simp] theorem State.fatal_free : (s.fatal r).free = s.free := by simp [State.fatal, apply_ite State.free]
@[simp] theorem State.fatal_mem : (s.fatal r).mem = s.mem := by simp [State.fatal, apply_ite State.mem]
@[simp] theorem State.fatal_poison : (s.fatal r).poison = s.poison := by simp [State.fatal, apply_ite State.poison]
@[simp] theorem State.fatal_tiles : (s.fatal r).tiles = s.tiles := by simp [State.fatal, apply_ite State.tiles]
@[simp] theorem State.fatal_provs : (s.fatal r).provs = s.provs := by simp [State.fatal, apply_ite State.provs]
@[simp] theorem State.fatal_talons : (s.fatal r).talons = s.talons := by simp [State.fatal, apply_ite State.talons]
@[simp] theorem State.fatal_bulks : (s.fatal r).bulks = s.bulks := by simp [State.fatal, apply_ite State.bulks]
@[simp] theorem State.fatal_memc : (s.fatal r).memc = s.memc := by simp [State.fatal, apply_ite State.memc]
@[simp] theorem State.fatal_mer : (s.fatal r).mer = s.mer := by simp [State.fatal, apply_ite State.mer]
@[simp] theorem State.fatal_stw : (s.fatal r).stw = s.stw := by simp [State.fatal, apply_ite State.stw]
@[simp] theorem State.fatal_net : (s.fatal r).net = s.net := by simp [State.fatal, apply_ite State.net]
@[simp] theorem State.fatal_hands : (s.fatal r).hands = s.hands := by simp [State.fatal, apply_ite State.hands]
@[simp] theorem State.fatal_fns : (s.fatal r).fns = s.fns := by simp [State.fatal, apply_ite State.fns]
@[simp] theorem State.fatal_perst : (s.fatal r).perst = s.perst := by simp [State.fatal, apply_ite State.perst]
@[simp] theorem State.fatal_dlUp : (s.fatal r).dlUp = s.dlUp := by simp [State.fatal, apply_ite State.dlUp]
@[simp] theorem State.fatal_shadow : (s.fatal r).shadow = s.shadow := by simp [State.fatal, apply_ite State.shadow]
@[simp] theorem State.fatal_pwr : (s.fatal r).pwr = s.pwr := by simp [State.fatal, apply_ite State.pwr]
@[simp] theorem State.fatal_pinReset : (s.fatal r).pinReset = s.pinReset := by simp [State.fatal, apply_ite State.pinReset]
@[simp] theorem State.fatal_railLow : (s.fatal r).railLow = s.railLow := by simp [State.fatal, apply_ite State.railLow]
@[simp] theorem State.fatal_clkLow : (s.fatal r).clkLow = s.clkLow := by simp [State.fatal, apply_ite State.clkLow]
@[simp] theorem State.fatal_tap : (s.fatal r).tap = s.tap := by simp [State.fatal, apply_ite State.tap]
@[simp] theorem State.fatal_sent : (s.fatal r).sent = s.sent := by simp [State.fatal, apply_ite State.sent]

end
/-! `State.arrive` changes errs, regs alone. -/
section
variable (s : State) (r : ErrRec)
@[simp] theorem State.arrive_pending : (s.arrive r).pending = s.pending := by simp [State.arrive, apply_ite State.pending]
@[simp] theorem State.arrive_free : (s.arrive r).free = s.free := by simp [State.arrive, apply_ite State.free]
@[simp] theorem State.arrive_mem : (s.arrive r).mem = s.mem := by simp [State.arrive, apply_ite State.mem]
@[simp] theorem State.arrive_poison : (s.arrive r).poison = s.poison := by simp [State.arrive, apply_ite State.poison]
@[simp] theorem State.arrive_tiles : (s.arrive r).tiles = s.tiles := by simp [State.arrive, apply_ite State.tiles]
@[simp] theorem State.arrive_provs : (s.arrive r).provs = s.provs := by simp [State.arrive, apply_ite State.provs]
@[simp] theorem State.arrive_talons : (s.arrive r).talons = s.talons := by simp [State.arrive, apply_ite State.talons]
@[simp] theorem State.arrive_bulks : (s.arrive r).bulks = s.bulks := by simp [State.arrive, apply_ite State.bulks]
@[simp] theorem State.arrive_memc : (s.arrive r).memc = s.memc := by simp [State.arrive, apply_ite State.memc]
@[simp] theorem State.arrive_mer : (s.arrive r).mer = s.mer := by simp [State.arrive, apply_ite State.mer]
@[simp] theorem State.arrive_stw : (s.arrive r).stw = s.stw := by simp [State.arrive, apply_ite State.stw]
@[simp] theorem State.arrive_net : (s.arrive r).net = s.net := by simp [State.arrive, apply_ite State.net]
@[simp] theorem State.arrive_hands : (s.arrive r).hands = s.hands := by simp [State.arrive, apply_ite State.hands]
@[simp] theorem State.arrive_fns : (s.arrive r).fns = s.fns := by simp [State.arrive, apply_ite State.fns]
@[simp] theorem State.arrive_perst : (s.arrive r).perst = s.perst := by simp [State.arrive, apply_ite State.perst]
@[simp] theorem State.arrive_dlUp : (s.arrive r).dlUp = s.dlUp := by simp [State.arrive, apply_ite State.dlUp]
@[simp] theorem State.arrive_shadow : (s.arrive r).shadow = s.shadow := by simp [State.arrive, apply_ite State.shadow]
@[simp] theorem State.arrive_pwr : (s.arrive r).pwr = s.pwr := by simp [State.arrive, apply_ite State.pwr]
@[simp] theorem State.arrive_pinReset : (s.arrive r).pinReset = s.pinReset := by simp [State.arrive, apply_ite State.pinReset]
@[simp] theorem State.arrive_railLow : (s.arrive r).railLow = s.railLow := by simp [State.arrive, apply_ite State.railLow]
@[simp] theorem State.arrive_clkLow : (s.arrive r).clkLow = s.clkLow := by simp [State.arrive, apply_ite State.clkLow]
@[simp] theorem State.arrive_tap : (s.arrive r).tap = s.tap := by simp [State.arrive, apply_ite State.tap]
@[simp] theorem State.arrive_sent : (s.arrive r).sent = s.sent := by simp [State.arrive, apply_ite State.sent]

end
/-! `State.askPause` changes provs alone. -/
section
variable (s : State) (p : Nat)
@[simp] theorem State.askPause_pending : (s.askPause p).pending = s.pending := by simp [State.askPause, apply_ite State.pending]
@[simp] theorem State.askPause_free : (s.askPause p).free = s.free := by simp [State.askPause, apply_ite State.free]
@[simp] theorem State.askPause_regs : (s.askPause p).regs = s.regs := by simp [State.askPause, apply_ite State.regs]
@[simp] theorem State.askPause_mem : (s.askPause p).mem = s.mem := by simp [State.askPause, apply_ite State.mem]
@[simp] theorem State.askPause_poison : (s.askPause p).poison = s.poison := by simp [State.askPause, apply_ite State.poison]
@[simp] theorem State.askPause_tiles : (s.askPause p).tiles = s.tiles := by simp [State.askPause, apply_ite State.tiles]
@[simp] theorem State.askPause_talons : (s.askPause p).talons = s.talons := by simp [State.askPause, apply_ite State.talons]
@[simp] theorem State.askPause_bulks : (s.askPause p).bulks = s.bulks := by simp [State.askPause, apply_ite State.bulks]
@[simp] theorem State.askPause_errs : (s.askPause p).errs = s.errs := by simp [State.askPause, apply_ite State.errs]
@[simp] theorem State.askPause_memc : (s.askPause p).memc = s.memc := by simp [State.askPause, apply_ite State.memc]
@[simp] theorem State.askPause_mer : (s.askPause p).mer = s.mer := by simp [State.askPause, apply_ite State.mer]
@[simp] theorem State.askPause_stw : (s.askPause p).stw = s.stw := by simp [State.askPause, apply_ite State.stw]
@[simp] theorem State.askPause_net : (s.askPause p).net = s.net := by simp [State.askPause, apply_ite State.net]
@[simp] theorem State.askPause_hands : (s.askPause p).hands = s.hands := by simp [State.askPause, apply_ite State.hands]
@[simp] theorem State.askPause_fns : (s.askPause p).fns = s.fns := by simp [State.askPause, apply_ite State.fns]
@[simp] theorem State.askPause_perst : (s.askPause p).perst = s.perst := by simp [State.askPause, apply_ite State.perst]
@[simp] theorem State.askPause_dlUp : (s.askPause p).dlUp = s.dlUp := by simp [State.askPause, apply_ite State.dlUp]
@[simp] theorem State.askPause_shadow : (s.askPause p).shadow = s.shadow := by simp [State.askPause, apply_ite State.shadow]
@[simp] theorem State.askPause_pwr : (s.askPause p).pwr = s.pwr := by simp [State.askPause, apply_ite State.pwr]
@[simp] theorem State.askPause_pinReset : (s.askPause p).pinReset = s.pinReset := by simp [State.askPause, apply_ite State.pinReset]
@[simp] theorem State.askPause_railLow : (s.askPause p).railLow = s.railLow := by simp [State.askPause, apply_ite State.railLow]
@[simp] theorem State.askPause_clkLow : (s.askPause p).clkLow = s.clkLow := by simp [State.askPause, apply_ite State.clkLow]
@[simp] theorem State.askPause_tap : (s.askPause p).tap = s.tap := by simp [State.askPause, apply_ite State.tap]
@[simp] theorem State.askPause_sent : (s.askPause p).sent = s.sent := by simp [State.askPause, apply_ite State.sent]

end
/-! `State.raiseSev` changes errs, regs, free, provs alone. -/
section
variable (s : State) (v : Nat) (r : ErrRec)
@[simp] theorem State.raiseSev_pending : (s.raiseSev v r).pending = s.pending := by simp [State.raiseSev, State.freeVal, apply_ite State.pending]
@[simp] theorem State.raiseSev_mem : (s.raiseSev v r).mem = s.mem := by simp [State.raiseSev, State.freeVal, apply_ite State.mem]
@[simp] theorem State.raiseSev_poison : (s.raiseSev v r).poison = s.poison := by simp [State.raiseSev, State.freeVal, apply_ite State.poison]
@[simp] theorem State.raiseSev_tiles : (s.raiseSev v r).tiles = s.tiles := by simp [State.raiseSev, State.freeVal, apply_ite State.tiles]
@[simp] theorem State.raiseSev_talons : (s.raiseSev v r).talons = s.talons := by simp [State.raiseSev, State.freeVal, apply_ite State.talons]
@[simp] theorem State.raiseSev_bulks : (s.raiseSev v r).bulks = s.bulks := by simp [State.raiseSev, State.freeVal, apply_ite State.bulks]
@[simp] theorem State.raiseSev_memc : (s.raiseSev v r).memc = s.memc := by simp [State.raiseSev, State.freeVal, apply_ite State.memc]
@[simp] theorem State.raiseSev_mer : (s.raiseSev v r).mer = s.mer := by simp [State.raiseSev, State.freeVal, apply_ite State.mer]
@[simp] theorem State.raiseSev_stw : (s.raiseSev v r).stw = s.stw := by simp [State.raiseSev, State.freeVal, apply_ite State.stw]
@[simp] theorem State.raiseSev_net : (s.raiseSev v r).net = s.net := by simp [State.raiseSev, State.freeVal, apply_ite State.net]
@[simp] theorem State.raiseSev_hands : (s.raiseSev v r).hands = s.hands := by simp [State.raiseSev, State.freeVal, apply_ite State.hands]
@[simp] theorem State.raiseSev_fns : (s.raiseSev v r).fns = s.fns := by simp [State.raiseSev, State.freeVal, apply_ite State.fns]
@[simp] theorem State.raiseSev_perst : (s.raiseSev v r).perst = s.perst := by simp [State.raiseSev, State.freeVal, apply_ite State.perst]
@[simp] theorem State.raiseSev_dlUp : (s.raiseSev v r).dlUp = s.dlUp := by simp [State.raiseSev, State.freeVal, apply_ite State.dlUp]
@[simp] theorem State.raiseSev_shadow : (s.raiseSev v r).shadow = s.shadow := by simp [State.raiseSev, State.freeVal, apply_ite State.shadow]
@[simp] theorem State.raiseSev_pwr : (s.raiseSev v r).pwr = s.pwr := by simp [State.raiseSev, State.freeVal, apply_ite State.pwr]
@[simp] theorem State.raiseSev_pinReset : (s.raiseSev v r).pinReset = s.pinReset := by simp [State.raiseSev, State.freeVal, apply_ite State.pinReset]
@[simp] theorem State.raiseSev_railLow : (s.raiseSev v r).railLow = s.railLow := by simp [State.raiseSev, State.freeVal, apply_ite State.railLow]
@[simp] theorem State.raiseSev_clkLow : (s.raiseSev v r).clkLow = s.clkLow := by simp [State.raiseSev, State.freeVal, apply_ite State.clkLow]
@[simp] theorem State.raiseSev_tap : (s.raiseSev v r).tap = s.tap := by simp [State.raiseSev, State.freeVal, apply_ite State.tap]
@[simp] theorem State.raiseSev_sent : (s.raiseSev v r).sent = s.sent := by simp [State.raiseSev, State.freeVal, apply_ite State.sent]

end
/-! `State.raise` changes errs, regs, free, provs alone. -/
section
variable (s : State) (r : ErrRec)
@[simp] theorem State.raise_pending : (s.raise r).pending = s.pending := by simp [State.raise]
@[simp] theorem State.raise_mem : (s.raise r).mem = s.mem := by simp [State.raise]
@[simp] theorem State.raise_poison : (s.raise r).poison = s.poison := by simp [State.raise]
@[simp] theorem State.raise_tiles : (s.raise r).tiles = s.tiles := by simp [State.raise]
@[simp] theorem State.raise_talons : (s.raise r).talons = s.talons := by simp [State.raise]
@[simp] theorem State.raise_bulks : (s.raise r).bulks = s.bulks := by simp [State.raise]
@[simp] theorem State.raise_memc : (s.raise r).memc = s.memc := by simp [State.raise]
@[simp] theorem State.raise_mer : (s.raise r).mer = s.mer := by simp [State.raise]
@[simp] theorem State.raise_stw : (s.raise r).stw = s.stw := by simp [State.raise]
@[simp] theorem State.raise_net : (s.raise r).net = s.net := by simp [State.raise]
@[simp] theorem State.raise_hands : (s.raise r).hands = s.hands := by simp [State.raise]
@[simp] theorem State.raise_fns : (s.raise r).fns = s.fns := by simp [State.raise]
@[simp] theorem State.raise_perst : (s.raise r).perst = s.perst := by simp [State.raise]
@[simp] theorem State.raise_dlUp : (s.raise r).dlUp = s.dlUp := by simp [State.raise]
@[simp] theorem State.raise_shadow : (s.raise r).shadow = s.shadow := by simp [State.raise]
@[simp] theorem State.raise_pwr : (s.raise r).pwr = s.pwr := by simp [State.raise]
@[simp] theorem State.raise_pinReset : (s.raise r).pinReset = s.pinReset := by simp [State.raise]
@[simp] theorem State.raise_railLow : (s.raise r).railLow = s.railLow := by simp [State.raise]
@[simp] theorem State.raise_clkLow : (s.raise r).clkLow = s.clkLow := by simp [State.raise]
@[simp] theorem State.raise_tap : (s.raise r).tap = s.tap := by simp [State.raise]
@[simp] theorem State.raise_sent : (s.raise r).sent = s.sent := by simp [State.raise]
end

end Sys2Proof.Machine
end

