-- ==== Sys2Proof/Laws/Registers.lean ====
section
/-! SUPPORT. Laws of registers and their fields: what a write is read back as, and what it leaves alone. -/
namespace Sys2Proof.Machine

theorem bits_lt (n lo w : Nat) : bits n lo w < 2 ^ w := Nat.mod_lt _ (by positivity)

/-- A field that was set reads as the value, cut to the field's width. -/
theorem bits_setBits_self (n lo w v : Nat) : bits (setBits n lo w v) lo w = v % 2 ^ w := by
  unfold bits setBits
  have h1 : n % 2 ^ lo < 2 ^ lo := Nat.mod_lt _ (by positivity)
  have : n / 2 ^ (lo + w) * 2 ^ (lo + w) + v % 2 ^ w * 2 ^ lo + n % 2 ^ lo = n % 2 ^ lo + 2 ^ lo * (n / 2 ^ (lo + w) * 2 ^ w + v % 2 ^ w) := by
    rw [pow_add]; ring
  rw [this, Nat.add_mul_div_left _ _ (by positivity), Nat.div_eq_of_lt h1, Nat.zero_add, Nat.mul_comm, Nat.mul_add_mod, Nat.mod_mod]

/-- A field apart from the one that was set is left alone. -/
theorem bits_setBits_other (n lo w v lo' w' : Nat) (h : lo + w ≤ lo' ∨ lo' + w' ≤ lo) : bits (setBits n lo w v) lo' w' = bits n lo' w' := by
  unfold bits setBits
  have h1 : n % 2 ^ lo < 2 ^ lo := Nat.mod_lt _ (by positivity)
  have hv : v % 2 ^ w < 2 ^ w := Nat.mod_lt _ (by positivity)
  rcases h with h | h
  · congr 1
    obtain ⟨d, rfl⟩ := Nat.exists_eq_add_of_le h
    have hlow : v % 2 ^ w * 2 ^ lo + n % 2 ^ lo < 2 ^ (lo + w) := by
      rw [pow_add]
      nlinarith [Nat.two_pow_pos lo]
    rw [pow_add 2 (lo + w) d, ← Nat.div_div_eq_div_mul, ← Nat.div_div_eq_div_mul, Nat.add_assoc, Nat.mul_comm (n / 2 ^ (lo + w)),
      Nat.mul_add_div (by positivity), Nat.div_eq_of_lt hlow, Nat.add_zero]
  · obtain ⟨d, rfl⟩ := Nat.exists_eq_add_of_le h
    have key : n / 2 ^ (lo' + w' + d + w) * 2 ^ (lo' + w' + d + w) + v % 2 ^ w * 2 ^ (lo' + w' + d) + n % 2 ^ (lo' + w' + d) =
        n % 2 ^ (lo' + w' + d) + 2 ^ (lo' + w') * (2 ^ d * (n / 2 ^ (lo' + w' + d + w) * 2 ^ w + v % 2 ^ w)) := by
      rw [pow_add 2 (lo' + w' + d) w, pow_add 2 (lo' + w') d]; ring
    rw [key]
    have m1 : ∀ a b : Nat, (a + 2 ^ (lo' + w') * b) / 2 ^ lo' % 2 ^ w' = a / 2 ^ lo' % 2 ^ w' := by
      intro a b
      rw [pow_add, Nat.mul_assoc, Nat.add_mul_div_left _ _ (by positivity), Nat.add_mul_mod_self_left]
    rw [m1]
    have : n = n % 2 ^ (lo' + w' + d) + 2 ^ (lo' + w') * (2 ^ d * (n / 2 ^ (lo' + w' + d))) := by
      rw [← Nat.mul_assoc, ← pow_add, Nat.mod_add_div]
    conv_rhs => rw [this, m1]

theorem setBits_lt {n lo w v k : Nat} (hn : n < 2 ^ k) (h : lo + w ≤ k) : setBits n lo w v < 2 ^ k := by
  unfold setBits
  have h1 : n % 2 ^ lo < 2 ^ lo := Nat.mod_lt _ (by positivity)
  have hv : v % 2 ^ w < 2 ^ w := Nat.mod_lt _ (by positivity)
  obtain ⟨d, rfl⟩ := Nat.exists_eq_add_of_le h
  have hq : n / 2 ^ (lo + w) < 2 ^ d := by
    rw [Nat.div_lt_iff_lt_mul (by positivity), ← pow_add, Nat.add_comm d]; exact hn
  have hlow : v % 2 ^ w * 2 ^ lo + n % 2 ^ lo < 2 ^ (lo + w) := by
    rw [pow_add]
    nlinarith [Nat.two_pow_pos lo]
  rw [pow_add 2 (lo + w) d]
  nlinarith [Nat.two_pow_pos (lo + w)]

/-- Registers of different units, blocks or offsets have different keys. -/
theorem key_ne {u w : Nat} {r q : Reg} (hu : u < 2 ^ 24) (hw : w < 2 ^ 24) (hr : r.off < 2 ^ 16) (hq : q.off < 2 ^ 16)
    (h : r.block.code ≠ q.block.code ∨ u ≠ w ∨ r.off ≠ q.off) : r.key u ≠ q.key w := by
  unfold Reg.key
  omega

/-- A register that was set reads as the word. -/
@[simp] theorem State.reg_setReg_self (s : State) (u : Nat) (r : Reg) (v : W64) : (s.setReg u r v).reg u r = v :=
  Sparse.get_set_self

/-- A register apart from the one that was set is left alone. -/
theorem State.reg_setReg_other (s : State) {u w : Nat} {r q : Reg} (v : W64) (h : q.key w ≠ r.key u) :
    (s.setReg u r v).reg w q = s.reg w q :=
  Sparse.get_set_ne h

/-- A field that was set reads as the value, cut to its width. -/
theorem State.fld_setFld_self (s : State) (u : Nat) (f : Fld) (v : Nat) (h : f.lo + f.width ≤ 64) :
    (s.setFld u f v).fld u f = v % 2 ^ f.width := by
  unfold State.fld State.setFld
  rw [State.reg_setReg_self, BitVec.toNat_ofNat, Nat.mod_eq_of_lt (setBits_lt (s.reg u f.reg).isLt h), bits_setBits_self]

/-- A field apart from the one that was set, of the same register, is left alone. -/
theorem State.fld_setFld_same (s : State) (u : Nat) {f g : Fld} (v : Nat) (hr : g.reg = f.reg) (hf : f.lo + f.width ≤ 64)
    (h : f.lo + f.width ≤ g.lo ∨ g.lo + g.width ≤ f.lo) : (s.setFld u f v).fld u g = s.fld u g := by
  unfold State.fld State.setFld
  rw [hr, State.reg_setReg_self, BitVec.toNat_ofNat, Nat.mod_eq_of_lt (setBits_lt (s.reg u f.reg).isLt hf), bits_setBits_other _ _ _ _ _ _ h]

/-- A register apart from the field's is left alone. -/
theorem State.reg_setFld_other (s : State) {u w : Nat} {f : Fld} {q : Reg} (v : Nat) (h : q.key w ≠ f.reg.key u) :
    (s.setFld u f v).reg w q = s.reg w q :=
  State.reg_setReg_other s _ h

/-- A field of another register is left alone. -/
theorem State.fld_setFld_other (s : State) {u w : Nat} {f g : Fld} (v : Nat) (h : g.reg.key w ≠ f.reg.key u) :
    (s.setFld u f v).fld w g = s.fld w g := by
  unfold State.fld
  rw [State.reg_setFld_other s v h]

/-- Two fields of one register that do not overlap, as one condition on the fields. -/
theorem State.fld_setFld_bits (s : State) (u : Nat) {f g : Fld} (v : Nat)
    (h : g.reg = f.reg ∧ f.lo + f.width ≤ 64 ∧ (f.lo + f.width ≤ g.lo ∨ g.lo + g.width ≤ f.lo)) : (s.setFld u f v).fld u g = s.fld u g :=
  s.fld_setFld_same u v h.1 h.2.1 h.2.2

/-- Registers at different offsets differ, whatever their units. -/
theorem State.fld_setFld_off (s : State) {u w : Nat} {f g : Fld} (v : Nat) (h : g.reg.off ≠ f.reg.off ∧ g.reg.off < 2 ^ 16 ∧ f.reg.off < 2 ^ 16) :
    (s.setFld u f v).fld w g = s.fld w g :=
  s.fld_setFld_other v (by unfold Reg.key; omega)

/-- Registers of different blocks differ. -/
theorem State.fld_setFld_block (s : State) {u w : Nat} {f g : Fld} (v : Nat) (hu : u < 2 ^ 24) (hw : w < 2 ^ 24)
    (h : g.reg.block.code ≠ f.reg.block.code ∧ g.reg.off < 2 ^ 16 ∧ f.reg.off < 2 ^ 16) : (s.setFld u f v).fld w g = s.fld w g :=
  s.fld_setFld_other v (key_ne hw hu h.2.1 h.2.2 (.inl h.1))

/-- The same register of another unit is another register. -/
theorem State.fld_setFld_unit (s : State) {u w : Nat} {f g : Fld} (v : Nat) (h : w ≠ u)
    (hr : g.reg.block.code = f.reg.block.code ∧ g.reg.off < 2 ^ 16 ∧ f.reg.off < 2 ^ 16) : (s.setFld u f v).fld w g = s.fld w g :=
  s.fld_setFld_other v (by unfold Reg.key; omega)

/-- A field holds less than its width allows. -/
theorem State.fld_lt (s : State) (u : Nat) (f : Fld) : s.fld u f < 2 ^ f.width := bits_lt _ _ _

/-- Two states with the same register file read every register alike. -/
theorem State.reg_congr {s t : State} (h : t.regs = s.regs) (u : Nat) (r : Reg) : t.reg u r = s.reg u r := by
  unfold State.reg; rw [h]
theorem State.fld_congr {s t : State} (h : t.regs = s.regs) (u : Nat) (f : Fld) : t.fld u f = s.fld u f := by
  unfold State.fld; rw [State.reg_congr h]

/-- The tile, the province, the hand … that was set is read back; the others are left alone. -/
@[simp] theorem State.tile_setTile_self (s : State) (k : Nat) (x : Tile) : (s.setTile k x).tile k = x := Sparse.get_set_self
theorem State.tile_setTile_ne (s : State) {k j : Nat} (x : Tile) (h : j ≠ k) : (s.setTile k x).tile j = s.tile j := Sparse.get_set_ne h
@[simp] theorem State.prov_setProv_self (s : State) (k : Nat) (x : Prov) : (s.setProv k x).prov k = x := Sparse.get_set_self
theorem State.prov_setProv_ne (s : State) {k j : Nat} (x : Prov) (h : j ≠ k) : (s.setProv k x).prov j = s.prov j := Sparse.get_set_ne h
@[simp] theorem State.talon_setTalon_self (s : State) (k : Nat) (x : Talon) : (s.setTalon k x).talon k = x := Sparse.get_set_self
theorem State.talon_setTalon_ne (s : State) {k j : Nat} (x : Talon) (h : j ≠ k) : (s.setTalon k x).talon j = s.talon j := Sparse.get_set_ne h
@[simp] theorem State.bulk_setBulk_self (s : State) (k : Nat) (x : Bulk) : (s.setBulk k x).bulk k = x := Sparse.get_set_self
theorem State.bulk_setBulk_ne (s : State) {k j : Nat} (x : Bulk) (h : j ≠ k) : (s.setBulk k x).bulk j = s.bulk j := Sparse.get_set_ne h
@[simp] theorem State.hand_setHand_self (s : State) (k : Nat) (x : Hand) : (s.setHand k x).hand k = x := Sparse.get_set_self
theorem State.hand_setHand_ne (s : State) {k j : Nat} (x : Hand) (h : j ≠ k) : (s.setHand k x).hand j = s.hand j := Sparse.get_set_ne h
@[simp] theorem State.fn_setFn_self (s : State) (k : Nat) (x : Fn) : (s.setFn k x).fn k = x := Sparse.get_set_self
theorem State.fn_setFn_ne (s : State) {k j : Nat} (x : Fn) (h : j ≠ k) : (s.setFn k x).fn j = s.fn j := Sparse.get_set_ne h
@[simp] theorem State.port_setPort_self (s : State) (k : Nat) (x : Port) : (s.setPort k x).port k = x := Sparse.get_set_self
theorem State.port_setPort_ne (s : State) {k j : Nat} (x : Port) (h : j ≠ k) : (s.setPort k x).port j = s.port j := Sparse.get_set_ne h

/-- Two states with the same map read it alike. -/
theorem State.tile_congr {s t : State} (h : t.tiles = s.tiles) (k : Nat) : t.tile k = s.tile k := by unfold State.tile; rw [h]
theorem State.prov_congr {s t : State} (h : t.provs = s.provs) (k : Nat) : t.prov k = s.prov k := by unfold State.prov; rw [h]

end Sys2Proof.Machine
end

