-- ==== Sys2Proof/Laws/Access.lean ====
section
/-! SUPPORT. Reading one part of the state past an update of another. -/
namespace Sys2Proof.Machine

/-! Reading past `State.setReg`. -/
@[simp] theorem State.tile_setReg (s : State) (u : Nat) (r : Reg) (v : W64) (j : Nat) : (s.setReg u r v).tile j = s.tile j := by unfold State.tile; simp
@[simp] theorem State.prov_setReg (s : State) (u : Nat) (r : Reg) (v : W64) (j : Nat) : (s.setReg u r v).prov j = s.prov j := by unfold State.prov; simp
@[simp] theorem State.talon_setReg (s : State) (u : Nat) (r : Reg) (v : W64) (j : Nat) : (s.setReg u r v).talon j = s.talon j := by unfold State.talon; simp
@[simp] theorem State.bulk_setReg (s : State) (u : Nat) (r : Reg) (v : W64) (j : Nat) : (s.setReg u r v).bulk j = s.bulk j := by unfold State.bulk; simp
@[simp] theorem State.hand_setReg (s : State) (u : Nat) (r : Reg) (v : W64) (j : Nat) : (s.setReg u r v).hand j = s.hand j := by unfold State.hand; simp
@[simp] theorem State.fn_setReg (s : State) (u : Nat) (r : Reg) (v : W64) (j : Nat) : (s.setReg u r v).fn j = s.fn j := by unfold State.fn; simp
@[simp] theorem State.port_setReg (s : State) (u : Nat) (r : Reg) (v : W64) (j : Nat) : (s.setReg u r v).port j = s.port j := by unfold State.port; simp
@[simp] theorem State.cage_setReg (s : State) (u : Nat) (r : Reg) (v : W64) (j : Nat) : (s.setReg u r v).cage j = s.cage j := by unfold State.cage; simp
@[simp] theorem State.link_setReg (s : State) (u : Nat) (r : Reg) (v : W64) (j j2 : Nat) : (s.setReg u r v).link j j2 = s.link j j2 := by unfold State.link; simp

/-! Reading past `State.setFld`. -/
@[simp] theorem State.tile_setFld (s : State) (u : Nat) (f : Fld) (v : Nat) (j : Nat) : (s.setFld u f v).tile j = s.tile j := by unfold State.tile; simp
@[simp] theorem State.prov_setFld (s : State) (u : Nat) (f : Fld) (v : Nat) (j : Nat) : (s.setFld u f v).prov j = s.prov j := by unfold State.prov; simp
@[simp] theorem State.talon_setFld (s : State) (u : Nat) (f : Fld) (v : Nat) (j : Nat) : (s.setFld u f v).talon j = s.talon j := by unfold State.talon; simp
@[simp] theorem State.bulk_setFld (s : State) (u : Nat) (f : Fld) (v : Nat) (j : Nat) : (s.setFld u f v).bulk j = s.bulk j := by unfold State.bulk; simp
@[simp] theorem State.hand_setFld (s : State) (u : Nat) (f : Fld) (v : Nat) (j : Nat) : (s.setFld u f v).hand j = s.hand j := by unfold State.hand; simp
@[simp] theorem State.fn_setFld (s : State) (u : Nat) (f : Fld) (v : Nat) (j : Nat) : (s.setFld u f v).fn j = s.fn j := by unfold State.fn; simp
@[simp] theorem State.port_setFld (s : State) (u : Nat) (f : Fld) (v : Nat) (j : Nat) : (s.setFld u f v).port j = s.port j := by unfold State.port; simp
@[simp] theorem State.cage_setFld (s : State) (u : Nat) (f : Fld) (v : Nat) (j : Nat) : (s.setFld u f v).cage j = s.cage j := by unfold State.cage; simp
@[simp] theorem State.link_setFld (s : State) (u : Nat) (f : Fld) (v : Nat) (j j2 : Nat) : (s.setFld u f v).link j j2 = s.link j j2 := by unfold State.link; simp

/-! Reading past `State.orFld`. -/
@[simp] theorem State.tile_orFld (s : State) (u : Nat) (f : Fld) (m : Nat) (j : Nat) : (s.orFld u f m).tile j = s.tile j := by unfold State.tile; simp
@[simp] theorem State.prov_orFld (s : State) (u : Nat) (f : Fld) (m : Nat) (j : Nat) : (s.orFld u f m).prov j = s.prov j := by unfold State.prov; simp
@[simp] theorem State.talon_orFld (s : State) (u : Nat) (f : Fld) (m : Nat) (j : Nat) : (s.orFld u f m).talon j = s.talon j := by unfold State.talon; simp
@[simp] theorem State.bulk_orFld (s : State) (u : Nat) (f : Fld) (m : Nat) (j : Nat) : (s.orFld u f m).bulk j = s.bulk j := by unfold State.bulk; simp
@[simp] theorem State.hand_orFld (s : State) (u : Nat) (f : Fld) (m : Nat) (j : Nat) : (s.orFld u f m).hand j = s.hand j := by unfold State.hand; simp
@[simp] theorem State.fn_orFld (s : State) (u : Nat) (f : Fld) (m : Nat) (j : Nat) : (s.orFld u f m).fn j = s.fn j := by unfold State.fn; simp
@[simp] theorem State.port_orFld (s : State) (u : Nat) (f : Fld) (m : Nat) (j : Nat) : (s.orFld u f m).port j = s.port j := by unfold State.port; simp
@[simp] theorem State.cage_orFld (s : State) (u : Nat) (f : Fld) (m : Nat) (j : Nat) : (s.orFld u f m).cage j = s.cage j := by unfold State.cage; simp
@[simp] theorem State.link_orFld (s : State) (u : Nat) (f : Fld) (m : Nat) (j j2 : Nat) : (s.orFld u f m).link j j2 = s.link j j2 := by unfold State.link; simp

/-! Reading past `State.incFld`. -/
@[simp] theorem State.tile_incFld (s : State) (u : Nat) (f : Fld) (n : Nat) (j : Nat) : (s.incFld u f n).tile j = s.tile j := by unfold State.tile; simp
@[simp] theorem State.prov_incFld (s : State) (u : Nat) (f : Fld) (n : Nat) (j : Nat) : (s.incFld u f n).prov j = s.prov j := by unfold State.prov; simp
@[simp] theorem State.talon_incFld (s : State) (u : Nat) (f : Fld) (n : Nat) (j : Nat) : (s.incFld u f n).talon j = s.talon j := by unfold State.talon; simp
@[simp] theorem State.bulk_incFld (s : State) (u : Nat) (f : Fld) (n : Nat) (j : Nat) : (s.incFld u f n).bulk j = s.bulk j := by unfold State.bulk; simp
@[simp] theorem State.hand_incFld (s : State) (u : Nat) (f : Fld) (n : Nat) (j : Nat) : (s.incFld u f n).hand j = s.hand j := by unfold State.hand; simp
@[simp] theorem State.fn_incFld (s : State) (u : Nat) (f : Fld) (n : Nat) (j : Nat) : (s.incFld u f n).fn j = s.fn j := by unfold State.fn; simp
@[simp] theorem State.port_incFld (s : State) (u : Nat) (f : Fld) (n : Nat) (j : Nat) : (s.incFld u f n).port j = s.port j := by unfold State.port; simp
@[simp] theorem State.cage_incFld (s : State) (u : Nat) (f : Fld) (n : Nat) (j : Nat) : (s.incFld u f n).cage j = s.cage j := by unfold State.cage; simp
@[simp] theorem State.link_incFld (s : State) (u : Nat) (f : Fld) (n : Nat) (j j2 : Nat) : (s.incFld u f n).link j j2 = s.link j j2 := by unfold State.link; simp

/-! Reading past `State.clearRegs`. -/
@[simp] theorem State.tile_clearRegs (s : State) (b : Block) (u : Nat) (j : Nat) : (s.clearRegs b u).tile j = s.tile j := by unfold State.tile; simp
@[simp] theorem State.prov_clearRegs (s : State) (b : Block) (u : Nat) (j : Nat) : (s.clearRegs b u).prov j = s.prov j := by unfold State.prov; simp
@[simp] theorem State.talon_clearRegs (s : State) (b : Block) (u : Nat) (j : Nat) : (s.clearRegs b u).talon j = s.talon j := by unfold State.talon; simp
@[simp] theorem State.bulk_clearRegs (s : State) (b : Block) (u : Nat) (j : Nat) : (s.clearRegs b u).bulk j = s.bulk j := by unfold State.bulk; simp
@[simp] theorem State.hand_clearRegs (s : State) (b : Block) (u : Nat) (j : Nat) : (s.clearRegs b u).hand j = s.hand j := by unfold State.hand; simp
@[simp] theorem State.fn_clearRegs (s : State) (b : Block) (u : Nat) (j : Nat) : (s.clearRegs b u).fn j = s.fn j := by unfold State.fn; simp
@[simp] theorem State.port_clearRegs (s : State) (b : Block) (u : Nat) (j : Nat) : (s.clearRegs b u).port j = s.port j := by unfold State.port; simp
@[simp] theorem State.cage_clearRegs (s : State) (b : Block) (u : Nat) (j : Nat) : (s.clearRegs b u).cage j = s.cage j := by unfold State.cage; simp
@[simp] theorem State.link_clearRegs (s : State) (b : Block) (u : Nat) (j j2 : Nat) : (s.clearRegs b u).link j j2 = s.link j j2 := by unfold State.link; simp

/-! Reading past `State.flag`. -/
@[simp] theorem State.tile_flag (s : State) (u : Nat) (f : Fld) (b : Bool) (j : Nat) : (s.flag u f b).tile j = s.tile j := by unfold State.tile; simp
@[simp] theorem State.prov_flag (s : State) (u : Nat) (f : Fld) (b : Bool) (j : Nat) : (s.flag u f b).prov j = s.prov j := by unfold State.prov; simp
@[simp] theorem State.talon_flag (s : State) (u : Nat) (f : Fld) (b : Bool) (j : Nat) : (s.flag u f b).talon j = s.talon j := by unfold State.talon; simp
@[simp] theorem State.bulk_flag (s : State) (u : Nat) (f : Fld) (b : Bool) (j : Nat) : (s.flag u f b).bulk j = s.bulk j := by unfold State.bulk; simp
@[simp] theorem State.hand_flag (s : State) (u : Nat) (f : Fld) (b : Bool) (j : Nat) : (s.flag u f b).hand j = s.hand j := by unfold State.hand; simp
@[simp] theorem State.fn_flag (s : State) (u : Nat) (f : Fld) (b : Bool) (j : Nat) : (s.flag u f b).fn j = s.fn j := by unfold State.fn; simp
@[simp] theorem State.port_flag (s : State) (u : Nat) (f : Fld) (b : Bool) (j : Nat) : (s.flag u f b).port j = s.port j := by unfold State.port; simp
@[simp] theorem State.cage_flag (s : State) (u : Nat) (f : Fld) (b : Bool) (j : Nat) : (s.flag u f b).cage j = s.cage j := by unfold State.cage; simp
@[simp] theorem State.link_flag (s : State) (u : Nat) (f : Fld) (b : Bool) (j j2 : Nat) : (s.flag u f b).link j j2 = s.link j j2 := by unfold State.link; simp

/-! Reading past `State.setTile`. -/
@[simp] theorem State.prov_setTile (s : State) (t : Nat) (x : Tile) (j : Nat) : (s.setTile t x).prov j = s.prov j := by unfold State.prov; simp
@[simp] theorem State.talon_setTile (s : State) (t : Nat) (x : Tile) (j : Nat) : (s.setTile t x).talon j = s.talon j := by unfold State.talon; simp
@[simp] theorem State.bulk_setTile (s : State) (t : Nat) (x : Tile) (j : Nat) : (s.setTile t x).bulk j = s.bulk j := by unfold State.bulk; simp
@[simp] theorem State.hand_setTile (s : State) (t : Nat) (x : Tile) (j : Nat) : (s.setTile t x).hand j = s.hand j := by unfold State.hand; simp
@[simp] theorem State.fn_setTile (s : State) (t : Nat) (x : Tile) (j : Nat) : (s.setTile t x).fn j = s.fn j := by unfold State.fn; simp
@[simp] theorem State.port_setTile (s : State) (t : Nat) (x : Tile) (j : Nat) : (s.setTile t x).port j = s.port j := by unfold State.port; simp
@[simp] theorem State.cage_setTile (s : State) (t : Nat) (x : Tile) (j : Nat) : (s.setTile t x).cage j = s.cage j := by unfold State.cage; simp
@[simp] theorem State.reg_setTile (s : State) (t : Nat) (x : Tile) (j : Nat) (rg : Reg) : (s.setTile t x).reg j rg = s.reg j rg := by unfold State.reg; simp
@[simp] theorem State.fld_setTile (s : State) (t : Nat) (x : Tile) (j : Nat) (g : Fld) : (s.setTile t x).fld j g = s.fld j g := by unfold State.fld; simp
@[simp] theorem State.link_setTile (s : State) (t : Nat) (x : Tile) (j j2 : Nat) : (s.setTile t x).link j j2 = s.link j j2 := by unfold State.link; simp

/-! Reading past `State.setProv`. -/
@[simp] theorem State.tile_setProv (s : State) (p : Nat) (x : Prov) (j : Nat) : (s.setProv p x).tile j = s.tile j := by unfold State.tile; simp
@[simp] theorem State.talon_setProv (s : State) (p : Nat) (x : Prov) (j : Nat) : (s.setProv p x).talon j = s.talon j := by unfold State.talon; simp
@[simp] theorem State.bulk_setProv (s : State) (p : Nat) (x : Prov) (j : Nat) : (s.setProv p x).bulk j = s.bulk j := by unfold State.bulk; simp
@[simp] theorem State.hand_setProv (s : State) (p : Nat) (x : Prov) (j : Nat) : (s.setProv p x).hand j = s.hand j := by unfold State.hand; simp
@[simp] theorem State.fn_setProv (s : State) (p : Nat) (x : Prov) (j : Nat) : (s.setProv p x).fn j = s.fn j := by unfold State.fn; simp
@[simp] theorem State.port_setProv (s : State) (p : Nat) (x : Prov) (j : Nat) : (s.setProv p x).port j = s.port j := by unfold State.port; simp
@[simp] theorem State.cage_setProv (s : State) (p : Nat) (x : Prov) (j : Nat) : (s.setProv p x).cage j = s.cage j := by unfold State.cage; simp
@[simp] theorem State.reg_setProv (s : State) (p : Nat) (x : Prov) (j : Nat) (rg : Reg) : (s.setProv p x).reg j rg = s.reg j rg := by unfold State.reg; simp
@[simp] theorem State.fld_setProv (s : State) (p : Nat) (x : Prov) (j : Nat) (g : Fld) : (s.setProv p x).fld j g = s.fld j g := by unfold State.fld; simp
@[simp] theorem State.link_setProv (s : State) (p : Nat) (x : Prov) (j j2 : Nat) : (s.setProv p x).link j j2 = s.link j j2 := by unfold State.link; simp

/-! Reading past `State.setTalon`. -/
@[simp] theorem State.tile_setTalon (s : State) (n : Nat) (x : Talon) (j : Nat) : (s.setTalon n x).tile j = s.tile j := by unfold State.tile; simp
@[simp] theorem State.prov_setTalon (s : State) (n : Nat) (x : Talon) (j : Nat) : (s.setTalon n x).prov j = s.prov j := by unfold State.prov; simp
@[simp] theorem State.bulk_setTalon (s : State) (n : Nat) (x : Talon) (j : Nat) : (s.setTalon n x).bulk j = s.bulk j := by unfold State.bulk; simp
@[simp] theorem State.hand_setTalon (s : State) (n : Nat) (x : Talon) (j : Nat) : (s.setTalon n x).hand j = s.hand j := by unfold State.hand; simp
@[simp] theorem State.fn_setTalon (s : State) (n : Nat) (x : Talon) (j : Nat) : (s.setTalon n x).fn j = s.fn j := by unfold State.fn; simp
@[simp] theorem State.port_setTalon (s : State) (n : Nat) (x : Talon) (j : Nat) : (s.setTalon n x).port j = s.port j := by unfold State.port; simp
@[simp] theorem State.cage_setTalon (s : State) (n : Nat) (x : Talon) (j : Nat) : (s.setTalon n x).cage j = s.cage j := by unfold State.cage; simp
@[simp] theorem State.reg_setTalon (s : State) (n : Nat) (x : Talon) (j : Nat) (rg : Reg) : (s.setTalon n x).reg j rg = s.reg j rg := by unfold State.reg; simp
@[simp] theorem State.fld_setTalon (s : State) (n : Nat) (x : Talon) (j : Nat) (g : Fld) : (s.setTalon n x).fld j g = s.fld j g := by unfold State.fld; simp
@[simp] theorem State.link_setTalon (s : State) (n : Nat) (x : Talon) (j j2 : Nat) : (s.setTalon n x).link j j2 = s.link j j2 := by unfold State.link; simp

/-! Reading past `State.setBulk`. -/
@[simp] theorem State.tile_setBulk (s : State) (n : Nat) (x : Bulk) (j : Nat) : (s.setBulk n x).tile j = s.tile j := by unfold State.tile; simp
@[simp] theorem State.prov_setBulk (s : State) (n : Nat) (x : Bulk) (j : Nat) : (s.setBulk n x).prov j = s.prov j := by unfold State.prov; simp
@[simp] theorem State.talon_setBulk (s : State) (n : Nat) (x : Bulk) (j : Nat) : (s.setBulk n x).talon j = s.talon j := by unfold State.talon; simp
@[simp] theorem State.hand_setBulk (s : State) (n : Nat) (x : Bulk) (j : Nat) : (s.setBulk n x).hand j = s.hand j := by unfold State.hand; simp
@[simp] theorem State.fn_setBulk (s : State) (n : Nat) (x : Bulk) (j : Nat) : (s.setBulk n x).fn j = s.fn j := by unfold State.fn; simp
@[simp] theorem State.port_setBulk (s : State) (n : Nat) (x : Bulk) (j : Nat) : (s.setBulk n x).port j = s.port j := by unfold State.port; simp
@[simp] theorem State.cage_setBulk (s : State) (n : Nat) (x : Bulk) (j : Nat) : (s.setBulk n x).cage j = s.cage j := by unfold State.cage; simp
@[simp] theorem State.reg_setBulk (s : State) (n : Nat) (x : Bulk) (j : Nat) (rg : Reg) : (s.setBulk n x).reg j rg = s.reg j rg := by unfold State.reg; simp
@[simp] theorem State.fld_setBulk (s : State) (n : Nat) (x : Bulk) (j : Nat) (g : Fld) : (s.setBulk n x).fld j g = s.fld j g := by unfold State.fld; simp
@[simp] theorem State.link_setBulk (s : State) (n : Nat) (x : Bulk) (j j2 : Nat) : (s.setBulk n x).link j j2 = s.link j j2 := by unfold State.link; simp

/-! Reading past `State.setHand`. -/
@[simp] theorem State.tile_setHand (s : State) (k : Nat) (x : Hand) (j : Nat) : (s.setHand k x).tile j = s.tile j := by unfold State.tile; simp
@[simp] theorem State.prov_setHand (s : State) (k : Nat) (x : Hand) (j : Nat) : (s.setHand k x).prov j = s.prov j := by unfold State.prov; simp
@[simp] theorem State.talon_setHand (s : State) (k : Nat) (x : Hand) (j : Nat) : (s.setHand k x).talon j = s.talon j := by unfold State.talon; simp
@[simp] theorem State.bulk_setHand (s : State) (k : Nat) (x : Hand) (j : Nat) : (s.setHand k x).bulk j = s.bulk j := by unfold State.bulk; simp
@[simp] theorem State.fn_setHand (s : State) (k : Nat) (x : Hand) (j : Nat) : (s.setHand k x).fn j = s.fn j := by unfold State.fn; simp
@[simp] theorem State.port_setHand (s : State) (k : Nat) (x : Hand) (j : Nat) : (s.setHand k x).port j = s.port j := by unfold State.port; simp
@[simp] theorem State.cage_setHand (s : State) (k : Nat) (x : Hand) (j : Nat) : (s.setHand k x).cage j = s.cage j := by unfold State.cage; simp
@[simp] theorem State.reg_setHand (s : State) (k : Nat) (x : Hand) (j : Nat) (rg : Reg) : (s.setHand k x).reg j rg = s.reg j rg := by unfold State.reg; simp
@[simp] theorem State.fld_setHand (s : State) (k : Nat) (x : Hand) (j : Nat) (g : Fld) : (s.setHand k x).fld j g = s.fld j g := by unfold State.fld; simp
@[simp] theorem State.link_setHand (s : State) (k : Nat) (x : Hand) (j j2 : Nat) : (s.setHand k x).link j j2 = s.link j j2 := by unfold State.link; simp

/-! Reading past `State.setFn`. -/
@[simp] theorem State.tile_setFn (s : State) (f : Nat) (x : Fn) (j : Nat) : (s.setFn f x).tile j = s.tile j := by unfold State.tile; simp
@[simp] theorem State.prov_setFn (s : State) (f : Nat) (x : Fn) (j : Nat) : (s.setFn f x).prov j = s.prov j := by unfold State.prov; simp
@[simp] theorem State.talon_setFn (s : State) (f : Nat) (x : Fn) (j : Nat) : (s.setFn f x).talon j = s.talon j := by unfold State.talon; simp
@[simp] theorem State.bulk_setFn (s : State) (f : Nat) (x : Fn) (j : Nat) : (s.setFn f x).bulk j = s.bulk j := by unfold State.bulk; simp
@[simp] theorem State.hand_setFn (s : State) (f : Nat) (x : Fn) (j : Nat) : (s.setFn f x).hand j = s.hand j := by unfold State.hand; simp
@[simp] theorem State.port_setFn (s : State) (f : Nat) (x : Fn) (j : Nat) : (s.setFn f x).port j = s.port j := by unfold State.port; simp
@[simp] theorem State.cage_setFn (s : State) (f : Nat) (x : Fn) (j : Nat) : (s.setFn f x).cage j = s.cage j := by unfold State.cage; simp
@[simp] theorem State.reg_setFn (s : State) (f : Nat) (x : Fn) (j : Nat) (rg : Reg) : (s.setFn f x).reg j rg = s.reg j rg := by unfold State.reg; simp
@[simp] theorem State.fld_setFn (s : State) (f : Nat) (x : Fn) (j : Nat) (g : Fld) : (s.setFn f x).fld j g = s.fld j g := by unfold State.fld; simp
@[simp] theorem State.link_setFn (s : State) (f : Nat) (x : Fn) (j j2 : Nat) : (s.setFn f x).link j j2 = s.link j j2 := by unfold State.link; simp

/-! Reading past `State.setPort`. -/
@[simp] theorem State.tile_setPort (s : State) (n : Nat) (x : Port) (j : Nat) : (s.setPort n x).tile j = s.tile j := by unfold State.tile; simp
@[simp] theorem State.prov_setPort (s : State) (n : Nat) (x : Port) (j : Nat) : (s.setPort n x).prov j = s.prov j := by unfold State.prov; simp
@[simp] theorem State.talon_setPort (s : State) (n : Nat) (x : Port) (j : Nat) : (s.setPort n x).talon j = s.talon j := by unfold State.talon; simp
@[simp] theorem State.bulk_setPort (s : State) (n : Nat) (x : Port) (j : Nat) : (s.setPort n x).bulk j = s.bulk j := by unfold State.bulk; simp
@[simp] theorem State.hand_setPort (s : State) (n : Nat) (x : Port) (j : Nat) : (s.setPort n x).hand j = s.hand j := by unfold State.hand; simp
@[simp] theorem State.fn_setPort (s : State) (n : Nat) (x : Port) (j : Nat) : (s.setPort n x).fn j = s.fn j := by unfold State.fn; simp
@[simp] theorem State.reg_setPort (s : State) (n : Nat) (x : Port) (j : Nat) (rg : Reg) : (s.setPort n x).reg j rg = s.reg j rg := by unfold State.reg; simp
@[simp] theorem State.fld_setPort (s : State) (n : Nat) (x : Port) (j : Nat) (g : Fld) : (s.setPort n x).fld j g = s.fld j g := by unfold State.fld; simp

/-! Reading past `State.setCage`. -/
@[simp] theorem State.tile_setCage (s : State) (c : Nat) (x : Cage) (j : Nat) : (s.setCage c x).tile j = s.tile j := by unfold State.tile; simp
@[simp] theorem State.prov_setCage (s : State) (c : Nat) (x : Cage) (j : Nat) : (s.setCage c x).prov j = s.prov j := by unfold State.prov; simp
@[simp] theorem State.talon_setCage (s : State) (c : Nat) (x : Cage) (j : Nat) : (s.setCage c x).talon j = s.talon j := by unfold State.talon; simp
@[simp] theorem State.bulk_setCage (s : State) (c : Nat) (x : Cage) (j : Nat) : (s.setCage c x).bulk j = s.bulk j := by unfold State.bulk; simp
@[simp] theorem State.hand_setCage (s : State) (c : Nat) (x : Cage) (j : Nat) : (s.setCage c x).hand j = s.hand j := by unfold State.hand; simp
@[simp] theorem State.fn_setCage (s : State) (c : Nat) (x : Cage) (j : Nat) : (s.setCage c x).fn j = s.fn j := by unfold State.fn; simp
@[simp] theorem State.reg_setCage (s : State) (c : Nat) (x : Cage) (j : Nat) (rg : Reg) : (s.setCage c x).reg j rg = s.reg j rg := by unfold State.reg; simp
@[simp] theorem State.fld_setCage (s : State) (c : Nat) (x : Cage) (j : Nat) (g : Fld) : (s.setCage c x).fld j g = s.fld j g := by unfold State.fld; simp

/-! Reading past `State.updLink`. -/
@[simp] theorem State.tile_updLink (s : State) (p q : Nat) (f : Link → Link) (j : Nat) : (s.updLink p q f).tile j = s.tile j := by unfold State.tile; simp
@[simp] theorem State.prov_updLink (s : State) (p q : Nat) (f : Link → Link) (j : Nat) : (s.updLink p q f).prov j = s.prov j := by unfold State.prov; simp
@[simp] theorem State.talon_updLink (s : State) (p q : Nat) (f : Link → Link) (j : Nat) : (s.updLink p q f).talon j = s.talon j := by unfold State.talon; simp
@[simp] theorem State.bulk_updLink (s : State) (p q : Nat) (f : Link → Link) (j : Nat) : (s.updLink p q f).bulk j = s.bulk j := by unfold State.bulk; simp
@[simp] theorem State.hand_updLink (s : State) (p q : Nat) (f : Link → Link) (j : Nat) : (s.updLink p q f).hand j = s.hand j := by unfold State.hand; simp
@[simp] theorem State.fn_updLink (s : State) (p q : Nat) (f : Link → Link) (j : Nat) : (s.updLink p q f).fn j = s.fn j := by unfold State.fn; simp
@[simp] theorem State.reg_updLink (s : State) (p q : Nat) (f : Link → Link) (j : Nat) (rg : Reg) : (s.updLink p q f).reg j rg = s.reg j rg := by unfold State.reg; simp
@[simp] theorem State.fld_updLink (s : State) (p q : Nat) (f : Link → Link) (j : Nat) (g : Fld) : (s.updLink p q f).fld j g = s.fld j g := by unfold State.fld; simp

/-! Reading past `State.take`. -/
@[simp] theorem State.tile_take (s : State) (p q : Nat) (b : NdxBody) (j : Nat) : (s.take p q b).tile j = s.tile j := by unfold State.tile; simp
@[simp] theorem State.prov_take (s : State) (p q : Nat) (b : NdxBody) (j : Nat) : (s.take p q b).prov j = s.prov j := by unfold State.prov; simp
@[simp] theorem State.talon_take (s : State) (p q : Nat) (b : NdxBody) (j : Nat) : (s.take p q b).talon j = s.talon j := by unfold State.talon; simp
@[simp] theorem State.bulk_take (s : State) (p q : Nat) (b : NdxBody) (j : Nat) : (s.take p q b).bulk j = s.bulk j := by unfold State.bulk; simp
@[simp] theorem State.hand_take (s : State) (p q : Nat) (b : NdxBody) (j : Nat) : (s.take p q b).hand j = s.hand j := by unfold State.hand; simp
@[simp] theorem State.fn_take (s : State) (p q : Nat) (b : NdxBody) (j : Nat) : (s.take p q b).fn j = s.fn j := by unfold State.fn; simp
@[simp] theorem State.reg_take (s : State) (p q : Nat) (b : NdxBody) (j : Nat) (rg : Reg) : (s.take p q b).reg j rg = s.reg j rg := by unfold State.reg; simp
@[simp] theorem State.fld_take (s : State) (p q : Nat) (b : NdxBody) (j : Nat) (g : Fld) : (s.take p q b).fld j g = s.fld j g := by unfold State.fld; simp

/-! Reading past `State.setCart`. -/
@[simp] theorem State.tile_setCart (s : State) (c : Cartridge) (j : Nat) : (s.setCart c).tile j = s.tile j := by unfold State.tile; simp
@[simp] theorem State.prov_setCart (s : State) (c : Cartridge) (j : Nat) : (s.setCart c).prov j = s.prov j := by unfold State.prov; simp
@[simp] theorem State.talon_setCart (s : State) (c : Cartridge) (j : Nat) : (s.setCart c).talon j = s.talon j := by unfold State.talon; simp
@[simp] theorem State.bulk_setCart (s : State) (c : Cartridge) (j : Nat) : (s.setCart c).bulk j = s.bulk j := by unfold State.bulk; simp
@[simp] theorem State.hand_setCart (s : State) (c : Cartridge) (j : Nat) : (s.setCart c).hand j = s.hand j := by unfold State.hand; simp
@[simp] theorem State.fn_setCart (s : State) (c : Cartridge) (j : Nat) : (s.setCart c).fn j = s.fn j := by unfold State.fn; simp
@[simp] theorem State.port_setCart (s : State) (c : Cartridge) (j : Nat) : (s.setCart c).port j = s.port j := by unfold State.port; simp
@[simp] theorem State.cage_setCart (s : State) (c : Cartridge) (j : Nat) : (s.setCart c).cage j = s.cage j := by unfold State.cage; simp
@[simp] theorem State.reg_setCart (s : State) (c : Cartridge) (j : Nat) (rg : Reg) : (s.setCart c).reg j rg = s.reg j rg := by unfold State.reg; simp
@[simp] theorem State.fld_setCart (s : State) (c : Cartridge) (j : Nat) (g : Fld) : (s.setCart c).fld j g = s.fld j g := by unfold State.fld; simp
@[simp] theorem State.link_setCart (s : State) (c : Cartridge) (j j2 : Nat) : (s.setCart c).link j j2 = s.link j j2 := by unfold State.link; simp

/-! Reading past `State.setConns`. -/
@[simp] theorem State.tile_setConns (s : State) (l : List TspConn) (j : Nat) : (s.setConns l).tile j = s.tile j := by unfold State.tile; simp
@[simp] theorem State.prov_setConns (s : State) (l : List TspConn) (j : Nat) : (s.setConns l).prov j = s.prov j := by unfold State.prov; simp
@[simp] theorem State.talon_setConns (s : State) (l : List TspConn) (j : Nat) : (s.setConns l).talon j = s.talon j := by unfold State.talon; simp
@[simp] theorem State.bulk_setConns (s : State) (l : List TspConn) (j : Nat) : (s.setConns l).bulk j = s.bulk j := by unfold State.bulk; simp
@[simp] theorem State.hand_setConns (s : State) (l : List TspConn) (j : Nat) : (s.setConns l).hand j = s.hand j := by unfold State.hand; simp
@[simp] theorem State.fn_setConns (s : State) (l : List TspConn) (j : Nat) : (s.setConns l).fn j = s.fn j := by unfold State.fn; simp
@[simp] theorem State.port_setConns (s : State) (l : List TspConn) (j : Nat) : (s.setConns l).port j = s.port j := by unfold State.port; simp
@[simp] theorem State.cage_setConns (s : State) (l : List TspConn) (j : Nat) : (s.setConns l).cage j = s.cage j := by unfold State.cage; simp
@[simp] theorem State.link_setConns (s : State) (l : List TspConn) (j j2 : Nat) : (s.setConns l).link j j2 = s.link j j2 := by unfold State.link; simp

/-! Reading past `State.addWait`. -/
@[simp] theorem State.tile_addWait (s : State) (c k p : Nat) (j : Nat) : (s.addWait c k p).tile j = s.tile j := by unfold State.tile; simp
@[simp] theorem State.prov_addWait (s : State) (c k p : Nat) (j : Nat) : (s.addWait c k p).prov j = s.prov j := by unfold State.prov; simp
@[simp] theorem State.talon_addWait (s : State) (c k p : Nat) (j : Nat) : (s.addWait c k p).talon j = s.talon j := by unfold State.talon; simp
@[simp] theorem State.bulk_addWait (s : State) (c k p : Nat) (j : Nat) : (s.addWait c k p).bulk j = s.bulk j := by unfold State.bulk; simp
@[simp] theorem State.hand_addWait (s : State) (c k p : Nat) (j : Nat) : (s.addWait c k p).hand j = s.hand j := by unfold State.hand; simp
@[simp] theorem State.fn_addWait (s : State) (c k p : Nat) (j : Nat) : (s.addWait c k p).fn j = s.fn j := by unfold State.fn; simp
@[simp] theorem State.port_addWait (s : State) (c k p : Nat) (j : Nat) : (s.addWait c k p).port j = s.port j := by unfold State.port; simp
@[simp] theorem State.cage_addWait (s : State) (c k p : Nat) (j : Nat) : (s.addWait c k p).cage j = s.cage j := by unfold State.cage; simp
@[simp] theorem State.reg_addWait (s : State) (c k p : Nat) (j : Nat) (rg : Reg) : (s.addWait c k p).reg j rg = s.reg j rg := by unfold State.reg; simp
@[simp] theorem State.fld_addWait (s : State) (c k p : Nat) (j : Nat) (g : Fld) : (s.addWait c k p).fld j g = s.fld j g := by unfold State.fld; simp
@[simp] theorem State.link_addWait (s : State) (c k p : Nat) (j j2 : Nat) : (s.addWait c k p).link j j2 = s.link j j2 := by unfold State.link; simp

/-! Reading past `State.putSession`. -/
@[simp] theorem State.tile_putSession (s : State) (x : SpdmSession) (j : Nat) : (s.putSession x).tile j = s.tile j := by unfold State.tile; simp
@[simp] theorem State.prov_putSession (s : State) (x : SpdmSession) (j : Nat) : (s.putSession x).prov j = s.prov j := by unfold State.prov; simp
@[simp] theorem State.talon_putSession (s : State) (x : SpdmSession) (j : Nat) : (s.putSession x).talon j = s.talon j := by unfold State.talon; simp
@[simp] theorem State.bulk_putSession (s : State) (x : SpdmSession) (j : Nat) : (s.putSession x).bulk j = s.bulk j := by unfold State.bulk; simp
@[simp] theorem State.hand_putSession (s : State) (x : SpdmSession) (j : Nat) : (s.putSession x).hand j = s.hand j := by unfold State.hand; simp
@[simp] theorem State.fn_putSession (s : State) (x : SpdmSession) (j : Nat) : (s.putSession x).fn j = s.fn j := by unfold State.fn; simp
@[simp] theorem State.port_putSession (s : State) (x : SpdmSession) (j : Nat) : (s.putSession x).port j = s.port j := by unfold State.port; simp
@[simp] theorem State.cage_putSession (s : State) (x : SpdmSession) (j : Nat) : (s.putSession x).cage j = s.cage j := by unfold State.cage; simp
@[simp] theorem State.reg_putSession (s : State) (x : SpdmSession) (j : Nat) (rg : Reg) : (s.putSession x).reg j rg = s.reg j rg := by unfold State.reg; simp
@[simp] theorem State.fld_putSession (s : State) (x : SpdmSession) (j : Nat) (g : Fld) : (s.putSession x).fld j g = s.fld j g := by unfold State.fld; simp
@[simp] theorem State.link_putSession (s : State) (x : SpdmSession) (j j2 : Nat) : (s.putSession x).link j j2 = s.link j j2 := by unfold State.link; simp

/-! Reading past `State.setIde`. -/
@[simp] theorem State.tile_setIde (s : State) (l : List IdeStream) (j : Nat) : (s.setIde l).tile j = s.tile j := by unfold State.tile; simp
@[simp] theorem State.prov_setIde (s : State) (l : List IdeStream) (j : Nat) : (s.setIde l).prov j = s.prov j := by unfold State.prov; simp
@[simp] theorem State.talon_setIde (s : State) (l : List IdeStream) (j : Nat) : (s.setIde l).talon j = s.talon j := by unfold State.talon; simp
@[simp] theorem State.bulk_setIde (s : State) (l : List IdeStream) (j : Nat) : (s.setIde l).bulk j = s.bulk j := by unfold State.bulk; simp
@[simp] theorem State.hand_setIde (s : State) (l : List IdeStream) (j : Nat) : (s.setIde l).hand j = s.hand j := by unfold State.hand; simp
@[simp] theorem State.fn_setIde (s : State) (l : List IdeStream) (j : Nat) : (s.setIde l).fn j = s.fn j := by unfold State.fn; simp
@[simp] theorem State.port_setIde (s : State) (l : List IdeStream) (j : Nat) : (s.setIde l).port j = s.port j := by unfold State.port; simp
@[simp] theorem State.cage_setIde (s : State) (l : List IdeStream) (j : Nat) : (s.setIde l).cage j = s.cage j := by unfold State.cage; simp
@[simp] theorem State.link_setIde (s : State) (l : List IdeStream) (j j2 : Nat) : (s.setIde l).link j j2 = s.link j j2 := by unfold State.link; simp

/-! Reading past `State.spend`. -/
@[simp] theorem State.tile_spend (s : State) (j : Nat) : s.spend.tile j = s.tile j := by unfold State.tile; simp
@[simp] theorem State.prov_spend (s : State) (j : Nat) : s.spend.prov j = s.prov j := by unfold State.prov; simp
@[simp] theorem State.talon_spend (s : State) (j : Nat) : s.spend.talon j = s.talon j := by unfold State.talon; simp
@[simp] theorem State.bulk_spend (s : State) (j : Nat) : s.spend.bulk j = s.bulk j := by unfold State.bulk; simp
@[simp] theorem State.hand_spend (s : State) (j : Nat) : s.spend.hand j = s.hand j := by unfold State.hand; simp
@[simp] theorem State.fn_spend (s : State) (j : Nat) : s.spend.fn j = s.fn j := by unfold State.fn; simp
@[simp] theorem State.port_spend (s : State) (j : Nat) : s.spend.port j = s.port j := by unfold State.port; simp
@[simp] theorem State.cage_spend (s : State) (j : Nat) : s.spend.cage j = s.cage j := by unfold State.cage; simp
@[simp] theorem State.reg_spend (s : State) (j : Nat) (rg : Reg) : s.spend.reg j rg = s.reg j rg := by unfold State.reg; simp
@[simp] theorem State.fld_spend (s : State) (j : Nat) (g : Fld) : s.spend.fld j g = s.fld j g := by unfold State.fld; simp
@[simp] theorem State.link_spend (s : State) (j j2 : Nat) : s.spend.link j j2 = s.link j j2 := by unfold State.link; simp

/-! Reading past `State.alertView`. -/
@[simp] theorem State.tile_alertView (s : State) (j : Nat) : s.alertView.tile j = s.tile j := by unfold State.tile; simp
@[simp] theorem State.prov_alertView (s : State) (j : Nat) : s.alertView.prov j = s.prov j := by unfold State.prov; simp
@[simp] theorem State.talon_alertView (s : State) (j : Nat) : s.alertView.talon j = s.talon j := by unfold State.talon; simp
@[simp] theorem State.bulk_alertView (s : State) (j : Nat) : s.alertView.bulk j = s.bulk j := by unfold State.bulk; simp
@[simp] theorem State.hand_alertView (s : State) (j : Nat) : s.alertView.hand j = s.hand j := by unfold State.hand; simp
@[simp] theorem State.fn_alertView (s : State) (j : Nat) : s.alertView.fn j = s.fn j := by unfold State.fn; simp
@[simp] theorem State.port_alertView (s : State) (j : Nat) : s.alertView.port j = s.port j := by unfold State.port; simp
@[simp] theorem State.cage_alertView (s : State) (j : Nat) : s.alertView.cage j = s.cage j := by unfold State.cage; simp
@[simp] theorem State.link_alertView (s : State) (j j2 : Nat) : s.alertView.link j j2 = s.link j j2 := by unfold State.link; simp

/-! Reading past `State.emit`. -/
@[simp] theorem State.tile_emit (s : State) (e : Emit) (j : Nat) : (s.emit e).tile j = s.tile j := by unfold State.tile; simp
@[simp] theorem State.prov_emit (s : State) (e : Emit) (j : Nat) : (s.emit e).prov j = s.prov j := by unfold State.prov; simp
@[simp] theorem State.talon_emit (s : State) (e : Emit) (j : Nat) : (s.emit e).talon j = s.talon j := by unfold State.talon; simp
@[simp] theorem State.bulk_emit (s : State) (e : Emit) (j : Nat) : (s.emit e).bulk j = s.bulk j := by unfold State.bulk; simp
@[simp] theorem State.hand_emit (s : State) (e : Emit) (j : Nat) : (s.emit e).hand j = s.hand j := by unfold State.hand; simp
@[simp] theorem State.fn_emit (s : State) (e : Emit) (j : Nat) : (s.emit e).fn j = s.fn j := by unfold State.fn; simp
@[simp] theorem State.reg_emit (s : State) (e : Emit) (j : Nat) (rg : Reg) : (s.emit e).reg j rg = s.reg j rg := by unfold State.reg; simp
@[simp] theorem State.fld_emit (s : State) (e : Emit) (j : Nat) (g : Fld) : (s.emit e).fld j g = s.fld j g := by unfold State.fld; simp

/-! Reading past `State.srvAdd`. -/
@[simp] theorem State.tile_srvAdd (s : State) (u : Nat) (c h : Fld) (i n : Nat) (j : Nat) : (s.srvAdd u c h i n).tile j = s.tile j := by unfold State.tile; simp
@[simp] theorem State.prov_srvAdd (s : State) (u : Nat) (c h : Fld) (i n : Nat) (j : Nat) : (s.srvAdd u c h i n).prov j = s.prov j := by unfold State.prov; simp
@[simp] theorem State.talon_srvAdd (s : State) (u : Nat) (c h : Fld) (i n : Nat) (j : Nat) : (s.srvAdd u c h i n).talon j = s.talon j := by unfold State.talon; simp
@[simp] theorem State.bulk_srvAdd (s : State) (u : Nat) (c h : Fld) (i n : Nat) (j : Nat) : (s.srvAdd u c h i n).bulk j = s.bulk j := by unfold State.bulk; simp
@[simp] theorem State.hand_srvAdd (s : State) (u : Nat) (c h : Fld) (i n : Nat) (j : Nat) : (s.srvAdd u c h i n).hand j = s.hand j := by unfold State.hand; simp
@[simp] theorem State.fn_srvAdd (s : State) (u : Nat) (c h : Fld) (i n : Nat) (j : Nat) : (s.srvAdd u c h i n).fn j = s.fn j := by unfold State.fn; simp

/-! Reading past `State.count`. -/
@[simp] theorem State.tile_count (s : State) (e : SrvEv) (j : Nat) : (s.count e).tile j = s.tile j := by unfold State.tile; simp
@[simp] theorem State.prov_count (s : State) (e : SrvEv) (j : Nat) : (s.count e).prov j = s.prov j := by unfold State.prov; simp
@[simp] theorem State.talon_count (s : State) (e : SrvEv) (j : Nat) : (s.count e).talon j = s.talon j := by unfold State.talon; simp
@[simp] theorem State.bulk_count (s : State) (e : SrvEv) (j : Nat) : (s.count e).bulk j = s.bulk j := by unfold State.bulk; simp
@[simp] theorem State.hand_count (s : State) (e : SrvEv) (j : Nat) : (s.count e).hand j = s.hand j := by unfold State.hand; simp
@[simp] theorem State.fn_count (s : State) (e : SrvEv) (j : Nat) : (s.count e).fn j = s.fn j := by unfold State.fn; simp

/-! Reading past `State.alertPulse`. -/
@[simp] theorem State.tile_alertPulse (s : State) (v : Nat) (j : Nat) : (s.alertPulse v).tile j = s.tile j := by unfold State.tile; simp
@[simp] theorem State.prov_alertPulse (s : State) (v : Nat) (j : Nat) : (s.alertPulse v).prov j = s.prov j := by unfold State.prov; simp
@[simp] theorem State.talon_alertPulse (s : State) (v : Nat) (j : Nat) : (s.alertPulse v).talon j = s.talon j := by unfold State.talon; simp
@[simp] theorem State.bulk_alertPulse (s : State) (v : Nat) (j : Nat) : (s.alertPulse v).bulk j = s.bulk j := by unfold State.bulk; simp
@[simp] theorem State.hand_alertPulse (s : State) (v : Nat) (j : Nat) : (s.alertPulse v).hand j = s.hand j := by unfold State.hand; simp
@[simp] theorem State.fn_alertPulse (s : State) (v : Nat) (j : Nat) : (s.alertPulse v).fn j = s.fn j := by unfold State.fn; simp
@[simp] theorem State.port_alertPulse (s : State) (v : Nat) (j : Nat) : (s.alertPulse v).port j = s.port j := by unfold State.port; simp
@[simp] theorem State.cage_alertPulse (s : State) (v : Nat) (j : Nat) : (s.alertPulse v).cage j = s.cage j := by unfold State.cage; simp
@[simp] theorem State.link_alertPulse (s : State) (v : Nat) (j j2 : Nat) : (s.alertPulse v).link j j2 = s.link j j2 := by unfold State.link; simp

/-! Reading past `State.logErr`. -/
@[simp] theorem State.tile_logErr (s : State) (r : ErrRec) (j : Nat) : (s.logErr r).tile j = s.tile j := by unfold State.tile; simp
@[simp] theorem State.prov_logErr (s : State) (r : ErrRec) (j : Nat) : (s.logErr r).prov j = s.prov j := by unfold State.prov; simp
@[simp] theorem State.talon_logErr (s : State) (r : ErrRec) (j : Nat) : (s.logErr r).talon j = s.talon j := by unfold State.talon; simp
@[simp] theorem State.bulk_logErr (s : State) (r : ErrRec) (j : Nat) : (s.logErr r).bulk j = s.bulk j := by unfold State.bulk; simp
@[simp] theorem State.hand_logErr (s : State) (r : ErrRec) (j : Nat) : (s.logErr r).hand j = s.hand j := by unfold State.hand; simp
@[simp] theorem State.fn_logErr (s : State) (r : ErrRec) (j : Nat) : (s.logErr r).fn j = s.fn j := by unfold State.fn; simp
@[simp] theorem State.port_logErr (s : State) (r : ErrRec) (j : Nat) : (s.logErr r).port j = s.port j := by unfold State.port; simp
@[simp] theorem State.cage_logErr (s : State) (r : ErrRec) (j : Nat) : (s.logErr r).cage j = s.cage j := by unfold State.cage; simp
@[simp] theorem State.reg_logErr (s : State) (r : ErrRec) (j : Nat) (rg : Reg) : (s.logErr r).reg j rg = s.reg j rg := by unfold State.reg; simp
@[simp] theorem State.fld_logErr (s : State) (r : ErrRec) (j : Nat) (g : Fld) : (s.logErr r).fld j g = s.fld j g := by unfold State.fld; simp
@[simp] theorem State.link_logErr (s : State) (r : ErrRec) (j j2 : Nat) : (s.logErr r).link j j2 = s.link j j2 := by unfold State.link; simp

/-! Reading past `State.fatal`. -/
@[simp] theorem State.tile_fatal (s : State) (r : ErrRec) (j : Nat) : (s.fatal r).tile j = s.tile j := by unfold State.tile; simp
@[simp] theorem State.prov_fatal (s : State) (r : ErrRec) (j : Nat) : (s.fatal r).prov j = s.prov j := by unfold State.prov; simp
@[simp] theorem State.talon_fatal (s : State) (r : ErrRec) (j : Nat) : (s.fatal r).talon j = s.talon j := by unfold State.talon; simp
@[simp] theorem State.bulk_fatal (s : State) (r : ErrRec) (j : Nat) : (s.fatal r).bulk j = s.bulk j := by unfold State.bulk; simp
@[simp] theorem State.hand_fatal (s : State) (r : ErrRec) (j : Nat) : (s.fatal r).hand j = s.hand j := by unfold State.hand; simp
@[simp] theorem State.fn_fatal (s : State) (r : ErrRec) (j : Nat) : (s.fatal r).fn j = s.fn j := by unfold State.fn; simp
@[simp] theorem State.port_fatal (s : State) (r : ErrRec) (j : Nat) : (s.fatal r).port j = s.port j := by unfold State.port; simp
@[simp] theorem State.cage_fatal (s : State) (r : ErrRec) (j : Nat) : (s.fatal r).cage j = s.cage j := by unfold State.cage; simp
@[simp] theorem State.link_fatal (s : State) (r : ErrRec) (j j2 : Nat) : (s.fatal r).link j j2 = s.link j j2 := by unfold State.link; simp

/-! Reading past `State.arrive`. -/
@[simp] theorem State.tile_arrive (s : State) (r : ErrRec) (j : Nat) : (s.arrive r).tile j = s.tile j := by unfold State.tile; simp
@[simp] theorem State.prov_arrive (s : State) (r : ErrRec) (j : Nat) : (s.arrive r).prov j = s.prov j := by unfold State.prov; simp
@[simp] theorem State.talon_arrive (s : State) (r : ErrRec) (j : Nat) : (s.arrive r).talon j = s.talon j := by unfold State.talon; simp
@[simp] theorem State.bulk_arrive (s : State) (r : ErrRec) (j : Nat) : (s.arrive r).bulk j = s.bulk j := by unfold State.bulk; simp
@[simp] theorem State.hand_arrive (s : State) (r : ErrRec) (j : Nat) : (s.arrive r).hand j = s.hand j := by unfold State.hand; simp
@[simp] theorem State.fn_arrive (s : State) (r : ErrRec) (j : Nat) : (s.arrive r).fn j = s.fn j := by unfold State.fn; simp
@[simp] theorem State.port_arrive (s : State) (r : ErrRec) (j : Nat) : (s.arrive r).port j = s.port j := by unfold State.port; simp
@[simp] theorem State.cage_arrive (s : State) (r : ErrRec) (j : Nat) : (s.arrive r).cage j = s.cage j := by unfold State.cage; simp
@[simp] theorem State.link_arrive (s : State) (r : ErrRec) (j j2 : Nat) : (s.arrive r).link j j2 = s.link j j2 := by unfold State.link; simp

/-! Reading past `State.askPause`. -/
@[simp] theorem State.tile_askPause (s : State) (p : Nat) (j : Nat) : (s.askPause p).tile j = s.tile j := by unfold State.tile; simp
@[simp] theorem State.talon_askPause (s : State) (p : Nat) (j : Nat) : (s.askPause p).talon j = s.talon j := by unfold State.talon; simp
@[simp] theorem State.bulk_askPause (s : State) (p : Nat) (j : Nat) : (s.askPause p).bulk j = s.bulk j := by unfold State.bulk; simp
@[simp] theorem State.hand_askPause (s : State) (p : Nat) (j : Nat) : (s.askPause p).hand j = s.hand j := by unfold State.hand; simp
@[simp] theorem State.fn_askPause (s : State) (p : Nat) (j : Nat) : (s.askPause p).fn j = s.fn j := by unfold State.fn; simp
@[simp] theorem State.port_askPause (s : State) (p : Nat) (j : Nat) : (s.askPause p).port j = s.port j := by unfold State.port; simp
@[simp] theorem State.cage_askPause (s : State) (p : Nat) (j : Nat) : (s.askPause p).cage j = s.cage j := by unfold State.cage; simp
@[simp] theorem State.reg_askPause (s : State) (p : Nat) (j : Nat) (rg : Reg) : (s.askPause p).reg j rg = s.reg j rg := by unfold State.reg; simp
@[simp] theorem State.fld_askPause (s : State) (p : Nat) (j : Nat) (g : Fld) : (s.askPause p).fld j g = s.fld j g := by unfold State.fld; simp
@[simp] theorem State.link_askPause (s : State) (p : Nat) (j j2 : Nat) : (s.askPause p).link j j2 = s.link j j2 := by unfold State.link; simp

/-! Reading past `State.raiseSev`. -/
@[simp] theorem State.tile_raiseSev (s : State) (v : Nat) (r : ErrRec) (j : Nat) : (s.raiseSev v r).tile j = s.tile j := by unfold State.tile; simp
@[simp] theorem State.talon_raiseSev (s : State) (v : Nat) (r : ErrRec) (j : Nat) : (s.raiseSev v r).talon j = s.talon j := by unfold State.talon; simp
@[simp] theorem State.bulk_raiseSev (s : State) (v : Nat) (r : ErrRec) (j : Nat) : (s.raiseSev v r).bulk j = s.bulk j := by unfold State.bulk; simp
@[simp] theorem State.hand_raiseSev (s : State) (v : Nat) (r : ErrRec) (j : Nat) : (s.raiseSev v r).hand j = s.hand j := by unfold State.hand; simp
@[simp] theorem State.fn_raiseSev (s : State) (v : Nat) (r : ErrRec) (j : Nat) : (s.raiseSev v r).fn j = s.fn j := by unfold State.fn; simp
@[simp] theorem State.port_raiseSev (s : State) (v : Nat) (r : ErrRec) (j : Nat) : (s.raiseSev v r).port j = s.port j := by unfold State.port; simp
@[simp] theorem State.cage_raiseSev (s : State) (v : Nat) (r : ErrRec) (j : Nat) : (s.raiseSev v r).cage j = s.cage j := by unfold State.cage; simp
@[simp] theorem State.link_raiseSev (s : State) (v : Nat) (r : ErrRec) (j j2 : Nat) : (s.raiseSev v r).link j j2 = s.link j j2 := by unfold State.link; simp

/-! Reading past `State.raise`. -/
@[simp] theorem State.tile_raise (s : State) (r : ErrRec) (j : Nat) : (s.raise r).tile j = s.tile j := by unfold State.tile; simp
@[simp] theorem State.talon_raise (s : State) (r : ErrRec) (j : Nat) : (s.raise r).talon j = s.talon j := by unfold State.talon; simp
@[simp] theorem State.bulk_raise (s : State) (r : ErrRec) (j : Nat) : (s.raise r).bulk j = s.bulk j := by unfold State.bulk; simp
@[simp] theorem State.hand_raise (s : State) (r : ErrRec) (j : Nat) : (s.raise r).hand j = s.hand j := by unfold State.hand; simp
@[simp] theorem State.fn_raise (s : State) (r : ErrRec) (j : Nat) : (s.raise r).fn j = s.fn j := by unfold State.fn; simp
@[simp] theorem State.port_raise (s : State) (r : ErrRec) (j : Nat) : (s.raise r).port j = s.port j := by unfold State.port; simp
@[simp] theorem State.cage_raise (s : State) (r : ErrRec) (j : Nat) : (s.raise r).cage j = s.cage j := by unfold State.cage; simp
@[simp] theorem State.link_raise (s : State) (r : ErrRec) (j j2 : Nat) : (s.raise r).link j j2 = s.link j j2 := by unfold State.link; simp

end Sys2Proof.Machine
end

