-- ==== Sys2Proof/Laws/Memory.lean ====
section
/-! SUPPORT. Laws of HBM: every memory operation keeps the canonical form; a byte that was written is read back, and every other byte is
left alone. -/
namespace Sys2Proof.Machine

/-- Memory after reset lists nothing and is in canonical form. -/
theorem memWf_reset : State.reset.memWf = true := rfl

/-- A state with the same memory as a well-kept one is well kept. -/
theorem memWf_congr {s t : State} (h : t.mem = s.mem) (hs : s.memWf = true) : t.memWf = true := by
  unfold State.memWf at hs ⊢
  rw [h]
  exact hs

/-- A list of byte writes keeps the canonical form. -/
theorem wf_foldl_set (ws : List (Nat × Byte)) (m : List Host.Cell) (h : Sparse.wf (fun _ => (0 : Byte)) m = true) :
    Sparse.wf (fun _ => (0 : Byte)) (ws.foldl (fun m w => Sparse.set 0 m w.1 w.2) m) = true :=
  foldl_keeps (P := fun m => Sparse.wf (fun _ => (0 : Byte)) m = true) _ _ _ h (fun _ _ hm => Sparse.wf_set hm)

theorem memWf_mwrite {s : State} (ws : List (Nat × Byte)) (h : s.memWf = true) : (s.mwrite ws).memWf = true :=
  wf_foldl_set _ _ h

theorem memWf_vwrite {s : State} (p : Nat) (ws : List (Nat × Byte)) (h : s.memWf = true) : (s.vwrite p ws).memWf = true :=
  memWf_mwrite _ h

theorem memWf_vput {s : State} (p va : Nat) (bs : List Byte) (h : s.memWf = true) : (s.vput p va bs).memWf = true :=
  memWf_vwrite _ _ h

theorem memWf_poisonWord {s : State} (w : Nat) (h : s.memWf = true) : (s.poisonWord w).memWf = true := by
  have := Sparse.wf_drop (p := fun k => k / 64 == w) h
  exact this

/-- The last of a list of byte writes to an address decides what it holds. -/
theorem get_foldl_set (ws : List (Nat × Byte)) (m : List Host.Cell) (a : Nat) :
    Sparse.get (0 : Byte) (ws.foldl (fun m w => Sparse.set 0 m w.1 w.2) m) a =
      match ws.reverse.find? (fun w => w.1 == a) with
      | some w => w.2
      | none => Sparse.get 0 m a := by
  induction ws generalizing m with
  | nil => rfl
  | cons w ws ih =>
    rw [List.foldl_cons, ih, List.reverse_cons, List.find?_append]
    cases h : ws.reverse.find? (fun w => w.1 == a) with
    | some x => rfl
    | none =>
      simp only [Option.none_or, List.find?_cons, List.find?_nil]
      by_cases hw : w.1 = a
      · subst hw
        simp
      · have : (w.1 == a) = false := by simpa using hw
        rw [this]
        exact Sparse.get_set_ne (fun h => hw h.symm)

/-- A write to HBM leaves alone every byte that it does not name. -/
theorem mbyte_mwrite_other {s : State} {ws : List (Nat × Byte)} {a : Nat} (h : ∀ w ∈ ws, w.1 ≠ a) : (s.mwrite ws).mbyte a = s.mbyte a := by
  unfold State.mbyte State.mwrite
  simp only
  rw [get_foldl_set, List.find?_eq_none.mpr]
  intro w hw
  have hw := List.mem_of_mem_filter (List.mem_reverse.mp hw)
  simpa using h w hw

/-- A write to HBM while no word is poisoned: the last byte written to an address is read back. -/
theorem mbyte_mwrite {s : State} {ws : List (Nat × Byte)} {a : Nat} (h : s.poison = []) :
    (s.mwrite ws).mbyte a = match ws.reverse.find? (fun w => w.1 == a) with
      | some w => w.2
      | none => s.mbyte a := by
  unfold State.mbyte State.mwrite
  simp only [h, List.filter_nil, List.any_nil, Bool.false_and, Bool.not_false, List.filter_true]
  exact get_foldl_set _ _ _

/-- A poisoned word's bytes read 0, and every byte outside it is left alone. -/
theorem mbyte_poisonWord (s : State) (w a : Nat) : (s.poisonWord w).mbyte a = if a / 64 = w then 0 else s.mbyte a := by
  unfold State.mbyte State.poisonWord
  simp only
  rw [Sparse.get_drop]
  simp

/-! `State.mwrite` and `State.poisonWord` change the memory and the poison alone. -/
section
variable (s : State) (ws : List (Nat × Byte)) (w : Nat)
@[simp] theorem State.mwrite_regs : (s.mwrite ws).regs = s.regs := by unfold State.mwrite; rfl
@[simp] theorem State.mwrite_tiles : (s.mwrite ws).tiles = s.tiles := by unfold State.mwrite; rfl
@[simp] theorem State.mwrite_provs : (s.mwrite ws).provs = s.provs := by unfold State.mwrite; rfl
@[simp] theorem State.mwrite_errs : (s.mwrite ws).errs = s.errs := by unfold State.mwrite; rfl
@[simp] theorem State.mwrite_net : (s.mwrite ws).net = s.net := by unfold State.mwrite; rfl
@[simp] theorem State.mwrite_hands : (s.mwrite ws).hands = s.hands := by unfold State.mwrite; rfl
@[simp] theorem State.poisonWord_regs : (s.poisonWord w).regs = s.regs := rfl
@[simp] theorem State.poisonWord_tiles : (s.poisonWord w).tiles = s.tiles := rfl
@[simp] theorem State.poisonWord_provs : (s.poisonWord w).provs = s.provs := rfl
end

end Sys2Proof.Machine
end

