-- ==== Sys2Proof/Laws/Seats.lean ====
section
/-! SUPPORT. Laws of seats and of the issue of an instruction: what the shared operations of the Control Core write and what they leave alone. -/
namespace Sys2Proof.Machine

/-- Survey counters lie in their own register block: counting an event leaves every other register alone. -/
theorem State.reg_srvAdd (s : State) {u w : Nat} {c h : Fld} {q : Reg} (i n : Nat) (hc : q.key w ≠ c.reg.key u) (hh : q.key w ≠ h.reg.key u) :
    (s.srvAdd u c h i n).reg w q = s.reg w q := by
  unfold State.srvAdd
  dsimp only
  split
  · rw [State.reg_emit]
    unfold State.orFld
    rw [State.reg_setFld_other _ _ hh, State.reg_setFld_other _ _ hc]
  · rw [State.reg_setFld_other _ _ hc]

theorem srvFixed_length (u : Nat) : (srvFixed u).length ≤ 8 := by
  unfold srvFixed
  split_ifs <;> simp

theorem srvProgs_le (u : Nat) : srvProgs u ≤ 8 := by
  unfold srvProgs
  split_ifs <;> omega

/-- Counting an event leaves every register outside the Survey alone. -/
theorem State.reg_count (s : State) (e : SrvEv) {w : Nat} {q : Reg} (he : e.unit < 2 ^ 24) (hw : w < 2 ^ 24) (hq : q.off < 2 ^ 16)
    (hb : q.block ≠ .srv) : (s.count e).reg w q = s.reg w q := by
  have hbc : q.block.code ≠ Block.srv.code := by
    intro h
    apply hb
    revert h
    cases q.block <;> simp [Block.code]
  have key : ∀ o, o < 2 ^ 16 → q.key w ≠ Reg.key e.unit ⟨.srv, o⟩ := fun o ho => key_ne hw he hq ho (.inl hbc)
  have fix : ∀ i, i < 8 → q.key w ≠ (SRV_FIX_COUNT i).reg.key e.unit := fun i hi => key (8 * i) (by omega)
  have cnt : ∀ i, i < 8 → q.key w ≠ (SRV_CNT_COUNT i).reg.key e.unit := fun i hi => key (0x100 + 8 * i) (by omega)
  have halfC : q.key w ≠ SRV_HALF_CNT.reg.key e.unit := by
    unfold SRV_HALF_CNT SRV_HALF
    exact key _ (by norm_num)
  have half : q.key w ≠ SRV_HALF.key e.unit := by
    unfold SRV_HALF
    exact key _ (by norm_num)
  unfold State.count
  dsimp only
  refine foldl_keeps_mem (P := fun x : State => x.reg w q = s.reg w q) _ _ _ ?_ ?_
  · split
    · rename_i i hi
      have : i < 8 := Nat.lt_of_lt_of_le (List.findIdx?_eq_some_iff_findIdx_eq.mp hi).1 (srvFixed_length _)
      exact State.reg_srvAdd _ _ _ (fix i this) half
    · rfl
  · intro b i hi hb
    have : i < 8 := Nat.lt_of_lt_of_le (List.mem_range.mp hi) (srvProgs_le _)
    split
    · exact (State.reg_srvAdd _ _ _ (cnt i this) halfC).trans hb
    · exact hb

/-- A steward interrupt or an answer is no message for another rank: the network stays as it is. -/
theorem State.net_emit {s : State} {e : Emit} (h : e.post = none) : (s.emit e).net = s.net := by
  unfold State.emit
  simp [h]

theorem State.net_srvAdd (s : State) (u : Nat) (c h : Fld) (i n : Nat) : (s.srvAdd u c h i n).net = s.net := by
  unfold State.srvAdd
  dsimp only
  split
  · rw [State.net_emit rfl]
    simp
  · simp

/-- Counting an event leaves the network alone. -/
@[simp] theorem State.net_count (s : State) (e : SrvEv) : (s.count e).net = s.net := by
  unfold State.count
  dsimp only
  refine foldl_keeps (P := fun x : State => x.net = s.net) _ _ _ ?_ ?_
  · split
    · exact State.net_srvAdd ..
    · rfl
  · intro b i hb
    split
    · rw [State.net_srvAdd, hb]
    · exact hb

@[simp] theorem Tile.seat_setSeat_self (t : Tile) (n : Nat) (x : Seat) : (t.setSeat n x).seat n = x := Sparse.get_set_self
theorem Tile.seat_setSeat_ne (t : Tile) {n m : Nat} (x : Seat) (h : m ≠ n) : (t.setSeat n x).seat m = t.seat m := Sparse.get_set_ne h

/-- s0 reads 0; a scalar register that was set reads as the value (R183). -/
@[simp] theorem Seat.reg_zero (x : Seat) : x.reg 0 = 0 := rfl
theorem Seat.reg_setReg_self (x : Seat) (r : Nat) (v : W64) : (x.setReg r v).reg r = if r = 0 then 0 else v := by
  unfold Seat.reg Seat.setReg
  by_cases h : r = 0 <;> simp [h]
theorem Seat.reg_setReg_ne (x : Seat) {r q : Nat} (v : W64) (h : q ≠ r) : (x.setReg r v).reg q = x.reg q := by
  unfold Seat.reg Seat.setReg
  by_cases hq : q = 0
  · simp [hq]
  · by_cases hr : r = 0
    · simp [hr]
    · simp only [hq, hr, if_false]
      exact Sparse.get_set_ne h
@[simp] theorem Seat.pc_setReg (x : Seat) (r : Nat) (v : W64) : (x.setReg r v).pc = x.pc := by
  unfold Seat.setReg
  split <;> rfl

/-- What `State.issue` answers: the seat, its trick and the word at its PC. -/
theorem issue_eq {s : State} {tile seat : Nat} {i : Issue} (h : s.issue tile seat = some i) :
    i.tile = tile ∧ i.seat = seat ∧ i.x = (s.tile tile).seat seat ∧ i.pc = i.x.pc ∧ (s.tile tile).trick = some i.c ∧
    i.insn = (Sparse.get (0 : W64) (s.tile tile).prog i.pc).toNat ∧ i.c.first ≤ i.pc ∧ i.pc ≤ i.c.last ∧ seat < 8 := by
  unfold State.issue at h
  cases ht : (s.tile tile).trick with
  | none => simp [ht] at h
  | some c =>
    simp only [ht] at h
    split at h
    · rename_i hc
      cases h
      exact ⟨rfl, rfl, rfl, rfl, rfl, rfl, hc.2.1, hc.2.2.1, hc.2.2.2⟩
    · cases h

/-! Counting down to the tagged instruction changes the tag alone. -/
section
variable (t : Tile) (a b c d : Nat)
theorem Tile.tagStep_eq : ∃ g, t.tagStep a b c d = { t with tag := g } := by
  unfold Tile.tagStep
  split
  · exact ⟨_, rfl⟩
  · exact ⟨_, rfl⟩
  · exact ⟨t.tag, rfl⟩
end

/-- The seat after its instruction has issued, as `State.issued` makes it. -/
def Issue.after (i : Issue) (pc : Nat) (f : Seat → Seat) : Seat :=
  f { i.x with st := if i.x.steps = 0 then .ready else .halted, steps := i.x.steps - 1, stop := i.x.steps != 0, pc := pc }

/-- What `State.issued` makes of the tile: the seat, the last issuer, the latencies that run and the tag change, nothing else. -/
theorem issued_tile (s : State) (i : Issue) (pc : Nat) (f : Seat → Seat) :
    ∃ g l, (s.issued i pc f).tile i.tile =
      { ({ (s.tile i.tile) with tag := g } : Tile).setSeat i.seat (i.after pc f) with lastSeat := i.seat, lag := l } := by
  obtain ⟨g, hg⟩ := Tile.tagStep_eq (s.tile i.tile) i.c.trick i.pc i.seat i.insn
  refine ⟨g, ({ (s.tile i.tile) with tag := g } : Tile).lagStep i.seat (fixedLatency i.insn (pc != i.pc + 1)), ?_⟩
  unfold State.issued
  simp only [State.tile_count, State.tile_incFld, State.tile_setTile_self, hg]
  rfl

theorem issued_seat (s : State) (i : Issue) (pc : Nat) (f : Seat → Seat) :
    ((s.issued i pc f).tile i.tile).seat i.seat = i.after pc f := by
  obtain ⟨g, l, hg⟩ := issued_tile s i pc f
  rw [hg]
  exact Tile.seat_setSeat_self ..

/-- `State.issued` is an act of its own seat alone. -/
theorem issued_only (s : State) (i : Issue) (pc : Nat) (f : Seat → Seat) (h : i.tile < 4224) : s.SeatOnly (s.issued i pc f) i.tile i.seat := by
  obtain ⟨g, l, hg⟩ := issued_tile s i pc f
  constructor
  all_goals try (unfold State.issued; simp; done)
  · intro k hk
    unfold State.issued
    simp only [State.tile_count, State.tile_incFld]
    exact State.tile_setTile_ne _ _ hk
  all_goals try (rw [hg]; rfl)
  · intro n hn
    rw [hg]
    exact Tile.seat_setSeat_ne _ _ hn
  · intro u r hu hr hb hc
    unfold State.issued
    rw [State.reg_count _ _ (by show srvTile i.tile < _; unfold srvTile; omega) hu hr hb]
    unfold State.incFld
    rw [State.reg_setFld_other, State.reg_setTile]
    refine key_ne hu (by omega) hr (by decide) ?_
    by_contra hne
    push Not at hne
    obtain ⟨h1, h2, h3⟩ := hne
    refine hc ⟨h2, ?_⟩
    obtain ⟨b, o⟩ := r
    have : b = .cc := by
      revert h1
      cases b <;> simp [Block.code, CC_RETIRED_RETIRED, CC_RETIRED]
    simp_all [CC_RETIRED_RETIRED, CC_RETIRED]

/-- An instruction that writes its result: `State.writeRd` (R183, R185). -/
theorem writeRd_writes {s : State} {tile seat : Nat} {i : Issue} (h : s.issue tile seat = some i) (ht : tile < 4224) (v : W64) :
    s.Writes (s.writeRd i v) tile seat (fRD i.insn) v (i.pc + 1) := by
  obtain ⟨h1, h2, h3, -⟩ := issue_eq h
  subst h1 h2
  unfold State.writeRd
  refine ⟨?_, ?_, ?_, issued_only s i _ _ ht⟩
  · unfold State.sreg
    rw [issued_seat]
    exact Seat.reg_setReg_self ..
  · intro r hr
    unfold State.sreg
    rw [issued_seat, ← h3]
    exact (Seat.reg_setReg_ne _ _ hr)
  · unfold State.spc
    rw [issued_seat]
    exact Seat.pc_setReg ..

/-- An instruction that only moves on. -/
theorem issued_moves {s : State} {tile seat : Nat} {i : Issue} (h : s.issue tile seat = some i) (ht : tile < 4224) (pc : Nat) {f : Seat → Seat}
    (hf : ∀ x, (f x).regs = x.regs ∧ (f x).pc = x.pc) : s.Moves (s.issued i pc f) tile seat pc := by
  obtain ⟨h1, h2, h3, -⟩ := issue_eq h
  subst h1 h2
  refine ⟨?_, ?_, issued_only s i _ _ ht⟩
  · intro r
    unfold State.sreg
    rw [issued_seat, ← h3]
    unfold Issue.after Seat.reg
    rw [(hf _).1]
  · unfold State.spc
    rw [issued_seat]
    exact (hf _).2

/-- A command of a seat that is about to issue that opcode is its effect. -/
theorem onIssue_eq {s : State} {tile seat opc : Nat} {i : Issue} (h : s.Issues tile seat opc i) (f : Issue → State) :
    onIssue tile seat opc s f = .next (f i) := by
  obtain ⟨h1, h2, h3, h4⟩ := h
  simp [onIssue, h1, h2, h3, h4]

theorem onIssueFn_eq {s : State} {tile seat opc fn : Nat} {i : Issue} (h : s.IssuesFn tile seat opc fn i) (f : Issue → State) :
    onIssueFn tile seat opc fn s f = .next (f i) := by
  obtain ⟨⟨h1, h2, h3, h4⟩, h5⟩ := h
  simp [onIssueFn, h1, h2, h3, h4, h5]

/-- A seat that issues in a state that differs from `s` by its own tile alone, whose store, registers, banks and seats are those of `s`. -/
theorem issued_queued {s : State} {tile seat : Nat} {i : Issue} (h : s.issue tile seat = some i) (ht : tile < 4224) {x : Tile}
    (h1 : x.sheet = (s.tile tile).sheet) (h2 : x.treg = (s.tile tile).treg) (h3 : x.banks = (s.tile tile).banks) (h4 : x.seats = (s.tile tile).seats)
    (pc : Nat) {f : Seat → Seat} (hf : ∀ y, (∀ r, (f y).reg r = y.reg r) ∧ (f y).pc = y.pc) :
    s.Queued ((s.setTile tile x).issued i pc f) tile seat pc := by
  obtain ⟨e1, e2, e3, -⟩ := issue_eq h
  subst e1 e2
  have o := issued_only (s.setTile i.tile x) i pc f ht
  constructor
  · unfold State.spc
    rw [issued_seat]
    exact (hf _).2
  · intro r
    unfold State.sreg
    rw [issued_seat, ← e3]
    exact (hf _).1 r
  · rw [o.mem]; simp
  · intro k hk
    rw [o.tiles k hk, State.tile_setTile_ne _ _ hk]
  · intro n hn
    rw [o.seats n hn, State.tile_setTile_self]
    unfold Tile.seat
    rw [h4]
  · rw [o.sheet, State.tile_setTile_self, h1]
  · rw [o.treg, State.tile_setTile_self, h2]
  · rw [o.banks, State.tile_setTile_self, h3]

theorem Seat.reg_await (x : Seat) (r q n : Nat) : (x.await r q).reg n = x.reg n := by
  unfold Seat.await
  split <;> rfl
@[simp] theorem Seat.pc_await (x : Seat) (r q : Nat) : (x.await r q).pc = x.pc := by
  unfold Seat.await
  split <;> rfl

/-- An array command that passes its checks joins the queue. -/
theorem arrForm_joins {s : State} {tile seat : Nat} {i : Issue} {q : ArrForm} (h : s.issue tile seat = some i) (ht : tile < 4224)
    (hp : s.ArrPasses i q) : s.JoinsArray (s.arrForm i q) tile seat i (q.regs.map i.reg) := by
  obtain ⟨a, b, c, d⟩ := hp
  obtain ⟨e1, e2, -⟩ := issue_eq h
  subst e1 e2
  unfold State.arrForm State.arrIssue
  dsimp only
  rw [if_neg (by rw [a]; simp; omega), c, d]
  simp only [Bool.false_eq_true, if_false]
  refine ⟨issued_queued h ht ?_ ?_ ?_ ?_ _ ?_, ?_, ?_⟩
  · rfl
  · rfl
  · rfl
  · rfl
  · intro y
    cases q.site <;> exact ⟨fun _ => rfl, rfl⟩
  · rw [(issued_only _ i _ _ ht).vq, State.tile_setTile_self]
  · rw [(issued_only _ i _ _ ht).aq, State.tile_setTile_self]
    refine ⟨_, ?_, ?_, ?_, ?_, rfl⟩ <;> rfl

/-- A vector instruction that is queued joins the queue. -/
theorem vecIssue_joins {s : State} {tile seat : Nat} {i : Issue} (h : s.issue tile seat = some i) (ht : tile < 4224) (ws : List Nat) (site : Bool)
    (busy : Option Nat) : s.JoinsVector (s.vecIssue i ws site busy) tile seat i ws := by
  obtain ⟨e1, e2, -⟩ := issue_eq h
  subst e1 e2
  unfold State.vecIssue
  dsimp only
  refine ⟨issued_queued h ht ?_ ?_ ?_ ?_ _ ?_, ?_, ?_⟩
  · rfl
  · rfl
  · rfl
  · rfl
  · intro y
    cases busy with
    | none => exact ⟨fun _ => rfl, rfl⟩
    | some r => exact ⟨fun _ => Seat.reg_await .., Seat.pc_await ..⟩
  · rw [(issued_only _ i _ _ ht).aq, State.tile_setTile_self]
  · rw [(issued_only _ i _ _ ht).vq, State.tile_setTile_self]
    refine ⟨_, ?_, ?_, ?_, rfl⟩ <;> rfl

/-- A vector instruction that passes its checks is queued. -/
theorem vecForm_eq {s : State} {i : Issue} {q : VecForm} (hp : s.VecPasses i q) : s.vecForm i q = s.vecIssue i q.words q.site none := by
  obtain ⟨a, b, c, d⟩ := hp
  unfold State.vecForm State.vecChecked State.vecOr
  rw [if_neg (by rw [a]; simp; omega), c, d]
  simp

end Sys2Proof.Machine
end

