-- ==== Sys2Proof/Laws/Host.lean ====
section
/-! SUPPORT. Laws of the shared operations of hands, functions and the steward: each lemma says everything that its operation can change. -/
namespace Sys2Proof.Machine

/-- What a projection reads is kept by a fold whose every turn keeps it. -/
theorem foldl_proj {α β γ : Type} (g : β → γ) (f : β → α → β) (l : List α) (b : β) (h : ∀ b a, g (f b a) = g b) : g (l.foldl f b) = g b :=
  foldl_keeps (P := fun x => g x = g b) f l b rfl (fun x a hx => (h x a).trans hx)

/-- Keys of registers of different blocks differ. -/
theorem key_block {u w : Nat} {r q : Reg} (hu : u < 2 ^ 24) (hw : w < 2 ^ 24) (hr : r.off < 2 ^ 16) (hq : q.off < 2 ^ 16)
    (h : r.block.code ≠ q.block.code) : r.key u ≠ q.key w := key_ne hu hw hr hq (.inl h)

/-- A command's state lies in its hand. -/
theorem State.setCmd_frame (s : State) (k seq : Nat) (st : CmdState) : ∃ h, s.setCmd k seq st = { s with hands := h } := ⟨_, rfl⟩
theorem State.freeBytes_frame (s : State) (n : Nat) : ∃ f, (s.freeBytes n).2 = { s with free := f } := ⟨_, rfl⟩
@[simp] theorem State.emit_sent (s : State) (e : Emit) : (s.emit e).sent = e :: s.sent := by
  unfold State.emit
  dsimp only
  split <;> rfl
theorem State.emit_frame (s : State) (e : Emit) : ∃ x n, s.emit e = { s with sent := x, net := n } := by
  unfold State.emit
  dsimp only
  split
  · exact ⟨_, _, rfl⟩
  · exact ⟨_, _, rfl⟩

theorem State.writeCompl_frame (s : State) (k : Nat) (c : HandCmd) (a b d e : Nat) :
    ∃ h f x n, s.writeCompl k c a b d e = { s with hands := h, free := f, sent := x, net := n } := by
  unfold State.writeCompl
  dsimp only
  split
  all_goals
    obtain ⟨x, n, h⟩ := State.emit_frame _ _
    rw [h]
    exact ⟨_, _, _, _, rfl⟩

theorem State.runNops_frame (s : State) (k : Nat) : ∃ h, s.runNops k = { s with hands := h } := by
  unfold State.runNops
  refine foldl_keeps (P := fun x : State => ∃ h, x = { s with hands := h }) _ _ _ ⟨_, rfl⟩ ?_
  rintro b c ⟨h, rfl⟩
  split
  · split
    · exact ⟨_, rfl⟩
    · exact ⟨_, rfl⟩
  · exact ⟨_, rfl⟩

theorem State.writeOver_frame (s : State) (k : Nat) : ∃ h f x n, s.writeOver k = { s with hands := h, free := f, sent := x, net := n } := by
  unfold State.writeOver
  split
  · refine foldl_keeps (P := fun y : State => ∃ h f x n, y = { s with hands := h, free := f, sent := x, net := n }) _ _ _ ⟨_, _, _, _, rfl⟩ ?_
    rintro b c ⟨h, f, x, n, rfl⟩
    split
    · obtain ⟨h', f', x', n', e'⟩ := State.writeCompl_frame ({ s with hands := h, free := f, sent := x, net := n }) k c _ _ _ _
      rw [e']
      exact ⟨_, _, _, _, rfl⟩
    · exact ⟨_, _, _, _, rfl⟩
  · exact ⟨_, _, _, _, rfl⟩

theorem State.closeEmpty_frame (s : State) (k : Nat) :
    ∃ h r, s.closeEmpty k = { s with hands := h, regs := r } ∧ (r = s.regs ∨ r = (s.setFld k HAND_STATUS_STATE H_CLOSED).regs) := by
  unfold State.closeEmpty
  dsimp only
  split
  · exact ⟨_, _, rfl, .inr rfl⟩
  · exact ⟨_, _, rfl, .inl rfl⟩

/-- A hand that goes on leaves everything but hands, what is sent and the free values alone, and registers but the status of the hand that closes. -/
theorem State.advance_frame (s : State) (k : Nat) :
    ∃ h f x n r, s.advance k = { s with hands := h, free := f, sent := x, net := n, regs := r } ∧ (r = s.regs ∨ r = (s.setFld k HAND_STATUS_STATE H_CLOSED).regs) := by
  obtain ⟨h0, e0⟩ := s.runNops_frame k
  obtain ⟨h, f, x, n, e1⟩ := (s.runNops k).writeOver_frame k
  obtain ⟨h2, r, e2, hr⟩ := ((s.runNops k).writeOver k).closeEmpty_frame k
  unfold State.advance
  rw [e2, e1, e0]
  rw [e1, e0] at hr
  exact ⟨_, _, _, _, _, rfl, hr⟩

theorem State.complete_frame (s : State) (k seq a b d : Nat) :
    ∃ h f x n r, s.complete k seq a b d = { s with hands := h, free := f, sent := x, net := n, regs := r } ∧
      (r = s.regs ∨ r = (s.setFld k HAND_STATUS_STATE H_CLOSED).regs) := by
  obtain ⟨h, f, x, n, r, e, hr⟩ := State.advance_frame (s.setCmd k seq (.complete a b d s.frame)) k
  unfold State.complete
  rw [e]
  exact ⟨_, _, _, _, _, rfl, hr⟩

@[simp] theorem State.advance_mem (s : State) (k : Nat) : (s.advance k).mem = s.mem := by obtain ⟨_, _, _, _, _, e, _⟩ := s.advance_frame k; rw [e]
@[simp] theorem State.complete_mem (s : State) (k seq a b d : Nat) : (s.complete k seq a b d).mem = s.mem := by
  obtain ⟨_, _, _, _, _, e, _⟩ := s.complete_frame k seq a b d; rw [e]
@[simp] theorem State.fn_advance (s : State) (k f : Nat) : (s.advance k).fn f = s.fn f := by
  obtain ⟨_, _, _, _, _, e, _⟩ := s.advance_frame k; rw [e]; rfl
@[simp] theorem State.fn_complete (s : State) (k seq a b d f : Nat) : (s.complete k seq a b d).fn f = s.fn f := by
  obtain ⟨_, _, _, _, _, e, _⟩ := s.complete_frame k seq a b d; rw [e]; rfl

/-- A register apart from the status of the hand is left alone. -/
theorem State.reg_advance (s : State) {k w : Nat} {q : Reg} (h : q.key w ≠ HAND_STATUS.key k) : (s.advance k).reg w q = s.reg w q := by
  obtain ⟨_, _, _, _, r, e, hr⟩ := s.advance_frame k
  rw [e]
  rcases hr with rfl | rfl
  · rfl
  · exact State.reg_setFld_other s _ h

/-- Raising an error writes `TST_` registers alone. -/
theorem Block.code_tst {b : Block} (h : b ≠ .tst) : b.code ≠ Block.tst.code := by
  revert h
  cases b <;> simp [Block.code]
theorem key_tst {w : Nat} {q r : Reg} (hw : w < 2 ^ 24) (hq : q.off < 2 ^ 16) (hb : q.block ≠ .tst) (h1 : r.block = .tst) (h2 : r.off < 2 ^ 16) :
    q.key w ≠ r.key 0 := key_block hw (by positivity) hq h2 (by rw [h1]; exact Block.code_tst hb)
theorem State.reg_setFld_tst (s : State) {w : Nat} {q : Reg} {f : Fld} (v : Nat) (hw : w < 2 ^ 24) (hq : q.off < 2 ^ 16) (hb : q.block ≠ .tst) (h : f.reg.block = .tst ∧ f.reg.off < 2 ^ 16) :
  (s.setFld 0 f v).reg w q = s.reg w q := State.reg_setFld_other s v (key_tst hw hq hb h.1 h.2)
theorem State.reg_alertView (s : State) {w : Nat} {q : Reg} (hw : w < 2 ^ 24) (hq : q.off < 2 ^ 16) (hb : q.block ≠ .tst) :
    s.alertView.reg w q = s.reg w q := by
  unfold State.alertView
  rw [State.reg_setFld_tst _ _ hw hq hb (by decide)]
theorem State.reg_alertPulse (s : State) (n : Nat) {w : Nat} {q : Reg} (hw : w < 2 ^ 24) (hq : q.off < 2 ^ 16) (hb : q.block ≠ .tst) :
    (s.alertPulse n).reg w q = s.reg w q := by
  unfold State.alertPulse
  split
  · rw [State.reg_alertView _ hw hq hb]; exact State.reg_congr rfl _ _
  · rfl
theorem State.reg_fatal (s : State) (r : ErrRec) {w : Nat} {q : Reg} (hw : w < 2 ^ 24) (hq : q.off < 2 ^ 16) (hb : q.block ≠ .tst) :
    (s.fatal r).reg w q = s.reg w q := by
  have e : ∀ x : State, (({ x with errs := { x.errs with held := true } }.logErr r).alertView).reg w q = x.reg w q := fun x => by
    rw [State.reg_alertView _ hw hq hb, State.reg_logErr]; exact State.reg_congr rfl _ _
  unfold State.fatal
  refine (e _).trans ?_
  by_cases h : s.fld 0 TST_STATUS_FATAL = 0
  · rw [if_pos h, State.reg_setFld_tst _ _ hw hq hb (by decide), State.reg_setFld_tst _ _ hw hq hb (by decide)]
  · rw [if_neg h]
theorem State.reg_arrive (s : State) (r : ErrRec) {w : Nat} {q : Reg} (hw : w < 2 ^ 24) (hq : q.off < 2 ^ 16) (hb : q.block ≠ .tst) :
    (s.arrive r).reg w q = s.reg w q := by
  unfold State.arrive
  dsimp only
  rw [State.reg_alertPulse _ _ hw hq hb, State.reg_setFld_tst _ _ hw hq hb (by decide)]
  split
  · unfold State.incFld; rw [State.reg_setFld_tst _ _ hw hq hb (by decide)]; exact State.reg_congr rfl _ _
  · exact State.reg_congr rfl _ _
theorem State.reg_raiseSev (s : State) (v : Nat) (r : ErrRec) {w : Nat} {q : Reg} (hw : w < 2 ^ 24) (hq : q.off < 2 ^ 16) (hb : q.block ≠ .tst) :
    (s.raiseSev v r).reg w q = s.reg w q := by
  have e : ∀ (x : State) (r : ErrRec), (if v = 3 then x.fatal r else x.arrive r).reg w q = x.reg w q := fun x r => by
    split
    · exact State.reg_fatal x r hw hq hb
    · exact State.reg_arrive x r hw hq hb
  unfold State.raiseSev
  refine (e _ _).trans ?_
  split
  · rw [State.reg_askPause]; exact State.reg_congr rfl _ _
  · exact State.reg_congr rfl _ _

theorem State.fld_raiseSev (s : State) (v : Nat) (r : ErrRec) {w : Nat} {g : Fld} (hw : w < 2 ^ 24) (h : g.reg.off < 2 ^ 16 ∧ g.reg.block ≠ .tst) :
    (s.raiseSev v r).fld w g = s.fld w g := by
  unfold State.fld
  rw [State.reg_raiseSev s v r hw h.1 h.2]

theorem State.fld_raise (s : State) (r : ErrRec) {w : Nat} {g : Fld} (hw : w < 2 ^ 24) (h : g.reg.off < 2 ^ 16 ∧ g.reg.block ≠ .tst) :
    (s.raise r).fld w g = s.fld w g := s.fld_raiseSev _ r hw h

/-- A function serves a province with a number below 256. -/
theorem State.fnProv_lt (s : State) {f : Nat} (hf : f < 256) : s.fnProv f < 256 := by
  have h1 := s.fld_lt 0 HIF_PF0_GRANT_PROV
  simp only [HIF_PF0_GRANT_PROV] at h1
  unfold State.fnProv
  simp only [HIF_PF0_GRANT_PROV]
  split_ifs <;> omega

/-- A hand's unit number is a small one. -/
theorem State.handOf_lt {s : State} {f h k : Nat} (hf : f < 256) (hk : s.handOf f h = some k) : k < 2 ^ 24 := by
  have h1 := s.fnProv_lt hf
  have h2 := s.fld_lt (s.fnProv f) PROV_HANDS_COUNT
  unfold State.handOf at hk
  dsimp only at hk
  split at hk
  · cases hk
  · rename_i hc
    cases hk
    unfold handKey
    have : PROV_HANDS_COUNT.width = 13 := rfl
    rw [this] at h2
    omega

theorem State.barHand_lt {s : State} {f h k : Nat} (hf : f < 256) (hk : s.barHand f h = some k) : k < 2 ^ 24 := by
  unfold State.barHand at hk
  split at hk
  · exact State.handOf_lt hf hk
  · cases hk

end Sys2Proof.Machine
end

