-- ==== Sys2Proof/Tests/Slice0.lean ====
section
/-! SUPPORT. Tests: an ill-formed command for each check of `Instr.wf`, concrete states and operands that meet the hypotheses of every clause of every statement
(`test_hyp_<statement>`, the clauses in their order), and one-step results that the spec gives. -/
namespace Sys2Proof.Tests
open Sys2Proof Sys2Proof.Machine

set_option Elab.async false

/-- The context of trick 5 of province 1, whose program lies in entries 0–3. -/
def ctx : TrickCtx :=
  { prov := 1, tileIdx := 0, trick := 5, mbatch := 0, prog := 0, first := 0, last := 3, started := 1, pframe := 0, dframe := 0, step := 0, pro := false, rank := 0,
    nranks := 1, ntiles := 16, repoch := 0, pin := false, stolen := false, bwdEnd := false }

/-- An instruction word from its opcode (bits [63:58]) and its fields, each its lowest bit and its value. -/
def word (opc : Nat) (fs : List (Nat × Nat)) : Nat := fs.foldl (fun n f => n + f.2 * 2 ^ f.1) (opc * 2 ^ 58)

/-- A seat about to issue, with scalar registers. -/
def seat (rs : List (Nat × Nat)) : Seat := { st := .ready, regs := rs.map (fun r => (r.1, BitVec.ofNat 64 r.2)) }

/-- Tile 0 with the trick, the word at entry 0 and seat 0 about to issue it. -/
def tile (w : Nat) (rs : List (Nat × Nat)) : Tile := { trick := some ctx, prog := [(0, BitVec.ofNat 64 w)], seats := [(0, seat rs)] }

def onTile (t : Tile) : State := { State.reset with tiles := [(0, t)] }

/-- The state, and what its seat 0 issues. -/
def at0 (w : Nat) (rs : List (Nat × Nat) := []) : State := onTile (tile w rs)
def iss (w : Nat) (rs : List (Nat × Nat) := []) : Issue := { tile := 0, seat := 0, x := seat rs, c := ctx, insn := w, pc := 0 }

/-- Numbers of an Atlas image, each its offset, its size in bytes and its value (R227–R233, R304, R305): sections FRAME_MAP, DEALS, TRICKS, PROGRAMS, PROG_LOADS, CHAINS, GSYNC and COLLECTIVES; one
frame that deals trick 0 and loads program 0; one chain of one ZERO descriptor; ordinal 0 a BARRIER of one arrival, ordinal 1 a BROADCAST of two; one
collective that copies, of one quad. -/
def image : List (Nat × Nat × Nat) :=
  [(16, 8, 4096), (80, 2, 16), (82, 2, 1), (84, 4, 1), (88, 1, 2), (89, 1, 8), (96, 4, 1)] ++
  [(1, 512), (2, 576), (3, 640), (4, 768), (5, 832), (7, 896), (8, 1152), (6, 1408)].zipIdx.flatMap (fun x =>
    [(256 + 16 * x.2, 2, x.1.1), (258 + 16 * x.2, 2, 1), (264 + 16 * x.2, 8, x.1.2)]) ++
  [(520, 4, 1), (528, 2, 1), (648, 1, 1), (656, 3, 0x3000), (768, 8, 1280), (776, 2, 4), (834, 2, 0xFFFF),
   (896, 4, 1), (900, 4, 1), (964, 2, 1), (1024, 1, 1), (1027, 1, 16), (1052, 4, 8), (1152, 4, 0x10001), (1156, 4, 0x20002),
   (1412, 4, 1), (1472, 1, 2), (1474, 1, 16), (1479, 1, 12), (1480, 2, 0x40), (1504, 8, 1)]

/-- Province 1: allocation unit 0 of CD0, channel 0. -/
def prov1 : Prov := { st := .running, units := [(0, 0)], chans := [0], atlasSize := 4096, loaded := true }

/-- The state with other numbers in province 1's Atlas copy. -/
def withImage (fs : List (Nat × Nat × Nat)) (s : State) : State := fs.foldl (fun s f => s.vput 1 (atlasBase + f.1) (leBytes f.2.1 f.2.2)) s

/-- The state with province 1 and its Atlas copy. -/
def withProv (pr : Prov) (s : State) : State := withImage image
  ({ s with memc := { s.memc with slots := [(0, ⟨1, 7, 1, 16⟩)] } }.setProv 1 pr)

/-- Registers of the device set one after the other. -/
def withFlds (fs : List (Nat × Fld × Nat)) (s : State) : State := fs.foldl (fun s f => s.setFld f.1 f.2.1 f.2.2) s

/-- A LEDGER section without records beside them. -/
def withLedger (s : State) : State := withImage [(89, 1, 9), (384, 2, 10), (386, 2, 1), (392, 8, 1728)] s

theorem noSt {q : List VecCmd} (h : q = []) (v : VecCmd) (l : List VecCmd) (e : q = v :: l) : opcOf v.insn ≠ 0x07 := by simp [h] at e

theorem serves_of {s : State} {conn cmd : Nat} {c : TspConn} (h : s.conn conn = some c) (g : s.stw.restarting = false ∧ BOOT_READY ≤ s.boot ∧ s.tspRefuse c cmd = none) : s.Serves conn cmd := ⟨c, h, g⟩

/-- Whether every barrier at which a seat of the tile waits meets a test. -/
def sbars (s : State) (tile : Nat) (f : Nat → Bool) : Bool :=
  (List.range 8).all (fun n => match ((s.tile tile).seat n).wait with | .sbar m => f m | _ => true)

theorem sbars_at {s : State} {tile : Nat} {f : Nat → Bool} (h : sbars s tile f = true) (n : Nat) (hn : n < 8) (m : Nat)
    (e : ((s.tile tile).seat n).wait = .sbar m) : f m = true := by
  have g := List.all_eq_true.mp h n (List.mem_range.mpr hn)
  simpa [e] using g

theorem sbars_eq {s : State} {tile k seat : Nat} (h : sbars s tile (fun m => !bitAt m seat || m == k) = true) (n : Nat) (hn : n < 8) (m : Nat)
    (e : ((s.tile tile).seat n).wait = .sbar m) (b : bitAt m seat = true) : m = k := by
  simpa [b] using sbars_at h n hn m e

theorem sbars_none {s : State} {tile seat : Nat} (h : sbars s tile (fun m => !bitAt m seat) = true) (n : Nat) (hn : n < 8) (m : Nat)
    (e : ((s.tile tile).seat n).wait = .sbar m) : bitAt m seat = false := by
  simpa using sbars_at h n hn m e
/-! ### Ill-formed commands -/

/-- A number out of range for each kind of unit, in the first and in a later operand. -/
theorem test_ill_formed_tile_seat :
    [Instr.mxm 4224 0, .vop 4224 0, .opr 4224 0, .cxfr 4224 0, .tput 4224 0, .arrayCommandStart 4224, .vectorInstructionDone 4224, .ldComplete 4224, .deadlockDetected 4224,
     .programLoad 4224 0, .outboxDrain 4224, .debugDeal 4224 0, .tileMoveDone 4224, .skidSample 4224 none 0, .tagRecordDone 4224 true, .trickComplete 4224 0,
     .mxm 0 8, .vop 0 8, .opr 0 8, .csrRead 0 8, .br 0 8, .swait 0 8, .arrive 0 8, .tend 0 8, .breakpointHit 0 8, .cxfr 0 8, .cchn 0 8, .ttake 0 8, .loadComplete 0 2].all
      (fun i => !i.wf) = true := by decide

theorem test_ill_formed_memory_host :
    [Instr.memoryRead ⟨9663676416, 0⟩ 0 .clean 0, .refresh 384 0, .patrolScrub 384 .clean, .channelScrubDone 384 [], .stackTemperatureRead 12 none, .chainStart 128, .ttakeComplete 512,
     .talonPutAppend 512, .halfReadLatch 256 0, .flr 256, .doorbell 256 0 0, .doorbell 0 4096 0, .selectFn 256, .busMasterEnableWrite 256 true].all (fun i => !i.wf) = true := by decide

theorem test_ill_formed_ports_provinces :
    [Instr.linkUp 64, .transmitEnd 64, .laneSteer 64, .ethLaneModeWrite 4 0, .verdictResult 0, .verdictResult 256, .stepCommitted 0, .ndeyxLinkLost 256 0, .getIdentity 8, .tspIdleTimeout 8,
     .fatal 0 8, .sampleRingMove 8, .railUndervoltage 12, .refclkLost 6].all (fun i => !i.wf) = true := by decide

theorem test_well_formed_boundary :
    [Instr.mxm 4223 7, .loadComplete 4223 1, .memoryRead ⟨9663676415, 0⟩ 0 .clean 0, .refresh 383 0, .stackTemperatureRead 11 none, .chainStart 127, .ttakeComplete 511, .doorbell 255 4095 0,
     .linkUp 63, .laneSteer 63, .ethLaneModeWrite 3 0, .verdictResult 255, .ndeyxLinkLost 255 0, .getIdentity 7, .sampleRingMove 7, .railUndervoltage 11, .refclkLost 5].all
      Instr.wf = true := by decide

/-! ### Worked examples of the spec -/

/-- Spec file 09, the example of R260. -/
theorem test_channel_interleave : ({ chans := [96, 97, 130] } : Prov).dpa 0x12345678 = 0x2406117678 := by decide +kernel

/-- Spec file 09, the example of R268: the slot table of the default split at the default period. -/
theorem test_channel_slot_table : (⟨1, 4, 2, 16⟩ : SlotShare).table =
    ([(37, 15, 8), (37, 15, 7), (37, 15, 7), (37, 14, 7)].flatMap (fun x => List.replicate x.1 1 ++ List.replicate x.2.1 0x101 ++ List.replicate x.2.2 0x201 ++ [0])) ++
      List.replicate 16 0x300 := by decide +kernel

/-- Spec file 16, the example of R475: m = 12, four runs of 24 slots each. -/
theorem test_port_slot_table : slotsFor 9216 400 4000 = 12 ∧ buildPortTable [(3, 96), (5, 96)] 16 12 =
    some ((List.range 4).flatMap (fun _ => List.replicate 24 3 ++ List.replicate 24 5 ++ [0]) ++ List.replicate 44 0 ++ List.replicate 16 0x300) := by decide +kernel

/-- Spec file 02: the guard band at 1.00, 4.00, 4.25 and 64.00 µs. -/
theorem test_guard_slots : [4, 16, 17, 256].map guardSlots = [64, 16, 16, 1] := by decide +kernel

/-- Spec file 04, the example of the signed E3M4 format. -/
theorem test_legend_descriptor : descValid 0x80039638 = true ∧
    (Fmt.ofDesc 0x80039638).map (fun f => (f.decode 0x7E, f.maxCode, f.nanCode, f.emax, f.decode 1, f.decode 0xFF)) =
      some (.fin false 30 0, 0x7E, 0x7F, 4, .fin false 1 (-6), .nan) := by decide +kernel

/-- Spec file 04, the MXFP4 block of R110's example: scale byte 0x7B, six elements, an overflow, and an underflow under RNE only. -/
def mxBlock (rs : List Rnd) : List (Val × Rnd) :=
  [Val.fin false 15 (-5), .fin false 47 (-7), .fin false 19 (-6), .fin true 13 (-6), .fin false 13 (-8), .fin false 1 (-10)].zip rs ++ List.replicate 26 (Val.zero, .rne)
theorem test_mx_block_rne : (Fmt.ofDesc (legendFixed.getD 6 0)).map (fun f => f.mxEncode (mxBlock (List.replicate 6 .rne))) =
    some (0x7B, [7, 7, 6, 0xD, 2, 0] ++ List.replicate 26 0, { ovf := true, unf := true }) := by decide +kernel
theorem test_mx_block_sr : (Fmt.ofDesc (legendFixed.getD 6 0)).map (fun f => f.mxEncode (mxBlock ([0x100, 0xFF00, 0x1000, 0x8000, 0xA410, 0x400].map .sr))) =
    some (0x7B, [7, 6, 7, 0xD, 1, 1] ++ List.replicate 26 0, { ovf := true }) := by decide +kernel

/-- Spec file 05, the cancellation example: 2^24 + 0.25 keeps 2^24 under RNE, rises by 2 under SR for r16 below 8,192, and passes to l when paired. -/
theorem test_group_rounding : let quarter := [Val.fin false 1 (-3), .fin false 1 (-3)]
    (accFp 0x4B800000 quarter .rne).1 = 0x4B800000 ∧ (accFp 0x4B800000 quarter (.sr 8191)).1 = 0x4B800001 ∧ (accFp 0x4B800000 quarter (.sr 8192)).1 = 0x4B800000 ∧
    (accPair 0x4B800000 0 quarter).1 = 0x4B800000 ∧ (accPair 0x4B800000 0 quarter).2.1 = 0x3E800000 := by decide +kernel

/-- Spec file 06, rows 0–2 of the attention example: VSMG FINAL gives +0 with VACANT, 0.5 and 2.0. -/
theorem test_softmax_merge : (mergeRow ninf32 0 [0] ninf32 0 [0] true false).out = [0] ∧ (mergeRow ninf32 0 [0] ninf32 0 [0] true false).vacant = true ∧
    (mergeRow pinf32 one32 [0x3F400000] pinf32 0x40000000 [0x3F400000] true false).out = [0x3F000000] ∧
    (mergeRow ninf32 0 [0] 0 0x40400000 [0x40C00000] true false).out = [0x40000000] := by decide +kernel

/-- What a seat of tile 0 finds in a register after an instruction. -/
def regAfter (op : Nat → Nat → State → Host.Outcome State Fault Refusal) (w : Nat) (rs : List (Nat × Nat)) (rd : Nat) : Option Nat :=
  match op 0 0 (at0 w rs) with
  | .next t => some (t.sreg 0 0 rd).toNat
  | _ => none

/-- Spec file 07, the warm-up example, with the encodings it gives. -/
theorem test_control_core_example :
    regAfter execFop 0x14C500E000000000 [(5, 300)] 6 = some 0x43960000 ∧ regAfter execLi 0x10E000003A800000 [] 7 = some 0x3A800000 ∧
    regAfter execFop 0x1506384000000000 [(6, 0x43960000), (7, 0x3A800000)] 8 = some 0x3E960000 ∧ regAfter execLi 0x112000003F800000 [] 9 = some 0x3F800000 ∧
    regAfter execFop 0x1508486000000000 [(8, 0x3E960000), (9, 0x3F800000)] 8 = some 0x3E960000 := by decide +kernel
theorem test_get_step : (match execGet 0 0 (withFlds [(1, PROV_STEP_STATE_STATE, 0)] (at0 0x24A0000000000002)) with
    | .next t => some (t.spc 0 0) | _ => none) = some 1 := by decide +kernel

/-- Spec file 11, the ledger example: SCALE while cold, and with a full history. -/
theorem test_ledger_scale : ledgerTarget 8 1 2 true [4] = 1 ∧ ledgerTarget 8 1 2 true [3, 4] = 1 ∧ ledgerTarget 8 1 2 false [3, 4, 3, 3] = 3 := by decide

/-- Spec file 15, the underrun example: CUR rises by 256 B, and a run of 65,536 clean frames lowers it. -/
theorem test_start_threshold : let s := withFlds [(34, ETH_TX_START_THRESH_MIN, 256), (34, ETH_TX_START_THRESH_CUR, 768), (34, ETH_TX_START_THRESH_CLEAN, 65535)] State.reset
    (s.cleanFrame 34).fld 34 ETH_TX_START_THRESH_CUR = 512 ∧ (s.cleanFrame 34).fld 34 ETH_TX_START_THRESH_CLEAN = 0 := by decide +kernel

/-- An entry of a ring with its SEQ and nothing else. -/
def entry (seq : Nat) : List Byte := leBytes 4 seq ++ zeros 60

/-- Spec file 17, the doorbell example: entries 300 and 301 are taken, a stale entry waits for a retry. -/
def hand2 (consumed prod : Nat) : State :=
  let k := handKey 7 2
  withFlds [(k, HAND_STATUS_STATE, H_OPEN), (k, HAND_CTRL_LOG2SIZE, 8), (k, HAND_CONSUMED_COUNT, consumed)]
    { (State.reset.setProv 7 prov1) with hands := [(k, { fn := 7, prod := prod })], fns := [(0, { numVfs := 7 }), (7, { bme := true })] }
theorem test_doorbell_example :
    (match execDoorbell 7 2 304 (hand2 300 300) with | .next t => some (t.hand (handKey 7 2)).prod | _ => none) = some 304 ∧
    (match execDescriptorFetchReturn 7 2 [(entry 300, false), (entry 301, false), (entry 46, false), (entry 303, false)] (hand2 300 304) with
      | .next t => some (t.fld (handKey 7 2) HAND_CONSUMED_COUNT, (t.hand (handKey 7 2)).mismatch) | _ => none) = some (302, some 0) ∧
    (match execDescriptorFetchReturn 7 2 [(entry 302, false), (entry 303, false)] (hand2 302 304) with
      | .next t => some (t.fld (handKey 7 2) HAND_CONSUMED_COUNT) | _ => none) = some 304 := by decide +kernel

/-- Spec file 21, the example of R640: junction limit, clock and voltage. -/
theorem test_contour_example : contour [(950, 1500), (1050, 950)] 980 = 1335 ∧ clockFor 1335 = 1325 ∧
    contour [(500, 650), (950, 700), (1200, 760), (1500, 850)] 1325 = 797 ∧ contour [(350, 1600), (400, 1450)] 330 = 1600 := by decide +kernel

/-- Spec file 23, the example of R673: IDCODE, and three ways to PROV_STEP of province 7. -/
theorem test_identity : State.reset.idcode = 0x1254956F ∧ State.reset.readAt ⟨.dev, 0, 0⟩ 4 = 0x254902B7 ∧ State.reset.readAt ⟨.dev, 0, 8⟩ 4 = 1 := by decide +kernel
theorem test_province_step_addresses : let r := some (⟨.prov, 7, 0x1C8⟩ : RegAt)
    ({ (State.reset.setProv 7 prov1) with fns := [(0, { numVfs := 7 })] } : State).barReg 7 0x521C8 = r ∧ State.reset.pf0Reg 0x2071C8 = r ∧ dpaReg 0xF8301071C8 = r := by decide +kernel

/-- FIPS 180-4's own example: SHA-384 of "abc" begins and ends so. -/
theorem test_sha384_abc : (sha384 [0x61, 0x62, 0x63]).take 4 = [0xCB, 0x00, 0x75, 0x3F] ∧ (sha384 [0x61, 0x62, 0x63]).drop 44 = [0x34, 0xC8, 0x25, 0xA7] := by decide +kernel

/-! ### Hypotheses that states meet -/

theorem test_hyp_EmptyQueueServesOrIdles :
    (∃ (s : State), s.pending = [] ∧ s.dueReq = none) ∧
    (∃ (s : State) (t : State) (u : State) (c : Instr) (rest : List (Nat × Instr)), s.pending = [] ∧ s.dueReq = some (c, t, rest) ∧ exec c t = .next u) ∧
    (∃ (s : State) (t : State) (c : Instr) (rest : List (Nat × Instr)), s.pending = [] ∧ s.dueReq = some (c, t, rest)) :=
  ⟨⟨State.reset, by and_intros <;> decide +kernel⟩,
   ⟨{ State.reset with stw := { State.reset.stw with reqs := [(1, .nop 0 0)] } }, { ({ State.reset with stw := { State.reset.stw with reqs := [(1, .nop 0 0)] } } : State) with stw := { ({ State.reset with stw := { State.reset.stw with reqs := [(1, .nop 0 0)] } } : State).stw with reqs := [] } }, { ({ State.reset with stw := { State.reset.stw with reqs := [(1, .nop 0 0)] } } : State) with stw := { ({ State.reset with stw := { State.reset.stw with reqs := [(1, .nop 0 0)] } } : State).stw with reqs := [] } }, (.nop 0 0), [], rfl, rfl, rfl⟩,
   ⟨{ State.reset with stw := { State.reset.stw with reqs := [(1, .nop 0 0)] } }, { ({ State.reset with stw := { State.reset.stw with reqs := [(1, .nop 0 0)] } } : State) with stw := { ({ State.reset with stw := { State.reset.stw with reqs := [(1, .nop 0 0)] } } : State).stw with reqs := [] } }, (.nop 0 0), [], rfl, rfl⟩⟩

theorem test_hyp_EveryStepKeepsMemoryCanonical :
    ∃ (s : State) (t : State), step s = .next t ∧ s.memWf = true :=
  ⟨{ State.reset with mem := [(3, 1), (8, 2)] }, { State.reset with mem := [(3, 1), (8, 2)] }, rfl, by decide +kernel⟩

theorem test_hyp_AbsentUnitsFault :
    (∃ (n : Nat), 4224 ≤ n) ∧
    (∃ (seat : Nat), 8 ≤ seat) ∧
    (∃ (n : Nat), 64 ≤ n) ∧
    (∃ (n : Nat), 256 ≤ n) ∧
    (∃ (n : Nat), 384 ≤ n) ∧
    (∃ (n : Nat), 512 ≤ n) ∧
    (∃ (n : Nat), 128 ≤ n) :=
  ⟨⟨4224, by decide +kernel⟩,
   ⟨8, by decide +kernel⟩,
   ⟨64, by decide +kernel⟩,
   ⟨256, by decide +kernel⟩,
   ⟨384, by decide +kernel⟩,
   ⟨512, by decide +kernel⟩,
   ⟨128, by decide +kernel⟩⟩

theorem test_hyp_ScalarResultsAreWritten :
    (∃ (s : State) (tile : Nat) (seat : Nat) (i : Issue) (v : W64), s.Issues tile seat 0x01 i ∧ i.blocked [fRA i.insn, fRB i.insn] = false ∧ bits i.insn 0 37 = 0 ∧ (scalarUnary (bits i.insn 37 6) = true → fRB i.insn = 0) ∧ scalarFn (bits i.insn 37 6) (i.x.reg (fRA i.insn)) (i.x.reg (fRB i.insn)) = some v) ∧
    (∃ (s : State) (tile : Nat) (seat : Nat) (i : Issue) (v : W64), s.Issues tile seat 0x02 i ∧ i.blocked [fRA i.insn] = false ∧ bits i.insn 32 10 = 0 ∧ (scalarUnary (bits i.insn 42 6) = true → bits i.insn 0 32 = 0) ∧ scalarFn (bits i.insn 42 6) (i.x.reg (fRA i.insn)) (BitVec.ofInt 64 (signed 32 i.insn)) = some v) ∧
    (∃ (s : State) (tile : Nat) (seat : Nat) (i : Issue), s.Issues tile seat 0x03 i ∧ i.blocked [fRD i.insn] = false ∧ bits i.insn 16 37 = 0) ∧
    (∃ (s : State) (tile : Nat) (seat : Nat) (i : Issue), s.Issues tile seat 0x04 i ∧ bits i.insn 48 5 = 0) ∧
    (∃ (s : State) (tile : Nat) (seat : Nat) (i : Issue) (v : W64), s.Issues tile seat 0x05 i ∧ i.blocked ([fRA i.insn, fRB i.insn] ++ if bits i.insn 37 6 = 0x0D then [fRD i.insn] else []) = false ∧ bits i.insn 0 37 = 0 ∧ (fopUnary (bits i.insn 37 6) = true → fRB i.insn = 0) ∧ fopFn (bits i.insn 37 6) (i.x.reg (fRA i.insn)) (i.x.reg (fRB i.insn)) (i.x.reg (fRD i.insn)) = some v) ∧
    (∃ (s : State) (tile : Nat) (seat : Nat) (i : Issue) (n : Nat) (s' : State), s.Issues tile seat 0x09 i ∧ bits i.insn 8 45 = 0 ∧ s.getSel i (bits i.insn 0 8) = some (n, s')) :=
  ⟨⟨(at0 (word 0x01 [(53, 31), (48, 1), (43, 2), (37, 0)]) [(1, 5), (2, 7)]), 0, 0, (iss (word 0x01 [(53, 31), (48, 1), (43, 2), (37, 0)]) [(1, 5), (2, 7)]), 12, by unfold State.Issues; and_intros <;> decide +kernel⟩,
   ⟨(at0 (word 0x02 [(53, 3), (48, 1), (42, 0), (0, 0xFFFFFFFF)]) [(1, 5), (2, 7)]), 0, 0, (iss (word 0x02 [(53, 3), (48, 1), (42, 0), (0, 0xFFFFFFFF)]) [(1, 5), (2, 7)]), 4, by unfold State.Issues; and_intros <;> decide +kernel⟩,
   ⟨(at0 (word 0x03 [(53, 3), (0, 0xFFFF)]) [(3, 9)]), 0, 0, (iss (word 0x03 [(53, 3), (0, 0xFFFF)]) [(3, 9)]), by unfold State.Issues; and_intros <;> decide +kernel⟩,
   ⟨(at0 (word 0x04 [(53, 3), (0, 0x800000000000)]) []), 0, 0, (iss (word 0x04 [(53, 3), (0, 0x800000000000)]) []), by unfold State.Issues; and_intros <;> decide +kernel⟩,
   ⟨(at0 (word 0x05 [(53, 3), (48, 1), (43, 2), (37, 0)]) [(1, 0x3F800000), (2, 0x40000000)]), 0, 0, (iss (word 0x05 [(53, 3), (48, 1), (43, 2), (37, 0)]) [(1, 0x3F800000), (2, 0x40000000)]), 0x40400000, by unfold State.Issues; and_intros <;> decide +kernel⟩,
   ⟨(at0 (word 0x09 [(53, 3), (0, 0)]) []), 0, 0, (iss (word 0x09 [(53, 3), (0, 0)]) []), 5, (at0 (word 0x09 [(53, 3), (0, 0)])), by unfold State.Issues; and_intros <;> decide +kernel⟩⟩

theorem test_hyp_BranchesAndJumpsSetThePc :
    (∃ (s : State) (tile : Nat) (seat : Nat) (pc : Nat) (i : Issue), s.Issues tile seat 0x10 i ∧ i.blocked [bits i.insn 50 5, bits i.insn 45 5] = false ∧ bits i.insn 16 29 = 0 ∧ brCond (bits i.insn 55 3) (i.x.reg (bits i.insn 50 5)) (i.x.reg (bits i.insn 45 5)) = some true ∧ i.target ((i.pc : Int) + signed 16 i.insn) = some pc) ∧
    (∃ (s : State) (tile : Nat) (seat : Nat) (i : Issue), s.Issues tile seat 0x10 i ∧ i.blocked [bits i.insn 50 5, bits i.insn 45 5] = false ∧ bits i.insn 16 29 = 0 ∧ brCond (bits i.insn 55 3) (i.x.reg (bits i.insn 50 5)) (i.x.reg (bits i.insn 45 5)) = some false) ∧
    (∃ (s : State) (tile : Nat) (seat : Nat) (pc : Nat) (i : Issue), s.Issues tile seat 0x11 i ∧ bits i.insn 16 37 = 0 ∧ i.target ((i.pc : Int) + signed 16 i.insn) = some pc) ∧
    (∃ (s : State) (tile : Nat) (seat : Nat) (i : Issue), s.Issues tile seat 0x11 i ∧ bits i.insn 16 37 = 0 ∧ i.target ((i.pc : Int) + signed 16 i.insn) = none) ∧
    (∃ (s : State) (tile : Nat) (seat : Nat) (pc : Nat) (i : Issue), s.Issues tile seat 0x12 i ∧ i.blocked [fRA i.insn] = false ∧ bits i.insn 16 32 = 0 ∧ i.target (((i.reg (fRA i.insn) : Int) + signed 16 i.insn) % 4096) = some pc) :=
  ⟨⟨(at0 (word 0x10 [(55, 0), (50, 1), (45, 1), (0, 3)]) [(1, 5), (2, 7)]), 0, 0, 3, (iss (word 0x10 [(55, 0), (50, 1), (45, 1), (0, 3)]) [(1, 5), (2, 7)]), by unfold State.Issues; and_intros <;> decide +kernel⟩,
   ⟨(at0 (word 0x10 [(55, 0), (50, 1), (45, 2), (0, 3)]) [(1, 5), (2, 7)]), 0, 0, (iss (word 0x10 [(55, 0), (50, 1), (45, 2), (0, 3)]) [(1, 5), (2, 7)]), by unfold State.Issues; and_intros <;> decide +kernel⟩,
   ⟨(at0 (word 0x11 [(53, 1), (0, 3)]) []), 0, 0, 3, (iss (word 0x11 [(53, 1), (0, 3)]) []), by unfold State.Issues; and_intros <;> decide +kernel⟩,
   ⟨(at0 (word 0x11 [(53, 1), (0, 4)]) []), 0, 0, (iss (word 0x11 [(53, 1), (0, 4)]) []), by unfold State.Issues; and_intros <;> decide +kernel⟩,
   ⟨(at0 (word 0x12 [(53, 1), (48, 2), (0, 0xFFFC)]) [(1, 5), (2, 7)]), 0, 0, 3, (iss (word 0x12 [(53, 1), (48, 2), (0, 0xFFFC)]) [(1, 5), (2, 7)]), by unfold State.Issues; and_intros <;> decide +kernel⟩⟩

theorem test_hyp_SeatControlInstructions :
    (∃ (s : State) (tile : Nat) (seat : Nat) (i : Issue), s.IssuesFn tile seat 0x1A 0 i ∧ sysRsv i = false) ∧
    (∃ (s : State) (tile : Nat) (seat : Nat) (i : Issue), s.IssuesFn tile seat 0x1A 3 i ∧ sysRsv i = false ∧ s.fld tile CC_DBG_CTRL_EN ≠ 1) ∧
    (∃ (s : State) (tile : Nat) (seat : Nat) (i : Issue), s.IssuesFn tile seat 0x1A 3 i ∧ sysRsv i = false ∧ s.fld tile CC_DBG_CTRL_EN = 1) ∧
    (∃ (s : State) (tile : Nat) (seat : Nat) (i : Issue), s.IssuesFn tile seat 0x18 0 i ∧ i.blocked [bits i.insn 47 5] = false ∧ bits i.insn 0 47 = 0 ∧ i.reg (bits i.insn 47 5) % 2 ^ 32 ≤ i.x.ctr (bits i.insn 52 2)) ∧
    (∃ (s : State) (tile : Nat) (seat : Nat) (i : Issue), s.IssuesFn tile seat 0x18 0 i ∧ i.blocked [bits i.insn 47 5] = false ∧ bits i.insn 0 47 = 0 ∧ i.x.ctr (bits i.insn 52 2) < i.reg (bits i.insn 47 5) % 2 ^ 32) ∧
    (∃ (s : State) (tile : Nat) (seat : Nat) (i : Issue), (∀ n < 8, ∀ m, ((s.tile tile).seat n).wait = .sbar m → bitAt m seat = true → m = bits i.insn 0 8) ∧ s.IssuesFn tile seat 0x18 1 i ∧ bits i.insn 8 46 = 0 ∧ bitAt (bits i.insn 0 8) seat = true ∧ (∀ n ∈ (maskSeats (bits i.insn 0 8)).filter (fun n => n != seat), ((s.tile tile).seat n).st ≠ .idle ∧ ((s.tile tile).seat n).st ≠ .done) ∧ (∃ n ∈ (maskSeats (bits i.insn 0 8)).filter (fun n => n != seat), ((s.tile tile).seat n).wait ≠ .sbar (bits i.insn 0 8))) ∧
    (∃ (s : State) (tile : Nat) (seat : Nat) (i : Issue), (∀ n < 8, ∀ m, ((s.tile tile).seat n).wait = .sbar m → bitAt m seat = true → m = bits i.insn 0 8) ∧ s.IssuesFn tile seat 0x18 1 i ∧ bits i.insn 8 46 = 0 ∧ bitAt (bits i.insn 0 8) seat = true ∧ (∀ n ∈ (maskSeats (bits i.insn 0 8)).filter (fun n => n != seat), ((s.tile tile).seat n).st = .waitLocal ∧ ((s.tile tile).seat n).wait = .sbar (bits i.insn 0 8))) ∧
    (∃ (s : State) (tile : Nat) (seat : Nat) (i : Issue), (∀ n < 8, ∀ m, ((s.tile tile).seat n).wait = .sbar m → bitAt m seat = false) ∧ s.IssuesFn tile seat 0x1A 1 i ∧ sysRsv i = false) :=
  ⟨⟨(at0 (word 0x1A [(54, 0)]) []), 0, 0, (iss (word 0x1A [(54, 0)]) []), by unfold State.IssuesFn State.Issues; and_intros <;> decide +kernel⟩,
   ⟨(at0 (word 0x1A [(54, 3)]) []), 0, 0, (iss (word 0x1A [(54, 3)]) []), by unfold State.IssuesFn State.Issues; and_intros <;> decide +kernel⟩,
   ⟨(withFlds [(0, CC_DBG_CTRL_EN, 1)] (at0 (word 0x1A [(54, 3)]))), 0, 0, (iss (word 0x1A [(54, 3)])), by unfold State.IssuesFn State.Issues; and_intros <;> decide +kernel⟩,
   ⟨(at0 (word 0x18 [(54, 0), (52, 1), (47, 1)]) [(1, 0x100000000)]), 0, 0, (iss (word 0x18 [(54, 0), (52, 1), (47, 1)]) [(1, 0x100000000)]), by unfold State.IssuesFn State.Issues; and_intros <;> decide +kernel⟩,
   ⟨(at0 (word 0x18 [(54, 0), (52, 1), (47, 1)]) [(1, 1)]), 0, 0, (iss (word 0x18 [(54, 0), (52, 1), (47, 1)]) [(1, 1)]), by unfold State.IssuesFn State.Issues; and_intros <;> decide +kernel⟩,
   ⟨(onTile { (tile (word 0x18 [(54, 1), (0, 3)]) []) with seats := [(0, seat []), (1, seat [])] }), 0, 0, (iss (word 0x18 [(54, 1), (0, 3)])), sbars_eq (by decide +kernel), by unfold State.IssuesFn State.Issues; and_intros <;> decide +kernel⟩,
   ⟨(onTile { (tile (word 0x18 [(54, 1), (0, 3)]) []) with seats := [(0, seat []), (1, { (seat []) with st := .waitLocal, wait := .sbar 3 })] }), 0, 0, (iss (word 0x18 [(54, 1), (0, 3)])), sbars_eq (by decide +kernel), by unfold State.IssuesFn State.Issues; and_intros <;> decide +kernel⟩,
   ⟨(at0 (word 0x1A [(54, 1)]) []), 0, 0, (iss (word 0x1A [(54, 1)]) []), sbars_none (by decide +kernel), by unfold State.IssuesFn State.Issues; and_intros <;> decide +kernel⟩⟩

theorem test_hyp_LoadAndStoreAddressesAreCheckedAtIssue :
    (∃ (s : State) (tile : Nat) (seat : Nat) (a : Nat) (n : Nat) (i : Issue), a = ldAddr (i.reg (fRA i.insn)) i.insn ∧ n = 2 ^ bits i.insn 46 2 ∧ (s.tile tile).vq.length < 8 ∧ s.Issues tile seat 0x06 i ∧ i.blocked [fRA i.insn] = false ∧ bits i.insn 21 24 = 0 ∧ (¬ (bits i.insn 46 2 = 3 ∧ bitAt i.insn 45 = true)) ∧ a % n ≠ 0) ∧
    (∃ (s : State) (tile : Nat) (seat : Nat) (a : Nat) (n : Nat) (i : Issue), a = ldAddr (i.reg (fRA i.insn)) i.insn ∧ n = 2 ^ bits i.insn 46 2 ∧ (s.tile tile).vq.length < 8 ∧ s.Issues tile seat 0x06 i ∧ i.blocked [fRA i.insn] = false ∧ bits i.insn 21 24 = 0 ∧ (¬ (bits i.insn 46 2 = 3 ∧ bitAt i.insn 45 = true)) ∧ a % n = 0 ∧ 0x17FFFF < a + (n - 1)) ∧
    (∃ (s : State) (tile : Nat) (seat : Nat) (a : Nat) (n : Nat) (i : Issue), a = ldAddr (i.reg (fRA i.insn)) i.insn ∧ n = 2 ^ bits i.insn 46 2 ∧ (s.tile tile).vq.length < 8 ∧ s.Issues tile seat 0x07 i ∧ i.blocked [fRA i.insn, fRD i.insn] = false ∧ bits i.insn 21 25 = 0 ∧ a % n ≠ 0) ∧
    (∃ (s : State) (tile : Nat) (seat : Nat) (a : Nat) (n : Nat) (i : Issue), a = ldAddr (i.reg (fRA i.insn)) i.insn ∧ n = 2 ^ bits i.insn 46 2 ∧ (s.tile tile).vq.length < 8 ∧ s.Issues tile seat 0x07 i ∧ i.blocked [fRA i.insn, fRD i.insn] = false ∧ bits i.insn 21 25 = 0 ∧ a % n = 0 ∧ 0x17FFFF < a + (n - 1)) :=
  ⟨⟨(at0 (word 0x06 [(53, 3), (48, 1), (46, 2)]) [(1, 2), (3, 0x11223344)]), 0, 0, _, _, (iss (word 0x06 [(53, 3), (48, 1), (46, 2)]) [(1, 2), (3, 0x11223344)]), rfl, rfl, by unfold State.Issues; and_intros <;> decide +kernel⟩,
   ⟨(at0 (word 0x06 [(53, 3), (48, 1), (46, 2)]) [(1, 0x180000), (3, 0x11223344)]), 0, 0, _, _, (iss (word 0x06 [(53, 3), (48, 1), (46, 2)]) [(1, 0x180000), (3, 0x11223344)]), rfl, rfl, by unfold State.Issues; and_intros <;> decide +kernel⟩,
   ⟨(at0 (word 0x07 [(53, 3), (48, 1), (46, 2)]) [(1, 3), (3, 0x11223344)]), 0, 0, _, _, (iss (word 0x07 [(53, 3), (48, 1), (46, 2)]) [(1, 3), (3, 0x11223344)]), rfl, rfl, by unfold State.Issues; and_intros <;> decide +kernel⟩,
   ⟨(at0 (word 0x07 [(53, 3), (48, 1), (46, 2)]) [(1, 0x180000), (3, 0x11223344)]), 0, 0, _, _, (iss (word 0x07 [(53, 3), (48, 1), (46, 2)]) [(1, 0x180000), (3, 0x11223344)]), rfl, rfl, by unfold State.Issues; and_intros <;> decide +kernel⟩⟩

theorem test_hyp_LoadsAndStoresReachTheSheetStore :
    (∃ (s : State) (tile : Nat) (seat : Nat) (a : Nat) (n : Nat) (i : Issue), a = ldAddr (i.reg (fRA i.insn)) i.insn ∧ n = 2 ^ bits i.insn 46 2 ∧ a % n = 0 ∧ a + n ≤ 0x180000 ∧ (s.tile tile).vq.length < 8 ∧ s.Issues tile seat 0x06 i ∧ i.blocked [fRA i.insn] = false ∧ bits i.insn 21 24 = 0 ∧ (¬ (bits i.insn 46 2 = 3 ∧ bitAt i.insn 45 = true))) ∧
    (∃ (s : State) (tile : Nat) (seat : Nat) (a : Nat) (n : Nat) (i : Issue), a = ldAddr (i.reg (fRA i.insn)) i.insn ∧ n = 2 ^ bits i.insn 46 2 ∧ a % n = 0 ∧ a + n ≤ 0x180000 ∧ (s.tile tile).vq.length < 8 ∧ s.Issues tile seat 0x07 i ∧ i.blocked [fRA i.insn, fRD i.insn] = false ∧ bits i.insn 21 25 = 0 ∧ (s.tile tile).vq = [] ∧ (s.tile tile).arrPending = [] ∧ (s.tile tile).xfers = [] ∧ (s.tile tile).badWords = []) ∧
    (∃ (s : State) (tile : Nat) (a : Nat) (n : Nat) (i : Issue) (v : VecCmd) (rest : List VecCmd), a = ldAddr (i.reg (fRA i.insn)) i.insn ∧ n = 2 ^ bits i.insn 46 2 ∧ a % n = 0 ∧ a + n ≤ 0x180000 ∧ (s.tile tile).vq.length < 8 ∧ tile < 4224 ∧ (s.tile tile).vq = v :: rest ∧ opcOf v.insn = 0x06 ∧ s.overtakes tile (s.provOf tile) v.seq (v.spans s (s.provOf tile)) = false ∧ (s.tile tile).readBad (wordAt v.words 0) (2 ^ bits v.insn 46 2) = false ∧ (∀ w ∈ rest, opcOf w.insn ≠ 0x07) ∧ Sparse.get none ((s.tile tile).seat v.seat).busy (fRD v.insn) = some v.seq ∧ fRD v.insn ≠ 0) :=
  ⟨⟨(at0 (word 0x06 [(53, 3), (48, 1), (46, 2)]) [(1, 0x17FFFC), (3, 0x11223344)]), 0, 0, _, _, (iss (word 0x06 [(53, 3), (48, 1), (46, 2)]) [(1, 0x17FFFC), (3, 0x11223344)]), rfl, rfl, by unfold State.Issues; and_intros <;> decide +kernel⟩,
   ⟨(at0 (word 0x07 [(53, 3), (48, 1), (46, 2)]) [(1, 0x17FFFC), (3, 0x11223344)]), 0, 0, _, _, (iss (word 0x07 [(53, 3), (48, 1), (46, 2)]) [(1, 0x17FFFC), (3, 0x11223344)]), rfl, rfl, by unfold State.Issues; and_intros <;> decide +kernel⟩,
   ⟨(onTile { (tile (word 0x1A [(54, 0)]) []) with seats := [(0, { (seat []) with busy := [(3, some 4)] })], vq := [⟨0, 4, word 0x06 [(53, 3), (48, 1), (46, 2)], [8], 0⟩], sheet := [(8, 1), (11, 0x80)] }), 0, _, _, (iss 0), ⟨0, 4, word 0x06 [(53, 3), (48, 1), (46, 2)], [8], 0⟩, [], rfl, rfl, by and_intros <;> decide +kernel⟩⟩

theorem test_hyp_CsrInstructionsAccessTheTilesRegisters :
    (∃ (s : State) (tile : Nat) (seat : Nat) (old : Nat) (i : Issue) (d : RegDef) (r : RegAt), old = d.show (s.liveWord r) ∧ s.Issues tile seat 0x08 i ∧ i.blocked [fRA i.insn] = false ∧ bits i.insn 16 30 = 0 ∧ csrReg tile (bits i.insn 0 16) = some (d, r) ∧ (s.tile tile).seatBusy seat = false ∧ bits i.insn 46 2 = 0) ∧
    (∃ (s : State) (tile : Nat) (seat : Nat) (old : Nat) (i : Issue) (d : RegDef) (r : RegAt), old = d.show (s.liveWord r) ∧ s.Issues tile seat 0x08 i ∧ i.blocked [fRA i.insn] = false ∧ bits i.insn 16 30 = 0 ∧ csrReg tile (bits i.insn 0 16) = some (d, r) ∧ (s.tile tile).seatBusy seat = false ∧ bits i.insn 46 2 = 1) ∧
    (∃ (s : State) (tile : Nat) (seat : Nat) (old : Nat) (i : Issue) (d : RegDef) (r : RegAt), old = d.show (s.liveWord r) ∧ s.Issues tile seat 0x08 i ∧ i.blocked [fRA i.insn] = false ∧ bits i.insn 16 30 = 0 ∧ csrReg tile (bits i.insn 0 16) = some (d, r) ∧ (s.tile tile).seatBusy seat = false ∧ bits i.insn 46 2 = 2) ∧
    (∃ (s : State) (tile : Nat) (seat : Nat) (old : Nat) (i : Issue) (d : RegDef) (r : RegAt), old = d.show (s.liveWord r) ∧ s.Issues tile seat 0x08 i ∧ i.blocked [fRA i.insn] = false ∧ bits i.insn 16 30 = 0 ∧ csrReg tile (bits i.insn 0 16) = some (d, r) ∧ (s.tile tile).seatBusy seat = false ∧ bits i.insn 46 2 = 3) ∧
    (∃ (s : State) (tile : Nat) (seat : Nat) (old : Nat) (i : Issue) (d : RegDef) (r : RegAt), old = d.show (s.liveWord r) ∧ s.Issues tile seat 0x08 i ∧ i.blocked [fRA i.insn] = false ∧ bits i.insn 16 30 = 0 ∧ csrReg tile (bits i.insn 0 16) = some (d, r) ∧ (s.tile tile).seatBusy seat = false ∧ r.seatWrites = false) :=
  ⟨⟨(at0 (word 0x08 [(53, 3), (48, 1), (46, 0), (0, 0x1000)]) [(1, 0x30)]), 0, 0, _, (iss (word 0x08 [(53, 3), (48, 1), (46, 0), (0, 0x1000)]) [(1, 0x30)]), ((csrReg 0 0x1000).get (by decide +kernel)).1, ((csrReg 0 0x1000).get (by decide +kernel)).2, rfl, by unfold State.Issues; and_intros <;> decide +kernel⟩,
   ⟨(at0 (word 0x08 [(53, 3), (48, 1), (46, 1), (0, 0x1000)]) [(1, 0x30)]), 0, 0, _, (iss (word 0x08 [(53, 3), (48, 1), (46, 1), (0, 0x1000)]) [(1, 0x30)]), ((csrReg 0 0x1000).get (by decide +kernel)).1, ((csrReg 0 0x1000).get (by decide +kernel)).2, rfl, by unfold State.Issues; and_intros <;> decide +kernel⟩,
   ⟨(at0 (word 0x08 [(53, 3), (48, 1), (46, 2), (0, 0x1000)]) [(1, 0x30)]), 0, 0, _, (iss (word 0x08 [(53, 3), (48, 1), (46, 2), (0, 0x1000)]) [(1, 0x30)]), ((csrReg 0 0x1000).get (by decide +kernel)).1, ((csrReg 0 0x1000).get (by decide +kernel)).2, rfl, by unfold State.Issues; and_intros <;> decide +kernel⟩,
   ⟨(at0 (word 0x08 [(53, 3), (48, 1), (46, 3), (0, 0x1000)]) [(1, 0x30)]), 0, 0, _, (iss (word 0x08 [(53, 3), (48, 1), (46, 3), (0, 0x1000)]) [(1, 0x30)]), ((csrReg 0 0x1000).get (by decide +kernel)).1, ((csrReg 0 0x1000).get (by decide +kernel)).2, rfl, by unfold State.Issues; and_intros <;> decide +kernel⟩,
   ⟨(at0 (word 0x08 [(53, 3), (48, 1), (46, 1), (0, 0x4318)]) [(1, 0x30)]), 0, 0, _, (iss (word 0x08 [(53, 3), (48, 1), (46, 1), (0, 0x4318)]) [(1, 0x30)]), ((csrReg 0 0x4318).get (by decide +kernel)).1, ((csrReg 0 0x4318).get (by decide +kernel)).2, rfl, by unfold State.Issues; and_intros <;> decide +kernel⟩⟩

theorem test_hyp_GlobalSynchronisation :
    (∃ (s : State) (tile : Nat) (seat : Nat) (want : Nat) (bcast : Bool) (i : Issue) (g : Gsync), g = (s.prov i.c.prov).gsyncOf i.inst bcast ∧ (s.img i.c.prov).gsync (bits i.insn 0 12) = some (bcast, want) ∧ s.IssuesFn tile seat 0x19 0 i ∧ i.blocked [bits i.insn 44 5] = false ∧ bits i.insn 12 32 = 0 ∧ bits i.insn 49 5 = 0 ∧ (bcast = true ∨ bits i.insn 44 5 = 0) ∧ g.tricks.contains i.c.trick = false ∧ g.tricks.length < want ∧ (bcast = false ∨ g.tricks.length + 1 ≠ want ∨ s.rank i.c.prov ≠ 0)) ∧
    (∃ (s : State) (tile : Nat) (seat : Nat) (want : Nat) (bcast : Bool) (i : Issue) (g : Gsync), g = (s.prov i.c.prov).gsyncOf i.inst bcast ∧ (s.img i.c.prov).gsync (bits i.insn 0 12) = some (bcast, want) ∧ s.IssuesFn tile seat 0x19 0 i ∧ i.blocked [bits i.insn 44 5] = false ∧ bits i.insn 12 32 = 0 ∧ bits i.insn 49 5 = 0 ∧ bcast = true ∧ s.rank i.c.prov = 0 ∧ g.tricks.contains i.c.trick = false ∧ g.tricks.length + 1 = want ∧ i.reg (bits i.insn 44 5) % 64 = 0 ∧ i.reg (bits i.insn 44 5) ≤ 0x17FFC0 ∧ s.overtakes tile i.c.prov (s.tile tile).seq { sr := [⟨i.reg (bits i.insn 44 5), i.reg (bits i.insn 44 5) + 64⟩] } = false ∧ (s.tile tile).readBad (i.reg (bits i.insn 44 5)) 64 = false) ∧
    (∃ (s : State) (tile : Nat) (seat : Nat) (want : Nat) (bcast : Bool) (i : Issue) (g : Gsync), g = (s.prov i.c.prov).gsyncOf i.inst bcast ∧ (s.img i.c.prov).gsync (bits i.insn 0 12) = some (bcast, want) ∧ s.IssuesFn tile seat 0x19 1 i ∧ bits i.insn 12 42 = 0 ∧ g.released = true) ∧
    (∃ (s : State) (tile : Nat) (seat : Nat) (want : Nat) (bcast : Bool) (i : Issue) (g : Gsync), g = (s.prov i.c.prov).gsyncOf i.inst bcast ∧ (s.img i.c.prov).gsync (bits i.insn 0 12) = some (bcast, want) ∧ s.IssuesFn tile seat 0x19 1 i ∧ bits i.insn 12 42 = 0 ∧ g.released = false) ∧
    (∃ (s : State) (tile : Nat) (seat : Nat) (want : Nat) (bcast : Bool) (i : Issue) (g : Gsync), g = (s.prov i.c.prov).gsyncOf i.inst bcast ∧ (s.img i.c.prov).gsync (bits i.insn 0 12) = some (bcast, want) ∧ s.IssuesFn tile seat 0x19 2 i ∧ bits i.insn 12 37 = 0) ∧
    (∃ (s : State) (tile : Nat) (seat : Nat) (want : Nat) (bcast : Bool) (i : Issue) (g : Gsync), g = (s.prov i.c.prov).gsyncOf i.inst bcast ∧ (s.img i.c.prov).gsync (bits i.insn 0 12) = some (bcast, want) ∧ s.IssuesFn tile seat 0x19 3 i ∧ bits i.insn 12 29 = 0 ∧ bits i.insn 44 5 = 0 ∧ bcast = true ∧ g.released = true) :=
  ⟨⟨(withProv prov1 (at0 (word 0x19 [(54, 0)]) [])), 0, 0, 1, false, (iss (word 0x19 [(54, 0)]) []), _, rfl, by unfold State.IssuesFn State.Issues; and_intros <;> decide +kernel⟩,
   ⟨(withProv ({ prov1 with gsync := [{ inst := { pro := false, step := 0, ord := 1 }, bcast := true, tricks := [9] }] }) (at0 (word 0x19 [(54, 0), (44, 1), (0, 1)]) [(1, 0x17FFC0)])), 0, 0, 2, true, (iss (word 0x19 [(54, 0), (44, 1), (0, 1)]) [(1, 0x17FFC0)]), _, rfl, by unfold State.IssuesFn State.Issues; and_intros <;> decide +kernel⟩,
   ⟨(withProv ({ prov1 with gsync := [{ inst := { pro := false, step := 0, ord := 1 }, bcast := true, released := true, payload := [7] }] }) (at0 (word 0x19 [(54, 1), (0, 1)]) [])), 0, 0, 2, true, (iss (word 0x19 [(54, 1), (0, 1)]) []), _, rfl, by unfold State.IssuesFn State.Issues; and_intros <;> decide +kernel⟩,
   ⟨(withProv prov1 (at0 (word 0x19 [(54, 1), (0, 1)]) [])), 0, 0, 2, true, (iss (word 0x19 [(54, 1), (0, 1)]) []), _, rfl, by unfold State.IssuesFn State.Issues; and_intros <;> decide +kernel⟩,
   ⟨(withProv ({ prov1 with gsync := [{ inst := { pro := false, step := 0, ord := 1 }, bcast := true, released := true, payload := [7] }] }) (at0 (word 0x19 [(54, 2), (49, 3), (0, 1)]) [])), 0, 0, 2, true, (iss (word 0x19 [(54, 2), (49, 3), (0, 1)]) []), _, rfl, by unfold State.IssuesFn State.Issues; and_intros <;> decide +kernel⟩,
   ⟨(withProv ({ prov1 with gsync := [{ inst := { pro := false, step := 0, ord := 1 }, bcast := true, released := true, payload := [7] }] }) (at0 (word 0x19 [(54, 3), (49, 3), (0, 1)]) [])), 0, 0, 2, true, (iss (word 0x19 [(54, 3), (49, 3), (0, 1)]) []), _, rfl, by unfold State.IssuesFn State.Issues; and_intros <;> decide +kernel⟩⟩

theorem test_hyp_ExceptionsAreRaised :
    (∃ (s : State) (tile : Nat) (seat : Nat) (i : Issue), s.IssuesFn tile seat 0x1A 2 i ∧ bits i.insn 16 38 = 0) ∧
    (∃ (s : State) (tile : Nat) (seat : Nat) (i : Issue), s.Issues tile seat (opcOf i.insn) i ∧ opReserved i.insn = true) ∧
    (∃ (s : State) (tile : Nat) (seat : Nat) (c : TrickCtx), tile < 4224 ∧ seat < 8 ∧ (s.tile tile).trick = some c ∧ s.mayIssue tile seat ((s.tile tile).seat seat) = true ∧ s.spc tile seat = c.last + 1) ∧
    (∃ (s : State) (tile : Nat) (seat : Nat) (c : TrickCtx), tile < 4224 ∧ seat < 8 ∧ (s.tile tile).trick = some c ∧ (∀ n < seat, ((s.tile tile).seat n).st = .idle ∨ ((s.tile tile).seat n).st = .done) ∧ ((s.tile tile).seat seat).st = .waitLocal ∧ (∀ n < 8, ((s.tile tile).seat n).st = .idle ∨ ((s.tile tile).seat n).st = .done ∨ ((s.tile tile).seat n).st = .waitLocal) ∧ (s.tile tile).aq = [] ∧ (s.tile tile).fly = [] ∧ (s.tile tile).vq = [] ∧ (s.tile tile).tc0 = [] ∧ (s.tile tile).tc1 = [] ∧ (∀ e ∈ s.talons, ∀ w ∈ e.2.waiters, w.tile ≠ tile)) :=
  ⟨⟨(at0 (word 0x1A [(54, 2), (0, 0xFFFF)]) []), 0, 0, (iss (word 0x1A [(54, 2), (0, 0xFFFF)]) []), by unfold State.IssuesFn State.Issues; and_intros <;> decide +kernel⟩,
   ⟨(at0 (word 0x3F []) []), 0, 0, (iss (word 0x3F []) []), by unfold State.Issues; and_intros <;> decide +kernel⟩,
   ⟨(onTile { (tile 0 []) with seats := [(0, { (seat []) with pc := 4 })] }), 0, 0, ctx, by and_intros <;> decide +kernel⟩,
   ⟨(onTile { (tile 0 []) with seats := [(0, { (seat []) with st := .waitLocal, wait := .sbar 3, pc := 1 })] }), 0, 0, ctx, by and_intros <;> decide +kernel⟩⟩

theorem test_hyp_DebugControlHaltsAndSteps :
    (∃ (s : State) (tile : Nat) (seats : Nat) (n : Nat), tile < 4224 ∧ n < 8 ∧ seats < 256 ∧ bitAt seats n = true ∧ s.fld tile CC_DBG_CTRL_EN = 1 ∧ ((s.tile tile).seat n).st = .ready ∧ ((s.tile tile).seat n).steps = 0) ∧
    (∃ (s : State) (tile : Nat) (n : Nat), tile < 4224 ∧ n < 8 ∧ s.fld tile CC_DBG_CTRL_EN = 1 ∧ bitAt (s.fld tile CC_DBG_CTRL_SEATS) n = true ∧ ((s.tile tile).seat n).st = .halted) ∧
    (∃ (s : State) (tile : Nat) (seat : Nat) (n : Nat), tile < 4224 ∧ n < 8 ∧ seat < 8 ∧ (s.tile tile).trick.isSome = true ∧ ((s.tile tile).seat seat).st = .ready ∧ s.fld tile CC_DBG_CTRL_BP_EN = 1 ∧ s.fld tile CC_DBG_CTRL_BP_PC = s.spc tile seat ∧ s.dbgHolds tile seat ((s.tile tile).seat seat) = true) :=
  ⟨⟨(withFlds [(0, STW_STATUS_LC, 1), (0, CC_DBG_CTRL_EN, 1)] (at0 0)), 0, 255, 0, by and_intros <;> decide +kernel⟩,
   ⟨(withFlds [(0, STW_STATUS_LC, 1), (0, CC_DBG_CTRL_EN, 1), (0, CC_DBG_CTRL_SEATS, 255)] (onTile { (tile 0 []) with seats := [(0, { (seat []) with st := .halted })] })), 0, 0, by and_intros <;> decide +kernel⟩,
   ⟨(withFlds [(0, CC_DBG_CTRL_EN, 1), (0, CC_DBG_CTRL_SEATS, 255), (0, CC_DBG_CTRL_BP_EN, 1)] (at0 0)), 0, 0, 0, by and_intros <;> decide +kernel⟩⟩

theorem test_hyp_ArrayCommandsJoinTheQueue :
    (∃ (s : State) (tile : Nat) (seat : Nat) (i : Issue), s.Issues tile seat 0x20 i ∧ s.ArrPasses i (s.mxmForm i)) ∧
    (∃ (s : State) (tile : Nat) (seat : Nat) (i : Issue), s.Issues tile seat 0x21 i ∧ s.ArrPasses i (s.mxdForm i)) ∧
    (∃ (s : State) (tile : Nat) (seat : Nat) (i : Issue), s.Issues tile seat 0x22 i ∧ s.ArrPasses i (s.mxlForm i)) ∧
    (∃ (s : State) (tile : Nat) (seat : Nat) (i : Issue), s.Issues tile seat 0x23 i ∧ s.ArrPasses i (s.mxzForm i)) ∧
    (∃ (s : State) (tile : Nat) (seat : Nat) (c : Nat) (i : Issue), s.Issues tile seat 0x23 i ∧ i.blocked [] = false ∧ (s.tile tile).aq.length < 4 ∧ bits i.insn 0 54 = 0 ∧ firstExc (s.mxzForm i).checks = some c) :=
  ⟨⟨(onTile { (tile (word 0x20 [(56, 0), (48, 16), (43, 16), (38, 1), (33, 2), (28, 0), (16, 1)]) [(1, 0x40000000010), (2, 0x40000000020)]) with banks := [(0, { st := .claimed })] }), 0, 0, (iss (word 0x20 [(56, 0), (48, 16), (43, 16), (38, 1), (33, 2), (28, 0), (16, 1)]) [(1, 0x40000000010), (2, 0x40000000020)]), by unfold State.Issues State.ArrPasses; and_intros <;> decide +kernel⟩,
   ⟨(onTile { (tile (word 0x21 [(56, 0), (48, 16), (43, 1)]) [(1, 0x17FE00)]) with banks := [(0, { st := .claimed })] }), 0, 0, (iss (word 0x21 [(56, 0), (48, 16), (43, 1)]) [(1, 0x17FE00)]), by unfold State.Issues State.ArrPasses; and_intros <;> decide +kernel⟩,
   ⟨(at0 (word 0x22 [(56, 0), (48, 16), (43, 1)]) [(1, 0x17FE00)]), 0, 0, (iss (word 0x22 [(56, 0), (48, 16), (43, 1)]) [(1, 0x17FE00)]), by unfold State.Issues State.ArrPasses; and_intros <;> decide +kernel⟩,
   ⟨(at0 (word 0x23 [(56, 3)]) []), 0, 0, (iss (word 0x23 [(56, 3)]) []), by unfold State.Issues State.ArrPasses; and_intros <;> decide +kernel⟩,
   ⟨(onTile { (tile (word 0x23 [(56, 3)]) []) with banks := [(3, { st := .claimed, owner := 1 })] }), 0, 0, 7, (iss (word 0x23 [(56, 3)])), by unfold State.Issues; and_intros <;> decide +kernel⟩⟩

theorem test_hyp_ArrayEventsMoveCommandsOn :
    (∃ (s : State) (tile : Nat) (a : ArrCmd) (rest : List ArrCmd) (c : TrickCtx), tile < 4224 ∧ (s.tile tile).trick = some c ∧ (s.tile tile).aq = a :: rest ∧ (s.tile tile).fly = [] ∧ a.acted = false ∧ s.arrWaits tile c.prov a = false ∧ (s.tile tile).badWords = [] ∧ opcOf a.insn = 0x20) ∧
    (∃ (s : State) (tile : Nat) (a : ArrCmd) (rest : List ArrCmd) (c : TrickCtx), tile < 4224 ∧ (s.tile tile).trick = some c ∧ (s.tile tile).aq = a :: rest ∧ (s.tile tile).fly = [] ∧ a.acted = false ∧ s.arrWaits tile c.prov a = false ∧ (s.tile tile).badWords = [] ∧ opcOf a.insn = 0x21) ∧
    (∃ (s : State) (tile : Nat) (a : ArrCmd) (rest : List ArrCmd) (c : TrickCtx), tile < 4224 ∧ (s.tile tile).trick = some c ∧ (s.tile tile).aq = a :: rest ∧ (s.tile tile).fly = [] ∧ a.acted = false ∧ s.arrWaits tile c.prov a = false ∧ (s.tile tile).badWords = [] ∧ (opcOf a.insn = 0x22 ∨ opcOf a.insn = 0x23)) ∧
    (∃ (s : State) (tile : Nat) (a : ArrCmd) (c : TrickCtx), tile < 4224 ∧ (s.tile tile).trick = some c ∧ (s.tile tile).fly = [a] ∧ opcOf a.insn ≠ 0x20 ∧ a.acted = false ∧ s.arrWaits tile c.prov a = false) ∧
    (∃ (s : State) (tile : Nat) (a : ArrCmd), tile < 4224 ∧ (s.tile tile).fly = [a] ∧ opcOf a.insn = 0x20) ∧
    (∃ (s : State) (tile : Nat) (a : ArrCmd) (c : TrickCtx), (∀ v l, (s.tile tile).vq = v :: l → opcOf v.insn ≠ 0x07) ∧ tile < 4224 ∧ (s.tile tile).trick = some c ∧ (s.tile tile).fly = [a] ∧ opcOf a.insn = 0x21 ∧ a.acted = true ∧ s.overtakes tile c.prov a.seq (a.spans s c.prov) = false ∧ (∀ b ∈ acBanks a.insn, ((s.tile tile).bank b).st = .draining) ∧ (s.tile tile).badWords = []) ∧
    (∃ (s : State) (tile : Nat) (a : ArrCmd), tile < 4224 ∧ (s.tile tile).fly = [a] ∧ (opcOf a.insn = 0x22 ∨ opcOf a.insn = 0x23) ∧ a.acted = true) :=
  ⟨⟨(onTile { (tile 0 []) with aq := [⟨0, 4, word 0x20 [(56, 0), (48, 16), (43, 16), (38, 1), (33, 2), (28, 0), (16, 1)], [0x40000000010, 0x40000000020], 0, 2048, 1, false, [], []⟩] }), 0, ⟨0, 4, word 0x20 [(56, 0), (48, 16), (43, 16), (38, 1), (33, 2), (28, 0), (16, 1)], [0x40000000010, 0x40000000020], 0, 2048, 1, false, [], []⟩, [], ctx, by and_intros <;> decide +kernel⟩,
   ⟨(onTile { (tile 0 []) with aq := [⟨0, 4, word 0x21 [(56, 0), (48, 16), (43, 1)], [32], 0, 2048, 1, false, [], []⟩] }), 0, ⟨0, 4, word 0x21 [(56, 0), (48, 16), (43, 1)], [32], 0, 2048, 1, false, [], []⟩, [], ctx, by and_intros <;> decide +kernel⟩,
   ⟨(onTile { (tile 0 []) with aq := [⟨0, 4, word 0x23 [(56, 3)], [], 0, 2048, 1, false, [], []⟩] }), 0, ⟨0, 4, word 0x23 [(56, 3)], [], 0, 2048, 1, false, [], []⟩, [], ctx, by and_intros <;> decide +kernel⟩,
   ⟨(onTile { (tile 0 []) with fly := [⟨0, 4, word 0x21 [(56, 0), (48, 16), (43, 1)], [32], 0, 2048, 1, false, [], []⟩], banks := [(0, { st := .claimed })] }), 0, ⟨0, 4, word 0x21 [(56, 0), (48, 16), (43, 1)], [32], 0, 2048, 1, false, [], []⟩, ctx, by and_intros <;> decide +kernel⟩,
   ⟨(onTile { (tile 0 []) with fly := [⟨0, 4, word 0x20 [(56, 0), (48, 16), (43, 16), (38, 1), (33, 2), (28, 0), (16, 1)], [], 0, 2048, 1, true, [], []⟩], banks := [] }), 0, ⟨0, 4, word 0x20 [(56, 0), (48, 16), (43, 16), (38, 1), (33, 2), (28, 0), (16, 1)], [], 0, 2048, 1, true, [], []⟩, by and_intros <;> decide +kernel⟩,
   ⟨(onTile { (tile 0 []) with fly := [⟨0, 4, word 0x21 [(56, 0), (48, 16), (43, 1)], [32], 0, 2048, 1, true, [], []⟩], banks := [(0, { st := .draining })] }), 0, ⟨0, 4, word 0x21 [(56, 0), (48, 16), (43, 1)], [32], 0, 2048, 1, true, [], []⟩, ctx, noSt (by decide +kernel), by and_intros <;> decide +kernel⟩,
   ⟨(onTile { (tile 0 []) with fly := [⟨0, 4, word 0x22 [(56, 0), (48, 16), (43, 1)], [], 0, 2048, 1, true, [], []⟩], banks := [] }), 0, ⟨0, 4, word 0x22 [(56, 0), (48, 16), (43, 1)], [], 0, 2048, 1, true, [], []⟩, by and_intros <;> decide +kernel⟩⟩

theorem test_hyp_VectorInstructionsJoinTheQueue :
    (∃ (s : State) (tile : Nat) (seat : Nat) (i : Issue), s.Issues tile seat 0x28 i ∧ s.VecPasses i (s.vopForm i)) ∧
    (∃ (s : State) (tile : Nat) (seat : Nat) (i : Issue), s.Issues tile seat 0x29 i ∧ s.VecPasses i i.vredForm) ∧
    (∃ (s : State) (tile : Nat) (seat : Nat) (i : Issue), s.Issues tile seat 0x2A i ∧ s.VecPasses i i.vsmxForm) ∧
    (∃ (s : State) (tile : Nat) (seat : Nat) (i : Issue), s.Issues tile seat 0x2B i ∧ s.VecPasses i i.vsmgForm) ∧
    (∃ (s : State) (tile : Nat) (seat : Nat) (i : Issue), s.Issues tile seat 0x2C i ∧ s.VecPasses i (s.vepForm i) ∧ s.vepWaits i = false ∧ s.vepUnreadable i = false) ∧
    (∃ (s : State) (tile : Nat) (seat : Nat) (i : Issue), s.Issues tile seat 0x2D i ∧ s.VecPasses i (s.vqlForm i)) ∧
    (∃ (s : State) (tile : Nat) (seat : Nat) (i : Issue), s.Issues tile seat 0x2E i ∧ s.VecPasses i (s.vqsForm i)) :=
  ⟨⟨(at0 (word 0x28 [(52, 1), (39, 63), (36, 2), (31, 1), (28, 2), (23, 2), (20, 3), (15, 3)]) [(1, 8), (2, 0), (3, 0x3F800000), (8, 64)]), 0, 0, (iss (word 0x28 [(52, 1), (39, 63), (36, 2), (31, 1), (28, 2), (23, 2), (20, 3), (15, 3)]) [(1, 8), (2, 0), (3, 0x3F800000), (8, 64)]), by unfold State.VecPasses State.Issues; and_intros <;> decide +kernel⟩,
   ⟨(at0 (word 0x29 [(52, 0), (39, 0), (36, 2), (31, 1), (28, 2), (23, 2)]) [(1, 8), (2, 0), (3, 0x3F800000), (8, 64)]), 0, 0, (iss (word 0x29 [(52, 0), (39, 0), (36, 2), (31, 1), (28, 2), (23, 2)]) [(1, 8), (2, 0), (3, 0x3F800000), (8, 64)]), by unfold State.VecPasses State.Issues; and_intros <;> decide +kernel⟩,
   ⟨(at0 (word 0x2A [(39, 3), (36, 2), (31, 1), (28, 2), (23, 2)]) [(1, 8), (2, 0), (3, 0x3F800000), (8, 64)]), 0, 0, (iss (word 0x2A [(39, 3), (36, 2), (31, 1), (28, 2), (23, 2)]) [(1, 8), (2, 0), (3, 0x3F800000), (8, 64)]), by unfold State.VecPasses State.Issues; and_intros <;> decide +kernel⟩,
   ⟨(at0 (word 0x2B [(39, 3), (36, 2), (31, 1), (28, 2), (23, 2), (12, 2), (7, 3)]) [(1, 0), (2, 0), (3, 0x1)]), 0, 0, (iss (word 0x2B [(39, 3), (36, 2), (31, 1), (28, 2), (23, 2), (12, 2), (7, 3)]) [(1, 0), (2, 0), (3, 0x1)]), by unfold State.VecPasses State.Issues; and_intros <;> decide +kernel⟩,
   ⟨(onTile { (tile (word 0x2C [(53, 8), (48, 1), (35, 3)]) [(8, 64), (1, 0), (5, 1)]) with sheet := [(64, 0x20), (65, 0x09), (66, 0x80), (97, 0x40)] }), 0, 0, (iss (word 0x2C [(53, 8), (48, 1), (35, 3)]) [(8, 64), (1, 0), (5, 1)]), by unfold State.VecPasses State.Issues; and_intros <;> decide +kernel⟩,
   ⟨(at0 (word 0x2D [(53, 16), (47, 1), (42, 2), (39, 7)]) [(1, 0x40000000000), (2, 0)]), 0, 0, (iss (word 0x2D [(53, 16), (47, 1), (42, 2), (39, 7)]) [(1, 0x40000000000), (2, 0)]), by unfold State.VecPasses State.Issues; and_intros <;> decide +kernel⟩,
   ⟨(at0 (word 0x2E [(53, 16), (47, 1), (42, 2), (39, 7)]) [(1, 0x40000000000), (2, 0)]), 0, 0, (iss (word 0x2E [(53, 16), (47, 1), (42, 2), (39, 7)]) [(1, 0x40000000000), (2, 0)]), by unfold State.VecPasses State.Issues; and_intros <;> decide +kernel⟩⟩

theorem test_hyp_VectorInstructionsAreCarriedOutInOrder :
    (∃ (s : State) (tile : Nat) (c : TrickCtx) (v : VecCmd) (rest : List VecCmd), tile < 4224 ∧ (s.tile tile).trick = some c ∧ (s.tile tile).vq = v :: rest ∧ 0x28 ≤ opcOf v.insn ∧ s.overtakes tile c.prov v.seq (v.spans s c.prov) = true) ∧
    (∃ (s : State) (t : State) (tile : Nat) (c : TrickCtx) (v : VecCmd) (rest : List VecCmd), t = (s.setTile tile { (s.tile tile) with vq := rest }).runVec tile c v ∧ tile < 4224 ∧ (s.tile tile).trick = some c ∧ (s.tile tile).vq = v :: rest ∧ 0x28 ≤ opcOf v.insn ∧ s.overtakes tile c.prov v.seq (v.spans s c.prov) = false ∧ (v.spans s c.prov).sr.any (fun r => (s.tile tile).readBad r.lo (r.hi - r.lo)) = false ∧ (t.tile tile).trick ≠ none) :=
  ⟨⟨(onTile { (tile 0 []) with vq := [⟨0, 4, word 0x2D [(53, 16), (47, 1), (42, 2), (39, 7)], [0x40000000000, 0], 0⟩], aq := [⟨0, 3, word 0x21 [(56, 0), (48, 16), (43, 1)], [0x0], 0, 2048, 1, false, [], []⟩] }), 0, ctx, ⟨0, 4, word 0x2D [(53, 16), (47, 1), (42, 2), (39, 7)], [0x40000000000, 0], 0⟩, [], by and_intros <;> decide +kernel⟩,
   ⟨(onTile { (tile 0 []) with vq := [⟨0, 4, word 0x28 [(52, 1), (39, 63), (36, 2), (31, 1), (28, 2), (23, 2), (20, 3), (15, 3)], [0x8, 0, 0x3F800000, 0], 0⟩] }), _, 0, ctx, ⟨0, 4, word 0x28 [(52, 1), (39, 63), (36, 2), (31, 1), (28, 2), (23, 2), (20, 3), (15, 3)], [0x8, 0, 0x3F800000, 0], 0⟩, [], rfl, by and_intros <;> decide +kernel⟩⟩

theorem test_hyp_CourierTransfers :
    (∃ (s : State) (tile : Nat) (seat : Nat) (i : Issue) (ws : List Nat), ws = (List.range 5).map (fun k => i.reg (bits i.insn 51 5 + k)) ∧ tile < 4224 ∧ s.Issues tile seat 0x30 i ∧ ((s.tile tile).cq (bits i.insn 57 1)).length < 8 ∧ i.blocked ((List.range 5).map (fun k => bits i.insn 51 5 + k)) = false ∧ 1 ≤ bits i.insn 51 5 ∧ bits i.insn 51 5 ≤ 27 ∧ bits i.insn 0 29 = 0 ∧ bits i.insn 38 2 ≠ 3 ∧ bits (wordAt ws 0) 48 16 = 0 ∧ bits (wordAt ws 1) 33 31 = 0 ∧ bits (wordAt ws 2) 56 8 = 0 ∧ firstExc (s.cxChecks i (Cx.of i.insn ws)) = none) ∧
    (∃ (s : State) (tile : Nat) (cour : Nat) (x : Xfer) (rest : List Xfer) (foot : List (Nat × Nat)), foot = (Cx.of x.insn x.words).foot (sideNib s x.ctx.prov (Cx.of x.insn x.words).fm) (sideBs s x.ctx.prov (Cx.of x.insn x.words).fm) ∧ (∀ v l, (s.tile tile).vq = v :: l → opcOf v.insn ≠ 0x07) ∧ tile < 4224 ∧ (s.tile tile).cq cour = x :: rest ∧ (Cx.of x.insn x.words).store = false ∧ s.overtakes tile x.ctx.prov x.seq { sw := x.sheet s x.ctx.prov } = false ∧ (∀ f ∈ foot, s.vpoison x.ctx.prov f.1 f.2 = false) ∧ s.readHeld x.ctx.prov x.frame foot = false ∧ s.hbmOpen x.ctx.prov 0 foot = true ∧ (s.tile tile).badWords = []) ∧
    (∃ (s : State) (tile : Nat) (cour : Nat) (x : Xfer) (rest : List Xfer), (∀ v l, (s.tile tile).vq = v :: l → opcOf v.insn ≠ 0x07) ∧ tile < 4224 ∧ (s.tile tile).cq cour = x :: rest ∧ (Cx.of x.insn x.words).store = true ∧ s.overtakes tile x.ctx.prov x.seq { sr := x.sheet s x.ctx.prov } = false ∧ s.outTaken tile x.ctx.prov x + (Cx.of x.insn x.words).outSize s x.ctx.prov ≤ 65536 ∧ (x.sheet s x.ctx.prov).any (fun r => (s.tile tile).readBad r.lo (r.hi - r.lo)) = false) ∧
    (∃ (s : State) (tile : Nat) (o : OutEntry), tile < 4224 ∧ s.nextDrain tile = some o) :=
  ⟨⟨(withProv prov1 (at0 (word 0x30 [(51, 1), (46, 16), (41, 16)]) [(1, 0x5FBFFE00), (2, 0x17FE00)])), 0, 0, (iss (word 0x30 [(51, 1), (46, 16), (41, 16)]) [(1, 0x5FBFFE00), (2, 0x17FE00)]), _, rfl, by unfold State.Issues; and_intros <;> decide +kernel⟩,
   ⟨(withProv prov1 (onTile { (tile 0 []) with tc0 := [⟨0, 4, word 0x30 [(51, 1), (46, 16), (41, 16)], [0, 0, 0, 0, 0], 0, ctx, 0, none⟩] })), 0, 0, ⟨0, 4, word 0x30 [(51, 1), (46, 16), (41, 16)], [0, 0, 0, 0, 0], 0, ctx, 0, none⟩, [], _, rfl, noSt (by decide +kernel), by and_intros <;> decide +kernel⟩,
   ⟨(withProv prov1 (onTile { (tile 0 []) with tc1 := [⟨0, 4, word 0x30 [(57, 1), (56, 1), (51, 1), (46, 16), (41, 16)], [0, 0, 0, 0, 0], 0, ctx, 0, none⟩], sheet := [(0, 0x80), (1, 0x3F)] })), 0, 1, ⟨0, 4, word 0x30 [(57, 1), (56, 1), (51, 1), (46, 16), (41, 16)], [0, 0, 0, 0, 0], 0, ctx, 0, none⟩, [], noSt (by decide +kernel), by and_intros <;> decide +kernel⟩,
   ⟨(withProv prov1 (onTile { (tile 0 []) with outbox := [⟨3, false, 4, [(0, 7)], 0, 1, 0⟩] })), 0, ⟨3, false, 4, [(0, 7)], 0, 1, 0⟩, by and_intros <;> decide +kernel⟩⟩

theorem test_hyp_ChainsRunDescriptorByDescriptor :
    (∃ (s : State) (tile : Nat) (seat : Nat) (bulk : Nat) (i : Issue), bulk < 128 ∧ s.Issues tile seat 0x31 i ∧ i.blocked [bits i.insn 53 5] = false ∧ bits i.insn 0 53 = 0 ∧ ((s.img i.c.prov).sect 7).isSome = true ∧ i.reg (bits i.insn 53 5) % 65536 < (s.img i.c.prov).nchain ∧ (s.bulkOf i.c.prov ((s.img i.c.prov).chainEnt (i.reg (bits i.insn 53 5) % 65536)).bc).isSome = true) ∧
    (∃ (s : State) (bulk : Nat) (j : ChainJob) (rest : List ChainJob) (p : Nat) (d : ChainDesc), p = j.ctx.prov ∧ d = (s.jobDesc j).1 ∧ bulk < 128 ∧ (s.bulk bulk).queue = j :: rest ∧ (s.bulk bulk).st ≠ .running ∧ (s.tile j.tile).unmade j.afterSeq = false ∧ s.fld 0 TST_STATUS_FATAL = 0 ∧ (∀ f ∈ (s.img p).chainSpans j.req.chain, s.vpoison p f.1 f.2 = false) ∧ s.descBad p d (s.jobDesc j).2.1 (s.jobDesc j).2.2 = false ∧ (s.usesHost p d (s.jobDesc j).2.1 = false ∨ s.hostUp p = true)) ∧
    (∃ (s : State) (bulk : Nat) (j : ChainJob) (rest : List ChainJob) (p : Nat) (d : ChainDesc), p = j.ctx.prov ∧ d = (s.jobDesc j).1 ∧ bulk < 128 ∧ (s.bulk bulk).queue = j :: rest ∧ (s.bulk bulk).st ≠ .running ∧ (s.tile j.tile).unmade j.afterSeq = false ∧ s.fld 0 TST_STATUS_FATAL = 0 ∧ (∀ f ∈ (s.img p).chainSpans j.req.chain, s.vpoison p f.1 f.2 = false) ∧ s.descBad p d (s.jobDesc j).2.1 (s.jobDesc j).2.2 = false ∧ s.usesHost p d (s.jobDesc j).2.1 = true ∧ s.hostUp p = false) ∧
    (∃ (s : State) (bulk : Nat) (j : ChainJob) (rest : List ChainJob) (p : Nat) (d : ChainDesc) (foot : List (Nat × Nat)) (dest : List (Nat × Nat)), p = j.ctx.prov ∧ d = (s.jobDesc j).1 ∧ foot = (sideFoot (d.srcSide s p (s.jobDesc j).2.1.isSome) d.qr (sideNib s p d.fs) (sideBs s p d.fs)).filter (fun f => decide (f.1 < hostBase)) ∧ dest = (sideFoot (d.dstSide s p) d.dqr (sideNib s p d.fd) (sideBs s p d.fd)).filter (fun f => decide (f.1 < hostBase)) ∧ bulk < 128 ∧ (s.bulk bulk).queue = j :: rest ∧ (s.bulk bulk).st = .running ∧ j.desc < ((s.img p).chainEnt j.req.chain).count ∧ j.hostWrote = false ∧ (s.usesHost p d (s.jobDesc j).2.1 = false ∨ s.hostUp p = true) ∧ (d.op = 0 → (s.jobDesc j).2.1 = none → s.readHeld p j.frame foot = false ∧ s.hbmOpen p 0 foot = true ∧ ∀ f ∈ foot, s.vpoison p f.1 f.2 = false) ∧ d.link = false ∧ (s.jobDesc j).2.2 = true ∧ s.hbmOpen p 1 dest = true) ∧
    (∃ (s : State) (bulk : Nat) (j : ChainJob) (rest : List ChainJob) (p : Nat) (d : ChainDesc) (foot : List (Nat × Nat)) (dest : List (Nat × Nat)), p = j.ctx.prov ∧ d = (s.jobDesc j).1 ∧ foot = (sideFoot (d.srcSide s p (s.jobDesc j).2.1.isSome) d.qr (sideNib s p d.fs) (sideBs s p d.fs)).filter (fun f => decide (f.1 < hostBase)) ∧ dest = (sideFoot (d.dstSide s p) d.dqr (sideNib s p d.fd) (sideBs s p d.fd)).filter (fun f => decide (f.1 < hostBase)) ∧ bulk < 128 ∧ (s.bulk bulk).queue = j :: rest ∧ (s.bulk bulk).st = .running ∧ j.desc < ((s.img p).chainEnt j.req.chain).count ∧ j.hostWrote = false ∧ (s.usesHost p d (s.jobDesc j).2.1 = false ∨ s.hostUp p = true) ∧ (d.op = 0 → (s.jobDesc j).2.1 = none → s.readHeld p j.frame foot = false ∧ s.hbmOpen p 0 foot = true ∧ ∀ f ∈ foot, s.vpoison p f.1 f.2 = false) ∧ d.link = true ∧ (s.jobDesc j).2.2 = false ∧ s.descBad p (s.jobDesc { j with desc := j.desc + 1 }).1 (s.jobDesc { j with desc := j.desc + 1 }).2.1 (s.jobDesc { j with desc := j.desc + 1 }).2.2 = false ∧ (s.usesHost p (s.jobDesc { j with desc := j.desc + 1 }).1 (s.jobDesc { j with desc := j.desc + 1 }).2.1 = false ∨ s.hostUp p = true)) ∧
    (∃ (s : State) (bulk : Nat) (j : ChainJob) (rest : List ChainJob) (p : Nat) (d : ChainDesc), p = j.ctx.prov ∧ d = (s.jobDesc j).1 ∧ bulk < 128 ∧ (s.bulk bulk).queue = j :: rest ∧ (s.bulk bulk).st = .running ∧ ((s.img p).chainEnt j.req.chain).count ≤ j.desc ∧ j.hostWrote = false ∧ (∀ e ∈ s.tiles, e.2.waitChains = []) ∧ ((s.img p).chainEnt j.req.chain).put = false) ∧
    (∃ (s : State) (bulk : Nat) (n : Nat) (j : ChainJob) (rest : List ChainJob) (p : Nat) (d : ChainDesc), p = j.ctx.prov ∧ d = (s.jobDesc j).1 ∧ bulk < 128 ∧ (s.bulk bulk).queue = j :: rest ∧ (s.bulk bulk).st = .running ∧ ((s.img p).chainEnt j.req.chain).count ≤ j.desc ∧ j.hostWrote = false ∧ (∀ e ∈ s.tiles, e.2.waitChains = []) ∧ ((s.img p).chainEnt j.req.chain).put = true ∧ s.talonOf p ((s.img p).chainEnt j.req.chain).talon = some n ∧ (s.talon n).handles.length < 1024 ∧ (s.talon n).putWait = []) :=
  ⟨⟨(withFlds [(0, CRR_BC_CTRL_PROV 0, 1), (0, CRR_BC_CTRL_EN 0, 1)] (withProv prov1 (at0 (word 0x31 [(53, 1)]) [(1, 0x700000000)]))), 0, 0, 0, (iss (word 0x31 [(53, 1)]) [(1, 0x700000000)]), by unfold State.Issues; and_intros <;> decide +kernel⟩,
   ⟨(withProv prov1 { State.reset with bulks := [(127, { st := .idle, queue := [{ req := ⟨0, 0, 0⟩, ctx := ctx, tile := 0, afterSeq := 0 }] })] }), 127, { req := ⟨0, 0, 0⟩, ctx := ctx, tile := 0, afterSeq := 0 }, [], _, _, rfl, rfl, by and_intros <;> decide +kernel⟩,
   ⟨(withFlds [] ({ (withImage [(1040, 8, hostBase)] (withProv prov1 State.reset)) with bulks := [(127, { st := .idle, queue := [{ req := ⟨0, 0, 0⟩, ctx := ctx, tile := 0, afterSeq := 0 }] })] })), 127, { req := ⟨0, 0, 0⟩, ctx := ctx, tile := 0, afterSeq := 0 }, [], _, _, rfl, rfl, by and_intros <;> decide +kernel⟩,
   ⟨(withProv prov1 { State.reset with bulks := [(127, { st := .running, queue := [{ req := ⟨0, 0, 0⟩, ctx := ctx, tile := 0, afterSeq := 0 }] })] }), 127, { req := ⟨0, 0, 0⟩, ctx := ctx, tile := 0, afterSeq := 0 }, [], _, _, _, _, rfl, rfl, rfl, rfl, by and_intros <;> decide +kernel⟩,
   ⟨(withFlds [] ({ (withImage [(964, 2, 2), (1025, 1, 1), (1088, 2, 0), (1090, 2, 0x1010), (1092, 8, 0), (1104, 8, 64)] (withProv prov1 State.reset)) with bulks := [(127, { st := .running, queue := [{ req := ⟨0, 0, 0⟩, ctx := ctx, tile := 0, afterSeq := 0 }] })] })), 127, { req := ⟨0, 0, 0⟩, ctx := ctx, tile := 0, afterSeq := 0 }, [], _, _, _, _, rfl, rfl, rfl, rfl, by and_intros <;> decide +kernel⟩,
   ⟨(withProv prov1 { State.reset with bulks := [(127, { st := .running, queue := [{ req := ⟨0, 0, 0⟩, ctx := ctx, tile := 0, afterSeq := 0, desc := 1 }] })] }), 127, { req := ⟨0, 0, 0⟩, ctx := ctx, tile := 0, afterSeq := 0, desc := 1 }, [], _, _, rfl, rfl, by and_intros <;> decide +kernel⟩,
   ⟨(withFlds [(7, TAL_CFG_PROV 63, 1), (7, TAL_CFG_EN 63, 1)] ({ (withImage [(967, 1, 1)] (withProv prov1 State.reset)) with bulks := [(127, { st := .running, queue := [{ req := ⟨0, 0, 0⟩, ctx := ctx, tile := 0, afterSeq := 0, desc := 1 }] })] })), 127, 511, { req := ⟨0, 0, 0⟩, ctx := ctx, tile := 0, afterSeq := 0, desc := 1 }, [], _, _, rfl, rfl, by and_intros <;> decide +kernel⟩⟩

theorem test_hyp_TalonsAreFirstInFirstOut :
    (∃ (s : State) (tile : Nat) (seat : Nat) (i : Issue), s.Issues tile seat 0x34 i ∧ i.blocked [bits i.insn 50 5] = false ∧ bits i.insn 0 50 = 0 ∧ (s.talonOf i.c.prov (bits i.insn 55 3)).isSome = true ∧ (s.tile tile).puts.length < 16) ∧
    (∃ (s : State) (tile : Nat) (seat : Nat) (n : Nat) (i : Issue) (w : TakeWait), s.Issues tile seat 0x35 i ∧ bits i.insn 0 50 = 0 ∧ s.talonOf i.c.prov (bits i.insn 55 3) = some n ∧ (s.tile tile).taken.length + s.talons.foldl (fun n e => n + (e.2.waiters.filter (fun w => w.tile == tile)).length) 0 < 64) ∧
    (∃ (s : State) (talon : Nat) (h : Nat) (w : TakeWait) (ws : List TakeWait) (hs : List Nat), talon < 512 ∧ (s.talon talon).waiters = w :: ws ∧ (s.talon talon).handles = h :: hs ∧ Sparse.get none ((s.tile w.tile).seat w.seat).busy w.rd = some w.seq ∧ w.rd ≠ 0) ∧
    (∃ (s : State) (talon : Nat) (h : Nat) (hs : List Nat), talon < 512 ∧ (s.talon talon).putWait = h :: hs ∧ (s.talon talon).handles.length < 1024) :=
  ⟨⟨(withFlds [(0, TAL_CFG_PROV 63, 1), (0, TAL_CFG_EN 63, 1)] (at0 (word 0x34 [(50, 1)]) [(1, 0x1FFFFFFFF)])), 0, 0, (iss (word 0x34 [(50, 1)]) [(1, 0x1FFFFFFFF)]), by unfold State.Issues; and_intros <;> decide +kernel⟩,
   ⟨(withFlds [(0, TAL_CFG_PROV 63, 1), (0, TAL_CFG_EN 63, 1)] (at0 (word 0x35 [(50, 31)]))), 0, 0, 63, (iss (word 0x35 [(50, 31)])), ⟨0, 0, 31, 4⟩, by unfold State.Issues; and_intros <;> decide +kernel⟩,
   ⟨{ (onTile { (tile 0 []) with seats := [(0, { (seat []) with busy := [(31, some 4)] })] }) with talons := [(511, { waiters := [⟨0, 0, 31, 4⟩], handles := [9] })] }, 511, 9, ⟨0, 0, 31, 4⟩, [], [], by and_intros <;> decide +kernel⟩,
   ⟨{ State.reset with talons := [(511, { handles := List.replicate 1023 1, putWait := [9] })] }, 511, 9, [], by and_intros <;> decide +kernel⟩⟩

theorem test_hyp_DealersDealCompleteAndRecall :
    (∃ (s : State) (tile : Nat) (c : TrickCtx), tile < 4224 ∧ (s.tile tile).trick = some c ∧ (s.tile tile).finished c = true ∧ s.tentative c = false) ∧
    (∃ (tile : Nat), tile < 4224) ∧
    (∃ (s : State) (tile : Nat) (p : Nat) (idx : Nat), tile < 4224 ∧ s.ownerOfTile tile = p ∧ s.idxOf p tile = some idx ∧ (s.prov p).loaded = true ∧ (s.prov p).st = .sealed_ ∧ (s.prov p).cur = none ∧ (s.tile tile).trick = none ∧ (s.tile tile).loadedFor = 0 ∧ s.loadsFor p idx 0 ≠ [] ∧ s.hbmOpen p 0 ((s.loadsFor p idx 0).map (fun i => (atlasBase + ((s.img p).prog i).off, 8 * ((s.img p).prog i).n))) = true ∧ (∀ i ∈ s.loadsFor p idx 0, s.vpoison p (atlasBase + ((s.img p).prog i).off) (8 * ((s.img p).prog i).n) = false)) ∧
    (∃ (s : State) (tile : Nat) (p : Nat) (die : Nat), tile < 4224 ∧ die < 8 ∧ (s.prov p).loaded = true ∧ s.hbmOpen p 0 ((s.img p).fetchSpans (s.prov p).k) = true ∧ ((s.img p).fetchSpans (s.prov p).k).any (fun x => (s.prov p).region x.1 == .atlas && s.vpoison p x.1 x.2) = true) ∧
    (∃ (s : State) (tile : Nat) (p : Nat) (die : Nat), tile < 4224 ∧ die < 8 ∧ (s.prov p).loaded = true ∧ s.hbmOpen p 0 ((s.img p).fetchSpans (s.prov p).k) = true ∧ ((s.img p).fetchSpans (s.prov p).k).any (fun x => (s.prov p).region x.1 == .atlas && s.vpoison p x.1 x.2) = false) ∧
    (∃ (s : State) (u : State) (tile : Nat) (p : Nat) (idx : Nat) (trick : Nat), u = s.startTrick p tile idx { pframe := (s.prov p).k, trick := trick, home := idx } ∧ tile < 4224 ∧ s.ownerOfTile tile = p ∧ p ≠ 0 ∧ s.idxOf p tile = some idx ∧ (s.prov p).st = .paused ∧ (s.prov p).recovery = true ∧ (s.prov p).loaded = true ∧ (s.tile tile).trick = none) :=
  ⟨⟨(withProv prov1 (onTile { (tile 0 []) with seats := [(0, { (seat []) with st := .done })] })), 0, ctx, by and_intros <;> decide +kernel⟩,
   ⟨0, by decide +kernel⟩,
   ⟨(withFlds [] (withProv { prov1 with st := .sealed_ } State.reset)), 0, 1, 0, by and_intros <;> decide +kernel⟩,
   ⟨{ (withProv prov1 State.reset) with poison := [(prov1.vdpa (atlasBase + 512) / 64, true)] }, 0, 1, 7, by and_intros <;> decide +kernel⟩,
   ⟨(withProv prov1 State.reset), 0, 1, 7, by and_intros <;> decide +kernel⟩,
   ⟨(withProv { prov1 with st := .paused, recovery := true } State.reset), _, 0, 1, 0, 0, rfl, by and_intros <;> decide +kernel⟩⟩

theorem test_hyp_TileErrorsAndRepairs :
    (∃ (tile : Nat), tile < 4224) ∧
    (∃ (tile : Nat), tile < 4224) ∧
    (∃ (s : State) (tile : Nat), tile < 4224 ∧ s.errs.moves.any (fun m => m.tile == tile && m.phase == .moving) = true) ∧
    (∃ (tile : Nat) (die : Nat) (found : List ErrIn), tile < 4224 ∧ die < 8 ∧ (∀ r ∈ found, r.cause ≠ BIST_UNREPAIRED ∧ r.cause ≠ BIST_REPAIRED)) :=
  ⟨⟨0, by decide +kernel⟩,
   ⟨0, by decide +kernel⟩,
   ⟨{ State.reset with errs := { moves := [⟨4223, .moving⟩] } }, 4223, by and_intros <;> decide +kernel⟩,
   ⟨0, 7, [], by and_intros <;> decide +kernel⟩⟩

theorem test_hyp_MemoryWritesChangeTheirBytesAlone :
    (∃ (s : State) (word : Nat) (cls : Nat) (slot : Nat) (cells : List (Nat × Byte)), s.mayServe word cls slot = true ∧ cls ≠ 0 ∧ cls ≤ 3 ∧ s.poison = [] ∧ (wordCells word cells).Pairwise (fun x y => x.1 ≠ y.1)) ∧
    (∃ (s : State) (word : Nat) (cls : Nat) (slot : Nat), s.mayServe word cls slot = true ∧ cls ≠ 0 ∧ cls ≤ 3) ∧
    (∃ (s : State) (word : Nat) (slot : Nat) (w : ParityWrite), s.memc.wretry = [w] ∧ w.word = word ∧ s.mayServe word w.cls slot = true) ∧
    (∃ (s : State) (word : Nat) (slot : Nat) (w : ParityWrite), s.memc.wretry = [w] ∧ w.word = word ∧ s.mayServe word w.cls slot = true) :=
  ⟨⟨{ State.reset with memc := { slots := [(383, ⟨1, 7, 1, 16⟩)] } }, 9663643647, 1, 30, [(0, 7), (63, 9)], by and_intros <;> decide +kernel⟩,
   ⟨{ State.reset with memc := { slots := [(383, ⟨1, 7, 1, 16⟩)] } }, 9663643647, 1, 30, by and_intros <;> decide +kernel⟩,
   ⟨{ State.reset with memc := { slots := [(383, ⟨1, 7, 1, 16⟩)], wretry := [⟨9663643647, 1, [(0, 7)]⟩] } }, 9663643647, 30, ⟨9663643647, 1, [(0, 7)]⟩, by and_intros <;> decide +kernel⟩,
   ⟨{ State.reset with memc := { slots := [(383, ⟨1, 7, 1, 16⟩)], wretry := [⟨9663643647, 1, [(0, 7)]⟩] } }, 9663643647, 30, ⟨9663643647, 1, [(0, 7)]⟩, by and_intros <;> decide +kernel⟩⟩

theorem test_hyp_MemoryReadsDeliverTheWord :
    (∃ (s : State) (word : Nat) (cls : Nat) (slot : Nat), s.mayServe word cls slot = true ∧ cls ≠ 1 ∧ cls ≤ 3 ∧ Sparse.get false s.poison word = false) ∧
    (∃ (s : State) (word : Nat) (cls : Nat) (slot : Nat), s.mayServe word cls slot = true ∧ cls ≠ 1 ∧ cls ≤ 3 ∧ Sparse.get false s.poison word = true) ∧
    (∃ (s : State) (word : Nat) (cls : Nat) (slot : Nat), s.mayServe word cls slot = true ∧ cls ≠ 1 ∧ cls ≤ 3 ∧ Sparse.get false s.poison word = false) ∧
    (∃ (s : State) (word : Nat) (cls : Nat) (slot : Nat), s.mayServe word cls slot = true ∧ cls ≠ 1 ∧ cls ≤ 3 ∧ s.memc.retry = [(word, cls)] ∧ Sparse.get false s.poison word = false) ∧
    (∃ (s : State) (word : Nat) (cls : Nat) (slot : Nat), s.mayServe word cls slot = true ∧ cls ≠ 1 ∧ cls ≤ 3 ∧ s.memc.retry = [(word, cls)] ∧ Sparse.get false s.poison word = false) :=
  ⟨⟨{ State.reset with memc := { slots := [(383, ⟨1, 7, 1, 16⟩)] } }, 9663643647, 0, 0, by and_intros <;> decide +kernel⟩,
   ⟨{ ({ State.reset with memc := { slots := [(383, ⟨1, 7, 1, 16⟩)] } }) with poison := [(9663643647, true)] }, 9663643647, 0, 0, by and_intros <;> decide +kernel⟩,
   ⟨{ State.reset with memc := { slots := [(383, ⟨1, 7, 1, 16⟩)] } }, 9663643647, 0, 0, by and_intros <;> decide +kernel⟩,
   ⟨{ State.reset with memc := { slots := [(383, ⟨1, 7, 1, 16⟩)], retry := [(9663643647, 0)] } }, 9663643647, 0, 0, by and_intros <;> decide +kernel⟩,
   ⟨{ State.reset with memc := { slots := [(383, ⟨1, 7, 1, 16⟩)], retry := [(9663643647, 0)] } }, 9663643647, 0, 0, by and_intros <;> decide +kernel⟩⟩

theorem test_hyp_MemoryUpkeep :
    (∃ (s : State) (chan : Nat), chan < 384 ∧ s.fld chan MEM_SCRUB_CTRL_PATROL_EN ≠ 0 ∧ s.hasSlot chan 0 0 = true) ∧
    (∃ (s : State) (chan : Nat), chan < 384 ∧ s.fld chan MEM_STATUS_PROV ≠ 0 ∧ (s.prov (s.fld chan MEM_STATUS_PROV)).st = .dissolving) ∧
    (∃ (s : State) (granule : Nat) (r : RowFix), s.errs.rows = [r] ∧ r.granule = granule * 2048) ∧
    (∃ (s : State) (die : Nat) (p : Nat) (va : Nat) (g : Page), die < 12 ∧ s.walk p va = some g ∧ (s.walkWords p va).any (fun w => Sparse.get false s.poison w) = false ∧ s.hasSlot ((s.prov p).chans.getD 0 0) 0 0 = true ∧ Sparse.get [] s.memc.xlat (die * 256 + p) = [] ∧ 0 < (s.prov p).xlatRoom die) ∧
    (∃ (s : State) (chan : Nat) (taken : Nat), chan < 384 ∧ taken ≠ 0 ∧ 950 < s.stackTemp (chan / 32)) ∧
    (∃ (chan : Nat) (stack : Nat) (x : Int), stack < 12 ∧ chan / 32 = stack ∧ -400 ≤ x ∧ x ≤ 1500) :=
  ⟨⟨{ State.reset with memc := { patrol := [(383, 25165823)] } }, 383, by and_intros <;> decide +kernel⟩,
   ⟨(withFlds [(0, MEM_STATUS_PROV, 1)] (withProv { prov1 with st := .dissolving } State.reset)), 0, by and_intros <;> decide +kernel⟩,
   ⟨{ State.reset with errs := { rows := [⟨2048, 0x5FF00000⟩] } }, 1, ⟨2048, 0x5FF00000⟩, by and_intros <;> decide +kernel⟩,
   ⟨(withFlds [(0, GZT_ROOT_V 1, 1), (0, GZT_ROOT_ADDR 1, 1)] ({ (withProv prov1 State.reset) with mem := [(4096, 1), (4097, 32), (8192, 7)] })), 0, 1, 0, ⟨0, 0x40000000, 0, true⟩, by and_intros <;> decide +kernel⟩,
   ⟨{ State.reset with memc := { temps := [(11, 951)] } }, 383, 1, by and_intros <;> decide +kernel⟩,
   ⟨383, 11, 0, by and_intros <;> decide +kernel⟩⟩

theorem test_hyp_FrameNumbersAdvance :
    (∃ (s : State) (a : State) (b : State) (held : Nat), a = (s.tick.provs.map Prod.fst).foldl (fun t p => if ((t.stewardBoundary p).provSnap p).provLive p then ((t.stewardBoundary p).provSnap p).provEnd p held else (t.stewardBoundary p).provSnap p) s.tick ∧ b = a.repairBoundary ∧ s.inReset = false) ∧
    (∃ (s : State), s.inReset = true) ∧
    (∃ (s : State), s.mer.jump = none ∧ s.frame + 1 < 2 ^ 64) ∧
    (∃ (s : State) (j : Nat), s.mer.jump = some j ∧ s.frame + 1 < 2 ^ 64 ∧ j < 2 ^ 64) :=
  ⟨⟨(withProv prov1 State.reset), _, _, 0, rfl, rfl, by decide +kernel⟩,
   ⟨{ State.reset with pinReset := true }, by decide +kernel⟩,
   ⟨State.reset, by and_intros <;> decide +kernel⟩,
   ⟨{ State.reset with mer := { jump := some 9 } }, 9, by and_intros <;> decide +kernel⟩⟩

theorem test_hyp_ArmedSwitchTakesEffect :
    ∃ (s : State), s.fld 0 MER_TICK_PERIOD_ARM = 1 ∧ s.mer.jump = none ∧ s.mer.boot = none ∧ (s.reg 0 MER_SWITCH_FRAME).toNat = s.frame + 1 ∧ 4 ≤ s.fld 0 MER_TICK_PERIOD_NEXT ∧ s.fld 0 MER_TICK_PERIOD_NEXT ≤ 256 ∧ s.provs.any (fun e => e.2.st == .sealed_ || e.2.st == .running || e.2.st == .paused) = false ∧ s.mer.time + s.frameLen < 2 ^ 64 :=
  ⟨(withFlds [(0, MER_TICK_PERIOD_ARM, 1), (0, MER_TICK_PERIOD_NEXT, 256), (0, MER_SWITCH_FRAME_SWITCH, 1)] (State.reset)), by and_intros <;> decide +kernel⟩

theorem test_hyp_SwitchIsRefused :
    (∃ (s : State), s.inReset = false ∧ (s.fld 0 MER_TICK_PERIOD_NEXT < 4 ∨ 256 < s.fld 0 MER_TICK_PERIOD_NEXT ∨ (s.reg 0 MER_SWITCH_FRAME).toNat ≤ s.frame)) ∧
    (∃ (s : State), s.inReset = false ∧ 4 ≤ s.fld 0 MER_TICK_PERIOD_NEXT ∧ s.fld 0 MER_TICK_PERIOD_NEXT ≤ 256 ∧ s.frame < (s.reg 0 MER_SWITCH_FRAME).toNat) ∧
    (∃ (s : State), s.inReset = false ∧ s.fld 0 MER_TICK_PERIOD_ARM = 1 ∧ s.mer.jump = none ∧ s.mer.boot = none ∧ (s.reg 0 MER_SWITCH_FRAME).toNat = s.frame + 1 ∧ s.frame + 1 < 2 ^ 64 ∧ (s.fld 0 MER_TICK_PERIOD_NEXT < 4 ∨ 256 < s.fld 0 MER_TICK_PERIOD_NEXT ∨ s.provs.any (fun e => e.2.st == .sealed_ || e.2.st == .running || e.2.st == .paused) = true)) :=
  ⟨⟨(withFlds [(0, MER_TICK_PERIOD_ARM, 0), (0, MER_TICK_PERIOD_NEXT, 257), (0, MER_SWITCH_FRAME_SWITCH, 1)] (State.reset)), by and_intros <;> decide +kernel⟩,
   ⟨(withFlds [(0, MER_TICK_PERIOD_ARM, 0), (0, MER_TICK_PERIOD_NEXT, 4), (0, MER_SWITCH_FRAME_SWITCH, 1)] (State.reset)), by and_intros <;> decide +kernel⟩,
   ⟨(withFlds [(0, MER_TICK_PERIOD_ARM, 1), (0, MER_TICK_PERIOD_NEXT, 3), (0, MER_SWITCH_FRAME_SWITCH, 1)] (State.reset)), by and_intros <;> decide +kernel⟩⟩

theorem test_hyp_MeridianStates :
    (∃ (s : State) (e : Int) (n : Nat) (time : Nat), s.fld 0 MER_PTP_CTRL_ENABLE = 1 ∧ s.ppsRef = false ∧ s.mer.locked = true ∧ s.ptpFrame time = some n ∧ s.fld 0 MER_STATUS_STATE = MER_S_FREE ∧ e.natAbs ≤ 100) ∧
    (∃ (s : State) (e : Int) (n : Nat) (time : Nat), s.fld 0 MER_PTP_CTRL_ENABLE = 1 ∧ s.ppsRef = false ∧ s.mer.locked = true ∧ s.ptpFrame time = some n ∧ (s.fld 0 MER_STATUS_STATE = MER_S_FREE ∨ s.fld 0 MER_STATUS_STATE = MER_S_LOCKED) ∧ 100 < e.natAbs) ∧
    (∃ (s : State) (n : Nat) (time : Nat), s.fld 0 MER_PTP_CTRL_ENABLE = 1 ∧ s.ppsRef = false ∧ s.mer.locked = true ∧ s.ptpFrame time = some n ∧ s.fld 0 MER_STATUS_STATE = MER_S_HOLDOVER) ∧
    (∃ (s : State) (e : Int) (n : Nat) (time : Nat), s.fld 0 MER_PTP_CTRL_ENABLE = 1 ∧ s.ppsRef = false ∧ s.mer.locked = true ∧ s.ptpFrame time = some n ∧ s.fld 0 MER_STATUS_STATE = MER_S_DRIFT ∧ e.natAbs ≤ 80 ∧ s.mer.good = 7) ∧
    (∃ (s : State), s.ppsRef = false ∧ (s.fld 0 MER_STATUS_STATE = MER_S_LOCKED ∨ s.fld 0 MER_STATUS_STATE = MER_S_DRIFT)) ∧
    (∃ (s : State), s.fld 0 MER_STATUS_STATE = MER_S_HOLDOVER) ∧
    (∃ (s : State) (dt : Nat), s.fld 0 MER_PPS_CTRL_IN_EN = 1 ∧ s.fld 0 MER_PPS_CTRL_IN_EDGE = 0 ∧ s.mer.ppsLast = true ∧ 999900000 ≤ dt ∧ dt ≤ 1000100000) ∧
    (∃ (s : State) (dt : Nat), s.fld 0 MER_PPS_CTRL_IN_EN = 1 ∧ s.fld 0 MER_PPS_CTRL_IN_EDGE = 0 ∧ s.mer.ppsLast = true ∧ (dt < 999900000 ∨ 1000100000 < dt)) ∧
    (∃ (s : State), s.fld 0 MER_STATUS_PPS_PRESENT = 1 ∧ s.fld 0 MER_STATUS_STATE = MER_S_LOCKED ∧ s.fld 0 MER_PTP_CTRL_ENABLE = 0) ∧
    (∃ (s : State), s.fld 0 MER_STATUS_PPS_PRESENT = 1 ∧ s.fld 0 MER_STATUS_STATE = MER_S_LOCKED ∧ s.fld 0 MER_PTP_CTRL_ENABLE ≠ 0) ∧
    (∃ (s : State), s.inReset = false ∧ s.fld 0 MER_PPS_CTRL_OUT_MODE = 1) ∧
    (∃ (s : State), s.inReset = false ∧ s.fld 0 MER_PPS_CTRL_OUT_MODE = 0) ∧
    (∃ (s : State), s.inReset = false) ∧
    (∃ (s : State) (port : Nat), s.fld 0 MER_PTP_CTRL_ENABLE = 1 ∧ s.fld 0 MER_PTP_CTRL_ROLE = 2 ∧ port < 64 ∧ port ≠ s.fld 0 MER_PTP_CTRL_SRC_PORT ∧ s.portLanes port ≠ 0 ∧ s.fld port ETH_PORT_CTRL_EN = 1 ∧ s.fld port ETH_PORT_CTRL_PTP_EN = 1) :=
  ⟨⟨{ (withFlds [(0, MER_PTP_CTRL_ENABLE, 1), (0, MER_STATUS_STATE, MER_S_FREE)] (State.reset)) with mer := { locked := true, good := 0 } }, -100, 0, 0, by and_intros <;> decide +kernel⟩,
   ⟨{ (withFlds [(0, MER_PTP_CTRL_ENABLE, 1), (0, MER_STATUS_STATE, MER_S_LOCKED)] (State.reset)) with mer := { locked := true, good := 0 } }, -101, 0, 0, by and_intros <;> decide +kernel⟩,
   ⟨{ (withFlds [(0, MER_PTP_CTRL_ENABLE, 1), (0, MER_STATUS_STATE, MER_S_HOLDOVER)] (State.reset)) with mer := { locked := true, good := 0 } }, 0, 0, by and_intros <;> decide +kernel⟩,
   ⟨{ (withFlds [(0, MER_PTP_CTRL_ENABLE, 1), (0, MER_STATUS_STATE, MER_S_DRIFT)] (State.reset)) with mer := { locked := true, good := 7 } }, 80, 0, 0, by and_intros <;> decide +kernel⟩,
   ⟨(withFlds [(0, MER_STATUS_STATE, MER_S_DRIFT)] (State.reset)), by and_intros <;> decide +kernel⟩,
   ⟨(withFlds [(0, MER_STATUS_STATE, MER_S_HOLDOVER)] (State.reset)), by decide +kernel⟩,
   ⟨{ (withFlds [(0, MER_PPS_CTRL_IN_EN, 1), (0, MER_PPS_CTRL_IN_EDGE, 0)] (State.reset)) with mer := { ppsLast := true } }, 1000100000, by and_intros <;> decide +kernel⟩,
   ⟨{ (withFlds [(0, MER_PPS_CTRL_IN_EN, 1), (0, MER_PPS_CTRL_IN_EDGE, 0)] (State.reset)) with mer := { ppsLast := true } }, 999899999, by and_intros <;> decide +kernel⟩,
   ⟨(withFlds [(0, MER_STATUS_PPS_PRESENT, 1), (0, MER_STATUS_STATE, MER_S_LOCKED)] (State.reset)), by and_intros <;> decide +kernel⟩,
   ⟨(withFlds [(0, MER_STATUS_PPS_PRESENT, 1), (0, MER_STATUS_STATE, MER_S_LOCKED), (0, MER_PTP_CTRL_ENABLE, 1)] (State.reset)), by and_intros <;> decide +kernel⟩,
   ⟨(withFlds [(0, MER_PPS_CTRL_OUT_MODE, 1)] (State.reset)), by and_intros <;> decide +kernel⟩,
   ⟨{ State.reset with mer := { ppsOut := true } }, by and_intros <;> decide +kernel⟩,
   ⟨(withFlds [(0, MER_PPS_CTRL_OUT_MODE, 1)] (State.reset)), by decide +kernel⟩,
   ⟨(withFlds [(0, MER_PTP_CTRL_ENABLE, 1), (0, MER_PTP_CTRL_ROLE, 2), (3, (quarterFld 3), 1), (60, ETH_PORT_CTRL_EN, 1), (60, ETH_PORT_CTRL_PTP_EN, 1)] (State.reset)), 60, by and_intros <;> decide +kernel⟩⟩

theorem test_hyp_NamedFrameOperations :
    (∃ (s : State) (u : State) (p : Nat) (child : Nat) (g : GInst), u = s.take p child (.request (.barrier g)) ∧ s.stw.restarting = false ∧ (s.prov p).st ≠ .none_ ∧ (s.children p).contains child = true) ∧
    (∃ (s : State) (u : State) (p : Nat) (child : Nat) (g : GInst) (b : List Byte), u = s.take p child (.request (.broadcast g b)) ∧ s.stw.restarting = false ∧ (s.prov p).st ≠ .none_ ∧ (s.children p).contains child = true) ∧
    (∃ (s : State) (p : Nat) (child : Nat) (op : GlobOp), s.stw.restarting = false ∧ (s.prov p).st ≠ .none_ ∧ (s.children p).contains child = true ∧ (op = .snapshot ∨ op = .reset ∨ op = .pause ∨ op = .resume) ∧ s.rank p = 0) ∧
    (∃ (s : State) (p : Nat) (child : Nat) (op : GlobOp), s.stw.restarting = false ∧ (s.prov p).st ≠ .none_ ∧ (s.children p).contains child = true ∧ (op = .snapshot ∨ op = .reset ∨ op = .pause ∨ op = .resume) ∧ s.rank p ≠ 0) ∧
    (∃ (s : State) (p : Nat) (f : Nat), s.stw.restarting = false ∧ (s.prov p).st ≠ .none_ ∧ s.rank p ≠ 0 ∧ s.frame < f) ∧
    (∃ (s : State) (p : Nat) (f : Nat), s.stw.restarting = false ∧ (s.prov p).st ≠ .none_ ∧ s.rank p ≠ 0 ∧ f ≤ s.frame) ∧
    (∃ (s : State) (p : Nat) (child : Nat) (c : Cut) (rs : List Nat), rs = (if c.reports.contains child then c.reports else c.reports ++ [child]) ∧ s.stw.restarting = false ∧ (s.children p).contains child = true ∧ (s.prov p).cut = some c ∧ (c.own = false ∨ c.reported = true ∨ (s.children p).all (fun r => rs.contains r) = false)) ∧
    (∃ (s : State) (p : Nat) (child : Nat) (c : Cut) (rs : List Nat), rs = (if c.reports.contains child then c.reports else c.reports ++ [child]) ∧ s.stw.restarting = false ∧ (s.children p).contains child = true ∧ (s.prov p).cut = some c ∧ c.own = true ∧ c.reported = false ∧ (s.children p).all (fun r => rs.contains r) = true) ∧
    (∃ (s : State) (p : Nat) (child : Nat) (c : Cut), s.stw.restarting = false ∧ (s.children p).contains child = true ∧ (s.prov p).cut = some c ∧ s.rank p ≠ 0) ∧
    (∃ (s : State) (p : Nat) (child : Nat) (c : Cut), s.stw.restarting = false ∧ (s.children p).contains child = true ∧ (s.prov p).cut = some c ∧ s.rank p = 0) :=
  ⟨⟨(withFlds [(1, PROV_RANK_RANK, 1), (1, PROV_RANK_LASTRANK, 4)] (withProv prov1 State.reset)), _, 1, 4, { pro := false, step := 0, ord := 0 }, rfl, by and_intros <;> decide +kernel⟩,
   ⟨(withFlds [(1, PROV_RANK_RANK, 1), (1, PROV_RANK_LASTRANK, 4)] (withProv prov1 State.reset)), _, 1, 4, { pro := false, step := 0, ord := 0 }, [], rfl, by and_intros <;> decide +kernel⟩,
   ⟨(withFlds [(1, PROV_RANK_RANK, 0), (1, PROV_RANK_LASTRANK, 4)] (withProv prov1 State.reset)), 1, 2, .snapshot, by and_intros <;> decide +kernel⟩,
   ⟨(withFlds [(1, PROV_RANK_RANK, 1), (1, PROV_RANK_LASTRANK, 4)] (withProv prov1 State.reset)), 1, 4, .snapshot, by and_intros <;> decide +kernel⟩,
   ⟨(withFlds [(1, PROV_RANK_RANK, 1), (1, PROV_RANK_LASTRANK, 4)] (withProv prov1 State.reset)), 1, 1, by and_intros <;> decide +kernel⟩,
   ⟨(withFlds [(1, PROV_RANK_RANK, 1), (1, PROV_RANK_LASTRANK, 4)] (withProv prov1 State.reset)), 1, 0, by and_intros <;> decide +kernel⟩,
   ⟨(withFlds [(1, PROV_RANK_RANK, 1), (1, PROV_RANK_LASTRANK, 4)] (withProv { prov1 with cut := some { frame := 0 } } State.reset)), 1, 3, { frame := 0 }, _, rfl, by and_intros <;> decide +kernel⟩,
   ⟨(withFlds [(1, PROV_RANK_RANK, 1), (1, PROV_RANK_LASTRANK, 4)] (withProv { prov1 with cut := some { frame := 0, own := true, reports := [4] } } State.reset)), 1, 3, { frame := 0, own := true, reports := [4] }, _, rfl, by and_intros <;> decide +kernel⟩,
   ⟨(withFlds [(1, PROV_RANK_RANK, 1), (1, PROV_RANK_LASTRANK, 4)] (withProv { prov1 with cut := some { frame := 0 } } State.reset)), 1, 3, { frame := 0 }, by and_intros <;> decide +kernel⟩,
   ⟨(withFlds [(1, PROV_RANK_RANK, 0), (1, PROV_RANK_LASTRANK, 4)] (withProv { prov1 with cut := some { frame := 0 } } State.reset)), 1, 2, { frame := 0 }, by and_intros <;> decide +kernel⟩⟩

theorem test_hyp_RegisterAccesses :
    (∃ (s : State) (addr : Nat) (n : Nat) (r : RegAt), (n = 4 ∨ n = 8) ∧ s.inReset = false ∧ dpaReg addr = some r ∧ s.provAbsent r = false) ∧
    (∃ (s : State) (addr : Nat) (n : Nat), (n = 4 ∨ n = 8) ∧ s.inReset = false ∧ dpaReg addr = none) ∧
    (∃ (s : State) (addr : Nat) (n : Nat) (fn : Nat) (r : RegAt), (n = 4 ∨ n = 8) ∧ s.inReset = false ∧ s.barReg fn addr = some r ∧ r.block = .mer) ∧
    (∃ (s : State) (addr : Nat) (n : Nat) (fn : Nat) (r : RegAt), (n = 4 ∨ n = 8) ∧ s.inReset = false ∧ s.barReg fn addr = some r ∧ r.block ≠ .mer) ∧
    (∃ (s : State) (n : Nat), (n = 4 ∨ n = 8) ∧ s.inReset = false) ∧
    (∃ (s : State) (n : Nat) (fn : Nat) (off : Nat) (v : Nat), (n = 4 ∨ n = 8) ∧ s.inReset = false ∧ fn < 256 ∧ (s.fn fn).latch = some (off, v)) ∧
    (∃ (s : State) (n : Nat) (fn : Nat) (off : Nat) (lo : Nat) (r : RegAt) (q : RegAt) (d : RegDef), (n = 4 ∨ n = 8) ∧ s.inReset = false ∧ fn < 256 ∧ (s.fn fn).latch = none ∧ s.barReg fn off = some r ∧ r.hostReads = true ∧ r.locate 8 = some (d, q, lo)) ∧
    (∃ (s : State) (n : Nat) (fn : Nat) (off : Nat) (r : RegAt), (n = 4 ∨ n = 8) ∧ s.inReset = false ∧ fn < 256 ∧ (s.fn fn).latch = none ∧ s.barReg fn off = some r ∧ r.hostReads = false) :=
  ⟨⟨(withFlds [(0, MER_PPS_CTRL_IN_EN, 1)] (State.reset)), 0xF83001003C, 4, ⟨.mer, 0, 0x3C⟩, by and_intros <;> decide +kernel⟩,
   ⟨State.reset, 0x9000000000, 8, by and_intros <;> decide +kernel⟩,
   ⟨State.reset, 0x10103C, 8, 0, ⟨.mer, 0, 0x3C⟩, by and_intros <;> decide +kernel⟩,
   ⟨State.reset, 0x102000, 8, 0, ⟨.stw, 0, 0⟩, by and_intros <;> decide +kernel⟩,
   ⟨State.reset, 8, by and_intros <;> decide +kernel⟩,
   ⟨{ State.reset with fns := [(255, { latch := some (4, 7) })] }, 8, 255, 4, 7, by and_intros <;> decide +kernel⟩,
   ⟨State.reset, 8, 0, 0x101008, (((⟨.mer, 0, 8⟩ : RegAt).locate 8).get (by decide +kernel)).2.2, ⟨.mer, 0, 8⟩, (((⟨.mer, 0, 8⟩ : RegAt).locate 8).get (by decide +kernel)).2.1, (((⟨.mer, 0, 8⟩ : RegAt).locate 8).get (by decide +kernel)).1, by and_intros <;> decide +kernel⟩,
   ⟨State.reset, 8, 0, 0x10400C, ⟨.tst, 0, 0xC⟩, by and_intros <;> decide +kernel⟩⟩

theorem test_hyp_SurveyCounters :
    (∃ (addr : Nat) (value : Nat) (i : Nat) (r : RegAt), dpaReg addr = some r ∧ r.block = .srv ∧ r.off = 0x200 + 8 * i ∧ i < 8 ∧ i < srvProgs r.unit ∧ (bits value 0 8 = 0 ∨ (srvRange r.unit).1 ≤ bits value 0 8 ∧ bits value 0 8 ≤ (srvRange r.unit).2)) ∧
    (∃ (addr : Nat) (value : Nat) (i : Nat) (r : RegAt), dpaReg addr = some r ∧ r.block = .srv ∧ r.off = 0x200 + 8 * i ∧ i < 8 ∧ i < srvProgs r.unit ∧ bits value 0 8 ≠ 0 ∧ (bits value 0 8 < (srvRange r.unit).1 ∨ (srvRange r.unit).2 < bits value 0 8)) ∧
    (∃ (addr : Nat) (value : Nat) (r : RegAt), dpaReg addr = some r ∧ r.block = .srv ∧ r.off = 0x328 ∧ bitAt value 0 = true) ∧
    (∃ (s : State) (addr : Nat) (value : Nat) (r : RegAt), dpaReg addr = some r ∧ r.block = .prov ∧ r.off = 0x248 ∧ bitAt value 0 = true ∧ s.provAbsent r = false) ∧
    (∃ (s : State) (i : Nat) (unit : Nat), unit ≤ srvProv 255 ∧ i < (srvFixed unit).length ∧ srvTimed (s.counterEvent unit i) = true) ∧
    (∃ (s : State) (i : Nat) (unit : Nat), unit ≤ srvProv 255 ∧ i < srvProgs unit ∧ srvTimed (s.counterEvent unit (8 + i)) = true) :=
  ⟨⟨0xF0001A4218, 0x10D, 3, ⟨.srv, 0, 0x218⟩, by and_intros <;> decide +kernel⟩,
   ⟨0xF0001A4218, 0xFF, 3, ⟨.srv, 0, 0x218⟩, by and_intros <;> decide +kernel⟩,
   ⟨0xF0001A4328, 1, ⟨.srv, 0, 0x328⟩, by and_intros <;> decide +kernel⟩,
   ⟨(withProv prov1 State.reset), 0xF830101248, 1, ⟨.prov, 1, 0x248⟩, by and_intros <;> decide +kernel⟩,
   ⟨State.reset, 0, 0, by and_intros <;> decide +kernel⟩,
   ⟨(withFlds [(0, (SRV_CFG_EVENT 3), 1)] (State.reset)), 3, 0, by and_intros <;> decide +kernel⟩⟩

theorem test_hyp_SurveySamplesAndTags :
    (∃ (s : State) (tile : Nat) (seat : Nat) (skid : Nat), tile < 4224 ∧ s.fld tile SRV_SAMP_EN = 1 ∧ seat < 8 ∧ skid ≤ 16 ∧ (s.tile tile).samples.length < 8) ∧
    (∃ (s : State) (tile : Nat) (seat : Nat) (skid : Nat), tile < 4224 ∧ s.fld tile SRV_SAMP_EN = 1 ∧ seat < 8 ∧ skid ≤ 16 ∧ 8 ≤ (s.tile tile).samples.length) ∧
    (∃ (s : State) (tile : Nat) (die : Nat), tile < 4224 ∧ tile / 528 = die ∧ (∀ k < 528, die * 528 + k ≠ tile → (s.tile (die * 528 + k)).samples = []) ∧ (s.tile tile).samples ≠ [] ∧ (s.tile tile).samples.length ≤ 128) ∧
    (∃ (s : State) (tile : Nat) (addr : Nat) (value : Nat) (r : RegAt), tile < 4224 ∧ dpaReg addr = some r ∧ r.block = .srv ∧ r.off = 0x318 ∧ r.unit < 4224 ∧ bitAt value 0 = true ∧ s.tagAllowed r.unit = true) ∧
    (∃ (s : State) (tile : Nat) (addr : Nat) (value : Nat) (r : RegAt), tile < 4224 ∧ dpaReg addr = some r ∧ r.block = .srv ∧ r.off = 0x318 ∧ r.unit < 4224 ∧ bitAt value 0 = true ∧ s.tagAllowed r.unit = false) ∧
    (∃ (s : State) (tile : Nat) (seat : Nat) (trick : Nat) (pc : Nat) (insn : Nat), tile < 4224 ∧ (s.tile tile).tag = .held trick pc seat insn ∧ insn < 2 ^ 64) :=
  ⟨⟨(withFlds [(4223, SRV_SAMP_EN, 1)] ({ State.reset with tiles := [(4223, { samples := List.replicate 7 [] })] })), 4223, 7, 16, by and_intros <;> decide +kernel⟩,
   ⟨(withFlds [(4223, SRV_SAMP_EN, 1)] ({ State.reset with tiles := [(4223, { samples := List.replicate 8 [] })] })), 4223, 7, 16, by and_intros <;> decide +kernel⟩,
   ⟨(withFlds [(4223, SRV_SAMP_EN, 1)] ({ State.reset with tiles := [(4223, { samples := List.replicate 8 [] })] })), 4223, 7, by and_intros <;> decide +kernel⟩,
   ⟨(withFlds [(0, STW_STATUS_LC, 1)] (State.reset)), 4223, 0xF0001A4318, 1, ⟨.srv, 0, 0x318⟩, by and_intros <;> decide +kernel⟩,
   ⟨State.reset, 4223, 0xF0001A4318, 1, ⟨.srv, 0, 0x318⟩, by and_intros <;> decide +kernel⟩,
   ⟨(onTile { tag := .held 5 1 2 0xFFFFFFFFFFFFFFFF }), 0, 2, 5, 1, 0xFFFFFFFFFFFFFFFF, by and_intros <;> decide +kernel⟩⟩

theorem test_hyp_StepsAreDecidedAndCommitted :
    (∃ (s : State) (p : Nat) (b : List Byte), (s.prov p).verdict = some b ∧ s.stepState p = ST_REDUCED ∧ (Verd.of b).ok (s.stepNo p) (s.nranks p) = true) ∧
    (∃ (s : State) (p : Nat) (b : List Byte), (s.prov p).verdict = some b ∧ s.stepState p = ST_REDUCED ∧ (Verd.of b).ok (s.stepNo p) (s.nranks p) = false) ∧
    (∃ (s : State) (p : Nat), s.stw.restarting = false ∧ (s.prov p).loaded = true ∧ (s.img p).hasLedger = true ∧ s.stepState p = ST_VERIFIED ∧ (s.prov p).ledgerDone = false ∧ (s.prov p).ledgerStop = false ∧ s.commitOver p = true ∧ ((s.commitRecs p (s.img p).nrec 0).prov p).ledgerStop = false) ∧
    (∃ (s : State) (p : Nat), (s.prov p).loaded = true ∧ s.stepState p = ST_VERIFIED ∧ (s.img p).hasLedger = true ∧ (s.prov p).ledgerDone = true) ∧
    (∃ (s : State) (p : Nat), (s.prov p).loaded = true ∧ s.stepState p = ST_VERIFIED ∧ (s.img p).hasLedger = false ∧ s.commitOver p = true) :=
  ⟨⟨(withFlds [(1, PROV_STEP_STATE_STATE, ST_REDUCED)] (withProv { prov1 with verdict := some (leBytes 56 0 ++ leBytes 4 1 ++ leBytes 4 0) } State.reset)), 1, (leBytes 56 0 ++ leBytes 4 1 ++ leBytes 4 0), by and_intros <;> decide +kernel⟩,
   ⟨(withFlds [(1, PROV_STEP_STATE_STATE, ST_REDUCED)] (withProv { prov1 with verdict := some (leBytes 16 0 ++ leBytes 4 1 ++ leBytes 36 0 ++ leBytes 4 1 ++ leBytes 4 0) } State.reset)), 1, (leBytes 16 0 ++ leBytes 4 1 ++ leBytes 36 0 ++ leBytes 4 1 ++ leBytes 4 0), by and_intros <;> decide +kernel⟩,
   ⟨(withFlds [(1, PROV_STEP_STATE_STATE, ST_VERIFIED)] (withLedger (withProv { prov1 with cur := some 0 } State.reset))), 1, by and_intros <;> decide +kernel⟩,
   ⟨(withFlds [(1, PROV_STEP_STATE_STATE, ST_VERIFIED)] (withLedger (withProv { prov1 with cur := some 0, ledgerDone := true } State.reset))), 1, by and_intros <;> decide +kernel⟩,
   ⟨(withFlds [(1, PROV_STEP_STATE_STATE, ST_VERIFIED)] (withProv { prov1 with cur := some 0 } State.reset)), 1, by and_intros <;> decide +kernel⟩⟩

theorem test_hyp_CollectiveMessages :
    (∃ (s : State) (u : State) (p : Nat) (src : Nat) (m : SegMsg), u = (s.take p src (.seg m)).ackSeg p src m ∧ m.kind = 0) ∧
    (∃ (s : State) (u : State) (p : Nat) (src : Nat) (m : SegMsg), u = (s.take p src (.seg m)).ackSeg p src m ∧ m.kind = 2 ∧ s.fromParent p src m = true ∧ m.step ≠ (s.reg p PROV_STEP).toNat ∧ m.repoch = s.fld p PROV_EPOCH_EPOCH) ∧
    (∃ (s : State) (u : State) (p : Nat) (src : Nat) (m : SegMsg), u = (s.take p src (.seg m)).ackSeg p src m ∧ m.kind = 1) ∧
    (∃ (s : State) (u : State) (p : Nat) (src : Nat) (m : SegMsg), u = (s.take p src (.seg m)).ackSeg p src m ∧ m.repoch = s.fld p PROV_EPOCH_EPOCH ∧ (s.prov p).st ≠ .none_) ∧
    (∃ (s : State) (u : State) (p : Nat) (src : Nat) (m : SegMsg), u = s.take p src (.seg m) ∧ m.kind = 3 ∧ m.repoch = s.fld p PROV_EPOCH_EPOCH ∧ s.patchWaits p src m = true) ∧
    (∃ (s : State) (u : State) (p : Nat) (src : Nat) (m : SegMsg) (c : Coll) (d : CollDesc), u = s.take p src (.seg m) ∧ d = (s.img p).coll c.idx ∧ m.kind = 3 ∧ m.repoch = s.fld p PROV_EPOCH_EPOCH ∧ s.patchWaits p src m = false ∧ s.ackedColl p src m = some c) ∧
    (∃ (s : State) (p : Nat) (ord : Nat) (c : Coll) (d : CollDesc), d = (s.img p).coll c.idx ∧ (s.prov p).colls.find? (fun x => x.started && ((s.img p).coll x.idx).ord == ord) = some c ∧ c.stopped = false ∧ c.need = 0 ∧ c.sums.all SegNode.done = true ∧ c.checks.all CheckNode.done = true ∧ c.unacked = [] ∧ c.waiting = false ∧ (s.prov p).patches.any (fun x => x.ord == ord && x.step == c.step) = false ∧ (d.op = 8 → (s.prov p).verdict = none) ∧ s.memc.waits.any (fun x => x.prov == p && x.cls == 2) = false ∧ d.put = false) ∧
    (∃ (s : State) (p : Nat) (ord : Nat) (n : Nat) (c : Coll) (d : CollDesc), d = (s.img p).coll c.idx ∧ (s.prov p).colls.find? (fun x => x.started && ((s.img p).coll x.idx).ord == ord) = some c ∧ c.stopped = false ∧ c.need = 0 ∧ c.sums.all SegNode.done = true ∧ c.checks.all CheckNode.done = true ∧ c.unacked = [] ∧ c.waiting = false ∧ (s.prov p).patches.any (fun x => x.ord == ord && x.step == c.step) = false ∧ (d.op = 8 → (s.prov p).verdict = none) ∧ s.memc.waits.any (fun x => x.prov == p && x.cls == 2) = false ∧ d.put = true ∧ s.talonOf p d.talon = some n ∧ (s.talon n).handles.length < 1024 ∧ (s.talon n).putWait = []) :=
  ⟨⟨(withFlds [(1, PROV_RANK_RANK, 1), (1, PROV_RANK_LASTRANK, 4)] (withProv { prov1 with colls := [{ idx := 0, order := 0, pframe := 0, step := 0, started := true }] } State.reset)), _, 1, 3, { kind := 0, ord := 0, seg := 0, repoch := 0, step := 0, sframe := 0 }, rfl, by decide +kernel⟩,
   ⟨(withFlds [(1, PROV_RANK_RANK, 1), (1, PROV_RANK_LASTRANK, 4)] (withImage [(1472, 1, 8)] (withProv { prov1 with colls := [{ idx := 0, order := 0, pframe := 0, step := 0, started := true }] } State.reset))), _, 1, 0, { kind := 2, ord := 0, seg := 0, repoch := 0, sframe := 0, step := 5 }, rfl, by and_intros <;> decide +kernel⟩,
   ⟨(withFlds [(1, PROV_RANK_RANK, 1), (1, PROV_RANK_LASTRANK, 4)] (withProv { prov1 with colls := [{ idx := 0, order := 0, pframe := 0, step := 0, started := true }] } State.reset)), _, 1, 3, { kind := 1, ord := 0, seg := 0, repoch := 0, step := 0, sframe := 0 }, rfl, by decide +kernel⟩,
   ⟨(withFlds [(1, PROV_RANK_RANK, 1), (1, PROV_RANK_LASTRANK, 4)] (withProv { prov1 with colls := [{ idx := 0, order := 0, pframe := 0, step := 0, started := true }] } State.reset)), _, 1, 3, { kind := 0, ord := 0, seg := 0, repoch := 0, step := 0, sframe := 0 }, rfl, by and_intros <;> decide +kernel⟩,
   ⟨(withFlds [(1, PROV_RANK_RANK, 1), (1, PROV_RANK_LASTRANK, 4)] (withProv { prov1 with colls := [{ idx := 0, order := 0, pframe := 0, step := 0, started := true }], patches := [⟨0, 0, 3, [0], false⟩] } State.reset)), _, 1, 3, { kind := 3, ord := 0, seg := 0, repoch := 0, step := 0, sframe := 0 }, rfl, by and_intros <;> decide +kernel⟩,
   ⟨(withFlds [(1, PROV_RANK_RANK, 1), (1, PROV_RANK_LASTRANK, 4)] (withProv { prov1 with colls := [{ idx := 0, order := 0, pframe := 0, step := 0, started := true, unacked := [⟨3, 0, true, false⟩] }] } State.reset)), _, 1, 3, { kind := 3, ord := 0, seg := 0, repoch := 0, step := 0, sframe := 0 }, { idx := 0, order := 0, pframe := 0, step := 0, started := true, unacked := [⟨3, 0, true, false⟩] }, _, rfl, rfl, by and_intros <;> decide +kernel⟩,
   ⟨(withFlds [(1, PROV_RANK_RANK, 1), (1, PROV_RANK_LASTRANK, 4)] (withProv { prov1 with colls := [{ idx := 0, order := 0, pframe := 0, step := 0, started := true }] } State.reset)), 1, 0, { idx := 0, order := 0, pframe := 0, step := 0, started := true }, _, rfl, by and_intros <;> decide +kernel⟩,
   ⟨(withFlds [(1, PROV_RANK_RANK, 1), (1, PROV_RANK_LASTRANK, 4), (7, TAL_CFG_PROV 63, 1), (7, TAL_CFG_EN 63, 1)] (withImage [(1480, 1, 96)] (withProv { prov1 with colls := [{ idx := 0, order := 0, pframe := 0, step := 0, started := true }] } State.reset))), 1, 0, 511, { idx := 0, order := 0, pframe := 0, step := 0, started := true }, _, rfl, by and_intros <;> decide +kernel⟩⟩

theorem test_hyp_ExclusionAndPatch :
    (∃ (s : State) (u : State) (p : Nat) (ord : Nat) (child : Nat) (x : Nat) (out : List Nat) (c : Coll) (d : CollDesc) (adopted : List Kid), d = (s.img p).coll c.idx ∧ x = s.gidx p d child ∧ out = x :: (c.kids.filter Kid.excluded).map Kid.rank ∧ adopted = (c.kids.filter (fun k => k.rank == x && !k.excluded)).flatMap (fun k => match (d.shards (s.gn p d))[k.shard]? with | some h => d.adopt (s.gn p d) h out k.acked (s.gn p d) x | none => []) ∧ u = (s.updColl p c.order (fun y => { y with kids := y.kids.map (fun k => if k.rank = x then { k with excluded := true } else k) ++ adopted, unacked := y.unacked.filter (fun a => a.dest != x || !a.copy) })).incFld 0 (RDE_PEVT_EXCL p) 1 ∧ (s.prov p).colls.find? (fun y => y.started && ((s.img p).coll y.idx).ord == ord) = some c ∧ d.mc = true ∧ d.sums = false ∧ x ≠ s.gr p d ∧ s.fld 0 RDE_MC_CTRL_EXCL ≠ 0 ∧ c.kids.any (fun k => k.rank == x && !k.excluded && decide (s.fld 0 RDE_MC_CTRL_EXCL ≤ k.atLimit)) = true) ∧
    (∃ (s : State) (p : Nat) (ord : Nat) (child : Nat) (x : Nat) (c : Coll) (d : CollDesc), d = (s.img p).coll c.idx ∧ x = s.gidx p d child ∧ x = s.gr p d ∧ (s.prov p).colls.find? (fun y => y.started && ((s.img p).coll y.idx).ord == ord) = some c ∧ d.mc = true ∧ d.sums = false ∧ s.fld 0 RDE_MC_CTRL_PATCH_EN = 0 ∧ c.need ≠ 0) ∧
    (∃ (s : State) (p : Nat) (ord : Nat) (child : Nat) (x : Nat) (c : Coll) (d : CollDesc), d = (s.img p).coll c.idx ∧ x = s.gidx p d child ∧ x = s.gr p d ∧ (s.prov p).colls.find? (fun y => y.started && ((s.img p).coll y.idx).ord == ord) = some c ∧ d.mc = true ∧ d.sums = false ∧ s.fld 0 RDE_MC_CTRL_PATCH_EN ≠ 0) ∧
    (∃ (s : State) (p : Nat) (ord : Nat) (step : Nat) (i : Nat) (segs : List Nat) (d : CollDesc), d = (s.img p).coll i ∧ s.patchColl p ord = some (i, step) ∧ s.fld 0 RDE_MC_CTRL_PATCH_EN ≠ 0 ∧ d.mc = true ∧ d.copies = true ∧ d.sums = false ∧ s.patchSegs p d segs ≠ [] ∧ (∀ y ∈ s.patchSegs p d segs, s.vpoison p (s.segSrc p d y.2.1 y.2.2).1 (s.segSrc p d y.2.1 y.2.2).2 = false)) :=
  ⟨⟨(withFlds [(1, PROV_RANK_RANK, 1), (1, PROV_RANK_LASTRANK, 4)] (withImage [(1472, 1, 1)] (withProv { prov1 with colls := [{ idx := 0, order := 0, pframe := 0, step := 0, started := true, kids := [{ shard := 0, rank := 3, atLimit := 64 }] }] } State.reset))), _, 1, 0, 3, _, _, { idx := 0, order := 0, pframe := 0, step := 0, started := true, kids := [{ shard := 0, rank := 3, atLimit := 64 }] }, _, _, rfl, rfl, rfl, rfl, rfl, by and_intros <;> decide +kernel⟩,
   ⟨(withFlds [(1, PROV_RANK_RANK, 1), (1, PROV_RANK_LASTRANK, 4), (0, RDE_MC_CTRL_PATCH_EN, 0)] (withImage [(1472, 1, 1)] (withProv { prov1 with colls := [{ idx := 0, order := 0, pframe := 0, step := 0, started := true, need := 1 }] } State.reset))), 1, 0, 1, _, { idx := 0, order := 0, pframe := 0, step := 0, started := true, need := 1 }, _, rfl, rfl, rfl, by and_intros <;> decide +kernel⟩,
   ⟨(withFlds [(1, PROV_RANK_RANK, 1), (1, PROV_RANK_LASTRANK, 4)] (withImage [(1472, 1, 1)] (withProv { prov1 with colls := [{ idx := 0, order := 0, pframe := 0, step := 0, started := true, kids := [{ shard := 0, rank := 3, atLimit := 64 }] }] } State.reset))), 1, 0, 1, _, { idx := 0, order := 0, pframe := 0, step := 0, started := true, kids := [{ shard := 0, rank := 3, atLimit := 64 }] }, _, rfl, rfl, rfl, by and_intros <;> decide +kernel⟩,
   ⟨(withFlds [(1, PROV_RANK_RANK, 0), (1, PROV_RANK_LASTRANK, 4)] (withImage [(1472, 1, 1), (1504, 8, 5)] (withProv { prov1 with colls := [{ idx := 0, order := 0, pframe := 0, step := 0, started := true, kids := [{ shard := 0, rank := 3, excluded := true }] }] } State.reset))), 1, 0, 0, 0, [0], _, rfl, by and_intros <;> decide +kernel⟩⟩

theorem test_hyp_ReceivedFramesAreClassified :
    (∃ (s : State) (u : State) (v : State) (port : Nat) (f : EthFrame), u = (match sizeBucket f.len with | some i => (s.ethStat port 2 f.len).ethStat port (17 + i) 1 | none => s.ethStat port 2 f.len) ∧ v = u.noteMsec port f ∧ port < 64 ∧ s.portUp port = true ∧ f.pcs = false ∧ f.fcsOk = false ∧ 64 ≤ f.len ∧ f.len ≤ s.fld port ETH_PORT_CTRL_MAXFRAME) ∧
    (∃ (s : State) (u : State) (v : State) (port : Nat) (f : EthFrame), u = (match sizeBucket f.len with | some i => (s.ethStat port 2 f.len).ethStat port (17 + i) 1 | none => s.ethStat port 2 f.len) ∧ v = u.noteMsec port f ∧ port < 64 ∧ s.portUp port = true ∧ f.pcs = false ∧ f.fcsOk = true ∧ f.len < 64) ∧
    (∃ (s : State) (u : State) (v : State) (port : Nat) (f : EthFrame), u = (match sizeBucket f.len with | some i => (s.ethStat port 2 f.len).ethStat port (17 + i) 1 | none => s.ethStat port 2 f.len) ∧ v = u.noteMsec port f ∧ port < 64 ∧ s.portUp port = true ∧ f.pcs = false ∧ f.fcsOk = true ∧ 64 ≤ f.len ∧ f.len ≤ s.fld port ETH_PORT_CTRL_MAXFRAME ∧ f.dst = 0x0180C2000001 ∧ f.etype = 0x8808) ∧
    (∃ (s : State) (u : State) (v : State) (port : Nat) (f : EthFrame), u = (match sizeBucket f.len with | some i => (s.ethStat port 2 f.len).ethStat port (17 + i) 1 | none => s.ethStat port 2 f.len) ∧ v = u.noteMsec port f ∧ port < 64 ∧ s.portUp port = true ∧ f.pcs = false ∧ f.fcsOk = true ∧ 64 ≤ f.len ∧ f.len ≤ s.fld port ETH_PORT_CTRL_MAXFRAME ∧ f.etype ≠ 0x8808 ∧ u.dstOk port f.dst = false) ∧
    (∃ (s : State) (u : State) (v : State) (port : Nat) (f : EthFrame), u = (match sizeBucket f.len with | some i => (s.ethStat port 2 f.len).ethStat port (17 + i) 1 | none => s.ethStat port 2 f.len) ∧ v = u.noteMsec port f ∧ port < 64 ∧ s.portUp port = true ∧ f.pcs = false ∧ f.fcsOk = true ∧ 64 ≤ f.len ∧ f.len ≤ s.fld port ETH_PORT_CTRL_MAXFRAME ∧ f.etype ≠ 0x8808 ∧ u.dstOk port f.dst = true ∧ f.tags.length ≤ 1 ∧ (∀ x ∈ f.tags, x % 4096 = 0 ∨ x % 4096 = s.fld port ETH_PORT_CTRL_VID) ∧ (s.fld port ETH_PORT_CTRL_MACSEC_EN ≠ 1 ∨ (s.fld 0 (NDX_MSEC_CTRL_SECURE port) = 1 ∧ f.macsec = true ∧ (s.port port).mrx ≤ f.mpn + s.fld 0 (NDX_MSEC_CTRL_REPLAY_WIN port))) ∧ (f.etype = s.fld 0 NDX_CTRL_ETHERTYPE ∨ f.udp = some (s.fld 0 NDX_CTRL_UDP_PORT)) ∧ f.refused = false ∧ v.rxUsed port f.prov + f.len ≤ v.rxPart port f.prov) ∧
    (∃ (s : State) (u : State) (v : State) (port : Nat) (f : EthFrame), u = (match sizeBucket f.len with | some i => (s.ethStat port 2 f.len).ethStat port (17 + i) 1 | none => s.ethStat port 2 f.len) ∧ v = u.noteMsec port f ∧ port < 64 ∧ s.portUp port = true ∧ f.pcs = false ∧ f.fcsOk = true ∧ 64 ≤ f.len ∧ f.len ≤ s.fld port ETH_PORT_CTRL_MAXFRAME ∧ f.etype ≠ 0x8808 ∧ u.dstOk port f.dst = true ∧ f.tags.length ≤ 1 ∧ (∀ x ∈ f.tags, x % 4096 = 0 ∨ x % 4096 = s.fld port ETH_PORT_CTRL_VID) ∧ (s.fld port ETH_PORT_CTRL_MACSEC_EN ≠ 1 ∨ (s.fld 0 (NDX_MSEC_CTRL_SECURE port) = 1 ∧ f.macsec = true ∧ (s.port port).mrx ≤ f.mpn + s.fld 0 (NDX_MSEC_CTRL_REPLAY_WIN port))) ∧ (f.etype = s.fld 0 NDX_CTRL_ETHERTYPE ∨ f.udp = some (s.fld 0 NDX_CTRL_UDP_PORT)) ∧ f.refused = false ∧ v.rxPart port f.prov < v.rxUsed port f.prov + f.len) :=
  ⟨⟨(withFlds [(3, (quarterFld 3), 1), (60, ETH_PORT_CTRL_EN, 1), (60, ETH_PORT_STATUS_LINK, 1), (60, ETH_PORT_STATUS_POWER, PW_ACTIVE)] (State.reset)), _, _, 60, ⟨9216, false, false, 0xFFFFFFFFFFFF, [], 0x88B5, false, none, false, false, 0, false, 0, [], none, none, 0⟩, rfl, rfl, by and_intros <;> decide +kernel⟩,
   ⟨(withFlds [(3, (quarterFld 3), 1), (60, ETH_PORT_CTRL_EN, 1), (60, ETH_PORT_STATUS_LINK, 1), (60, ETH_PORT_STATUS_POWER, PW_ACTIVE)] (State.reset)), _, _, 60, ⟨63, true, false, 0xFFFFFFFFFFFF, [], 0x88B5, false, none, false, false, 0, false, 0, [], none, none, 0⟩, rfl, rfl, by and_intros <;> decide +kernel⟩,
   ⟨(withFlds [(3, (quarterFld 3), 1), (60, ETH_PORT_CTRL_EN, 1), (60, ETH_PORT_STATUS_LINK, 1), (60, ETH_PORT_STATUS_POWER, PW_ACTIVE)] (State.reset)), _, _, 60, ⟨64, true, false, 0x0180C2000001, [], 0x8808, false, none, false, false, 0, false, 0, [], none, none, 0⟩, rfl, rfl, by and_intros <;> decide +kernel⟩,
   ⟨(withFlds [(3, (quarterFld 3), 1), (60, ETH_PORT_CTRL_EN, 1), (60, ETH_PORT_STATUS_LINK, 1), (60, ETH_PORT_STATUS_POWER, PW_ACTIVE)] (State.reset)), _, _, 60, ⟨64, true, false, 2, [], 0x88B5, false, none, false, false, 0, false, 0, [], none, none, 0⟩, rfl, rfl, by and_intros <;> decide +kernel⟩,
   ⟨(withFlds [(3, (quarterFld 3), 1), (60, ETH_PORT_CTRL_EN, 1), (60, ETH_PORT_STATUS_LINK, 1), (60, ETH_PORT_STATUS_POWER, PW_ACTIVE)] (State.reset)), _, _, 60, ⟨9216, true, false, 0xFFFFFFFFFFFF, [], 0x88B5, false, none, false, false, 0, false, 0, [], none, none, 0⟩, rfl, rfl, by and_intros <;> decide +kernel⟩,
   ⟨(withFlds [(3, (quarterFld 3), 1), (60, ETH_PORT_CTRL_EN, 1), (60, ETH_PORT_STATUS_LINK, 1), (60, ETH_PORT_STATUS_POWER, PW_ACTIVE)] ({ State.reset with net := { ports := [(60, { rxbuf := [(0, 200000)] })] } })), _, _, 60, ⟨9216, true, false, 0xFFFFFFFFFFFF, [], 0x88B5, false, none, false, false, 0, false, 0, [], none, none, 0⟩, rfl, rfl, by and_intros <;> decide +kernel⟩⟩

theorem test_hyp_PauseAndPriorityFlowControl :
    (∃ (port : Nat) (pri : Nat), port < 64 ∧ pri < 8) ∧
    (∃ (s : State) (port : Nat) (pri : Nat), port < 64 ∧ pri < 8 ∧ bitAt (s.fld port ETH_PFC_STATUS_XOFF) pri = true ∧ s.fld port ETH_PORT_STATUS_SINGLE = 1) ∧
    (∃ (s : State) (port : Nat) (pri : Nat), port < 64 ∧ pri < 8 ∧ bitAt (s.fld port ETH_PFC_STATUS_XOFF) pri = true ∧ s.fld port ETH_PORT_STATUS_SINGLE = 1 ∧ s.priMask port pri &&& s.pausePris port ≠ 0) ∧
    (∃ (s : State) (port : Nat) (pri : Nat), port < 64 ∧ pri < 8 ∧ s.fld port ETH_PORT_STATUS_SINGLE ≠ 1) ∧
    (∃ (port : Nat) (pri : Nat), port < 64 ∧ pri < 8) ∧
    (∃ (s : State) (port : Nat) (pri : Nat), port < 64 ∧ pri < 8 ∧ bitAt (s.fld port ETH_PFC_STATUS_XOFF) pri = true ∧ s.rxUsed port (s.fld port ETH_PORT_STATUS_OWNER) ≤ s.fld port ETH_PFC_CTRL_XON_KIB * 1024 * s.portLanes port) ∧
    (∃ (s : State) (port : Nat) (pri : Nat), port < 64 ∧ pri < 8 ∧ bitAt (s.fld port ETH_PFC_STATUS_TX_HELD) pri = true) ∧
    (∃ (s : State) (port : Nat) (pri : Nat), port < 64 ∧ pri < 8 ∧ bitAt (s.fld port ETH_PFC_STATUS_XOFF) pri = true) ∧
    (∃ (s : State) (port : Nat) (pri : Nat) (stuck : Bool), port < 64 ∧ pri < 8 ∧ (s.port port).recov.find? (fun x => x.1 == pri) = some (pri, stuck)) :=
  ⟨⟨60, 7, by and_intros <;> decide +kernel⟩,
   ⟨(withFlds [(3, (quarterFld 3), 1), (60, ETH_PORT_CTRL_EN, 1), (60, ETH_PORT_STATUS_LINK, 1), (60, ETH_PORT_STATUS_POWER, PW_ACTIVE), (60, ETH_PFC_STATUS_XOFF, 255), (60, ETH_PORT_STATUS_SINGLE, 1)] (State.reset)), 60, 7, by and_intros <;> decide +kernel⟩,
   ⟨(withFlds [(3, (quarterFld 3), 1), (60, ETH_PORT_CTRL_EN, 1), (60, ETH_PORT_STATUS_LINK, 1), (60, ETH_PORT_STATUS_POWER, PW_ACTIVE), (60, ETH_PFC_STATUS_XOFF, 255), (60, ETH_PORT_STATUS_SINGLE, 1), (60, ETH_PORT_CTRL_PAUSE_MODE, 1)] (State.reset)), 60, 7, by and_intros <;> decide +kernel⟩,
   ⟨(withFlds [(3, (quarterFld 3), 1), (60, ETH_PORT_CTRL_EN, 1), (60, ETH_PORT_STATUS_LINK, 1), (60, ETH_PORT_STATUS_POWER, PW_ACTIVE), (60, ETH_PFC_STATUS_XOFF, 255), (60, ETH_PFC_STATUS_TX_HELD, 255)] (State.reset)), 60, 7, by and_intros <;> decide +kernel⟩,
   ⟨60, 7, by and_intros <;> decide +kernel⟩,
   ⟨(withFlds [(3, (quarterFld 3), 1), (60, ETH_PORT_CTRL_EN, 1), (60, ETH_PORT_STATUS_LINK, 1), (60, ETH_PORT_STATUS_POWER, PW_ACTIVE), (60, ETH_PFC_STATUS_XOFF, 255), (60, ETH_PFC_STATUS_TX_HELD, 255)] (State.reset)), 60, 7, by and_intros <;> decide +kernel⟩,
   ⟨(withFlds [(3, (quarterFld 3), 1), (60, ETH_PORT_CTRL_EN, 1), (60, ETH_PORT_STATUS_LINK, 1), (60, ETH_PORT_STATUS_POWER, PW_ACTIVE), (60, ETH_PFC_STATUS_XOFF, 255), (60, ETH_PFC_STATUS_TX_HELD, 255)] (State.reset)), 60, 7, by and_intros <;> decide +kernel⟩,
   ⟨(withFlds [(3, (quarterFld 3), 1), (60, ETH_PORT_CTRL_EN, 1), (60, ETH_PORT_STATUS_LINK, 1), (60, ETH_PORT_STATUS_POWER, PW_ACTIVE), (60, ETH_PFC_STATUS_XOFF, 255), (60, ETH_PFC_STATUS_TX_HELD, 255)] (State.reset)), 60, 7, by and_intros <;> decide +kernel⟩,
   ⟨(withFlds [(60, ETH_PFC_STATUS_STORM, 128), (60, ETH_PFC_STATUS_STUCK, 128)] ({ State.reset with net := { ports := [(60, { recov := [(7, true), (7, false)] })] } })), 60, 7, true, by and_intros <;> decide +kernel⟩⟩

theorem test_hyp_TransmissionFollowsTheSlots :
    (∃ (s : State) (u : State) (port : Nat) (slot : Nat) (len : Nat) (present : Nat) (pri : Nat) (what : TxWhat), s.linkSend port slot (s.framePri port what pri) what = some u ∧ port < 64 ∧ s.portUp port = true ∧ s.fld port ETH_PORT_STATUS_POWER = PW_ACTIVE ∧ (s.port port).run = none ∧ s.fld 0 TST_STATUS_FATAL = 0 ∧ bitAt (s.fld port ETH_PFC_STATUS_TX_HELD) (s.framePri port what pri) = false ∧ (s.fld port ETH_PORT_CTRL_MACSEC_EN ≠ 1 ∨ s.fld 0 (NDX_MSEC_CTRL_SECURE port) ≠ 0 ∨ what = .eapol) ∧ 64 ≤ len ∧ len ≤ s.fld port ETH_PORT_CTRL_MAXFRAME ∧ min len (s.fld port ETH_TX_START_THRESH_CUR) ≤ present ∧ (s.portTable port).getD slot 0x0300 = s.frameOwner port what ∧ (s.stw.restarting = true → ofSteward what = false) ∧ slotsFor len (s.portRate port) s.frameLen ≤ runFrom (s.portTable port) slot) ∧
    (∃ (s : State) (port : Nat) (slot : Nat) (what : TxWhat), port < 64 ∧ (s.portTable port).getD slot 0x0300 ≠ s.frameOwner port what) ∧
    (∃ (port : Nat), port < 64) ∧
    (∃ (s : State) (port : Nat) (r : TxRun), port < 64 ∧ (s.port port).run = some r ∧ r.whole = false) ∧
    (∃ (s : State) (port : Nat) (r : TxRun), port < 64 ∧ (s.port port).run = some r) :=
  ⟨⟨(withFlds [(3, (quarterFld 3), 1), (60, ETH_PORT_CTRL_EN, 1), (60, ETH_PORT_STATUS_LINK, 1), (60, ETH_PORT_STATUS_POWER, PW_ACTIVE)] (State.reset)), ((withFlds [(3, (quarterFld 3), 1), (60, ETH_PORT_CTRL_EN, 1), (60, ETH_PORT_STATUS_LINK, 1), (60, ETH_PORT_STATUS_POWER, PW_ACTIVE)] (State.reset) : State).linkSend 60 0 ((withFlds [(3, (quarterFld 3), 1), (60, ETH_PORT_CTRL_EN, 1), (60, ETH_PORT_STATUS_LINK, 1), (60, ETH_PORT_STATUS_POWER, PW_ACTIVE)] (State.reset) : State).framePri 60 .steward 0) .steward).get (by decide +kernel), 60, 0, 9216, 256, 0, .steward, (Option.some_get _).symm, by and_intros <;> decide +kernel⟩,
   ⟨(withFlds [(3, (quarterFld 3), 1), (60, ETH_PORT_CTRL_EN, 1), (60, ETH_PORT_STATUS_LINK, 1), (60, ETH_PORT_STATUS_POWER, PW_ACTIVE)] (State.reset)), 60, 0, (.pkt 1 0 0 0), by and_intros <;> decide +kernel⟩,
   ⟨60, by decide +kernel⟩,
   ⟨(withFlds [(3, (quarterFld 3), 1), (60, ETH_PORT_CTRL_EN, 1), (60, ETH_PORT_STATUS_LINK, 1), (60, ETH_PORT_STATUS_POWER, PW_ACTIVE), (60, ETH_TX_START_THRESH_CUR, 9000)] ({ State.reset with net := { ports := [(60, { run := some { what := .steward, len := 64, whole := false, dstKind := 0 } })] } })), 60, { what := .steward, len := 64, whole := false, dstKind := 0 }, by and_intros <;> decide +kernel⟩,
   ⟨(withFlds [(3, (quarterFld 3), 1), (60, ETH_PORT_CTRL_EN, 1), (60, ETH_PORT_STATUS_LINK, 1), (60, ETH_PORT_STATUS_POWER, PW_ACTIVE)] ({ State.reset with net := { ports := [(60, { run := some { what := .steward, len := 64, whole := true, dstKind := 0 } })] } })), 60, { what := .steward, len := 64, whole := true, dstKind := 0 }, by and_intros <;> decide +kernel⟩⟩

theorem test_hyp_PortPowerStates :
    (∃ (s : State) (port : Nat), port < 64 ∧ s.portUp port = true ∧ s.fld port ETH_PARK_CTRL_LPI_EN = 1 ∧ s.fld port ETH_PORT_STATUS_SINGLE = 1 ∧ s.fld port ETH_PORT_STATUS_POWER = PW_ACTIVE ∧ (s.port port).run = none ∧ (s.port port).retrain = none) ∧
    (∃ (s : State) (port : Nat), port < 64 ∧ s.fld port ETH_PORT_STATUS_POWER = PW_PARKING ∧ (s.port port).retrain = none ∧ (s.port port).wakeNext = false) ∧
    (∃ (s : State) (port : Nat), port < 64 ∧ s.fld port ETH_PORT_STATUS_POWER = PW_PARKING ∧ (s.port port).retrain = none ∧ (s.port port).wakeNext = true) ∧
    (∃ (s : State) (port : Nat) (r : Retrain), port < 64 ∧ s.fld port ETH_PORT_STATUS_POWER = PW_PARKING ∧ (s.port port).retrain = some r) ∧
    (∃ (s : State) (port : Nat), port < 64 ∧ s.fld port ETH_PORT_STATUS_POWER = PW_PARKING) ∧
    (∃ (s : State) (port : Nat), port < 64 ∧ s.fld port ETH_PORT_STATUS_POWER = PW_PARKED ∧ (s.port port).retrain = none) ∧
    (∃ (s : State) (port : Nat), port < 64 ∧ s.fld port ETH_PORT_STATUS_POWER = PW_WAKING ∧ s.fld port ETH_PORT_STATUS_LINK = 1) ∧
    (∃ (s : State) (port : Nat) (devid : Nat) (octets : List (Nat × Nat)), port < 64 ∧ s.lightTraffic port octets = true ∧ s.mayLower port = true ∧ (s.link 0 devid).isSome = true) ∧
    (∃ (s : State) (port : Nat) (r : Retrain), port < 64 ∧ (s.port port).retrain = some r) :=
  ⟨⟨(withFlds [(3, (quarterFld 3), 1), (60, ETH_PORT_CTRL_EN, 1), (60, ETH_PORT_STATUS_LINK, 1), (60, ETH_PORT_STATUS_POWER, PW_ACTIVE), (60, ETH_PARK_CTRL_LPI_EN, 1), (60, ETH_PORT_STATUS_SINGLE, 1)] (State.reset)), 60, by and_intros <;> decide +kernel⟩,
   ⟨(withFlds [(60, ETH_PORT_STATUS_POWER, PW_PARKING)] (State.reset)), 60, by and_intros <;> decide +kernel⟩,
   ⟨(withFlds [(60, ETH_PORT_STATUS_POWER, PW_PARKING)] ({ State.reset with net := { ports := [(60, { wakeNext := true })] } })), 60, by and_intros <;> decide +kernel⟩,
   ⟨(withFlds [(60, ETH_PORT_STATUS_POWER, PW_PARKING)] ({ State.reset with net := { ports := [(60, { retrain := some .lower })] } })), 60, .lower, by and_intros <;> decide +kernel⟩,
   ⟨(withFlds [(60, ETH_PORT_STATUS_POWER, PW_PARKING)] (State.reset)), 60, by and_intros <;> decide +kernel⟩,
   ⟨(withFlds [(60, ETH_PORT_STATUS_POWER, PW_PARKED)] (State.reset)), 60, by and_intros <;> decide +kernel⟩,
   ⟨(withFlds [(60, ETH_PORT_STATUS_POWER, PW_WAKING), (60, ETH_PORT_STATUS_LINK, 1)] (State.reset)), 60, by and_intros <;> decide +kernel⟩,
   ⟨(withFlds [(3, (quarterFld 3), 1), (60, ETH_PORT_CTRL_EN, 1), (60, ETH_PORT_STATUS_LINK, 1), (60, ETH_PORT_STATUS_POWER, PW_ACTIVE), (60, ETH_PARK_CTRL_RATE_EN, 1), (60, ETH_PORT_STATUS_SINGLE, 1)] ({ State.reset with net := { links := [{ prov := 0, peer := 9, devid := 9 }] } })), 60, 9, (List.replicate 60 (0, 0)), by and_intros <;> decide +kernel⟩,
   ⟨(withFlds [(3, (quarterFld 3), 1), (60, ETH_PORT_CTRL_EN, 1), (60, ETH_PORT_STATUS_LINK, 1), (60, ETH_PORT_STATUS_POWER, PW_ACTIVE)] ({ State.reset with net := { ports := [(60, { retrain := some .lower })] } })), 60, .lower, by and_intros <;> decide +kernel⟩⟩

theorem test_hyp_PortLinksAndModes :
    (∃ (s : State) (port : Nat), port < 64 ∧ s.portLanes port ≠ 0 ∧ s.fld port ETH_PORT_CTRL_EN = 1 ∧ s.fld port ETH_PORT_STATUS_HELD = 0 ∧ (s.port port).retrain = none ∧ s.moduleDown port = false) ∧
    (∃ (s : State) (port : Nat), port < 64 ∧ s.fld port ETH_PORT_STATUS_LINK = 1 ∧ (s.port port).downs = [] ∧ 2 ≤ s.fld port ETH_PORT_CTRL_FLAP_LIMIT) ∧
    (∃ (s : State) (port : Nat), port < 64 ∧ s.fld port ETH_PORT_STATUS_LINK = 1 ∧ s.fld port ETH_PORT_CTRL_FLAP_LIMIT = 1) ∧
    (∃ (port : Nat), port < 64) ∧
    (∃ (s : State) (u : State) (port : Nat) (fdie : Nat) (value : Nat), u = (if bitAt value 31 = true then s.setFld fdie ETH_LANE_MODE_CFG_ERR 0 else s) ∧ port < 64 ∧ fdie < 4 ∧ (∀ q < 4, u.fld fdie (quarterFld q) = modesOf value q)) ∧
    (∃ (s : State) (u : State) (port : Nat) (fdie : Nat) (value : Nat), u = (if bitAt value 31 = true then s.setFld fdie ETH_LANE_MODE_CFG_ERR 0 else s) ∧ port < 64 ∧ fdie < 4 ∧ (∃ q < 4, u.fld fdie (quarterFld q) ≠ modesOf value q) ∧ (u.affected fdie value).any u.portInUse = true) ∧
    (∃ (s : State) (u : State) (port : Nat) (fdie : Nat) (value : Nat), u = (if bitAt value 31 = true then s.setFld fdie ETH_LANE_MODE_CFG_ERR 0 else s) ∧ port < 64 ∧ fdie < 4 ∧ (∃ q < 4, u.fld fdie (quarterFld q) ≠ modesOf value q) ∧ (u.affected fdie value).any u.portInUse = false ∧ (modesOf value 0 = 0 ↔ modesOf value 1 = 0) ∧ (modesOf value 2 = 0 ↔ modesOf value 3 = 0) ∧ (∀ q < 4, modesOf value q ≠ 7)) ∧
    (∃ (s : State) (port : Nat) (value : Nat), port < 64 ∧ s.portLanes port ≠ 0 ∧ bits value 1 1 = s.fld port ETH_PORT_CTRL_RATE) ∧
    (∃ (s : State) (port : Nat) (value : Nat), port < 64 ∧ s.portLanes port ≠ 0 ∧ bits value 1 1 ≠ s.fld port ETH_PORT_CTRL_RATE ∧ s.portInUse port = true) ∧
    (∃ (s : State) (port : Nat) (value : Nat), port < 64 ∧ s.portLanes port ≠ 0 ∧ bits value 1 1 ≠ s.fld port ETH_PORT_CTRL_RATE ∧ s.portInUse port = false) ∧
    (∃ (s : State) (port : Nat) (i : Nat), port < 64 ∧ s.portLanes port ≠ 0 ∧ i < 64) :=
  ⟨⟨(withFlds [(3, (quarterFld 3), 1), (60, ETH_PORT_CTRL_EN, 1)] (State.reset)), 60, by and_intros <;> decide +kernel⟩,
   ⟨(withFlds [(3, (quarterFld 3), 1), (60, ETH_PORT_CTRL_EN, 1), (60, ETH_PORT_STATUS_LINK, 1), (60, ETH_PORT_STATUS_POWER, PW_ACTIVE), (60, ETH_PORT_CTRL_FLAP_LIMIT, 2)] (State.reset)), 60, by and_intros <;> decide +kernel⟩,
   ⟨(withFlds [(3, (quarterFld 3), 1), (60, ETH_PORT_CTRL_EN, 1), (60, ETH_PORT_STATUS_LINK, 1), (60, ETH_PORT_STATUS_POWER, PW_ACTIVE), (60, ETH_PORT_CTRL_FLAP_LIMIT, 1)] (State.reset)), 60, by and_intros <;> decide +kernel⟩,
   ⟨60, by decide +kernel⟩,
   ⟨(withFlds [(3, (quarterFld 3), 1), (60, ETH_PORT_CTRL_EN, 1), (60, ETH_PORT_STATUS_LINK, 1), (60, ETH_PORT_STATUS_POWER, PW_ACTIVE)] (State.reset)), _, 60, 3, 0x3B6, rfl, by and_intros <;> decide +kernel⟩,
   ⟨(withFlds [(3, (quarterFld 3), 1), (60, ETH_PORT_CTRL_EN, 1), (60, ETH_PORT_STATUS_LINK, 1), (60, ETH_PORT_STATUS_POWER, PW_ACTIVE), (1, PROV_LINK_PORTS_PORTS, (2 ^ 60)), (1, PROV_LINK_SLOTS_SLOTS, 4)] ({ (withProv prov1 State.reset) with net := { ports := [(60, { shares := [(1, 4)] })] } })), _, 60, 3, 0x400, rfl, by and_intros <;> decide +kernel⟩,
   ⟨(withFlds [(3, (quarterFld 3), 1), (60, ETH_PORT_CTRL_EN, 1), (60, ETH_PORT_STATUS_LINK, 1), (60, ETH_PORT_STATUS_POWER, PW_ACTIVE)] (State.reset)), _, 60, 3, 0x240, rfl, by and_intros <;> decide +kernel⟩,
   ⟨(withFlds [(3, (quarterFld 3), 1), (60, ETH_PORT_CTRL_EN, 1), (60, ETH_PORT_STATUS_LINK, 1), (60, ETH_PORT_STATUS_POWER, PW_ACTIVE)] (State.reset)), 60, 0, by and_intros <;> decide +kernel⟩,
   ⟨(withFlds [(3, (quarterFld 3), 1), (60, ETH_PORT_CTRL_EN, 1), (60, ETH_PORT_STATUS_LINK, 1), (60, ETH_PORT_STATUS_POWER, PW_ACTIVE), (1, PROV_LINK_PORTS_PORTS, (2 ^ 60)), (1, PROV_LINK_SLOTS_SLOTS, 4)] ({ (withProv prov1 State.reset) with net := { ports := [(60, { shares := [(1, 4)] })] } })), 60, 2, by and_intros <;> decide +kernel⟩,
   ⟨(withFlds [(3, (quarterFld 3), 1), (60, ETH_PORT_CTRL_EN, 1), (60, ETH_PORT_STATUS_LINK, 1), (60, ETH_PORT_STATUS_POWER, PW_ACTIVE)] (State.reset)), 60, 2, by and_intros <;> decide +kernel⟩,
   ⟨(withFlds [(3, (quarterFld 3), 1), (60, ETH_PORT_CTRL_EN, 1), (60, ETH_PORT_STATUS_LINK, 1), (60, ETH_PORT_STATUS_POWER, PW_ACTIVE)] (State.reset)), 60, 63, by and_intros <;> decide +kernel⟩⟩

theorem test_hyp_LanesAndModules :
    (∃ (s : State) (lane : Nat) (n : Nat) (syms : Nat) (nbits : Nat), lane < 64 ∧ s.portOfLane lane = some n ∧ nbits < syms * 10 ^ s.fld n ETH_PORT_CTRL_BER_EXP) ∧
    (∃ (s : State) (lane : Nat) (n : Nat) (x : LaneSteer), lane < 64 ∧ s.portOfLane lane = some n ∧ s.errs.lanes = [x] ∧ x.lane = lane ∧ x.waiting = true ∧ (∀ y ∈ (s.port n).shares, (s.prov y.1).st ≠ .running ∨ s.otherPath y.1 n = true)) ∧
    (∃ (s : State) (lane : Nat) (n : Nat) (x : LaneSteer), lane < 64 ∧ s.portOfLane lane = some n ∧ s.errs.lanes = [x] ∧ x.lane = lane ∧ x.waiting = false ∧ x.judged = false) ∧
    (∃ (s : State) (lane : Nat) (n : Nat) (x : LaneSteer), lane < 64 ∧ s.portOfLane lane = some n ∧ s.errs.lanes = [x] ∧ x.lane = lane ∧ x.waiting = false ∧ x.judged = false) ∧
    (∃ (s : State) (u : State) (cage : Nat) (m : ModuleId) (mon : ModuleMon) (temp : Int) (hour : Bool), u = (s.setCage cage { (s.cage cage) with mon := some (temp, mon) }).updModule m.serial (fun r => { r with hours := if hour = true ∧ (s.cage cage).on = true then r.hours + 1 else r.hours, maxTemp := some (r.maxTemp.elim temp (max temp)), firstBias := if r.firstBias = [] then mon.bias else r.firstBias, lastBias := mon.bias }) ∧ cage < 32 ∧ (s.cage cage).module = some m) :=
  ⟨⟨(withFlds [(3, (quarterFld 3), 1), (60, ETH_PORT_CTRL_BER_EXP, 5)] (State.reset)), 63, 60, 1, 99999, by and_intros <;> decide +kernel⟩,
   ⟨(withFlds [(3, (quarterFld 3), 1)] ({ State.reset with errs := { lanes := [{ lane := 63, waiting := true, judged := false }] } })), 63, 60, { lane := 63, waiting := true, judged := false }, by and_intros <;> decide +kernel⟩,
   ⟨(withFlds [(3, (quarterFld 3), 1)] ({ State.reset with errs := { lanes := [{ lane := 63, waiting := false, judged := false }] } })), 63, 60, { lane := 63, waiting := false, judged := false }, by and_intros <;> decide +kernel⟩,
   ⟨(withFlds [(3, (quarterFld 3), 1)] ({ State.reset with errs := { lanes := [{ lane := 63, waiting := false, judged := false }] } })), 63, 60, { lane := 63, waiting := false, judged := false }, by and_intros <;> decide +kernel⟩,
   ⟨{ State.reset with net := { cages := [(31, { module := some { serial := 5, cmis := 5, apps := [(4, 200)], power := 1 } })] } }, _, 31, { serial := 5, cmis := 5, apps := [(4, 200)], power := 1 }, { volt := 33, bias := [3], tx := [4], rx := [5] }, -5, false, rfl, by and_intros <;> decide +kernel⟩⟩

theorem test_hyp_PacketsAreCheckedInOrder :
    (∃ (s : State) (port : Nat) (p : NdxPkt) (l : Link), port < 64 ∧ 1 ≤ p.type ∧ p.type ≤ 4 ∧ s.net.links.find? (fun l => l.dlid == p.dlid && l.keyed && !l.lost) = none ∧ p.body.type ≠ p.type) ∧
    (∃ (s : State) (port : Nat) (p : NdxPkt) (l : Link), port < 64 ∧ 1 ≤ p.type ∧ p.type ≤ 4 ∧ s.net.links.find? (fun l => l.dlid == p.dlid && l.keyed && !l.lost) = none ∧ p.body.type = p.type) ∧
    (∃ (s : State) (u : State) (port : Nat) (p : NdxPkt) (l : Link), u = s.rxFree port l.prov ∧ port < 64 ∧ 1 ≤ p.type ∧ p.type ≤ 4 ∧ s.net.links.find? (fun l => l.dlid == p.dlid && l.keyed && !l.lost) = some l ∧ p.body.type = p.type ∧ p.ver ≠ l.ver) ∧
    (∃ (s : State) (u : State) (port : Nat) (p : NdxPkt) (l : Link), u = s.rxFree port l.prov ∧ port < 64 ∧ 1 ≤ p.type ∧ p.type ≤ 4 ∧ s.net.links.find? (fun l => l.dlid == p.dlid && l.keyed && !l.lost) = some l ∧ p.body.type = p.type ∧ p.ver = l.ver ∧ u.ranksOk l p = false) ∧
    (∃ (s : State) (u : State) (port : Nat) (p : NdxPkt) (l : Link), u = s.rxFree port l.prov ∧ port < 64 ∧ 1 ≤ p.type ∧ p.type ≤ 4 ∧ s.net.links.find? (fun l => l.dlid == p.dlid && l.keyed && !l.lost) = some l ∧ p.body.type = p.type ∧ p.ver = l.ver ∧ u.ranksOk l p = true ∧ l.rxKey p.kphase = none) ∧
    (∃ (s : State) (u : State) (port : Nat) (p : NdxPkt) (l : Link) (k : RxKey), u = s.rxFree port l.prov ∧ port < 64 ∧ 1 ≤ p.type ∧ p.type ≤ 4 ∧ s.net.links.find? (fun l => l.dlid == p.dlid && l.keyed && !l.lost) = some l ∧ p.body.type = p.type ∧ p.ver = l.ver ∧ u.ranksOk l p = true ∧ l.rxKey p.kphase = some k ∧ k.passes p.pn = false) ∧
    (∃ (s : State) (u : State) (port : Nat) (p : NdxPkt) (l : Link) (k : RxKey), u = s.rxFree port l.prov ∧ port < 64 ∧ 1 ≤ p.type ∧ p.type ≤ 4 ∧ s.net.links.find? (fun l => l.dlid == p.dlid && l.keyed && !l.lost) = some l ∧ p.body.type = p.type ∧ p.ver = l.ver ∧ u.ranksOk l p = true ∧ l.rxKey p.kphase = some k ∧ k.passes p.pn = true ∧ p.tagOk = false) ∧
    (∃ (s : State) (u : State) (port : Nat) (p : NdxPkt) (l : Link) (k : RxKey), u = s.rxFree port l.prov ∧ port < 64 ∧ 1 ≤ p.type ∧ p.type ≤ 4 ∧ s.net.links.find? (fun l => l.dlid == p.dlid && l.keyed && !l.lost) = some l ∧ p.body.type = p.type ∧ p.ver = l.ver ∧ u.ranksOk l p = true ∧ l.rxKey p.kphase = some k ∧ k.passes p.pn = true ∧ p.tagOk = true ∧ p.epoch ≠ u.linkEpoch l) ∧
    (∃ (s : State) (u : State) (w : State) (port : Nat) (p : NdxPkt) (l : Link) (k : RxKey), u = s.rxFree port l.prov ∧ w = ((u.ndxCnt 1 1).ndxCnt 7 (b01 p.ce)).updLink l.prov l.peer (fun x => { (x.noteKey p.kphase p.pn) with mer := p.mer, paths := if x.paths.contains p.path = true then x.paths else x.paths ++ [p.path], heard := Sparse.set 0 x.heard p.path u.frameTime }) ∧ port < 64 ∧ 1 ≤ p.type ∧ p.type ≤ 4 ∧ s.net.links.find? (fun l => l.dlid == p.dlid && l.keyed && !l.lost) = some l ∧ p.body.type = p.type ∧ p.ver = l.ver ∧ u.ranksOk l p = true ∧ l.rxKey p.kphase = some k ∧ k.passes p.pn = true ∧ p.tagOk = true ∧ p.epoch = u.linkEpoch l ∧ p.body = .keepalive) ∧
    (∃ (s : State) (u : State) (w : State) (port : Nat) (cum : Nat) (sack : Nat) (ce : Nat) (st : Nat) (p : NdxPkt) (l : Link) (k : RxKey), u = s.rxFree port l.prov ∧ w = ((u.ndxCnt 1 1).ndxCnt 7 (b01 p.ce)).updLink l.prov l.peer (fun x => { (x.noteKey p.kphase p.pn) with mer := p.mer, paths := if x.paths.contains p.path = true then x.paths else x.paths ++ [p.path], heard := Sparse.set 0 x.heard p.path u.frameTime }) ∧ port < 64 ∧ 1 ≤ p.type ∧ p.type ≤ 4 ∧ s.net.links.find? (fun l => l.dlid == p.dlid && l.keyed && !l.lost) = some l ∧ p.body.type = p.type ∧ p.ver = l.ver ∧ u.ranksOk l p = true ∧ l.rxKey p.kphase = some k ∧ k.passes p.pn = true ∧ p.tagOk = true ∧ p.epoch = u.linkEpoch l ∧ p.body = .ack cum sack ce st) ∧
    (∃ (s : State) (u : State) (w : State) (port : Nat) (p : NdxPkt) (l : Link) (m : Link) (k : RxKey), u = s.rxFree port l.prov ∧ w = ((u.ndxCnt 1 1).ndxCnt 7 (b01 p.ce)).updLink l.prov l.peer (fun x => { (x.noteKey p.kphase p.pn) with mer := p.mer, paths := if x.paths.contains p.path = true then x.paths else x.paths ++ [p.path], heard := Sparse.set 0 x.heard p.path u.frameTime }) ∧ port < 64 ∧ 1 ≤ p.type ∧ p.type ≤ 4 ∧ s.net.links.find? (fun l => l.dlid == p.dlid && l.keyed && !l.lost) = some l ∧ p.body.type = p.type ∧ p.ver = l.ver ∧ u.ranksOk l p = true ∧ l.rxKey p.kphase = some k ∧ k.passes p.pn = true ∧ p.tagOk = true ∧ p.epoch = u.linkEpoch l ∧ (p.type = 1 ∨ p.type = 4) ∧ w.link l.prov l.peer = some m) :=
  ⟨⟨State.reset, 60, { ver := 1, type := 4, kphase := false, ackreq := false, mer := 2, stream := 0, path := 60, srank := 3, drank := 0, dlid := 7, pn := 5, psn := 0, epoch := 0, ce := true, tagOk := true, devid := 9, room := true, body := .keepalive }, { prov := 1, peer := 3, devid := 9, keyed := true, ver := 1, dlid := 7, rx0 := { high := 1029, seen := [1029, 6] } }, by and_intros <;> decide +kernel⟩,
   ⟨State.reset, 60, { ver := 1, type := 3, kphase := false, ackreq := false, mer := 2, stream := 0, path := 60, srank := 3, drank := 0, dlid := 7, pn := 5, psn := 0, epoch := 0, ce := true, tagOk := true, devid := 9, room := true, body := .keepalive }, { prov := 1, peer := 3, devid := 9, keyed := true, ver := 1, dlid := 7, rx0 := { high := 1029, seen := [1029, 6] } }, by and_intros <;> decide +kernel⟩,
   ⟨{ State.reset with net := { links := [{ prov := 1, peer := 3, devid := 9, keyed := true, ver := 1, dlid := 7, rx0 := { high := 1029, seen := [1029, 6] } }] } }, _, 60, { ver := 2, type := 3, kphase := false, ackreq := false, mer := 2, stream := 0, path := 60, srank := 3, drank := 0, dlid := 7, pn := 5, psn := 0, epoch := 0, ce := true, tagOk := true, devid := 9, room := true, body := .keepalive }, { prov := 1, peer := 3, devid := 9, keyed := true, ver := 1, dlid := 7, rx0 := { high := 1029, seen := [1029, 6] } }, rfl, by and_intros <;> decide +kernel⟩,
   ⟨{ State.reset with net := { links := [{ prov := 1, peer := 3, devid := 9, keyed := true, ver := 1, dlid := 7, rx0 := { high := 1029, seen := [1029, 6] } }] } }, _, 60, { ver := 1, type := 3, kphase := false, ackreq := false, mer := 2, stream := 0, path := 60, srank := 4, drank := 0, dlid := 7, pn := 5, psn := 0, epoch := 0, ce := true, tagOk := true, devid := 9, room := true, body := .keepalive }, { prov := 1, peer := 3, devid := 9, keyed := true, ver := 1, dlid := 7, rx0 := { high := 1029, seen := [1029, 6] } }, rfl, by and_intros <;> decide +kernel⟩,
   ⟨{ State.reset with net := { links := [{ prov := 1, peer := 3, devid := 9, keyed := true, ver := 1, dlid := 7, rx0 := { high := 1029, seen := [1029, 6] } }] } }, _, 60, { ver := 1, type := 3, kphase := true, ackreq := false, mer := 2, stream := 0, path := 60, srank := 3, drank := 0, dlid := 7, pn := 5, psn := 0, epoch := 0, ce := true, tagOk := true, devid := 9, room := true, body := .keepalive }, { prov := 1, peer := 3, devid := 9, keyed := true, ver := 1, dlid := 7, rx0 := { high := 1029, seen := [1029, 6] } }, rfl, by and_intros <;> decide +kernel⟩,
   ⟨{ State.reset with net := { links := [{ prov := 1, peer := 3, devid := 9, keyed := true, ver := 1, dlid := 7, rx0 := { high := 1029, seen := [1029, 6] } }] } }, _, 60, { ver := 1, type := 3, kphase := false, ackreq := false, mer := 2, stream := 0, path := 60, srank := 3, drank := 0, dlid := 7, pn := 4, psn := 0, epoch := 0, ce := true, tagOk := true, devid := 9, room := true, body := .keepalive }, { prov := 1, peer := 3, devid := 9, keyed := true, ver := 1, dlid := 7, rx0 := { high := 1029, seen := [1029, 6] } }, { high := 1029, seen := [1029, 6] }, rfl, by and_intros <;> decide +kernel⟩,
   ⟨{ State.reset with net := { links := [{ prov := 1, peer := 3, devid := 9, keyed := true, ver := 1, dlid := 7, rx0 := { high := 1029, seen := [1029, 6] } }] } }, _, 60, { ver := 1, type := 3, kphase := false, ackreq := false, mer := 2, stream := 0, path := 60, srank := 3, drank := 0, dlid := 7, pn := 5, psn := 0, epoch := 0, ce := true, tagOk := false, devid := 9, room := true, body := .keepalive }, { prov := 1, peer := 3, devid := 9, keyed := true, ver := 1, dlid := 7, rx0 := { high := 1029, seen := [1029, 6] } }, { high := 1029, seen := [1029, 6] }, rfl, by and_intros <;> decide +kernel⟩,
   ⟨{ State.reset with net := { links := [{ prov := 1, peer := 3, devid := 9, keyed := true, ver := 1, dlid := 7, rx0 := { high := 1029, seen := [1029, 6] } }] } }, _, 60, { ver := 1, type := 3, kphase := false, ackreq := false, mer := 2, stream := 0, path := 60, srank := 3, drank := 0, dlid := 7, pn := 5, psn := 0, epoch := 1, ce := true, tagOk := true, devid := 9, room := true, body := .keepalive }, { prov := 1, peer := 3, devid := 9, keyed := true, ver := 1, dlid := 7, rx0 := { high := 1029, seen := [1029, 6] } }, { high := 1029, seen := [1029, 6] }, rfl, by and_intros <;> decide +kernel⟩,
   ⟨{ State.reset with net := { links := [{ prov := 1, peer := 3, devid := 9, keyed := true, ver := 1, dlid := 7, rx0 := { high := 1029, seen := [1029, 6] } }] } }, _, _, 60, { ver := 1, type := 3, kphase := false, ackreq := false, mer := 2, stream := 0, path := 60, srank := 3, drank := 0, dlid := 7, pn := 5, psn := 0, epoch := 0, ce := true, tagOk := true, devid := 9, room := true, body := .keepalive }, { prov := 1, peer := 3, devid := 9, keyed := true, ver := 1, dlid := 7, rx0 := { high := 1029, seen := [1029, 6] } }, { high := 1029, seen := [1029, 6] }, rfl, rfl, by and_intros <;> decide +kernel⟩,
   ⟨{ State.reset with net := { links := [{ prov := 1, peer := 3, devid := 9, keyed := true, ver := 1, dlid := 7, rx0 := { high := 1029, seen := [1029, 6] } }] } }, _, _, 60, 1, 0, 0, 0, { ver := 1, type := 2, kphase := false, ackreq := false, mer := 2, stream := 0, path := 60, srank := 3, drank := 0, dlid := 7, pn := 5, psn := 0, epoch := 0, ce := true, tagOk := true, devid := 9, room := true, body := .ack 1 0 0 0 }, { prov := 1, peer := 3, devid := 9, keyed := true, ver := 1, dlid := 7, rx0 := { high := 1029, seen := [1029, 6] } }, { high := 1029, seen := [1029, 6] }, rfl, rfl, by and_intros <;> decide +kernel⟩,
   ⟨{ State.reset with net := { links := [{ prov := 1, peer := 3, devid := 9, keyed := true, ver := 1, dlid := 7, rx0 := { high := 1029, seen := [1029, 6] } }] } }, _, _, 60, { ver := 1, type := 4, kphase := false, ackreq := false, mer := 2, stream := 0, path := 60, srank := 3, drank := 0, dlid := 7, pn := 5, psn := 0, epoch := 0, ce := true, tagOk := true, devid := 9, room := true, body := .close }, { prov := 1, peer := 3, devid := 9, keyed := true, ver := 1, dlid := 7, rx0 := { high := 1029, seen := [1029, 6] } }, { ({ prov := 1, peer := 3, devid := 9, keyed := true, ver := 1, dlid := 7, rx0 := { high := 1029, seen := [1029, 6] } } : Link).noteKey false 5 with mer := 2, paths := [60], heard := [] }, { high := 1029, seen := [1029, 6] }, rfl, rfl, by and_intros <;> decide +kernel⟩⟩

theorem test_hyp_LinksRetransmitAndStayAlive :
    (∃ (s : State) (prov : Nat) (peer : Nat) (stream : Nat) (sack : Nat) (l : Link) (r : RxStream), r = Sparse.get RxStream.init l.rx stream ∧ sack = (if l.ver = 1 then 0 else r.held.foldl (fun n x => if 1 ≤ psnDist x.1 r.next ∧ psnDist x.1 r.next ≤ 64 then n ||| 2 ^ (psnDist x.1 r.next - 1) else n) 0) ∧ s.link prov peer = some l ∧ l.keyed = true ∧ l.lost = false ∧ s.ackDue r = true) ∧
    (∃ (s : State) (prov : Nat) (peer : Nat) (l : Link) (r : RxStream), (s.fld 0 NDX_RELY_ACK_EVERY ≤ r.fresh ∨ r.ask = true ∨ r.since + s.fld 0 NDX_RELY_ACK_US * 1000 ≤ s.frameTime) ∧ s.link prov peer = some l ∧ r.fresh ≠ 0) ∧
    (∃ (s : State) (prov : Nat) (peer : Nat) (stream : Nat) (psn : Nat) (l : Link) (k : TxPkt), s.link prov peer = some l ∧ l.pkt stream psn = some k ∧ l.lost = false ∧ k.due = false ∧ k.port.isSome = true ∧ s.mayBe (k.sentAt + s.fld 0 NDX_RELY_RTO_US * 1000 * min 64 (2 ^ k.retries)) = true ∧ max 1 (s.fld 0 NDX_RELY_RETRY_LIMIT) ≤ k.retries + 1) ∧
    (∃ (s : State) (prov : Nat) (peer : Nat) (stream : Nat) (psn : Nat) (l : Link) (k : TxPkt), s.link prov peer = some l ∧ l.pkt stream psn = some k ∧ l.lost = false ∧ k.due = false ∧ k.port.isSome = true ∧ s.mayBe (k.sentAt + s.fld 0 NDX_RELY_RTO_US * 1000 * min 64 (2 ^ k.retries)) = true ∧ k.retries + 1 < max 1 (s.fld 0 NDX_RELY_RETRY_LIMIT)) ∧
    (∃ (s : State) (prov : Nat) (peer : Nat) (l : Link), s.link prov peer = some l ∧ l.lost = false ∧ s.lossDue l = true) ∧
    (∃ (s : State) (prov : Nat) (peer : Nat) (port : Nat) (l : Link), s.link prov peer = some l ∧ port < 64 ∧ s.fld port ETH_PORT_STATUS_LINK = 1 ∧ l.keyed = true ∧ l.lost = false ∧ s.fld port ETH_PORT_STATUS_POWER ≠ PW_PARKING ∧ s.fld port ETH_PORT_STATUS_POWER ≠ PW_PARKED ∧ s.mayBe (Sparse.get 0 l.spoke port + s.fld 0 NDX_LIVE_KA_US * 1000) = true ∧ (s.linkPorts l).contains port = true) ∧
    (∃ (s : State) (prov : Nat) (peer : Nat) (port : Nat) (l : Link), s.link prov peer = some l ∧ port < 64 ∧ s.fld port ETH_PORT_STATUS_LINK = 1 ∧ s.fld port ETH_PORT_STATUS_POWER = PW_ACTIVE ∧ s.mayBe (Sparse.get 0 l.heard port + 4 * s.fld 0 NDX_LIVE_KA_US * 1000) = true) :=
  ⟨⟨{ State.reset with net := { links := [{ prov := 1, peer := 3, devid := 9, keyed := true, ver := 1, rx := [(31, { next := 2, fresh := 1, ask := true })] }] } }, 1, 3, 31, _, { prov := 1, peer := 3, devid := 9, keyed := true, ver := 1, rx := [(31, { next := 2, fresh := 1, ask := true })] }, _, rfl, rfl, by and_intros <;> decide +kernel⟩,
   ⟨{ State.reset with net := { links := [{ prov := 1, peer := 3, devid := 9, keyed := true, ver := 1, rx := [(31, { next := 2, fresh := 1, ask := true })] }] } }, 1, 3, { prov := 1, peer := 3, devid := 9, keyed := true, ver := 1, rx := [(31, { next := 2, fresh := 1, ask := true })] }, { fresh := 1, ask := true }, Or.inr (Or.inl rfl), by and_intros <;> decide +kernel⟩,
   ⟨(withFlds [(0, NDX_RELY_RTO_US, 0), (0, NDX_LIVE_LOST_MS, 0), (0, NDX_LIVE_KA_US, 0)] ({ State.reset with net := { links := [{ prov := 1, peer := 3, devid := 9, keyed := true, ver := 1, tx := [(31, { next := 5, pkts := [{ psn := 4, body := .close, die := none, port := some 60, retries := 15, due := false }] })] }] } })), 1, 3, 31, 4, { prov := 1, peer := 3, devid := 9, keyed := true, ver := 1, tx := [(31, { next := 5, pkts := [{ psn := 4, body := .close, die := none, port := some 60, retries := 15, due := false }] })] }, { psn := 4, body := .close, die := none, port := some 60, retries := 15, due := false }, by and_intros <;> decide +kernel⟩,
   ⟨(withFlds [(0, NDX_RELY_RTO_US, 0), (0, NDX_LIVE_LOST_MS, 0), (0, NDX_LIVE_KA_US, 0)] ({ State.reset with net := { links := [{ prov := 1, peer := 3, devid := 9, keyed := true, ver := 2, tx := [(31, { next := 5, pkts := [{ psn := 4, body := .close, die := none, port := some 60, retries := 14, due := false }] })] }] } })), 1, 3, 31, 4, { prov := 1, peer := 3, devid := 9, keyed := true, ver := 2, tx := [(31, { next := 5, pkts := [{ psn := 4, body := .close, die := none, port := some 60, retries := 14, due := false }] })] }, { psn := 4, body := .close, die := none, port := some 60, retries := 14, due := false }, by and_intros <;> decide +kernel⟩,
   ⟨(withFlds [(0, NDX_RELY_RTO_US, 0), (0, NDX_LIVE_LOST_MS, 0), (0, NDX_LIVE_KA_US, 0)] ({ State.reset with net := { links := [{ prov := 1, peer := 3, devid := 9, keyed := true, ver := 1, rx := [(31, { next := 2, fresh := 1, ask := true })] }] } })), 1, 3, { prov := 1, peer := 3, devid := 9, keyed := true, ver := 1, rx := [(31, { next := 2, fresh := 1, ask := true })] }, by and_intros <;> decide +kernel⟩,
   ⟨(withFlds [(0, NDX_RELY_RTO_US, 0), (0, NDX_LIVE_LOST_MS, 0), (0, NDX_LIVE_KA_US, 0)] (withFlds [(3, (quarterFld 3), 1), (60, ETH_PORT_CTRL_EN, 1), (60, ETH_PORT_STATUS_LINK, 1), (60, ETH_PORT_STATUS_POWER, PW_ACTIVE), (1, PROV_LINK_PORTS_PORTS, (2 ^ 60))] ({ State.reset with net := { links := [{ prov := 1, peer := 3, devid := 9, keyed := true, ver := 1, rx := [(31, { next := 2, fresh := 1, ask := true })] }] } }))), 1, 3, 60, { prov := 1, peer := 3, devid := 9, keyed := true, ver := 1, rx := [(31, { next := 2, fresh := 1, ask := true })] }, by and_intros <;> decide +kernel⟩,
   ⟨(withFlds [(0, NDX_RELY_RTO_US, 0), (0, NDX_LIVE_LOST_MS, 0), (0, NDX_LIVE_KA_US, 0)] (withFlds [(3, (quarterFld 3), 1), (60, ETH_PORT_CTRL_EN, 1), (60, ETH_PORT_STATUS_LINK, 1), (60, ETH_PORT_STATUS_POWER, PW_ACTIVE), (1, PROV_LINK_PORTS_PORTS, (2 ^ 60))] ({ State.reset with net := { links := [{ prov := 1, peer := 3, devid := 9, keyed := true, ver := 1, rx := [(31, { next := 2, fresh := 1, ask := true })] }] } }))), 1, 3, 60, { prov := 1, peer := 3, devid := 9, keyed := true, ver := 1, rx := [(31, { next := 2, fresh := 1, ask := true })] }, by and_intros <;> decide +kernel⟩⟩

theorem test_hyp_KeysAreAgreedAndRenewed :
    (∃ (s : State) (devid : Nat) (n : Nat) (l : Link), s.link 0 devid = some l ∧ s.lowerEnd l = true ∧ s.hsPort devid = some n ∧ l.wantsKeys = true ∧ l.hellos < 50) ∧
    (∃ (s : State) (devid : Nat) (n : Nat) (l : Link), s.link 0 devid = some l ∧ s.lowerEnd l = true ∧ s.hsPort devid = some n ∧ l.keyed = true ∧ l.handshaking = false) ∧
    (∃ (s : State) (devid : Nat) (n : Nat) (l : Link), s.link 0 devid = some l ∧ s.lowerEnd l = true ∧ s.hsPort devid = some n ∧ l.wantsKeys = true ∧ 50 < l.hellos) ∧
    (∃ (s : State) (u : State) (devid : Nat) (n : Nat) (l : Link), u = (s.setFld 0 NDX_STATUS_HS_FAIL 1).raise { cause := HANDSHAKE_FAIL, die := 12, aux := devid } ∧ s.link 0 devid = some l ∧ s.lowerEnd l = true ∧ s.hsPort devid = some n ∧ l.wantsKeys = true ∧ l.hellos = 50 ∧ (u.hsPort devid).isSome = true) ∧
    (∃ (s : State) (devid : Nat) (n : Nat) (l : Link), s.link 0 devid = some l ∧ s.lowerEnd l = true ∧ s.hsPort devid = some n) ∧
    (∃ (s : State) (prov : Nat) (peer : Nat) (l : Link), s.link prov peer = some l ∧ l.keyed = true ∧ l.lost = false ∧ l.renewing = false ∧ s.keyDue l = true ∧ s.lowerEnd l = true) ∧
    (∃ (s : State) (prov : Nat) (peer : Nat) (l : Link), s.link prov peer = some l ∧ l.keyed = true ∧ l.lost = false ∧ l.renewing = false ∧ s.keyDue l = true ∧ s.lowerEnd l = false) ∧
    (∃ (s : State) (port : Nat), port < 64 ∧ s.fld port ETH_PORT_CTRL_MACSEC_EN = 1 ∧ s.fld 0 (NDX_MSEC_CTRL_CAK_VALID port) = 1 ∧ s.fld port ETH_PORT_STATUS_LINK = 1 ∧ s.fld 0 (NDX_MSEC_CTRL_SECURE port) = 0) ∧
    (∃ (s : State) (port : Nat), port < 64 ∧ s.fld port ETH_PORT_CTRL_MACSEC_EN = 1) ∧
    (∃ (s : State) (port : Nat), port < 64 ∧ s.fld port ETH_PORT_CTRL_MACSEC_EN = 1 ∧ s.fld 0 (NDX_MSEC_CTRL_SECURE port) = 1 ∧ (s.port port).keyServer = true ∧ 0xC000000000000000 ≤ (s.port port).mtx) :=
  ⟨⟨(withFlds [(3, (quarterFld 3), 1), (60, ETH_PORT_CTRL_EN, 1), (60, ETH_PORT_STATUS_LINK, 1), (60, ETH_PORT_STATUS_POWER, PW_ACTIVE), (1, PROV_LINK_PORTS_PORTS, (2 ^ 60)), (1, PROV_RANK_LASTRANK, 1)] ({ (withProv { prov1 with ranktab := [{ rank := some 0, state := 0, encap := 0, addr := [], devid := 0 }, { rank := some 1, state := 0, encap := 0, addr := [], devid := 9 }] } State.reset) with net := { links := [{ prov := 0, peer := 9, devid := 9, hellos := 49 }, { prov := 1, peer := 3, devid := 9, keyed := false }] } })), 9, 60, { prov := 0, peer := 9, devid := 9, hellos := 49 }, by and_intros <;> decide +kernel⟩,
   ⟨(withFlds [(3, (quarterFld 3), 1), (60, ETH_PORT_CTRL_EN, 1), (60, ETH_PORT_STATUS_LINK, 1), (60, ETH_PORT_STATUS_POWER, PW_ACTIVE), (1, PROV_LINK_PORTS_PORTS, (2 ^ 60)), (1, PROV_RANK_LASTRANK, 1)] ({ (withProv { prov1 with ranktab := [{ rank := some 0, state := 0, encap := 0, addr := [], devid := 0 }, { rank := some 1, state := 0, encap := 0, addr := [], devid := 9 }] } State.reset) with net := { links := [{ prov := 0, peer := 9, devid := 9, keyed := true }, { prov := 1, peer := 3, devid := 9, keyed := false }] } })), 9, 60, { prov := 0, peer := 9, devid := 9, keyed := true }, by and_intros <;> decide +kernel⟩,
   ⟨(withFlds [(3, (quarterFld 3), 1), (60, ETH_PORT_CTRL_EN, 1), (60, ETH_PORT_STATUS_LINK, 1), (60, ETH_PORT_STATUS_POWER, PW_ACTIVE), (1, PROV_LINK_PORTS_PORTS, (2 ^ 60)), (1, PROV_RANK_LASTRANK, 1)] ({ (withProv { prov1 with ranktab := [{ rank := some 0, state := 0, encap := 0, addr := [], devid := 0 }, { rank := some 1, state := 0, encap := 0, addr := [], devid := 9 }] } State.reset) with net := { links := [{ prov := 0, peer := 9, devid := 9, handshaking := true, hellos := 51 }, { prov := 1, peer := 3, devid := 9, keyed := false }] } })), 9, 60, { prov := 0, peer := 9, devid := 9, handshaking := true, hellos := 51 }, by and_intros <;> decide +kernel⟩,
   ⟨(withFlds [(3, (quarterFld 3), 1), (60, ETH_PORT_CTRL_EN, 1), (60, ETH_PORT_STATUS_LINK, 1), (60, ETH_PORT_STATUS_POWER, PW_ACTIVE), (1, PROV_LINK_PORTS_PORTS, (2 ^ 60)), (1, PROV_RANK_LASTRANK, 1)] ({ (withProv { prov1 with ranktab := [{ rank := some 0, state := 0, encap := 0, addr := [], devid := 0 }, { rank := some 1, state := 0, encap := 0, addr := [], devid := 9 }] } State.reset) with net := { links := [{ prov := 0, peer := 9, devid := 9, handshaking := true, hellos := 50 }, { prov := 1, peer := 3, devid := 9, keyed := false }] } })), _, 9, 60, { prov := 0, peer := 9, devid := 9, handshaking := true, hellos := 50 }, rfl, by and_intros <;> decide +kernel⟩,
   ⟨(withFlds [(3, (quarterFld 3), 1), (60, ETH_PORT_CTRL_EN, 1), (60, ETH_PORT_STATUS_LINK, 1), (60, ETH_PORT_STATUS_POWER, PW_ACTIVE), (1, PROV_LINK_PORTS_PORTS, (2 ^ 60)), (1, PROV_RANK_LASTRANK, 1)] ({ (withProv { prov1 with ranktab := [{ rank := some 0, state := 0, encap := 0, addr := [], devid := 0 }, { rank := some 1, state := 0, encap := 0, addr := [], devid := 9 }] } State.reset) with net := { links := [{ prov := 0, peer := 9, devid := 9 }, { prov := 1, peer := 3, devid := 9, keyed := false }] } })), 9, 60, { prov := 0, peer := 9, devid := 9 }, by and_intros <;> decide +kernel⟩,
   ⟨(withFlds [(0, NDX_KEY_KEY_MAX_S, 0)] ({ State.reset with net := { links := [{ prov := 1, peer := 3, devid := 9, keyed := true }] } })), 1, 3, { prov := 1, peer := 3, devid := 9, keyed := true }, by and_intros <;> decide +kernel⟩,
   ⟨(withFlds [(0, NDX_KEY_KEY_MAX_S, 0)] ({ State.reset with net := { links := [{ prov := 1, peer := 3, devid := 0, keyed := true }] } })), 1, 3, { prov := 1, peer := 3, devid := 0, keyed := true }, by and_intros <;> decide +kernel⟩,
   ⟨(withFlds [(3, (quarterFld 3), 1), (60, ETH_PORT_CTRL_EN, 1), (60, ETH_PORT_STATUS_LINK, 1), (60, ETH_PORT_STATUS_POWER, PW_ACTIVE), (60, ETH_PORT_CTRL_MACSEC_EN, 1), (0, (NDX_MSEC_CTRL_CAK_VALID 60), 1)] (State.reset)), 60, by and_intros <;> decide +kernel⟩,
   ⟨(withFlds [(3, (quarterFld 3), 1), (60, ETH_PORT_CTRL_EN, 1), (60, ETH_PORT_STATUS_LINK, 1), (60, ETH_PORT_STATUS_POWER, PW_ACTIVE), (60, ETH_PORT_CTRL_MACSEC_EN, 1)] (State.reset)), 60, by and_intros <;> decide +kernel⟩,
   ⟨(withFlds [(3, (quarterFld 3), 1), (60, ETH_PORT_CTRL_EN, 1), (60, ETH_PORT_STATUS_LINK, 1), (60, ETH_PORT_STATUS_POWER, PW_ACTIVE), (60, ETH_PORT_CTRL_MACSEC_EN, 1), (0, (NDX_MSEC_CTRL_SECURE 60), 1)] ({ State.reset with net := { ports := [(60, { mtx := 0xC000000000000000, keyServer := true })] } })), 60, by and_intros <;> decide +kernel⟩⟩

theorem test_hyp_HandsOpenFetchAndClose :
    (∃ (s : State) (fn : Nat) (hand : Nat) (k : Nat), fn < 256 ∧ s.barHand fn hand = some k ∧ s.handState k = H_CLOSED ∧ s.fld k HAND_CTRL_FMT ≠ 1) ∧
    (∃ (s : State) (fn : Nat) (hand : Nat) (k : Nat), fn < 256 ∧ s.barHand fn hand = some k ∧ s.handState k = H_CLOSED ∧ s.fld k HAND_CTRL_FMT = 1 ∧ (¬ (6 ≤ s.fld k HAND_CTRL_LOG2SIZE ∧ s.fld k HAND_CTRL_LOG2SIZE ≤ 16))) ∧
    (∃ (s : State) (fn : Nat) (hand : Nat) (k : Nat), fn < 256 ∧ s.barHand fn hand = some k ∧ s.handState k = H_CLOSED ∧ s.fld k HAND_CTRL_FMT = 1 ∧ 6 ≤ s.fld k HAND_CTRL_LOG2SIZE ∧ s.fld k HAND_CTRL_LOG2SIZE ≤ 16 ∧ s.noSession k fn = true) ∧
    (∃ (s : State) (fn : Nat) (hand : Nat) (k : Nat), fn < 256 ∧ s.barHand fn hand = some k ∧ s.handState k = H_CLOSED ∧ s.fld k HAND_CTRL_FMT = 1 ∧ 6 ≤ s.fld k HAND_CTRL_LOG2SIZE ∧ s.fld k HAND_CTRL_LOG2SIZE ≤ 16 ∧ s.noSession k fn = false) ∧
    (∃ (s : State) (fn : Nat) (hand : Nat) (k : Nat), fn < 256 ∧ s.barHand fn hand = some k ∧ (s.handState k = H_OPEN ∨ s.handState k = H_ERROR)) ∧
    (∃ (s : State) (fn : Nat) (hand : Nat) (k : Nat), fn < 256 ∧ s.barHand fn hand = some k ∧ (s.handState k = H_OPEN ∨ s.handState k = H_ERROR) ∧ (s.hand k).cmds = []) ∧
    (∃ (s : State) (fn : Nat) (hand : Nat) (k : Nat) (value : Nat) (n : Nat), fn < 256 ∧ s.barHand fn hand = some k ∧ s.handState k = H_OPEN ∧ (s.hand k).closing = false ∧ n = (value % 2 ^ 32 + 2 ^ 32 - s.fld k HAND_CONSUMED_COUNT) % 2 ^ 32 ∧ n = 0) ∧
    (∃ (s : State) (fn : Nat) (hand : Nat) (k : Nat) (value : Nat) (n : Nat), fn < 256 ∧ s.barHand fn hand = some k ∧ s.handState k = H_OPEN ∧ (s.hand k).closing = false ∧ n = (value % 2 ^ 32 + 2 ^ 32 - s.fld k HAND_CONSUMED_COUNT) % 2 ^ 32 ∧ n ≠ 0 ∧ n ≤ 2 ^ s.fld k HAND_CTRL_LOG2SIZE) ∧
    (∃ (s : State) (fn : Nat) (hand : Nat) (k : Nat) (value : Nat) (n : Nat), fn < 256 ∧ s.barHand fn hand = some k ∧ s.handState k = H_OPEN ∧ (s.hand k).closing = false ∧ n = (value % 2 ^ 32 + 2 ^ 32 - s.fld k HAND_CONSUMED_COUNT) % 2 ^ 32 ∧ 2 ^ s.fld k HAND_CTRL_LOG2SIZE < n) ∧
    (∃ (s : State) (fn : Nat) (hand : Nat) (k : Nat) (e : List Byte) (ok : Bool), fn < 256 ∧ s.handOf fn hand = some k ∧ s.handState k = H_OPEN ∧ (s.hand k).closing = false ∧ (s.hand k).fn = fn ∧ s.fnUp fn = true ∧ s.fld 0 TST_STATUS_FATAL = 0 ∧ s.fld k HAND_CONSUMED_COUNT ≠ (s.hand k).prod ∧ e.length = 64 ∧ leAt e 0 4 = s.fld k HAND_CONSUMED_COUNT ∧ (s.fld k HAND_CTRL_SECURE ≠ 1 ∨ ok = true)) ∧
    (∃ (s : State) (fn : Nat) (hand : Nat) (k : Nat) (e : List Byte), fn < 256 ∧ s.handOf fn hand = some k ∧ s.handState k = H_OPEN ∧ (s.hand k).closing = false ∧ (s.hand k).fn = fn ∧ s.fnUp fn = true ∧ s.fld 0 TST_STATUS_FATAL = 0 ∧ s.fld k HAND_CONSUMED_COUNT ≠ (s.hand k).prod ∧ e.length = 64 ∧ leAt e 0 4 ≠ s.fld k HAND_CONSUMED_COUNT) ∧
    (∃ (s : State) (fn : Nat) (hand : Nat) (k : Nat) (r : Nat), fn < 256 ∧ s.handOf fn hand = some k ∧ s.handState k = H_OPEN ∧ (s.hand k).closing = false ∧ (s.hand k).fn = fn ∧ s.fnUp fn = true ∧ s.fld 0 TST_STATUS_FATAL = 0 ∧ (s.hand k).mismatch = some r ∧ r < s.fld 0 HIF_DB_RETRY_COUNT) ∧
    (∃ (s : State) (fn : Nat) (hand : Nat) (k : Nat) (r : Nat), fn < 256 ∧ s.handOf fn hand = some k ∧ s.handState k = H_OPEN ∧ (s.hand k).closing = false ∧ (s.hand k).fn = fn ∧ s.fnUp fn = true ∧ s.fld 0 TST_STATUS_FATAL = 0 ∧ (s.hand k).mismatch = some r ∧ s.fld 0 HIF_DB_RETRY_COUNT ≤ r) :=
  ⟨⟨(withFlds [(4111, HAND_CTRL_FMT, 2), (4111, HAND_CTRL_LOG2SIZE, 6)] ({ (withProv prov1 State.reset) with hands := [(4111, { fn := 1 })], fns := [(0, { numVfs := 255 }), (1, { bme := true })] })), 1, 15, 4111, by and_intros <;> decide +kernel⟩,
   ⟨(withFlds [(4111, HAND_CTRL_FMT, 1), (4111, HAND_CTRL_LOG2SIZE, 5)] ({ (withProv prov1 State.reset) with hands := [(4111, { fn := 1 })], fns := [(0, { numVfs := 255 }), (1, { bme := true })] })), 1, 15, 4111, by and_intros <;> decide +kernel⟩,
   ⟨(withFlds [(4111, HAND_CTRL_FMT, 1), (4111, HAND_CTRL_LOG2SIZE, 6), (4111, HAND_CTRL_SECURE, 1)] ({ (withProv prov1 State.reset) with hands := [(4111, { fn := 1 })], fns := [(0, { numVfs := 255 }), (1, { bme := true })] })), 1, 15, 4111, by and_intros <;> decide +kernel⟩,
   ⟨(withFlds [(4111, HAND_CTRL_FMT, 1), (4111, HAND_CTRL_LOG2SIZE, 16)] ({ (withProv prov1 State.reset) with hands := [(4111, { fn := 1 })], fns := [(0, { numVfs := 255 }), (1, { bme := true })] })), 1, 15, 4111, by and_intros <;> decide +kernel⟩,
   ⟨(withFlds [(4111, HAND_STATUS_STATE, H_ERROR)] ({ (withProv prov1 State.reset) with hands := [(4111, { fn := 1 })], fns := [(0, { numVfs := 255 }), (1, { bme := true })] })), 1, 15, 4111, by and_intros <;> decide +kernel⟩,
   ⟨(withFlds [(4111, HAND_STATUS_STATE, H_ERROR)] ({ (withProv prov1 State.reset) with hands := [(4111, { fn := 1 })], fns := [(0, { numVfs := 255 }), (1, { bme := true })] })), 1, 15, 4111, by and_intros <;> decide +kernel⟩,
   ⟨(withFlds [(4111, HAND_STATUS_STATE, H_OPEN), (4111, HAND_CTRL_FMT, 1), (4111, HAND_CTRL_LOG2SIZE, 6)] ({ (withProv prov1 State.reset) with hands := [(4111, { fn := 1 })], fns := [(0, { numVfs := 255 }), (1, { bme := true })] })), 1, 15, 4111, 0, 0, by and_intros <;> decide +kernel⟩,
   ⟨(withFlds [(4111, HAND_STATUS_STATE, H_OPEN), (4111, HAND_CTRL_FMT, 1), (4111, HAND_CTRL_LOG2SIZE, 6)] ({ (withProv prov1 State.reset) with hands := [(4111, { fn := 1 })], fns := [(0, { numVfs := 255 }), (1, { bme := true })] })), 1, 15, 4111, 64, 64, by and_intros <;> decide +kernel⟩,
   ⟨(withFlds [(4111, HAND_STATUS_STATE, H_OPEN), (4111, HAND_CTRL_FMT, 1), (4111, HAND_CTRL_LOG2SIZE, 6)] ({ (withProv prov1 State.reset) with hands := [(4111, { fn := 1 })], fns := [(0, { numVfs := 255 }), (1, { bme := true })] })), 1, 15, 4111, 65, 65, by and_intros <;> decide +kernel⟩,
   ⟨(withFlds [(4111, HAND_STATUS_STATE, H_OPEN), (4111, HAND_CTRL_FMT, 1), (4111, HAND_CTRL_LOG2SIZE, 6)] ({ (withProv prov1 State.reset) with hands := [(4111, { fn := 1, prod := 1 })], fns := [(0, { numVfs := 255 }), (1, { bme := true })] })), 1, 15, 4111, (leBytes 4 0 ++ [4, 0, 0, 0] ++ leBytes 4 0 ++ leBytes 8 0 ++ leBytes 8 0 ++ leBytes 4 0 ++ zeros 32), false, by and_intros <;> decide +kernel⟩,
   ⟨(withFlds [(4111, HAND_STATUS_STATE, H_OPEN), (4111, HAND_CTRL_FMT, 1), (4111, HAND_CTRL_LOG2SIZE, 6)] ({ (withProv prov1 State.reset) with hands := [(4111, { fn := 1, prod := 1 })], fns := [(0, { numVfs := 255 }), (1, { bme := true })] })), 1, 15, 4111, (leBytes 4 1 ++ [4, 0, 0, 0] ++ leBytes 4 0 ++ leBytes 8 0 ++ leBytes 8 0 ++ leBytes 4 0 ++ zeros 32), by and_intros <;> decide +kernel⟩,
   ⟨(withFlds [(4111, HAND_STATUS_STATE, H_OPEN), (4111, HAND_CTRL_FMT, 1), (4111, HAND_CTRL_LOG2SIZE, 6)] ({ (withProv prov1 State.reset) with hands := [(4111, { fn := 1, prod := 1, mismatch := some 0 })], fns := [(0, { numVfs := 255 }), (1, { bme := true })] })), 1, 15, 4111, 0, by and_intros <;> decide +kernel⟩,
   ⟨(withFlds [(0, HIF_DB_RETRY_COUNT, 0)] (withFlds [(4111, HAND_STATUS_STATE, H_OPEN), (4111, HAND_CTRL_FMT, 1), (4111, HAND_CTRL_LOG2SIZE, 6)] ({ (withProv prov1 State.reset) with hands := [(4111, { fn := 1, prod := 1, mismatch := some 0 })], fns := [(0, { numVfs := 255 }), (1, { bme := true })] }))), 1, 15, 4111, 0, by and_intros <;> decide +kernel⟩⟩

theorem test_hyp_HandCommandsRun :
    (∃ (s : State) (u : State) (fn : Nat) (hand : Nat) (seq : Nat) (k : Nat) (c : HandCmd) (host : List (Nat × Byte)), u = s.vput (k / 4096) (c.q 1) (s.hbytes host (c.q 0) c.len) ∧ fn < 256 ∧ s.startable fn hand seq 3 = some (k, c) ∧ c.aligned = true ∧ s.dataState (k / 4096) = true ∧ (s.prov (k / 4096)).within .data (c.q 1) c.len = true ∧ s.hbmOpen (k / 4096) 2 [(c.q 1, c.len)] = true ∧ bitAt c.flags 2 = false) ∧
    (∃ (s : State) (u : State) (fn : Nat) (hand : Nat) (seq : Nat) (k : Nat) (n : Nat) (c : HandCmd) (host : List (Nat × Byte)), u = s.vput (k / 4096) (c.q 1) (s.hbytes host (c.q 0) c.len) ∧ fn < 256 ∧ s.startable fn hand seq 3 = some (k, c) ∧ c.aligned = true ∧ s.dataState (k / 4096) = true ∧ (s.prov (k / 4096)).within .data (c.q 1) c.len = true ∧ s.hbmOpen (k / 4096) 2 [(c.q 1, c.len)] = true ∧ bitAt c.flags 2 = true ∧ s.talonOf (k / 4096) c.talon = some n ∧ u.talonOf (k / 4096) c.talon = some n) ∧
    (∃ (s : State) (u : State) (fn : Nat) (hand : Nat) (seq : Nat) (k : Nat) (st : Nat) (m : Nat) (why : Nat) (c : HandCmd) (host : List (Nat × Byte)), st = (if why = HS_AUTH ∧ s.fld k HAND_CTRL_SECURE = 1 then 4096 else 64) ∧ u = s.vput (k / 4096) (c.q 1) (s.hbytes host (c.q 0) (min c.len (m / st * st))) ∧ fn < 256 ∧ s.startable fn hand seq 3 = some (k, c) ∧ c.aligned = true ∧ s.dataState (k / 4096) = true ∧ (s.prov (k / 4096)).within .data (c.q 1) c.len = true ∧ s.hbmOpen (k / 4096) 2 [(c.q 1, c.len)] = true ∧ bitAt c.flags 2 = false ∧ (why = HS_POISON ∨ why = HS_AUTH)) ∧
    (∃ (s : State) (fn : Nat) (hand : Nat) (seq : Nat) (k : Nat) (c : HandCmd) (bad : List Nat), bad = (List.range (c.len / 64)).filter (fun i => s.vpoison (k / 4096) (c.q 1 + 64 * i) 64) ∧ fn < 256 ∧ s.startable fn hand seq 4 = some (k, c) ∧ c.aligned = true ∧ s.dataState (k / 4096) = true ∧ ((s.prov (k / 4096)).within .data (c.q 1) c.len = true ∨ (s.prov (k / 4096)).within .atlas (c.q 1) c.len = true) ∧ s.hbmOpen (k / 4096) 2 [(c.q 1, c.len)] = true) ∧
    (∃ (s : State) (fn : Nat) (hand : Nat) (seq : Nat) (k : Nat) (c : HandCmd), fn < 256 ∧ s.startable fn hand seq 5 = some (k, c) ∧ s.judgeWait (k / 4096) (c.q 0) false = none) ∧
    (∃ (s : State) (fn : Nat) (hand : Nat) (seq : Nat) (k : Nat) (c : HandCmd) (a : Nat) (b : Nat) (d : Nat), fn < 256 ∧ s.startable fn hand seq 5 = some (k, c) ∧ s.judgeWait (k / 4096) (c.q 0) false = some (a, b, d)) ∧
    (∃ (s : State) (fn : Nat) (hand : Nat) (seq : Nat) (k : Nat) (c : HandCmd) (authOk : Bool), fn < 256 ∧ s.startable fn hand seq 6 = some (k, c) ∧ (s.fld k HAND_CTRL_SECURE ≠ 1 ∨ authOk = true)) ∧
    (∃ (s : State) (u : State) (t : State) (fn : Nat) (hand : Nat) (seq : Nat) (k : Nat) (st : Nat) (n : Nat) (c : HandCmd) (g : Img) (host : List (Nat × Byte)) (authOk : Bool), g = (fun o n => ofLE (s.hbytes host (c.q 0 + o) n)) ∧ u = s.mapAtlas (k / 4096) (s.hbytes host (c.q 0) g.size) ∧ st = s.atlasStatus (u.setFld (k / 4096) PROV_RANK_LASTRANK (g.nranks - 1)) (k / 4096) g (s.hbytes host (c.q 0) g.size) ∧ t = { u with free := s.free + 1 }.loaded (k / 4096) fn (c.q 0) (if bitAt c.flags 1 then c.q 1 else g.seed) ∧ fn < 256 ∧ s.startable fn hand seq 1 = some (k, c) ∧ s.stw.restarting = false ∧ (s.prov (k / 4096)).st = .sealed_ ∧ (s.fld k HAND_CTRL_SECURE ≠ 1 ∨ authOk = true) ∧ ceilDiv g.size (2 ^ 21) * 2 ^ 21 ≤ (s.prov (k / 4096)).space ∧ s.atlasHeld (k / 4096) g.size = false) ∧
    (∃ (s : State) (u : State) (fn : Nat) (hand : Nat) (seq : Nat) (k : Nat) (c : HandCmd), u = s.ledgerCheck (k / 4096) ∧ fn < 256 ∧ s.startable fn hand seq 2 = some (k, c) ∧ s.stw.restarting = false ∧ (s.prov (k / 4096)).st = .sealed_ ∧ (s.prov (k / 4096)).loaded = true ∧ (s.prov (k / 4096)).start = none ∧ s.frame + 2 ≤ c.q 0 ∧ (s.fld (k / 4096) PROV_RNG_MODE_MODE ≠ 0 ∨ (s.img (k / 4096)).needsRegen = false) ∧ s.linksKeyed (k / 4096) = true) :=
  ⟨⟨(withFlds [(4111, HAND_STATUS_STATE, H_OPEN), (4111, HAND_CTRL_FMT, 1), (4111, HAND_CTRL_LOG2SIZE, 6)] ({ (withProv prov1 State.reset) with hands := [(4111, { fn := 1, prod := 2, cmds := [⟨1, (leBytes 4 1 ++ [3, 0, 0, 0] ++ leBytes 4 0 ++ leBytes 8 4096 ++ leBytes 8 64 ++ leBytes 4 64 ++ zeros 32), .waiting⟩] })], fns := [(0, { numVfs := 255 }), (1, { bme := true })] })), _, 1, 15, 1, 4111, ⟨1, (leBytes 4 1 ++ [3, 0, 0, 0] ++ leBytes 4 0 ++ leBytes 8 4096 ++ leBytes 8 64 ++ leBytes 4 64 ++ zeros 32), .waiting⟩, [], rfl, by and_intros <;> decide +kernel⟩,
   ⟨(withFlds [(7, TAL_CFG_PROV 63, 1), (7, TAL_CFG_EN 63, 1)] (withFlds [(4111, HAND_STATUS_STATE, H_OPEN), (4111, HAND_CTRL_FMT, 1), (4111, HAND_CTRL_LOG2SIZE, 6)] ({ (withProv prov1 State.reset) with hands := [(4111, { fn := 1, prod := 2, cmds := [⟨1, (leBytes 4 1 ++ [3, 4, 0, 0] ++ leBytes 4 0 ++ leBytes 8 4096 ++ leBytes 8 64 ++ leBytes 4 64 ++ zeros 32), .waiting⟩] })], fns := [(0, { numVfs := 255 }), (1, { bme := true })] }))), _, 1, 15, 1, 4111, 511, ⟨1, (leBytes 4 1 ++ [3, 4, 0, 0] ++ leBytes 4 0 ++ leBytes 8 4096 ++ leBytes 8 64 ++ leBytes 4 64 ++ zeros 32), .waiting⟩, [], rfl, by and_intros <;> decide +kernel⟩,
   ⟨(withFlds [(4111, HAND_STATUS_STATE, H_OPEN), (4111, HAND_CTRL_FMT, 1), (4111, HAND_CTRL_LOG2SIZE, 6)] ({ (withProv prov1 State.reset) with hands := [(4111, { fn := 1, prod := 2, cmds := [⟨1, (leBytes 4 1 ++ [3, 0, 0, 0] ++ leBytes 4 0 ++ leBytes 8 4096 ++ leBytes 8 64 ++ leBytes 4 128 ++ zeros 32), .waiting⟩] })], fns := [(0, { numVfs := 255 }), (1, { bme := true })] })), _, 1, 15, 1, 4111, _, 100, HS_AUTH, ⟨1, (leBytes 4 1 ++ [3, 0, 0, 0] ++ leBytes 4 0 ++ leBytes 8 4096 ++ leBytes 8 64 ++ leBytes 4 128 ++ zeros 32), .waiting⟩, [], rfl, rfl, by and_intros <;> decide +kernel⟩,
   ⟨(withFlds [(4111, HAND_STATUS_STATE, H_OPEN), (4111, HAND_CTRL_FMT, 1), (4111, HAND_CTRL_LOG2SIZE, 6)] ({ (withProv prov1 State.reset) with hands := [(4111, { fn := 1, prod := 2, cmds := [⟨1, (leBytes 4 1 ++ [4, 0, 0, 0] ++ leBytes 4 0 ++ leBytes 8 4096 ++ leBytes 8 1073741760 ++ leBytes 4 64 ++ zeros 32), .waiting⟩] })], fns := [(0, { numVfs := 255 }), (1, { bme := true })] })), 1, 15, 1, 4111, ⟨1, (leBytes 4 1 ++ [4, 0, 0, 0] ++ leBytes 4 0 ++ leBytes 8 4096 ++ leBytes 8 1073741760 ++ leBytes 4 64 ++ zeros 32), .waiting⟩, _, rfl, by and_intros <;> decide +kernel⟩,
   ⟨(withFlds [(4111, HAND_STATUS_STATE, H_OPEN), (4111, HAND_CTRL_FMT, 1), (4111, HAND_CTRL_LOG2SIZE, 6)] ({ (withProv prov1 State.reset) with hands := [(4111, { fn := 1, prod := 2, cmds := [⟨1, (leBytes 4 1 ++ [5, 0, 0, 0] ++ leBytes 4 0 ++ leBytes 8 0 ++ leBytes 8 0 ++ leBytes 4 0 ++ zeros 32), .waiting⟩] })], fns := [(0, { numVfs := 255 }), (1, { bme := true })] })), 1, 15, 1, 4111, ⟨1, (leBytes 4 1 ++ [5, 0, 0, 0] ++ leBytes 4 0 ++ leBytes 8 0 ++ leBytes 8 0 ++ leBytes 4 0 ++ zeros 32), .waiting⟩, by and_intros <;> decide +kernel⟩,
   ⟨(withFlds [(4111, HAND_STATUS_STATE, H_OPEN), (4111, HAND_CTRL_FMT, 1), (4111, HAND_CTRL_LOG2SIZE, 6)] ({ (withProv { prov1 with loaded := false } State.reset) with hands := [(4111, { fn := 1, prod := 2, cmds := [⟨1, (leBytes 4 1 ++ [5, 0, 0, 0] ++ leBytes 4 0 ++ leBytes 8 0 ++ leBytes 8 0 ++ leBytes 4 0 ++ zeros 32), .waiting⟩] })], fns := [(0, { numVfs := 255 }), (1, { bme := true })] })), 1, 15, 1, 4111, ⟨1, (leBytes 4 1 ++ [5, 0, 0, 0] ++ leBytes 4 0 ++ leBytes 8 0 ++ leBytes 8 0 ++ leBytes 4 0 ++ zeros 32), .waiting⟩, HS_PROV_STATE, 0, 0, by and_intros <;> decide +kernel⟩,
   ⟨(withFlds [(4111, HAND_STATUS_STATE, H_OPEN), (4111, HAND_CTRL_FMT, 1), (4111, HAND_CTRL_LOG2SIZE, 6)] ({ (withProv prov1 State.reset) with hands := [(4111, { fn := 1, prod := 2, cmds := [⟨1, (leBytes 4 1 ++ [6, 0, 0, 0] ++ leBytes 4 0 ++ leBytes 8 4096 ++ leBytes 8 0 ++ leBytes 4 0 ++ zeros 32), .waiting⟩] })], fns := [(0, { numVfs := 255 }), (1, { bme := true })] })), 1, 15, 1, 4111, ⟨1, (leBytes 4 1 ++ [6, 0, 0, 0] ++ leBytes 4 0 ++ leBytes 8 4096 ++ leBytes 8 0 ++ leBytes 4 0 ++ zeros 32), .waiting⟩, false, by and_intros <;> decide +kernel⟩,
   ⟨(withFlds [(4111, HAND_STATUS_STATE, H_OPEN), (4111, HAND_CTRL_FMT, 1), (4111, HAND_CTRL_LOG2SIZE, 6)] ({ (withProv { prov1 with st := .sealed_ } State.reset) with hands := [(4111, { fn := 1, prod := 2, cmds := [⟨1, (leBytes 4 1 ++ [1, 0, 0, 0] ++ leBytes 4 0 ++ leBytes 8 4096 ++ leBytes 8 0 ++ leBytes 4 0 ++ zeros 32), .waiting⟩] })], fns := [(0, { numVfs := 255 }), (1, { bme := true })] })), _, _, 1, 15, 1, 4111, _, 0, ⟨1, (leBytes 4 1 ++ [1, 0, 0, 0] ++ leBytes 4 0 ++ leBytes 8 4096 ++ leBytes 8 0 ++ leBytes 4 0 ++ zeros 32), .waiting⟩, _, (leBytes 8 4096).zipIdx.map (fun b => (0x1010 + b.2, b.1)), false, rfl, rfl, rfl, rfl, by and_intros <;> decide +kernel⟩,
   ⟨(withFlds [(4111, HAND_STATUS_STATE, H_OPEN), (4111, HAND_CTRL_FMT, 1), (4111, HAND_CTRL_LOG2SIZE, 6)] ({ (withProv { prov1 with st := .sealed_ } State.reset) with hands := [(4111, { fn := 1, prod := 2, cmds := [⟨1, (leBytes 4 1 ++ [2, 0, 0, 0] ++ leBytes 4 0 ++ leBytes 8 2 ++ leBytes 8 0 ++ leBytes 4 0 ++ zeros 32), .waiting⟩] })], fns := [(0, { numVfs := 255 }), (1, { bme := true })] })), _, 1, 15, 1, 4111, ⟨1, (leBytes 4 1 ++ [2, 0, 0, 0] ++ leBytes 4 0 ++ leBytes 8 2 ++ leBytes 8 0 ++ leBytes 4 0 ++ zeros 32), .waiting⟩, rfl, by and_intros <;> decide +kernel⟩⟩

theorem test_hyp_FunctionAccesses :
    (∃ (s : State) (fn : Nat), fn < 256 ∧ s.fnOn fn = true ∧ s.fld fn HIF_FN_STATUS_ATTACH ≠ 1 ∧ (s.fn fn).tdisp ≠ .error ∧ s.fnProv fn = 0) ∧
    (∃ (s : State) (fn : Nat) (off : Nat) (n : Nat), fn < 256 ∧ s.fnOn fn = true ∧ s.fld fn HIF_FN_STATUS_ATTACH ≠ 1 ∧ (s.fn fn).tdisp ≠ .error ∧ s.fnProv fn ≠ 0 ∧ s.insetVa fn off n false = none) ∧
    (∃ (s : State) (fn : Nat) (off : Nat) (n : Nat) (va : Nat), fn < 256 ∧ s.fnOn fn = true ∧ s.fld fn HIF_FN_STATUS_ATTACH ≠ 1 ∧ (s.fn fn).tdisp ≠ .error ∧ s.fnProv fn ≠ 0 ∧ s.insetVa fn off n false = some va ∧ s.hbmOpen (s.fnProv fn) 2 [(va, n)] = true) ∧
    (∃ (s : State) (fn : Nat) (off : Nat) (n : Nat) (va : Nat), fn < 256 ∧ s.fnOn fn = true ∧ s.fld fn HIF_FN_STATUS_ATTACH ≠ 1 ∧ (s.fn fn).tdisp ≠ .error ∧ s.fnProv fn ≠ 0 ∧ s.insetVa fn off n false = some va ∧ s.hbmOpen (s.fnProv fn) 2 [(va, n)] = false) ∧
    (∃ (s : State) (fn : Nat) (off : Nat) (bytes : List Byte), fn < 256 ∧ s.barUp fn = true ∧ s.insetVa fn off bytes.length true = none) ∧
    (∃ (s : State) (fn : Nat) (off : Nat) (va : Nat) (bytes : List Byte), fn < 256 ∧ s.barUp fn = true ∧ s.insetVa fn off bytes.length true = some va) ∧
    (∃ (s : State) (fn : Nat), fn < 256 ∧ s.barUp fn = true) ∧
    (∃ (s : State) (fn : Nat), fn < 256 ∧ s.barUp fn = true) ∧
    (∃ (s : State) (fn : Nat) (on : Bool), fn < 256 ∧ (s.fn fn).bme ≠ on ∧ s.inReset = false) ∧
    (∃ (s : State) (fn : Nat), fn < 256 ∧ s.fnUp fn = true) ∧
    (∃ (s : State) (fn : Nat) (hand : Nat) (k : Nat), fn < 256 ∧ s.fld fn HIF_FN_STATUS_ATTACH = 0 ∧ s.handOf fn hand = some k ∧ s.handState k = H_OPEN ∧ (s.hand k).fn = fn) ∧
    (∃ (s : State) (u : State) (fn : Nat) (value : Nat) (hand : Nat) (k : Nat), u = (s.setFld fn HIF_FN_STATUS_HOST_ERR 1).raise { cause := HOST_ABORT, die := 12, prov := k / 4096, aux := hand } ∧ fn < 256 ∧ s.fld fn HIF_FN_STATUS_ATTACH = 0 ∧ s.handOf fn hand = some k ∧ (s.hand k).fn = fn ∧ ((s.hand k).cmds.any (fun c => c.seq == value && c.started && !c.over) = true ∨ (((s.hand k).mayStart value).isSome = true ∧ s.fnUp fn = true))) ∧
    (∃ (s : State) (fn : Nat) (value : Nat) (hand : Nat) (k : Nat), (∃ c ∈ (s.hand k).cmds, c.seq = value ∧ ∃ a b d e, c.st = .written a b d e) ∧ fn < 256 ∧ s.fld fn HIF_FN_STATUS_ATTACH = 0 ∧ s.handOf fn hand = some k ∧ (s.hand k).fn = fn ∧ (∀ c ∈ (s.hand k).cmds, c.seq = value → c.over = true) ∧ (s.hand k).mayStart value = none) ∧
    (∃ (s : State) (fn : Nat) (n : Nat) (j : ChainJob) (rest : List ChainJob), fn < 256 ∧ s.fld fn HIF_FN_STATUS_ATTACH = 0 ∧ n < 128 ∧ (s.bulk n).queue = j :: rest ∧ s.chainFn j.ctx.prov = fn ∧ (s.bulk n).st = .running) :=
  ⟨⟨{ (withProv prov1 State.reset) with fns := [(0, { numVfs := 255 }), (1, { bme := true })] }, 255, by and_intros <;> decide +kernel⟩,
   ⟨{ (withProv prov1 State.reset) with fns := [(0, { numVfs := 255 }), (1, { bme := true })] }, 1, 0, 4, by and_intros <;> decide +kernel⟩,
   ⟨(withFlds [(0, (GZT_ROOT_V 1), 1), (1, HIF_INSET_BASE_EN, 1), (1, HIF_INSET_BASE_BASE, 15)] ({ (withProv prov1 State.reset) with fns := [(0, { numVfs := 255 }), (1, { bme := true })] })), 1, 0x3FFFFFC, 4, 0x3FFFFFFC, by and_intros <;> decide +kernel⟩,
   ⟨(withFlds [(0, (GZT_ROOT_V 1), 1), (1, HIF_INSET_BASE_EN, 1), (1, HIF_INSET_BASE_BASE, 15)] ({ ({ (withProv prov1 State.reset) with fns := [(0, { numVfs := 255 }), (1, { bme := true })] } : State) with memc := {} })), 1, 0x3FFFFFC, 4, 0x3FFFFFFC, by and_intros <;> decide +kernel⟩,
   ⟨{ (withProv prov1 State.reset) with fns := [(0, { numVfs := 255 }), (1, { bme := true })] }, 1, 0, [1], by and_intros <;> decide +kernel⟩,
   ⟨(withFlds [(0, (GZT_ROOT_V 1), 1), (1, HIF_INSET_BASE_EN, 1), (1, HIF_INSET_BASE_BASE, 15)] ({ (withProv prov1 State.reset) with fns := [(0, { numVfs := 255 }), (1, { bme := true })] })), 1, 0x3FFFFFF, 0x3FFFFFFF, [7], by and_intros <;> decide +kernel⟩,
   ⟨{ (withProv prov1 State.reset) with fns := [(0, { numVfs := 255 }), (1, { bme := true })] }, 1, by and_intros <;> decide +kernel⟩,
   ⟨{ (withProv prov1 State.reset) with fns := [(0, { numVfs := 255 }), (1, { bme := true })] }, 1, by and_intros <;> decide +kernel⟩,
   ⟨{ (withProv prov1 State.reset) with fns := [(0, { numVfs := 255 }), (1, { bme := true })] }, 1, false, by and_intros <;> decide +kernel⟩,
   ⟨{ (withProv prov1 State.reset) with fns := [(0, { numVfs := 255 }), (1, { bme := true })] }, 1, by and_intros <;> decide +kernel⟩,
   ⟨(withFlds [(4111, HAND_STATUS_STATE, H_OPEN), (4111, HAND_CTRL_FMT, 1), (4111, HAND_CTRL_LOG2SIZE, 6)] ({ (withProv prov1 State.reset) with hands := [(4111, { fn := 1 })], fns := [(0, { numVfs := 255 }), (1, { bme := true })] })), 1, 15, 4111, by and_intros <;> decide +kernel⟩,
   ⟨(withFlds [(4111, HAND_STATUS_STATE, H_OPEN), (4111, HAND_CTRL_FMT, 1), (4111, HAND_CTRL_LOG2SIZE, 6)] ({ (withProv prov1 State.reset) with hands := [(4111, { fn := 1, cmds := [{ seq := 1, entry := leBytes 4 1 ++ [4, 0, 0, 0] ++ leBytes 4 0 ++ leBytes 8 0 ++ leBytes 8 0 ++ leBytes 4 0 ++ zeros 32, st := .running }] })], fns := [(0, { numVfs := 255 }), (1, { bme := true })] })), _, 1, 1, 15, 4111, rfl, by and_intros <;> decide +kernel⟩,
   ⟨(withFlds [(4111, HAND_STATUS_STATE, H_OPEN), (4111, HAND_CTRL_FMT, 1), (4111, HAND_CTRL_LOG2SIZE, 6)] ({ (withProv prov1 State.reset) with hands := [(4111, { fn := 1, cmds := [{ seq := 1, entry := leBytes 4 1 ++ [4, 0, 0, 0] ++ leBytes 4 0 ++ leBytes 8 0 ++ leBytes 8 0 ++ leBytes 4 0 ++ zeros 32, st := .written 0 0 0 0 }] })], fns := [(0, { numVfs := 255 }), (1, { bme := true })] })), 1, 1, 15, 4111, ⟨_, List.mem_singleton.mpr rfl, rfl, 0, 0, 0, 0, rfl⟩, by and_intros <;> decide +kernel⟩,
   ⟨{ (withFlds [] ({ (withProv prov1 State.reset) with fns := [(0, { numVfs := 255 }), (1, { bme := true })] })) with bulks := [(127, { st := .running, queue := [{ req := ⟨0, 0, 0⟩, ctx := ctx, tile := 0, afterSeq := 0 }] })] }, 1, 127, { req := ⟨0, 0, 0⟩, ctx := ctx, tile := 0, afterSeq := 0 }, [], by and_intros <;> decide +kernel⟩⟩

theorem test_hyp_FunctionsDetachAndReattach :
    (∃ (s : State) (fn : Nat) (rate : Nat) (width : Nat), fn < 256 ∧ s.inReset = false ∧ s.perst = false ∧ 1 ≤ rate ∧ rate ≤ 6 ∧ 1 ≤ width ∧ width ≤ 16 ∧ 4 ≤ s.boot ∧ s.boot ≠ 8) ∧
    (∃ (s : State) (fn : Nat), fn < 256 ∧ s.inReset = false ∧ s.perst = false) ∧
    (∃ (s : State) (fn : Nat), fn < 256 ∧ s.inReset = false) ∧
    (∃ (s : State) (fn : Nat), fn < 256 ∧ s.inReset = false ∧ s.dlUp = true) ∧
    (∃ (s : State) (fn : Nat), fn < 256 ∧ s.inReset = false) ∧
    (∃ (s : State) (fn : Nat), fn < 256 ∧ s.inReset = false) ∧
    (∃ (s : State) (fn : Nat), fn < 256 ∧ s.inReset = false ∧ (s.fn fn).flr = true ∧ s.perst = false ∧ s.dlUp = true ∧ s.fld fn HIF_FN_STATUS_ATTACH = 1) ∧
    (∃ (s : State) (fn : Nat), fn < 256 ∧ s.inReset = false ∧ s.fld fn HIF_FN_STATUS_ATTACH = 2 ∧ (s.fn fn).bme = true) ∧
    (∃ (s : State) (fn : Nat), fn < 256 ∧ s.inReset = false ∧ s.fld fn HIF_FN_STATUS_ATTACH = 2 ∧ (s.fn fn).bme = true) ∧
    (∃ (s : State) (fn : Nat), fn < 256 ∧ s.inReset = false ∧ s.fld fn HIF_FN_STATUS_ATTACH = 1 ∧ (s.fn fn).lost = false) :=
  ⟨⟨(withFlds [(0, STW_STATUS_BOOT, 4)] (State.reset)), 255, 6, 16, by and_intros <;> decide +kernel⟩,
   ⟨{ State.reset with perst := false }, 255, by and_intros <;> decide +kernel⟩,
   ⟨{ State.reset with perst := false }, 255, by and_intros <;> decide +kernel⟩,
   ⟨{ State.reset with perst := false, dlUp := true, fns := [(0, { numVfs := 255 }), (255, { bme := true, flr := false })] }, 255, by and_intros <;> decide +kernel⟩,
   ⟨{ State.reset with perst := false }, 255, by and_intros <;> decide +kernel⟩,
   ⟨{ State.reset with perst := false }, 255, by and_intros <;> decide +kernel⟩,
   ⟨(withFlds [(255, HIF_FN_STATUS_ATTACH, 1)] ({ State.reset with perst := false, dlUp := true, fns := [(0, { numVfs := 255 }), (255, { bme := true, flr := true })] })), 255, by and_intros <;> decide +kernel⟩,
   ⟨(withFlds [(255, HIF_FN_STATUS_ATTACH, 2)] ({ State.reset with perst := false, dlUp := true, fns := [(0, { numVfs := 255 }), (255, { bme := true, flr := false })] })), 255, by and_intros <;> decide +kernel⟩,
   ⟨(withFlds [(255, HIF_FN_STATUS_ATTACH, 2)] ({ State.reset with perst := false, dlUp := true, fns := [(0, { numVfs := 255 }), (255, { bme := true, flr := false })] })), 255, by and_intros <;> decide +kernel⟩,
   ⟨(withFlds [(255, HIF_FN_STATUS_ATTACH, 1)] ({ State.reset with perst := false, dlUp := true, fns := [(0, { numVfs := 255 }), (255, { bme := true, flr := false })] })), 255, by and_intros <;> decide +kernel⟩⟩

theorem test_hyp_SpdmRequestsAreAnswered :
    (∃ (s : State), s.Responds 0) ∧
    (∃ (s : State), s.Responds 1 ∧ s.stw.spdmState = 1) ∧
    (∃ (s : State), s.Responds 2 ∧ s.stw.spdmState = 2) ∧
    (∃ (s : State), s.Responds 3) ∧
    (∃ (s : State) (off : Nat) (n : Nat) (p : List Byte), p = (s.certChain.drop off).take n ∧ off ≤ s.certChain.length ∧ s.Responds 3) ∧
    (∃ (s : State), s.Responds 3) ∧
    (∃ (s : State) (n : Nat), s.Responds 3 ∧ s.measBlocks n ≠ [] ∧ n ≠ 0) ∧
    (∃ (s : State), s.Responds 3 ∧ s.stw.sessions.length < 64) ∧
    (∃ (s : State) (sid : Nat) (x : SpdmSession), s.Responds 3 ∧ s.stw.sessions.find? (fun y => y.id == sid && y.done == false) = some x) ∧
    (∃ (s : State) (sid : Nat) (x : SpdmSession), s.Responds 3 ∧ s.stw.sessions.find? (fun y => y.id == sid && y.done == true) = some x) ∧
    (∃ (s : State) (sid : Nat) (x : SpdmSession), s.Responds 3 ∧ s.stw.sessions.find? (fun y => y.id == sid && y.done == true) = some x) ∧
    (∃ (s : State) (sid : Nat) (x : SpdmSession), s.Responds 3 ∧ s.stw.sessions.find? (fun y => y.id == sid && y.done == true) = some x) ∧
    (∃ (s : State) (sid : Nat) (fn : Nat) (x : SpdmSession), s.Responds 3 ∧ s.stw.sessions.find? (fun y => y.id == sid && y.done == true) = some x ∧ fn < 256) ∧
    (∃ (s : State) (fn : Nat), s.Responds 3 ∧ fn < 256) ∧
    (∃ (s : State) (slot : Nat), s.Responds 3 ∧ slot ≠ 0) :=
  ⟨⟨(withFlds [(0, STW_STATUS_BOOT, 5)] ({ (State.reset : State) with dlUp := true, stw := { (State.reset : State).stw with keys := true, spdmState := 0 } })), by unfold State.Responds; and_intros <;> decide +kernel⟩,
   ⟨(withFlds [(0, STW_STATUS_BOOT, 5)] ({ (State.reset : State) with dlUp := true, stw := { (State.reset : State).stw with keys := true, spdmState := 1 } })), by unfold State.Responds; and_intros <;> decide +kernel⟩,
   ⟨(withFlds [(0, STW_STATUS_BOOT, 5)] ({ (State.reset : State) with dlUp := true, stw := { (State.reset : State).stw with keys := true, spdmState := 2 } })), by unfold State.Responds; and_intros <;> decide +kernel⟩,
   ⟨(withFlds [(0, STW_STATUS_BOOT, 5)] ({ (State.reset : State) with dlUp := true, stw := { (State.reset : State).stw with keys := true, spdmState := 3 } })), by unfold State.Responds; and_intros <;> decide +kernel⟩,
   ⟨(withFlds [(0, STW_STATUS_BOOT, 5)] ({ (State.reset : State) with dlUp := true, stw := { (State.reset : State).stw with keys := true, spdmState := 3 } })), 0, 0, _, rfl, Nat.zero_le _, by unfold State.Responds; and_intros <;> decide +kernel⟩,
   ⟨(withFlds [(0, STW_STATUS_BOOT, 5)] ({ (State.reset : State) with dlUp := true, stw := { (State.reset : State).stw with keys := true, spdmState := 3 } })), by unfold State.Responds; and_intros <;> decide +kernel⟩,
   ⟨(withFlds [(0, STW_STATUS_BOOT, 5)] ({ (State.reset : State) with dlUp := true, stw := { (State.reset : State).stw with keys := true, spdmState := 3 } })), 3, by unfold State.Responds; and_intros <;> decide +kernel⟩,
   ⟨(withFlds [(0, STW_STATUS_BOOT, 5)] ({ (State.reset : State) with dlUp := true, stw := { (State.reset : State).stw with keys := true, spdmState := 3 } })), by unfold State.Responds; and_intros <;> decide +kernel⟩,
   ⟨(withFlds [(0, STW_STATUS_BOOT, 5)] ({ (State.reset : State) with dlUp := true, stw := { (State.reset : State).stw with keys := true, spdmState := 3, sessions := [{ id := 9, done := false }] } })), 9, { id := 9, done := false }, by unfold State.Responds; and_intros <;> decide +kernel⟩,
   ⟨(withFlds [(0, STW_STATUS_BOOT, 5)] ({ (State.reset : State) with dlUp := true, stw := { (State.reset : State).stw with keys := true, spdmState := 3, sessions := [{ id := 9, done := true }] } })), 9, { id := 9, done := true }, by unfold State.Responds; and_intros <;> decide +kernel⟩,
   ⟨(withFlds [(0, STW_STATUS_BOOT, 5)] ({ (State.reset : State) with dlUp := true, stw := { (State.reset : State).stw with keys := true, spdmState := 3, sessions := [{ id := 9, done := true }] } })), 9, { id := 9, done := true }, by unfold State.Responds; and_intros <;> decide +kernel⟩,
   ⟨(withFlds [(0, STW_STATUS_BOOT, 5)] ({ (State.reset : State) with dlUp := true, stw := { (State.reset : State).stw with keys := true, spdmState := 3, sessions := [{ id := 9, done := true }] } })), 9, { id := 9, done := true }, by unfold State.Responds; and_intros <;> decide +kernel⟩,
   ⟨(withFlds [(0, STW_STATUS_BOOT, 5)] ({ (State.reset : State) with dlUp := true, stw := { (State.reset : State).stw with keys := true, spdmState := 3, sessions := [{ id := 9, done := true }] } })), 9, 255, { id := 9, done := true }, by unfold State.Responds; and_intros <;> decide +kernel⟩,
   ⟨(withFlds [(0, STW_STATUS_BOOT, 5)] ({ (State.reset : State) with dlUp := true, stw := { (State.reset : State).stw with keys := true, spdmState := 3 } })), 255, by unfold State.Responds; and_intros <;> decide +kernel⟩,
   ⟨(withFlds [(0, STW_STATUS_BOOT, 5)] ({ (State.reset : State) with dlUp := true, stw := { (State.reset : State).stw with keys := true, spdmState := 3 } })), 1, by unfold State.Responds; and_intros <;> decide +kernel⟩⟩

theorem test_hyp_InterfacesAreLockedAndStarted :
    (∃ (s : State) (sid : Nat) (stream : Nat) (fn : Nat) (x : SpdmSession) (l : List IdeStream), s.Responds 3 ∧ 0 < fn ∧ fn < 256 ∧ s.stw.sessions.find? (fun y => y.id == sid && y.done == true) = some x ∧ l = s.stw.ide.filter (fun y => y.id != stream)) ∧
    (∃ (s : State) (sid : Nat) (stream : Nat) (fn : Nat) (x : SpdmSession) (l : List IdeStream), s.Responds 3 ∧ 0 < fn ∧ fn < 256 ∧ s.stw.sessions.find? (fun y => y.id == sid && y.done == true) = some x ∧ l = s.stw.ide.filter (fun y => y.id != stream) ∧ (l.filter (fun y => y.fn.isSome)).length < 8) ∧
    (∃ (s : State) (sid : Nat) (stream : Nat) (fn : Nat) (x : SpdmSession) (l : List IdeStream), s.Responds 3 ∧ 0 < fn ∧ fn < 256 ∧ s.stw.sessions.find? (fun y => y.id == sid && y.done == true) = some x ∧ l = s.stw.ide.filter (fun y => y.id != stream) ∧ l.any (fun y => y.fn.isNone) = false) ∧
    (∃ (s : State) (sid : Nat) (stream : Nat) (fn : Nat) (x : SpdmSession) (l : List IdeStream), s.Responds 3 ∧ 0 < fn ∧ fn < 256 ∧ s.stw.sessions.find? (fun y => y.id == sid && y.done == true) = some x ∧ l = s.stw.ide.filter (fun y => y.id != stream) ∧ s.stepA0 = false ∧ (s.fn fn).tdisp = .unlocked ∧ s.fnProv fn ≠ 0 ∧ ((s.prov (s.fnProv fn)).st = .sealed_ ∨ (s.prov (s.fnProv fn)).st = .running ∨ (s.prov (s.fnProv fn)).st = .paused) ∧ s.stw.ide.any (fun y => y.fn == some fn) = true ∧ s.fld fn HIF_FN_STATUS_ATTACH = 0) ∧
    (∃ (s : State) (sid : Nat) (stream : Nat) (fn : Nat) (x : SpdmSession) (l : List IdeStream), s.Responds 3 ∧ 0 < fn ∧ fn < 256 ∧ s.stw.sessions.find? (fun y => y.id == sid && y.done == true) = some x ∧ l = s.stw.ide.filter (fun y => y.id != stream) ∧ (s.fn fn).tdisp = .locked) ∧
    (∃ (s : State) (sid : Nat) (stream : Nat) (fn : Nat) (x : SpdmSession) (l : List IdeStream), s.Responds 3 ∧ 0 < fn ∧ fn < 256 ∧ s.stw.sessions.find? (fun y => y.id == sid && y.done == true) = some x ∧ l = s.stw.ide.filter (fun y => y.id != stream)) ∧
    (∃ (s : State) (sid : Nat) (stream : Nat) (fn : Nat) (x : SpdmSession) (l : List IdeStream), s.Responds 3 ∧ 0 < fn ∧ fn < 256 ∧ s.stw.sessions.find? (fun y => y.id == sid && y.done == true) = some x ∧ l = s.stw.ide.filter (fun y => y.id != stream) ∧ ((s.fn fn).tdisp = .locked ∨ (s.fn fn).tdisp = .run)) :=
  ⟨⟨(withFlds [(0, STW_STATUS_BOOT, 5)] ({ ({ (withProv { prov1 with st := .sealed_ } State.reset) with fns := [(1, { tdisp := .unlocked })] } : State) with dlUp := true, stw := { ({ (withProv { prov1 with st := .sealed_ } State.reset) with fns := [(1, { tdisp := .unlocked })] } : State).stw with keys := true, spdmState := 3, sessions := [{ id := 9, done := true }], ide := [⟨2, some 1⟩] } })), 9, 1, 1, { id := 9, done := true }, [⟨2, some 1⟩], by unfold State.Responds; and_intros <;> decide +kernel⟩,
   ⟨(withFlds [(0, STW_STATUS_BOOT, 5)] ({ ({ (withProv { prov1 with st := .sealed_ } State.reset) with fns := [(1, { tdisp := .unlocked })] } : State) with dlUp := true, stw := { ({ (withProv { prov1 with st := .sealed_ } State.reset) with fns := [(1, { tdisp := .unlocked })] } : State).stw with keys := true, spdmState := 3, sessions := [{ id := 9, done := true }], ide := [⟨2, some 1⟩] } })), 9, 1, 1, { id := 9, done := true }, [⟨2, some 1⟩], by unfold State.Responds; and_intros <;> decide +kernel⟩,
   ⟨(withFlds [(0, STW_STATUS_BOOT, 5)] ({ ({ (withProv { prov1 with st := .sealed_ } State.reset) with fns := [(1, { tdisp := .unlocked })] } : State) with dlUp := true, stw := { ({ (withProv { prov1 with st := .sealed_ } State.reset) with fns := [(1, { tdisp := .unlocked })] } : State).stw with keys := true, spdmState := 3, sessions := [{ id := 9, done := true }], ide := [⟨2, some 1⟩] } })), 9, 1, 1, { id := 9, done := true }, [⟨2, some 1⟩], by unfold State.Responds; and_intros <;> decide +kernel⟩,
   ⟨(withFlds [(0, DEV_REVISION_MINOR, 1)] (withFlds [(0, STW_STATUS_BOOT, 5)] ({ ({ (withProv { prov1 with st := .sealed_ } State.reset) with fns := [(1, { tdisp := .unlocked })] } : State) with dlUp := true, stw := { ({ (withProv { prov1 with st := .sealed_ } State.reset) with fns := [(1, { tdisp := .unlocked })] } : State).stw with keys := true, spdmState := 3, sessions := [{ id := 9, done := true }], ide := [⟨2, some 1⟩] } }))), 9, 1, 1, { id := 9, done := true }, [⟨2, some 1⟩], by unfold State.Responds; and_intros <;> decide +kernel⟩,
   ⟨(withFlds [(0, STW_STATUS_BOOT, 5)] ({ ({ (withProv { prov1 with st := .sealed_ } State.reset) with fns := [(1, { tdisp := .locked })] } : State) with dlUp := true, stw := { ({ (withProv { prov1 with st := .sealed_ } State.reset) with fns := [(1, { tdisp := .locked })] } : State).stw with keys := true, spdmState := 3, sessions := [{ id := 9, done := true }], ide := [⟨2, some 1⟩] } })), 9, 1, 1, { id := 9, done := true }, [⟨2, some 1⟩], by unfold State.Responds; and_intros <;> decide +kernel⟩,
   ⟨(withFlds [(0, STW_STATUS_BOOT, 5)] ({ ({ (withProv { prov1 with st := .sealed_ } State.reset) with fns := [(1, { tdisp := .unlocked })] } : State) with dlUp := true, stw := { ({ (withProv { prov1 with st := .sealed_ } State.reset) with fns := [(1, { tdisp := .unlocked })] } : State).stw with keys := true, spdmState := 3, sessions := [{ id := 9, done := true }], ide := [⟨2, some 1⟩] } })), 9, 1, 1, { id := 9, done := true }, [⟨2, some 1⟩], by unfold State.Responds; and_intros <;> decide +kernel⟩,
   ⟨(withFlds [(0, STW_STATUS_BOOT, 5)] ({ ({ (withProv { prov1 with st := .sealed_ } State.reset) with fns := [(1, { tdisp := .run })] } : State) with dlUp := true, stw := { ({ (withProv { prov1 with st := .sealed_ } State.reset) with fns := [(1, { tdisp := .run })] } : State).stw with keys := true, spdmState := 3, sessions := [{ id := 9, done := true }], ide := [⟨2, some 1⟩] } })), 9, 1, 1, { id := 9, done := true }, [⟨2, some 1⟩], by unfold State.Responds; and_intros <;> decide +kernel⟩⟩

theorem test_hyp_TspConnectionsAreServed :
    (∃ (s : State) (conn : Nat) (role : Nat) (tls : TlsClient) (rev : Bool) (r : Role), s.inReset = false ∧ s.fld 0 STW_MGMT_LINK ≠ 0 ∧ s.stw.restarting = false ∧ s.stw.conns.length < 8 ∧ s.conn conn = none ∧ s.stw.keys = true ∧ TlsClient.ok tls = true ∧ s.clientRole tls.chain rev role = some r) ∧
    (∃ (s : State) (conn : Nat) (lo : Nat) (hi : Nat) (c : TspConn), s.conn conn = some c ∧ s.stw.restarting = false ∧ BOOT_READY ≤ s.boot ∧ lo ≤ 1 ∧ 1 ≤ hi) ∧
    (∃ (s : State) (conn : Nat) (c : TspConn), s.conn conn = some c ∧ s.stw.restarting = false ∧ s.boot < BOOT_READY) ∧
    (∃ (s : State) (conn : Nat) (lo : Nat) (hi : Nat) (c : TspConn), s.conn conn = some c ∧ s.stw.restarting = false ∧ BOOT_READY ≤ s.boot ∧ (¬ (lo ≤ 1 ∧ 1 ≤ hi))) ∧
    (∃ (s : State) (conn : Nat) (c : TspConn) (e : TspEvent) (l : List TspEvent), s.conn conn = some c ∧ s.stw.restarting = false ∧ c.lost = 0 ∧ c.queue = e :: l) ∧
    (∃ (s : State) (conn : Nat) (c : TspConn), s.conn conn = some c ∧ s.stw.restarting = false ∧ 0 < c.lost) ∧
    (∃ (s : State) (conn : Nat) (c : TspConn), s.Serves conn 6 ∧ s.conn conn = some c) ∧
    (∃ (s : State), s.inReset = false ∧ s.fld 0 STW_MGMT_LINK ≠ 0 ∧ s.stw.restarting = false) ∧
    (∃ (s : State), s.inReset = false ∧ s.fld 0 STW_MGMT_LINK ≠ 0 ∧ s.stw.restarting = false) ∧
    (∃ (s : State), s.inReset = false ∧ s.fld 0 STW_MGMT_LINK ≠ 0 ∧ s.stw.restarting = false) ∧
    (∃ (s : State) (f : MgmtFrame), s.inReset = false ∧ s.fld 0 STW_MGMT_LINK ≠ 0 ∧ s.stw.restarting = false ∧ (f = .arp ∨ f = .neighbour ∨ f = .echo) ∧ s.stw.mgmtSec = s.frameTime / 1000000000 ∧ 1000 ≤ s.stw.mgmtCount) ∧
    (∃ (s : State) (f : MgmtFrame), s.inReset = false ∧ s.fld 0 STW_MGMT_LINK ≠ 0 ∧ s.stw.restarting = false ∧ (f = .arp ∨ f = .neighbour ∨ f = .echo) ∧ s.stw.mgmtSec = s.frameTime / 1000000000 ∧ s.stw.mgmtCount < 1000) :=
  ⟨⟨(withFlds [(0, STW_STATUS_BOOT, 5), (0, STW_STATUS_LC, LC_DEPLOYED), (0, STW_MGMT_LINK, 1)] ({ (State.reset : State) with stw := { (State.reset : State).stw with conns := [{ id := 7, role := .owner, hello := true }], keys := true } })), 8, 2, { version := 0x0304, suite := 0x1302, group := 0x0018, scheme := 0x0503, chain := .owner }, false, .owner, by and_intros <;> decide +kernel⟩,
   ⟨(withFlds [(0, STW_STATUS_BOOT, 5), (0, STW_STATUS_LC, LC_DEPLOYED), (0, STW_MGMT_LINK, 1)] ({ (State.reset : State) with stw := { (State.reset : State).stw with conns := [{ id := 7, role := .owner, hello := true }] } })), 7, 1, 1, { id := 7, role := .owner, hello := true }, by and_intros <;> decide +kernel⟩,
   ⟨(withFlds [(0, STW_STATUS_BOOT, 5), (0, STW_STATUS_LC, LC_DEPLOYED), (0, STW_MGMT_LINK, 1), (0, STW_STATUS_BOOT, 4)] ({ (State.reset : State) with stw := { (State.reset : State).stw with conns := [{ id := 7, role := .owner, hello := true }] } })), 7, { id := 7, role := .owner, hello := true }, by and_intros <;> decide +kernel⟩,
   ⟨(withFlds [(0, STW_STATUS_BOOT, 5), (0, STW_STATUS_LC, LC_DEPLOYED), (0, STW_MGMT_LINK, 1)] ({ (State.reset : State) with stw := { (State.reset : State).stw with conns := [{ id := 7, role := .owner, hello := true }] } })), 7, 2, 3, { id := 7, role := .owner, hello := true }, by and_intros <;> decide +kernel⟩,
   ⟨(withFlds [(0, STW_STATUS_BOOT, 5), (0, STW_STATUS_LC, LC_DEPLOYED), (0, STW_MGMT_LINK, 1)] ({ (State.reset : State) with stw := { (State.reset : State).stw with conns := [{ id := 7, role := .owner, hello := true, queue := [.prov 1 2] }] } })), 7, { id := 7, role := .owner, hello := true, queue := [.prov 1 2] }, (.prov 1 2), [], by and_intros <;> decide +kernel⟩,
   ⟨(withFlds [(0, STW_STATUS_BOOT, 5), (0, STW_STATUS_LC, LC_DEPLOYED), (0, STW_MGMT_LINK, 1)] ({ (State.reset : State) with stw := { (State.reset : State).stw with conns := [{ id := 7, role := .owner, hello := true, lost := 3 }] } })), 7, { id := 7, role := .owner, hello := true, lost := 3 }, by and_intros <;> decide +kernel⟩,
   ⟨(withFlds [(0, STW_STATUS_BOOT, 5), (0, STW_STATUS_LC, LC_DEPLOYED), (0, STW_MGMT_LINK, 1)] ({ (State.reset : State) with stw := { (State.reset : State).stw with conns := [{ id := 7, role := .owner, hello := true }] } })), 7, { id := 7, role := .owner, hello := true }, serves_of rfl (by decide +kernel), by decide +kernel⟩,
   ⟨(withFlds [(0, STW_STATUS_BOOT, 5), (0, STW_STATUS_LC, LC_DEPLOYED), (0, STW_MGMT_LINK, 1)] ({ (State.reset : State) with stw := { (State.reset : State).stw with conns := [{ id := 7, role := .owner, hello := true }] } })), by and_intros <;> decide +kernel⟩,
   ⟨(withFlds [(0, STW_STATUS_BOOT, 5), (0, STW_STATUS_LC, LC_DEPLOYED), (0, STW_MGMT_LINK, 1)] ({ (State.reset : State) with stw := { (State.reset : State).stw with conns := [{ id := 7, role := .owner, hello := true }] } })), by and_intros <;> decide +kernel⟩,
   ⟨(withFlds [(0, STW_STATUS_BOOT, 5), (0, STW_STATUS_LC, LC_DEPLOYED), (0, STW_MGMT_LINK, 1)] ({ (State.reset : State) with stw := { (State.reset : State).stw with conns := [{ id := 7, role := .owner, hello := true }] } })), by and_intros <;> decide +kernel⟩,
   ⟨(withFlds [(0, STW_STATUS_BOOT, 5), (0, STW_STATUS_LC, LC_DEPLOYED), (0, STW_MGMT_LINK, 1)] ({ (State.reset : State) with stw := { (State.reset : State).stw with conns := [{ id := 7, role := .owner, hello := true }], mgmtCount := 1000 } })), .arp, by and_intros <;> decide +kernel⟩,
   ⟨(withFlds [(0, STW_STATUS_BOOT, 5), (0, STW_STATUS_LC, LC_DEPLOYED), (0, STW_MGMT_LINK, 1)] ({ (State.reset : State) with stw := { (State.reset : State).stw with conns := [{ id := 7, role := .owner, hello := true }], mgmtCount := 999 } })), .echo, by and_intros <;> decide +kernel⟩⟩

theorem test_hyp_TspReadsAndSettings :
    (∃ (s : State) (conn : Nat), s.Serves conn 2) ∧
    (∃ (s : State) (conn : Nat), s.Serves conn 4) ∧
    (∃ (s : State) (conn : Nat) (addr : Nat) (n : Nat) (r : RegAt), s.Serves conn 5 ∧ (n = 4 ∨ n = 8) ∧ dpaReg addr = some r ∧ r.block.tspReads = true) ∧
    (∃ (s : State) (conn : Nat), s.Serves conn 7 ∧ s.cartIn.isSome = true) ∧
    (∃ (s : State) (conn : Nat), s.Serves conn 7) ∧
    (∃ (s : State) (conn : Nat) (p : Nat), s.Serves conn 7 ∧ p ≤ 255 ∧ (s.prov p).st ≠ .none_ ∧ (s.prov p).loaded = true) ∧
    (∃ (s : State) (conn : Nat) (c : Cartridge), s.Serves conn 8 ∧ s.cartIn = some c) ∧
    (∃ (s : State) (conn : Nat) (nonce : List Byte), s.Serves conn 3 ∧ nonce.length = 32) ∧
    (∃ (s : State) (conn : Nat) (x : Int), s.Serves conn 0x42 ∧ -32768 ≤ x ∧ x ≤ 32767) ∧
    (∃ (s : State) (conn : Nat) (v : Nat), s.Serves conn 0x30 ∧ v ≤ 255) ∧
    (∃ (s : State) (conn : Nat) (v : Nat), s.Serves conn 0x30 ∧ v ≤ 255) ∧
    (∃ (s : State) (conn : Nat) (v : Nat), s.Serves conn 0x30 ∧ v ≤ 255) ∧
    (∃ (s : State) (conn : Nat) (addr : Nat) (d : RegDef), s.Serves conn 0x30 ∧ Block.find .mer addr = some d ∧ d.fields.any (fun f => f.acc == .rw || f.acc == .w1c) = true) ∧
    (∃ (s : State) (conn : Nat), s.Serves conn 0x30) :=
  ⟨⟨(withFlds [(0, STW_STATUS_BOOT, 5), (0, STW_STATUS_LC, LC_DEPLOYED), (0, STW_MGMT_LINK, 1)] ({ (State.reset : State) with stw := { (State.reset : State).stw with conns := [{ id := 7, role := .owner, hello := true }] } })), 7, serves_of rfl (by decide +kernel)⟩,
   ⟨(withFlds [(0, STW_STATUS_BOOT, 5), (0, STW_STATUS_LC, LC_DEPLOYED), (0, STW_MGMT_LINK, 1)] ({ (State.reset : State) with stw := { (State.reset : State).stw with conns := [{ id := 7, role := .owner, hello := true }] } })), 7, serves_of rfl (by decide +kernel)⟩,
   ⟨(withFlds [(0, STW_STATUS_BOOT, 5), (0, STW_STATUS_LC, LC_DEPLOYED), (0, STW_MGMT_LINK, 1)] ({ (State.reset : State) with stw := { (State.reset : State).stw with conns := [{ id := 7, role := .owner, hello := true }] } })), 7, 0xF83001003C, 4, ⟨.mer, 0, 0x3C⟩, serves_of rfl (by decide +kernel), Or.inl rfl, by and_intros <;> decide +kernel⟩,
   ⟨(withFlds [(0, STW_STATUS_BOOT, 5), (0, STW_STATUS_LC, LC_DEPLOYED), (0, STW_MGMT_LINK, 1)] ({ (State.reset : State) with stw := { (State.reset : State).stw with conns := [{ id := 7, role := .owner, hello := true }], cart := some { id := 3, certOk := true, production := true, paired := some 0, pairSig := true, fwA := none, fwB := none, slotB := false, tables := [], testRecord := true, erases := [], spares := true, root := 0, imprints := [] }, cartId := some 3 } })), 7, serves_of rfl (by decide +kernel), by decide +kernel⟩,
   ⟨(withFlds [(0, STW_STATUS_BOOT, 5), (0, STW_STATUS_LC, LC_DEPLOYED), (0, STW_MGMT_LINK, 1)] ({ (State.reset : State) with stw := { (State.reset : State).stw with conns := [{ id := 7, role := .owner, hello := true }], cart := some { id := 3, certOk := true, production := true, paired := some 0, pairSig := true, fwA := none, fwB := none, slotB := false, tables := [], testRecord := true, erases := [], spares := true, root := 0, imprints := [] }, cartId := some 3 } })), 7, serves_of rfl (by decide +kernel)⟩,
   ⟨(withFlds [(0, STW_STATUS_BOOT, 5), (0, STW_STATUS_LC, LC_DEPLOYED), (0, STW_MGMT_LINK, 1)] ({ (withProv prov1 State.reset : State) with stw := { (withProv prov1 State.reset : State).stw with conns := [{ id := 7, role := .owner, hello := true }], cart := some { id := 3, certOk := true, production := true, paired := some 0, pairSig := true, fwA := none, fwB := none, slotB := false, tables := [], testRecord := true, erases := [], spares := true, root := 0, imprints := [] }, cartId := some 3 } })), 7, 1, serves_of rfl (by decide +kernel), by and_intros <;> decide +kernel⟩,
   ⟨(withFlds [(0, STW_STATUS_BOOT, 5), (0, STW_STATUS_LC, LC_DEPLOYED), (0, STW_MGMT_LINK, 1)] ({ (State.reset : State) with stw := { (State.reset : State).stw with conns := [{ id := 7, role := .owner, hello := true }], cart := some { id := 3, certOk := true, production := true, paired := some 0, pairSig := true, fwA := none, fwB := none, slotB := false, tables := [], testRecord := true, erases := [], spares := true, root := 0, imprints := [] }, cartId := some 3 } })), 7, { id := 3, certOk := true, production := true, paired := some 0, pairSig := true, fwA := none, fwB := none, slotB := false, tables := [], testRecord := true, erases := [], spares := true, root := 0, imprints := [] }, serves_of rfl (by decide +kernel), by decide +kernel⟩,
   ⟨(withFlds [(0, STW_STATUS_BOOT, 5), (0, STW_STATUS_LC, LC_DEPLOYED), (0, STW_MGMT_LINK, 1)] ({ (State.reset : State) with stw := { (State.reset : State).stw with conns := [{ id := 7, role := .owner, hello := true }] } })), 7, (zeros 32), serves_of rfl (by decide +kernel), by decide +kernel⟩,
   ⟨(withFlds [(0, STW_STATUS_BOOT, 5), (0, STW_STATUS_LC, LC_DEPLOYED), (0, STW_MGMT_LINK, 1)] ({ (State.reset : State) with stw := { (State.reset : State).stw with conns := [{ id := 7, role := .owner, hello := true }] } })), 7, -32768, serves_of rfl (by decide +kernel), by and_intros <;> decide +kernel⟩,
   ⟨(withFlds [(0, STW_STATUS_BOOT, 5), (0, STW_STATUS_LC, LC_DEPLOYED), (0, STW_MGMT_LINK, 1)] ({ (State.reset : State) with stw := { (State.reset : State).stw with conns := [{ id := 7, role := .owner, hello := true }] } })), 7, 255, serves_of rfl (by decide +kernel), by decide +kernel⟩,
   ⟨(withFlds [(0, STW_STATUS_BOOT, 5), (0, STW_STATUS_LC, LC_DEPLOYED), (0, STW_MGMT_LINK, 1)] ({ (State.reset : State) with stw := { (State.reset : State).stw with conns := [{ id := 7, role := .owner, hello := true }] } })), 7, 255, serves_of rfl (by decide +kernel), by decide +kernel⟩,
   ⟨(withFlds [(0, STW_STATUS_BOOT, 5), (0, STW_STATUS_LC, LC_DEPLOYED), (0, STW_MGMT_LINK, 1)] ({ (State.reset : State) with stw := { (State.reset : State).stw with conns := [{ id := 7, role := .owner, hello := true }] } })), 7, 255, serves_of rfl (by decide +kernel), by decide +kernel⟩,
   ⟨(withFlds [(0, STW_STATUS_BOOT, 5), (0, STW_STATUS_LC, LC_DEPLOYED), (0, STW_MGMT_LINK, 1)] ({ (State.reset : State) with stw := { (State.reset : State).stw with conns := [{ id := 7, role := .owner, hello := true }] } })), 7, 0x2C, (Block.find .mer 0x2C).get (by decide +kernel), serves_of rfl (by decide +kernel), by and_intros <;> decide +kernel⟩,
   ⟨(withFlds [(0, STW_STATUS_BOOT, 5), (0, STW_STATUS_LC, LC_DEPLOYED), (0, STW_MGMT_LINK, 1)] ({ (State.reset : State) with stw := { (State.reset : State).stw with conns := [{ id := 7, role := .owner, hello := true }] } })), 7, serves_of rfl (by decide +kernel)⟩⟩

theorem test_hyp_ProvincesLiveAndDissolve :
    (∃ (s : State) (conn : Nat) (p : Nat), s.Serves conn 0x10 ∧ (s.fld 0 STW_STATUS_LC = LC_MANUFACTURE ∨ s.fld 0 STW_STATUS_LC = LC_DEPLOYED ∨ s.fld 0 STW_STATUS_LC = LC_RETURNED) ∧ 0 < p ∧ p ≤ 255 ∧ (s.prov p).st = .none_) ∧
    (∃ (s : State) (conn : Nat) (p : Nat), s.Serves conn 0x10 ∧ (∀ q, 0 < q → q < p → (s.prov q).st ≠ .none_) ∧ (s.fld 0 STW_STATUS_LC = LC_MANUFACTURE ∨ s.fld 0 STW_STATUS_LC = LC_DEPLOYED ∨ s.fld 0 STW_STATUS_LC = LC_RETURNED) ∧ 0 < p ∧ p ≤ 255 ∧ (s.prov p).st = .none_) ∧
    (∃ (s : State) (u : State) (conn : Nat) (p : Nat) (n : Nat) (r : List Byte), s.Serves conn 0x10 ∧ (s.newProv p).fromTemplate p r = .ok u ∧ (s.fld 0 STW_STATUS_LC = LC_MANUFACTURE ∨ s.fld 0 STW_STATUS_LC = LC_DEPLOYED ∨ s.fld 0 STW_STATUS_LC = LC_RETURNED) ∧ 0 < p ∧ p ≤ 255 ∧ (s.prov p).st = .none_ ∧ (s.newProv p).template n = some r) ∧
    (∃ (s : State) (u : State) (conn : Nat) (p : Nat) (what : ProvSet), s.Serves conn 0x11 ∧ s.provSet p what = .ok u ∧ s.Accepts p (fun st => st != .dissolving)) ∧
    (∃ (s : State) (conn : Nat) (p : Nat) (bytes : List Byte) (es : List RankEnt), s.Serves conn 0x12 ∧ s.Accepts p (fun st => st == .forming) ∧ rankEntries bytes = some es ∧ ((es.foldl upsertRank (s.prov p).ranktab).filter (fun e => e.rank.isNone)).length ≤ 8) ∧
    (∃ (s : State) (conn : Nat) (p : Nat), s.Serves conn 0x13 ∧ s.Accepts p (fun st => st == .forming) ∧ s.sealCheck p = HS_OK) ∧
    (∃ (s : State) (conn : Nat) (p : Nat), s.Serves conn 0x13 ∧ s.Accepts p (fun st => st == .forming) ∧ s.sealCheck p ≠ HS_OK) ∧
    (∃ (s : State) (conn : Nat) (p : Nat), s.Serves conn 0x13 ∧ (s.prov p).st ≠ .none_ ∧ p ≤ 255 ∧ s.provBusy p = true) ∧
    (∃ (s : State) (conn : Nat) (p : Nat), s.Serves conn 0x14 ∧ s.Accepts p (fun st => st == .running)) ∧
    (∃ (s : State) (conn : Nat) (p : Nat), s.Serves conn 0x15 ∧ s.Accepts p (fun st => st == .paused)) ∧
    (∃ (s : State) (conn : Nat) (p : Nat), s.Serves conn 0x16 ∧ s.Accepts p (fun st => st == .running)) ∧
    (∃ (s : State) (conn : Nat) (p : Nat), s.Serves conn 0x17 ∧ s.Accepts p (fun st => st == .sealed_ || st == .running || st == .paused)) ∧
    (∃ (s : State) (conn : Nat) (p : Nat), s.Serves conn 0x18 ∧ p ≤ 255 ∧ (s.prov p).st ≠ .none_ ∧ (s.prov p).st ≠ .dissolving) ∧
    (∃ (s : State) (conn : Nat) (p : Nat), s.Serves conn 0x18 ∧ p ≤ 255 ∧ (s.prov p).st ≠ .none_ ∧ (s.prov p).st = .dissolving) ∧
    (∃ (s : State) (p : Nat), (s.prov p).st = .dissolving ∧ (∀ c ∈ (s.prov p).chans, s.fld c MEM_STATUS_PROV ≠ p)) ∧
    (∃ (s : State) (conn : Nat) (p : Nat) (addr : Nat) (n : Nat), s.Serves conn 0x19 ∧ s.Accepts p (fun st => st == .sealed_ || st == .paused) ∧ 0 < n ∧ n ≤ 65536 ∧ (s.prov p).within .data addr n = true ∧ s.vpoison p addr n = false) ∧
    (∃ (s : State) (conn : Nat) (p : Nat), s.Serves conn 0x1A ∧ 0 < p ∧ s.Accepts p (fun st => st != .dissolving)) ∧
    (∃ (s : State) (conn : Nat), s.Serves conn 0x1A) ∧
    (∃ (s : State) (conn : Nat) (p : Nat) (rank : Nat), s.Serves conn 0x1B ∧ s.Accepts p (fun st => st == .sealed_ || st == .paused) ∧ 1 < s.nranks p ∧ (s.prov p).ranktab.any (fun e => e.rank == some rank) = true) ∧
    (∃ (s : State) (conn : Nat) (p : Nat), s.Serves conn 0x50 ∧ s.Accepts p (fun st => st == .paused)) ∧
    (∃ (s : State) (conn : Nat) (p : Nat), s.Serves conn 0x50 ∧ s.Accepts p (fun st => st == .paused || st == .sealed_ || st == .running) ∧ (s.prov p).recovery = true) :=
  ⟨⟨(withFlds [(0, STW_STATUS_BOOT, 5), (0, STW_STATUS_LC, LC_DEPLOYED), (0, STW_MGMT_LINK, 1)] ({ (State.reset : State) with stw := { (State.reset : State).stw with conns := [{ id := 7, role := .owner, hello := true }] } })), 7, 255, serves_of rfl (by decide +kernel), by and_intros <;> decide +kernel⟩,
   ⟨(withFlds [(0, STW_STATUS_BOOT, 5), (0, STW_STATUS_LC, LC_DEPLOYED), (0, STW_MGMT_LINK, 1)] ({ (State.reset : State) with stw := { (State.reset : State).stw with conns := [{ id := 7, role := .owner, hello := true }] } })), 7, 1, serves_of rfl (by decide +kernel), (by intro q h1 h2; omega), by and_intros <;> decide +kernel⟩,
   ⟨(withFlds [(0, STW_STATUS_BOOT, 5), (0, STW_STATUS_LC, LC_DEPLOYED), (0, STW_MGMT_LINK, 1)] ({ (State.reset : State) with stw := { (State.reset : State).stw with conns := [{ id := 7, role := .owner, hello := true }], tables := [{ kind := .templates, bytes := leBytes 4 1 ++ zeros 40 ++ List.replicate 8 0xFF ++ zeros 12, signer := .tamtur }] } })), (match ((withFlds [(0, STW_STATUS_BOOT, 5), (0, STW_STATUS_LC, LC_DEPLOYED), (0, STW_MGMT_LINK, 1)] ({ (State.reset : State) with stw := { (State.reset : State).stw with conns := [{ id := 7, role := .owner, hello := true }], tables := [{ kind := .templates, bytes := leBytes 4 1 ++ zeros 40 ++ List.replicate 8 0xFF ++ zeros 12, signer := .tamtur }] } })).newProv 1).fromTemplate 1 (leBytes 4 1 ++ zeros 40 ++ List.replicate 8 0xFF ++ zeros 12) with | .ok u => u | .error _ => State.reset), 7, 1, 1, (leBytes 4 1 ++ zeros 40 ++ List.replicate 8 0xFF ++ zeros 12), serves_of rfl (by decide +kernel), rfl, by and_intros <;> decide +kernel⟩,
   ⟨(withFlds [(0, STW_STATUS_BOOT, 5), (0, STW_STATUS_LC, LC_DEPLOYED), (0, STW_MGMT_LINK, 1)] ({ (withProv { prov1 with st := .forming } State.reset : State) with stw := { (withProv { prov1 with st := .forming } State.reset : State).stw with conns := [{ id := 7, role := .owner, hello := true }] } })), (match (withFlds [(0, STW_STATUS_BOOT, 5), (0, STW_STATUS_LC, LC_DEPLOYED), (0, STW_MGMT_LINK, 1)] ({ (withProv { prov1 with st := .forming } State.reset : State) with stw := { (withProv { prov1 with st := .forming } State.reset : State).stw with conns := [{ id := 7, role := .owner, hello := true }] } }) : State).provSet 1 (.legend 15 0) with | .ok u => u | .error _ => State.reset), 7, 1, (.legend 15 0), serves_of rfl (by decide +kernel), rfl, by unfold State.Accepts; and_intros <;> decide +kernel⟩,
   ⟨(withFlds [(0, STW_STATUS_BOOT, 5), (0, STW_STATUS_LC, LC_DEPLOYED), (0, STW_MGMT_LINK, 1)] ({ (withProv { prov1 with st := .forming } State.reset : State) with stw := { (withProv { prov1 with st := .forming } State.reset : State).stw with conns := [{ id := 7, role := .owner, hello := true }] } })), 7, 1, [], [], serves_of rfl (by decide +kernel), by unfold State.Accepts; and_intros <;> decide +kernel⟩,
   ⟨(withFlds [(0, STW_STATUS_BOOT, 5), (0, STW_STATUS_LC, LC_DEPLOYED), (0, STW_MGMT_LINK, 1), (1, PROV_MEM_SPLIT_READ, 8), (1, PROV_MEM_SPLIT_WRITE, 7), (1, PROV_MEM_SPLIT_REMOTE, 1)] ({ (withProv { prov1 with st := .forming } State.reset : State) with stw := { (withProv { prov1 with st := .forming } State.reset : State).stw with conns := [{ id := 7, role := .owner, hello := true }] } })), 7, 1, serves_of rfl (by decide +kernel), by unfold State.Accepts; and_intros <;> decide +kernel⟩,
   ⟨(withFlds [(0, STW_STATUS_BOOT, 5), (0, STW_STATUS_LC, LC_DEPLOYED), (0, STW_MGMT_LINK, 1), (1, PROV_MEM_SPLIT_READ, 0)] ({ (withProv { prov1 with st := .forming } State.reset : State) with stw := { (withProv { prov1 with st := .forming } State.reset : State).stw with conns := [{ id := 7, role := .owner, hello := true }] } })), 7, 1, serves_of rfl (by decide +kernel), by unfold State.Accepts; and_intros <;> decide +kernel⟩,
   ⟨(withFlds [(0, STW_STATUS_BOOT, 5), (0, STW_STATUS_LC, LC_DEPLOYED), (0, STW_MGMT_LINK, 1)] ({ (withProv { prov1 with st := .forming, sealing := some 9 } State.reset : State) with stw := { (withProv { prov1 with st := .forming, sealing := some 9 } State.reset : State).stw with conns := [{ id := 7, role := .owner, hello := true }] } })), 7, 1, serves_of rfl (by decide +kernel), by and_intros <;> decide +kernel⟩,
   ⟨(withFlds [(0, STW_STATUS_BOOT, 5), (0, STW_STATUS_LC, LC_DEPLOYED), (0, STW_MGMT_LINK, 1)] ({ (withProv prov1 State.reset : State) with stw := { (withProv prov1 State.reset : State).stw with conns := [{ id := 7, role := .owner, hello := true }] } })), 7, 1, serves_of rfl (by decide +kernel), by unfold State.Accepts; and_intros <;> decide +kernel⟩,
   ⟨(withFlds [(0, STW_STATUS_BOOT, 5), (0, STW_STATUS_LC, LC_DEPLOYED), (0, STW_MGMT_LINK, 1)] ({ (withProv { prov1 with st := .paused } State.reset : State) with stw := { (withProv { prov1 with st := .paused } State.reset : State).stw with conns := [{ id := 7, role := .owner, hello := true }] } })), 7, 1, serves_of rfl (by decide +kernel), by unfold State.Accepts; and_intros <;> decide +kernel⟩,
   ⟨(withFlds [(0, STW_STATUS_BOOT, 5), (0, STW_STATUS_LC, LC_DEPLOYED), (0, STW_MGMT_LINK, 1)] ({ (withProv prov1 State.reset : State) with stw := { (withProv prov1 State.reset : State).stw with conns := [{ id := 7, role := .owner, hello := true }] } })), 7, 1, serves_of rfl (by decide +kernel), by unfold State.Accepts; and_intros <;> decide +kernel⟩,
   ⟨(withFlds [(0, STW_STATUS_BOOT, 5), (0, STW_STATUS_LC, LC_DEPLOYED), (0, STW_MGMT_LINK, 1)] ({ (withProv prov1 State.reset : State) with stw := { (withProv prov1 State.reset : State).stw with conns := [{ id := 7, role := .owner, hello := true }] } })), 7, 1, serves_of rfl (by decide +kernel), by unfold State.Accepts; and_intros <;> decide +kernel⟩,
   ⟨(withFlds [(0, STW_STATUS_BOOT, 5), (0, STW_STATUS_LC, LC_DEPLOYED), (0, STW_MGMT_LINK, 1)] ({ (withProv prov1 State.reset : State) with stw := { (withProv prov1 State.reset : State).stw with conns := [{ id := 7, role := .owner, hello := true }] } })), 7, 1, serves_of rfl (by decide +kernel), by and_intros <;> decide +kernel⟩,
   ⟨(withFlds [(0, STW_STATUS_BOOT, 5), (0, STW_STATUS_LC, LC_DEPLOYED), (0, STW_MGMT_LINK, 1)] ({ (withProv { prov1 with st := .dissolving } State.reset : State) with stw := { (withProv { prov1 with st := .dissolving } State.reset : State).stw with conns := [{ id := 7, role := .owner, hello := true }] } })), 7, 1, serves_of rfl (by decide +kernel), by and_intros <;> decide +kernel⟩,
   ⟨(withFlds [(0, STW_STATUS_BOOT, 5), (0, STW_STATUS_LC, LC_DEPLOYED), (0, STW_MGMT_LINK, 1)] ({ (withProv { prov1 with st := .dissolving } State.reset : State) with stw := { (withProv { prov1 with st := .dissolving } State.reset : State).stw with conns := [{ id := 7, role := .owner, hello := true }] } })), 1, by and_intros <;> decide +kernel⟩,
   ⟨(withFlds [(0, STW_STATUS_BOOT, 5), (0, STW_STATUS_LC, LC_DEPLOYED), (0, STW_MGMT_LINK, 1)] ({ (withProv { prov1 with st := .paused } State.reset : State) with stw := { (withProv { prov1 with st := .paused } State.reset : State).stw with conns := [{ id := 7, role := .owner, hello := true }] } })), 7, 1, 0x3FFF0000, 65536, serves_of rfl (by decide +kernel), by unfold State.Accepts; and_intros <;> decide +kernel⟩,
   ⟨(withFlds [(0, STW_STATUS_BOOT, 5), (0, STW_STATUS_LC, LC_DEPLOYED), (0, STW_MGMT_LINK, 1)] ({ (withProv prov1 State.reset : State) with stw := { (withProv prov1 State.reset : State).stw with conns := [{ id := 7, role := .owner, hello := true }] } })), 7, 1, serves_of rfl (by decide +kernel), by unfold State.Accepts; and_intros <;> decide +kernel⟩,
   ⟨(withFlds [(0, STW_STATUS_BOOT, 5), (0, STW_STATUS_LC, LC_DEPLOYED), (0, STW_MGMT_LINK, 1)] ({ (withProv prov1 State.reset : State) with stw := { (withProv prov1 State.reset : State).stw with conns := [{ id := 7, role := .owner, hello := true }] } })), 7, serves_of rfl (by decide +kernel)⟩,
   ⟨(withFlds [(0, STW_STATUS_BOOT, 5), (0, STW_STATUS_LC, LC_DEPLOYED), (0, STW_MGMT_LINK, 1), (1, PROV_RANK_LASTRANK, 1)] ({ (withProv { prov1 with st := .paused, ranktab := [{ rank := some 0, state := 0, encap := 0, addr := [], devid := 0 }, { rank := some 1, state := 0, encap := 0, addr := [], devid := 9 }] } State.reset : State) with stw := { (withProv { prov1 with st := .paused, ranktab := [{ rank := some 0, state := 0, encap := 0, addr := [], devid := 0 }, { rank := some 1, state := 0, encap := 0, addr := [], devid := 9 }] } State.reset : State).stw with conns := [{ id := 7, role := .owner, hello := true }] } })), 7, 1, 1, serves_of rfl (by decide +kernel), by unfold State.Accepts; and_intros <;> decide +kernel⟩,
   ⟨(withFlds [(0, STW_STATUS_BOOT, 5), (0, STW_STATUS_LC, LC_DEPLOYED), (0, STW_MGMT_LINK, 1)] ({ (withProv { prov1 with st := .paused } State.reset : State) with stw := { (withProv { prov1 with st := .paused } State.reset : State).stw with conns := [{ id := 7, role := .owner, hello := true }] } })), 7, 1, serves_of rfl (by decide +kernel), by unfold State.Accepts; and_intros <;> decide +kernel⟩,
   ⟨(withFlds [(0, STW_STATUS_BOOT, 5), (0, STW_STATUS_LC, LC_DEPLOYED), (0, STW_MGMT_LINK, 1)] ({ (withProv { prov1 with st := .paused, recovery := true } State.reset : State) with stw := { (withProv { prov1 with st := .paused, recovery := true } State.reset : State).stw with conns := [{ id := 7, role := .owner, hello := true }] } })), 7, 1, serves_of rfl (by decide +kernel), by unfold State.Accepts; and_intros <;> decide +kernel⟩⟩

theorem test_hyp_StewardCommands :
    (∃ (s : State) (conn : Nat) (img : TableImg) (c : Cartridge), s.Serves conn 0x52 ∧ s.cartIn = some c ∧ s.cartWritable = true ∧ s.tableSig img = true ∧ TableImg.ok img = true ∧ (img.kind = .legend ∨ img.kind = .contour ∨ img.kind = .templates)) ∧
    (∃ (s : State) (u : State) (conn : Nat) (img : TableImg) (c : Cartridge), u = s.putTable img ∧ s.Serves conn 0x52 ∧ s.cartIn = some c ∧ s.cartWritable = true ∧ s.tableSig img = true ∧ TableImg.ok img = true ∧ img.kind = .itinerary) ∧
    (∃ (s : State) (conn : Nat) (img : TableImg) (c : Cartridge), s.Serves conn 0x53 ∧ s.cartIn = some c ∧ s.cartWritable = true ∧ s.tableSig img = true ∧ img.kind = .fabric) ∧
    (∃ (s : State) (conn : Nat) (ca : TableImg) (rev : TableImg) (c : Cartridge), s.Serves conn 0x54 ∧ s.cartIn = some c ∧ s.cartWritable = true ∧ s.tableSig ca = true ∧ s.tableSig rev = true ∧ ca.kind = .caList ∧ rev.kind = .revocations) ∧
    (∃ (s : State) (conn : Nat) (fw : FwImage) (c : Cartridge), s.Serves conn 0x55 ∧ s.cartIn = some c ∧ s.cartWritable = true ∧ fw.sigOk = true ∧ fw.svn ≤ 128 ∧ s.stw.svnFused ≤ fw.svn) ∧
    (∃ (s : State) (conn : Nat) (fw : FwImage) (c : Cartridge) (prev : Bool), s.Serves conn 0x56 ∧ s.cartIn = some c ∧ s.cartWritable = true ∧ s.fld 0 STW_STATUS_FW_UPDATE = (if prev = true then 3 else 1) ∧ fwSlot c s.otherSlot = some fw ∧ s.activationWaits = false) ∧
    (∃ (s : State) (conn : Nat) (fw : FwImage) (c : Cartridge) (prev : Bool), s.Serves conn 0x56 ∧ s.cartIn = some c ∧ s.cartWritable = true ∧ s.fld 0 STW_STATUS_FW_UPDATE = (if prev = true then 3 else 1) ∧ fwSlot c s.otherSlot = some fw ∧ s.activationWaits = true ∧ s.stw.actSince = none) ∧
    (∃ (s : State) (conn : Nat) (fw : FwImage) (c : Cartridge) (prev : Bool) (since : Nat), s.Serves conn 0x56 ∧ s.cartIn = some c ∧ s.cartWritable = true ∧ s.fld 0 STW_STATUS_FW_UPDATE = (if prev = true then 3 else 1) ∧ fwSlot c s.otherSlot = some fw ∧ s.activationWaits = true ∧ s.stw.actSince = some since ∧ since + 10000000000 ≤ s.frameTime) ∧
    (∃ (s : State) (conn : Nat) (fw : FwImage) (c : Cartridge), s.Serves conn 0x57 ∧ s.cartIn = some c ∧ s.cartWritable = true ∧ s.stw.running = some fw ∧ s.fld 0 STW_STATUS_FW_UPDATE = 3) ∧
    (∃ (s : State) (c : Cartridge), s.cartIn = some c ∧ s.cartWritable = true ∧ s.inReset = false ∧ s.stw.restarting = false) ∧
    (∃ (s : State) (c : Cartridge), s.cartIn = some c ∧ s.cartWritable = true ∧ s.stw.restarting = true ∧ s.stw.activating = none) ∧
    (∃ (s : State) (u : State) (before : Nat) (fw : FwImage) (c : Cartridge) (b : Bool), u = ({ s with stw := { s.stw with restarting := false, activating := none, lateImprints := [], running := some fw, activations := s.stw.activations + 1 } } : State).deriveAlias ∧ s.cartIn = some c ∧ s.cartWritable = true ∧ s.stw.restarting = true ∧ s.stw.activating = some (fw, b, before)) ∧
    (∃ (s : State) (before : Nat) (fw : FwImage) (c : Cartridge) (b : Bool), s.cartIn = some c ∧ s.cartWritable = true ∧ s.stw.restarting = true ∧ s.stw.activating = some (fw, b, before)) ∧
    (∃ (s : State) (before : Nat) (fw : FwImage) (c : Cartridge) (b : Bool), s.cartIn = some c ∧ s.cartWritable = true ∧ s.stw.restarting = true ∧ s.stw.activating = some (fw, b, before)) ∧
    (∃ (s : State) (u : State) (conn : Nat) (c : Cartridge) (tok : LifeToken), s.Serves conn 0x60 ∧ s.lifeStep tok false = .ok u ∧ s.cartIn = some c ∧ s.cartWritable = true) ∧
    (∃ (s : State) (u : State) (c : Cartridge) (tok : LifeToken), s.lifeStep tok true = .ok u ∧ s.cartIn = some c ∧ s.cartWritable = true ∧ s.inReset = false) ∧
    (∃ (s : State) (conn : Nat) (c : Cartridge), s.Serves conn 0x61 ∧ s.cartIn = some c ∧ s.cartWritable = true ∧ s.stw.life = LC_PROVISIONED ∧ s.anyProv = false) ∧
    (∃ (s : State) (conn : Nat) (c : Cartridge), s.Serves conn 0x40 ∧ s.cartIn = some c ∧ s.cartWritable = true ∧ s.fld 0 STW_STATUS_LC ≠ LC_DEPLOYED ∧ s.anyProv = false) ∧
    (∃ (s : State) (u : State) (conn : Nat) (c : Cartridge) (found : List ErrIn) (units : List (Nat × Nat)), u = found.foldl State.bistRec s ∧ s.Serves conn 0x40 ∧ s.cartIn = some c ∧ s.cartWritable = true ∧ units ≠ [] ∧ (∀ x ∈ units, x.1 < 8 ∧ x.2 < 32 ∧ s.unitOwner x.1 x.2 = 0)) ∧
    (∃ (s : State) (conn : Nat) (c : Cartridge) (ports : List Nat), s.Serves conn 0x40 ∧ s.cartIn = some c ∧ s.cartWritable = true ∧ s.fld 0 STW_STATUS_LC ≠ LC_DEPLOYED ∧ ports ≠ [] ∧ (∀ x ∈ ports, s.portLanes x ≠ 0 ∧ (s.port x).shares = [])) ∧
    (∃ (s : State) (conn : Nat) (c : Cartridge) (force : Bool), s.Serves conn 0x41 ∧ s.cartIn = some c ∧ s.cartWritable = true ∧ (s.anyProv = false ∨ force = true)) ∧
    (∃ (s : State) (c : Cartridge), s.cartIn = some c ∧ s.cartWritable = true ∧ s.stw.restarting = true) ∧
    (∃ (s : State) (conn : Nat) (slot : Nat) (c : Cartridge) (cut : Cut), s.Serves conn 0x20 ∧ s.cartIn = some c ∧ s.cartWritable = true ∧ s.Accepts slot (fun _ => true) ∧ s.fld 0 STW_STATUS_LC = LC_DEPLOYED ∧ s.cutDone slot = some cut ∧ cut.verified = false ∧ c.imprints.length < 8388608) ∧
    (∃ (s : State) (conn : Nat) (seq : Nat) (c : Cartridge) (r : List Byte), s.Serves conn 0x51 ∧ s.cartIn = some c ∧ s.cartWritable = true ∧ 2 ≤ c.imprints.length ∧ c.imprints[c.imprints.length / 2 - 1]? = some r ∧ leAt r 16 8 = seq) :=
  ⟨⟨(withFlds [(0, STW_STATUS_BOOT, 5), (0, STW_STATUS_LC, LC_DEPLOYED), (0, STW_MGMT_LINK, 1)] ({ (State.reset : State) with stw := { (State.reset : State).stw with conns := [{ id := 7, role := .owner, hello := true }], cart := some { id := 3, certOk := true, production := true, paired := some 0, pairSig := true, fwA := none, fwB := none, slotB := false, tables := [], testRecord := true, erases := [], spares := true, root := 0, imprints := [] }, cartId := some 3 } })), 7, { kind := .legend, bytes := [0, 0, 0, 0], signer := .tamtur }, { id := 3, certOk := true, production := true, paired := some 0, pairSig := true, fwA := none, fwB := none, slotB := false, tables := [], testRecord := true, erases := [], spares := true, root := 0, imprints := [] }, serves_of rfl (by decide +kernel), by and_intros <;> decide +kernel⟩,
   ⟨(withFlds [(0, STW_STATUS_BOOT, 5), (0, STW_STATUS_LC, LC_DEPLOYED), (0, STW_MGMT_LINK, 1)] ({ (State.reset : State) with stw := { (State.reset : State).stw with conns := [{ id := 7, role := .owner, hello := true }], cart := some { id := 3, certOk := true, production := true, paired := some 0, pairSig := true, fwA := none, fwB := none, slotB := false, tables := [], testRecord := true, erases := [], spares := true, root := 0, imprints := [] }, cartId := some 3 } })), _, 7, { kind := .itinerary, bytes := leBytes 8 0x524E4954492D4B46 ++ leBytes 2 1 ++ leBytes 2 3 ++ zeros 52 ++ [0, 1, 0, 0] ++ leBytes 2 1 ++ zeros 2 ++ leBytes 8 112 ++ [1, 1, 0, 0] ++ leBytes 2 1 ++ zeros 2 ++ leBytes 8 112 ++ [2, 1, 0, 0] ++ leBytes 2 1 ++ zeros 2 ++ leBytes 8 112 ++ zeros 16, signer := .tamtur }, { id := 3, certOk := true, production := true, paired := some 0, pairSig := true, fwA := none, fwB := none, slotB := false, tables := [], testRecord := true, erases := [], spares := true, root := 0, imprints := [] }, rfl, serves_of rfl (by decide +kernel), by and_intros <;> decide +kernel⟩,
   ⟨(withFlds [(0, STW_STATUS_BOOT, 5), (0, STW_STATUS_LC, LC_DEPLOYED), (0, STW_MGMT_LINK, 1)] ({ (State.reset : State) with stw := { (State.reset : State).stw with conns := [{ id := 7, role := .owner, hello := true }], cart := some { id := 3, certOk := true, production := true, paired := some 0, pairSig := true, fwA := none, fwB := none, slotB := false, tables := [], testRecord := true, erases := [], spares := true, root := 0, imprints := [] }, cartId := some 3 } })), 7, { kind := .fabric, bytes := [], signer := .tamtur }, { id := 3, certOk := true, production := true, paired := some 0, pairSig := true, fwA := none, fwB := none, slotB := false, tables := [], testRecord := true, erases := [], spares := true, root := 0, imprints := [] }, serves_of rfl (by decide +kernel), by and_intros <;> decide +kernel⟩,
   ⟨(withFlds [(0, STW_STATUS_BOOT, 5), (0, STW_STATUS_LC, LC_DEPLOYED), (0, STW_MGMT_LINK, 1)] ({ (State.reset : State) with stw := { (State.reset : State).stw with conns := [{ id := 7, role := .owner, hello := true }], cart := some { id := 3, certOk := true, production := true, paired := some 0, pairSig := true, fwA := none, fwB := none, slotB := false, tables := [], testRecord := true, erases := [], spares := true, root := 0, imprints := [] }, cartId := some 3 } })), 7, { kind := .caList, bytes := [], signer := .tamtur }, { kind := .revocations, bytes := [], signer := .tamtur }, { id := 3, certOk := true, production := true, paired := some 0, pairSig := true, fwA := none, fwB := none, slotB := false, tables := [], testRecord := true, erases := [], spares := true, root := 0, imprints := [] }, serves_of rfl (by decide +kernel), by and_intros <;> decide +kernel⟩,
   ⟨(withFlds [(0, STW_STATUS_BOOT, 5), (0, STW_STATUS_LC, LC_DEPLOYED), (0, STW_MGMT_LINK, 1)] ({ (State.reset : State) with stw := { (State.reset : State).stw with conns := [{ id := 7, role := .owner, hello := true }], cart := some { id := 3, certOk := true, production := true, paired := some 0, pairSig := true, fwA := none, fwB := none, slotB := false, tables := [], testRecord := true, erases := [], spares := true, root := 0, imprints := [] }, cartId := some 3 } })), 7, { digest := [1], version := 2, svn := 0, sigOk := true }, { id := 3, certOk := true, production := true, paired := some 0, pairSig := true, fwA := none, fwB := none, slotB := false, tables := [], testRecord := true, erases := [], spares := true, root := 0, imprints := [] }, serves_of rfl (by decide +kernel), by and_intros <;> decide +kernel⟩,
   ⟨(withFlds [(0, STW_STATUS_BOOT, 5), (0, STW_STATUS_LC, LC_DEPLOYED), (0, STW_MGMT_LINK, 1), (0, STW_STATUS_FW_UPDATE, 1)] ({ (State.reset : State) with stw := { (State.reset : State).stw with conns := [{ id := 7, role := .owner, hello := true }], cart := some { id := 3, certOk := true, production := true, paired := some 0, pairSig := true, fwA := none, fwB := some { digest := [1], version := 2, svn := 0, sigOk := true }, slotB := false, tables := [], testRecord := true, erases := [], spares := true, root := 0, imprints := [] }, cartId := some 3 } })), 7, { digest := [1], version := 2, svn := 0, sigOk := true }, { id := 3, certOk := true, production := true, paired := some 0, pairSig := true, fwA := none, fwB := some { digest := [1], version := 2, svn := 0, sigOk := true }, slotB := false, tables := [], testRecord := true, erases := [], spares := true, root := 0, imprints := [] }, false, serves_of rfl (by decide +kernel), by and_intros <;> decide +kernel⟩,
   ⟨(withFlds [(0, STW_STATUS_BOOT, 5), (0, STW_STATUS_LC, LC_DEPLOYED), (0, STW_MGMT_LINK, 1), (0, STW_STATUS_FW_UPDATE, 1)] ({ (State.reset : State) with stw := { (State.reset : State).stw with conns := [{ id := 7, role := .owner, hello := true }], cart := some { id := 3, certOk := true, production := true, paired := some 0, pairSig := true, fwA := none, fwB := some { digest := [1], version := 2, svn := 0, sigOk := true }, slotB := false, tables := [], testRecord := true, erases := [], spares := true, root := 0, imprints := [] }, cartId := some 3, reqs := [(1, .imprint 7 1)] } })), 7, { digest := [1], version := 2, svn := 0, sigOk := true }, { id := 3, certOk := true, production := true, paired := some 0, pairSig := true, fwA := none, fwB := some { digest := [1], version := 2, svn := 0, sigOk := true }, slotB := false, tables := [], testRecord := true, erases := [], spares := true, root := 0, imprints := [] }, false, serves_of rfl (by decide +kernel), by and_intros <;> decide +kernel⟩,
   ⟨{ (withFlds [(0, STW_STATUS_BOOT, 5), (0, STW_STATUS_LC, LC_DEPLOYED), (0, STW_MGMT_LINK, 1), (0, STW_STATUS_FW_UPDATE, 1)] ({ (State.reset : State) with stw := { (State.reset : State).stw with conns := [{ id := 7, role := .owner, hello := true }], cart := some { id := 3, certOk := true, production := true, paired := some 0, pairSig := true, fwA := none, fwB := some { digest := [1], version := 2, svn := 0, sigOk := true }, slotB := false, tables := [], testRecord := true, erases := [], spares := true, root := 0, imprints := [] }, cartId := some 3, reqs := [(1, .imprint 7 1)], actSince := some 0 } }) : State) with mer := { State.reset.mer with time := 10000000000 } }, 7, { digest := [1], version := 2, svn := 0, sigOk := true }, { id := 3, certOk := true, production := true, paired := some 0, pairSig := true, fwA := none, fwB := some { digest := [1], version := 2, svn := 0, sigOk := true }, slotB := false, tables := [], testRecord := true, erases := [], spares := true, root := 0, imprints := [] }, false, 0, serves_of rfl (by decide +kernel), by and_intros <;> decide +kernel⟩,
   ⟨(withFlds [(0, STW_STATUS_BOOT, 5), (0, STW_STATUS_LC, LC_DEPLOYED), (0, STW_MGMT_LINK, 1), (0, STW_STATUS_FW_UPDATE, 3)] ({ (State.reset : State) with stw := { (State.reset : State).stw with conns := [{ id := 7, role := .owner, hello := true }], cart := some { id := 3, certOk := true, production := true, paired := some 0, pairSig := true, fwA := none, fwB := none, slotB := false, tables := [], testRecord := true, erases := [], spares := true, root := 0, imprints := [] }, cartId := some 3, running := some { digest := [1], version := 2, svn := 0, sigOk := true } } })), 7, { digest := [1], version := 2, svn := 0, sigOk := true }, { id := 3, certOk := true, production := true, paired := some 0, pairSig := true, fwA := none, fwB := none, slotB := false, tables := [], testRecord := true, erases := [], spares := true, root := 0, imprints := [] }, serves_of rfl (by decide +kernel), by and_intros <;> decide +kernel⟩,
   ⟨(withFlds [(0, STW_STATUS_BOOT, 5), (0, STW_STATUS_LC, LC_DEPLOYED), (0, STW_MGMT_LINK, 1)] ({ (State.reset : State) with stw := { (State.reset : State).stw with conns := [{ id := 7, role := .owner, hello := true }], cart := some { id := 3, certOk := true, production := true, paired := some 0, pairSig := true, fwA := none, fwB := none, slotB := false, tables := [], testRecord := true, erases := [], spares := true, root := 0, imprints := [] }, cartId := some 3 } })), { id := 3, certOk := true, production := true, paired := some 0, pairSig := true, fwA := none, fwB := none, slotB := false, tables := [], testRecord := true, erases := [], spares := true, root := 0, imprints := [] }, by and_intros <;> decide +kernel⟩,
   ⟨(withFlds [(0, STW_STATUS_BOOT, 5), (0, STW_STATUS_LC, LC_DEPLOYED), (0, STW_MGMT_LINK, 1)] ({ (State.reset : State) with stw := { (State.reset : State).stw with conns := [{ id := 7, role := .owner, hello := true }], cart := some { id := 3, certOk := true, production := true, paired := some 0, pairSig := true, fwA := none, fwB := none, slotB := false, tables := [], testRecord := true, erases := [], spares := true, root := 0, imprints := [] }, cartId := some 3, restarting := true } })), { id := 3, certOk := true, production := true, paired := some 0, pairSig := true, fwA := none, fwB := none, slotB := false, tables := [], testRecord := true, erases := [], spares := true, root := 0, imprints := [] }, by and_intros <;> decide +kernel⟩,
   ⟨(withFlds [(0, STW_STATUS_BOOT, 5), (0, STW_STATUS_LC, LC_DEPLOYED), (0, STW_MGMT_LINK, 1)] ({ (State.reset : State) with stw := { (State.reset : State).stw with conns := [{ id := 7, role := .owner, hello := true }], cart := some { id := 3, certOk := true, production := true, paired := some 0, pairSig := true, fwA := none, fwB := none, slotB := false, tables := [], testRecord := true, erases := [], spares := true, root := 0, imprints := [] }, cartId := some 3, restarting := true, activating := some ({ digest := [1], version := 2, svn := 0, sigOk := true }, true, 1) } })), _, 1, { digest := [1], version := 2, svn := 0, sigOk := true }, { id := 3, certOk := true, production := true, paired := some 0, pairSig := true, fwA := none, fwB := none, slotB := false, tables := [], testRecord := true, erases := [], spares := true, root := 0, imprints := [] }, true, rfl, by and_intros <;> decide +kernel⟩,
   ⟨(withFlds [(0, STW_STATUS_BOOT, 5), (0, STW_STATUS_LC, LC_DEPLOYED), (0, STW_MGMT_LINK, 1)] ({ (State.reset : State) with stw := { (State.reset : State).stw with conns := [{ id := 7, role := .owner, hello := true }], cart := some { id := 3, certOk := true, production := true, paired := some 0, pairSig := true, fwA := none, fwB := none, slotB := false, tables := [], testRecord := true, erases := [], spares := true, root := 0, imprints := [] }, cartId := some 3, restarting := true, activating := some ({ digest := [1], version := 2, svn := 0, sigOk := true }, true, 1) } })), 1, { digest := [1], version := 2, svn := 0, sigOk := true }, { id := 3, certOk := true, production := true, paired := some 0, pairSig := true, fwA := none, fwB := none, slotB := false, tables := [], testRecord := true, erases := [], spares := true, root := 0, imprints := [] }, true, by and_intros <;> decide +kernel⟩,
   ⟨(withFlds [(0, STW_STATUS_BOOT, 5), (0, STW_STATUS_LC, LC_DEPLOYED), (0, STW_MGMT_LINK, 1)] ({ (State.reset : State) with stw := { (State.reset : State).stw with conns := [{ id := 7, role := .owner, hello := true }], cart := some { id := 3, certOk := true, production := true, paired := some 0, pairSig := true, fwA := none, fwB := none, slotB := false, tables := [], testRecord := true, erases := [], spares := true, root := 0, imprints := [] }, cartId := some 3, restarting := true, activating := some ({ digest := [1], version := 2, svn := 0, sigOk := true }, true, 1) } })), 1, { digest := [1], version := 2, svn := 0, sigOk := true }, { id := 3, certOk := true, production := true, paired := some 0, pairSig := true, fwA := none, fwB := none, slotB := false, tables := [], testRecord := true, erases := [], spares := true, root := 0, imprints := [] }, true, by and_intros <;> decide +kernel⟩,
   ⟨(withFlds [(0, STW_STATUS_BOOT, 5), (0, STW_STATUS_LC, LC_DEPLOYED), (0, STW_MGMT_LINK, 1)] ({ (State.reset : State) with stw := { (State.reset : State).stw with conns := [{ id := 7, role := .owner, hello := true }], cart := some { id := 3, certOk := true, production := true, paired := some 0, pairSig := true, fwA := none, fwB := none, slotB := false, tables := [], testRecord := true, erases := [], spares := true, root := 0, imprints := [] }, cartId := some 3, fuseK := 3 } })), (match (withFlds [(0, STW_STATUS_BOOT, 5), (0, STW_STATUS_LC, LC_DEPLOYED), (0, STW_MGMT_LINK, 1)] ({ (State.reset : State) with stw := { (State.reset : State).stw with conns := [{ id := 7, role := .owner, hello := true }], cart := some { id := 3, certOk := true, production := true, paired := some 0, pairSig := true, fwA := none, fwB := none, slotB := false, tables := [], testRecord := true, erases := [], spares := true, root := 0, imprints := [] }, cartId := some 3, fuseK := 3 } }) : State).lifeStep ⟨5, true, true, true⟩ false with | .ok u => u | .error _ => State.reset), 7, { id := 3, certOk := true, production := true, paired := some 0, pairSig := true, fwA := none, fwB := none, slotB := false, tables := [], testRecord := true, erases := [], spares := true, root := 0, imprints := [] }, ⟨5, true, true, true⟩, serves_of rfl (by decide +kernel), rfl, by and_intros <;> decide +kernel⟩,
   ⟨(withFlds [(0, STW_STATUS_BOOT, 5), (0, STW_STATUS_LC, LC_PROVISIONED), (0, STW_MGMT_LINK, 1)] ({ (State.reset : State) with stw := { (State.reset : State).stw with conns := [{ id := 7, role := .owner, hello := true }], cart := some { id := 3, certOk := true, production := true, paired := some 0, pairSig := true, fwA := none, fwB := none, slotB := false, tables := [], testRecord := true, erases := [], spares := true, root := 0, imprints := [] }, cartId := some 3, fuseK := 2, sensed := true } })), (match (withFlds [(0, STW_STATUS_BOOT, 5), (0, STW_STATUS_LC, LC_PROVISIONED), (0, STW_MGMT_LINK, 1)] ({ (State.reset : State) with stw := { (State.reset : State).stw with conns := [{ id := 7, role := .owner, hello := true }], cart := some { id := 3, certOk := true, production := true, paired := some 0, pairSig := true, fwA := none, fwB := none, slotB := false, tables := [], testRecord := true, erases := [], spares := true, root := 0, imprints := [] }, cartId := some 3, fuseK := 2, sensed := true } }) : State).lifeStep ⟨5, true, true, true⟩ true with | .ok u => u | .error _ => State.reset), { id := 3, certOk := true, production := true, paired := some 0, pairSig := true, fwA := none, fwB := none, slotB := false, tables := [], testRecord := true, erases := [], spares := true, root := 0, imprints := [] }, ⟨5, true, true, true⟩, rfl, by and_intros <;> decide +kernel⟩,
   ⟨(withFlds [(0, STW_STATUS_BOOT, 5), (0, STW_STATUS_LC, LC_PROVISIONED), (0, STW_MGMT_LINK, 1)] ({ (State.reset : State) with stw := { (State.reset : State).stw with conns := [{ id := 7, role := .owner, hello := true }], cart := some { id := 3, certOk := true, production := true, paired := some 0, pairSig := true, fwA := none, fwB := none, slotB := false, tables := [], testRecord := true, erases := [], spares := true, root := 0, imprints := [] }, cartId := some 3, fuseK := 2 } })), 7, { id := 3, certOk := true, production := true, paired := some 0, pairSig := true, fwA := none, fwB := none, slotB := false, tables := [], testRecord := true, erases := [], spares := true, root := 0, imprints := [] }, serves_of rfl (by decide +kernel), by and_intros <;> decide +kernel⟩,
   ⟨(withFlds [(0, STW_STATUS_BOOT, 5), (0, STW_STATUS_LC, LC_PROVISIONED), (0, STW_MGMT_LINK, 1)] ({ (State.reset : State) with stw := { (State.reset : State).stw with conns := [{ id := 7, role := .owner, hello := true }], cart := some { id := 3, certOk := true, production := true, paired := some 0, pairSig := true, fwA := none, fwB := none, slotB := false, tables := [], testRecord := true, erases := [], spares := true, root := 0, imprints := [] }, cartId := some 3 } })), 7, { id := 3, certOk := true, production := true, paired := some 0, pairSig := true, fwA := none, fwB := none, slotB := false, tables := [], testRecord := true, erases := [], spares := true, root := 0, imprints := [] }, serves_of rfl (by decide +kernel), by and_intros <;> decide +kernel⟩,
   ⟨(withFlds [(0, STW_STATUS_BOOT, 5), (0, STW_STATUS_LC, LC_DEPLOYED), (0, STW_MGMT_LINK, 1)] ({ (State.reset : State) with stw := { (State.reset : State).stw with conns := [{ id := 7, role := .owner, hello := true }], cart := some { id := 3, certOk := true, production := true, paired := some 0, pairSig := true, fwA := none, fwB := none, slotB := false, tables := [], testRecord := true, erases := [], spares := true, root := 0, imprints := [] }, cartId := some 3 } })), _, 7, { id := 3, certOk := true, production := true, paired := some 0, pairSig := true, fwA := none, fwB := none, slotB := false, tables := [], testRecord := true, erases := [], spares := true, root := 0, imprints := [] }, [], [(7, 31)], rfl, serves_of rfl (by decide +kernel), by and_intros <;> decide +kernel⟩,
   ⟨(withFlds [(3, (quarterFld 3), 1)] (withFlds [(0, STW_STATUS_BOOT, 5), (0, STW_STATUS_LC, LC_PROVISIONED), (0, STW_MGMT_LINK, 1)] ({ (State.reset : State) with stw := { (State.reset : State).stw with conns := [{ id := 7, role := .owner, hello := true }], cart := some { id := 3, certOk := true, production := true, paired := some 0, pairSig := true, fwA := none, fwB := none, slotB := false, tables := [], testRecord := true, erases := [], spares := true, root := 0, imprints := [] }, cartId := some 3 } }))), 7, { id := 3, certOk := true, production := true, paired := some 0, pairSig := true, fwA := none, fwB := none, slotB := false, tables := [], testRecord := true, erases := [], spares := true, root := 0, imprints := [] }, [60], serves_of rfl (by decide +kernel), by and_intros <;> decide +kernel⟩,
   ⟨(withFlds [(0, STW_STATUS_BOOT, 5), (0, STW_STATUS_LC, LC_DEPLOYED), (0, STW_MGMT_LINK, 1)] ({ (State.reset : State) with stw := { (State.reset : State).stw with conns := [{ id := 7, role := .owner, hello := true }], cart := some { id := 3, certOk := true, production := true, paired := some 0, pairSig := true, fwA := none, fwB := none, slotB := false, tables := [], testRecord := true, erases := [], spares := true, root := 0, imprints := [] }, cartId := some 3 } })), 7, { id := 3, certOk := true, production := true, paired := some 0, pairSig := true, fwA := none, fwB := none, slotB := false, tables := [], testRecord := true, erases := [], spares := true, root := 0, imprints := [] }, false, serves_of rfl (by decide +kernel), by and_intros <;> decide +kernel⟩,
   ⟨(withFlds [(0, STW_STATUS_BOOT, 5), (0, STW_STATUS_LC, LC_DEPLOYED), (0, STW_MGMT_LINK, 1)] ({ (State.reset : State) with stw := { (State.reset : State).stw with conns := [{ id := 7, role := .owner, hello := true }], cart := some { id := 3, certOk := true, production := true, paired := some 0, pairSig := true, fwA := none, fwB := none, slotB := false, tables := [], testRecord := true, erases := [], spares := true, root := 0, imprints := [] }, cartId := some 3, restarting := true } })), { id := 3, certOk := true, production := true, paired := some 0, pairSig := true, fwA := none, fwB := none, slotB := false, tables := [], testRecord := true, erases := [], spares := true, root := 0, imprints := [] }, by and_intros <;> decide +kernel⟩,
   ⟨(withFlds [(0, STW_STATUS_BOOT, 5), (0, STW_STATUS_LC, LC_DEPLOYED), (0, STW_MGMT_LINK, 1)] ({ (withProv { prov1 with st := .paused, cut := some { frame := 3, complete := true } } State.reset : State) with stw := { (withProv { prov1 with st := .paused, cut := some { frame := 3, complete := true } } State.reset : State).stw with conns := [{ id := 7, role := .owner, hello := true }], cart := some { id := 3, certOk := true, production := true, paired := some 0, pairSig := true, fwA := none, fwB := none, slotB := false, tables := [], testRecord := true, erases := [], spares := true, root := 0, imprints := [] }, cartId := some 3 } })), 7, 1, { id := 3, certOk := true, production := true, paired := some 0, pairSig := true, fwA := none, fwB := none, slotB := false, tables := [], testRecord := true, erases := [], spares := true, root := 0, imprints := [] }, { frame := 3, complete := true }, serves_of rfl (by decide +kernel), by unfold State.Accepts; and_intros <;> decide +kernel⟩,
   ⟨(withFlds [(0, STW_STATUS_BOOT, 5), (0, STW_STATUS_LC, LC_DEPLOYED), (0, STW_MGMT_LINK, 1)] ({ (State.reset : State) with stw := { (State.reset : State).stw with conns := [{ id := 7, role := .owner, hello := true }], cart := some { id := 3, certOk := true, production := true, paired := some 0, pairSig := true, fwA := none, fwB := none, slotB := false, tables := [], testRecord := true, erases := [], spares := true, root := 0, imprints := [leBytes 16 0 ++ leBytes 8 5, leBytes 16 0 ++ leBytes 8 6] }, cartId := some 3 } })), 7, 5, { id := 3, certOk := true, production := true, paired := some 0, pairSig := true, fwA := none, fwB := none, slotB := false, tables := [], testRecord := true, erases := [], spares := true, root := 0, imprints := [leBytes 16 0 ++ leBytes 8 5, leBytes 16 0 ++ leBytes 8 6] }, (leBytes 16 0 ++ leBytes 8 5), serves_of rfl (by decide +kernel), by and_intros <;> decide +kernel⟩⟩

theorem test_hyp_BootFollowsItsStages :
    (∃ (s : State), s.pinReset = true ∧ s.railLow = []) ∧
    (∃ (s : State), s.pinReset = true ∧ s.railLow ≠ []) ∧
    (∃ (rail : Nat), rail < 12) ∧
    (∃ (s : State), s.railLow ≠ [] ∧ s.pinReset = false) ∧
    (∃ (s : State), s.inReset = false ∧ s.boot ≠ BOOT_ROM) ∧
    (∃ (s : State), s.inReset = false) ∧
    (∃ (s : State) (clk : Nat), s.inReset = false ∧ 2 ≤ clk ∧ clk < 6) ∧
    (∃ (s : State), s.inReset = false ∧ s.boot ≠ BOOT_ROM) ∧
    (∃ (s : State), s.inReset = false) ∧
    (∃ (s : State), s.inReset = false ∧ s.boot = BOOT_ROM ∧ 0 ∉ s.clkLow ∧ s.stw.life ≠ LC_BLANK) ∧
    (∃ (s : State), s.inReset = false ∧ s.boot = BOOT_ROM ∧ 0 ∉ s.clkLow ∧ s.stw.life = LC_BLANK) ∧
    (∃ (s : State) (c : Cartridge), (s.stw.cart = none ∨ s.stw.cart = some c ∧ s.cartOk c = false) ∧ s.inReset = false ∧ s.boot = BOOT_CARTRIDGE) ∧
    (∃ (s : State) (u : State) (c : Cartridge), u = s.setFld 0 STW_STATUS_CART_PRESENT 1 ∧ s.inReset = false ∧ s.boot = BOOT_CARTRIDGE ∧ s.stw.cart = some c ∧ s.cartOk c = true) ∧
    (∃ (s : State), s.inReset = false ∧ s.boot = BOOT_SELFTEST) ∧
    (∃ (s : State), s.inReset = false ∧ s.boot = BOOT_HBM_INIT) ∧
    (∃ (s : State) (u : State) (fab : Fabric), u = (s.setReg 0 MER_EPOCH (BitVec.ofNat 64 fab.epoch)).setReg 0 MER_BASE_FRAME (BitVec.ofNat 64 fab.base) ∧ s.inReset = false ∧ s.boot = BOOT_BRINGUP ∧ s.stw.brought = false ∧ s.net.fabric = some fab) ∧
    (∃ (s : State), s.inReset = false ∧ s.boot = BOOT_BRINGUP ∧ s.stw.brought = true) ∧
    (∃ (s : State), s.inReset = false ∧ s.boot = BOOT_SHUTDOWN ∧ s.anyProv = false) ∧
    (∃ (s : State) (u : State) (c : Cartridge), u = { s with stw := { s.stw with cartSeen := none, cartPolls := 10 } } ∧ s.inReset = false ∧ s.stw.cartSeen = none ∧ s.stw.cartPolls = 9 ∧ s.stw.cart = some c) ∧
    (∃ (s : State) (u : State) (c : Cartridge), u = { s with stw := { s.stw with cartSeen := some c.id, cartPolls := 10 } } ∧ s.inReset = false ∧ s.stw.cartSeen = some c.id ∧ s.stw.cartPolls = 9 ∧ s.stw.cart = none) ∧
    (∃ (s : State) (n : Nat), n < 256 ∧ s.perst = true) ∧
    (∃ (s : State), s.perst = false) ∧
    (∃ (s : State) (part : Nat) (blocks : List Nat) (er : List (Nat × Nat)) (c : Cartridge), s.cartIn = some c ∧ s.cartWritable = true ∧ 1 ≤ part ∧ part ≤ 9 ∧ er = (blocks.filter (fun b => partOfBlock b == part)).foldl eraseOnce c.erases ∧ er ≠ []) :=
  ⟨⟨{ State.reset with pinReset := true }, by and_intros <;> decide +kernel⟩,
   ⟨{ State.reset with pinReset := true, railLow := [11] }, by and_intros <;> decide +kernel⟩,
   ⟨11, by decide +kernel⟩,
   ⟨{ State.reset with railLow := [11] }, by and_intros <;> decide +kernel⟩,
   ⟨(withFlds [(0, STW_STATUS_BOOT, 1)] (State.reset)), by and_intros <;> decide +kernel⟩,
   ⟨State.reset, by decide +kernel⟩,
   ⟨State.reset, 5, by and_intros <;> decide +kernel⟩,
   ⟨(withFlds [(0, STW_STATUS_BOOT, 1)] ({ State.reset with clkLow := [0] })), by and_intros <;> decide +kernel⟩,
   ⟨State.reset, by decide +kernel⟩,
   ⟨{ State.reset with stw := { State.reset.stw with fuseK := 3 } }, by and_intros <;> decide +kernel⟩,
   ⟨State.reset, by and_intros <;> decide +kernel⟩,
   ⟨(withFlds [(0, STW_STATUS_BOOT, BOOT_CARTRIDGE)] ({ State.reset with stw := { State.reset.stw with cart := some { id := 3, certOk := false, production := true, paired := some 0, pairSig := true, fwA := none, fwB := none, slotB := false, tables := [], testRecord := true, erases := [], spares := true, root := 0, imprints := [] } } })), { id := 3, certOk := false, production := true, paired := some 0, pairSig := true, fwA := none, fwB := none, slotB := false, tables := [], testRecord := true, erases := [], spares := true, root := 0, imprints := [] }, Or.inr ⟨rfl, by decide +kernel⟩, by and_intros <;> decide +kernel⟩,
   ⟨(withFlds [(0, STW_STATUS_BOOT, BOOT_CARTRIDGE)] ({ State.reset with stw := { State.reset.stw with cart := some { id := 3, certOk := true, production := true, paired := some 0, pairSig := true, fwA := none, fwB := none, slotB := false, tables := [], testRecord := true, erases := [], spares := true, root := 0, imprints := [] }, fuseK := 3 } })), _, { id := 3, certOk := true, production := true, paired := some 0, pairSig := true, fwA := none, fwB := none, slotB := false, tables := [], testRecord := true, erases := [], spares := true, root := 0, imprints := [] }, rfl, by and_intros <;> decide +kernel⟩,
   ⟨(withFlds [(0, STW_STATUS_BOOT, BOOT_SELFTEST)] (State.reset)), by and_intros <;> decide +kernel⟩,
   ⟨(withFlds [(0, STW_STATUS_BOOT, BOOT_HBM_INIT)] (State.reset)), by and_intros <;> decide +kernel⟩,
   ⟨(withFlds [(0, STW_STATUS_BOOT, BOOT_BRINGUP)] ({ State.reset with net := { fabric := some { laneModes := [1], mac := 2, ip6 := none, epoch := 3, base := 4, period := 16, cages := [(0, 3)], caks := [60], profile := 1, inlet := true, regulators := 2, tcp := 1000, tenG := true } } })), _, { laneModes := [1], mac := 2, ip6 := none, epoch := 3, base := 4, period := 16, cages := [(0, 3)], caks := [60], profile := 1, inlet := true, regulators := 2, tcp := 1000, tenG := true }, rfl, by and_intros <;> decide +kernel⟩,
   ⟨(withFlds [(0, STW_STATUS_BOOT, BOOT_BRINGUP)] ({ State.reset with stw := { State.reset.stw with brought := true } })), by and_intros <;> decide +kernel⟩,
   ⟨(withFlds [(0, STW_STATUS_BOOT, BOOT_SHUTDOWN)] (State.reset)), by and_intros <;> decide +kernel⟩,
   ⟨{ State.reset with stw := { State.reset.stw with cartSeen := none, cartPolls := 9, cart := some { id := 3, certOk := true, production := true, paired := some 0, pairSig := true, fwA := none, fwB := none, slotB := false, tables := [], testRecord := true, erases := [], spares := true, root := 0, imprints := [] }, cartId := some 3 } }, _, { id := 3, certOk := true, production := true, paired := some 0, pairSig := true, fwA := none, fwB := none, slotB := false, tables := [], testRecord := true, erases := [], spares := true, root := 0, imprints := [] }, rfl, by and_intros <;> decide +kernel⟩,
   ⟨{ State.reset with stw := { State.reset.stw with cartSeen := some 3, cartPolls := 9, cartId := some 3 } }, _, { id := 3, certOk := true, production := true, paired := some 0, pairSig := true, fwA := none, fwB := none, slotB := false, tables := [], testRecord := true, erases := [], spares := true, root := 0, imprints := [] }, rfl, by and_intros <;> decide +kernel⟩,
   ⟨{ State.reset with perst := true }, 255, by and_intros <;> decide +kernel⟩,
   ⟨{ State.reset with perst := false }, by decide +kernel⟩,
   ⟨{ State.reset with stw := { State.reset.stw with cart := some { id := 3, certOk := true, production := true, paired := some 0, pairSig := true, fwA := none, fwB := none, slotB := false, tables := [], testRecord := true, erases := [], spares := true, root := 0, imprints := [] }, cartId := some 3 } }, 9, [19844, 19844, 3], [(19844, 2)], { id := 3, certOk := true, production := true, paired := some 0, pairSig := true, fwA := none, fwB := none, slotB := false, tables := [], testRecord := true, erases := [], spares := true, root := 0, imprints := [] }, by and_intros <;> decide +kernel⟩⟩

theorem test_hyp_TapIdcodeAndBypass :
    (∃ (s : State), 4 * s.fld 0 DEV_REVISION_MAJOR + s.fld 0 DEV_REVISION_MINOR < 16) ∧
    (∃ (s : State) (i : TapInsn), s.stw.sensed = false ∧ i ≠ .idcode) ∧
    (∃ (s : State) (u : State) (i : TapInsn) (program : Nat) (units : List (Nat × Nat)) (ports : List Nat) (found : List ErrIn), ({ s with tap := i } : State).runTest program units ports found = .ok u ∧ s.tapOk i = true ∧ i = .bist program units ports found ∧ s.inReset = false) :=
  ⟨⟨(withFlds [(0, DEV_REVISION_MAJOR, 3), (0, DEV_REVISION_MINOR, 3)] (State.reset)), by decide +kernel⟩,
   ⟨State.reset, (.other 31), by and_intros <;> decide +kernel⟩,
   ⟨{ State.reset with stw := { State.reset.stw with sensed := true, fuseK := 1 } }, (match ({ ({ State.reset with stw := { State.reset.stw with sensed := true, fuseK := 1 } } : State) with tap := .bist 4 [(7, 31)] [] [] } : State).runTest 4 [(7, 31)] [] [] with | .ok u => u | .error _ => State.reset), (.bist 4 [(7, 31)] [] []), 4, [(7, 31)], [], [], rfl, by and_intros <;> decide +kernel⟩⟩

theorem test_hyp_ErrorRecordsAreQueuedAndHandled :
    (∃ (s : State) (r : ErrIn), causeSev r.cause ≠ 3 ∧ Sparse.get [] s.errs.queues (r.die * 16 + causeSubsystem r.cause) = []) ∧
    (∃ (s : State) (r : ErrIn), causeSev r.cause = 2 ∧ r.prov ≠ 0 ∧ (s.prov r.prov).st ≠ .none_) ∧
    (∃ (s : State) (cause : Nat), causeSev cause = 3 ∧ s.fld 0 TST_STATUS_FATAL = 0 ∧ cause < 2 ^ 16) ∧
    (∃ (s : State), s.errs.lost ≠ 0 ∧ (∀ t ∈ s.errs.lostAt, t + 1000000000 ≤ s.frameTime)) ∧
    (∃ (s : State), s.errs.lost ≠ 0 ∧ (∃ t ∈ s.errs.lostAt, s.frameTime < t + 1000000000)) ∧
    (∃ (s : State) (u : State) (k : Nat) (march : Nat) (h : ErrRec) (g : ErrRec) (x : State × Bool), u = { s with errs := { s.errs with queues := Sparse.set [] s.errs.queues k ((Sparse.get [] s.errs.queues k).drop 1) } } ∧ x = (u.setFld 0 TST_STATUS_QFULL (b01 u.anyFull)).judge h march ∧ g = { h with lasting := h.lasting || x.2 } ∧ s.stw.restarting = false ∧ s.fld 0 TST_STATUS_FATAL = 0 ∧ s.headRec = some (k, h)) :=
  ⟨⟨State.reset, { cause := CHANNEL_FAILING, prov := 0, die := 7, unit := 1, addr := 64, bit := 2, aux := 3, detail0 := 0, detail1 := 0 }, by and_intros <;> decide +kernel⟩,
   ⟨(withProv prov1 State.reset), { cause := TRICK_FAULT, prov := 1, die := 7, unit := 1, addr := 64, bit := 2, aux := 3, detail0 := 0, detail1 := 0 }, by and_intros <;> decide +kernel⟩,
   ⟨State.reset, STEWARD_FAIL, by and_intros <;> decide +kernel⟩,
   ⟨{ State.reset with errs := { lost := 5 } }, by and_intros <;> decide +kernel⟩,
   ⟨{ State.reset with errs := { lost := 5, lostAt := some 0 } }, by and_intros <;> decide +kernel⟩,
   ⟨{ State.reset with errs := { queues := [(115, [{ cause := CHANNEL_FAILING, sev := 1, die := 7, seq := 4 }])] } }, _, 115, 0, { cause := CHANNEL_FAILING, sev := 1, die := 7, seq := 4 }, _, _, rfl, rfl, rfl, by and_intros <;> decide +kernel⟩⟩

theorem test_hyp_PowerAndThrottling :
    (∃ (s : State) (img : List Byte), s.tableOf .contour = some img) ∧
    (∃ (s : State) (m : Nat) (m : Nat), s.pwr.avs = true ∧ s.pwr.rise = some m ∧ m < 2048) ∧
    (∃ (s : State), s.pwr.avs = true ∧ s.pwr.rise = none) ∧
    (∃ (s : State), s.pwr.avs = true) ∧
    (∃ (s : State) (amps : Nat), s.fld 0 PWR_CAP_ICC_A < amps ∧ s.pwr.fast = false) ∧
    (∃ (s : State), s.pwr.fast = true) ∧
    (∃ (reads : List (List (Option Int))), reads.length = 13) ∧
    (∃ (s : State) (u : State) (d : Nat × Int), u = { s with pwr := { s.pwr with trip := true } }.dropClock 500 2 ∧ s.pwr.dies.find? (fun e => decide (1150 ≤ e.2)) = some d) ∧
    (∃ (s : State) (m : Nat), m < 12 ∧ 1050 ≤ s.stackTemp m) ∧
    (∃ (s : State) (word : Nat), s.net.fabric.map Fabric.inlet = some true ∧ -100 ≤ linear11 word ∧ linear11 word ≤ 700) ∧
    (∃ (s : State) (word : Nat), s.net.fabric.map Fabric.inlet = some true ∧ (linear11 word < -100 ∨ 700 < linear11 word)) ∧
    (∃ (s : State), s.inReset = false ∧ s.errs.thrToggle = false ∧ s.errs.thrLow = false) ∧
    (∃ (s : State), s.inReset = false ∧ s.errs.thrToggle = false ∧ s.errs.thrLow = true) ∧
    (∃ (s : State), s.inReset = false ∧ s.errs.thrToggle = true ∧ s.errs.thrLow = false) ∧
    (∃ (s : State), s.inReset = false ∧ s.errs.thrToggle = true ∧ s.errs.thrLow = true) ∧
    (∃ (s : State), s.inReset = false ∧ s.errs.thrToggle = true ∧ s.errs.thrLow = false) ∧
    (∃ (s : State), s.inReset = false ∧ s.fld 0 TST_THROTTLE_ASSERTED = 1 ∧ s.pwr.qualified = false) ∧
    (∃ (s : State), s.inReset = false ∧ s.fld 0 TST_THROTTLE_ASSERTED = 1) ∧
    (∃ (s : State), s.inReset = false) ∧
    (∃ (s : State) (u : State) (amps : Nat) (img : List Byte) (util : List Nat), u = (List.range 66).foldl (fun s n => if n < 64 ∧ s.portLanes n = 0 then s else s.machStep img n util amps s.pwr.restart) s ∧ s.tableOf .itinerary = some img) :=
  ⟨⟨{ State.reset with pwr := { State.reset.pwr with pout := [400, 300] }, stw := { tables := [{ kind := .contour, bytes := leBytes 8 0x52544E4F432D4B46 ++ leBytes 2 1 ++ leBytes 2 6 ++ zeros 52 ++ [0, 0xFF, 2, 0] ++ leBytes 4 160 ++ zeros 8 ++ [2, 0xFF, 2, 0] ++ leBytes 4 168 ++ zeros 8 ++ [3, 0xFF, 2, 0] ++ leBytes 4 168 ++ zeros 8 ++ [1, 0, 2, 0] ++ leBytes 4 176 ++ zeros 8 ++ [1, 1, 2, 0] ++ leBytes 4 176 ++ zeros 8 ++ [1, 2, 2, 0] ++ leBytes 4 176 ++ zeros 8 ++ leBytes 2 500 ++ leBytes 2 700 ++ leBytes 2 1500 ++ leBytes 2 800 ++ leBytes 2 20 ++ leBytes 2 1500 ++ leBytes 2 90 ++ leBytes 2 500 ++ leBytes 2 20 ++ leBytes 2 600 ++ leBytes 2 90 ++ leBytes 2 500, signer := .tamtur }] } }, (leBytes 8 0x52544E4F432D4B46 ++ leBytes 2 1 ++ leBytes 2 6 ++ zeros 52 ++ [0, 0xFF, 2, 0] ++ leBytes 4 160 ++ zeros 8 ++ [2, 0xFF, 2, 0] ++ leBytes 4 168 ++ zeros 8 ++ [3, 0xFF, 2, 0] ++ leBytes 4 168 ++ zeros 8 ++ [1, 0, 2, 0] ++ leBytes 4 176 ++ zeros 8 ++ [1, 1, 2, 0] ++ leBytes 4 176 ++ zeros 8 ++ [1, 2, 2, 0] ++ leBytes 4 176 ++ zeros 8 ++ leBytes 2 500 ++ leBytes 2 700 ++ leBytes 2 1500 ++ leBytes 2 800 ++ leBytes 2 20 ++ leBytes 2 1500 ++ leBytes 2 90 ++ leBytes 2 500 ++ leBytes 2 20 ++ leBytes 2 600 ++ leBytes 2 90 ++ leBytes 2 500), by decide +kernel⟩,
   ⟨{ State.reset with pwr := { State.reset.pwr with avs := true, rise := some 1200 } }, 1200, 1200, by and_intros <;> decide +kernel⟩,
   ⟨{ State.reset with pwr := { State.reset.pwr with avs := true } }, by and_intros <;> decide +kernel⟩,
   ⟨{ State.reset with pwr := { State.reset.pwr with avs := true } }, by decide +kernel⟩,
   ⟨State.reset, 5000, by and_intros <;> decide +kernel⟩,
   ⟨{ State.reset with pwr := { State.reset.pwr with fast := true } }, by decide +kernel⟩,
   ⟨(List.replicate 13 [none, some 1501]), by decide +kernel⟩,
   ⟨{ State.reset with pwr := { State.reset.pwr with dies := [(7, 1150)] } }, _, (7, 1150), rfl, by decide +kernel⟩,
   ⟨{ State.reset with memc := { temps := [(11, 1050)] } }, 11, by and_intros <;> decide +kernel⟩,
   ⟨{ State.reset with net := { fabric := some { laneModes := [1], mac := 2, ip6 := none, epoch := 3, base := 4, period := 16, cages := [(0, 3)], caks := [60], profile := 1, inlet := true, regulators := 2, tcp := 1000, tenG := true } } }, 70, by and_intros <;> decide +kernel⟩,
   ⟨{ State.reset with net := { fabric := some { laneModes := [1], mac := 2, ip6 := none, epoch := 3, base := 4, period := 16, cages := [(0, 3)], caks := [60], profile := 1, inlet := true, regulators := 2, tcp := 1000, tenG := true } } }, 71, by and_intros <;> decide +kernel⟩,
   ⟨State.reset, by and_intros <;> decide +kernel⟩,
   ⟨{ State.reset with errs := { thrLow := true } }, by and_intros <;> decide +kernel⟩,
   ⟨{ State.reset with errs := { thrToggle := true } }, by and_intros <;> decide +kernel⟩,
   ⟨{ State.reset with errs := { thrToggle := true, thrLow := true } }, by and_intros <;> decide +kernel⟩,
   ⟨{ State.reset with errs := { thrToggle := true } }, by and_intros <;> decide +kernel⟩,
   ⟨(withFlds [(0, TST_THROTTLE_ASSERTED, 1)] (State.reset)), by and_intros <;> decide +kernel⟩,
   ⟨(withFlds [(0, TST_THROTTLE_ASSERTED, 1)] (State.reset)), by and_intros <;> decide +kernel⟩,
   ⟨State.reset, by decide +kernel⟩,
   ⟨{ State.reset with pwr := { State.reset.pwr with restart := true }, stw := { tables := [{ kind := .itinerary, bytes := leBytes 8 0x524E4954492D4B46 ++ leBytes 2 1 ++ leBytes 2 3 ++ zeros 52 ++ [0, 1, 0, 0] ++ leBytes 2 1 ++ zeros 2 ++ leBytes 8 112 ++ [1, 1, 0, 0] ++ leBytes 2 1 ++ zeros 2 ++ leBytes 8 112 ++ [2, 1, 0, 0] ++ leBytes 2 1 ++ zeros 2 ++ leBytes 8 112 ++ zeros 16, signer := .tamtur }] } }, _, 0, (leBytes 8 0x524E4954492D4B46 ++ leBytes 2 1 ++ leBytes 2 3 ++ zeros 52 ++ [0, 1, 0, 0] ++ leBytes 2 1 ++ zeros 2 ++ leBytes 8 112 ++ [1, 1, 0, 0] ++ leBytes 2 1 ++ zeros 2 ++ leBytes 8 112 ++ [2, 1, 0, 0] ++ leBytes 2 1 ++ zeros 2 ++ leBytes 8 112 ++ zeros 16), [], rfl, by decide +kernel⟩⟩

end Sys2Proof.Tests
end

section
/-! The Meridian's period switch (R30, R31): what arming does, what the boundary before frame S leads to, and what a
switch that is made or refused writes. -/
namespace Sys2Proof.Machine

/-! ### Registers at other offsets -/

/-- The registers' case of `State.fld_setFld_off`. -/
theorem State.reg_setFld_off (s : State) {u w : Nat} {f : Fld} {q : Reg} (v : Nat) (h : q.off ≠ f.reg.off ∧ q.off < 2 ^ 16 ∧ f.reg.off < 2 ^ 16) :
    (s.setFld u f v).reg w q = s.reg w q :=
  s.reg_setFld_other v (by unfold Reg.key; omega)

/-- A whole-register write leaves a register at another offset alone. -/
theorem State.reg_setReg_off (s : State) {u w : Nat} {r q : Reg} (v : W64) (h : q.off ≠ r.off ∧ q.off < 2 ^ 16 ∧ r.off < 2 ^ 16) :
    (s.setReg u r v).reg w q = s.reg w q :=
  s.reg_setReg_other v (by unfold Reg.key; omega)

/-- A whole-register write leaves a field of a register at another offset alone. -/
theorem State.fld_setReg_off (s : State) {u w : Nat} {r : Reg} {g : Fld} (v : W64) (h : g.reg.off ≠ r.off ∧ g.reg.off < 2 ^ 16 ∧ r.off < 2 ^ 16) :
    (s.setReg u r v).fld w g = s.fld w g := by
  unfold State.fld
  rw [s.reg_setReg_off v h]

/-! ### A refused switch -/

/-- What a refused switch writes (R31): `State.armSwitch_refused` and `State.periodSwitch_refused` say when. -/
def State.refuseSwitch (s : State) : State := (s.setFld 0 MER_TICK_PERIOD_ARM 0).setFld 0 MER_STATUS_CFG_ERR 1

theorem State.refuseSwitch_arm (s : State) : s.refuseSwitch.fld 0 MER_TICK_PERIOD_ARM = 0 := by
  unfold State.refuseSwitch
  rw [State.fld_setFld_off _ _ (by decide), State.fld_setFld_self _ _ _ _ (by decide), Nat.zero_mod]

theorem State.refuseSwitch_cfgErr (s : State) : s.refuseSwitch.fld 0 MER_STATUS_CFG_ERR = 1 := by
  unfold State.refuseSwitch
  exact State.fld_setFld_self _ _ _ _ (by decide)

theorem State.refuseSwitch_period (s : State) : s.refuseSwitch.fld 0 MER_TICK_PERIOD_PERIOD = s.fld 0 MER_TICK_PERIOD_PERIOD := by
  unfold State.refuseSwitch
  rw [State.fld_setFld_off _ _ (by decide), State.fld_setFld_bits _ _ _ (by decide)]

/-- The epoch and the base frame are such registers. -/
theorem State.reg_refuseSwitch (s : State) {q : Reg} (h : q.off < 2 ^ 16) (hp : q.off ≠ MER_TICK_PERIOD.off) (hs : q.off ≠ MER_STATUS.off) :
    s.refuseSwitch.reg 0 q = s.reg 0 q := by
  unfold State.refuseSwitch
  rw [State.reg_setFld_off _ _ ⟨hs, h, by decide⟩, State.reg_setFld_off _ _ ⟨hp, h, by decide⟩]

/-! ### Arming -/

theorem exec_merTickPeriodArm {s : State} (h : s.inReset = false) : exec .merTickPeriodArm s = .next s.armSwitch := by
  show execMerTickPeriodArm s = _
  simp [execMerTickPeriodArm, h]

theorem State.armSwitch_refused {s : State}
    (h : s.fld 0 MER_TICK_PERIOD_NEXT < 4 ∨ 256 < s.fld 0 MER_TICK_PERIOD_NEXT ∨ (s.reg 0 MER_SWITCH_FRAME).toNat ≤ s.frame) :
    s.armSwitch = s.refuseSwitch :=
  if_pos h

theorem State.armSwitch_accepted {s : State} (hlo : 4 ≤ s.fld 0 MER_TICK_PERIOD_NEXT) (hhi : s.fld 0 MER_TICK_PERIOD_NEXT ≤ 256)
    (hS : s.frame < (s.reg 0 MER_SWITCH_FRAME).toNat) : s.armSwitch = s.setFld 0 MER_TICK_PERIOD_ARM 1 :=
  if_neg (by unfold State.frame at hS; omega)

/-! ### The start of frame S -/

/-- Whether a province stands in the way of a switch at the start of S (R31). -/
def State.switchBusy (s : State) : Bool := s.provs.any (fun e => e.2.st == .sealed_ || e.2.st == .running || e.2.st == .paused)

/-- What a switch that is made writes (R30): `State.periodSwitch_made` says when. -/
def State.makeSwitch (s : State) : State :=
  (((s.setFld 0 MER_TICK_PERIOD_ARM 0).setFld 0 MER_TICK_PERIOD_PERIOD (s.fld 0 MER_TICK_PERIOD_NEXT)).setReg 0 MER_EPOCH (BitVec.ofNat 64 s.frameTime)).setReg 0
    MER_BASE_FRAME (s.reg 0 MER_SWITCH_FRAME)

section
variable {s : State} (harm : s.fld 0 MER_TICK_PERIOD_ARM = 1) (hS : (s.reg 0 MER_SWITCH_FRAME).toNat = s.frame)
include harm hS

/-- Clearing ARM changes no other register, so the second half of the test sees the same frame number. -/
theorem State.periodSwitch_at_start : s.periodSwitch =
    if s.fld 0 MER_TICK_PERIOD_NEXT < 4 ∨ 256 < s.fld 0 MER_TICK_PERIOD_NEXT ∨ s.switchBusy = true then s.refuseSwitch else s.makeSwitch := by
  have hframe : (s.setFld 0 MER_TICK_PERIOD_ARM 0).fld 0 MER_FRAME_NUM_FRAME = s.frame := State.fld_setFld_off _ _ (by decide)
  have hstart : ¬ (s.fld 0 MER_TICK_PERIOD_ARM = 0 ∨ s.fld 0 MER_FRAME_NUM_FRAME < (s.reg 0 MER_SWITCH_FRAME).toNat) := by
    unfold State.frame at hS; omega
  unfold State.periodSwitch
  rw [if_neg hstart]
  simp only [hframe, hS, ne_eq, not_true_eq_false, or_false]
  rfl

theorem State.periodSwitch_refused
    (h : s.fld 0 MER_TICK_PERIOD_NEXT < 4 ∨ 256 < s.fld 0 MER_TICK_PERIOD_NEXT ∨ s.switchBusy = true) : s.periodSwitch = s.refuseSwitch := by
  rw [State.periodSwitch_at_start harm hS, if_pos h]

theorem State.periodSwitch_made (hlo : 4 ≤ s.fld 0 MER_TICK_PERIOD_NEXT) (hhi : s.fld 0 MER_TICK_PERIOD_NEXT ≤ 256)
    (hfree : s.switchBusy = false) : s.periodSwitch = s.makeSwitch := by
  rw [State.periodSwitch_at_start harm hS, if_neg (by simp [hfree]; omega)]

end

theorem State.makeSwitch_period {s : State} (hhi : s.fld 0 MER_TICK_PERIOD_NEXT ≤ 256) :
    s.makeSwitch.fld 0 MER_TICK_PERIOD_PERIOD = s.fld 0 MER_TICK_PERIOD_NEXT := by
  unfold State.makeSwitch
  rw [State.fld_setReg_off _ _ (by decide), State.fld_setReg_off _ _ (by decide), State.fld_setFld_self _ _ _ _ (by decide)]
  exact Nat.mod_eq_of_lt (Nat.lt_of_le_of_lt hhi (by decide))

theorem State.makeSwitch_epoch (s : State) : s.makeSwitch.reg 0 MER_EPOCH = BitVec.ofNat 64 s.frameTime := by
  unfold State.makeSwitch
  rw [State.reg_setReg_off _ _ (by decide), State.reg_setReg_self]

theorem State.makeSwitch_baseFrame (s : State) : s.makeSwitch.reg 0 MER_BASE_FRAME = s.reg 0 MER_SWITCH_FRAME :=
  State.reg_setReg_self _ _ _ _

theorem State.makeSwitch_arm (s : State) : s.makeSwitch.fld 0 MER_TICK_PERIOD_ARM = 0 := by
  unfold State.makeSwitch
  rw [State.fld_setReg_off _ _ (by decide), State.fld_setReg_off _ _ (by decide), State.fld_setFld_bits _ _ _ (by decide),
    State.fld_setFld_self _ _ _ _ (by decide), Nat.zero_mod]

theorem State.makeSwitch_frame (s : State) : s.makeSwitch.frame = s.frame := by
  unfold State.makeSwitch State.frame
  rw [State.fld_setReg_off _ _ (by decide), State.fld_setReg_off _ _ (by decide), State.fld_setFld_off _ _ (by decide),
    State.fld_setFld_off _ _ (by decide)]

/-! ### The boundary -/

/-- The next frame of a clock with no jump and no loaded period in hand, before a switch is looked at: `State.tick_eq` ties it to the tick. -/
def State.nextFrame (s : State) : State :=
  { s.setFld 0 MER_FRAME_NUM_FRAME (s.frame + 1) with mer := { s.mer with jump := none, boot := none, time := s.mer.time + s.frameLen } }

theorem State.tick_eq {s : State} (hj : s.mer.jump = none) (hb : s.mer.boot = none) : s.tick = s.nextFrame.periodSwitch := by
  simp [State.tick, State.nextFrame, State.frame, hj, hb]

theorem State.nextFrame_regs (s : State) : s.nextFrame.regs = (s.setFld 0 MER_FRAME_NUM_FRAME (s.frame + 1)).regs := rfl

@[simp] theorem State.nextFrame_frameTime (s : State) : s.nextFrame.frameTime = s.mer.time + s.frameLen := rfl

@[simp] theorem State.nextFrame_switchBusy (s : State) : s.nextFrame.switchBusy = s.switchBusy := by
  simp [State.switchBusy, State.nextFrame]

theorem State.nextFrame_reg (s : State) {q : Reg} (h : q.off ≠ MER_FRAME_NUM.off ∧ q.off < 2 ^ 16) : s.nextFrame.reg 0 q = s.reg 0 q := by
  rw [State.reg_congr s.nextFrame_regs]
  exact State.reg_setFld_off _ _ ⟨h.1, h.2, by decide⟩

theorem State.nextFrame_fld (s : State) {g : Fld} (h : g.reg.off ≠ MER_FRAME_NUM.off ∧ g.reg.off < 2 ^ 16) : s.nextFrame.fld 0 g = s.fld 0 g := by
  unfold State.fld
  rw [s.nextFrame_reg h]

theorem State.nextFrame_frame {s : State} (h : s.frame + 1 < 2 ^ 64) : s.nextFrame.frame = s.frame + 1 := by
  unfold State.frame at h ⊢
  rw [State.fld_congr s.nextFrame_regs, State.fld_setFld_self _ _ _ _ (by decide)]
  exact Nat.mod_eq_of_lt h

section
variable {s : State} (harm : s.fld 0 MER_TICK_PERIOD_ARM = 1) (hS : (s.reg 0 MER_SWITCH_FRAME).toNat = s.frame + 1)
include harm hS

/-- When S is the next frame, that frame meets the hypotheses of `State.periodSwitch_at_start`. -/
theorem State.nextFrame_starts_switch : s.nextFrame.fld 0 MER_TICK_PERIOD_ARM = 1 ∧ (s.nextFrame.reg 0 MER_SWITCH_FRAME).toNat = s.nextFrame.frame := by
  have hlt : s.frame + 1 < 2 ^ 64 := hS ▸ (s.reg 0 MER_SWITCH_FRAME).isLt
  rw [s.nextFrame_fld (by decide), s.nextFrame_reg (by decide), State.nextFrame_frame hlt]
  exact ⟨harm, hS⟩

variable (hj : s.mer.jump = none) (hb : s.mer.boot = none)
include hj hb

theorem State.tick_refused (h : s.fld 0 MER_TICK_PERIOD_NEXT < 4 ∨ 256 < s.fld 0 MER_TICK_PERIOD_NEXT ∨ s.switchBusy = true) :
    s.tick = s.nextFrame.refuseSwitch := by
  obtain ⟨harm', hS'⟩ := State.nextFrame_starts_switch harm hS
  rw [State.tick_eq hj hb, State.periodSwitch_refused harm' hS']
  rwa [s.nextFrame_fld (by decide), s.nextFrame_switchBusy]

theorem State.tick_made (hlo : 4 ≤ s.fld 0 MER_TICK_PERIOD_NEXT) (hhi : s.fld 0 MER_TICK_PERIOD_NEXT ≤ 256) (hfree : s.switchBusy = false) :
    s.tick = s.nextFrame.makeSwitch := by
  obtain ⟨harm', hS'⟩ := State.nextFrame_starts_switch harm hS
  rw [← s.nextFrame_fld (by decide)] at hlo hhi
  rw [State.tick_eq hj hb, State.periodSwitch_made harm' hS' hlo hhi (s.nextFrame_switchBusy.trans hfree)]

end

/-! ### The statements -/

/-- Settles O28: the boundary's tick is `State.makeSwitch` of the next frame, whose time and number are those of S. -/
theorem armedSwitchTakesEffect : Obligations.ArmedSwitchTakesEffect := by
  unfold Obligations.ArmedSwitchTakesEffect
  intro s harm hj hb hS hlo hhi hfree htime
  have hlt : s.frame + 1 < 2 ^ 64 := hS ▸ (s.reg 0 MER_SWITCH_FRAME).isLt
  have hnext : s.nextFrame.fld 0 MER_TICK_PERIOD_NEXT = s.fld 0 MER_TICK_PERIOD_NEXT := s.nextFrame_fld (by decide)
  rw [State.tick_made harm hS hj hb hlo hhi hfree]
  refine ⟨?_, ?_, ?_, State.makeSwitch_arm _, ?_⟩
  · rw [State.makeSwitch_period (hnext ▸ hhi), hnext]
  · rw [State.makeSwitch_epoch, State.nextFrame_frameTime, BitVec.toNat_ofNat, Nat.mod_eq_of_lt htime]
  · rw [State.makeSwitch_baseFrame, s.nextFrame_reg (by decide)]
  · rw [State.makeSwitch_frame, State.nextFrame_frame hlt]

/-- Settles O29: at arming and at the start of S alike a refusal is `State.refuseSwitch`; an arming that is not refused writes ARM alone. -/
theorem switchIsRefused : Obligations.SwitchIsRefused := by
  unfold Obligations.SwitchIsRefused
  intro s hreset
  refine ⟨fun h => ?_, fun hlo hhi hS => ?_, fun harm hj hb hS _ h => ?_⟩
  · exact ⟨_, exec_merTickPeriodArm hreset, by
      rw [State.armSwitch_refused h]
      exact ⟨s.refuseSwitch_arm, s.refuseSwitch_cfgErr, s.refuseSwitch_period, s.reg_refuseSwitch (by decide) (by decide) (by decide),
        s.reg_refuseSwitch (by decide) (by decide) (by decide)⟩⟩
  · exact ⟨_, exec_merTickPeriodArm hreset, by
      rw [State.armSwitch_accepted hlo hhi hS]
      exact ⟨State.fld_setFld_self _ _ _ _ (by decide), State.fld_setFld_off _ _ (by decide)⟩⟩
  · rw [State.tick_refused harm hS hj hb h]
    refine ⟨State.refuseSwitch_arm _, State.refuseSwitch_cfgErr _, ?_, ?_, ?_⟩
    · rw [State.refuseSwitch_period, s.nextFrame_fld (by decide)]
    · rw [State.reg_refuseSwitch _ (by decide) (by decide) (by decide), s.nextFrame_reg (by decide)]
    · rw [State.reg_refuseSwitch _ (by decide) (by decide) (by decide), s.nextFrame_reg (by decide)]

end Sys2Proof.Machine
end

section
/-! LD and ST at issue (R194, R195): which exception the address checks find first, and that a load or store which gets as far as
these checks raises it. -/
namespace Sys2Proof.Machine

/-! ### The address checks -/

/-- The alignment check comes first (R195, R675). -/
theorem firstExc_ldstChecks_misaligned {insn a : Nat} (h : a % 2 ^ bits insn 46 2 ≠ 0) : firstExc (ldstChecks insn a) = some IX_ALIGN := by
  simp [ldstChecks, firstExc, h]

/-- The bound is the model's, on the first byte after the access; R195's, on its last byte, is the same since every size is at least 1. -/
theorem firstExc_ldstChecks_beyond {insn a : Nat} (ha : a % 2 ^ bits insn 46 2 = 0) (h : sheetSize < a + 2 ^ bits insn 46 2) :
    firstExc (ldstChecks insn a) = some IX_RANGE := by
  simp [ldstChecks, firstExc, ha, h]

/-- An access whose last byte lies beyond 0x17_FFFF ends after the sheet store does. -/
theorem sheetSize_lt_of_lastByte {a k : Nat} (h : 0x17FFFF < a + (2 ^ k - 1)) : sheetSize < a + 2 ^ k := by
  have hpos : 0 < 2 ^ k := Nat.two_pow_pos k
  unfold sheetSize
  omega

/-! ### Issue -/

theorem State.Issues.tile_eq {s : State} {tile seat opc : Nat} {i : Issue} (h : s.Issues tile seat opc i) : i.tile = tile := by
  obtain ⟨-, -, hi, -⟩ := h
  exact (issue_eq hi).1

/-- An instruction for the vector queue does not wait while its registers are there and the queue has room (R186, R188). -/
theorem State.vecOr_ready {s : State} {i : Issue} {rs : List Nat} (hb : i.blocked rs = false) (hq : (s.tile i.tile).vq.length < 8) (f : State) :
    s.vecOr i rs f = f :=
  if_neg (by simp only [hb, Bool.false_eq_true, false_or]; omega)

section
variable {s : State} {tile seat : Nat} {i : Issue} {c : Nat} (hq : (s.tile tile).vq.length < 8)
  (hc : firstExc (ldstChecks i.insn (ldAddr (i.reg (fRA i.insn)) i.insn)) = some c)
include hq hc

theorem exec_ld_raises (h : s.Issues tile seat 0x06 i) (hb : i.blocked [fRA i.insn] = false) (hrsv : bits i.insn 21 24 = 0)
    (hext : ¬ (bits i.insn 46 2 = 3 ∧ bitAt i.insn 45 = true)) :
    exec (.ld tile seat) s = .next (s.except i c 0 (ldAddr (i.reg (fRA i.insn)) i.insn)) := by
  obtain rfl := h.tile_eq
  show execLd i.tile seat s = _
  unfold execLd
  rw [onIssue_eq h, State.vecOr_ready hb hq, if_neg (not_or.mpr ⟨not_not.mpr hrsv, hext⟩), hc]

theorem exec_st_raises (h : s.Issues tile seat 0x07 i) (hb : i.blocked [fRA i.insn, fRD i.insn] = false) (hrsv : bits i.insn 21 25 = 0) :
    exec (.st tile seat) s = .next (s.except i c 0 (ldAddr (i.reg (fRA i.insn)) i.insn)) := by
  obtain rfl := h.tile_eq
  show execSt i.tile seat s = _
  unfold execSt
  rw [onIssue_eq h, State.vecOr_ready hb hq, if_neg (not_not.mpr hrsv), hc]

end

/-! ### The statement -/

/-- Settles O9: LD and ST alike raise what `ldstChecks` finds first, which is IX_ALIGN for a misaligned address and IX_RANGE for an
aligned one whose last byte lies beyond the sheet store. -/
theorem loadAndStoreAddressesAreCheckedAtIssue : Obligations.LoadAndStoreAddressesAreCheckedAtIssue := by
  unfold Obligations.LoadAndStoreAddressesAreCheckedAtIssue
  rintro s tile seat _ _ i rfl rfl hq
  refine ⟨fun h hb hrsv hext => ⟨fun ha => ?_, fun ha hr => ?_⟩, fun h hb hrsv => ⟨fun ha => ?_, fun ha hr => ?_⟩⟩
  · exact exec_ld_raises hq (firstExc_ldstChecks_misaligned ha) h hb hrsv hext
  · exact exec_ld_raises hq (firstExc_ldstChecks_beyond ha (sheetSize_lt_of_lastByte hr)) h hb hrsv hext
  · exact exec_st_raises hq (firstExc_ldstChecks_misaligned ha) h hb hrsv
  · exact exec_st_raises hq (firstExc_ldstChecks_beyond ha (sheetSize_lt_of_lastByte hr)) h hb hrsv

end Sys2Proof.Machine
end

section
/-! The TAP (R548, R659, R671): the fields of IDCODE, and what JTAG_INSTRUCTION does with an instruction that the TAP accepts and with
one that it does not. -/
namespace Sys2Proof.Machine

/-! ### The fields of IDCODE -/

section
variable (s : State)

theorem State.identPart_lt : s.fld 0 DEV_IDENT_PART < 65536 := s.fld_lt 0 DEV_IDENT_PART

theorem State.identVendor_lt : s.fld 0 DEV_IDENT_VENDOR < 2048 := s.fld_lt 0 DEV_IDENT_VENDOR

/-- IDCODE without the reductions of its part code and manufacturer, which the widths of DEV_IDENT's fields make idle. -/
theorem State.idcode_eq : s.idcode =
    (4 * s.fld 0 DEV_REVISION_MAJOR + s.fld 0 DEV_REVISION_MINOR) % 16 * 2 ^ 28 + s.fld 0 DEV_IDENT_PART * 2 ^ 12 + s.fld 0 DEV_IDENT_VENDOR * 2 + 1 := by
  rw [State.idcode, Nat.mod_eq_of_lt s.identPart_lt, Nat.mod_eq_of_lt s.identVendor_lt]

theorem State.idcode_odd : s.idcode % 2 = 1 := by
  rw [s.idcode_eq]
  omega

theorem State.idcode_vendor : s.idcode / 2 % 2 ^ 11 = s.fld 0 DEV_IDENT_VENDOR := by
  have hvendor := s.identVendor_lt
  rw [s.idcode_eq]
  omega

theorem State.idcode_part : s.idcode / 2 ^ 12 % 2 ^ 16 = s.fld 0 DEV_IDENT_PART := by
  have hpart := s.identPart_lt
  have hvendor := s.identVendor_lt
  rw [s.idcode_eq]
  omega

/-- The stepping is the whole of what stands above bit 27, and MAJOR and MINOR enter it modulo 16. -/
theorem State.idcode_stepping : s.idcode / 2 ^ 28 = (4 * s.fld 0 DEV_REVISION_MAJOR + s.fld 0 DEV_REVISION_MINOR) % 16 := by
  have hpart := s.identPart_lt
  have hvendor := s.identVendor_lt
  rw [s.idcode_eq]
  omega

theorem State.idcode_lt : s.idcode < 2 ^ 32 := by
  have hstep := s.idcode_stepping
  omega

end

/-! ### JTAG_INSTRUCTION -/

section
variable {s : State} {i : TapInsn}

theorem exec_jtagInstruction_idcode : exec (.jtagInstruction .idcode) s = .next (({ s with tap := .idcode } : State).emit (.idcode s.idcode)) := rfl

theorem exec_jtagInstruction_bypass : exec (.jtagInstruction .bypass) s = .next { s with tap := .bypass } := rfl

theorem exec_jtagInstruction_refused (h : s.tapOk i = false) : exec (.jtagInstruction i) s = .next { s with tap := .bypass } := by
  show execJtagInstruction i s = _
  simp [execJtagInstruction, h]

/-- A self-test that is accepted and whose program's conditions hold (`State.runTest`) is run, outside a reset. -/
theorem exec_jtagInstruction_bist {u : State} {program : Nat} {units : List (Nat × Nat)} {ports : List Nat} {found : List ErrIn}
    (hok : s.tapOk (.bist program units ports found) = true) (hreset : s.inReset = false)
    (hrun : ({ s with tap := .bist program units ports found } : State).runTest program units ports found = .ok u) :
    exec (.jtagInstruction (.bist program units ports found)) s = .next u := by
  have hreset' : ({ s with tap := .bist program units ports found } : State).inReset = false := hreset
  show execJtagInstruction _ s = _
  simp [execJtagInstruction, hok, hreset', hrun]

/-- Until the fuses are sensed the TAP accepts BYPASS and IDCODE alone (R659). -/
theorem State.tapOk_unsensed (h : s.stw.sensed = false) (hb : i ≠ .bypass) (hi : i ≠ .idcode) : s.tapOk i = false := by
  cases i with
  | bypass => exact absurd rfl hb
  | idcode => exact absurd rfl hi
  | sample | extest | clamp | bist | other => simp [State.tapOk, h]

/-- Until the fuses are sensed every instruction but IDCODE leaves BYPASS selected: BYPASS itself, and each of the others as one not accepted. -/
theorem exec_jtagInstruction_unsensed (h : s.stw.sensed = false) (hi : i ≠ .idcode) :
    exec (.jtagInstruction i) s = .next { s with tap := .bypass } := by
  by_cases hb : i = .bypass
  · rw [hb, exec_jtagInstruction_bypass]
  · exact exec_jtagInstruction_refused (State.tapOk_unsensed h hb hi)

end

/-! ### The statement -/

/-- Settles O58: the fields of the IDCODE sent are those of DEV_REVISION (R671) and DEV_IDENT (R659); before the fuses are sensed every
other instruction ends in BYPASS (R659); a self-test that is accepted runs under the conditions of TEST_RUN (DESIGN CHOICE: log 120). -/
theorem tapIdcodeAndBypass : Obligations.TapIdcodeAndBypass := by
  unfold Obligations.TapIdcodeAndBypass
  intro s u i program units ports found
  refine ⟨fun hrev => ?_, exec_jtagInstruction_unsensed, ?_⟩
  · refine ⟨_, s.idcode, exec_jtagInstruction_idcode, State.emit_tap .., by rw [State.emit_sent, List.head?_cons], s.idcode_lt, ?_,
      s.idcode_part, s.idcode_vendor, s.idcode_odd, State.emit_mem .., State.emit_regs ..⟩
    rw [s.idcode_stepping, Nat.mod_eq_of_lt hrev]
  · rintro hok rfl hreset hrun
    exact exec_jtagInstruction_bist hok hreset hrun

end Sys2Proof.Machine
end

section
/-! Memory keeps its canonical form (O3). HBM is written by a few operations alone (`State.mwrite`, `State.poisonWord`, the clearing of steward areas and of
scrubbed channels, the copy of a granule); of every other operation a lemma `…_mem` says that it leaves memory as it is. An operation that ends in one of the
few has a lemma `…_canonMem`, and a command a lemma `…_answersCanon`. -/
namespace Sys2Proof.Machine

/-! ### The canonical form, of a memory and of an answer -/

/-- A memory in its canonical form. -/
def CanonMem (m : List Host.Cell) : Prop := Sparse.wf (fun _ => (0 : Byte)) m = true
/-- A command whose next state, if it has one, has its memory in canonical form. -/
def AnswersCanon (r : Res) : Prop := ∀ t, r = .next t → CanonMem t.mem
@[simp] theorem answersCanon_next (s : State) : AnswersCanon (.next s) ↔ CanonMem s.mem := ⟨fun h => h s rfl, fun h t e => by cases e; exact h⟩
@[simp] theorem answersCanon_fault (f : Fault) : AnswersCanon (.fault f) := fun _ e => by cases e
@[simp] theorem answersCanon_ite (c : Prop) [Decidable c] (a b : Res) : AnswersCanon (if c then a else b) ↔ (c → AnswersCanon a) ∧ (¬ c → AnswersCanon b) := by split <;> simp [*]
@[simp] theorem mem_ite (c : Prop) [Decidable c] (a b : State) : (if c then a else b).mem = if c then a.mem else b.mem := apply_ite ..
@[simp] theorem mem_fst_ite {α} (c : Prop) [Decidable c] (a b : State × α) : (if c then a else b).1.mem = if c then a.1.mem else b.1.mem := by split <;> rfl
@[simp] theorem canonMem_ite (c : Prop) [Decidable c] (a b : List Host.Cell) : CanonMem (if c then a else b) ↔ (c → CanonMem a) ∧ (¬ c → CanonMem b) := by split <;> simp [*]
/-- Two states with the same memory: `mem_foldl` states its turns with it, so that the kernel compares states and never runs one to reach its memory. -/
def State.SameMem (s t : State) : Prop := t.mem = s.mem
@[simp] theorem State.sameMem_iff (s t : State) : s.SameMem t ↔ t.mem = s.mem := ⟨id, id⟩
@[simp] theorem State.memWf_iff (s : State) : s.memWf = true ↔ CanonMem s.mem := ⟨id, id⟩
@[simp] theorem mem_foldl {α : Type} (f : State → α → State) (l : List α) (s : State) (h : ∀ (b : State) (a : α), b.SameMem (f b a)) : (l.foldl f s).mem = s.mem :=
  foldl_proj State.mem f l s h
theorem canonMem_foldl {α : Type} {f : State → α → State} {l : List α} {s : State} (hs : CanonMem s.mem) (h : ∀ (b : State) (a : α), CanonMem b.mem → (f b a).memWf = true) :
    CanonMem (l.foldl f s).mem :=
  foldl_keeps (P := fun x => CanonMem x.mem) f l s hs h
@[simp] theorem canonMem_nil : CanonMem [] := rfl
@[simp] theorem canonMem_drop {m : List Host.Cell} (p : Nat → Bool) (h : CanonMem m) : CanonMem (Sparse.drop p m) := Sparse.wf_drop h
@[simp] theorem State.mwrite_canonMem {s : State} (ws : List (Nat × Byte)) (h : CanonMem s.mem) : CanonMem (s.mwrite ws).mem := memWf_mwrite ws h
@[simp] theorem State.vwrite_canonMem {s : State} (p : Nat) (ws : List (Nat × Byte)) (h : CanonMem s.mem) : CanonMem (s.vwrite p ws).mem := memWf_vwrite p ws h
@[simp] theorem State.vput_canonMem {s : State} (p va : Nat) (bs : List Byte) (h : CanonMem s.mem) : CanonMem (s.vput p va bs).mem := memWf_vput p va bs h
@[simp] theorem State.poisonWord_canonMem {s : State} (w : Nat) (h : CanonMem s.mem) : CanonMem (s.poisonWord w).mem := memWf_poisonWord w h

/-! ### Tiles, couriers, the Gazetteer and the windows -/

@[simp] theorem State.freeVal_mem (s : State) : s.freeVal.2.mem = s.mem := by
  unfold State.freeVal
  simp

@[simp] theorem State.holdRec_mem (s : State) (h : HeldRec) : (s.holdRec h).mem = s.mem := by
  unfold State.holdRec
  simp

@[simp] theorem State.saveRepair_mem (s : State) : s.saveRepair.mem = s.mem := by
  unfold State.saveRepair
  dsimp only
  split <;> simp

@[simp] theorem State.noteRepair_mem (s : State) : s.noteRepair.mem = s.mem := by
  unfold State.noteRepair
  simp

@[simp] theorem answersCanon_onTile (tile : Nat) (f : State) : AnswersCanon (onTile tile f) ↔ (tile < 4224 → CanonMem f.mem) := by
  unfold onTile; split <;> simp [*]

@[simp] theorem State.srvClear_mem (s : State) (u : Nat) : (s.srvClear u).mem = s.mem := by
  unfold State.srvClear
  simp

@[simp] theorem State.contained_mem (s : State) (p pframe : Nat) : (s.contained p pframe).mem = s.mem := by
  unfold State.contained
  simp

@[simp] theorem State.startTrick_mem (s : State) (p tile idx : Nat) (i : DealItem) : (s.startTrick p tile idx i).mem = s.mem := by
  unfold State.startTrick
  simp

@[simp] theorem State.startItem_mem (s : State) (p tile idx : Nat) (i : DealItem) (stolen : Bool) : (s.startItem p tile idx i stolen).mem = s.mem := by
  unfold State.startItem
  simp

@[simp] theorem State.giveWork_mem (s : State) (p tile left : Nat) (own steal : Bool) : (s.giveWork p tile left own steal).mem = s.mem := by
  unfold State.giveWork
  dsimp only
  (repeat' split) <;> simp

@[simp] theorem State.onFree_mem (s : State) (p tile left : Nat) : (s.onFree p tile left).mem = s.mem := by
  unfold State.onFree
  simp

@[simp] theorem State.dealAll_mem (s : State) (p left : Nat) : (s.dealAll p left).mem = s.mem := by
  unfold State.dealAll
  simp

@[simp] theorem State.returnHandles_mem (s : State) (taken : List (Nat × Nat)) : (s.returnHandles taken).mem = s.mem := by
  unfold State.returnHandles
  simp

@[simp] theorem State.withdrawTakes_mem (s : State) (tile : Nat) : (s.withdrawTakes tile).mem = s.mem := by
  unfold State.withdrawTakes
  simp

@[simp] theorem State.dropCourier_mem (s : State) (tile : Nat) : (s.dropCourier tile).mem = s.mem := by
  unfold State.dropCourier
  simp

@[simp] theorem State.setItem_mem (s : State) (c : TrickCtx) (st : ItemState) : (s.setItem c st).mem = s.mem := by
  unfold State.setItem
  simp

@[simp] theorem State.trap_mem (s : State) (tile seat pc insn : Nat) (multi : Bool) (e : Exc) : (s.trap tile seat pc insn multi e).mem = s.mem := by
  unfold State.trap
  dsimp only
  split <;> simp

/-- The body is unfolded as a function: unfolded on its arguments, the kernel runs the error record to reach the match on the trick. -/
@[simp] theorem State.tileFault_mem (s : State) (tile addr bit : Nat) : (s.tileFault tile addr bit).mem = s.mem := by
  generalize hx : s.tileFault tile addr bit = x
  generalize hf : @State.tileFault = f at hx
  delta State.tileFault at hf
  subst hf
  beta_reduce at hx
  extract_lets s1 s2 s3 at hx
  have h : s3.mem = s.mem := by simp [s3, s2, s1]
  clear_value s3
  subst hx
  split <;> simp [h]

@[simp] theorem State.sheetWrite_mem (s : State) (tile : Nat) (ws : List (Nat × Byte)) : (s.sheetWrite tile ws).mem = s.mem := by
  unfold State.sheetWrite
  simp

@[simp] theorem State.stall_mem (s : State) (i : Issue) : (s.stall i).mem = s.mem := by
  unfold State.stall
  simp

@[simp] theorem State.readyOr_mem (s : State) (i : Issue) (rs : List Nat) (f : State) : (s.readyOr i rs f).mem = if i.blocked rs then s.mem else f.mem := by
  unfold State.readyOr; simp

@[simp] theorem State.issued_mem (s : State) (i : Issue) (pc : Nat) (f : Seat → Seat) : (s.issued i pc f).mem = s.mem := by
  unfold State.issued
  simp

@[simp] theorem State.except_mem (s : State) (i : Issue) (cause : Nat) (info addr : Nat) : (s.except i cause info addr).mem = s.mem := by
  unfold State.except
  simp

@[simp] theorem onIssue_answersCanon {s : State} (hs : CanonMem s.mem) {tile seat opc : Nat} {f : Issue → State} (hf : ∀ i, CanonMem (f i).mem) :
    AnswersCanon (onIssue tile seat opc s f) := by
  unfold onIssue; split
  · split
    · split <;> simp [*]
    · simp [*]
  · simp

@[simp] theorem State.arrFlags_mem (s : State) (tile mask : Nat) : (s.arrFlags tile mask).mem = s.mem := by
  unfold State.arrFlags
  simp

@[simp] theorem State.vecFlags_mem (s : State) (tile mask : Nat) : (s.vecFlags tile mask).mem = s.mem := by
  unfold State.vecFlags
  simp

@[simp] theorem State.doStore_mem (s : State) (tile : Nat) (v : VecCmd) : (s.doStore tile v).mem = s.mem := by
  unfold State.doStore
  simp

@[simp] theorem State.drainStores_mem (s : State) (tile n : Nat) : (s.drainStores tile n).mem = s.mem := by
  induction n generalizing s with
  | zero => rfl
  | succ n ih =>
    unfold State.drainStores
    dsimp only
    split
    · split
      · rw [ih]; simp
      · rfl
    · rfl

@[simp] theorem State.arrDraws_mem (s : State) (tile p n : Nat) : (s.arrDraws tile p n).mem = s.mem := by
  unfold State.arrDraws
  simp

@[simp] theorem State.runMxm_mem (s : State) (tile : Nat) (c : TrickCtx) (a : ArrCmd) : (s.runMxm tile c a).mem = s.mem := by
  unfold State.runMxm
  simp

@[simp] theorem State.arrIssue_mem (s : State) (i : Issue) (regs : List Nat) (illegal : Bool) (checks : List (Bool × Nat)) (site : Bool) :
    (s.arrIssue i regs illegal checks site).mem = s.mem := by
  unfold State.arrIssue
  dsimp only
  (repeat' split) <;> simp

@[simp] theorem State.arrForm_mem (s : State) (i : Issue) (q : ArrForm) : (s.arrForm i q).mem = s.mem := by
  unfold State.arrForm
  simp

@[simp] theorem execMxm_answersCanon (tile seat : Nat) (s : State) (hs : CanonMem s.mem) : AnswersCanon (execMxm tile seat s) := by
  unfold execMxm
  simp [hs]

@[simp] theorem execMxd_answersCanon (tile seat : Nat) (s : State) (hs : CanonMem s.mem) : AnswersCanon (execMxd tile seat s) := by
  unfold execMxd
  simp [hs]

@[simp] theorem execMxl_answersCanon (tile seat : Nat) (s : State) (hs : CanonMem s.mem) : AnswersCanon (execMxl tile seat s) := by
  unfold execMxl
  simp [hs]

@[simp] theorem execMxz_answersCanon (tile seat : Nat) (s : State) (hs : CanonMem s.mem) : AnswersCanon (execMxz tile seat s) := by
  unfold execMxz
  simp [hs]

@[simp] theorem State.actMxd_mem (s : State) (tile : Nat) (c : TrickCtx) (a : ArrCmd) : (s.actMxd tile c a).1.mem = s.mem := by
  unfold State.actMxd
  simp

@[simp] theorem State.actMxl_mem (s : State) (tile : Nat) (a : ArrCmd) : (s.actMxl tile a).1.mem = s.mem := by
  unfold State.actMxl
  simp

@[simp] theorem State.actMxz_mem (s : State) (tile : Nat) (a : ArrCmd) : (s.actMxz tile a).1.mem = s.mem := by
  unfold State.actMxz
  simp

@[simp] theorem State.actArr_mem (s : State) (tile : Nat) (c : TrickCtx) (a : ArrCmd) : (s.actArr tile c a).1.mem = s.mem := by
  unfold State.actArr; split <;> simp

@[simp] theorem execArrayCommandStart_answersCanon (tile : Nat) (s : State) (hs : CanonMem s.mem) : AnswersCanon (execArrayCommandStart tile s) := by
  unfold execArrayCommandStart
  dsimp only
  split <;> simp [hs]

@[simp] theorem execDrainFenceEnd_answersCanon (tile : Nat) (s : State) (hs : CanonMem s.mem) : AnswersCanon (execDrainFenceEnd tile s) := by
  unfold execDrainFenceEnd
  dsimp only
  split <;> simp [hs]

@[simp] theorem execMxmComplete_answersCanon (tile : Nat) (s : State) (hs : CanonMem s.mem) : AnswersCanon (execMxmComplete tile s) := by
  unfold execMxmComplete
  dsimp only
  split <;> simp [hs]

@[simp] theorem execMxdComplete_answersCanon (tile : Nat) (s : State) (hs : CanonMem s.mem) : AnswersCanon (execMxdComplete tile s) := by
  unfold execMxdComplete
  dsimp only
  split <;> simp [hs]

@[simp] theorem execBankReady_answersCanon (tile : Nat) (s : State) (hs : CanonMem s.mem) : AnswersCanon (execBankReady tile s) := by
  unfold execBankReady
  dsimp only
  split <;> simp [hs]

@[simp] theorem State.clearTables_canonMem (s : State) (p : Nat) (hs : CanonMem s.mem) : CanonMem (s.clearTables p).mem := by
  rw [State.clearTables]
  simp [hs]

@[simp] theorem State.buildTables_canonMem (s : State) (p : Nat) (hs : CanonMem s.mem) : CanonMem (s.buildTables p).mem := by
  unfold State.buildTables
  simp [hs]

@[simp] theorem State.dropXlat_mem (s : State) (p : Nat) : (s.dropXlat p).mem = s.mem := by
  unfold State.dropXlat
  simp

@[simp] theorem State.winHit_mem (s : State) (k : WinKind) (unit limit window : Nat) : (s.winHit k unit limit window).1.mem = s.mem := by
  unfold State.winHit
  simp

@[simp] theorem State.copyGranule_canonMem (s : State) (src dst : Nat) (hs : CanonMem s.mem) : CanonMem (s.copyGranule src dst).mem := by
  unfold State.copyGranule
  exact foldl_keeps (P := CanonMem) _ _ _ (canonMem_drop _ hs) fun _ _ h => Sparse.wf_set h

@[simp] theorem State.rowRepair_canonMem (s : State) (dpa : Nat) (hs : CanonMem s.mem) : CanonMem (s.rowRepair dpa).mem := by
  unfold State.rowRepair
  simp [hs]

@[simp] theorem State.rowEvent_canonMem (s : State) (dpa n : Nat) (lasting : Bool) (hs : CanonMem s.mem) : CanonMem (s.rowEvent dpa n lasting).1.mem := by
  unfold State.rowEvent
  have h : ∀ x : State × Bool, CanonMem x.1.mem → CanonMem (if x.2 then (x.1.rowRepair dpa, true) else x).1.mem := fun x hx => by
    split <;> simp [hx]
  exact h _ (foldl_keeps (P := fun x : State × Bool => CanonMem x.1.mem) _ _ _ hs fun b _ hb => by simp [hb])

@[simp] theorem State.stewardPut_canonMem (s : State) (p va : Nat) (bs : List Byte) (hs : CanonMem s.mem) : CanonMem (s.stewardPut p va bs).mem := by
  unfold State.stewardPut
  simp [hs]

@[simp] theorem State.sendWrite_canonMem (s : State) (p cls : Nat) (ws : List (Nat × Byte)) (hs : CanonMem s.mem) : CanonMem (s.sendWrite p cls ws).mem := by
  unfold State.sendWrite
  simp [hs]

@[simp] theorem State.rput_canonMem (s : State) (p va : Nat) (bs : List Byte) (hs : CanonMem s.mem) : CanonMem (s.rput p va bs).mem := by
  unfold State.rput
  simp [hs]

@[simp] theorem State.insetAnswer_mem (s : State) (x : InsetRead) : (s.insetAnswer x).mem = s.mem := by
  unfold State.insetAnswer
  simp

@[simp] theorem State.resendWrites_canonMem (s : State) (hs : CanonMem s.mem) : CanonMem s.resendWrites.mem := by
  unfold State.resendWrites
  refine canonMem_foldl (canonMem_foldl hs fun b x hb => by simp [hb]) fun b x hb => ?_
  split <;> simp [hb]

@[simp] theorem State.chanFailing_mem (s : State) (c : Nat) : (s.chanFailing c).mem = s.mem := by
  unfold State.chanFailing
  simp

@[simp] theorem State.remapRow_mem (s : State) (g : Nat) : (s.remapRow g).mem = s.mem := by
  unfold State.remapRow
  simp

@[simp] theorem State.recopyAtlas_canonMem (s : State) (p : Nat) (host : List (Nat × Byte)) (hs : CanonMem s.mem) : CanonMem (s.recopyAtlas p host).mem := by
  unfold State.recopyAtlas
  simp [hs]

@[simp] theorem State.mendAtlas_canonMem (s : State) (p die : Nat) (host : List (Nat × Byte)) (spans : List (Nat × Nat)) (hs : CanonMem s.mem) :
    CanonMem (s.mendAtlas p die host spans).mem := by
  unfold State.mendAtlas
  simp [hs]

@[simp] theorem execCxfr_answersCanon (tile seat : Nat) (s : State) (hs : CanonMem s.mem) : AnswersCanon (execCxfr tile seat s) := by
  unfold execCxfr
  refine onIssue_answersCanon hs fun i => ?_
  simp [hs]
  (repeat' split) <;> simp [hs]

@[simp] theorem State.srDraws_mem (s : State) (tile p : Nat) (c : Cx) : (s.srDraws tile p c).mem = s.mem := by
  unfold State.srDraws
  simp

@[simp] theorem State.poisonTrick_mem (s : State) (tile : Nat) (x : Xfer) : (s.poisonTrick tile x).mem = s.mem := by
  rw [State.poisonTrick]
  simp

@[simp] theorem execLoadComplete_answersCanon (tile cour : Nat) (s : State) (hs : CanonMem s.mem) : AnswersCanon (execLoadComplete tile cour s) := by
  unfold execLoadComplete
  dsimp only
  split <;> simp [hs]

@[simp] theorem execStoreComplete_answersCanon (tile cour : Nat) (s : State) (hs : CanonMem s.mem) : AnswersCanon (execStoreComplete tile cour s) := by
  unfold execStoreComplete
  dsimp only
  split <;> simp [hs]

@[simp] theorem State.talonPut_mem (s : State) (n h : Nat) : (s.talonPut n h).mem = s.mem := by
  unfold State.talonPut
  simp

@[simp] theorem State.putsDue_mem (s : State) (tile : Nat) : (s.putsDue tile).mem = s.mem := by
  unfold State.putsDue
  dsimp only
  rw [mem_foldl _ _ _ (fun b d => by split <;> simp), State.setTile_mem]

@[simp] theorem State.submit_mem (s : State) (tile : Nat) (r : ChainReq) (c : TrickCtx) (after : Nat) : (s.submit tile r c after).mem = s.mem := by
  unfold State.submit
  dsimp only
  (repeat' split) <;> simp

@[simp] theorem State.resubmit_mem (s : State) (tile : Nat) : (s.resubmit tile).mem = s.mem := by
  unfold State.resubmit
  simp

@[simp] theorem State.resubmitAll_mem (s : State) : s.resubmitAll.mem = s.mem := by
  unfold State.resubmitAll
  simp

@[simp] theorem State.releaseCourier_mem (s : State) (tile : Nat) (c : TrickCtx) : (s.releaseCourier tile c).mem = s.mem := by
  unfold State.releaseCourier
  simp

@[simp] theorem State.drainOne_canonMem (s : State) (tile : Nat) (o : OutEntry) (hs : CanonMem s.mem) : CanonMem (s.drainOne tile o).mem := by
  unfold State.drainOne
  simp [hs]

@[simp] theorem execCchn_answersCanon (tile seat : Nat) (s : State) (hs : CanonMem s.mem) : AnswersCanon (execCchn tile seat s) := by
  unfold execCchn
  simp [hs]

@[simp] theorem State.chainFault_mem (s : State) (n : Nat) (j : ChainJob) : (s.chainFault n j).mem = s.mem := by
  unfold State.chainFault
  simp

@[simp] theorem execChainStart_answersCanon (bulk : Nat) (s : State) (hs : CanonMem s.mem) : AnswersCanon (execChainStart bulk s) := by
  unfold execChainStart
  dsimp only
  (repeat' split) <;> simp [hs]

@[simp] theorem State.anyWrite_canonMem (s : State) (p : Nat) (ws : List (Nat × Byte)) (hs : CanonMem s.mem) : CanonMem (s.anyWrite p ws).mem := by
  unfold State.anyWrite
  simp [hs]

@[simp] theorem execChainDescriptorDone_answersCanon (bulk : Nat) (host : List (Nat × Byte)) (s : State) (hs : CanonMem s.mem) :
    AnswersCanon (execChainDescriptorDone bulk host s) := by
  unfold execChainDescriptorDone
  simp
  (repeat' split) <;> simp [hs]

@[simp] theorem execTput_answersCanon (tile seat : Nat) (s : State) (hs : CanonMem s.mem) : AnswersCanon (execTput tile seat s) := by
  unfold execTput
  simp [hs]

@[simp] theorem execTtake_answersCanon (tile seat : Nat) (s : State) (hs : CanonMem s.mem) : AnswersCanon (execTtake tile seat s) := by
  unfold execTtake
  refine onIssue_answersCanon hs fun i => ?_
  simp [hs]
  (repeat' split) <;> simp [hs]

@[simp] theorem execTtakeComplete_answersCanon (talon : Nat) (s : State) (hs : CanonMem s.mem) : AnswersCanon (execTtakeComplete talon s) := by
  unfold execTtakeComplete
  dsimp only
  (repeat' split) <;> simp [hs]

@[simp] theorem execTalonPutAppend_answersCanon (talon : Nat) (s : State) (hs : CanonMem s.mem) : AnswersCanon (execTalonPutAppend talon s) := by
  unfold execTalonPutAppend
  dsimp only
  (repeat' split) <;> simp [hs]

@[simp] theorem State.tspNote_mem (s : State) (e : TspEvent) : (s.tspNote e).mem = s.mem := by
  unfold State.tspNote
  simp

@[simp] theorem State.deriveAlias_mem (s : State) : s.deriveAlias.mem = s.mem := by
  unfold State.deriveAlias
  simp

@[simp] theorem State.setPState_mem (s : State) (p : Nat) (st : PState) : (s.setPState p st).mem = s.mem := by
  unfold State.setPState
  simp

@[simp] theorem State.answer_mem (s : State) (conn cmd status : Nat) (payload : List Byte) : (s.answer conn cmd status payload).mem = s.mem := by
  unfold State.answer
  simp

@[simp] theorem State.answerWaits_mem (s : State) (p : Nat) (cmds : List Nat) (status : Nat) : (s.answerWaits p cmds status).mem = s.mem := by
  unfold State.answerWaits
  simp

@[simp] theorem State.rootFrame_mem (s : State) (p : Nat) : (s.rootFrame p).2.mem = s.mem := by
  unfold State.rootFrame
  simp

@[simp] theorem State.announce_mem (s : State) (p : Nat) (op : GlobOp) (f : Nat) (late : Bool) : (s.announce p op f late).mem = s.mem := by
  unfold State.announce
  simp

@[simp] theorem State.rootAnnounce_mem (s : State) (p : Nat) (op : GlobOp) : (s.rootAnnounce p op).mem = s.mem := by
  unfold State.rootAnnounce
  simp

@[simp] theorem State.tell_mem (s : State) (p r : Nat) (b : NdxBody) : (s.tell p r b).mem = s.mem := by
  unfold State.tell; split <;> simp

@[simp] theorem State.settle_mem (s : State) (p : Nat) (op : GlobOp) (status : Nat) : (s.settle p op status).mem = s.mem := by
  unfold State.settle
  simp

@[simp] theorem State.actIn_mem (s : State) (p r : Nat) (op : GlobOp) : (s.actIn p r op).mem = s.mem := by
  unfold State.actIn
  simp

@[simp] theorem State.acted_mem (s : State) (p : Nat) (op : GlobOp) : (s.acted p op).mem = s.mem := by
  unfold State.acted
  simp

@[simp] theorem State.ask_mem (s : State) (p : Nat) (op : GlobOp) : (s.ask p op).mem = s.mem := by
  unfold State.ask
  simp

@[simp] theorem State.forwardIn_mem (s : State) (devid tag r : Nat) (op : GlobOp) : (s.forwardIn devid tag r op).mem = s.mem := by
  unfold State.forwardIn
  dsimp only
  split <;> simp

@[simp] theorem State.actedIn_mem (s : State) (devid tag r : Nat) (op : GlobOp) : (s.actedIn devid tag r op).mem = s.mem := by
  unfold State.actedIn; split <;> simp

@[simp] theorem State.doneIn_mem (s : State) (devid tag : Nat) (op : GlobOp) (status : Nat) : (s.doneIn devid tag op status).mem = s.mem := by
  unfold State.doneIn; split <;> simp

@[simp] theorem State.gsyncUp_mem (s : State) (p : Nat) (g : Gsync) : (s.gsyncUp p g).mem = s.mem := by
  unfold State.gsyncUp
  simp

@[simp] theorem State.requestUp_mem (s : State) (p : Nat) (op : GlobOp) : (s.requestUp p op).mem = s.mem := by
  unfold State.requestUp
  simp

@[simp] theorem execGlobalRequestArrive_answersCanon (prov child : Nat) (op : GlobOp) (s : State) (hs : CanonMem s.mem) :
    AnswersCanon (execGlobalRequestArrive prov child op s) := by
  unfold execGlobalRequestArrive
  dsimp only
  (repeat' split) <;> simp [hs]

@[simp] theorem execAnnouncementReceived_answersCanon (prov : Nat) (op : GlobOp) (frame : Nat) (s : State) (hs : CanonMem s.mem) :
    AnswersCanon (execAnnouncementReceived prov op frame s) := by
  unfold execAnnouncementReceived
  simp [hs]

@[simp] theorem State.cutCheck_mem (s : State) (p : Nat) : (s.cutCheck p).mem = s.mem := by
  unfold State.cutCheck
  dsimp only
  split <;> simp

@[simp] theorem State.cutOverIn_mem (s : State) (p src frame : Nat) : (s.cutOverIn p src frame).mem = s.mem := by
  unfold State.cutOverIn
  dsimp only
  split <;> simp

@[simp] theorem execSnapshotCutReport_answersCanon (prov child : Nat) (late : Bool) (s : State) (hs : CanonMem s.mem) :
    AnswersCanon (execSnapshotCutReport prov child late s) := by
  unfold execSnapshotCutReport
  dsimp only
  (repeat' split) <;> simp [hs]

/-! ### Global operations, hosts, the Control Core and Ethernet -/

@[simp] theorem State.setCmd_mem (s : State) (k seq : Nat) (st : CmdState) : (s.setCmd k seq st).mem = s.mem := by
  unfold State.setCmd
  simp

@[simp] theorem State.freeBytes_mem (s : State) (n : Nat) : (s.freeBytes n).2.mem = s.mem := by
  unfold State.freeBytes
  simp

@[simp] theorem State.writeCompl_mem (s : State) (k : Nat) (c : HandCmd) (status r0 r1 frame : Nat) : (s.writeCompl k c status r0 r1 frame).mem = s.mem := by
  unfold State.writeCompl
  simp

@[simp] theorem State.runNops_mem (s : State) (k : Nat) : (s.runNops k).mem = s.mem := by
  obtain ⟨_, h⟩ := s.runNops_frame k; rw [h]

@[simp] theorem State.writeOver_mem (s : State) (k : Nat) : (s.writeOver k).mem = s.mem := by
  obtain ⟨_, _, _, _, h⟩ := s.writeOver_frame k; rw [h]

@[simp] theorem State.closeEmpty_mem (s : State) (k : Nat) : (s.closeEmpty k).mem = s.mem := by
  unfold State.closeEmpty
  simp

@[simp] theorem State.wakeWaits_mem (s : State) (p : Nat) : (s.wakeWaits p).mem = s.mem := by
  unfold State.wakeWaits
  refine mem_foldl _ _ _ fun b k => mem_foldl _ _ _ fun x c => ?_
  split
  · split <;> simp
  · rfl

@[simp] theorem State.abortWaits_mem (s : State) (p : Nat) : (s.abortWaits p).mem = s.mem := by
  unfold State.abortWaits
  simp

@[simp] theorem State.abortCmds_mem (s : State) (p : Nat) (f : HandCmd → Bool) : (s.abortCmds p f).mem = s.mem := by
  unfold State.abortCmds
  simp

@[simp] theorem State.closeHands_mem (s : State) (p : Nat) : (s.closeHands p).mem = s.mem := by
  unfold State.closeHands
  simp

@[simp] theorem State.endSessions_mem (s : State) (f : SpdmSession → Bool) : (s.endSessions f).mem = s.mem := by
  unfold State.endSessions
  simp

@[simp] theorem State.msix_mem (s : State) (fn vec : Nat) : (s.msix fn vec).mem = s.mem := by
  unfold State.msix
  simp

@[simp] theorem State.msixPend_mem (s : State) (fn : Nat) : (s.msixPend fn).mem = s.mem := by
  unfold State.msixPend
  simp

@[simp] theorem State.msixWrite_mem (s : State) (fn i : Nat) (v : W32) : (s.msixWrite fn i v).mem = s.mem := by
  unfold State.msixWrite
  simp

@[simp] theorem State.unlockFn_mem (s : State) (f : Nat) : (s.unlockFn f).mem = s.mem := by
  unfold State.unlockFn
  simp

@[simp] theorem State.resetFnRegs_mem (s : State) (f : Nat) : (s.resetFnRegs f).mem = s.mem := by
  unfold State.resetFnRegs
  simp

@[simp] theorem State.holdChains_mem (s : State) (f : Nat) : (s.holdChains f).mem = s.mem := by
  unfold State.holdChains
  simp

@[simp] theorem State.detachFn_mem (s : State) (f cause : Nat) : (s.detachFn f cause).mem = s.mem := by
  unfold State.detachFn
  simp

@[simp] theorem State.reattachFn_mem (s : State) (f : Nat) : (s.reattachFn f).mem = s.mem := by
  unfold State.reattachFn
  simp

@[simp] theorem State.discardHand_mem (s : State) (k : Nat) : (s.discardHand k).mem = s.mem := by
  unfold State.discardHand
  simp

@[simp] theorem State.ethStat_mem (s : State) (n i k : Nat) : (s.ethStat n i k).mem = s.mem := by
  unfold State.ethStat
  simp

@[simp] theorem State.setPower_mem (s : State) (n w : Nat) : (s.setPower n w).mem = s.mem := by
  unfold State.setPower
  simp

@[simp] theorem State.raisePort_mem (s : State) (n : Nat) : (s.raisePort n).mem = s.mem := by
  unfold State.raisePort
  dsimp only
  split <;> simp

@[simp] theorem State.portOwner_mem (s : State) (n : Nat) : (s.portOwner n).mem = s.mem := by
  unfold State.portOwner
  simp

@[simp] theorem State.rebuildPorts_mem (s : State) (skip : Nat) : (s.rebuildPorts skip).mem = s.mem := by
  unfold State.rebuildPorts
  simp

@[simp] theorem State.ndxCnt_mem (s : State) (i k : Nat) : (s.ndxCnt i k).mem = s.mem := by
  unfold State.ndxCnt
  simp

@[simp] theorem State.pathsDown_mem (s : State) (n : Nat) : (s.pathsDown n).mem = s.mem := by
  unfold State.pathsDown
  simp

@[simp] theorem State.clearLink_mem (s : State) (n : Nat) : (s.clearLink n).mem = s.mem := by
  unfold State.clearLink
  simp

@[simp] theorem State.writeRd_mem (s : State) (i : Issue) (v : W64) : (s.writeRd i v).mem = s.mem := by
  unfold State.writeRd
  simp

@[simp] theorem execOpr_answersCanon (tile seat : Nat) (s : State) (hs : CanonMem s.mem) : AnswersCanon (execOpr tile seat s) := by
  unfold execOpr
  refine onIssue_answersCanon hs fun i => ?_
  simp [hs]
  (repeat' split) <;> simp [hs]

@[simp] theorem execOpi_answersCanon (tile seat : Nat) (s : State) (hs : CanonMem s.mem) : AnswersCanon (execOpi tile seat s) := by
  unfold execOpi
  refine onIssue_answersCanon hs fun i => ?_
  simp [hs]
  (repeat' split) <;> simp [hs]

@[simp] theorem execLih_answersCanon (tile seat : Nat) (s : State) (hs : CanonMem s.mem) : AnswersCanon (execLih tile seat s) := by
  unfold execLih
  simp [hs]

@[simp] theorem execLi_answersCanon (tile seat : Nat) (s : State) (hs : CanonMem s.mem) : AnswersCanon (execLi tile seat s) := by
  unfold execLi
  simp [hs]

@[simp] theorem execFop_answersCanon (tile seat : Nat) (s : State) (hs : CanonMem s.mem) : AnswersCanon (execFop tile seat s) := by
  unfold execFop
  refine onIssue_answersCanon hs fun i => ?_
  simp [hs]
  (repeat' split) <;> simp [hs]

@[simp] theorem State.vecIssue_mem (s : State) (i : Issue) (words : List Nat) (site : Bool) (busy : Option Nat) : (s.vecIssue i words site busy).mem = s.mem := by
  unfold State.vecIssue
  simp

@[simp] theorem State.vecOr_mem (s : State) (i : Issue) (rs : List Nat) (f : State) :
    (s.vecOr i rs f).mem = if i.blocked rs ∨ 8 ≤ (s.tile i.tile).vq.length then s.mem else f.mem := by
  unfold State.vecOr; simp

@[simp] theorem execLd_answersCanon (tile seat : Nat) (s : State) (hs : CanonMem s.mem) : AnswersCanon (execLd tile seat s) := by
  unfold execLd
  refine onIssue_answersCanon hs fun i => ?_
  simp [hs]
  (repeat' split) <;> simp [hs]

@[simp] theorem execSt_answersCanon (tile seat : Nat) (s : State) (hs : CanonMem s.mem) : AnswersCanon (execSt tile seat s) := by
  unfold execSt
  refine onIssue_answersCanon hs fun i => ?_
  simp [hs]
  (repeat' split) <;> simp [hs]

@[simp] theorem execLdComplete_answersCanon (tile : Nat) (s : State) (hs : CanonMem s.mem) : AnswersCanon (execLdComplete tile s) := by
  unfold execLdComplete
  dsimp only
  split <;> simp [hs]

@[simp] theorem State.jump_mem (s : State) (i : Issue) (t : Int) (f : Seat → Seat) : (s.jump i t f).mem = s.mem := by
  unfold State.jump; split <;> simp

@[simp] theorem execBr_answersCanon (tile seat : Nat) (s : State) (hs : CanonMem s.mem) : AnswersCanon (execBr tile seat s) := by
  unfold execBr
  refine onIssue_answersCanon hs fun i => ?_
  simp [hs]
  (repeat' split) <;> simp [hs]

@[simp] theorem execJal_answersCanon (tile seat : Nat) (s : State) (hs : CanonMem s.mem) : AnswersCanon (execJal tile seat s) := by
  unfold execJal
  simp [hs]

@[simp] theorem execJalr_answersCanon (tile seat : Nat) (s : State) (hs : CanonMem s.mem) : AnswersCanon (execJalr tile seat s) := by
  unfold execJalr
  simp [hs]

@[simp] theorem execSeatRunOff_answersCanon (tile seat : Nat) (s : State) (hs : CanonMem s.mem) : AnswersCanon (execSeatRunOff tile seat s) := by
  unfold execSeatRunOff
  dsimp only
  (repeat' split) <;> simp [hs]

theorem State.getSel_mem {s t : State} {i : Issue} {sel n : Nat} (h : s.getSel i sel = some (n, t)) : t.mem = s.mem := by
  unfold State.getSel at h
  split at h <;> cases h <;> simp

@[simp] theorem execGet_answersCanon (tile seat : Nat) (s : State) (hs : CanonMem s.mem) : AnswersCanon (execGet tile seat s) := by
  unfold execGet
  refine onIssue_answersCanon hs fun i => ?_
  split
  · simp [hs]
  · split
    next h => simp [State.getSel_mem h, hs]
    · simp [hs]

@[simp] theorem onIssueFn_answersCanon {s : State} (hs : CanonMem s.mem) {tile seat opc fn : Nat} {f : Issue → State} (hf : ∀ i, CanonMem (f i).mem) :
    AnswersCanon (onIssueFn tile seat opc fn s f) := by
  unfold onIssueFn; split
  · split
    · split <;> simp [*]
    · simp [*]
  · simp

@[simp] theorem execSwait_answersCanon (tile seat : Nat) (s : State) (hs : CanonMem s.mem) : AnswersCanon (execSwait tile seat s) := by
  unfold execSwait
  simp [hs]

@[simp] theorem execSbar_answersCanon (tile seat : Nat) (s : State) (hs : CanonMem s.mem) : AnswersCanon (execSbar tile seat s) := by
  unfold execSbar
  simp [hs]

@[simp] theorem execDeadlockDetected_answersCanon (tile : Nat) (s : State) (hs : CanonMem s.mem) : AnswersCanon (execDeadlockDetected tile s) := by
  unfold execDeadlockDetected
  dsimp only
  split <;> simp [hs]

@[simp] theorem execArrive_answersCanon (tile seat : Nat) (s : State) (hs : CanonMem s.mem) : AnswersCanon (execArrive tile seat s) := by
  unfold execArrive
  refine onIssueFn_answersCanon hs fun i => ?_
  dsimp only
  (repeat' split) <;> simp [hs]

@[simp] theorem execWait_answersCanon (tile seat : Nat) (s : State) (hs : CanonMem s.mem) : AnswersCanon (execWait tile seat s) := by
  unfold execWait
  refine onIssueFn_answersCanon hs fun i => ?_
  dsimp only
  (repeat' split) <;> simp [hs]

@[simp] theorem execTest_answersCanon (tile seat : Nat) (s : State) (hs : CanonMem s.mem) : AnswersCanon (execTest tile seat s) := by
  unfold execTest
  refine onIssueFn_answersCanon hs fun i => ?_
  dsimp only
  (repeat' split) <;> simp [hs]

@[simp] theorem execPload_answersCanon (tile seat : Nat) (s : State) (hs : CanonMem s.mem) : AnswersCanon (execPload tile seat s) := by
  unfold execPload
  refine onIssueFn_answersCanon hs fun i => ?_
  dsimp only
  (repeat' split) <;> simp [hs]

@[simp] theorem execNop_answersCanon (tile seat : Nat) (s : State) (hs : CanonMem s.mem) : AnswersCanon (execNop tile seat s) := by
  unfold execNop
  simp [hs]

@[simp] theorem execTend_answersCanon (tile seat : Nat) (s : State) (hs : CanonMem s.mem) : AnswersCanon (execTend tile seat s) := by
  unfold execTend
  refine onIssueFn_answersCanon hs fun i => ?_
  dsimp only
  (repeat' split) <;> simp [hs]

@[simp] theorem execTrap_answersCanon (tile seat : Nat) (s : State) (hs : CanonMem s.mem) : AnswersCanon (execTrap tile seat s) := by
  unfold execTrap
  simp [hs]

@[simp] theorem execBkpt_answersCanon (tile seat : Nat) (s : State) (hs : CanonMem s.mem) : AnswersCanon (execBkpt tile seat s) := by
  unfold execBkpt
  simp [hs]

@[simp] theorem execDebugHalt_answersCanon (tile seats : Nat) (s : State) (hs : CanonMem s.mem) : AnswersCanon (execDebugHalt tile seats s) := by
  unfold execDebugHalt
  simp [hs]

@[simp] theorem execDebugStep_answersCanon (tile : Nat) (s : State) (hs : CanonMem s.mem) : AnswersCanon (execDebugStep tile s) := by
  unfold execDebugStep
  simp [hs]

@[simp] theorem execBreakpointHit_answersCanon (tile seat : Nat) (s : State) (hs : CanonMem s.mem) : AnswersCanon (execBreakpointHit tile seat s) := by
  unfold execBreakpointHit
  simp [hs]

@[simp] theorem execReservedOpcodeIssue_answersCanon (tile seat : Nat) (s : State) (hs : CanonMem s.mem) : AnswersCanon (execReservedOpcodeIssue tile seat s) := by
  unfold execReservedOpcodeIssue
  simp
  (repeat' split) <;> simp [hs]

@[simp] theorem execSheetStoreEccError_answersCanon (tile : Nat) (site : EccSite) (corrected : Bool) (bit : Nat) (s : State) (hs : CanonMem s.mem) :
    AnswersCanon (execSheetStoreEccError tile site corrected bit s) := by
  unfold execSheetStoreEccError
  dsimp only
  split <;> simp [hs]

@[simp] theorem State.writeAt_mem (s : State) (r : RegAt) (n value : Nat) : (s.writeAt r n value).mem = s.mem := by
  unfold State.writeAt
  dsimp only
  split <;> simp

@[simp] theorem State.srvCopy_mem (s : State) (u : Nat) : (s.srvCopy u).mem = s.mem := by
  unfold State.srvCopy
  simp

@[simp] theorem State.ppsSettle_mem (s : State) : s.ppsSettle.mem = s.mem := by
  unfold State.ppsSettle
  simp

@[simp] theorem State.tableWrite_mem (s : State) (f off n value : Nat) : (s.tableWrite f off n value).mem = s.mem := by
  unfold State.tableWrite
  simp

@[simp] theorem State.stewardMem_canonMem (s : State) (a n value : Nat) (hs : CanonMem s.mem) : CanonMem (s.stewardMem a n value).mem := by
  unfold State.stewardMem
  simp [hs]

@[simp] theorem execRegisterWrite_answersCanon (who : Master) (addr n value : Nat) (s : State) (hs : CanonMem s.mem) :
    AnswersCanon (execRegisterWrite who addr n value s) := by
  unfold execRegisterWrite
  simp [hs]
  (repeat' split) <;> simp [hs]

@[simp] theorem execMerGlobLateRead_answersCanon (who : Master) (s : State) (hs : CanonMem s.mem) : AnswersCanon (execMerGlobLateRead who s) := by
  unfold execMerGlobLateRead
  simp [hs]

@[simp] theorem State.lowRead_mem (s : State) (fn off : Nat) (r : RegAt) : (s.lowRead fn off r).mem = s.mem := by
  unfold State.lowRead
  dsimp only
  (repeat' split) <;> simp

@[simp] theorem execHalfReadLatch_answersCanon (fn off : Nat) (s : State) (hs : CanonMem s.mem) : AnswersCanon (execHalfReadLatch fn off s) := by
  unfold execHalfReadLatch
  dsimp only
  (repeat' split) <;> simp [hs]

@[simp] theorem State.enterMer_mem (s : State) (st : Nat) (seen : Fld) : (s.enterMer st seen).mem = s.mem := by
  unfold State.enterMer
  simp

@[simp] theorem State.forwardStep_mem (s : State) (n : Nat) : (s.forwardStep n).mem = s.mem := by
  unfold State.forwardStep
  simp

@[simp] theorem State.evalOffset_mem (s : State) (e : Int) (num : Option Nat) : (s.evalOffset e num).mem = s.mem := by
  unfold State.evalOffset
  simp

@[simp] theorem execPtpSyncReceived_answersCanon (e : Int) (t : Nat) (s : State) (hs : CanonMem s.mem) : AnswersCanon (execPtpSyncReceived e t s) := by
  unfold execPtpSyncReceived
  dsimp only
  (repeat' split) <;> simp [hs]

@[simp] theorem State.holdover_mem (s : State) : s.holdover.mem = s.mem := by
  unfold State.holdover
  simp

@[simp] theorem execSyncLossTimeout_answersCanon (s : State) (hs : CanonMem s.mem) : AnswersCanon (execSyncLossTimeout s) := by
  unfold execSyncLossTimeout
  simp [hs]

@[simp] theorem execHoldoverLimit_answersCanon (s : State) (hs : CanonMem s.mem) : AnswersCanon (execHoldoverLimit s) := by
  unfold execHoldoverLimit
  simp [hs]

@[simp] theorem execPpsInEdge_answersCanon (falling : Bool) (dt : Nat) (e : Int) (s : State) (hs : CanonMem s.mem) : AnswersCanon (execPpsInEdge falling dt e s) := by
  unfold execPpsInEdge
  simp [hs]

@[simp] theorem execPpsInTimeout_answersCanon (s : State) (hs : CanonMem s.mem) : AnswersCanon (execPpsInTimeout s) := by
  unfold execPpsInTimeout
  simp [hs]

@[simp] theorem execPpsOutPulse_answersCanon (rise : Bool) (s : State) (hs : CanonMem s.mem) : AnswersCanon (execPpsOutPulse rise s) := by
  unfold execPpsOutPulse
  simp [hs]

@[simp] theorem execPtpSyncTransmit_answersCanon (port : Nat) (s : State) (hs : CanonMem s.mem) : AnswersCanon (execPtpSyncTransmit port s) := by
  unfold execPtpSyncTransmit
  simp [hs]

@[simp] theorem State.armSwitch_mem (s : State) : s.armSwitch.mem = s.mem := by
  unfold State.armSwitch
  simp

@[simp] theorem execMerTickPeriodArm_answersCanon (s : State) (hs : CanonMem s.mem) : AnswersCanon (execMerTickPeriodArm s) := by
  unfold execMerTickPeriodArm
  simp [hs]

@[simp] theorem State.periodSwitch_mem (s : State) : s.periodSwitch.mem = s.mem := by
  unfold State.periodSwitch
  simp

@[simp] theorem State.tick_mem (s : State) : s.tick.mem = s.mem := by
  unfold State.tick
  dsimp only
  split <;> simp

@[simp] theorem State.wireOut_mem (s : State) (n slot pri : Nat) (what : TxWhat) (x : Option Leaving) : (s.wireOut n slot pri what x).mem = s.mem := by
  unfold State.wireOut
  simp

@[simp] theorem answersCanon_onPort (port : Nat) (r : Res) : AnswersCanon (onPort port r) ↔ (port < 64 → AnswersCanon r) := by
  unfold onPort; split <;> simp [*]

@[simp] theorem State.rxGood_mem (s : State) (n : Nat) (f : EthFrame) : (s.rxGood n f).mem = s.mem := by
  unfold State.rxGood
  simp

@[simp] theorem State.rxFilter_mem (s : State) (n : Nat) (f : EthFrame) : (s.rxFilter n f).mem = s.mem := by
  unfold State.rxFilter
  simp

@[simp] theorem State.sendPause_mem (s : State) (n mask : Nat) (off : Bool) : (s.sendPause n mask off).mem = s.mem := by
  unfold State.sendPause
  simp

@[simp] theorem State.holdPris_mem (s : State) (n mask : Nat) : (s.holdPris n mask).mem = s.mem := by
  unfold State.holdPris
  simp

@[simp] theorem State.freePris_mem (s : State) (n mask : Nat) : (s.freePris n mask).mem = s.mem := by
  unfold State.freePris
  simp

@[simp] theorem State.pauseIn_mem (s : State) (n : Nat) (f : EthFrame) : (s.pauseIn n f).mem = s.mem := by
  unfold State.pauseIn
  simp

@[simp] theorem State.xoffCheck_mem (s : State) (n : Nat) : (s.xoffCheck n).mem = s.mem := by
  unfold State.xoffCheck
  simp

@[simp] theorem State.rxNdeyx_mem (s : State) (n : Nat) (f : EthFrame) : (s.rxNdeyx n f).mem = s.mem := by
  unfold State.rxNdeyx
  simp

@[simp] theorem State.rxSteward_mem (s : State) (n : Nat) (f : EthFrame) : (s.rxSteward n f).mem = s.mem := by
  unfold State.rxSteward
  dsimp only
  (repeat' split) <;> simp

@[simp] theorem State.noteMsec_mem (s : State) (n : Nat) (f : EthFrame) : (s.noteMsec n f).mem = s.mem := by
  unfold State.noteMsec
  simp

@[simp] theorem execEthernetFrameReceived_answersCanon (port : Nat) (f : EthFrame) (s : State) (hs : CanonMem s.mem) :
    AnswersCanon (execEthernetFrameReceived port f s) := by
  unfold execEthernetFrameReceived
  simp [hs]
  (repeat' split) <;> simp [hs]

@[simp] theorem execPauseHoldExpire_answersCanon (port pri : Nat) (s : State) (hs : CanonMem s.mem) : AnswersCanon (execPauseHoldExpire port pri s) := by
  unfold execPauseHoldExpire
  simp [hs]

@[simp] theorem execXoffRepeat_answersCanon (port pri : Nat) (s : State) (hs : CanonMem s.mem) : AnswersCanon (execXoffRepeat port pri s) := by
  unfold execXoffRepeat
  simp [hs]

@[simp] theorem execXonSend_answersCanon (port pri : Nat) (s : State) (hs : CanonMem s.mem) : AnswersCanon (execXonSend port pri s) := by
  unfold execXonSend
  simp [hs]

@[simp] theorem State.recover_mem (s : State) (n pri : Nat) (stuck : Bool) : (s.recover n pri stuck).mem = s.mem := by
  unfold State.recover
  simp

@[simp] theorem execPfcStorm_answersCanon (port pri : Nat) (s : State) (hs : CanonMem s.mem) : AnswersCanon (execPfcStorm port pri s) := by
  unfold execPfcStorm
  simp [hs]

@[simp] theorem execPfcStuck_answersCanon (port pri : Nat) (s : State) (hs : CanonMem s.mem) : AnswersCanon (execPfcStuck port pri s) := by
  unfold execPfcStuck
  simp [hs]

@[simp] theorem execPfcRecoveryEnd_answersCanon (port pri : Nat) (s : State) (hs : CanonMem s.mem) : AnswersCanon (execPfcRecoveryEnd port pri s) := by
  unfold execPfcRecoveryEnd
  dsimp only
  split <;> simp [hs]

@[simp] theorem State.pnHard_mem (s : State) (p q : Nat) : (s.pnHard p q).mem = s.mem := by
  unfold State.pnHard
  simp

theorem State.linkSend_mem {s t : State} {n slot pri : Nat} {what : TxWhat} (h : s.linkSend n slot pri what = some t) : t.mem = s.mem := by
  unfold State.linkSend at h
  repeat' split at h
  all_goals (cases h <;> simp)

@[simp] theorem execTransmitStart_answersCanon (port slot : Nat) (what : TxWhat) (len present pri dstKind : Nat) (s : State) (hs : CanonMem s.mem) :
    AnswersCanon (execTransmitStart port slot what len present pri dstKind s) := by
  unfold execTransmitStart
  rw [answersCanon_onPort]
  intro _
  dsimp only
  split
  · simp [hs]
  · split
    · simp [hs]
    next h => simp [State.linkSend_mem h, hs]

@[simp] theorem execTxUnderrun_answersCanon (port : Nat) (s : State) (hs : CanonMem s.mem) : AnswersCanon (execTxUnderrun port s) := by
  unfold execTxUnderrun
  dsimp only
  split <;> simp [hs]

@[simp] theorem State.cleanFrame_mem (s : State) (n : Nat) : (s.cleanFrame n).mem = s.mem := by
  unfold State.cleanFrame
  simp

@[simp] theorem execTransmitEnd_answersCanon (port : Nat) (s : State) (hs : CanonMem s.mem) : AnswersCanon (execTransmitEnd port s) := by
  unfold execTransmitEnd
  dsimp only
  (repeat' split) <;> simp [hs]

@[simp] theorem execLpiIdleTimeout_answersCanon (port : Nat) (s : State) (hs : CanonMem s.mem) : AnswersCanon (execLpiIdleTimeout port s) := by
  unfold execLpiIdleTimeout
  simp [hs]

@[simp] theorem execPortParked_answersCanon (port : Nat) (s : State) (hs : CanonMem s.mem) : AnswersCanon (execPortParked port s) := by
  unfold execPortParked
  simp [hs]

@[simp] theorem execPortWake_answersCanon (port : Nat) (s : State) (hs : CanonMem s.mem) : AnswersCanon (execPortWake port s) := by
  unfold execPortWake
  simp [hs]

@[simp] theorem execWakeEnd_answersCanon (port : Nat) (s : State) (hs : CanonMem s.mem) : AnswersCanon (execWakeEnd port s) := by
  unfold execWakeEnd
  simp [hs]

@[simp] theorem State.lowerPort_mem (s : State) (n : Nat) : (s.lowerPort n).mem = s.mem := by
  unfold State.lowerPort
  simp

@[simp] theorem execRateLower_answersCanon (port devid : Nat) (octets : List (Nat × Nat)) (s : State) (hs : CanonMem s.mem) :
    AnswersCanon (execRateLower port devid octets s) := by
  unfold execRateLower
  simp [hs]

@[simp] theorem State.lockLink_mem (s : State) (n : Nat) : (s.lockLink n).mem = s.mem := by
  unfold State.lockLink
  simp

@[simp] theorem execPortRetrainDone_answersCanon (port : Nat) (s : State) (hs : CanonMem s.mem) : AnswersCanon (execPortRetrainDone port s) := by
  unfold execPortRetrainDone
  dsimp only
  (repeat' split) <;> simp [hs]

@[simp] theorem execLinkUp_answersCanon (port : Nat) (s : State) (hs : CanonMem s.mem) : AnswersCanon (execLinkUp port s) := by
  unfold execLinkUp
  simp [hs]

@[simp] theorem State.linkDown_mem (s : State) (port : Nat) : (s.linkDown port).mem = s.mem := by
  unfold State.linkDown
  simp

@[simp] theorem execLinkDown_answersCanon (port : Nat) (s : State) (hs : CanonMem s.mem) : AnswersCanon (execLinkDown port s) := by
  unfold execLinkDown
  simp [hs]

@[simp] theorem execLinkHoldExpire_answersCanon (port : Nat) (s : State) (hs : CanonMem s.mem) : AnswersCanon (execLinkHoldExpire port s) := by
  unfold execLinkHoldExpire
  simp [hs]

@[simp] theorem execLaneBerSample_answersCanon (lane syms nbits cw corr uncorr : Nat) (s : State) (hs : CanonMem s.mem) :
    AnswersCanon (execLaneBerSample lane syms nbits cw corr uncorr s) := by
  unfold execLaneBerSample
  dsimp only
  (repeat' split) <;> simp [hs]

@[simp] theorem execLaneSteer_answersCanon (lane : Nat) (s : State) (hs : CanonMem s.mem) : AnswersCanon (execLaneSteer lane s) := by
  unfold execLaneSteer
  dsimp only
  (repeat' split) <;> simp [hs]

@[simp] theorem execLaneSteerCheck_answersCanon (lane : Nat) (good : Bool) (s : State) (hs : CanonMem s.mem) : AnswersCanon (execLaneSteerCheck lane good s) := by
  unfold execLaneSteerCheck
  dsimp only
  (repeat' split) <;> simp [hs]

@[simp] theorem State.restartPort_mem (s : State) (n : Nat) : (s.restartPort n).mem = s.mem := by
  unfold State.restartPort
  simp

@[simp] theorem State.setModes_mem (s : State) (d v : Nat) : (s.setModes d v).mem = s.mem := by
  unfold State.setModes
  simp

@[simp] theorem execEthLaneModeWrite_answersCanon (fdie value : Nat) (s : State) (hs : CanonMem s.mem) : AnswersCanon (execEthLaneModeWrite fdie value s) := by
  unfold execEthLaneModeWrite
  simp [hs]

@[simp] theorem State.setPortCtrl_mem (s : State) (n value : Nat) : (s.setPortCtrl n value).mem = s.mem := by
  rw [State.setPortCtrl, State.setReg_mem]

@[simp] theorem execEthPortRateWrite_answersCanon (port value : Nat) (s : State) (hs : CanonMem s.mem) : AnswersCanon (execEthPortRateWrite port value s) := by
  unfold execEthPortRateWrite
  simp [hs]

@[simp] theorem execEthStatSnap_answersCanon (port : Nat) (s : State) (hs : CanonMem s.mem) : AnswersCanon (execEthStatSnap port s) := by
  unfold execEthStatSnap
  simp [hs]

@[simp] theorem State.updModule_mem (s : State) (serial : Nat) (f : ModuleRec → ModuleRec) : (s.updModule serial f).mem = s.mem := by
  unfold State.updModule
  simp

@[simp] theorem execModuleMonitorRead_answersCanon (cage : Nat) (temp : Int) (mon : ModuleMon) (alarm hour : Bool) (s : State) (hs : CanonMem s.mem) :
    AnswersCanon (execModuleMonitorRead cage temp mon alarm hour s) := by
  unfold execModuleMonitorRead
  dsimp only
  (repeat' split) <;> simp [hs]

@[simp] theorem State.saveModules_mem (s : State) : s.saveModules.mem = s.mem := by
  unfold State.saveModules
  simp

@[simp] theorem State.moduleIn_mem (s : State) (c : Nat) (m : ModuleId) : (s.moduleIn c m).mem = s.mem := by
  unfold State.moduleIn
  simp

@[simp] theorem State.moduleOut_mem (s : State) (c : Nat) : (s.moduleOut c).mem = s.mem := by
  unfold State.moduleOut
  dsimp only
  split <;> simp

@[simp] theorem State.pollCage_mem (s : State) (c : Nat) (here : Bool) (m : Option ModuleId) : (s.pollCage c here m).mem = s.mem := by
  rw [State.pollCage]
  dsimp only
  (repeat' split) <;> simp

theorem foldl_pollCage_mem (l : List Nat) (here : Nat → Bool) (m : Nat → Option ModuleId) (s : State) :
    (l.foldl (fun s c => s.pollCage c (here c) (m c)) s).mem = s.mem := by
  induction l generalizing s with
  | nil => rfl
  | cons c l ih => rw [List.foldl_cons, ih, State.pollCage_mem]

@[simp] theorem execModuleBusPoll_answersCanon (seen : List Nat) (ids : List (Nat × ModuleId)) (s : State) (hs : CanonMem s.mem) :
    AnswersCanon (execModuleBusPoll seen ids s) := by
  rw [execModuleBusPoll, answersCanon_next, foldl_pollCage_mem _ (fun c => seen.contains c) fun c => (ids.find? fun i => i.1 == c).map Prod.snd]
  exact hs

/-! ### Collectives, links, steps and the dealer -/

@[simp] theorem State.updColl_mem (s : State) (p order : Nat) (f : Coll → Coll) : (s.updColl p order f).mem = s.mem := by
  unfold State.updColl
  simp

@[simp] theorem State.rdeSend_mem (s : State) (p dest : Nat) (m : SegMsg) : (s.rdeSend p dest m).mem = s.mem := by
  unfold State.rdeSend
  simp

@[simp] theorem State.sendSeg_mem (s : State) (p order dest : Nat) (copy : Bool) (m : SegMsg) : (s.sendSeg p order dest copy m).mem = s.mem := by
  unfold State.sendSeg
  simp

@[simp] theorem State.stopColl_mem (s : State) (p order : Nat) (r : ErrRec) : (s.stopColl p order r).mem = s.mem := by
  unfold State.stopColl
  simp

@[simp] theorem State.pump_mem (s : State) (p order : Nat) (d : CollDesc) : (s.pump p order d).mem = s.mem := by
  unfold State.pump
  dsimp only
  split <;> simp

@[simp] theorem State.writeResult_canonMem (s : State) (p order : Nat) (d : CollDesc) (h : Shard) (i : Nat) (bs : List Byte) (hs : CanonMem s.mem) :
    CanonMem (s.writeResult p order d h i bs).mem := by
  unfold State.writeResult
  simp [hs]

@[simp] theorem State.addCopy_mem (s : State) (p order : Nat) (d : CollDesc) (h : Shard) (seg : Nat) (bs : List Byte) : (s.addCopy p order d h seg bs).mem = s.mem := by
  unfold State.addCopy
  simp

@[simp] theorem State.countNf_mem (s : State) (p : Nat) (d : CollDesc) (seg n : Nat) : (s.countNf p d seg n).mem = s.mem := by
  unfold State.countNf
  simp

@[simp] theorem State.trySum_canonMem (s : State) (p order shard seg : Nat) (hs : CanonMem s.mem) : CanonMem (s.trySum p order shard seg).mem := by
  unfold State.trySum
  split
  · exact hs
  next c _ =>
    extract_lets +onlyGivenNames g d n r
    split
    next h nd _ _ =>
      extract_lets +onlyGivenNames t
      split
      · exact hs
      · extract_lets +onlyGivenNames parts pre terms x3 f key payload adds s1 s2 payload2 s3
        have h1 : s1.mem = s.mem := by simp [s1]
        have h2 : s2.mem = s.mem := by simp [s2, h1]
        have h3 : s3.mem = s.mem := by simp [s3, h2]
        clear_value s3
        split
        · simp [h3, hs]
        · extract_lets +onlyGivenNames s4 s5
          have h4 : CanonMem s4.mem := by simp [s4, h3, hs]
          have h5 : CanonMem s5.mem := State.writeResult_canonMem _ _ _ _ _ _ _ h4
          split
          · simp [h5]
          · exact h5
    · exact hs

@[simp] theorem State.tryCheck_mem (s : State) (p order elem : Nat) : (s.tryCheck p order elem).mem = s.mem := by
  unfold State.tryCheck
  dsimp only
  (repeat' split) <;> simp

@[simp] theorem State.startSums_canonMem (s : State) (p order : Nat) (d : CollDesc) (pro : Bool) (hs : CanonMem s.mem) : CanonMem (s.startSums p order d pro).mem := by
  unfold State.startSums
  refine canonMem_foldl (canonMem_foldl (by simp [hs]) fun b x hb => ?_) fun b k hb => ?_
  · exact State.trySum_canonMem _ _ _ _ _ hb
  · simp [hb]

@[simp] theorem State.startCopies_canonMem (s : State) (p order : Nat) (d : CollDesc) (hs : CanonMem s.mem) : CanonMem (s.startCopies p order d).mem := by
  unfold State.startCopies
  exact canonMem_foldl hs fun b h hb => canonMem_foldl hb fun b i hb => by simp [hb]

@[simp] theorem State.putRow_canonMem (s : State) (p base cols nib i : Nat) (bs : List Byte) (hs : CanonMem s.mem) : CanonMem (s.putRow p base cols nib i bs).mem := by
  unfold State.putRow
  exact canonMem_foldl hs fun b q hb => by simp [hb]

@[simp] theorem State.putBlock_canonMem (s : State) (p base cols nib row0 cap : Nat) (bs : List Byte) (hs : CanonMem s.mem) :
    CanonMem (s.putBlock p base cols nib row0 cap bs).mem := by
  unfold State.putBlock
  exact canonMem_foldl hs fun b i hb => by simp [hb]

@[simp] theorem State.dealIn_canonMem (s : State) (p order : Nat) (d : CollDesc) (src e : Nat) (bs : List Byte) (hs : CanonMem s.mem) :
    CanonMem (s.dealIn p order d src e bs).mem := by
  unfold State.dealIn
  simp [hs]

@[simp] theorem State.sendPieces_mem (s : State) (p order : Nat) (d : CollDesc) (dest base : Nat) (bs : List Byte) :
    (s.sendPieces p order d dest base bs).mem = s.mem := by
  unfold State.sendPieces
  simp

@[simp] theorem State.takePiece_mem (s : State) (p order : Nat) (x : Piece) : (s.takePiece p order x).1.mem = s.mem := by
  unfold State.takePiece
  dsimp only
  (repeat' split) <;> simp

@[simp] theorem State.startDispatch_canonMem (s : State) (p order : Nat) (d : CollDesc) (hs : CanonMem s.mem) : CanonMem (s.startDispatch p order d).mem := by
  unfold State.startDispatch
  exact canonMem_foldl (by simp [hs]) fun b x hb => by simp [hb]

@[simp] theorem State.returnIn_canonMem (s : State) (p order : Nat) (d : CollDesc) (e : Nat) (bs : List Byte) (hs : CanonMem s.mem) :
    CanonMem (s.returnIn p order d e bs).mem := by
  unfold State.returnIn
  simp [hs]

@[simp] theorem State.startReturn_canonMem (s : State) (p order : Nat) (d : CollDesc) (hs : CanonMem s.mem) : CanonMem (s.startReturn p order d).mem := by
  unfold State.startReturn
  exact canonMem_foldl hs fun b x hb => by simp [hb]

@[simp] theorem State.shuffleIn_canonMem (s : State) (p order : Nat) (d : CollDesc) (seg : Nat) (bs : List Byte) (hs : CanonMem s.mem) :
    CanonMem (s.shuffleIn p order d seg bs).mem := by
  unfold State.shuffleIn
  dsimp only
  split <;> simp [hs]

@[simp] theorem State.stagePiece_canonMem (s : State) (p order : Nat) (d : CollDesc) (bs : List Byte) (hs : CanonMem s.mem) : CanonMem (s.stagePiece p order d bs).mem := by
  unfold State.stagePiece
  split
  · split <;> simp [hs]
  · exact hs

@[simp] theorem State.startShuffle_canonMem (s : State) (p order : Nat) (d : CollDesc) (hs : CanonMem s.mem) : CanonMem (s.startShuffle p order d).mem := by
  unfold State.startShuffle
  refine canonMem_foldl hs fun b x hb => ?_
  split
  · exact canonMem_foldl hb fun b j hb => by simp [hb]
  · simp [hb]

@[simp] theorem State.deliver_canonMem (s : State) (p order src : Nat) (m : SegMsg) (hs : CanonMem s.mem) : CanonMem (s.deliver p order src m).mem := by
  unfold State.deliver
  dsimp only
  (repeat' split) <;> simp [hs]

@[simp] theorem State.deliverCheck_mem (s : State) (p order src : Nat) (m : SegMsg) : (s.deliverCheck p order src m).mem = s.mem := by
  unfold State.deliverCheck
  simp

@[simp] theorem State.recheck_mem (s : State) (p order : Nat) : (s.recheck p order).mem = s.mem := by
  unfold State.recheck
  split
  · rfl
  · exact mem_foldl _ _ _ fun b k => State.tryCheck_mem ..

@[simp] theorem State.replayEarly_canonMem (s : State) (p order : Nat) (hs : CanonMem s.mem) : CanonMem (s.replayEarly p order).mem := by
  unfold State.replayEarly
  refine canonMem_foldl (by simp [hs]) fun b e hb => ?_
  split
  · split
    · simp [hb]
    · split <;> simp [hb]
  · simp [hb]

@[simp] theorem State.beginColl_canonMem (s : State) (p order : Nat) (hs : CanonMem s.mem) : CanonMem (s.beginColl p order).mem := by
  generalize hx : s.beginColl p order = x
  rw [State.beginColl] at hx
  split at hx
  · exact hx ▸ hs
  next c _ =>
    extract_lets +onlyGivenNames s1 at hx
    have h1 : CanonMem s1.mem := by simp [s1, hs]
    clear_value s1
    extract_lets +onlyGivenNames d pro reads at hx
    split at hx
    · exact hx ▸ h1
    · extract_lets +onlyGivenNames s2 at hx
      have h2 : CanonMem s2.mem := by simp [s2, h1]
      clear_value s2
      split at hx
      · simp [← hx, h2]
      · extract_lets +onlyGivenNames s3 at hx
        have h3 : CanonMem s3.mem := by
          simp only [s3]
          split <;> simp [h2]
        clear_value s3
        simp [← hx, h3]

@[simp] theorem State.startColl_canonMem (s : State) (p order f : Nat) (hs : CanonMem s.mem) : CanonMem (s.startColl p order f).mem := by
  unfold State.startColl
  dsimp only
  split <;> simp [hs]

@[simp] theorem State.wakeColls_canonMem (s : State) (p : Nat) (hs : CanonMem s.mem) : CanonMem (s.wakeColls p).mem := by
  unfold State.wakeColls
  exact canonMem_foldl hs fun b c hb => State.beginColl_canonMem _ _ _ hb

@[simp] theorem execOutboxDrain_answersCanon (tile : Nat) (s : State) (hs : CanonMem s.mem) : AnswersCanon (execOutboxDrain tile s) := by
  unfold execOutboxDrain
  simp
  (repeat' split) <;> simp [hs]

@[simp] theorem State.startReady_canonMem (s : State) (p f : Nat) (hs : CanonMem s.mem) : CanonMem (s.startReady p f).mem := by
  unfold State.startReady
  refine canonMem_foldl hs fun b o hb => ?_
  split
  · simp [hb]
  · exact hb

@[simp] theorem State.cutOwn_mem (s : State) (p : Nat) : (s.cutOwn p).mem = s.mem := by
  unfold State.cutOwn
  dsimp only
  split <;> simp

@[simp] theorem execChainComplete_answersCanon (bulk : Nat) (s : State) (hs : CanonMem s.mem) : AnswersCanon (execChainComplete bulk s) := by
  unfold execChainComplete
  dsimp only
  (repeat' split) <;> simp [hs]

@[simp] theorem State.segDrop_mem (s : State) (p : Nat) (m : SegMsg) : (s.segDrop p m).mem = s.mem := by
  unfold State.segDrop
  simp

theorem State.route_canonMem {s : State} {p src : Nat} {m : SegMsg} {f : Nat → State} (hs : CanonMem s.mem) (hf : ∀ o, CanonMem (f o).mem) :
    CanonMem (s.route p src m f).mem := by
  unfold State.route
  dsimp only
  split
  · exact hs
  · split
    · simp [hs]
    · split
      · exact hf _
      · simp [hs]

@[simp] theorem State.ackSeg_mem (s : State) (p src : Nat) (m : SegMsg) : (s.ackSeg p src m).mem = s.mem := by
  unfold State.ackSeg
  simp

@[simp] theorem execSegmentReceived_answersCanon (prov src : Nat) (m : SegMsg) (s : State) (hs : CanonMem s.mem) : AnswersCanon (execSegmentReceived prov src m s) := by
  unfold execSegmentReceived
  dsimp only
  split
  · simp [hs]
  · split
    · simp [hs]
    · rw [answersCanon_next]
      exact State.route_canonMem (by simp [hs]) fun o => by simp [hs]

@[simp] theorem execCheckRecordReceived_answersCanon (prov src : Nat) (m : SegMsg) (s : State) (hs : CanonMem s.mem) :
    AnswersCanon (execCheckRecordReceived prov src m s) := by
  unfold execCheckRecordReceived
  dsimp only
  split
  · simp [hs]
  · rw [answersCanon_next]
    exact State.route_canonMem (by simp [hs]) fun o => by simp [hs]

@[simp] theorem State.ackPatch_mem (s : State) (p src : Nat) (m : SegMsg) : (s.ackPatch p src m).mem = s.mem := by
  unfold State.ackPatch
  simp

@[simp] theorem execSegmentAckReceived_answersCanon (prov src : Nat) (m : SegMsg) (s : State) (hs : CanonMem s.mem) :
    AnswersCanon (execSegmentAckReceived prov src m s) := by
  unfold execSegmentAckReceived
  dsimp only
  (repeat' split) <;> simp [hs]

@[simp] theorem State.limitTick_mem (s : State) (p : Nat) : (s.limitTick p).mem = s.mem := by
  unfold State.limitTick
  simp

@[simp] theorem State.excludeKid_mem (s : State) (p : Nat) (c : Coll) (d : CollDesc) (child : Nat) : (s.excludeKid p c d child).mem = s.mem := by
  unfold State.excludeKid
  simp

@[simp] theorem execChildExcluded_answersCanon (prov ord child : Nat) (s : State) (hs : CanonMem s.mem) : AnswersCanon (execChildExcluded prov ord child s) := by
  unfold execChildExcluded
  dsimp only
  split <;> simp [hs]

@[simp] theorem State.sendPatch_mem (s : State) (p ord rank step : Nat) (d : CollDesc) (segs : List Nat) : (s.sendPatch p ord rank step d segs).mem = s.mem := by
  unfold State.sendPatch
  simp

@[simp] theorem execPatch_answersCanon (prov ord rank : Nat) (segs : List Nat) (s : State) (hs : CanonMem s.mem) : AnswersCanon (execPatch prov ord rank segs s) := by
  unfold execPatch
  dsimp only
  split <;> simp [hs]

@[simp] theorem State.setLinks_mem (s : State) (l : List Link) : (s.setLinks l).mem = s.mem := by
  unfold State.setLinks
  simp

@[simp] theorem State.addLink_mem (s : State) (p peer devid : Nat) : (s.addLink p peer devid).mem = s.mem := by
  unfold State.addLink
  simp

@[simp] theorem State.deriveKeys_mem (s : State) (devid : Nat) : (s.deriveKeys devid).mem = s.mem := by
  unfold State.deriveKeys
  simp
  (repeat' split) <;> simp

@[simp] theorem State.openLinks_mem (s : State) (p : Nat) : (s.openLinks p).mem = s.mem := by
  unfold State.openLinks
  simp

@[simp] theorem State.trimLinks_mem (s : State) : s.trimLinks.mem = s.mem := by
  unfold State.trimLinks
  simp

@[simp] theorem State.sendClose_mem (s : State) (l : Link) : (s.sendClose l).mem = s.mem := by
  unfold State.sendClose
  simp
  (repeat' split) <;> simp

@[simp] theorem State.closeLinks_mem (s : State) (p : Nat) : (s.closeLinks p).mem = s.mem := by
  unfold State.closeLinks
  simp

@[simp] theorem State.resetStreams_mem (s : State) (p : Nat) : (s.resetStreams p).mem = s.mem := by
  unfold State.resetStreams
  simp

@[simp] theorem State.rankLost_mem (s : State) (p peer : Nat) : (s.rankLost p peer).mem = s.mem := by
  unfold State.rankLost
  dsimp only
  split <;> simp

@[simp] theorem State.standinReset_mem (s : State) (p : Nat) : (s.standinReset p).mem = s.mem := by
  unfold State.standinReset
  simp

@[simp] theorem State.standin_mem (s : State) (p r epoch : Nat) : (s.standin p r epoch).mem = s.mem := by
  unfold State.standin
  dsimp only
  split <;> simp

@[simp] theorem State.sendMirror_mem (s : State) (p r : Nat) : (s.sendMirror p r).mem = s.mem := by
  unfold State.sendMirror
  simp
  (repeat' split) <;> simp

@[simp] theorem State.takeMirror_canonMem (s : State) (p : Nat) (cells : List (Nat × Byte)) (hs : CanonMem s.mem) : CanonMem (s.takeMirror p cells).mem := by
  unfold State.takeMirror
  simp [hs]

@[simp] theorem State.tryRestore_canonMem (s : State) (p : Nat) (hs : CanonMem s.mem) : CanonMem (s.tryRestore p).mem := by
  unfold State.tryRestore
  dsimp only
  (repeat' split) <;> simp [hs]

@[simp] theorem State.reportIn_canonMem (s : State) (p q : Nat) (r : RankReport) (hs : CanonMem s.mem) : CanonMem (s.reportIn p q r).mem := by
  unfold State.reportIn
  simp [hs]

@[simp] theorem State.reportAll_canonMem (s : State) (p : Nat) (hs : CanonMem s.mem) : CanonMem (s.reportAll p).mem := by
  unfold State.reportAll
  simp [hs]

@[simp] theorem State.mirrorIn_canonMem (s : State) (p q : Nat) (cells : List (Nat × Byte)) (hs : CanonMem s.mem) : CanonMem (s.mirrorIn p q cells).mem := by
  unfold State.mirrorIn
  dsimp only
  (repeat' split) <;> simp [hs]

@[simp] theorem State.standinIn_mem (s : State) (from_ tag r devid epoch : Nat) : (s.standinIn from_ tag r devid epoch).mem = s.mem := by
  unfold State.standinIn
  dsimp only
  split <;> simp

@[simp] theorem State.autoStandin_mem (s : State) (p r : Nat) : (s.autoStandin p r).mem = s.mem := by
  unfold State.autoStandin
  simp

@[simp] theorem State.loseLink_mem (s : State) (p peer : Nat) : (s.loseLink p peer).mem = s.mem := by
  unfold State.loseLink
  simp

@[simp] theorem State.setStepState_mem (s : State) (p v : Nat) : (s.setStepState p v).mem = s.mem := by
  unfold State.setStepState
  simp

@[simp] theorem State.openStep_mem (s : State) (p step : Nat) (first : Bool) : (s.openStep p step first).mem = s.mem := by
  unfold State.openStep
  simp

@[simp] theorem State.stepLog_canonMem (s : State) (p result reason nf : Nat) (hs : CanonMem s.mem) : CanonMem (s.stepLog p result reason nf).mem := by
  unfold State.stepLog
  simp [hs]

@[simp] theorem State.stepLogDone_canonMem (s : State) (p : Nat) (hs : CanonMem s.mem) : CanonMem (s.stepLogDone p).mem := by
  unfold State.stepLogDone
  iterate 4 refine State.stewardPut_canonMem _ _ _ _ ?_
  exact hs

@[simp] theorem State.skipStep_canonMem (s : State) (p : Nat) (v : Verd) (hs : CanonMem s.mem) : CanonMem (s.skipStep p v).mem := by
  unfold State.skipStep
  simp [hs]

@[simp] theorem State.decideStep_canonMem (s : State) (p : Nat) (hs : CanonMem s.mem) : CanonMem (s.decideStep p).mem := by
  unfold State.decideStep
  dsimp only
  split <;> simp [hs]

@[simp] theorem State.noVerdict_mem (s : State) (p : Nat) : (s.noVerdict p).mem = s.mem := by
  unfold State.noVerdict
  simp

@[simp] theorem State.reduceStep_mem (s : State) (p : Nat) : (s.reduceStep p).mem = s.mem := by
  unfold State.reduceStep
  simp

@[simp] theorem execVerdictResult_answersCanon (prov : Nat) (s : State) (hs : CanonMem s.mem) : AnswersCanon (execVerdictResult prov s) := by
  unfold execVerdictResult
  simp [hs]

@[simp] theorem State.checkReduced_mem (s : State) (p : Nat) : (s.checkReduced p).mem = s.mem := by
  unfold State.checkReduced
  dsimp only
  split <;> simp

@[simp] theorem execCollectiveComplete_answersCanon (prov ord : Nat) (s : State) (hs : CanonMem s.mem) : AnswersCanon (execCollectiveComplete prov ord s) := by
  unfold execCollectiveComplete
  dsimp only
  (repeat' split) <;> simp [hs]

@[simp] theorem State.commitPoison_mem (s : State) (p addr : Nat) : (s.commitPoison p addr).mem = s.mem := by
  unfold State.commitPoison
  simp

@[simp] theorem State.commitRecs_canonMem (s : State) (p n i : Nat) (hs : CanonMem s.mem) : CanonMem (s.commitRecs p n i).mem := by
  induction n generalizing s i with
  | zero => exact hs
  | succ n ih =>
    unfold State.commitRecs
    dsimp only
    split
    · exact hs
    · split
      · simp [hs]
      · split
        · simp [hs]
        · exact ih _ _ (by simp [hs])

@[simp] theorem State.sumSat_mem (s : State) (p : Nat) : (s.sumSat p).mem = s.mem := by
  unfold State.sumSat
  dsimp only
  split <;> simp

@[simp] theorem execLedgerCommit_answersCanon (prov : Nat) (s : State) (hs : CanonMem s.mem) : AnswersCanon (execLedgerCommit prov s) := by
  unfold execLedgerCommit
  simp [hs]

@[simp] theorem State.commitStep_mem (s : State) (p : Nat) : (s.commitStep p).mem = s.mem := by
  unfold State.commitStep
  simp

@[simp] theorem execStepCommitted_answersCanon (prov : Nat) (s : State) (hs : CanonMem s.mem) : AnswersCanon (execStepCommitted prov s) := by
  unfold execStepCommitted
  simp [hs]

@[simp] theorem State.stopTile_mem (s : State) (tile : Nat) : (s.stopTile tile).mem = s.mem := by
  unfold State.stopTile
  simp

@[simp] theorem State.logMisdeal_canonMem (s : State) (p die : Nat) (b : List Byte) (hs : CanonMem s.mem) : CanonMem (s.logMisdeal p die b).mem := by
  unfold State.logMisdeal
  simp [hs]

@[simp] theorem State.lagUp_mem (s : State) (p : Nat) : (s.lagUp p).mem = s.mem := by
  unfold State.lagUp
  simp

@[simp] theorem State.misdealCheck_canonMem (s : State) (p held : Nat) (hs : CanonMem s.mem) : CanonMem (s.misdealCheck p held).mem := by
  unfold State.misdealCheck
  extract_lets +onlyGivenNames pr bad
  split
  · simp [hs]
  · extract_lets +onlyGivenNames ended marks s1 lag s2 s3 long s4
    have h1 : CanonMem s1.mem := by simp [s1, hs]
    have h2 : CanonMem s2.mem := canonMem_foldl h1 fun b m hb => by simp [hb]
    have h3 : s3.mem = s2.mem := mem_foldl _ _ _ fun b i => by split <;> simp
    have h4 : s4.mem = s3.mem := by simp [s4]
    rw [State.setProv_mem, h4, h3]
    exact h2

@[simp] theorem State.holdFrame_canonMem (s : State) (p k cause left : Nat) (hs : CanonMem s.mem) : CanonMem (s.holdFrame p k cause left).mem := by
  unfold State.holdFrame
  exact canonMem_foldl (by simp [hs]) fun b x hb => by simp [hb]

@[simp] theorem State.stepTurn_mem (s : State) (p k : Nat) : (s.stepTurn p k).mem = s.mem := by
  unfold State.stepTurn
  simp

@[simp] theorem State.lastDealt_mem (s : State) (p k : Nat) : (s.lastDealt p k).mem = s.mem := by
  unfold State.lastDealt
  simp

@[simp] theorem State.dueColls_mem (s : State) (p k : Nat) : (s.dueColls p k).mem = s.mem := by
  unfold State.dueColls
  simp

@[simp] theorem State.dealFrame_mem (s : State) (p k left : Nat) (empty : Bool) : (s.dealFrame p k left empty).mem = s.mem := by
  unfold State.dealFrame
  simp

@[simp] theorem State.offer_canonMem (s : State) (p left n : Nat) (hs : CanonMem s.mem) : CanonMem (s.offer p left n).mem := by
  induction n generalizing s with
  | zero => exact hs
  | succ n ih =>
    unfold State.offer
    dsimp only
    split
    · simp [hs]
    · split
      · exact ih _ (by simp [hs])
      · split <;> simp [hs]

@[simp] theorem State.redeal_mem (s : State) (p left : Nat) : (s.redeal p left).mem = s.mem := by
  unfold State.redeal
  simp

@[simp] theorem State.recall_mem (s : State) (p : Nat) : (s.recall p).mem = s.mem := by
  unfold State.recall
  dsimp only
  rw [State.setProv_mem]
  exact mem_foldl _ _ _ fun b i => by split <;> simp

@[simp] theorem execMisdealSummaryExchange_answersCanon (prov : Nat) (s : State) (hs : CanonMem s.mem) : AnswersCanon (execMisdealSummaryExchange prov s) := by
  unfold execMisdealSummaryExchange
  simp [hs]

@[simp] theorem State.completeTrick_mem (s : State) (tile : Nat) (c : TrickCtx) : (s.completeTrick tile c).mem = s.mem := by
  unfold State.completeTrick
  simp

@[simp] theorem execTrickComplete_answersCanon (tile left : Nat) (s : State) (hs : CanonMem s.mem) : AnswersCanon (execTrickComplete tile left s) := by
  unfold execTrickComplete
  dsimp only
  split <;> simp [hs]

@[simp] theorem execProgramLoad_answersCanon (tile left : Nat) (s : State) (hs : CanonMem s.mem) : AnswersCanon (execProgramLoad tile left s) := by
  unfold execProgramLoad
  dsimp only
  (repeat' split) <;> simp [hs]

@[simp] theorem execAtlasFrameFetch_answersCanon (die prov : Nat) (host : List (Nat × Byte)) (s : State) (hs : CanonMem s.mem) :
    AnswersCanon (execAtlasFrameFetch die prov host s) := by
  unfold execAtlasFrameFetch
  simp [hs]

@[simp] theorem State.discardWork_mem (s : State) (p : Nat) : (s.discardWork p).mem = s.mem := by
  unfold State.discardWork
  simp

@[simp] theorem State.fillTalons_mem (s : State) (p : Nat) : (s.fillTalons p).mem = s.mem := by
  unfold State.fillTalons
  exact mem_foldl _ _ _ fun b i => by split <;> simp

/-! ### Memory controllers, hosts, power, errors and the Survey -/

@[simp] theorem State.countBurst_mem (s : State) (word cls n : Nat) : (s.countBurst word cls n).mem = s.mem := by
  unfold State.countBurst
  simp

@[simp] theorem State.eccCorrected_mem (s : State) (word bit : Nat) : (s.eccCorrected word bit).mem = s.mem := by
  unfold State.eccCorrected
  simp

@[simp] theorem State.poison64_canonMem (s : State) (word : Nat) (hs : CanonMem s.mem) : CanonMem (s.poison64 word).mem := by
  unfold State.poison64
  simp [hs]

@[simp] theorem State.consumePoison_mem (s : State) (word cls : Nat) : (s.consumePoison word cls).mem = s.mem := by
  unfold State.consumePoison
  dsimp only
  (repeat' split) <;> simp

@[simp] theorem State.deliverWord_mem (s : State) (word cls parity : Nat) : (s.deliverWord word cls parity).mem = s.mem := by
  unfold State.deliverWord
  simp

@[simp] theorem execMemoryRead_answersCanon (burst : Burst) (cls : Nat) (found : EccRead) (parity : Nat) (s : State) (hs : CanonMem s.mem) :
    AnswersCanon (execMemoryRead burst cls found parity s) := by
  unfold execMemoryRead
  dsimp only
  (repeat' split) <;> simp [hs]

@[simp] theorem execEccRetryRead_answersCanon (burst : Burst) (found : EccRead) (parity : Nat) (s : State) (hs : CanonMem s.mem) :
    AnswersCanon (execEccRetryRead burst found parity s) := by
  unfold execEccRetryRead
  dsimp only
  (repeat' split) <;> simp [hs]

@[simp] theorem execMemoryWrite_answersCanon (burst : Burst) (cls : Nat) (cells : List (Nat × Byte)) (parityBad : Bool) (s : State) (hs : CanonMem s.mem) :
    AnswersCanon (execMemoryWrite burst cls cells parityBad s) := by
  unfold execMemoryWrite
  simp [hs]

@[simp] theorem execWriteParityRetry_answersCanon (burst : Burst) (parityBad : Bool) (s : State) (hs : CanonMem s.mem) :
    AnswersCanon (execWriteParityRetry burst parityBad s) := by
  unfold execWriteParityRetry
  dsimp only
  split <;> simp [hs]

@[simp] theorem execPageWalk_answersCanon (die prov va : Nat) (tableBad : Bool) (s : State) (hs : CanonMem s.mem) :
    AnswersCanon (execPageWalk die prov va tableBad s) := by
  unfold execPageWalk
  dsimp only
  (repeat' split) <;> simp [hs]

@[simp] theorem execRefresh_answersCanon (chan taken : Nat) (s : State) (hs : CanonMem s.mem) : AnswersCanon (execRefresh chan taken s) := by
  unfold execRefresh
  simp [hs]

@[simp] theorem execPatrolScrub_answersCanon (chan : Nat) (found : EccRead) (s : State) (hs : CanonMem s.mem) : AnswersCanon (execPatrolScrub chan found s) := by
  unfold execPatrolScrub
  dsimp only
  (repeat' split) <;> simp [hs]

@[simp] theorem execChannelScrubDone_answersCanon (chan : Nat) (badGranules : List Nat) (s : State) (hs : CanonMem s.mem) :
    AnswersCanon (execChannelScrubDone chan badGranules s) := by
  unfold execChannelScrubDone
  simp [hs]

@[simp] theorem execRowRepairDone_answersCanon (granule : Nat) (s : State) (hs : CanonMem s.mem) : AnswersCanon (execRowRepairDone granule s) := by
  unfold execRowRepairDone
  dsimp only
  split <;> simp [hs]

@[simp] theorem answersCanon_onFn (fn : Nat) (r : Res) : AnswersCanon (onFn fn r) ↔ (fn < 256 → AnswersCanon r) := by
  unfold onFn; split <;> simp [*]

@[simp] theorem State.handErr_mem (s : State) (k e : Nat) : (s.handErr k e).mem = s.mem := by
  unfold State.handErr
  simp

@[simp] theorem execHandOpen_answersCanon (fn hand : Nat) (s : State) (hs : CanonMem s.mem) : AnswersCanon (execHandOpen fn hand s) := by
  unfold execHandOpen
  dsimp only
  split <;> simp [hs]

@[simp] theorem execHandClose_answersCanon (fn hand : Nat) (s : State) (hs : CanonMem s.mem) : AnswersCanon (execHandClose fn hand s) := by
  unfold execHandClose
  dsimp only
  split <;> simp [hs]

@[simp] theorem State.ring_mem (s : State) (k value : Nat) : (s.ring k value).mem = s.mem := by
  unfold State.ring
  simp

@[simp] theorem execDoorbell_answersCanon (fn hand value : Nat) (s : State) (hs : CanonMem s.mem) : AnswersCanon (execDoorbell fn hand value s) := by
  unfold execDoorbell
  dsimp only
  split <;> simp [hs]

@[simp] theorem State.takeEntries_mem (s : State) (k : Nat) (l : List (List Byte × Bool)) (n : Nat) : (s.takeEntries k l n).mem = s.mem := by
  induction l generalizing s n with
  | nil => rfl
  | cons e l ih =>
    unfold State.takeEntries
    dsimp only
    split
    · rfl
    · split
      · simp
      · split
        · simp
        · rw [ih]; simp

@[simp] theorem execDescriptorFetchReturn_answersCanon (fn hand : Nat) (entries : List (List Byte × Bool)) (s : State) (hs : CanonMem s.mem) :
    AnswersCanon (execDescriptorFetchReturn fn hand entries s) := by
  unfold execDescriptorFetchReturn
  simp
  (repeat' split) <;> simp [hs]

@[simp] theorem execDescriptorRefetch_answersCanon (fn hand : Nat) (s : State) (hs : CanonMem s.mem) : AnswersCanon (execDescriptorRefetch fn hand s) := by
  unfold execDescriptorRefetch
  dsimp only
  (repeat' split) <;> simp [hs]

@[simp] theorem execWrite_answersCanon (fn hand seq : Nat) (host : List (Nat × Byte)) (stop : Option (Nat × Nat)) (s : State) (hs : CanonMem s.mem) :
    AnswersCanon (execWrite fn hand seq host stop s) := by
  unfold execWrite
  dsimp only
  (repeat' split) <;> simp [hs]

@[simp] theorem State.sendData_mem (s : State) (k : Nat) (c : HandCmd) (bs : List Byte) : (s.sendData k c bs).mem = s.mem := by
  unfold State.sendData
  simp

@[simp] theorem execRead_answersCanon (fn hand seq : Nat) (s : State) (hs : CanonMem s.mem) : AnswersCanon (execRead fn hand seq s) := by
  unfold execRead
  dsimp only
  split <;> simp [hs]

@[simp] theorem execWaitStep_answersCanon (fn hand seq : Nat) (s : State) (hs : CanonMem s.mem) : AnswersCanon (execWaitStep fn hand seq s) := by
  unfold execWaitStep
  simp
  (repeat' split) <;> simp [hs]

@[simp] theorem execManifest_answersCanon (fn hand seq : Nat) (host : List (Nat × Byte)) (authOk : Bool) (s : State) (hs : CanonMem s.mem) :
    AnswersCanon (execManifest fn hand seq host authOk s) := by
  unfold execManifest
  dsimp only
  split <;> simp [hs]

@[simp] theorem State.coldLedger_canonMem (s : State) (p : Nat) (hs : CanonMem s.mem) : CanonMem (s.coldLedger p).mem := by
  unfold State.coldLedger
  dsimp only
  split
  · exact hs
  · exact canonMem_foldl hs fun b i hb => by simp [hb]

@[simp] theorem State.mapAtlas_canonMem (s : State) (p : Nat) (img : List Byte) (hs : CanonMem s.mem) : CanonMem (s.mapAtlas p img).mem := by
  unfold State.mapAtlas
  simp [hs]

@[simp] theorem State.loaded_canonMem (s : State) (p f addr seed : Nat) (hs : CanonMem s.mem) : CanonMem (s.loaded p f addr seed).mem := by
  unfold State.loaded
  extract_lets +onlyGivenNames g pr s1 s2 s3 s4 s5 s6 s7
  have h3 : s3.mem = s.mem := by
    rw [show s3.mem = s2.mem from mem_foldl _ _ _ fun b r => by simp]
    simp [s2, s1]
  have h5 : s5.mem = s.mem := by
    rw [show s5.mem = s4.mem from mem_foldl _ _ _ fun b r => by simp]
    simp [s4, h3]
  have h7 : s7.mem = s.mem := by
    rw [show s7.mem = s6.mem from mem_foldl _ _ _ fun b t => by simp]
    simp [s6, h5]
  clear_value s7
  simp [h7, hs]

@[simp] theorem execLoadAtlas_answersCanon (fn hand seq : Nat) (host : List (Nat × Byte)) (authOk : Bool) (s : State) (hs : CanonMem s.mem) :
    AnswersCanon (execLoadAtlas fn hand seq host authOk s) := by
  unfold execLoadAtlas
  dsimp only
  split <;> simp [hs]

@[simp] theorem State.ledgerCheck_canonMem (s : State) (p : Nat) (hs : CanonMem s.mem) : CanonMem (s.ledgerCheck p).mem := by
  unfold State.ledgerCheck
  dsimp only
  split
  · simp [hs]
  · refine canonMem_foldl (by simp [hs]) fun b i hb => ?_
    split <;> simp [hb]

@[simp] theorem execStart_answersCanon (fn hand seq : Nat) (s : State) (hs : CanonMem s.mem) : AnswersCanon (execStart fn hand seq s) := by
  unfold execStart
  dsimp only
  split <;> simp [hs]

@[simp] theorem State.confirmHand_mem (s : State) (fn : Nat) (e : Nat × Hand) : (s.confirmHand fn e).mem = s.mem := by
  unfold State.confirmHand
  simp

@[simp] theorem State.confirmChains_mem (s : State) (fn : Nat) : (s.confirmChains fn).mem = s.mem := by
  unfold State.confirmChains
  simp

@[simp] theorem execHostWriteConfirm_answersCanon (fn : Nat) (s : State) (hs : CanonMem s.mem) : AnswersCanon (execHostWriteConfirm fn s) := by
  unfold execHostWriteConfirm
  simp [hs]

@[simp] theorem execHostRequestFailed_answersCanon (fn : Nat) (what : HostReq) (s : State) (hs : CanonMem s.mem) : AnswersCanon (execHostRequestFailed fn what s) := by
  unfold execHostRequestFailed
  dsimp only
  (repeat' split) <;> simp [hs]

@[simp] theorem execInsetRead_answersCanon (fn off n : Nat) (s : State) (hs : CanonMem s.mem) : AnswersCanon (execInsetRead fn off n s) := by
  unfold execInsetRead
  dsimp only
  (repeat' split) <;> simp [hs]

@[simp] theorem execInsetWrite_answersCanon (fn off : Nat) (bytes : List Byte) (s : State) (hs : CanonMem s.mem) : AnswersCanon (execInsetWrite fn off bytes s) := by
  unfold execInsetWrite
  simp [hs]
  (repeat' split) <;> simp [hs]

@[simp] theorem execHifInsetBaseWrite_answersCanon (fn value : Nat) (s : State) (hs : CanonMem s.mem) : AnswersCanon (execHifInsetBaseWrite fn value s) := by
  unfold execHifInsetBaseWrite
  simp [hs]

@[simp] theorem execHifSrvPageWrite_answersCanon (fn value : Nat) (s : State) (hs : CanonMem s.mem) : AnswersCanon (execHifSrvPageWrite fn value s) := by
  unfold execHifSrvPageWrite
  simp [hs]

@[simp] theorem State.resumeChains_mem (s : State) (f : Nat) : (s.resumeChains f).mem = s.mem := by
  unfold State.resumeChains
  exact mem_foldl _ _ _ fun b x => by (repeat' split) <;> simp

@[simp] theorem execBusMasterEnableWrite_answersCanon (fn : Nat) (on : Bool) (s : State) (hs : CanonMem s.mem) : AnswersCanon (execBusMasterEnableWrite fn on s) := by
  unfold execBusMasterEnableWrite
  simp [hs]

@[simp] theorem State.reattachAll_mem (s : State) : s.reattachAll.mem = s.mem := by
  unfold State.reattachAll
  simp

@[simp] theorem execPcieLinkTrained_answersCanon (rate width : Nat) (s : State) (hs : CanonMem s.mem) : AnswersCanon (execPcieLinkTrained rate width s) := by
  unfold execPcieLinkTrained
  simp [hs]

@[simp] theorem State.linkGone_mem (s : State) : s.linkGone.mem = s.mem := by
  unfold State.linkGone
  simp

@[simp] theorem State.detachAll_mem (s : State) (cause : Nat) : (s.detachAll cause).mem = s.mem := by
  unfold State.detachAll
  simp

@[simp] theorem execPerstNAssert_answersCanon (s : State) (hs : CanonMem s.mem) : AnswersCanon (execPerstNAssert s) := by
  unfold execPerstNAssert
  simp [hs]

@[simp] theorem execPerstNRelease_answersCanon (s : State) (hs : CanonMem s.mem) : AnswersCanon (execPerstNRelease s) := by
  unfold execPerstNRelease
  simp [hs]

@[simp] theorem execDlDown_answersCanon (s : State) (hs : CanonMem s.mem) : AnswersCanon (execDlDown s) := by
  unfold execDlDown
  simp [hs]

@[simp] theorem execHotReset_answersCanon (s : State) (hs : CanonMem s.mem) : AnswersCanon (execHotReset s) := by
  unfold execHotReset
  simp [hs]

@[simp] theorem execFlr_answersCanon (fn : Nat) (s : State) (hs : CanonMem s.mem) : AnswersCanon (execFlr fn s) := by
  unfold execFlr
  simp [hs]

@[simp] theorem execFlrComplete_answersCanon (fn : Nat) (s : State) (hs : CanonMem s.mem) : AnswersCanon (execFlrComplete fn s) := by
  unfold execFlrComplete
  simp [hs]

@[simp] theorem State.resumeHand_mem (s : State) (k : Nat) : (s.resumeHand k).mem = s.mem := by
  unfold State.resumeHand
  extract_lets +onlyGivenNames x wr cs s1 s2
  have h : s2.mem = s1.mem := mem_foldl _ _ _ fun b c => by split <;> simp
  clear_value s2
  split <;> simp [h, s1]

@[simp] theorem State.dropStart_mem (s : State) (k : Nat) : (s.dropStart k).mem = s.mem := by
  unfold State.dropStart
  dsimp only
  split <;> simp

@[simp] theorem State.lateStart_mem (s : State) (k : Nat) : (s.lateStart k).mem = s.mem := by
  unfold State.lateStart
  split
  · split <;> simp
  · rfl

@[simp] theorem execResume_answersCanon (fn : Nat) (s : State) (hs : CanonMem s.mem) : AnswersCanon (execResume fn s) := by
  unfold execResume
  simp [hs]

@[simp] theorem State.discardFn_mem (s : State) (f : Nat) : (s.discardFn f).mem = s.mem := by
  generalize hx : s.discardFn f = x
  unfold State.discardFn at hx
  extract_lets +onlyGivenNames s1 at hx
  have h : s1.mem = s.mem := mem_foldl _ _ _ fun b k => by simp
  clear_value s1
  rw [← hx, State.resubmitAll_mem, ← h]
  refine mem_foldl _ _ _ fun b x => ?_
  (repeat' split)
  · rw [State.sameMem_iff, State.raiseSev_mem]
    simp
  · simp
  · simp

@[simp] theorem execDiscard_answersCanon (fn : Nat) (s : State) (hs : CanonMem s.mem) : AnswersCanon (execDiscard fn s) := by
  unfold execDiscard
  simp [hs]

@[simp] theorem execHostLostTimer_answersCanon (fn : Nat) (s : State) (hs : CanonMem s.mem) : AnswersCanon (execHostLostTimer fn s) := by
  unfold execHostLostTimer
  simp [hs]

@[simp] theorem State.dropClock_mem (s : State) (mhz lim : Nat) : (s.dropClock mhz lim).mem = s.mem := by
  unfold State.dropClock
  simp

@[simp] theorem State.avsWrite_mem (s : State) (mv : Nat) : (s.avsWrite mv).mem = s.mem := by
  unfold State.avsWrite
  simp

@[simp] theorem State.setClock_mem (s : State) : s.setClock.mem = s.mem := by
  unfold State.setClock
  dsimp only
  split <;> simp

@[simp] theorem execCappingEvaluation_answersCanon (corr : Int) (s : State) (hs : CanonMem s.mem) : AnswersCanon (execCappingEvaluation corr s) := by
  unfold execCappingEvaluation
  dsimp only
  split <;> simp [hs]

@[simp] theorem execAvsAck_answersCanon (s : State) (hs : CanonMem s.mem) : AnswersCanon (execAvsAck s) := by
  unfold execAvsAck
  dsimp only
  (repeat' split) <;> simp [hs]

@[simp] theorem execAvsAckTimeout_answersCanon (s : State) (hs : CanonMem s.mem) : AnswersCanon (execAvsAckTimeout s) := by
  unfold execAvsAckTimeout
  simp [hs]

@[simp] theorem execFastLimiter_answersCanon (amps : Nat) (s : State) (hs : CanonMem s.mem) : AnswersCanon (execFastLimiter amps s) := by
  unfold execFastLimiter
  simp [hs]

@[simp] theorem execFastLimiterRelease_answersCanon (s : State) (hs : CanonMem s.mem) : AnswersCanon (execFastLimiterRelease s) := by
  unfold execFastLimiterRelease
  simp [hs]

@[simp] theorem execJunctionSensorRead_answersCanon (reads : List (List (Option Int))) (s : State) (hs : CanonMem s.mem) :
    AnswersCanon (execJunctionSensorRead reads s) := by
  unfold execJunctionSensorRead
  dsimp only
  (repeat' split) <;> simp [hs]

@[simp] theorem execStackTemperatureRead_answersCanon (stack : Nat) (t : Option Int) (s : State) (hs : CanonMem s.mem) :
    AnswersCanon (execStackTemperatureRead stack t s) := by
  unfold execStackTemperatureRead
  simp [hs]

@[simp] theorem execThermalTrip_answersCanon (stack : Option Nat) (s : State) (hs : CanonMem s.mem) : AnswersCanon (execThermalTrip stack s) := by
  unfold execThermalTrip
  dsimp only
  (repeat' split) <;> simp [hs]

@[simp] theorem execInletSensorRead_answersCanon (word : Option Nat) (s : State) (hs : CanonMem s.mem) : AnswersCanon (execInletSensorRead word s) := by
  unfold execInletSensorRead
  dsimp only
  (repeat' split) <;> simp [hs]

@[simp] theorem execPmbusRead_answersCanon (pout : List Nat) (s : State) (hs : CanonMem s.mem) : AnswersCanon (execPmbusRead pout s) := by
  unfold execPmbusRead
  simp [hs]

@[simp] theorem execPmbAlert_answersCanon (words : List Nat) (s : State) (hs : CanonMem s.mem) : AnswersCanon (execPmbAlert words s) := by
  unfold execPmbAlert
  simp [hs]

@[simp] theorem State.throttleOn_mem (s : State) : s.throttleOn.mem = s.mem := by
  unfold State.throttleOn
  simp

@[simp] theorem State.throttleOff_mem (s : State) : s.throttleOff.mem = s.mem := by
  unfold State.throttleOff
  simp

@[simp] theorem execThrottleNFall_answersCanon (s : State) (hs : CanonMem s.mem) : AnswersCanon (execThrottleNFall s) := by
  unfold execThrottleNFall
  simp [hs]

@[simp] theorem execThrottleNRise_answersCanon (s : State) (hs : CanonMem s.mem) : AnswersCanon (execThrottleNRise s) := by
  unfold execThrottleNRise
  simp [hs]

@[simp] theorem execThrottleQualified_answersCanon (s : State) (hs : CanonMem s.mem) : AnswersCanon (execThrottleQualified s) := by
  unfold execThrottleQualified
  simp [hs]

@[simp] theorem execThrottleHeld_answersCanon (s : State) (hs : CanonMem s.mem) : AnswersCanon (execThrottleHeld s) := by
  unfold execThrottleHeld
  simp [hs]

@[simp] theorem execThrottleToggle.rec_mem (t : State) : (execThrottleToggle.rec_ t).mem = t.mem := by
  unfold execThrottleToggle.rec_; simp

@[simp] theorem execThrottleToggle_answersCanon (s : State) (hs : CanonMem s.mem) : AnswersCanon (execThrottleToggle s) := by
  unfold execThrottleToggle
  dsimp only
  split
  · simp [hs]
  · split <;> simp [hs]

@[simp] theorem execThrottleToggleEnd_answersCanon (s : State) (hs : CanonMem s.mem) : AnswersCanon (execThrottleToggleEnd s) := by
  unfold execThrottleToggleEnd
  simp [hs]

@[simp] theorem State.actFld_mem (s : State) (u : Nat) (f : Fld) (lo hi v : Nat) : (s.actFld u f lo hi v).mem = s.mem := by
  unfold State.actFld
  simp

@[simp] theorem State.act_mem (s : State) (u : Nat) (a arg : Nat) : (s.act u a arg).mem = s.mem := by
  unfold State.act
  dsimp only
  split <;> simp

@[simp] theorem State.machStep_mem (s : State) (img : List Byte) (u : Nat) (util : List Nat) (corr : Nat) (restart : Bool) :
    (s.machStep img u util corr restart).mem = s.mem := by
  unfold State.machStep
  dsimp only
  (repeat' split) <;> simp

@[simp] theorem execItineraryEvaluation_answersCanon (util : List Nat) (corr : Nat) (s : State) (hs : CanonMem s.mem) :
    AnswersCanon (execItineraryEvaluation util corr s) := by
  unfold execItineraryEvaluation
  dsimp only
  split <;> simp [hs]

@[simp] theorem execErrorRecordArrive_answersCanon (r : ErrIn) (s : State) (hs : CanonMem s.mem) : AnswersCanon (execErrorRecordArrive r s) := by
  unfold execErrorRecordArrive
  simp [hs]

@[simp] theorem execFatal_answersCanon (cause die : Nat) (s : State) (hs : CanonMem s.mem) : AnswersCanon (execFatal cause die s) := by
  unfold execFatal
  simp [hs]

@[simp] theorem execRecordsLost_answersCanon (s : State) (hs : CanonMem s.mem) : AnswersCanon (execRecordsLost s) := by
  unfold execRecordsLost
  simp [hs]

@[simp] theorem execAlertPulseEnd_answersCanon (s : State) (hs : CanonMem s.mem) : AnswersCanon (execAlertPulseEnd s) := by
  unfold execAlertPulseEnd
  simp [hs]

@[simp] theorem State.retireUnit_mem (s : State) (tile : Nat) : (s.retireUnit tile).mem = s.mem := by
  unfold State.retireUnit
  dsimp only
  split <;> simp

@[simp] theorem State.tileLasting_mem (s : State) (tile : Nat) : (s.tileLasting tile).mem = s.mem := by
  unfold State.tileLasting
  simp

@[simp] theorem State.sramLasting_mem (s : State) (tile : Nat) (prog : Bool) (addr bit march : Nat) : (s.sramLasting tile prog addr bit march).mem = s.mem := by
  unfold State.sramLasting
  simp

@[simp] theorem State.winTimes_mem (s : State) (k : WinKind) (unit limit window n : Nat) : (s.winTimes k unit limit window n).1.mem = s.mem := by
  unfold State.winTimes
  exact foldl_keeps (P := fun x : State × Bool => x.1.mem = s.mem) _ _ _ rfl fun b _ hb => by simp [hb]

@[simp] theorem State.judge_canonMem (s : State) (r : ErrRec) (march : Nat) (hs : CanonMem s.mem) : CanonMem (s.judge r march).1.mem := by
  unfold State.judge
  simp [hs]

@[simp] theorem execErrorRecordHandle_answersCanon (march : Nat) (s : State) (hs : CanonMem s.mem) : AnswersCanon (execErrorRecordHandle march s) := by
  unfold execErrorRecordHandle
  dsimp only
  (repeat' split) <;> simp [hs]

@[simp] theorem State.copyLost_mem (s : State) (tile : Nat) (words : List Nat) : (s.copyLost tile words).mem = s.mem := by
  unfold State.copyLost
  simp

@[simp] theorem State.copyTile_mem (s : State) (src dst : Nat) : (s.copyTile src dst).mem = s.mem := by
  unfold State.copyTile
  simp

@[simp] theorem execTileMoveDone_answersCanon (tile : Nat) (s : State) (hs : CanonMem s.mem) : AnswersCanon (execTileMoveDone tile s) := by
  unfold execTileMoveDone
  rw [answersCanon_onTile]
  intro _
  split
  · exact hs
  · extract_lets base f s1 s2
    have h1 : s1.mem = s.mem := mem_foldl _ _ _ fun b i => by simp
    simp [s2, h1, hs]

@[simp] theorem execReleaseTestDone_answersCanon (die n : Nat) (spare : Bool) (found : List ErrIn) (s : State) (hs : CanonMem s.mem) :
    AnswersCanon (execReleaseTestDone die n spare found s) := by
  unfold execReleaseTestDone
  dsimp only
  (repeat' split) <;> simp [hs]

@[simp] theorem State.setMoving_mem (s : State) (tile v : Nat) : (s.setMoving tile v).mem = s.mem := by
  unfold State.setMoving
  simp

@[simp] theorem State.repairBoundary_mem (s : State) : s.repairBoundary.mem = s.mem := by
  unfold State.repairBoundary
  extract_lets +onlyGivenNames s1
  have h : s1.mem = s.mem := mem_foldl _ _ _ fun b f => by (repeat' split) <;> simp
  rw [mem_foldl _ _ _ fun b m => ?_, h]
  split
  · simp
  · split <;> simp
  · simp

@[simp] theorem execDebugDeal_answersCanon (tile trick : Nat) (s : State) (hs : CanonMem s.mem) : AnswersCanon (execDebugDeal tile trick s) := by
  unfold execDebugDeal
  dsimp only
  split <;> simp [hs]

@[simp] theorem execSrvCfgWrite_answersCanon (who : Master) (addr value : Nat) (s : State) (hs : CanonMem s.mem) : AnswersCanon (execSrvCfgWrite who addr value s) := by
  unfold execSrvCfgWrite
  dsimp only
  split <;> simp [hs]

@[simp] theorem execSrvSnap_answersCanon (who : Master) (addr value : Nat) (s : State) (hs : CanonMem s.mem) : AnswersCanon (execSrvSnap who addr value s) := by
  unfold execSrvSnap
  dsimp only
  split <;> simp [hs]

@[simp] theorem execProvSrvSnap_answersCanon (who : Master) (addr value : Nat) (s : State) (hs : CanonMem s.mem) : AnswersCanon (execProvSrvSnap who addr value s) := by
  unfold execProvSrvSnap
  dsimp only
  split <;> simp [hs]

@[simp] theorem State.provSnap_mem (s : State) (p : Nat) : (s.provSnap p).mem = s.mem := by
  unfold State.provSnap
  simp

@[simp] theorem execCounterHalfRange_answersCanon (unit ctr : Nat) (s : State) (hs : CanonMem s.mem) : AnswersCanon (execCounterHalfRange unit ctr s) := by
  unfold execCounterHalfRange
  simp [hs]

@[simp] theorem execSkidSample_answersCanon (tile : Nat) (seat : Option Nat) (skid : Nat) (s : State) (hs : CanonMem s.mem) :
    AnswersCanon (execSkidSample tile seat skid s) := by
  unfold execSkidSample
  simp [hs]

@[simp] theorem State.ringPut_canonMem (s : State) (p : Nat) (r : List Byte) (hs : CanonMem s.mem) : CanonMem (s.ringPut p r).mem := by
  unfold State.ringPut
  simp [hs]

@[simp] theorem execSampleRingMove_answersCanon (die : Nat) (s : State) (hs : CanonMem s.mem) : AnswersCanon (execSampleRingMove die s) := by
  unfold execSampleRingMove
  split
  · simp
  · rw [answersCanon_next]
    generalize List.range 528 = l
    refine foldl_keeps (P := fun x : State × Nat => x.1.memWf = true) _ l _ hs fun b i hb => ?_
    dsimp only
    split
    · exact hb
    · exact canonMem_foldl (by simpa using hb) fun b r hb => by simp [hb]

@[simp] theorem execSrvTagEnable_answersCanon (who : Master) (addr value : Nat) (s : State) (hs : CanonMem s.mem) : AnswersCanon (execSrvTagEnable who addr value s) := by
  unfold execSrvTagEnable
  dsimp only
  split <;> simp [hs]

/-! ### Boot, provinces, boundaries, Ndeyx, the steward and the vector engine -/

@[simp] theorem State.dropTag_mem (s : State) (tile : Nat) : (s.dropTag tile).mem = s.mem := by
  unfold State.dropTag
  simp

@[simp] theorem execTagRecordDone_answersCanon (tile : Nat) (complete : Bool) (s : State) (hs : CanonMem s.mem) : AnswersCanon (execTagRecordDone tile complete s) := by
  unfold execTagRecordDone
  rw [answersCanon_onTile]
  intro _
  dsimp only
  split <;> simp [hs]

@[simp] theorem State.setBoot_mem (s : State) (n : Nat) : (s.setBoot n).mem = s.mem := by
  unfold State.setBoot
  simp

@[simp] theorem State.showLife_mem (s : State) : s.showLife.mem = s.mem := by
  unfold State.showLife
  simp

@[simp] theorem State.saveWins_mem (s : State) : s.saveWins.mem = s.mem := by
  unfold State.saveWins
  simp

@[simp] theorem State.readLogs_mem (s : State) (c : Cartridge) : (s.readLogs c).mem = s.mem := by
  unfold State.readLogs
  simp

@[simp] theorem State.applyRepair_mem (s : State) (r : Repair) : (s.applyRepair r).mem = s.mem := by
  cases r with
  | spare => rfl
  | col row f => exact State.setFld_mem ..
  | lane => rfl

@[simp] theorem State.applyRepairs_mem (s : State) : s.applyRepairs.mem = s.mem := by
  unfold State.applyRepairs
  extract_lets +onlyGivenNames m soft s1 hard rows s2
  have h1 : s1.mem = s.mem := mem_foldl _ _ _ fun b r => by simp
  rw [mem_foldl _ _ _ fun b e => by simp]
  exact h1

@[simp] theorem State.blowRepairs_mem (s : State) : s.blowRepairs.mem = s.mem := by
  unfold State.blowRepairs
  simp

@[simp] theorem State.hardenRows_mem (s : State) : s.hardenRows.mem = s.mem := by
  unfold State.hardenRows
  simp

@[simp] theorem State.bistRec_mem (s : State) (r : ErrIn) : (s.bistRec r).mem = s.mem := by
  unfold State.bistRec
  simp

@[simp] theorem State.fullPass_mem (s : State) (found : List ErrIn) : (s.fullPass found).mem = s.mem := by
  unfold State.fullPass
  simp

@[simp] theorem State.cleared_mem (s : State) : s.cleared.mem = [] := rfl

@[simp] theorem State.deviceReset_canonMem (s : State) : CanonMem s.deviceReset.mem := by
  unfold State.deviceReset
  simp

@[simp] theorem execDevResetNAssert_answersCanon (s : State) : AnswersCanon (execDevResetNAssert s) := by
  unfold execDevResetNAssert
  simp

@[simp] theorem State.leaveReset_canonMem (s : State) : CanonMem s.leaveReset.mem := by
  unfold State.leaveReset
  simp

@[simp] theorem execDevResetNRelease_answersCanon (s : State) (hs : CanonMem s.mem) : AnswersCanon (execDevResetNRelease s) := by
  unfold execDevResetNRelease
  simp [hs]

@[simp] theorem execRailUndervoltage_answersCanon (rail : Nat) (s : State) : AnswersCanon (execRailUndervoltage rail s) := by
  unfold execRailUndervoltage
  simp

@[simp] theorem execRailRecovered_answersCanon (s : State) (hs : CanonMem s.mem) : AnswersCanon (execRailRecovered s) := by
  unfold execRailRecovered
  simp [hs]

@[simp] theorem State.showClk_mem (s : State) (clk : Nat) : (s.showClk clk).mem = s.mem := by
  unfold State.showClk
  dsimp only
  split <;> simp

@[simp] theorem execRefclkLost_answersCanon (clk : Nat) (s : State) (hs : CanonMem s.mem) : AnswersCanon (execRefclkLost clk s) := by
  unfold execRefclkLost
  dsimp only
  (repeat' split) <;> simp [hs]

@[simp] theorem execRefclkReturn_answersCanon (clk : Nat) (s : State) (hs : CanonMem s.mem) : AnswersCanon (execRefclkReturn clk s) := by
  unfold execRefclkReturn
  simp [hs]

@[simp] theorem execRomStage_answersCanon (test : Option FwImage) (s : State) (hs : CanonMem s.mem) : AnswersCanon (execRomStage test s) := by
  unfold execRomStage
  dsimp only
  (repeat' split) <;> simp [hs]

@[simp] theorem State.mgmtAddrs_mem (s : State) (f : Option Fabric) : (s.mgmtAddrs f).mem = s.mem := by
  unfold State.mgmtAddrs
  simp

@[simp] theorem State.bootFail_mem (s : State) : s.bootFail.mem = s.mem := by
  unfold State.bootFail
  simp

@[simp] theorem State.showWear_mem (s : State) (c : Cartridge) : (s.showWear c).mem = s.mem := by
  unfold State.showWear
  simp

@[simp] theorem State.showFw_mem (s : State) (f : FwImage) : (s.showFw f).mem = s.mem := by
  unfold State.showFw
  simp

@[simp] theorem State.readCart_mem (s : State) (c : Cartridge) (fab : Fabric) : (s.readCart c fab).mem = s.mem := by
  unfold State.readCart
  dsimp only
  split <;> simp

@[simp] theorem execCartridgeStage_answersCanon (fab : Fabric) (s : State) (hs : CanonMem s.mem) : AnswersCanon (execCartridgeStage fab s) := by
  unfold execCartridgeStage
  dsimp only
  (repeat' split) <;> simp [hs]

@[simp] theorem execSelftestStage_answersCanon (acked : Bool) (found : List ErrIn) (s : State) (hs : CanonMem s.mem) :
    AnswersCanon (execSelftestStage acked found s) := by
  unfold execSelftestStage
  dsimp only
  (repeat' split) <;> simp [hs]

@[simp] theorem execHbmInitStage_answersCanon (s : State) (hs : CanonMem s.mem) : AnswersCanon (execHbmInitStage s) := by
  unfold execHbmInitStage
  simp [hs]

@[simp] theorem State.fabricModes_mem (s : State) (f : Fabric) : (s.fabricModes f).mem = s.mem := by
  unfold State.fabricModes
  simp

@[simp] theorem State.applyFabric_mem (s : State) (f : Fabric) : (s.applyFabric f).mem = s.mem := by
  unfold State.applyFabric
  simp

@[simp] theorem execBringupStage_answersCanon (s : State) (hs : CanonMem s.mem) : AnswersCanon (execBringupStage s) := by
  unfold execBringupStage
  dsimp only
  (repeat' split) <;> simp [hs]

@[simp] theorem execReady_answersCanon (s : State) (hs : CanonMem s.mem) : AnswersCanon (execReady s) := by
  unfold execReady
  simp [hs]

@[simp] theorem execShutdownComplete_answersCanon (found : List ErrIn) (s : State) (hs : CanonMem s.mem) : AnswersCanon (execShutdownComplete found s) := by
  unfold execShutdownComplete
  dsimp only
  (repeat' split) <;> simp [hs]

@[simp] theorem State.cartGone_mem (s : State) : s.cartGone.mem = s.mem := by
  unfold State.cartGone
  simp

@[simp] theorem State.cartBack_mem (s : State) (c : Cartridge) : (s.cartBack c).mem = s.mem := by
  unfold State.cartBack
  simp

@[simp] theorem execCartridgePresencePoll_answersCanon (seen : Option Cartridge) (s : State) (hs : CanonMem s.mem) : AnswersCanon (execCartridgePresencePoll seen s) := by
  unfold execCartridgePresencePoll
  dsimp only
  (repeat' split) <;> simp [hs]

@[simp] theorem execCartridgeWrite_answersCanon (part : Nat) (blocks : List Nat) (spares : Bool) (s : State) (hs : CanonMem s.mem) :
    AnswersCanon (execCartridgeWrite part blocks spares s) := by
  unfold execCartridgeWrite
  dsimp only
  split <;> simp [hs]

theorem State.runTest_mem {s t : State} {program : Nat} {units : List (Nat × Nat)} {ports : List Nat} {found : List ErrIn}
    (h : s.runTest program units ports found = .ok t) : t.mem = s.mem := by
  unfold State.runTest at h
  dsimp only at h
  repeat' split at h
  all_goals (cases h <;> simp)

@[simp] theorem execJtagInstruction_answersCanon (insn : TapInsn) (s : State) (hs : CanonMem s.mem) : AnswersCanon (execJtagInstruction insn s) := by
  unfold execJtagInstruction
  generalize (if s.tapOk insn then insn else .bypass) = i
  have ht : CanonMem ({ s with tap := i } : State).mem := hs
  dsimp only
  generalize ({ s with tap := i } : State) = t at ht ⊢
  split
  · simp [ht]
  · rw [answersCanon_next]
    split
    · exact ht
    · split
      next h => simp [State.runTest_mem h, ht]
      · exact ht
  · simp [ht]

@[simp] theorem tspDo_answersCanon {conn cmd : Nat} {s : State} {f : State → State} (hs : CanonMem s.mem) (hf : CanonMem (f s).mem) :
    AnswersCanon (tspDo conn cmd s f) := by
  unfold tspDo
  split
  · simp [hs]
  · split
    · simp [hs]
    · split <;> simp [hs, hf]

@[simp] theorem provDo_answersCanon {i : Instr} {conn cmd p : Nat} {ok : PState → Bool} {s : State} {f : State → State} (hs : CanonMem s.mem)
    (hf : CanonMem (f s).mem) : AnswersCanon (provDo i conn cmd p ok s f) := by
  unfold provDo
  exact tspDo_answersCanon hs (by simp [hs, hf])

theorem State.dueReq_mem {s t : State} {c : Instr} {rest : List (Nat × Instr)} (h : s.dueReq = some (c, t, rest)) : t.mem = s.mem := by
  unfold State.dueReq at h
  dsimp only at h
  split at h
  · cases h
  · split at h
    · obtain ⟨r, -, hr⟩ := Option.map_eq_some_iff.mp h
      cases hr
      rfl
    · cases h

@[simp] theorem State.backReqs_mem (s : State) (l : List (Nat × Instr)) : (s.backReqs l).mem = s.mem := by
  unfold State.backReqs
  simp

@[simp] theorem State.tdispErr_mem (s : State) (f : Nat) : (s.tdispErr f).mem = s.mem := by
  unfold State.tdispErr
  simp

@[simp] theorem State.bindFn_mem (s : State) (f : Nat) : (s.bindFn f).mem = s.mem := by
  unfold State.bindFn
  simp

@[simp] theorem State.showRes_mem (s : State) (p : Nat) : (s.showRes p).mem = s.mem := by
  unfold State.showRes
  simp

theorem State.takeUnits_mem {s t : State} {p d n : Nat} (h : s.takeUnits p d n = some t) : t.mem = s.mem := by
  unfold State.takeUnits at h
  repeat' split at h
  all_goals (cases h <;> simp)

theorem State.takeChans_mem {s t : State} {p d n : Nat} (h : s.takeChans p d n = some t) : t.mem = s.mem := by
  unfold State.takeChans at h
  dsimp only at h
  split at h <;> cases h
  simp

theorem State.takeBulks_mem {s t : State} {p n : Nat} (h : s.takeBulks p n = some t) : t.mem = s.mem := by
  unfold State.takeBulks at h
  dsimp only at h
  repeat' split at h
  all_goals (cases h <;> simp)

theorem State.takeTalons_mem {s t : State} {p n : Nat} (h : s.takeTalons p n = some t) : t.mem = s.mem := by
  unfold State.takeTalons at h
  dsimp only at h
  repeat' split at h
  all_goals (cases h <;> simp)

theorem State.setLegend_mem {s t : State} {p e w : Nat} (h : s.setLegend p e w = some t) : t.mem = s.mem := by
  unfold State.setLegend at h
  split at h <;> cases h
  simp

@[simp] theorem State.putProv_mem (s : State) (p : Nat) (r : Reg) (n v : Nat) : (s.putProv p r n v).mem = s.mem := by
  unfold State.putProv
  simp

@[simp] theorem State.templateRegs_mem (s : State) (p : Nat) (r : List Byte) : (s.templateRegs p r).mem = s.mem := by
  unfold State.templateRegs
  simp

theorem chainOpt_mem {α : Type} {l : List α} {f : State → α → Option State} {s t : State} (hf : ∀ {x y a}, f x a = some y → y.mem = x.mem)
    (h : chainOpt l f s = some t) : t.mem = s.mem := by
  have key : ∀ (o : Option State), (∀ x, o = some x → x.mem = s.mem) → ∀ t, l.foldl (fun x a => x.bind fun s => f s a) o = some t → t.mem = s.mem := by
    clear h
    induction l with
    | nil => exact fun o ho t h => ho t h
    | cons a l ih =>
      refine fun o ho t h => ih _ (fun x hx => ?_) t h
      obtain ⟨y, hy, hx⟩ := Option.bind_eq_some_iff.mp hx
      rw [hf hx, ho y hy]
  exact key (some s) (fun x hx => by cases hx; rfl) t h

theorem State.fromTemplate_mem {s t : State} {p : Nat} {r : List Byte} (h : s.fromTemplate p r = .ok t) : t.mem = s.mem := by
  rw [State.fromTemplate] at h
  split at h
  · nomatch h
  next a ha =>
    obtain ⟨s1, h1, ha⟩ := Option.bind_eq_some_iff.mp ha
    obtain ⟨s2, h2, ha⟩ := Option.bind_eq_some_iff.mp ha
    obtain ⟨s3, h3, ha⟩ := Option.bind_eq_some_iff.mp ha
    have hmem : a.mem = s.mem := by
      rw [State.takeTalons_mem ha, State.takeBulks_mem h3, chainOpt_mem State.takeChans_mem h2, chainOpt_mem State.takeUnits_mem h1]
    extract_lets entries at h
    split at h
    · nomatch h
    · split at h
      · nomatch h
      next b hb =>
        obtain rfl := Except.ok.inj h
        rw [State.templateRegs_mem, chainOpt_mem (fun hf => ?_) hb, hmem]
        obtain ⟨_, _, hf⟩ := Option.bind_eq_some_iff.mp hf
        exact State.setLegend_mem hf

@[simp] theorem State.newProv_mem (s : State) (p : Nat) : (s.newProv p).mem = s.mem := by
  unfold State.newProv
  simp

@[simp] theorem execProvCreate_answersCanon (conn : Nat) (id template : Option Nat) (s : State) (hs : CanonMem s.mem) :
    AnswersCanon (execProvCreate conn id template s) := by
  unfold execProvCreate
  refine tspDo_answersCanon hs ?_
  dsimp only
  split
  · simp [hs]
  · split
    · simp [hs]
    · split
      · simp [hs]
      · split
        · simp [hs]
        · split
          · simp [hs]
          next h =>
            split at h
            · obtain rfl := Except.ok.inj h
              simp [hs]
            · split at h
              · simp [State.fromTemplate_mem h, hs]
              · nomatch h

/-- A check that answers an error lets only what passes it go on. -/
theorem ite_error_eq_ok {ε α : Type} {c : Prop} [Decidable c] {e : ε} {x : Except ε α} {t : α} : (if c then .error e else x) = .ok t ↔ ¬ c ∧ x = .ok t := by
  split <;> simp [*]

theorem State.provSet_mem {s t : State} {p : Nat} {what : ProvSet} (h : s.provSet p what = .ok t) : t.mem = s.mem := by
  unfold State.provSet at h
  extract_lets +onlyGivenNames forming need at h
  have hneed : ∀ {x st}, need x st = .ok t → ∃ u, x = some u ∧ t.mem = u.mem := fun {x st} hx => by
    simp only [need] at hx
    split at hx <;> cases hx
    exact ⟨_, rfl, by simp⟩
  clear_value need
  cases what with
  | units d n =>
    simp only [ite_error_eq_ok] at h
    obtain ⟨u, hu, ht⟩ := hneed h.2.2
    rw [ht, State.takeUnits_mem hu]
  | chans d n =>
    simp only [ite_error_eq_ok] at h
    obtain ⟨u, hu, ht⟩ := hneed h.2.2
    rw [ht, State.takeChans_mem hu]
  | bulks n =>
    simp only [ite_error_eq_ok] at h
    obtain ⟨u, hu, ht⟩ := hneed h.2
    rw [ht, State.takeBulks_mem hu]
  | talons n =>
    simp only [ite_error_eq_ok] at h
    obtain ⟨u, hu, ht⟩ := hneed h.2
    rw [ht, State.takeTalons_mem hu]
  | legend e w =>
    simp only [ite_error_eq_ok] at h
    obtain ⟨u, hu, ht⟩ := hneed h.2.2
    rw [ht, State.setLegend_mem hu]
  | legendAt e i =>
    simp only [ite_error_eq_ok] at h
    obtain ⟨-, -, h⟩ := h
    split at h
    · obtain rfl := Except.ok.inj h
      simp
    · split at h
      · obtain ⟨u, hu, ht⟩ := hneed h
        rw [ht, State.setLegend_mem hu]
      · nomatch h
  | reg off v =>
    simp only [ite_error_eq_ok] at h
    obtain ⟨-, h⟩ := h
    repeat' split at h
    all_goals (cases h <;> simp)

@[simp] theorem execProvSet_answersCanon (conn prov : Nat) (what : ProvSet) (s : State) (hs : CanonMem s.mem) : AnswersCanon (execProvSet conn prov what s) := by
  unfold execProvSet
  refine provDo_answersCanon hs ?_
  split
  · simp [hs]
  next h => simp [State.provSet_mem h, hs]

@[simp] theorem execProvRanktab_answersCanon (conn prov : Nat) (bytes : List Byte) (s : State) (hs : CanonMem s.mem) :
    AnswersCanon (execProvRanktab conn prov bytes s) := by
  unfold execProvRanktab
  dsimp only
  split <;> simp [hs]

@[simp] theorem execProvSeal_answersCanon (conn prov : Nat) (s : State) (hs : CanonMem s.mem) : AnswersCanon (execProvSeal conn prov s) := by
  unfold execProvSeal
  simp [hs]

@[simp] theorem State.dbgClear_mem (s : State) (t : Nat) : (s.dbgClear t).mem = s.mem := by
  unfold State.dbgClear
  simp

@[simp] theorem State.assignUnits_mem (s : State) (p : Nat) (on : Bool) : (s.assignUnits p on).mem = s.mem := by
  unfold State.assignUnits
  simp

@[simp] theorem State.srvProvClear_mem (s : State) (p : Nat) : (s.srvProvClear p).mem = s.mem := by
  unfold State.srvProvClear
  simp

@[simp] theorem State.sealNow_canonMem (s : State) (p : Nat) (hs : CanonMem s.mem) : CanonMem (s.sealNow p).mem := by
  unfold State.sealNow
  dsimp only
  split <;> simp [hs]

@[simp] theorem execProvPause_answersCanon (conn prov : Nat) (s : State) (hs : CanonMem s.mem) : AnswersCanon (execProvPause conn prov s) := by
  unfold execProvPause
  simp [hs]

@[simp] theorem execProvResume_answersCanon (conn prov : Nat) (s : State) (hs : CanonMem s.mem) : AnswersCanon (execProvResume conn prov s) := by
  unfold execProvResume
  simp [hs]

@[simp] theorem execProvSnapshot_answersCanon (conn prov : Nat) (s : State) (hs : CanonMem s.mem) : AnswersCanon (execProvSnapshot conn prov s) := by
  unfold execProvSnapshot
  simp [hs]

@[simp] theorem execProvReset_answersCanon (conn prov : Nat) (s : State) (hs : CanonMem s.mem) : AnswersCanon (execProvReset conn prov s) := by
  unfold execProvReset
  simp [hs]

@[simp] theorem State.recoveryOver_mem (s : State) (p : Nat) : (s.recoveryOver p).mem = s.mem := by
  unfold State.recoveryOver
  simp

@[simp] theorem State.freeProv_mem (s : State) (p : Nat) : (s.freeProv p).mem = s.mem := by
  unfold State.freeProv
  simp

@[simp] theorem State.overtake_mem (s : State) (p : Nat) : (s.overtake p).mem = s.mem := by
  unfold State.overtake
  dsimp only
  (repeat' split) <;> simp

@[simp] theorem State.dissolve_mem (s : State) (p : Nat) : (s.dissolve p).mem = s.mem := by
  unfold State.dissolve
  simp

@[simp] theorem execProvDissolve_answersCanon (conn prov : Nat) (s : State) (hs : CanonMem s.mem) : AnswersCanon (execProvDissolve conn prov s) := by
  unfold execProvDissolve
  simp [hs]

@[simp] theorem execDissolutionComplete_answersCanon (prov : Nat) (s : State) (hs : CanonMem s.mem) : AnswersCanon (execDissolutionComplete prov s) := by
  unfold execDissolutionComplete
  simp [hs]

@[simp] theorem execProvRead_answersCanon (conn prov addr n : Nat) (s : State) (hs : CanonMem s.mem) : AnswersCanon (execProvRead conn prov addr n s) := by
  unfold execProvRead
  simp [hs]

@[simp] theorem execProvGrantPf0_answersCanon (conn prov : Nat) (s : State) (hs : CanonMem s.mem) : AnswersCanon (execProvGrantPf0 conn prov s) := by
  unfold execProvGrantPf0
  simp [hs]

@[simp] theorem execProvStandin_answersCanon (conn prov rank epoch : Nat) (s : State) (hs : CanonMem s.mem) : AnswersCanon (execProvStandin conn prov rank epoch s) := by
  unfold execProvStandin
  simp [hs]

@[simp] theorem execProvRecover_answersCanon (conn prov : Nat) (on : Bool) (s : State) (hs : CanonMem s.mem) : AnswersCanon (execProvRecover conn prov on s) := by
  unfold execProvRecover
  simp [hs]

@[simp] theorem State.releaseSeats_mem (s : State) (p : Nat) (i : GInst) : (s.releaseSeats p i).mem = s.mem := by
  unfold State.releaseSeats
  refine mem_foldl _ _ _ fun b t => ?_
  dsimp only
  split
  · split <;> simp
  · simp

@[simp] theorem State.gsyncRelease_mem (s : State) (p : Nat) (i : GInst) (bcast : Bool) (payload : List Byte) : (s.gsyncRelease p i bcast payload).mem = s.mem := by
  unfold State.gsyncRelease
  simp

@[simp] theorem State.flushOut_mem (s : State) (p : Nat) : (s.flushOut p).mem = s.mem := by
  unfold State.flushOut
  simp

@[simp] theorem State.resetProv_canonMem (s : State) (p f : Nat) (hs : CanonMem s.mem) : CanonMem (s.resetProv p f).mem := by
  unfold State.resetProv
  simp [hs]

@[simp] theorem State.snapProv_mem (s : State) (p f : Nat) (late : Bool) : (s.snapProv p f late).mem = s.mem := by
  unfold State.snapProv
  simp

@[simp] theorem State.resumeProv_mem (s : State) (p : Nat) : (s.resumeProv p).mem = s.mem := by
  unfold State.resumeProv
  simp

@[simp] theorem State.spanLate_mem (s : State) (p : Nat) (a : Ann) : (s.spanLate p a).mem = s.mem := by
  rw [State.spanLate]
  split
  · simp
  · split <;> simp

@[simp] theorem State.applyOp_canonMem (s : State) (p f : Nat) (a : Ann) (hs : CanonMem s.mem) : CanonMem (s.applyOp p f a).mem := by
  unfold State.applyOp
  dsimp only
  split <;> simp [hs]

@[simp] theorem State.applyDue_canonMem (s : State) (p f : Nat) (span : Bool) (hs : CanonMem s.mem) : CanonMem (s.applyDue p f span).mem := by
  unfold State.applyDue
  exact canonMem_foldl (by simp [hs]) fun b a hb => by simp [hb]

@[simp] theorem State.localPause_mem (s : State) (p : Nat) : (s.localPause p).mem = s.mem := by
  unfold State.localPause
  simp

@[simp] theorem State.startDue_mem (s : State) (p f : Nat) : (s.startDue p f).mem = s.mem := by
  unfold State.startDue
  dsimp only
  split <;> simp

@[simp] theorem State.provEnd_canonMem (s : State) (p held : Nat) (hs : CanonMem s.mem) : CanonMem (s.provEnd p held).mem := by
  unfold State.provEnd
  simp [hs]

@[simp] theorem State.dealBoundary_canonMem (s : State) (p left : Nat) (hs : CanonMem s.mem) : CanonMem (s.dealBoundary p left).mem := by
  unfold State.dealBoundary
  dsimp only
  split
  · exact hs
  · rw [State.wakeWaits_mem]
    split <;> simp [hs]

@[simp] theorem State.collBoundary_canonMem (s : State) (p f : Nat) (hs : CanonMem s.mem) : CanonMem (s.collBoundary p f).mem := by
  unfold State.collBoundary
  simp [hs]

@[simp] theorem State.provBoundary_canonMem (s : State) (p f left : Nat) (hs : CanonMem s.mem) : CanonMem (s.provBoundary p f left).mem := by
  unfold State.provBoundary
  extract_lets +onlyGivenNames pr
  split
  · simp [hs]
  · extract_lets s1 s2 s3
    have h1 : CanonMem s1.mem := by simp [s1, hs]
    have h2 : CanonMem s2.mem := by simp [s2, h1]
    have h3 : CanonMem s3.mem := by
      simp only [s3]
      split
      · rw [State.lagUp_mem, mem_foldl _ _ _ fun b r => by simp]
        exact h2
      · exact h2
    simp [h3]

@[simp] theorem State.stewardBoundary_canonMem (s : State) (p : Nat) (hs : CanonMem s.mem) : CanonMem (s.stewardBoundary p).mem := by
  unfold State.stewardBoundary
  dsimp only
  (repeat' split) <;> simp [hs]

@[simp] theorem State.endFrame_canonMem (s : State) (held : Nat) (hs : CanonMem s.mem) : CanonMem (s.endFrame held).mem := by
  unfold State.endFrame
  refine canonMem_foldl hs fun b p hb => ?_
  dsimp only
  split <;> simp [hb]

@[simp] theorem State.beginFrame_canonMem (s : State) (left : Nat) (hs : CanonMem s.mem) : CanonMem (s.beginFrame left).mem := by
  unfold State.beginFrame
  refine canonMem_foldl (by simp [hs]) fun b p hb => ?_
  split <;> simp [hb]

@[simp] theorem execFrameBoundary_answersCanon (held left : Nat) (s : State) (hs : CanonMem s.mem) : AnswersCanon (execFrameBoundary held left s) := by
  unfold execFrameBoundary
  simp [hs]

@[simp] theorem State.csrPut_mem (s : State) (r : RegAt) (n v : Nat) : (s.csrPut r n v).mem = s.mem := by
  unfold State.csrPut
  simp

@[simp] theorem csrAccess_answersCanon (tile seat fn : Nat) (s : State) (f : Nat → Nat → Option Nat) (hs : CanonMem s.mem) :
    AnswersCanon (csrAccess tile seat fn s f) := by
  unfold csrAccess
  dsimp only
  (repeat' split) <;> simp [hs]

@[simp] theorem execCsrRead_answersCanon (tile seat : Nat) (s : State) (hs : CanonMem s.mem) : AnswersCanon (execCsrRead tile seat s) := by
  unfold execCsrRead
  simp [hs]

@[simp] theorem execCsrWrite_answersCanon (tile seat : Nat) (s : State) (hs : CanonMem s.mem) : AnswersCanon (execCsrWrite tile seat s) := by
  unfold execCsrWrite
  simp [hs]

@[simp] theorem execCsrSet_answersCanon (tile seat : Nat) (s : State) (hs : CanonMem s.mem) : AnswersCanon (execCsrSet tile seat s) := by
  unfold execCsrSet
  simp [hs]

@[simp] theorem execCsrClear_answersCanon (tile seat : Nat) (s : State) (hs : CanonMem s.mem) : AnswersCanon (execCsrClear tile seat s) := by
  unfold execCsrClear
  simp [hs]

@[simp] theorem State.rxFree_mem (s : State) (n p : Nat) : (s.rxFree n p).mem = s.mem := by
  unfold State.rxFree
  simp

@[simp] theorem State.startRenewal_mem (s : State) (l : Link) : (s.startRenewal l).mem = s.mem := by
  unfold State.startRenewal
  simp

@[simp] theorem State.control_mem (s : State) (l : Link) (b : NdxBody) : (s.control l b).mem = s.mem := by
  unfold State.control
  dsimp only
  split <;> simp

@[simp] theorem State.actMsg_canonMem (s : State) (p peer : Nat) (b : NdxBody) (hs : CanonMem s.mem) : CanonMem (s.actMsg p peer b).mem := by
  unfold State.actMsg
  dsimp only
  (repeat' split) <;> simp [hs]

@[simp] theorem State.deliverMsg_canonMem (s : State) (p peer : Nat) (b : NdxBody) (hs : CanonMem s.mem) : CanonMem (s.deliverMsg p peer b).mem := by
  unfold State.deliverMsg
  simp [hs]

@[simp] theorem State.rxData_canonMem (s : State) (l : Link) (k : NdxPkt) (hs : CanonMem s.mem) : CanonMem (s.rxData l k).mem := by
  generalize hx : s.rxData l k = x
  unfold State.rxData at hx
  extract_lets +onlyGivenNames r r' news put d at hx
  have hput : ∀ (t : State) y, (put t y).mem = t.mem := fun t y => by simp [put]
  clear_value put news d r'
  split at hx
  · simp [← hx, hput, hs]
  · split at hx
    · simp [← hx, hput, hs]
    · rw [← hx]
      exact canonMem_foldl (by simp [hput, hs]) fun b y hb => by simp [hb]

@[simp] theorem State.authFail_mem (s : State) (l : Link) : (s.authFail l).mem = s.mem := by
  unfold State.authFail
  simp

@[simp] theorem State.hsFail_mem (s : State) (devid : Nat) : (s.hsFail devid).mem = s.mem := by
  unfold State.hsFail
  simp

@[simp] theorem State.hsDone_mem (s : State) (devid ver : Nat) : (s.hsDone devid ver).mem = s.mem := by
  unfold State.hsDone
  dsimp only
  split <;> simp

@[simp] theorem State.hsSend_mem (s : State) (devid : Nat) (b : NdxBody) : (s.hsSend devid b).mem = s.mem := by
  unfold State.hsSend
  simp

@[simp] theorem State.handshakeIn_mem (s : State) (k : NdxPkt) : (s.handshakeIn k).mem = s.mem := by
  unfold State.handshakeIn
  dsimp only
  (repeat' split) <;> simp

@[simp] theorem execNdeyxPacketReceived_answersCanon (port : Nat) (p : NdxPkt) (s : State) (hs : CanonMem s.mem) : AnswersCanon (execNdeyxPacketReceived port p s) := by
  unfold execNdeyxPacketReceived
  simp [hs]
  (repeat' split) <;> simp [hs]

@[simp] theorem execAckSend_answersCanon (prov peer stream : Nat) (s : State) (hs : CanonMem s.mem) : AnswersCanon (execAckSend prov peer stream s) := by
  unfold execAckSend
  dsimp only
  split <;> simp [hs]

@[simp] theorem execRetransmitTimeout_answersCanon (prov peer stream psn : Nat) (s : State) (hs : CanonMem s.mem) :
    AnswersCanon (execRetransmitTimeout prov peer stream psn s) := by
  unfold execRetransmitTimeout
  dsimp only
  (repeat' split) <;> simp [hs]

@[simp] theorem execNdeyxLinkLost_answersCanon (prov peer : Nat) (s : State) (hs : CanonMem s.mem) : AnswersCanon (execNdeyxLinkLost prov peer s) := by
  unfold execNdeyxLinkLost
  simp
  (repeat' split) <;> simp [hs]

@[simp] theorem execKeepaliveSend_answersCanon (prov peer port : Nat) (s : State) (hs : CanonMem s.mem) : AnswersCanon (execKeepaliveSend prov peer port s) := by
  unfold execKeepaliveSend
  dsimp only
  split <;> simp [hs]

@[simp] theorem State.sendHello_mem (s : State) (devid : Nat) : (s.sendHello devid).mem = s.mem := by
  unfold State.sendHello
  simp

@[simp] theorem execHello_answersCanon (devid : Nat) (s : State) (hs : CanonMem s.mem) : AnswersCanon (execHello devid s) := by
  unfold execHello
  simp
  (repeat' split) <;> simp [hs]

@[simp] theorem execHandshakeRetryTimer_answersCanon (devid : Nat) (s : State) (hs : CanonMem s.mem) : AnswersCanon (execHandshakeRetryTimer devid s) := by
  unfold execHandshakeRetryTimer
  dsimp only
  split <;> simp [hs]

@[simp] theorem execMasterRekeyTimer_answersCanon (devid : Nat) (s : State) (hs : CanonMem s.mem) : AnswersCanon (execMasterRekeyTimer devid s) := by
  unfold execMasterRekeyTimer
  simp
  (repeat' split) <;> simp [hs]

@[simp] theorem execKeyRenewalDue_answersCanon (prov peer : Nat) (s : State) (hs : CanonMem s.mem) : AnswersCanon (execKeyRenewalDue prov peer s) := by
  unfold execKeyRenewalDue
  simp
  (repeat' split) <;> simp [hs]

@[simp] theorem execOldKeyErase_answersCanon (prov peer : Nat) (s : State) (hs : CanonMem s.mem) : AnswersCanon (execOldKeyErase prov peer s) := by
  unfold execOldKeyErase
  simp [hs]

@[simp] theorem State.newSak_mem (s : State) (n : Nat) : (s.newSak n).mem = s.mem := by
  unfold State.newSak
  simp

@[simp] theorem execMkaHello_answersCanon (port : Nat) (peer : Option MkaPeer) (s : State) (hs : CanonMem s.mem) : AnswersCanon (execMkaHello port peer s) := by
  unfold execMkaHello
  dsimp only
  (repeat' split) <;> simp [hs]

@[simp] theorem execMkaLifeExpire_answersCanon (port : Nat) (s : State) (hs : CanonMem s.mem) : AnswersCanon (execMkaLifeExpire port s) := by
  unfold execMkaLifeExpire
  simp [hs]

@[simp] theorem execSakRenewal_answersCanon (port : Nat) (s : State) (hs : CanonMem s.mem) : AnswersCanon (execSakRenewal port s) := by
  unfold execSakRenewal
  simp [hs]

@[simp] theorem execPathSilenceTimeout_answersCanon (prov peer port : Nat) (s : State) (hs : CanonMem s.mem) :
    AnswersCanon (execPathSilenceTimeout prov peer port s) := by
  unfold execPathSilenceTimeout
  simp [hs]

@[simp] theorem State.lateMsgs_canonMem (s : State) (hs : CanonMem s.mem) : CanonMem s.lateMsgs.mem := by
  unfold State.lateMsgs
  dsimp only
  rw [mem_foldl _ _ _ fun b p => by simp]
  exact canonMem_foldl hs fun b x hb => by simp [hb]

@[simp] theorem execTspConnectionOpen_answersCanon (conn : Nat) (tls : TlsClient) (revoked : Bool) (role : Nat) (s : State) (hs : CanonMem s.mem) :
    AnswersCanon (execTspConnectionOpen conn tls revoked role s) := by
  unfold execTspConnectionOpen
  dsimp only
  (repeat' split) <;> simp [hs]

@[simp] theorem execTspIdleTimeout_answersCanon (conn : Nat) (s : State) (hs : CanonMem s.mem) : AnswersCanon (execTspIdleTimeout conn s) := by
  unfold execTspIdleTimeout
  simp [hs]

@[simp] theorem execTspHello_answersCanon (conn lo hi : Nat) (s : State) (hs : CanonMem s.mem) : AnswersCanon (execTspHello conn lo hi s) := by
  unfold execTspHello
  simp [hs]

@[simp] theorem execSubscribe_answersCanon (conn classes : Nat) (s : State) (hs : CanonMem s.mem) : AnswersCanon (execSubscribe conn classes s) := by
  unfold execSubscribe
  simp [hs]

@[simp] theorem execTspEventSend_answersCanon (conn : Nat) (s : State) (hs : CanonMem s.mem) : AnswersCanon (execTspEventSend conn s) := by
  unfold execTspEventSend
  dsimp only
  (repeat' split) <;> simp [hs]

@[simp] theorem execMgmtFrameReceived_answersCanon (f : MgmtFrame) (s : State) (hs : CanonMem s.mem) : AnswersCanon (execMgmtFrameReceived f s) := by
  unfold execMgmtFrameReceived
  dsimp only
  (repeat' split) <;> simp [hs]

@[simp] theorem execGetIdentity_answersCanon (conn : Nat) (s : State) (hs : CanonMem s.mem) : AnswersCanon (execGetIdentity conn s) := by
  unfold execGetIdentity
  simp [hs]

@[simp] theorem execGetStatus_answersCanon (conn : Nat) (s : State) (hs : CanonMem s.mem) : AnswersCanon (execGetStatus conn s) := by
  unfold execGetStatus
  simp [hs]

@[simp] theorem execReadReg_answersCanon (conn addr n : Nat) (s : State) (hs : CanonMem s.mem) : AnswersCanon (execReadReg conn addr n s) := by
  unfold execReadReg
  dsimp only
  (repeat' split) <;> simp [hs]

@[simp] theorem execLogRead_answersCanon (conn : Nat) (what : LogSel) (s : State) (hs : CanonMem s.mem) : AnswersCanon (execLogRead conn what s) := by
  unfold execLogRead
  dsimp only
  split <;> simp [hs]

@[simp] theorem execImprintRead_answersCanon (conn lo n : Nat) (s : State) (hs : CanonMem s.mem) : AnswersCanon (execImprintRead conn lo n s) := by
  unfold execImprintRead
  refine tspDo_answersCanon hs ?_
  split <;> simp [hs]

@[simp] theorem execInletReport_answersCanon (conn : Nat) (t : Int) (s : State) (hs : CanonMem s.mem) : AnswersCanon (execInletReport conn t s) := by
  unfold execInletReport
  simp [hs]

@[simp] theorem execMerSet_answersCanon (conn : Nat) (what : MerSet) (s : State) (hs : CanonMem s.mem) : AnswersCanon (execMerSet conn what s) := by
  unfold execMerSet
  dsimp only
  (repeat' split) <;> simp [hs]

@[simp] theorem State.putTable_mem (s : State) (t : TableImg) : (s.putTable t).mem = s.mem := by
  unfold State.putTable
  dsimp only
  split <;> simp

@[simp] theorem execTableLoad_answersCanon (conn : Nat) (img : TableImg) (s : State) (hs : CanonMem s.mem) : AnswersCanon (execTableLoad conn img s) := by
  unfold execTableLoad
  dsimp only
  split <;> simp [hs]

@[simp] theorem execFabricSet_answersCanon (conn : Nat) (img : TableImg) (fab : Fabric) (s : State) (hs : CanonMem s.mem) :
    AnswersCanon (execFabricSet conn img fab s) := by
  unfold execFabricSet
  simp [hs]

@[simp] theorem execCredSet_answersCanon (conn : Nat) (ca rev : TableImg) (s : State) (hs : CanonMem s.mem) : AnswersCanon (execCredSet conn ca rev s) := by
  unfold execCredSet
  simp [hs]

@[simp] theorem State.setUpdate_mem (s : State) (v : Nat) : (s.setUpdate v).mem = s.mem := by
  unfold State.setUpdate
  dsimp only
  split <;> simp

@[simp] theorem execFwStage_answersCanon (conn : Nat) (img : FwImage) (s : State) (hs : CanonMem s.mem) : AnswersCanon (execFwStage conn img s) := by
  unfold execFwStage
  refine tspDo_answersCanon hs ?_
  dsimp only
  (repeat' split) <;> simp [hs]

@[simp] theorem State.handNoSession_mem (s : State) (k : Nat) : (s.handNoSession k).mem = s.mem := by
  unfold State.handNoSession
  simp

@[simp] theorem State.beginRestart_mem (s : State) (act : Option (FwImage × Bool × Nat)) : (s.beginRestart act).mem = s.mem := by
  unfold State.beginRestart
  simp

@[simp] theorem execFwActivate_answersCanon (conn : Nat) (prev : Bool) (s : State) (hs : CanonMem s.mem) : AnswersCanon (execFwActivate conn prev s) := by
  unfold execFwActivate
  refine tspDo_answersCanon hs ?_
  dsimp only
  (repeat' split) <;> simp [hs]

@[simp] theorem execFwCommit_answersCanon (conn : Nat) (s : State) (hs : CanonMem s.mem) : AnswersCanon (execFwCommit conn s) := by
  unfold execFwCommit
  refine tspDo_answersCanon hs ?_
  dsimp only
  (repeat' split) <;> simp [hs]

@[simp] theorem execStewardWatchdog_answersCanon (s : State) (hs : CanonMem s.mem) : AnswersCanon (execStewardWatchdog s) := by
  unfold execStewardWatchdog
  simp [hs]

@[simp] theorem State.watchdogOver_mem (s : State) : s.watchdogOver.mem = s.mem := by
  unfold State.watchdogOver
  simp

@[simp] theorem State.burnLife_mem (s : State) : s.burnLife.mem = s.mem := by
  unfold State.burnLife
  simp

@[simp] theorem State.pairCart_mem (s : State) (p : Option Nat) : (s.pairCart p).mem = s.mem := by
  unfold State.pairCart
  split <;> simp

@[simp] theorem State.scrubAll_canonMem (s : State) : CanonMem s.scrubAll.mem := by
  unfold State.scrubAll
  dsimp only
  split <;> simp

theorem State.lifeStep_canonMem {s t : State} {tok : LifeToken} {jtag : Bool} (hs : CanonMem s.mem) (h : s.lifeStep tok jtag = .ok t) : CanonMem t.mem := by
  unfold State.lifeStep at h
  dsimp only at h
  repeat' split at h
  all_goals (cases h <;> simp [hs])

@[simp] theorem State.scrapConns_mem (s : State) : s.scrapConns.mem = s.mem := by
  unfold State.scrapConns
  simp

@[simp] theorem execLifecycle_answersCanon (conn : Option Nat) (tok : LifeToken) (s : State) (hs : CanonMem s.mem) : AnswersCanon (execLifecycle conn tok s) := by
  unfold execLifecycle
  split
  · split
    · simp [hs]
    · split
      next h => simp [State.lifeStep_canonMem hs h]
      · simp [hs]
  · refine tspDo_answersCanon hs ?_
    split
    next h => simp [State.lifeStep_canonMem hs h]
    · simp [hs]

@[simp] theorem execTakeOwnership_answersCanon (conn : Nat) (key : List Byte) (tokOk : Bool) (s : State) (hs : CanonMem s.mem) :
    AnswersCanon (execTakeOwnership conn key tokOk s) := by
  unfold execTakeOwnership
  simp [hs]

@[simp] theorem execTestRun_answersCanon (conn program : Nat) (units : List (Nat × Nat)) (ports : List Nat) (found : List ErrIn) (s : State) (hs : CanonMem s.mem) :
    AnswersCanon (execTestRun conn program units ports found s) := by
  unfold execTestRun
  refine tspDo_answersCanon hs ?_
  split
  next h => simp [State.runTest_mem h, hs]
  · simp [hs]

@[simp] theorem execShutdown_answersCanon (conn : Nat) (force : Bool) (s : State) (hs : CanonMem s.mem) : AnswersCanon (execShutdown conn force s) := by
  unfold execShutdown
  simp [hs]

@[simp] theorem State.imprint_mem (s : State) (conn p : Nat) (c : Cut) (cart : Cartridge) : (s.imprint conn p c cart).mem = s.mem := by
  unfold State.imprint
  simp

@[simp] theorem State.tryImprint_mem (s : State) (conn prov : Nat) : (s.tryImprint conn prov).mem = s.mem := by
  unfold State.tryImprint
  dsimp only
  (repeat' split) <;> simp

@[simp] theorem execImprint_answersCanon (conn prov : Nat) (s : State) (hs : CanonMem s.mem) : AnswersCanon (execImprint conn prov s) := by
  unfold execImprint
  simp [hs]

@[simp] theorem execImprintRoll_answersCanon (conn seq : Nat) (s : State) (hs : CanonMem s.mem) : AnswersCanon (execImprintRoll conn seq s) := by
  unfold execImprintRoll
  refine tspDo_answersCanon hs ?_
  dsimp only
  (repeat' split) <;> simp [hs]

@[simp] theorem State.imprintsDue_mem (s : State) (l : List (Nat × Nat)) : (s.imprintsDue l).mem = s.mem := by
  unfold State.imprintsDue
  simp

@[simp] theorem execStewardRestartEnd_answersCanon (ok : Bool) (s : State) (hs : CanonMem s.mem) : AnswersCanon (execStewardRestartEnd ok s) := by
  unfold execStewardRestartEnd
  dsimp only
  (repeat' split) <;> simp [hs]

@[simp] theorem execGetCartouche_answersCanon (conn : Nat) (nonce : List Byte) (s : State) (hs : CanonMem s.mem) : AnswersCanon (execGetCartouche conn nonce s) := by
  unfold execGetCartouche
  simp [hs]

@[simp] theorem State.spdmErr_mem (s : State) (e : Nat) : (s.spdmErr e).mem = s.mem := by
  unfold State.spdmErr
  simp

@[simp] theorem spdmDo_answersCanon {need : Nat} {s : State} {f : State → State} (hs : CanonMem s.mem) (hf : CanonMem (f s).mem) :
    AnswersCanon (spdmDo need s f) := by
  unfold spdmDo
  simp [hs, hf]

@[simp] theorem sessionDo_answersCanon {sid : Nat} {done : Bool} {s : State} {f : SpdmSession → State} (hs : CanonMem s.mem) (hf : ∀ x, CanonMem (f x).mem) :
    AnswersCanon (sessionDo sid done s f) := by
  unfold sessionDo
  refine spdmDo_answersCanon hs ?_
  split <;> simp [hs, hf]

@[simp] theorem execGetVersion_answersCanon (s : State) (hs : CanonMem s.mem) : AnswersCanon (execGetVersion s) := by
  unfold execGetVersion
  simp [hs]

@[simp] theorem execGetCapabilities_answersCanon (s : State) (hs : CanonMem s.mem) : AnswersCanon (execGetCapabilities s) := by
  unfold execGetCapabilities
  simp [hs]

@[simp] theorem execNegotiateAlgorithms_answersCanon (common : Bool) (s : State) (hs : CanonMem s.mem) : AnswersCanon (execNegotiateAlgorithms common s) := by
  unfold execNegotiateAlgorithms
  simp [hs]

@[simp] theorem execGetDigests_answersCanon (s : State) (hs : CanonMem s.mem) : AnswersCanon (execGetDigests s) := by
  unfold execGetDigests
  simp [hs]

@[simp] theorem execGetCertificate_answersCanon (slot off n : Nat) (s : State) (hs : CanonMem s.mem) : AnswersCanon (execGetCertificate slot off n s) := by
  unfold execGetCertificate
  simp [hs]

@[simp] theorem execChallenge_answersCanon (slot : Nat) (s : State) (hs : CanonMem s.mem) : AnswersCanon (execChallenge slot s) := by
  unfold execChallenge
  simp [hs]

@[simp] theorem execGetMeasurements_answersCanon (index : Nat) (signed : Bool) (s : State) (hs : CanonMem s.mem) : AnswersCanon (execGetMeasurements index signed s) := by
  unfold execGetMeasurements
  simp [hs]

@[simp] theorem execKeyExchange_answersCanon (slot : Nat) (s : State) (hs : CanonMem s.mem) : AnswersCanon (execKeyExchange slot s) := by
  unfold execKeyExchange
  simp [hs]

@[simp] theorem execSpdmFinish_answersCanon (sid : Nat) (macOk : Bool) (s : State) (hs : CanonMem s.mem) : AnswersCanon (execSpdmFinish sid macOk s) := by
  unfold execSpdmFinish
  simp [hs]

@[simp] theorem execHeartbeat_answersCanon (sid : Nat) (s : State) (hs : CanonMem s.mem) : AnswersCanon (execHeartbeat sid s) := by
  unfold execHeartbeat
  simp [hs]

@[simp] theorem execSpdmKeyUpdate_answersCanon (sid : Nat) (s : State) (hs : CanonMem s.mem) : AnswersCanon (execSpdmKeyUpdate sid s) := by
  unfold execSpdmKeyUpdate
  simp [hs]

@[simp] theorem execEndSession_answersCanon (sid : Nat) (s : State) (hs : CanonMem s.mem) : AnswersCanon (execEndSession sid s) := by
  unfold execEndSession
  simp [hs]

@[simp] theorem execBindFn_answersCanon (sid fn : Nat) (s : State) (hs : CanonMem s.mem) : AnswersCanon (execBindFn sid fn s) := by
  unfold execBindFn
  simp [hs]

@[simp] theorem execSelectFn_answersCanon (fn : Nat) (s : State) (hs : CanonMem s.mem) : AnswersCanon (execSelectFn fn s) := by
  unfold execSelectFn
  simp [hs]

@[simp] theorem execIdeKm_answersCanon (sid stream : Nat) (fn : Option Nat) (stop : Bool) (s : State) (hs : CanonMem s.mem) :
    AnswersCanon (execIdeKm sid stream fn stop s) := by
  unfold execIdeKm
  simp [hs]

@[simp] theorem State.tdispAns_mem (s : State) (f : Nat) : (s.tdispAns f).mem = s.mem := by
  unfold State.tdispAns
  simp

@[simp] theorem tdispDo_answersCanon {sid fn : Nat} {s : State} {f : State → State} (hs : CanonMem s.mem) (hf : CanonMem (f s).mem) :
    AnswersCanon (tdispDo sid fn s f) := by
  unfold tdispDo
  rw [answersCanon_onFn]
  exact fun _ => sessionDo_answersCanon hs fun x => by simp [hs, hf]

@[simp] theorem execLockInterface_answersCanon (sid fn : Nat) (s : State) (hs : CanonMem s.mem) : AnswersCanon (execLockInterface sid fn s) := by
  unfold execLockInterface
  simp [hs]

@[simp] theorem execStartInterface_answersCanon (sid fn : Nat) (s : State) (hs : CanonMem s.mem) : AnswersCanon (execStartInterface sid fn s) := by
  unfold execStartInterface
  simp [hs]

@[simp] theorem execStopInterface_answersCanon (sid fn : Nat) (s : State) (hs : CanonMem s.mem) : AnswersCanon (execStopInterface sid fn s) := by
  unfold execStopInterface
  simp [hs]

@[simp] theorem execTdispInterfaceError_answersCanon (fn : Nat) (s : State) (hs : CanonMem s.mem) : AnswersCanon (execTdispInterfaceError fn s) := by
  unfold execTdispInterfaceError
  simp [hs]

@[simp] theorem State.vecChecked_mem (s : State) (i : Issue) (regs : List Nat) (illegal : Bool) (checks : List (Bool × Nat)) (words : List Nat) (site : Bool)
    (busy : Option Nat) :
    (s.vecChecked i regs illegal checks words site busy).mem = s.mem := by
  unfold State.vecChecked
  simp
  (repeat' split) <;> simp

@[simp] theorem State.vecForm_mem (s : State) (i : Issue) (q : VecForm) : (s.vecForm i q).mem = s.mem := by
  unfold State.vecForm
  simp

@[simp] theorem execVop_answersCanon (tile seat : Nat) (s : State) (hs : CanonMem s.mem) : AnswersCanon (execVop tile seat s) := by
  unfold execVop
  simp [hs]

@[simp] theorem execVred_answersCanon (tile seat : Nat) (s : State) (hs : CanonMem s.mem) : AnswersCanon (execVred tile seat s) := by
  unfold execVred
  simp [hs]

@[simp] theorem execVsmx_answersCanon (tile seat : Nat) (s : State) (hs : CanonMem s.mem) : AnswersCanon (execVsmx tile seat s) := by
  unfold execVsmx
  simp [hs]

@[simp] theorem execVsmg_answersCanon (tile seat : Nat) (s : State) (hs : CanonMem s.mem) : AnswersCanon (execVsmg tile seat s) := by
  unfold execVsmg
  simp [hs]

@[simp] theorem execVep_answersCanon (tile seat : Nat) (s : State) (hs : CanonMem s.mem) : AnswersCanon (execVep tile seat s) := by
  unfold execVep
  simp [hs]

@[simp] theorem execVql_answersCanon (tile seat : Nat) (s : State) (hs : CanonMem s.mem) : AnswersCanon (execVql tile seat s) := by
  unfold execVql
  simp [hs]

@[simp] theorem execVqs_answersCanon (tile seat : Nat) (s : State) (hs : CanonMem s.mem) : AnswersCanon (execVqs tile seat s) := by
  unfold execVqs
  simp [hs]

@[simp] theorem State.vecApply_mem (s : State) (tile : Nat) (o : VecOut) : (s.vecApply tile o).mem = s.mem := by
  unfold State.vecApply
  simp

@[simp] theorem State.runVec_mem (s : State) (tile : Nat) (c : TrickCtx) (v : VecCmd) : (s.runVec tile c v).mem = s.mem := by
  unfold State.runVec
  dsimp only
  (repeat' split) <;> simp

@[simp] theorem execVectorInstructionDone_answersCanon (tile : Nat) (s : State) (hs : CanonMem s.mem) : AnswersCanon (execVectorInstructionDone tile s) := by
  unfold execVectorInstructionDone
  dsimp only
  split <;> simp [hs]

/-- Every arm of `exec` keeps the canonical form. -/
theorem exec_answersCanon (c : Instr) (s : State) (hs : CanonMem s.mem) : AnswersCanon (exec c s) := by
  unfold exec
  cases c <;> simp [hs]

theorem step_answersCanon (s : State) (hs : CanonMem s.mem) : AnswersCanon (step s) := by
  unfold step
  split
  · split
    · exact (answersCanon_next s).mpr hs
    next c u rest h =>
      have hu : CanonMem u.mem := State.dueReq_mem h ▸ hs
      have := exec_answersCanon c u hu
      split
      next v hv => exact (answersCanon_next _).mpr (by simpa using this v hv)
      · exact answersCanon_fault _
      · intro _ e; cases e
  · exact exec_answersCanon _ _ hs

/-- Settles O3: a step is `exec` on the state without its command, or on that of a TSP request that waited, and every arm of `exec` keeps the canonical form. -/
theorem everyStepKeepsMemoryCanonical : Obligations.EveryStepKeepsMemoryCanonical := by
  unfold Obligations.EveryStepKeepsMemoryCanonical
  exact fun s t hs h => step_answersCanon s hs t h

end Sys2Proof.Machine
end

section
/-! Seats that issue (R183–R216): the scalar instructions write RD (O6), branches and jumps set the PC (O7), NOP, BKPT, SWAIT, SBAR and TEND (O8). -/
namespace Sys2Proof.Machine

/-! ### Issue -/

theorem State.Issues.issue {s : State} {tile seat opc : Nat} {i : Issue} (h : s.Issues tile seat opc i) : s.issue tile seat = some i := h.2.2.1

theorem State.Issues.tile_lt {s : State} {tile seat opc : Nat} {i : Issue} (h : s.Issues tile seat opc i) : tile < 4224 := h.1

theorem State.IssuesFn.issue {s : State} {tile seat opc fn : Nat} {i : Issue} (h : s.IssuesFn tile seat opc fn i) : s.issue tile seat = some i := h.1.issue

theorem State.IssuesFn.tile_lt {s : State} {tile seat opc fn : Nat} {i : Issue} (h : s.IssuesFn tile seat opc fn i) : tile < 4224 := h.1.tile_lt

/-- An instruction does not wait while the registers it reads are there (R186). -/
theorem State.readyOr_ready {s : State} {i : Issue} {rs : List Nat} (hb : i.blocked rs = false) (f : State) : s.readyOr i rs f = f :=
  if_neg (by simp [hb])

theorem State.Issues.writeRd {s : State} {tile seat opc : Nat} {i : Issue} (h : s.Issues tile seat opc i) (v : W64) :
    s.Writes (s.writeRd i v) tile seat (fRD i.insn) v (i.pc + 1) :=
  writeRd_writes h.issue h.tile_lt v

/-- An instruction that writes a register and goes to `pc` (R183, R185, R198). -/
theorem issued_writes {s : State} {tile seat : Nat} {i : Issue} (h : s.issue tile seat = some i) (ht : tile < 4224) (rd : Nat) (v : W64) (pc : Nat) :
    s.Writes (s.issued i pc fun x => x.setReg rd v) tile seat rd v pc := by
  obtain ⟨rfl, rfl, hx, -⟩ := issue_eq h
  refine ⟨?_, fun r hr => ?_, ?_, issued_only s i _ _ ht⟩
  · rw [State.sreg, issued_seat]
    exact Seat.reg_setReg_self ..
  · rw [State.sreg, issued_seat, State.sreg, ← hx]
    exact Seat.reg_setReg_ne _ _ hr
  · rw [State.spc, issued_seat]
    exact Seat.pc_setReg ..

/-- A selector of GET changes the free values alone (R199). -/
theorem State.getSel_frame {s s' : State} {i : Issue} {sel n : Nat} (h : s.getSel i sel = some (n, s')) : ∃ f, s' = { s with free := f } := by
  unfold State.getSel at h
  split at h
  case h_17 => cases h; exact ⟨s.free + 1, rfl⟩
  all_goals cases h <;> exact ⟨s.free, rfl⟩

/-- The free values are no part of what an instruction of a seat leaves alone. -/
theorem State.SeatOnly.of_free {s t : State} {f tile seat : Nat} (h : ({ s with free := f } : State).SeatOnly t tile seat) : s.SeatOnly t tile seat :=
  ⟨h.mem, h.poison, h.provs, h.talons, h.bulks, h.errs, h.memc, h.mer, h.stw, h.net, h.hands, h.fns, h.pwr, h.tiles, h.sheet, h.treg, h.banks,
    h.aq, h.fly, h.vq, h.outbox, h.seats, h.regs⟩

theorem State.Writes.of_free {s t : State} {f tile seat rd pc : Nat} {v : W64} (h : ({ s with free := f } : State).Writes t tile seat rd v pc) :
    s.Writes t tile seat rd v pc := by
  obtain ⟨hrd, hregs, hpc, honly⟩ := h
  exact ⟨hrd, hregs, hpc, honly.of_free⟩

/-! ### Scalar results -/

section
variable {s : State} {tile seat : Nat} {i : Issue} {v : W64}

theorem exec_opr (h : s.Issues tile seat 0x01 i) (hb : i.blocked [fRA i.insn, fRB i.insn] = false) (hz : bits i.insn 0 37 = 0)
    (hu : scalarUnary (bits i.insn 37 6) = true → fRB i.insn = 0)
    (hv : scalarFn (bits i.insn 37 6) (i.x.reg (fRA i.insn)) (i.x.reg (fRB i.insn)) = some v) :
    exec (.opr tile seat) s = .next (s.writeRd i v) := by
  show execOpr tile seat s = _
  unfold execOpr
  rw [onIssue_eq h, State.readyOr_ready hb, if_neg (by tauto), hv]

theorem exec_opi (h : s.Issues tile seat 0x02 i) (hb : i.blocked [fRA i.insn] = false) (hz : bits i.insn 32 10 = 0)
    (hu : scalarUnary (bits i.insn 42 6) = true → bits i.insn 0 32 = 0)
    (hv : scalarFn (bits i.insn 42 6) (i.x.reg (fRA i.insn)) (BitVec.ofInt 64 (signed 32 i.insn)) = some v) :
    exec (.opi tile seat) s = .next (s.writeRd i v) := by
  show execOpi tile seat s = _
  unfold execOpi
  rw [onIssue_eq h, State.readyOr_ready hb, if_neg (by tauto), hv]

theorem exec_lih (h : s.Issues tile seat 0x03 i) (hb : i.blocked [fRD i.insn] = false) (hz : bits i.insn 16 37 = 0) :
    exec (.lih tile seat) s = .next (s.writeRd i (BitVec.ofNat 64 (setBits (i.x.reg (fRD i.insn)).toNat 48 16 i.insn))) := by
  show execLih tile seat s = _
  unfold execLih
  rw [onIssue_eq h, State.readyOr_ready hb, if_neg (by simp [hz])]

theorem exec_li (h : s.Issues tile seat 0x04 i) (hz : bits i.insn 48 5 = 0) :
    exec (.li tile seat) s = .next (s.writeRd i (BitVec.ofInt 64 (signed 48 i.insn))) := by
  show execLi tile seat s = _
  unfold execLi
  rw [onIssue_eq h, if_neg (by simp [hz])]

theorem exec_fop (h : s.Issues tile seat 0x05 i)
    (hb : i.blocked ([fRA i.insn, fRB i.insn] ++ if bits i.insn 37 6 = 0x0D then [fRD i.insn] else []) = false) (hz : bits i.insn 0 37 = 0)
    (hu : fopUnary (bits i.insn 37 6) = true → fRB i.insn = 0)
    (hv : fopFn (bits i.insn 37 6) (i.x.reg (fRA i.insn)) (i.x.reg (fRB i.insn)) (i.x.reg (fRD i.insn)) = some v) :
    exec (.fop tile seat) s = .next (s.writeRd i v) := by
  show execFop tile seat s = _
  unfold execFop
  rw [onIssue_eq h, State.readyOr_ready hb, if_neg (by tauto), hv]

theorem exec_get {n : Nat} {s' : State} (h : s.Issues tile seat 0x09 i) (hz : bits i.insn 8 45 = 0) (hg : s.getSel i (bits i.insn 0 8) = some (n, s')) :
    exec (.get tile seat) s = .next (s'.writeRd i (BitVec.ofNat 64 n)) := by
  show execGet tile seat s = _
  unfold execGet
  rw [onIssue_eq h, if_neg (by simp [hz]), hg]

end

/-- Settles O6: each instruction that passes its checks is `State.writeRd` with its result; GET reads CYCLE as a free value, which no other part of the state shows. -/
theorem scalarResultsAreWritten : Obligations.ScalarResultsAreWritten := by
  unfold Obligations.ScalarResultsAreWritten
  intro s tile seat i v
  refine ⟨fun h hb hz hu hv => ?_, fun h hb hz hu hv => ?_, fun h hb hz => ?_, fun h hz => ?_, fun h hb hz hu hv => ?_, fun n s' h hz hg => ?_⟩
  · exact ⟨_, exec_opr h hb hz hu hv, h.writeRd v⟩
  · exact ⟨_, exec_opi h hb hz hu hv, h.writeRd v⟩
  · exact ⟨_, exec_lih h hb hz, h.writeRd _⟩
  · exact ⟨_, exec_li h hz, h.writeRd _⟩
  · exact ⟨_, exec_fop h hb hz hu hv, h.writeRd v⟩
  · refine ⟨_, exec_get h hz hg, ?_⟩
    obtain ⟨f, rfl⟩ := State.getSel_frame hg
    exact State.Writes.of_free (writeRd_writes (s := { s with free := f }) h.issue h.tile_lt _)

/-! ### Branches and jumps -/

section
variable {s : State} {tile seat pc : Nat} {i : Issue}

theorem State.jump_inside {t : Int} {f : Seat → Seat} (h : i.target t = some pc) : s.jump i t f = s.issued i pc f := by
  rw [State.jump, h]

theorem State.jump_outside {t : Int} {f : Seat → Seat} (h : i.target t = none) : s.jump i t f = s.except i IX_PC 0 (unsigned 64 t) := by
  rw [State.jump, h]

theorem exec_br {taken : Bool} (h : s.Issues tile seat 0x10 i) (hb : i.blocked [bits i.insn 50 5, bits i.insn 45 5] = false) (hz : bits i.insn 16 29 = 0)
    (hc : brCond (bits i.insn 55 3) (i.x.reg (bits i.insn 50 5)) (i.x.reg (bits i.insn 45 5)) = some taken) :
    exec (.br tile seat) s = .next (if taken then s.jump i ((i.pc : Int) + signed 16 i.insn) id else s.issued i (i.pc + 1) id) := by
  show execBr tile seat s = _
  unfold execBr
  rw [onIssue_eq h, State.readyOr_ready hb, if_neg (by simp [hz]), hc]
  cases taken <;> rfl

theorem exec_jal (h : s.Issues tile seat 0x11 i) (hz : bits i.insn 16 37 = 0) :
    exec (.jal tile seat) s =
      .next (s.jump i ((i.pc : Int) + signed 16 i.insn) fun x => x.setReg (fRD i.insn) (BitVec.ofNat 64 (i.pc + 1))) := by
  show execJal tile seat s = _
  unfold execJal
  rw [onIssue_eq h, if_neg (by simp [hz])]

theorem exec_jalr (h : s.Issues tile seat 0x12 i) (hb : i.blocked [fRA i.insn] = false) (hz : bits i.insn 16 32 = 0) :
    exec (.jalr tile seat) s = .next (s.jump i (((i.reg (fRA i.insn) : Int) + signed 16 i.insn) % 4096)
      fun x => x.setReg (fRD i.insn) (BitVec.ofNat 64 (i.pc + 1))) := by
  show execJalr tile seat s = _
  unfold execJalr
  rw [onIssue_eq h, State.readyOr_ready hb, if_neg (by simp [hz])]

end

/-- Settles O7: BR, JAL and JALR that pass their checks are `State.jump`, which issues with the target as the next PC, or raises IX_PC where it lies outside the program. -/
theorem branchesAndJumpsSetThePc : Obligations.BranchesAndJumpsSetThePc := by
  unfold Obligations.BranchesAndJumpsSetThePc
  intro s tile seat pc i
  refine ⟨fun h hb hz hc ht => ?_, fun h hb hz hc => ?_, fun h hz ht => ?_, fun h hz ht => ?_, fun h hb hz ht => ?_⟩
  · refine ⟨_, exec_br h hb hz hc, ?_⟩
    rw [if_pos rfl, State.jump_inside ht]
    exact issued_moves h.issue h.tile_lt pc fun _ => ⟨rfl, rfl⟩
  · exact ⟨_, exec_br h hb hz hc, issued_moves h.issue h.tile_lt _ fun _ => ⟨rfl, rfl⟩⟩
  · refine ⟨_, exec_jal h hz, ?_⟩
    rw [State.jump_inside ht]
    exact issued_writes h.issue h.tile_lt _ _ pc
  · rw [exec_jal h hz, State.jump_outside ht]
  · refine ⟨_, exec_jalr h hb hz, ?_⟩
    rw [State.jump_inside ht]
    exact issued_writes h.issue h.tile_lt _ _ pc

/-! ### Seat control -/

/-- A fold of steps that each change the entry of their own key: every key of the list is changed once, every other entry stays. -/
theorem foldl_read {β γ : Type} (get : β → Nat → γ) (step : β → Nat → β) (f : Nat → γ → γ) (hself : ∀ b n, get (step b n) n = f n (get b n))
    (hother : ∀ b n k, k ≠ n → get (step b n) k = get b k) (l : List Nat) (hl : l.Nodup) (b : β) (k : Nat) :
    get (l.foldl step b) k = if k ∈ l then f k (get b k) else get b k := by
  induction l generalizing b with
  | nil => rfl
  | cons n l ih =>
    obtain ⟨hn, hl⟩ := List.nodup_cons.mp hl
    rw [List.foldl_cons, ih hl]
    by_cases hk : k = n
    · subst hk
      rw [if_neg hn, if_pos (List.mem_cons_self ..), hself]
    · simp only [hother b n k hk, List.mem_cons, hk, false_or]

theorem maskSeats_nodup (mask : Nat) : (maskSeats mask).Nodup := by
  unfold maskSeats
  exact List.nodup_range.filter _

theorem Tile.seat_foldl_setSeat (f : Nat → Seat → Seat) (l : List Nat) (hl : l.Nodup) (t : Tile) (k : Nat) :
    (l.foldl (fun t n => t.setSeat n (f n (t.seat n))) t).seat k = if k ∈ l then f k (t.seat k) else t.seat k :=
  foldl_read Tile.seat _ f (fun t n => Tile.seat_setSeat_self t n _) (fun t _ _ hk => Tile.seat_setSeat_ne t _ hk) l hl t k

section
variable {s : State} {tile seat : Nat} {i : Issue}

theorem State.IssuesFn.moves {opc fn : Nat} (h : s.IssuesFn tile seat opc fn i) (pc : Nat) {f : Seat → Seat} (hf : ∀ x, (f x).regs = x.regs ∧ (f x).pc = x.pc) :
    s.Moves (s.issued i pc f) tile seat pc :=
  issued_moves h.issue h.tile_lt pc hf

/-- The seat of an instruction after it has issued. -/
theorem issued_own {opc fn : Nat} (h : s.IssuesFn tile seat opc fn i) (pc : Nat) (f : Seat → Seat) :
    ((s.issued i pc f).tile tile).seat seat = i.after pc f := by
  obtain ⟨rfl, rfl, -⟩ := issue_eq h.issue
  exact issued_seat s i pc f

/-- Issue alone changes no seat's wait. -/
theorem issued_wait {opc fn : Nat} (h : s.IssuesFn tile seat opc fn i) (pc : Nat) {f : Seat → Seat} (hf : ∀ x, (f x).wait = x.wait) (n : Nat) :
    (((s.issued i pc f).tile tile).seat n).wait = ((s.tile tile).seat n).wait := by
  obtain ⟨rfl, rfl, hx, -⟩ := issue_eq h.issue
  by_cases hn : n = i.seat
  · subst hn
    rw [issued_seat, ← hx]
    exact hf _
  · rw [(issued_only s i pc f h.tile_lt).seats n hn]

theorem exec_nop (h : s.IssuesFn tile seat 0x1A 0 i) (hz : sysRsv i = false) : exec (.nop tile seat) s = .next (s.issued i (i.pc + 1) id) := by
  show execNop tile seat s = _
  unfold execNop
  rw [onIssueFn_eq h, if_neg (by simp [hz])]

theorem exec_bkpt (h : s.IssuesFn tile seat 0x1A 3 i) (hz : sysRsv i = false) :
    exec (.bkpt tile seat) s = .next (if s.fld tile CC_DBG_CTRL_EN = 1 then s.issued i (i.pc + 1) (fun x => { x with st := .halted })
      else s.issued i (i.pc + 1) id) := by
  show execBkpt tile seat s = _
  unfold execBkpt
  rw [onIssueFn_eq h, if_neg (by simp [hz])]

theorem exec_swait (h : s.IssuesFn tile seat 0x18 0 i) (hb : i.blocked [bits i.insn 47 5] = false) (hz : bits i.insn 0 47 = 0) :
    exec (.swait tile seat) s = .next (if i.reg (bits i.insn 47 5) % 2 ^ 32 ≤ i.x.ctr (bits i.insn 52 2) then s.issued i (i.pc + 1) id
      else s.issued i (i.pc + 1) fun x => { x with st := .waitLocal, wait := .swait (bits i.insn 52 2) (i.reg (bits i.insn 47 5) % 2 ^ 32) }) := by
  show execSwait tile seat s = _
  unfold execSwait
  rw [onIssueFn_eq h]
  dsimp only
  rw [State.readyOr_ready hb, if_neg (by simp [hz])]

theorem exec_sbar (h : s.IssuesFn tile seat 0x18 1 i) (hz : bits i.insn 8 46 = 0) (hs : bitAt (bits i.insn 0 8) seat = true)
    (ho : ∀ n ∈ (maskSeats (bits i.insn 0 8)).filter (fun n => n != seat), ((s.tile tile).seat n).st ≠ .idle ∧ ((s.tile tile).seat n).st ≠ .done)
    (hm : ∀ n < 8, ∀ m, ((s.tile tile).seat n).wait = .sbar m → bitAt m seat = true → m = bits i.insn 0 8) :
    exec (.sbar tile seat) s = .next (
      if ((maskSeats (bits i.insn 0 8)).filter (fun n => n != seat)).all (fun n => ((s.tile tile).seat n).wait == .sbar (bits i.insn 0 8)) then
        (s.issued i (i.pc + 1) id).setTile tile
          (((maskSeats (bits i.insn 0 8)).filter (fun n => n != seat)).foldl (fun t n => t.setSeat n (t.seat n).goOn) ((s.issued i (i.pc + 1) id).tile tile))
      else s.issued i (i.pc + 1) fun x => { x with st := .waitLocal, wait := .sbar (bits i.insn 0 8) }) := by
  have hends : ((maskSeats (bits i.insn 0 8)).filter (fun n => n != seat)).any
      (fun n => ((s.tile tile).seat n).st == .idle || ((s.tile tile).seat n).st == .done) = false := by
    rw [List.any_eq_false]
    intro n hn
    simpa using ho n hn
  show execSbar tile seat s = _
  unfold execSbar
  rw [onIssueFn_eq h]
  dsimp only
  rw [if_neg (by simp [hz]), if_neg]
  rw [hs, hends]
  simp only [Bool.not_true, Bool.false_or, List.any_eq_true, List.mem_range, not_exists, not_and]
  intro n hn
  split
  · next m hw => simpa using hm n hn m hw
  · simp

theorem exec_tend (h : s.IssuesFn tile seat 0x1A 1 i) (hz : sysRsv i = false)
    (hm : ∀ n < 8, ∀ m, ((s.tile tile).seat n).wait = .sbar m → bitAt m seat = false) :
    exec (.tend tile seat) s = .next (s.issued i (i.pc + 1) fun x => { x with st := .done }) := by
  show execTend tile seat s = _
  unfold execTend
  rw [onIssueFn_eq h, if_neg (by simp [hz])]
  dsimp only
  split
  · rfl
  · next n more hl =>
    obtain ⟨hn, hw⟩ := List.mem_filter.mp (hl ▸ List.mem_cons_self : n ∈ List.filter _ _)
    rw [issued_wait h (i.pc + 1) (f := fun x => { x with st := .done }) (fun _ => rfl) n] at hw
    split at hw
    · next m hwm => simp [hm n (List.mem_range.mp hn) m hwm] at hw
    · simp at hw

end

/-- Settles O8: each instruction is an issue with its own change of the seat; the last seat at a barrier lets every other seat of the mask go on. -/
theorem seatControlInstructions : Obligations.SeatControlInstructions := by
  unfold Obligations.SeatControlInstructions
  intro s tile seat i
  refine ⟨fun h hz => ?_, fun h hz he => ?_, fun h hz he => ?_, fun h hb hz hc => ?_, fun h hb hz hc => ?_, fun h hz hs ho hm hw => ?_,
    fun h hz hs hm hw => ?_, fun h hz hm => ?_⟩
  · exact ⟨_, exec_nop h hz, h.moves _ fun _ => ⟨rfl, rfl⟩⟩
  · refine ⟨_, exec_bkpt h hz, ?_⟩
    rw [if_neg he]
    exact h.moves _ fun _ => ⟨rfl, rfl⟩
  · refine ⟨_, exec_bkpt h hz, ?_⟩
    rw [if_pos he, issued_own h]
    exact ⟨h.moves _ fun _ => ⟨rfl, rfl⟩, rfl⟩
  · refine ⟨_, exec_swait h hb hz, ?_⟩
    rw [if_pos hc]
    exact h.moves _ fun _ => ⟨rfl, rfl⟩
  · refine ⟨_, exec_swait h hb hz, ?_⟩
    rw [if_neg (by omega), issued_own h]
    exact ⟨h.moves _ fun _ => ⟨rfl, rfl⟩, rfl, rfl⟩
  · refine ⟨_, exec_sbar h hz hs ho hm, ?_⟩
    obtain ⟨n, hn, hne⟩ := hw
    rw [if_neg fun hall => hne (by simpa using List.all_eq_true.mp hall n hn), issued_own h]
    exact ⟨h.moves _ fun _ => ⟨rfl, rfl⟩, rfl, rfl⟩
  · refine ⟨_, exec_sbar h hz hs (fun n hn => by simp [(hw n hn).1]) hm, ?_⟩
    rw [if_pos (List.all_eq_true.mpr fun n hn => by simpa using (hw n hn).2)]
    obtain ⟨hregs, hpc, honly⟩ := h.moves (i.pc + 1) (f := id) fun _ => ⟨rfl, rfl⟩
    have hread := Tile.seat_foldl_setSeat (fun _ x => x.goOn) _ ((maskSeats_nodup (bits i.insn 0 8)).filter fun n => n != seat)
      ((s.issued i (i.pc + 1) id).tile tile)
    have hown : seat ∉ (maskSeats (bits i.insn 0 8)).filter (fun n => n != seat) := by simp
    refine ⟨?_, fun n hn => ?_, fun r => ?_, ?_⟩
    · rw [State.spc, State.tile_setTile_self, hread, if_neg hown]
      exact hpc
    · have hne : n ≠ seat := by simpa using (List.mem_filter.mp hn).2
      rw [State.tile_setTile_self, hread, if_pos hn, honly.seats n hne]
    · rw [State.sreg, State.tile_setTile_self, hread, if_neg hown]
      exact hregs r
    · rw [State.setTile_mem]
      exact honly.mem
  · refine ⟨_, exec_tend h hz hm, ?_⟩
    rw [issued_own h]
    exact ⟨h.moves _ fun _ => ⟨rfl, rfl⟩, rfl⟩

end Sys2Proof.Machine
end

section
/-! LD and ST (R194–R196): what joins the vector queue, what LD_COMPLETE writes to RD, which bytes of the sheet store an ST writes (O10). -/
namespace Sys2Proof.Machine

/-! ### Bytes at an address -/

@[simp] theorem leBytes_length (n v : Nat) : (leBytes n v).length = n := by
  induction n generalizing v with
  | zero => rfl
  | succ n ih => rw [leBytes, List.length_cons, ih]

theorem leBytes_getD {n k : Nat} (hk : k < n) (v : Nat) : (leBytes n v).getD k 0 = BitVec.ofNat 8 (v / 256 ^ k) := by
  induction n generalizing k v with
  | zero => omega
  | succ n ih =>
    cases k with
    | zero => simp [leBytes]
    | succ k => rw [leBytes, List.getD_cons_succ, ih (by omega), Nat.div_div_eq_div_mul, Nat.pow_succ']

/-- Bytes put one after another from `a + k` on: each address in their range reads as its byte, every other as before. -/
theorem get_foldl_zipIdx (bs : List Byte) (a k x : Nat) (m : List Host.Cell) :
    Sparse.get (0 : Byte) (((bs.zipIdx k).map (fun b => (a + b.2, b.1))).foldl (fun m w => Sparse.set 0 m w.1 w.2) m) x =
      if a + k ≤ x ∧ x < a + k + bs.length then bs.getD (x - (a + k)) 0 else Sparse.get 0 m x := by
  induction bs generalizing k m with
  | nil => rw [if_neg (by simp)]; rfl
  | cons b bs ih =>
    rw [List.zipIdx_cons, List.map_cons, List.foldl_cons, ih, List.length_cons]
    by_cases hx : x = a + k
    · subst hx
      rw [if_neg (by omega), if_pos (by omega), Nat.sub_self, List.getD_cons_zero]
      exact Sparse.get_set_self
    · rw [Sparse.get_set_ne hx]
      by_cases hr : a + (k + 1) ≤ x ∧ x < a + (k + 1) + bs.length
      · rw [if_pos hr, if_pos (by omega), show x - (a + k) = x - (a + (k + 1)) + 1 by omega, List.getD_cons_succ]
      · rw [if_neg hr, if_neg (by omega)]

theorem get_foldl_bytes (bs : List Byte) (a x : Nat) (m : List Host.Cell) :
    Sparse.get (0 : Byte) ((bs.zipIdx.map (fun b => (a + b.2, b.1))).foldl (fun m w => Sparse.set 0 m w.1 w.2) m) x =
      if a ≤ x ∧ x < a + bs.length then bs.getD (x - a) 0 else Sparse.get 0 m x :=
  get_foldl_zipIdx bs a 0 x m

/-! ### Writes into the sheet store -/

/-- With no undecodable word a write of bytes is made as it is (R72). -/
theorem Tile.write_clean {t : Tile} (h : t.badWords = []) (ws : List (Nat × Byte)) : t.write ws = (t.putBytes ws, false) := by
  simp [Tile.write, Tile.putBytes, h]

theorem State.sheetWrite_clean {s : State} {tile : Nat} (h : (s.tile tile).badWords = []) (ws : List (Nat × Byte)) :
    s.sheetWrite tile ws = s.setTile tile ((s.tile tile).putBytes ws) := by
  rw [State.sheetWrite, Tile.write_clean h, if_neg (by simp)]

/-- No store is made while none stands at the head of the vector queue. -/
theorem State.drainStores_idle {s : State} {tile : Nat} (h : ∀ v l, (s.tile tile).vq = v :: l → opcOf v.insn ≠ 0x07) (n : Nat) :
    s.drainStores tile n = s := by
  cases n with
  | zero => rfl
  | succ n =>
    rw [State.drainStores]
    split
    · next v l hv => rw [if_neg fun hc => h v l hv hc.1]
    · rfl

/-- The bytes that an ST writes (R194). -/
def VecCmd.storeOut (v : VecCmd) : List (Nat × Byte) :=
  (leBytes (2 ^ bits v.insn 46 2) (wordAt v.words 1)).zipIdx.map (fun b => (wordAt v.words 0 + b.2, b.1))

/-- An ST alone in the vector queue, with nothing of the tile before it, is made at once. -/
theorem State.drainStores_one {s : State} {tile : Nat} {v : VecCmd} (hv : (s.tile tile).vq = [v]) (hop : opcOf v.insn = 0x07)
    (ha : (s.tile tile).arrPending = []) (hx : (s.tile tile).xfers = []) (hb : (s.tile tile).badWords = []) (n : Nat) :
    s.drainStores tile (n + 1) = (s.setTile tile { (s.tile tile) with vq := [] }).setTile tile
      (({ (s.tile tile) with vq := [] } : Tile).putBytes v.storeOut) := by
  have hover : s.overtakes tile (s.provOf tile) v.seq (v.spans s (s.provOf tile)) = false := by
    simp [State.overtakes, ha, hx, hv]
  rw [State.drainStores, hv]
  dsimp only
  rw [if_pos ⟨hop, by rw [hover]; rfl⟩, State.doStore, State.sheetWrite_clean (by rw [State.tile_setTile_self]; exact hb), State.tile_setTile_self]
  apply State.drainStores_idle
  rw [State.tile_setTile_self]
  intro w l hw
  exact nomatch hw

/-! ### LD -/

section
variable {s : State} {tile seat : Nat} {i : Issue}

theorem firstExc_ldstChecks_none {insn a : Nat} (ha : a % 2 ^ bits insn 46 2 = 0) (hr : a + 2 ^ bits insn 46 2 ≤ 0x180000) :
    firstExc (ldstChecks insn a) = none := by
  have : ¬ sheetSize < a + 2 ^ bits insn 46 2 := by unfold sheetSize; omega
  simp [ldstChecks, firstExc, ha, this]

theorem exec_ld (h : s.Issues tile seat 0x06 i) (hq : (s.tile tile).vq.length < 8) (hb : i.blocked [fRA i.insn] = false) (hrsv : bits i.insn 21 24 = 0)
    (hext : ¬ (bits i.insn 46 2 = 3 ∧ bitAt i.insn 45 = true)) (hc : firstExc (ldstChecks i.insn (ldAddr (i.reg (fRA i.insn)) i.insn)) = none) :
    exec (.ld tile seat) s = .next (s.vecIssue i [ldAddr (i.reg (fRA i.insn)) i.insn] false (some (fRD i.insn))) := by
  obtain rfl := h.tile_eq
  show execLd i.tile seat s = _
  unfold execLd
  rw [onIssue_eq h, State.vecOr_ready hb hq, if_neg (not_or.mpr ⟨not_not.mpr hrsv, hext⟩), hc]

/-- The register that a queued load writes waits for it (R186). -/
theorem vecIssue_busy (h : s.issue tile seat = some i) (ws : List Nat) (site : Bool) {rd : Nat} (hrd : rd ≠ 0) :
    Sparse.get none (((s.vecIssue i ws site (some rd)).tile tile).seat seat).busy rd = some (s.tile tile).seq := by
  obtain ⟨rfl, rfl, -⟩ := issue_eq h
  rw [State.vecIssue]
  dsimp only
  rw [issued_seat]
  simp only [Issue.after, Seat.await, if_neg hrd]
  exact Sparse.get_set_self

/-- The head of the vector queue is a load that may complete. -/
theorem exec_ldComplete {v : VecCmd} {rest : List VecCmd} (ht : tile < 4224) (hv : (s.tile tile).vq = v :: rest) (hop : opcOf v.insn = 0x06)
    (ho : s.overtakes tile (s.provOf tile) v.seq (v.spans s (s.provOf tile)) = false)
    (hb : (s.tile tile).readBad (wordAt v.words 0) (2 ^ bits v.insn 46 2) = false) (hr : ∀ w ∈ rest, opcOf w.insn ≠ 0x07) :
    exec (.ldComplete tile) s = .next (s.setTile tile (({ (s.tile tile) with vq := rest } : Tile).setSeat v.seat
      (((s.tile tile).seat v.seat).arrive (fRD v.insn) v.seq ((s.tile tile).loadVal v)))) := by
  show execLdComplete tile s = _
  rw [execLdComplete, onTile, if_pos ht]
  dsimp only
  rw [hv]
  dsimp only
  rw [if_neg (by rw [hop, ho]; simp), hb, if_neg (by simp), State.drainStores_idle]
  · rfl
  · rw [State.tile_setTile_self]
    rintro w l hw
    have hw' : rest = w :: l := hw
    exact hr w (hw' ▸ List.mem_cons_self)

/-- A value that arrives for a register is written where the register waits for it. -/
theorem Seat.arrive_eq (x : Seat) (rd seq : Nat) (v : W64) : ∃ y : Seat, y.regs = x.regs ∧ y.talDone = x.talDone ∧
    x.arrive rd seq v = if Sparse.get none x.busy rd = some seq then y.setReg rd v else y := by
  unfold Seat.arrive
  by_cases hst : x.st = .stalled
  · simp only [if_pos hst]
    exact ⟨{ x with st := .ready, due := x.due.erase (rd, seq) }, rfl, rfl, rfl⟩
  · simp only [if_neg hst]
    exact ⟨{ x with due := x.due.erase (rd, seq) }, rfl, rfl, rfl⟩

theorem Seat.reg_arrive_self {x : Seat} {rd seq : Nat} (h : Sparse.get none x.busy rd = some seq) (hrd : rd ≠ 0) (v : W64) : (x.arrive rd seq v).reg rd = v := by
  obtain ⟨y, -, -, hy⟩ := x.arrive_eq rd seq v
  rw [hy, if_pos h, Seat.reg_setReg_self, if_neg hrd]

theorem Seat.reg_arrive_ne (x : Seat) {rd seq r : Nat} (hr : r ≠ rd) (v : W64) : (x.arrive rd seq v).reg r = x.reg r := by
  obtain ⟨y, hregs, -, hy⟩ := x.arrive_eq rd seq v
  have hyr : y.reg r = x.reg r := by rw [Seat.reg, Seat.reg, hregs]
  rw [hy]
  split
  · rw [Seat.reg_setReg_ne _ _ hr, hyr]
  · exact hyr

end

/-! ### ST -/

section
variable {s : State} {tile seat : Nat} {i : Issue}

theorem exec_st (h : s.Issues tile seat 0x07 i) (hq : (s.tile tile).vq.length < 8) (hb : i.blocked [fRA i.insn, fRD i.insn] = false) (hrsv : bits i.insn 21 25 = 0)
    (hc : firstExc (ldstChecks i.insn (ldAddr (i.reg (fRA i.insn)) i.insn)) = none) :
    exec (.st tile seat) s = .next ((s.vecIssue i [ldAddr (i.reg (fRA i.insn)) i.insn, i.reg (fRD i.insn)] false none).drainStores tile 8) := by
  obtain rfl := h.tile_eq
  show execSt i.tile seat s = _
  unfold execSt
  rw [onIssue_eq h, State.vecOr_ready hb hq, if_neg (not_not.mpr hrsv), hc]

/-- Issue changes no queue of the tile, and no mark of its words. -/
theorem issued_queues (s : State) (i : Issue) (x : Tile) (pc : Nat) (f : Seat → Seat) :
    (((s.setTile i.tile x).issued i pc f).tile i.tile).vq = x.vq ∧ (((s.setTile i.tile x).issued i pc f).tile i.tile).arrPending = x.arrPending ∧
      (((s.setTile i.tile x).issued i pc f).tile i.tile).xfers = x.xfers ∧ (((s.setTile i.tile x).issued i pc f).tile i.tile).badWords = x.badWords := by
  obtain ⟨g, l, hg⟩ := issued_tile (s.setTile i.tile x) i pc f
  rw [hg, State.tile_setTile_self]
  exact ⟨rfl, rfl, rfl, rfl⟩

theorem vecIssue_queues (h : s.issue tile seat = some i) (ws : List Nat) (site : Bool) (busy : Option Nat) :
    ((s.vecIssue i ws site busy).tile tile).vq = (s.tile tile).vq ++ [⟨seat, (s.tile tile).seq, i.insn, ws, siteWord seat i.x.site⟩] ∧
      ((s.vecIssue i ws site busy).tile tile).arrPending = (s.tile tile).arrPending ∧
      ((s.vecIssue i ws site busy).tile tile).xfers = (s.tile tile).xfers ∧
      ((s.vecIssue i ws site busy).tile tile).badWords = (s.tile tile).badWords := by
  obtain ⟨rfl, rfl, -⟩ := issue_eq h
  rw [State.vecIssue]
  exact issued_queues s i _ (i.pc + 1) _

end

/-- Settles O10: an LD is `State.vecIssue` with RD waiting; LD_COMPLETE is `Seat.arrive` with the value loaded; an ST alone in its tile's queues is
`State.vecIssue` and then `Tile.putBytes` of its bytes. -/
theorem loadsAndStoresReachTheSheetStore : Obligations.LoadsAndStoresReachTheSheetStore := by
  unfold Obligations.LoadsAndStoresReachTheSheetStore
  rintro s tile seat _ _ i rfl rfl ha hn hq
  have hc := firstExc_ldstChecks_none ha hn
  refine ⟨fun h hb hrsv hext => ?_, fun h hb hrsv hvq harr hxf hbad => ?_, fun v rest ht hv hop ho hb hr hbusy hrd => ?_⟩
  · exact ⟨_, exec_ld h hq hb hrsv hext hc, vecIssue_joins h.issue h.tile_lt .., vecIssue_busy h.issue _ _⟩
  · obtain ⟨hvq', harr', hxf', hbad'⟩ := vecIssue_queues h.issue [ldAddr (i.reg (fRA i.insn)) i.insn, i.reg (fRD i.insn)] false none
    obtain ⟨hq', -, -⟩ := vecIssue_joins h.issue h.tile_lt [ldAddr (i.reg (fRA i.insn)) i.insn, i.reg (fRD i.insn)] false none
    rw [hvq, List.nil_append] at hvq'
    refine ⟨_, exec_st h hq hb hrsv hc, ?_⟩
    obtain ⟨-, -, -, hop⟩ := h
    rw [State.drainStores_one hvq' hop (harr'.trans harr) (hxf'.trans hxf) (hbad'.trans hbad)]
    have hbyte := fun x => get_foldl_bytes (leBytes (2 ^ bits i.insn 46 2) (i.reg (fRD i.insn))) (ldAddr (i.reg (fRA i.insn)) i.insn) x (s.tile tile).sheet
    refine ⟨?_, fun r => ?_, ?_, fun k => ?_, fun k hk => ?_⟩
    · rw [State.spc, State.tile_setTile_self]
      exact hq'.pc
    · rw [State.sreg, State.tile_setTile_self]
      exact hq'.regs r
    · rw [State.setTile_mem, State.setTile_mem]
      exact hq'.mem
    · rw [State.tile_setTile_self]
      simp only [Tile.byte, Tile.putBytes, hq'.sheet, VecCmd.storeOut]
      rw [wordAt, wordAt, List.getD_cons_zero, List.getD_cons_succ, List.getD_cons_zero, hbyte, leBytes_length]
      by_cases hk : k < 2 ^ bits i.insn 46 2
      · rw [if_pos (by omega), if_pos hk, Nat.add_sub_cancel_left, leBytes_getD hk]
      · rw [if_neg (by omega), if_neg hk]
    · rw [State.tile_setTile_self]
      simp only [Tile.byte, Tile.putBytes, hq'.sheet, VecCmd.storeOut]
      rw [wordAt, wordAt, List.getD_cons_zero, List.getD_cons_succ, List.getD_cons_zero, hbyte, if_neg (by omega)]
  · refine ⟨_, exec_ldComplete ht hv hop ho hb hr, ?_, ?_, fun r hr => ?_, State.setTile_mem ..⟩
    · rw [State.sreg, State.tile_setTile_self, Tile.seat_setSeat_self, Seat.reg_arrive_self hbusy hrd]
    · rw [State.tile_setTile_self]
      rfl
    · rw [State.sreg, State.tile_setTile_self, Tile.seat_setSeat_self, Seat.reg_arrive_ne _ hr]
      rfl

end Sys2Proof.Machine
end

section
/-! CSR instructions (O11), GSYNC (O12), exceptions (O13) and debug control (O14) of seats (R181–R212). -/
namespace Sys2Proof.Machine

/-! ### CSR instructions -/

section
variable {s : State} {tile seat : Nat} {i : Issue} {d : RegDef} {r : RegAt}

/-- A CSR instruction that need not wait: its write, then the old value to RD (R203, R204). -/
theorem csrAccess_eq {fn : Nat} (h : s.Issues tile seat 0x08 i) (hb : i.blocked [fRA i.insn] = false) (hz : bits i.insn 16 30 = 0)
    (hr : csrReg tile (bits i.insn 0 16) = some (d, r)) (hbusy : (s.tile tile).seatBusy seat = false) (hfn : bits i.insn 46 2 = fn)
    (f : Nat → Nat → Option Nat) : csrAccess tile seat fn s f =
      .next (((f (d.show (s.liveWord r)) (i.reg (fRA i.insn))).elim s fun v => s.csrPut r (d.size / 8) (v % 2 ^ d.size)).spend.writeRd i
        (BitVec.ofNat 64 (d.show (s.liveWord r)))) := by
  obtain ⟨ht, hs, hi, hop⟩ := h
  rw [csrAccess, if_pos ⟨ht, hs⟩, hi]
  dsimp only
  rw [if_neg (by simp [hop, hfn]), State.readyOr_ready hb, if_neg (by simp [hz]), hr]
  dsimp only
  rw [if_neg (by simp [hbusy])]
  cases f (d.show (s.liveWord r)) (i.reg (fRA i.insn)) <;> rfl

/-- A register that seats may not write takes nothing. -/
theorem State.csrPut_readOnly (h : r.seatWrites = false) (n v : Nat) : s.csrPut r n v = s := by
  rw [State.csrPut, h]
  rfl

end

/-- Settles O11: the four CSR instructions are one access with their own new value; the read spends a free value and changes nothing else. -/
theorem csrInstructionsAccessTheTilesRegisters : Obligations.CsrInstructionsAccessTheTilesRegisters := by
  unfold Obligations.CsrInstructionsAccessTheTilesRegisters
  rintro s tile seat _ i d r h hb hz hr rfl hbusy
  refine ⟨fun hfn => ?_, fun hfn => ?_, fun hfn => ?_, fun hfn => ?_, fun hw v => State.csrPut_readOnly hw _ v⟩
  · exact ⟨_, csrAccess_eq h hb hz hr hbusy hfn fun _ _ => none, State.Writes.of_free (writeRd_writes (s := s.spend) h.issue h.tile_lt _)⟩
  · exact csrAccess_eq h hb hz hr hbusy hfn fun _ a => some a
  · exact csrAccess_eq h hb hz hr hbusy hfn fun o a => some (o ||| a)
  · exact csrAccess_eq h hb hz hr hbusy hfn fun o a => some (o - (o &&& a))

/-! ### GSYNC -/

section
variable {s : State} {tile seat want : Nat} {bcast : Bool} {i : Issue}

/-- ARRIVE's trick joins its barrier or broadcast where that has room for it (R206, R208). -/
theorem exec_arrive (hg : (s.img i.c.prov).gsync (bits i.insn 0 12) = some (bcast, want)) (h : s.IssuesFn tile seat 0x19 0 i)
    (hb : i.blocked [bits i.insn 44 5] = false) (hz : bits i.insn 12 32 = 0) (hz' : bits i.insn 49 5 = 0)
    (hra : bcast = true ∨ bits i.insn 44 5 = 0) (hnew : ((s.prov i.c.prov).gsyncOf i.inst bcast).tricks.contains i.c.trick = false)
    (hroom : ((s.prov i.c.prov).gsyncOf i.inst bcast).tricks.length < want) {carries : Bool}
    (hcar : (bcast && (((s.prov i.c.prov).gsyncOf i.inst bcast).tricks.length + 1 == want) && s.rank i.c.prov == 0) = carries)
    (hal : carries = true → i.reg (bits i.insn 44 5) % 64 = 0 ∧ i.reg (bits i.insn 44 5) ≤ 0x17FFC0 ∧
      s.overtakes tile i.c.prov (s.tile tile).seq { sr := [⟨i.reg (bits i.insn 44 5), i.reg (bits i.insn 44 5) + 64⟩] } = false ∧
      (s.tile tile).readBad (i.reg (bits i.insn 44 5)) 64 = false) :
    exec (.arrive tile seat) s = .next ((s.issued i (i.pc + 1) (fun x => x)).gsyncUp i.c.prov
      { (s.prov i.c.prov).gsyncOf i.inst bcast with
        tricks := ((s.prov i.c.prov).gsyncOf i.inst bcast).tricks ++ [i.c.trick]
        own := ((s.prov i.c.prov).gsyncOf i.inst bcast).tricks.length + 1 == want
        payload := if carries then (s.tile tile).bytes (i.reg (bits i.insn 44 5)) 64 else ((s.prov i.c.prov).gsyncOf i.inst bcast).payload }) := by
  have hra' : (!bcast && bits i.insn 44 5 != 0) = false := by
    rcases hra with hra | hra <;> simp [hra]
  show execArrive tile seat s = _
  unfold execArrive
  rw [onIssueFn_eq h]
  dsimp only
  rw [State.readyOr_ready hb, if_neg (by simp [hz, hz']), hg]
  dsimp only
  rw [hra', if_neg (by decide), if_neg (by rw [hnew]; decide), if_neg (by omega), hcar]
  cases carries with
  | false => rfl
  | true =>
    obtain ⟨hmod, hle, hover, hbad⟩ := hal rfl
    rw [if_neg (by simp [hmod]; omega), hover, if_neg (by decide), hbad, if_neg (by decide)]

theorem exec_wait (hg : (s.img i.c.prov).gsync (bits i.insn 0 12) = some (bcast, want)) (h : s.IssuesFn tile seat 0x19 1 i) (hz : bits i.insn 12 42 = 0) :
    exec (.wait tile seat) s = .next (if ((s.prov i.c.prov).gsyncOf i.inst bcast).released then s.issued i (i.pc + 1) (fun x => x)
      else s.issued i (i.pc + 1) (fun x => { x with st := .waitGlobal, wait := .gsync (bits i.insn 0 12) })) := by
  show execWait tile seat s = _
  unfold execWait
  rw [onIssueFn_eq h]
  dsimp only
  rw [if_neg (by simp [hz]), hg]

theorem exec_test (hg : (s.img i.c.prov).gsync (bits i.insn 0 12) = some (bcast, want)) (h : s.IssuesFn tile seat 0x19 2 i) (hz : bits i.insn 12 37 = 0) :
    exec (.test tile seat) s = .next (s.issued i (i.pc + 1)
      (fun x => x.setReg (bits i.insn 49 5) (if ((s.prov i.c.prov).gsyncOf i.inst bcast).released then 1 else 0))) := by
  show execTest tile seat s = _
  unfold execTest
  rw [onIssueFn_eq h]
  dsimp only
  rw [if_neg (by simp [hz]), hg]

theorem exec_pload (hg : (s.img i.c.prov).gsync (bits i.insn 0 12) = some (true, want)) (h : s.IssuesFn tile seat 0x19 3 i) (hz : bits i.insn 12 29 = 0)
    (hz' : bits i.insn 44 5 = 0) (hrel : ((s.prov i.c.prov).gsyncOf i.inst true).released = true) :
    exec (.pload tile seat) s = .next (s.issued i (i.pc + 1) (fun x => x.setReg (bits i.insn 49 5)
      (BitVec.ofNat 64 (leAt ((s.prov i.c.prov).gsyncOf i.inst true).payload (8 * bits i.insn 41 3) 8)))) := by
  show execPload tile seat s = _
  unfold execPload
  rw [onIssueFn_eq h]
  dsimp only
  rw [if_neg (by simp [hz, hz']), hg]
  dsimp only
  rw [if_pos hrel]

end

/-- Settles O12: what an ARRIVE leaves of its barrier or broadcast is `State.gsyncUp`'s; WAIT, TEST and PLOAD are issues that read whether it is released. -/
theorem globalSynchronisation : Obligations.GlobalSynchronisation := by
  unfold Obligations.GlobalSynchronisation
  rintro s tile seat want bcast i _ hg rfl
  refine ⟨fun h hb hz hz' hra hnew hroom hcar => ?_, fun h hb hz hz' hbc hrank hnew hlast hmod hle hover hbad => ?_, fun h hz hrel => ?_,
    fun h hz hrel => ?_, fun h hz => ?_, fun h hz hz' hbc hrel => ?_⟩
  · refine exec_arrive (carries := false) hg h hb hz hz' hra hnew hroom ?_ fun hc => nomatch hc
    rcases hcar with hc | hc | hc <;> simp [hc]
  · subst hbc
    rw [exec_arrive (carries := true) hg h hb hz hz' (.inl rfl) hnew (by omega) (by simp [hlast, hrank]) fun _ => ⟨hmod, hle, hover, hbad⟩]
    simp [hlast]
  · refine ⟨_, exec_wait hg h hz, ?_⟩
    rw [if_pos hrel]
    exact h.moves _ fun _ => ⟨rfl, rfl⟩
  · refine ⟨_, exec_wait hg h hz, ?_⟩
    rw [if_neg (by simp [hrel]), issued_own h]
    exact ⟨h.moves _ fun _ => ⟨rfl, rfl⟩, rfl, rfl⟩
  · exact ⟨_, exec_test hg h hz, issued_writes h.issue h.tile_lt ..⟩
  · subst hbc
    exact ⟨_, exec_pload hg h hz hz' hrel, issued_writes h.issue h.tile_lt ..⟩

/-! ### Exceptions -/

section
variable {s : State} {tile seat : Nat} {i : Issue} {c : TrickCtx}

theorem exec_trap (h : s.IssuesFn tile seat 0x1A 2 i) (hz : bits i.insn 16 38 = 0) :
    exec (.trap tile seat) s = .next (s.except i IX_TRAP (bits i.insn 0 16)) := by
  show execTrap tile seat s = _
  unfold execTrap
  rw [onIssueFn_eq h, if_neg (by simp [hz])]

theorem exec_reservedOpcodeIssue (h : s.Issues tile seat (opcOf i.insn) i) (hr : opReserved i.insn = true) :
    exec (.reservedOpcodeIssue tile seat) s = .next (s.except i IX_ILLEGAL) := by
  obtain ⟨ht, hs, hi, -⟩ := h
  show execReservedOpcodeIssue tile seat s = _
  rw [execReservedOpcodeIssue, if_pos ⟨ht, hs⟩, hi]
  dsimp only
  rw [if_pos hr]

theorem exec_seatRunOff (ht : tile < 4224) (hs : seat < 8) (hc : (s.tile tile).trick = some c)
    (hm : s.mayIssue tile seat ((s.tile tile).seat seat) = true) (hpc : s.spc tile seat = c.last + 1) :
    exec (.seatRunOff tile seat) s =
      .next (s.trap tile seat c.last (Sparse.get (0 : W64) (s.tile tile).prog c.last).toNat false ⟨IX_PC, 0, c.last + 1⟩) := by
  show execSeatRunOff tile seat s = _
  rw [execSeatRunOff, if_pos ⟨ht, hs⟩]
  dsimp only
  rw [hc]
  dsimp only
  rw [if_pos ⟨hm, hpc⟩]

/-- The seats of a tile that its trick still uses. -/
def Tile.active (t : Tile) : List Nat := (List.range 8).filter fun n => (t.seat n).st != .idle && (t.seat n).st != .done

/-- The first active seat is the lowest one. -/
theorem Tile.active_head {t : Tile} (hs : seat < 8) (hlow : ∀ n < seat, (t.seat n).st = .idle ∨ (t.seat n).st = .done)
    (hi : (t.seat seat).st ≠ .idle) (hd : (t.seat seat).st ≠ .done) : ∃ l, t.active = seat :: l := by
  have hsplit : List.range 8 = List.range seat ++ (List.range (8 - seat)).map (seat + ·) := by
    rw [← List.range_add]
    congr 1
    omega
  obtain ⟨m, hm⟩ : ∃ m, 8 - seat = m + 1 := ⟨7 - seat, by omega⟩
  rw [Tile.active, hsplit, List.filter_append, List.filter_eq_nil_iff.mpr, List.nil_append, hm, List.range_succ_eq_map, List.map_cons, Nat.add_zero,
    List.filter_cons_of_pos]
  · exact ⟨_, rfl⟩
  · simp [hi, hd]
  · intro n hn
    rcases hlow n (List.mem_range.mp hn) with h | h <;> simp [h]

/-- A tile whose active seats all wait locally, with nothing under way that could wake one (R205). -/
theorem exec_deadlockDetected {l : List Nat} (ht : tile < 4224) (hc : (s.tile tile).trick = some c) (hact : (s.tile tile).active = seat :: l)
    (hall : ∀ n ∈ (s.tile tile).active, ((s.tile tile).seat n).st = .waitLocal) (haq : (s.tile tile).aq = []) (hfly : (s.tile tile).fly = [])
    (hvq : (s.tile tile).vq = []) (hc0 : (s.tile tile).tc0 = []) (hc1 : (s.tile tile).tc1 = []) (htal : ∀ e ∈ s.talons, ∀ w ∈ e.2.waiters, w.tile ≠ tile) :
    exec (.deadlockDetected tile) s = .next (s.trap tile seat (s.spc tile seat - 1)
      (Sparse.get (0 : W64) (s.tile tile).prog (s.spc tile seat - 1)).toNat false ⟨IX_DEADLOCK, 0, 0⟩) := by
  have htal' : s.talons.any (fun e => e.2.waiters.any fun w => w.tile == tile) = false := by
    simp only [List.any_eq_false, List.any_eq_true, not_exists, not_and, beq_iff_eq]
    exact htal
  have hall' : (seat :: l).all (fun m => ((s.tile tile).seat m).st == .waitLocal) = true := by
    rw [List.all_eq_true]
    intro n hn
    simp [hall n (hact ▸ hn)]
  show execDeadlockDetected tile s = _
  rw [execDeadlockDetected, onTile, if_pos ht]
  dsimp only
  rw [show (List.range 8).filter (fun n => ((s.tile tile).seat n).st != .idle && ((s.tile tile).seat n).st != .done) = seat :: l from hact, hc]
  dsimp only
  rw [hall', haq, hfly, hvq, hc0, hc1, htal', if_pos (by decide)]
  rfl

end

/-- Settles O13: each is the trap of R181's table with its own code; a deadlock is raised at the lowest active seat. -/
theorem exceptionsAreRaised : Obligations.ExceptionsAreRaised := by
  unfold Obligations.ExceptionsAreRaised
  intro s tile seat i c
  refine ⟨exec_trap, exec_reservedOpcodeIssue, exec_seatRunOff, fun ht hs hc hlow hst hst' haq hfly hvq hc0 hc1 htal => ?_⟩
  obtain ⟨l, hact⟩ := Tile.active_head hs hlow (by simp [hst]) (by simp [hst])
  refine exec_deadlockDetected ht hc hact (fun n hn => ?_) haq hfly hvq hc0 hc1 htal
  obtain ⟨hn, hne⟩ := List.mem_filter.mp hn
  rcases hst' n (List.mem_range.mp hn) with h | h | h
  · simp [h] at hne
  · simp [h] at hne
  · exact h

/-! ### Debug control -/

section
variable {s : State} {tile seat n : Nat}

/-- A fold over the seats that changes those of which a condition on the seat itself holds. -/
theorem Tile.seat_foldl_if (t : Tile) (c : Nat → Seat → Prop) [∀ n x, Decidable (c n x)] (f : Seat → Seat) (hn : n < 8) :
    ((List.range 8).foldl (fun t n => if c n (t.seat n) then t.setSeat n (f (t.seat n)) else t) t).seat n =
      if c n (t.seat n) then f (t.seat n) else t.seat n := by
  rw [foldl_read Tile.seat _ (fun n x => if c n x then f x else x) _ _ _ List.nodup_range, if_pos (List.mem_range.mpr hn)]
  · intro t n
    by_cases hc : c n (t.seat n) <;> simp [hc]
  · intro t n k hk
    by_cases hc : c n (t.seat n) <;> simp [hc, Tile.seat_setSeat_ne _ _ hk]

/-- The state in which DEBUG_HALT has set SEATS and HALT. -/
def State.haltRequested (s : State) (tile seats : Nat) : State := (s.setFld tile CC_DBG_CTRL_SEATS seats).setFld tile CC_DBG_CTRL_HALT 1

section
variable {seats : Nat}

theorem State.haltRequested_halt : (s.haltRequested tile seats).fld tile CC_DBG_CTRL_HALT = 1 := by
  rw [State.haltRequested, State.fld_setFld_self _ _ _ _ (by decide)]
  rfl

theorem State.haltRequested_seats (h : seats < 256) : (s.haltRequested tile seats).fld tile CC_DBG_CTRL_SEATS = seats := by
  rw [State.haltRequested, State.fld_setFld_bits _ _ _ (by decide), State.fld_setFld_self _ _ _ _ (by decide)]
  exact Nat.mod_eq_of_lt h

theorem State.haltRequested_en : (s.haltRequested tile seats).fld tile CC_DBG_CTRL_EN = s.fld tile CC_DBG_CTRL_EN := by
  rw [State.haltRequested, State.fld_setFld_bits _ _ _ (by decide), State.fld_setFld_bits _ _ _ (by decide)]

theorem State.haltRequested_tile (k : Nat) : (s.haltRequested tile seats).tile k = s.tile k := by
  rw [State.haltRequested, State.tile_setFld, State.tile_setFld]

/-- A seat that the halt names is held, unless an instruction was granted to it (R209). -/
theorem State.haltRequested_dbgHolds {x : Seat} (h : seats < 256) (hb : bitAt seats n = true) (he : s.fld tile CC_DBG_CTRL_EN = 1) (hx : x.steps = 0) :
    (s.haltRequested tile seats).dbgHolds tile n x = true := by
  rw [State.dbgHolds, State.haltRequested_en, State.haltRequested_seats h, State.haltRequested_halt, he, hb, hx]
  rfl

theorem exec_debugHalt (ht : tile < 4224) : exec (.debugHalt tile seats) s = .next ((s.haltRequested tile seats).setTile tile
    ((List.range 8).foldl (fun t n => if ((t.seat n).st = .ready ∨ (t.seat n).st = .stalled) ∧ (s.haltRequested tile seats).dbgHolds tile n (t.seat n) = true then
      t.setSeat n { (t.seat n) with st := .halted } else t) ((s.haltRequested tile seats).tile tile))) := by
  show execDebugHalt tile seats s = _
  rw [execDebugHalt, onTile, if_pos ht]
  rfl

end

theorem exec_debugStep (ht : tile < 4224) (he : s.fld tile CC_DBG_CTRL_EN = 1) : exec (.debugStep tile) s = .next (s.setTile tile
    ((List.range 8).foldl (fun t n => if bitAt (s.fld tile CC_DBG_CTRL_SEATS) n = true ∧ ((t.seat n).st = .halted ∨ s.dbgHolds tile n (t.seat n) = true) then
      t.setSeat n { (t.seat n) with steps := 1 } else t) (s.tile tile))) := by
  show execDebugStep tile s = _
  rw [execDebugStep, onTile, if_pos ht, if_pos he]

theorem exec_breakpointHit (ht : tile < 4224) (hs : seat < 8) (htr : (s.tile tile).trick.isSome = true) (hst : ((s.tile tile).seat seat).st = .ready)
    (hen : s.fld tile CC_DBG_CTRL_BP_EN = 1) (hpc : s.fld tile CC_DBG_CTRL_BP_PC = s.spc tile seat) (hh : s.dbgHolds tile seat ((s.tile tile).seat seat) = true) :
    exec (.breakpointHit tile seat) s = .next (s.setTile tile ((s.tile tile).setSeat seat { ((s.tile tile).seat seat) with st := .halted })) := by
  show execBreakpointHit tile seat s = _
  rw [execBreakpointHit, if_pos ⟨ht, hs⟩]
  dsimp only
  rw [if_pos ⟨htr, .inl hst, hen, hpc, hh⟩]

end

/-- Settles O14: each command is a change of its seats' state, or of the instructions granted, which leaves PC and registers alone. -/
theorem debugControlHaltsAndSteps : Obligations.DebugControlHaltsAndSteps := by
  unfold Obligations.DebugControlHaltsAndSteps
  intro s tile seat seats n ht hn
  refine ⟨fun hlt hbit hen hst hsteps => ?_, fun hen hbit hst => ?_, fun hs htr hst hen hpc hh => ?_⟩
  · have hread := Tile.seat_foldl_if ((s.haltRequested tile seats).tile tile)
      (fun n x => (x.st = .ready ∨ x.st = .stalled) ∧ (s.haltRequested tile seats).dbgHolds tile n x = true) (fun x => { x with st := .halted }) hn
    rw [State.haltRequested_tile, if_pos ⟨.inl hst, State.haltRequested_dbgHolds hlt hbit hen hsteps⟩] at hread
    refine ⟨_, exec_debugHalt ht, ?_, ?_, ?_, State.setTile_mem .., ?_, fun k => ?_⟩
    · rw [State.fld_setTile, State.haltRequested_halt]
    · rw [State.fld_setTile, State.haltRequested_seats hlt]
    · rw [State.tile_setTile_self, State.haltRequested_tile, hread]
    · rw [State.spc, State.tile_setTile_self, State.haltRequested_tile, hread]
      rfl
    · rw [State.sreg, State.tile_setTile_self, State.haltRequested_tile, hread]
      rfl
  · have hread := Tile.seat_foldl_if (s.tile tile)
      (fun n x => bitAt (s.fld tile CC_DBG_CTRL_SEATS) n = true ∧ (x.st = .halted ∨ s.dbgHolds tile n x = true)) (fun x => { x with steps := 1 }) hn
    rw [if_pos ⟨hbit, .inl hst⟩] at hread
    refine ⟨_, exec_debugStep ht hen, ?_, ?_, fun k => ?_, State.setTile_mem ..⟩
    · rw [State.tile_setTile_self, hread]
    · rw [State.spc, State.tile_setTile_self, hread]
      rfl
    · rw [State.sreg, State.tile_setTile_self, hread]
      rfl
  · refine ⟨_, exec_breakpointHit ht hs htr hst hen hpc hh, ?_, ?_, fun k => ?_, State.setTile_mem ..⟩
    · rw [State.tile_setTile_self, Tile.seat_setSeat_self]
    · rw [State.spc, State.tile_setTile_self, Tile.seat_setSeat_self]
      rfl
    · rw [State.sreg, State.tile_setTile_self, Tile.seat_setSeat_self]
      rfl

end Sys2Proof.Machine
end

section
/-! The array queue: commands that join it (O15), and its events (O16) (R77–R92). -/
namespace Sys2Proof.Machine

/-! ### Commands that join the queue -/

/-- An array command that may join, whose first exception is `c` (R87). -/
theorem State.arrForm_raises {s : State} {i : Issue} {q : ArrForm} {c : Nat} (hb : i.blocked q.regs = false) (hq : (s.tile i.tile).aq.length < 4)
    (hi : q.illegal = false) (hc : firstExc q.checks = some c) : s.arrForm i q = s.except i c := by
  rw [State.arrForm, State.arrIssue]
  dsimp only
  rw [if_neg (by rw [hb]; simp; omega), hi, if_neg (by decide), hc]

section
variable {s : State} {tile seat : Nat} {i : Issue}

theorem exec_mxm (h : s.Issues tile seat 0x20 i) : exec (.mxm tile seat) s = .next (s.arrForm i (s.mxmForm i)) := onIssue_eq h _

theorem exec_mxd (h : s.Issues tile seat 0x21 i) : exec (.mxd tile seat) s = .next (s.arrForm i (s.mxdForm i)) := onIssue_eq h _

theorem exec_mxl (h : s.Issues tile seat 0x22 i) : exec (.mxl tile seat) s = .next (s.arrForm i (s.mxlForm i)) := onIssue_eq h _

theorem exec_mxz (h : s.Issues tile seat 0x23 i) : exec (.mxz tile seat) s = .next (s.arrForm i (s.mxzForm i)) := onIssue_eq h _

end

/-- Settles O15: the four commands are `State.arrForm`, which queues the command or raises the first exception; the last clause is the exception of an MXZ. -/
theorem arrayCommandsJoinTheQueue : Obligations.ArrayCommandsJoinTheQueue := by
  unfold Obligations.ArrayCommandsJoinTheQueue
  intro s tile seat c i
  refine ⟨fun h hp => ⟨_, exec_mxm h, arrForm_joins h.issue h.tile_lt hp⟩, fun h hp => ⟨_, exec_mxd h, arrForm_joins h.issue h.tile_lt hp⟩,
    fun h hp => ⟨_, exec_mxl h, arrForm_joins h.issue h.tile_lt hp⟩, fun h hp => ⟨_, exec_mxz h, arrForm_joins h.issue h.tile_lt hp⟩,
    fun h hb hq hz hc => ?_⟩
  have ht := h.tile_eq
  subst ht
  rw [exec_mxz h, State.arrForm_raises hb hq _ hc]
  simp [State.mxzForm, fieldOf, hz]

/-! ### Banks -/

@[simp] theorem Tile.bank_setBank_self (t : Tile) (b : Nat) (x : Bank) : (t.setBank b x).bank b = x := Sparse.get_set_self

theorem Tile.bank_setBank_ne (t : Tile) {b k : Nat} (x : Bank) (h : k ≠ b) : (t.setBank b x).bank k = t.bank k := Sparse.get_set_ne h

theorem acBanks_nodup (insn : Nat) : (acBanks insn).Nodup := by
  unfold acBanks
  split <;> simp

/-- Changes of several banks are changes of the tile's banks alone. -/
theorem Tile.foldl_setBank_eq (f : Bank → Bank) (l : List Nat) (t : Tile) : l.foldl (fun t b => t.setBank b (f (t.bank b))) t =
    { t with banks := l.foldl (fun m b => Sparse.set Bank.init m b (f (Sparse.get Bank.init m b))) t.banks } := by
  induction l generalizing t with
  | nil => rfl
  | cons b l ih => rw [List.foldl_cons, ih]; rfl

theorem Tile.bank_foldl_setBank (f : Bank → Bank) {l : List Nat} (hl : l.Nodup) (t : Tile) {b : Nat} (hb : b ∈ l) :
    (l.foldl (fun t b => t.setBank b (f (t.bank b))) t).bank b = f (t.bank b) := by
  rw [foldl_read Tile.bank _ (fun _ => f) (fun t b => Tile.bank_setBank_self t b _) (fun t _ _ hk => Tile.bank_setBank_ne t _ hk) l hl, if_pos hb]

@[simp] theorem State.arrDraws_tile (s : State) (tile p n k : Nat) : (s.arrDraws tile p n).tile k = s.tile k := by
  unfold State.arrDraws
  split
  · rfl
  · exact State.tile_count ..

@[simp] theorem State.arrFlags_tile (s : State) (tile mask k : Nat) : (s.arrFlags tile mask).tile k = s.tile k := by
  unfold State.arrFlags
  split
  · rfl
  · exact State.tile_setReg ..

/-! ### What a command does when it starts -/

section
variable {s : State} {tile : Nat} {c : TrickCtx} {a : ArrCmd}

/-- MXD: its banks are DRAINING, and its result is kept for its completion (R86; log 28). -/
theorem State.actMxd_tile (s : State) (tile : Nat) (c : TrickCtx) (a : ArrCmd) : (s.actMxd tile c a).1.tile tile =
    (acBanks a.insn).foldl (fun t b => t.setBank b { (t.bank b) with st := .draining }) (s.tile tile) := by
  rw [State.actMxd]
  dsimp only
  rw [State.arrFlags_tile, State.tile_setTile_self]

theorem State.actMxd_frame (s : State) (tile : Nat) (c : TrickCtx) (a : ArrCmd) : ∃ bs, (s.actMxd tile c a).1.tile tile = { (s.tile tile) with banks := bs } := by
  rw [State.actMxd_tile, Tile.foldl_setBank_eq fun x => { x with st := .draining }]
  exact ⟨_, rfl⟩

theorem State.actMxd_bank (s : State) (tile : Nat) (c : TrickCtx) (a : ArrCmd) {b : Nat} (hb : b ∈ acBanks a.insn) :
    (((s.actMxd tile c a).1.tile tile).bank b).st = .draining := by
  rw [State.actMxd_tile, Tile.bank_foldl_setBank (fun x => { x with st := .draining }) (acBanks_nodup _) _ hb]

theorem State.actMxd_cmd (s : State) (tile : Nat) (c : TrickCtx) (a : ArrCmd) : (s.actMxd tile c a).2.acted = true ∧ (s.actMxd tile c a).2.seq = a.seq :=
  ⟨rfl, rfl⟩

/-- What an MXL or MXZ that acts makes of its tile: it changes its banks alone, which are claimed for its seat with g = 0 (R81). -/
structure Tile.Claims (t u : Tile) (a : ArrCmd) : Prop where
  rest : ∃ bs, u = { t with banks := bs }
  banks : ∀ b ∈ acBanks a.insn, (u.bank b).st = .claimed ∧ (u.bank b).owner = a.seat ∧ (u.bank b).g = 0

/-- With no undecodable word no read of the sheet store fails (R72). -/
theorem Tile.readBad_clean {t : Tile} (h : t.badWords = []) (a n : Nat) : t.readBad a n = false := by
  rw [Tile.readBad, h]
  rfl

theorem Tile.claims_pair (t : Tile) (a : ArrCmd) {x y : Bank} (hx : x.st = .claimed ∧ x.owner = a.seat ∧ x.g = 0)
    (hy : y.st = .claimed ∧ y.owner = a.seat ∧ y.g = 0) :
    t.Claims (if acPair a.insn then (t.setBank (acAcc a.insn) x).setBank (acAcc a.insn + 1) y else t.setBank (acAcc a.insn) x) a := by
  by_cases hp : acPair a.insn = true
  · rw [if_pos hp]
    refine ⟨⟨_, rfl⟩, fun b hb => ?_⟩
    rw [acBanks, if_pos hp, List.mem_pair] at hb
    rcases hb with rfl | rfl
    · rwa [Tile.bank_setBank_ne _ _ (by omega), Tile.bank_setBank_self]
    · rwa [Tile.bank_setBank_self]
  · rw [if_neg hp]
    refine ⟨⟨_, rfl⟩, fun b hb => ?_⟩
    rw [acBanks, if_neg hp, List.mem_singleton] at hb
    subst hb
    rwa [Tile.bank_setBank_self]

theorem State.actMxl_claims (h : (s.tile tile).badWords = []) : (s.tile tile).Claims ((s.actMxl tile a).1.tile tile) a ∧
    (s.actMxl tile a).2 = { a with acted := true } := by
  rw [State.actMxl]
  dsimp only
  rw [if_neg (by simp [Tile.readBad_clean h]), State.tile_setTile_self]
  exact ⟨Tile.claims_pair _ a ⟨rfl, rfl, rfl⟩ ⟨rfl, rfl, rfl⟩, rfl⟩

/-- The bank that an MXZ leaves (R81). -/
def ArrCmd.zeroBank (a : ArrCmd) : Bank := { st := .claimed, owner := a.seat, int := bitAt a.insn 54, paired := acPair a.insn, g := 0, site := a.site }

theorem State.actMxz_tile (s : State) (tile : Nat) (a : ArrCmd) :
    (s.actMxz tile a).1.tile tile = (acBanks a.insn).foldl (fun t b => t.setBank b a.zeroBank) (s.tile tile) := by
  rw [State.actMxz, State.tile_setTile_self]
  rfl

theorem State.actMxz_bank (s : State) (tile : Nat) (a : ArrCmd) {b : Nat} (hb : b ∈ acBanks a.insn) :
    ((s.actMxz tile a).1.tile tile).bank b = a.zeroBank := by
  rw [State.actMxz_tile]
  exact Tile.bank_foldl_setBank (fun _ => a.zeroBank) (acBanks_nodup _) _ hb

theorem State.actMxz_claims (s : State) (tile : Nat) (a : ArrCmd) : (s.tile tile).Claims ((s.actMxz tile a).1.tile tile) a := by
  refine ⟨?_, fun b hb => ?_⟩
  · rw [State.actMxz_tile]
    exact ⟨_, Tile.foldl_setBank_eq (fun _ => a.zeroBank) _ _⟩
  · rw [State.actMxz_bank _ _ _ hb]
    exact ⟨rfl, rfl, rfl⟩

theorem State.actArr_mxd (hop : opcOf a.insn = 0x21) : s.actArr tile c a = s.actMxd tile c a := by
  rw [State.actArr, hop]
  rfl

theorem State.actArr_mxl (hop : opcOf a.insn = 0x22) : s.actArr tile c a = s.actMxl tile a := by
  rw [State.actArr, hop]
  rfl

theorem State.actArr_mxz (hop : opcOf a.insn = 0x23) : s.actArr tile c a = s.actMxz tile a := by
  rw [State.actArr, hop]
  rfl

theorem State.actArr_claims (hop : opcOf a.insn = 0x22 ∨ opcOf a.insn = 0x23) (h : (s.tile tile).badWords = []) :
    (s.tile tile).Claims ((s.actArr tile c a).1.tile tile) a ∧ (s.actArr tile c a).2 = { a with acted := true } := by
  rcases hop with hop | hop
  · rw [State.actArr_mxl hop]
    exact State.actMxl_claims h
  · rw [State.actArr_mxz hop]
    exact ⟨State.actMxz_claims s tile a, rfl⟩

/-- The command that acts at the head of an idle array (R78, R88). -/
theorem exec_arrayCommandStart {rest : List ArrCmd} (ht : tile < 4224) (hc : (s.tile tile).trick = some c) (hq : (s.tile tile).aq = a :: rest)
    (hfly : (s.tile tile).fly = []) (hw : s.arrWaits tile c.prov a = false) (hbad : (s.tile tile).badWords = []) {s1 : State}
    (hs1 : s1 = s.setTile tile { (s.tile tile) with aq := rest, fly := [a] }) :
    exec (.arrayCommandStart tile) s = .next (if opcOf a.insn = 0x20 then s1.runMxm tile c a
      else (s1.actArr tile c a).1.setTile tile (((s1.actArr tile c a).1.tile tile).setFly (s1.actArr tile c a).2)) := by
  subst hs1
  show execArrayCommandStart tile s = _
  rw [execArrayCommandStart, onTile, if_pos ht]
  dsimp only
  rw [hc, hq]
  dsimp only
  have hread : ((a.spans s c.prov).sr.any fun r => (s.tile tile).readBad r.lo (r.hi - r.lo)) = false := by
    simp [Tile.readBad_clean hbad]
  rw [hfly, hw, hread, if_neg (by simp [heldBy])]
  simp only [inFence, List.any_nil, Bool.false_eq_true, if_false, List.nil_append]

/-- A command that acts is put back among the commands that run. -/
theorem Tile.setFly_one {t : Tile} (h : t.fly = [a]) {b : ArrCmd} (hb : b.seq = a.seq) : (t.setFly b).fly = [b] := by
  simp [Tile.setFly, h, hb]

theorem exec_drainFenceEnd (ht : tile < 4224) (hc : (s.tile tile).trick = some c) (hfly : (s.tile tile).fly = [a]) (hop : opcOf a.insn ≠ 0x20)
    (ha : a.acted = false) (hw : s.arrWaits tile c.prov a = false) :
    exec (.drainFenceEnd tile) s =
      .next ((s.actArr tile c a).1.setTile tile (((s.actArr tile c a).1.tile tile).setFly (s.actArr tile c a).2)) := by
  show execDrainFenceEnd tile s = _
  rw [execDrainFenceEnd, onTile, if_pos ht]
  dsimp only
  rw [hc, hfly, List.find?_cons_of_pos (by simp [hop, ha])]
  dsimp only
  rw [hw, if_neg (by decide)]

end

/-! ### Completion -/

@[simp] theorem Seat.arrDone_wake (x : Seat) : x.wake.arrDone = x.arrDone := by
  unfold Seat.wake
  split
  · exact (apply_ite Seat.arrDone _ _ _).trans (ite_self _)
  · rfl

/-- A completed command counts in ARRDONE of its seat (R191). -/
theorem Tile.countArr_arrDone (t : Tile) (seat : Nat) : ((t.countArr seat).seat seat).arrDone = inc32 (t.seat seat).arrDone := by
  rw [Tile.countArr, Tile.seat_setSeat_self, Seat.arrDone_wake]

section
variable {s : State} {tile : Nat} {c : TrickCtx} {a : ArrCmd}

theorem Tile.dropFly_one {t : Tile} (h : t.fly = [a]) : (t.dropFly a).fly = [] := by
  simp [Tile.dropFly, h]

theorem exec_mxmComplete (ht : tile < 4224) (hfly : (s.tile tile).fly = [a]) (hop : opcOf a.insn = 0x20) :
    exec (.mxmComplete tile) s = .next (s.setTile tile (((s.tile tile).dropFly a).countArr a.seat)) := by
  show execMxmComplete tile s = _
  rw [execMxmComplete, onTile, if_pos ht]
  dsimp only
  rw [hfly, List.find?_cons_of_pos (by simp [hop])]

theorem exec_bankReady (ht : tile < 4224) (hfly : (s.tile tile).fly = [a]) (hop : opcOf a.insn = 0x22 ∨ opcOf a.insn = 0x23) (ha : a.acted = true) :
    exec (.bankReady tile) s = .next (s.setTile tile (((s.tile tile).dropFly a).countArr a.seat)) := by
  show execBankReady tile s = _
  rw [execBankReady, onTile, if_pos ht]
  dsimp only
  rw [hfly, List.find?_cons_of_pos (by rcases hop with hop | hop <;> simp [hop, ha])]

/-- What a completed command that leaves the banks alone leaves (R90; log 28). -/
theorem completed_frame (hfly : (s.tile tile).fly = [a]) {t : State} (ht : t = s.setTile tile (((s.tile tile).dropFly a).countArr a.seat)) :
    (t.tile tile).fly = [] ∧ ((t.tile tile).seat a.seat).arrDone = inc32 ((s.tile tile).seat a.seat).arrDone ∧
      (t.tile tile).banks = (s.tile tile).banks ∧ t.mem = s.mem := by
  subst ht
  rw [State.tile_setTile_self, Tile.countArr_arrDone]
  exact ⟨Tile.dropFly_one hfly, rfl, rfl, State.setTile_mem ..⟩

/-- A drained bank is FREE, or claimed as before with KEEP (R86). -/
def ArrCmd.drains (a : ArrCmd) (x : Bank) : Bank := if x.st != .draining then x else if bitAt a.insn 53 then { x with st := .claimed } else Bank.init

/-- The banks of the only command that runs, an MXD that has acted, are drained by it. -/
theorem Tile.drainer_one {t : Tile} {b : Nat} (hfly : t.fly = [a]) (hop : opcOf a.insn = 0x21) (ha : a.acted = true) (hb : b ∈ acBanks a.insn) :
    t.drainer b = some a := by
  rw [Tile.drainer, hfly, List.reverse_singleton, List.find?_cons_of_pos]
  simp [hop, ha, hb]

theorem Tile.drained_one {t : Tile} {b : Nat} (hfly : t.fly = [a]) (hop : opcOf a.insn = 0x21) (ha : a.acted = true) (hb : b ∈ acBanks a.insn) :
    t.drained b = a.drains (t.bank b) := by
  rw [Tile.drained, Tile.drainer_one hfly hop ha hb]
  rfl

theorem Tile.foldl_drained (hop : opcOf a.insn = 0x21) (ha : a.acted = true) (l : List Nat) (hl : ∀ b ∈ l, b ∈ acBanks a.insn) (t : Tile) (hfly : t.fly = [a]) :
    l.foldl (fun t b => if (t.drainer b).map ArrCmd.seq = some a.seq then t.setBank b (t.drained b) else t) t =
      l.foldl (fun t b => t.setBank b (a.drains (t.bank b))) t := by
  induction l generalizing t with
  | nil => rfl
  | cons b l ih =>
    have hb := hl b List.mem_cons_self
    rw [List.foldl_cons, List.foldl_cons, Tile.drainer_one hfly hop ha hb, Option.map_some, if_pos rfl, Tile.drained_one hfly hop ha hb]
    exact ih (fun k hk => hl k (List.mem_cons_of_mem _ hk)) (t.setBank b _) hfly

/-- The tile after an MXD has completed, before its bytes are in the sheet store (R86, R90). -/
def Tile.mxdDone (t : Tile) (a : ArrCmd) : Tile :=
  ((((acBanks a.insn).foldl (fun t b => t.setBank b (a.drains (t.bank b))) t).dropFly a).putTregs a.tregOut).countArr a.seat

theorem exec_mxdComplete (ht : tile < 4224) (hc : (s.tile tile).trick = some c) (hfly : (s.tile tile).fly = [a]) (hop : opcOf a.insn = 0x21)
    (ha : a.acted = true) (hw : s.overtakes tile c.prov a.seq (a.spans s c.prov) = false) :
    exec (.mxdComplete tile) s = .next (((s.setTile tile ((s.tile tile).mxdDone a)).sheetWrite tile a.sheetOut).drainStores tile 8) := by
  show execMxdComplete tile s = _
  rw [execMxdComplete, onTile, if_pos ht]
  dsimp only
  rw [hc, hfly, List.find?_cons_of_pos (by simp [hop, ha])]
  dsimp only
  rw [hw, if_neg (by decide), Tile.foldl_drained hop ha _ (fun _ hb => hb) _ hfly]
  rfl

/-- An MXD's completion changes no queue, no mark and no byte of the tile. -/
theorem Tile.mxdDone_eq (t : Tile) (a : ArrCmd) : ∃ bs seats, t.mxdDone a =
    { (t.dropFly a).putTregs a.tregOut with banks := bs, seats := seats } := by
  rw [Tile.mxdDone, Tile.foldl_setBank_eq]
  exact ⟨_, _, rfl⟩

theorem Tile.mxdDone_bank (t : Tile) (a : ArrCmd) {b : Nat} (hb : b ∈ acBanks a.insn) : (t.mxdDone a).bank b = a.drains (t.bank b) :=
  Tile.bank_foldl_setBank a.drains (acBanks_nodup _) t hb

theorem Tile.mxdDone_arrDone (t : Tile) (a : ArrCmd) : ((t.mxdDone a).seat a.seat).arrDone = inc32 (t.seat a.seat).arrDone := by
  rw [Tile.mxdDone, Tile.countArr_arrDone, Tile.foldl_setBank_eq]
  rfl

theorem ArrCmd.drains_st {x : Bank} (h : x.st = .draining) : (a.drains x).st = if bitAt a.insn 53 then .claimed else .free := by
  rw [ArrCmd.drains, h, if_neg (by decide)]
  split <;> rfl

end

/-- Settles O16: banks change when a command acts, not when it completes (DESIGN CHOICE: log 28); an MXD's words alone are written at its completion. -/
theorem arrayEventsMoveCommandsOn : Obligations.ArrayEventsMoveCommandsOn := by
  unfold Obligations.ArrayEventsMoveCommandsOn
  intro s tile a rest c ht
  refine ⟨fun hc hq hfly ha hw hbad => ?_, fun hc hfly hop ha hw => exec_drainFenceEnd ht hc hfly hop ha hw, fun hfly hop => ?_,
    fun hc hfly hop ha hw hst hbad hvq => ?_, fun hfly hop ha => ?_⟩
  · have hstart := exec_arrayCommandStart ht hc hq hfly hw hbad rfl
    have htile : (s.setTile tile { (s.tile tile) with aq := rest, fly := [a] }).tile tile = { (s.tile tile) with aq := rest, fly := [a] } :=
      State.tile_setTile_self ..
    refine ⟨fun hop => ?_, fun hop => ?_, fun hop => ?_⟩
    · rw [hstart, if_pos hop]
    · rw [if_neg (by rw [hop]; decide), State.actArr_mxd hop] at hstart
      refine ⟨_, hstart, ?_⟩
      have hbank := fun b => State.actMxd_bank (s.setTile tile { (s.tile tile) with aq := rest, fly := [a] }) tile c a (b := b)
      obtain ⟨bs, hbs⟩ := State.actMxd_frame (s.setTile tile { (s.tile tile) with aq := rest, fly := [a] }) tile c a
      obtain ⟨hacted, hseq⟩ := State.actMxd_cmd (s.setTile tile { (s.tile tile) with aq := rest, fly := [a] }) tile c a
      rw [htile] at hbs
      rw [State.tile_setTile_self, State.setTile_mem, State.actMxd_mem, State.setTile_mem]
      refine ⟨?_, ?_, hbank, ?_, rfl⟩
      · rw [hbs]
        rfl
      · rw [Tile.setFly_one (by rw [hbs]) hseq, List.map_singleton, hacted]
      · rw [hbs]
        rfl
    · rw [if_neg (by rcases hop with hop | hop <;> rw [hop] <;> decide)] at hstart
      obtain ⟨⟨⟨bs, hbs⟩, hclaim⟩, hcmd⟩ := State.actArr_claims (s := s.setTile tile { (s.tile tile) with aq := rest, fly := [a] }) (c := c) hop
        (by rw [htile]; exact hbad)
      refine ⟨_, hstart, ?_⟩
      rw [State.tile_setTile_self, State.setTile_mem, State.actArr_mem, State.setTile_mem, hcmd]
      refine ⟨?_, ?_, hclaim, fun hz b hb => ?_, rfl⟩
      · rw [hbs, htile]
        rfl
      · exact Tile.setFly_one (a := a) (by rw [hbs, htile]) rfl
      · rw [State.actArr_mxz hz]
        exact congrArg Bank.cells (State.actMxz_bank _ tile a hb)
  · exact ⟨_, exec_mxmComplete ht hfly hop, completed_frame hfly rfl⟩
  · refine ⟨_, exec_mxdComplete ht hc hfly hop ha hw, ?_⟩
    obtain ⟨bs, seats, hdone⟩ := (s.tile tile).mxdDone_eq a
    rw [State.sheetWrite_clean (by rw [State.tile_setTile_self, hdone]; exact hbad), State.drainStores_idle, State.tile_setTile_self,
      State.tile_setTile_self]
    · refine ⟨?_, Tile.mxdDone_arrDone _ a, fun b hb => ?_, ?_, ?_, ?_⟩
      · rw [hdone]
        exact Tile.dropFly_one hfly
      · exact (congrArg Bank.st (Tile.mxdDone_bank _ a hb)).trans (ArrCmd.drains_st (hst b hb))
      · rw [hdone]
        rfl
      · rw [hdone]
        rfl
      · rw [State.setTile_mem, State.setTile_mem]
    · rw [State.tile_setTile_self, State.tile_setTile_self, hdone]
      exact hvq
  · exact ⟨_, exec_bankReady ht hfly hop ha, completed_frame hfly rfl⟩

end Sys2Proof.Machine
end

section
/-! The vector queue: instructions that join it (O17), and the completion of its head (O18) (R145, R172–R178). -/
namespace Sys2Proof.Machine

section
variable {s : State} {tile seat : Nat} {i : Issue}

theorem State.Issues.vecJoins {opc : Nat} {q : VecForm} (h : s.Issues tile seat opc i) (hp : s.VecPasses i q) :
    s.JoinsVector (s.vecForm i q) tile seat i q.words := by
  rw [vecForm_eq hp]
  exact vecIssue_joins h.issue h.tile_lt ..

theorem exec_vop (h : s.Issues tile seat 0x28 i) : exec (.vop tile seat) s = .next (s.vecForm i (s.vopForm i)) := onIssue_eq h _

theorem exec_vsmx (h : s.Issues tile seat 0x2A i) : exec (.vsmx tile seat) s = .next (s.vecForm i i.vsmxForm) := onIssue_eq h _

theorem exec_vsmg (h : s.Issues tile seat 0x2B i) : exec (.vsmg tile seat) s = .next (s.vecForm i i.vsmgForm) := onIssue_eq h _

theorem exec_vql (h : s.Issues tile seat 0x2D i) : exec (.vql tile seat) s = .next (s.vecForm i (s.vqlForm i)) := onIssue_eq h _

theorem exec_vqs (h : s.Issues tile seat 0x2E i) : exec (.vqs tile seat) s = .next (s.vecForm i (s.vqsForm i)) := onIssue_eq h _

theorem exec_vep (h : s.Issues tile seat 0x2C i) (hp : s.VecPasses i (s.vepForm i)) (hw : s.vepWaits i = false) (hu : s.vepUnreadable i = false) :
    exec (.vep tile seat) s = .next (s.vecForm i (s.vepForm i)) := by
  obtain rfl := h.tile_eq
  obtain ⟨hb, hq, -, -⟩ := hp
  show execVep i.tile seat s = _
  unfold execVep
  rw [onIssue_eq h, if_neg (by rw [hb]; simp; omega), hw, if_neg (by decide), hu, if_neg (by decide)]

/-- The scalar registers of a VRED wait for it; their values and the PC stay (R157, R186). -/
theorem Seat.reg_awaitScalars (x : Seat) (f : VecFields) (q r : Nat) : (x.awaitScalars f q).reg r = x.reg r := by
  unfold Seat.awaitScalars
  dsimp only
  split
  · rw [Seat.reg_await]
    split
    · exact Seat.reg_await ..
    · rfl
  · split
    · exact Seat.reg_await ..
    · rfl

theorem Seat.pc_awaitScalars (x : Seat) (f : VecFields) (q : Nat) : (x.awaitScalars f q).pc = x.pc := by
  unfold Seat.awaitScalars
  dsimp only
  split
  · rw [Seat.pc_await]
    split
    · exact Seat.pc_await ..
    · rfl
  · split
    · exact Seat.pc_await ..
    · rfl

/-- A change of the queued instruction's seat that keeps its registers and its PC leaves it queued. -/
theorem State.JoinsVector.setSeat {t : State} {ws : List Nat} (h : s.JoinsVector t tile seat i ws) {x : Seat} (hr : ∀ r, x.reg r = t.sreg tile seat r)
    (hpc : x.pc = t.spc tile seat) : s.JoinsVector (t.setTile tile ((t.tile tile).setSeat seat x)) tile seat i ws := by
  obtain ⟨hq, haq, c, hc1, hc2, hc3, hvq⟩ := h
  refine ⟨⟨?_, fun r => ?_, ?_, fun k hk => ?_, fun n hn => ?_, ?_, ?_, ?_⟩, ?_, c, hc1, hc2, hc3, ?_⟩
  · rw [State.spc, State.tile_setTile_self, Tile.seat_setSeat_self, hpc, hq.pc]
  · rw [State.sreg, State.tile_setTile_self, Tile.seat_setSeat_self, hr, hq.regs]
  · rw [State.setTile_mem, hq.mem]
  · rw [State.tile_setTile_ne _ _ hk, hq.tiles k hk]
  · rw [State.tile_setTile_self, Tile.seat_setSeat_ne _ _ hn, hq.seats n hn]
  · rw [State.tile_setTile_self]
    exact hq.sheet
  · rw [State.tile_setTile_self]
    exact hq.treg
  · rw [State.tile_setTile_self]
    exact hq.banks
  · rw [State.tile_setTile_self]
    exact haq
  · rw [State.tile_setTile_self]
    exact hvq

theorem issued_seq (s : State) (i : Issue) (x : Tile) (pc : Nat) (f : Seat → Seat) : (((s.setTile i.tile x).issued i pc f).tile i.tile).seq = x.seq := by
  obtain ⟨g, l, hg⟩ := issued_tile (s.setTile i.tile x) i pc f
  rw [hg, State.tile_setTile_self]
  rfl

/-- A vector instruction that joins takes the tile's next number. -/
theorem vecIssue_seq (s : State) (i : Issue) (ws : List Nat) (site : Bool) (busy : Option Nat) :
    ((s.vecIssue i ws site busy).tile i.tile).seq = (s.tile i.tile).seq + 1 := by
  rw [State.vecIssue]
  exact issued_seq s i _ (i.pc + 1) _

theorem exec_vred (h : s.Issues tile seat 0x29 i) (hp : s.VecPasses i i.vredForm) :
    exec (.vred tile seat) s = .next ((s.vecForm i i.vredForm).setTile tile (((s.vecForm i i.vredForm).tile tile).setSeat seat
      ((((s.vecForm i i.vredForm).tile tile).seat seat).awaitScalars (VecFields.of i.insn) (s.tile tile).seq))) := by
  obtain rfl := h.tile_eq
  have hseq : ((s.vecForm i i.vredForm).tile i.tile).seq ≠ (s.tile i.tile).seq := by
    rw [vecForm_eq hp, vecIssue_seq]
    omega
  show execVred i.tile seat s = _
  unfold execVred
  rw [onIssue_eq h]
  dsimp only
  rw [if_neg hseq]

end

/-- Settles O17: each instruction is `State.vecForm`, which queues it; a VRED's scalar registers wait for it besides, which changes no value. -/
theorem vectorInstructionsJoinTheQueue : Obligations.VectorInstructionsJoinTheQueue := by
  unfold Obligations.VectorInstructionsJoinTheQueue
  intro s tile seat i
  refine ⟨fun h hp => ⟨_, exec_vop h, h.vecJoins hp⟩, fun h hp => ⟨_, exec_vred h hp, (h.vecJoins hp).setSeat (fun r => ?_) ?_⟩,
    fun h hp => ⟨_, exec_vsmx h, h.vecJoins hp⟩, fun h hp => ⟨_, exec_vsmg h, h.vecJoins hp⟩,
    fun h hp hw hu => ⟨_, exec_vep h hp hw hu, h.vecJoins hp⟩, fun h hp => ⟨_, exec_vql h, h.vecJoins hp⟩, fun h hp => ⟨_, exec_vqs h, h.vecJoins hp⟩⟩
  · exact Seat.reg_awaitScalars ..
  · exact Seat.pc_awaitScalars ..

/-! ### Completion -/

section
variable {s t : State} {tile : Nat} {c : TrickCtx} {v : VecCmd} {rest : List VecCmd}

theorem exec_vectorInstructionDone_waits (ht : tile < 4224) (hc : (s.tile tile).trick = some c) (hq : (s.tile tile).vq = v :: rest)
    (hw : s.overtakes tile c.prov v.seq (v.spans s c.prov) = true) : exec (.vectorInstructionDone tile) s = .next s := by
  show execVectorInstructionDone tile s = _
  rw [execVectorInstructionDone, onTile, if_pos ht]
  dsimp only
  rw [hc, hq]
  dsimp only
  rw [if_pos (.inr hw)]

theorem exec_vectorInstructionDone (ht : tile < 4224) (hc : (s.tile tile).trick = some c) (hq : (s.tile tile).vq = v :: rest) (hop : 0x28 ≤ opcOf v.insn)
    (hw : s.overtakes tile c.prov v.seq (v.spans s c.prov) = false) (hr : ((v.spans s c.prov).sr.any fun r => (s.tile tile).readBad r.lo (r.hi - r.lo)) = false)
    (hrun : t = (s.setTile tile { (s.tile tile) with vq := rest }).runVec tile c v) (htrick : (t.tile tile).trick ≠ none) :
    exec (.vectorInstructionDone tile) s = .next ((t.setTile tile ((t.tile tile).countVec v.seat)).drainStores tile 8) := by
  show execVectorInstructionDone tile s = _
  rw [execVectorInstructionDone, onTile, if_pos ht]
  dsimp only
  split
  · next c' v' rest' hc' hq' =>
    obtain rfl := Option.some.inj (hc'.symm.trans hc)
    obtain ⟨rfl, rfl⟩ := List.cons.inj (hq'.symm.trans hq)
    rw [hw, if_neg (by simp; omega), hr, if_neg (by decide), ← hrun, if_neg htrick]
  · next hno => exact absurd hq (hno c v rest hc)

end

/-- Settles O18: the head waits while `State.overtakes` holds, and is else what `State.runVec` makes of it. -/
theorem vectorInstructionsAreCarriedOutInOrder : Obligations.VectorInstructionsAreCarriedOutInOrder := by
  unfold Obligations.VectorInstructionsAreCarriedOutInOrder
  intro s t tile c v rest ht hc hq hop
  exact ⟨exec_vectorInstructionDone_waits ht hc hq, exec_vectorInstructionDone ht hc hq hop⟩

end Sys2Proof.Machine
end

section
/-! Tile couriers and the outbox (O19), chains (O20), Talons (O21) (R288–R317). -/
namespace Sys2Proof.Machine

/-! ### CXFR -/

section
variable {s : State} {tile seat : Nat} {i : Issue} {ws : List Nat}

theorem Cx.of_cr (insn : Nat) (ws : List Nat) : (Cx.of insn ws).cr = bits insn 57 1 := rfl

/-- The transfer that a CXFR queues (R290). -/
def State.newXfer (s : State) (tile seat : Nat) (i : Issue) (ws : List Nat) : Xfer :=
  ⟨seat, (s.tile tile).seq, i.insn, ws, siteWord seat i.x.site, i.c, s.frame, none⟩

/-- The tile that has taken it. -/
def State.xferTile (s : State) (tile seat : Nat) (i : Issue) (ws : List Nat) : Tile :=
  { (s.tile tile) with
    seq := (s.tile tile).seq + 1
    crr := (s.tile tile).crr ++ [⟨seat, (s.tile tile).seq, false⟩]
    tc0 := if bits i.insn 57 1 = 0 then (s.tile tile).tc0 ++ [s.newXfer tile seat i ws] else (s.tile tile).tc0
    tc1 := if bits i.insn 57 1 = 0 then (s.tile tile).tc1 else (s.tile tile).tc1 ++ [s.newXfer tile seat i ws] }

theorem State.xferTile_cq : (s.xferTile tile seat i ws).cq (bits i.insn 57 1) = (s.tile tile).cq (bits i.insn 57 1) ++ [s.newXfer tile seat i ws] := by
  unfold Tile.cq State.xferTile
  by_cases h : bits i.insn 57 1 = 0 <;> simp only [h, if_true, if_false]

theorem exec_cxfr (h : s.Issues tile seat 0x30 i) (hws : ws = (List.range 5).map (fun k => i.reg (bits i.insn 51 5 + k)))
    (hq : ((s.tile tile).cq (bits i.insn 57 1)).length < 8) (hb : i.blocked ((List.range 5).map (fun k => bits i.insn 51 5 + k)) = false)
    (hlo : 1 ≤ bits i.insn 51 5) (hhi : bits i.insn 51 5 ≤ 27) (hz : bits i.insn 0 29 = 0) (hrm : bits i.insn 38 2 ≠ 3)
    (h0 : bits (wordAt ws 0) 48 16 = 0) (h1 : bits (wordAt ws 1) 33 31 = 0) (h2 : bits (wordAt ws 2) 56 8 = 0)
    (hc : firstExc (s.cxChecks i (Cx.of i.insn ws)) = none) :
    exec (.cxfr tile seat) s = .next ((s.setTile tile (s.xferTile tile seat i ws)).issued i (i.pc + 1)
      (fun z => { z with site := if (Cx.of i.insn ws).rm = 2 then z.site + 1 else z.site })) := by
  have hws' : ((List.range 5).map fun k => bits i.insn 51 5 + k).map i.reg = ws := by rw [hws, List.map_map]; rfl
  show execCxfr tile seat s = _
  unfold execCxfr
  rw [onIssue_eq h]
  dsimp only
  rw [if_neg (by rw [Tile.cq] at hq; simp only [hb]; simp; omega), if_neg (by omega), if_neg (by omega), hws', if_neg (by omega), hc]
  rfl

/-- Issue changes neither courier queue. -/
theorem issued_cq (s : State) (i : Issue) (x : Tile) (pc : Nat) (f : Seat → Seat) (cr : Nat) :
    (((s.setTile i.tile x).issued i pc f).tile i.tile).cq cr = x.cq cr := by
  obtain ⟨g, l, hg⟩ := issued_tile (s.setTile i.tile x) i pc f
  rw [hg, State.tile_setTile_self]
  rfl

end

/-! ### Completion of a transfer -/

/-- A complete transfer changes the tile's list of outstanding transfers and its seat alone (R290). -/
theorem Tile.crrComplete_eq (t : Tile) (seat seq : Nat) : ∃ crr seats, t.crrComplete seat seq = { t with crr := crr, seats := seats } := by
  have hcount : ∀ (l : List Nat) (t : Tile), ∃ seats, l.foldl (fun t _ => t.countCrr seat) t = { t with seats := seats } := by
    intro l
    induction l with
    | nil => exact fun t => ⟨t.seats, rfl⟩
    | cons k l ih =>
      intro t
      obtain ⟨seats, hs⟩ := ih (t.countCrr seat)
      exact ⟨seats, by rw [List.foldl_cons, hs]; rfl⟩
  obtain ⟨seats, hs⟩ := hcount _ { t with crr := _ }
  exact ⟨_, seats, hs⟩

@[simp] theorem State.srDraws_tile (s : State) (tile p : Nat) (c : Cx) (k : Nat) : (s.srDraws tile p c).tile k = s.tile k := by
  unfold State.srDraws
  split
  · exact State.tile_count ..
  · rfl

theorem Tile.setCq_cq (t : Tile) (cr : Nat) (l : List Xfer) : (t.setCq cr l).cq cr = l := by
  unfold Tile.setCq Tile.cq
  by_cases h : cr = 0 <;> simp [h]

/-- A courier's queue is all that `Tile.setCq` changes. -/
theorem Tile.setCq_eq (t : Tile) (cr : Nat) (l : List Xfer) : ∃ a b, t.setCq cr l = { t with tc0 := a, tc1 := b } := by
  unfold Tile.setCq
  split
  · exact ⟨l, t.tc1, rfl⟩
  · exact ⟨t.tc0, l, rfl⟩

section
variable {s : State} {tile cour : Nat} {x : Xfer} {rest : List Xfer} {foot : List (Nat × Nat)}

/-- Nothing is mended where nothing that is read is poisoned (R277). -/
theorem State.mendAtlas_clean {p die : Nat} {host : List (Nat × Byte)} (h : ∀ f ∈ foot, s.vpoison p f.1 f.2 = false) : s.mendAtlas p die host foot = s := by
  rw [State.mendAtlas, if_neg]
  rw [List.any_eq_true]
  rintro ⟨f, hf, hp⟩
  simp [h f hf] at hp

/-- The tile in which transfer `x` counts as complete, where it is still outstanding. -/
def Tile.crrDone (t : Tile) (x : Xfer) : Tile := if t.crr.any (fun y => y.seq == x.seq) then t.crrComplete x.seat x.seq else t

theorem Tile.crrDone_eq (t : Tile) (x : Xfer) : ∃ crr seats, t.crrDone x = { t with crr := crr, seats := seats } := by
  unfold Tile.crrDone
  split
  · exact Tile.crrComplete_eq ..
  · exact ⟨_, _, rfl⟩

/-- LOAD_COMPLETE of a transfer that nothing holds back: its block is in the sheet store (R290, R296). -/
theorem exec_loadComplete (ht : tile < 4224) (hq : (s.tile tile).cq cour = x :: rest) (hst : (Cx.of x.insn x.words).store = false)
    (hfoot : foot = (Cx.of x.insn x.words).foot (sideNib s x.ctx.prov (Cx.of x.insn x.words).fm) (sideBs s x.ctx.prov (Cx.of x.insn x.words).fm))
    (ho : s.overtakes tile x.ctx.prov x.seq { sw := x.sheet s x.ctx.prov } = false) (hp : ∀ f ∈ foot, s.vpoison x.ctx.prov f.1 f.2 = false)
    (hr : s.readHeld x.ctx.prov x.frame foot = false) (hopen : s.hbmOpen x.ctx.prov 0 foot = true) (hbad : (s.tile tile).badWords = [])
    (hvq : ∀ v l, (s.tile tile).vq = v :: l → opcOf v.insn ≠ 0x07) :
    ∃ t, exec (.loadComplete tile cour) s = .next t ∧ t.mem = s.mem ∧
      ∃ crr seats, t.tile tile = { ((s.tile tile).setCq cour rest).putBytes (s.loadCells x) with crr := crr, seats := seats } := by
  obtain ⟨a, b, hset⟩ := (s.tile tile).setCq_eq cour rest
  have hany : (foot.any fun f => s.vpoison x.ctx.prov f.1 f.2) = false := by
    rw [List.any_eq_false]
    intro f hf
    simp [hp f hf]
  have hwrite : (s.setTile tile ((s.tile tile).setCq cour rest)).sheetWrite tile (s.loadCells x) =
      (s.setTile tile ((s.tile tile).setCq cour rest)).setTile tile (((s.tile tile).setCq cour rest).putBytes (s.loadCells x)) := by
    rw [State.sheetWrite_clean (by rw [State.tile_setTile_self, hset]; exact hbad), State.tile_setTile_self]
  generalize hu : (s.setTile tile ((s.tile tile).setCq cour rest)).setTile tile (((s.tile tile).setCq cour rest).putBytes (s.loadCells x)) = u at hwrite
  have hut : u.tile tile = ((s.tile tile).setCq cour rest).putBytes (s.loadCells x) := by rw [← hu, State.tile_setTile_self]
  have hum : u.mem = s.mem := by rw [← hu, State.setTile_mem, State.setTile_mem]
  -- the state in which the transfer counts as complete
  have hv : ∃ v, (if (u.tile tile).crr.any (fun y => y.seq == x.seq) then u.setTile tile ((u.tile tile).crrComplete x.seat x.seq) else u) = v ∧
      v.mem = s.mem ∧ v.tile tile = (u.tile tile).crrDone x := by
    refine ⟨_, rfl, ?_⟩
    unfold Tile.crrDone
    split
    · exact ⟨hum, State.tile_setTile_self ..⟩
    · exact ⟨hum, rfl⟩
  obtain ⟨v, hv, hvm, hvt⟩ := hv
  obtain ⟨crr, seats, hdone⟩ := (u.tile tile).crrDone_eq x
  rw [hdone, hut, hset] at hvt
  generalize hev : ({ unit := srvTile tile, event := 0x0A, n := (Cx.of x.insn x.words).outSize v x.ctx.prov / 64, prov := x.ctx.prov, master := some 3,
                      addr := some (Cx.of x.insn x.words).maddr } : SrvEv) = ev
  refine ⟨(v.srDraws tile x.ctx.prov (Cx.of x.insn x.words)).count ev, ?_, ?_, crr, seats, ?_⟩
  · show execLoadComplete tile cour s = _
    rw [execLoadComplete, onTile, if_pos ht, hq]
    dsimp only
    rw [← hfoot, hst, ho, hr, hopen, if_neg (by decide), State.mendAtlas_clean hp, hany, if_neg (by decide), hwrite, hv, hev, State.drainStores_idle]
    rw [State.tile_count, State.srDraws_tile, hvt]
    exact hvq
  · rw [State.count_mem, State.srDraws_mem, hvm]
  · rw [State.tile_count, State.srDraws_tile, hvt, hset]

/-- STORE_COMPLETE of a transfer that nothing holds back: its block is in the outbox (R290, R297). -/
theorem exec_storeComplete (ht : tile < 4224) (hq : (s.tile tile).cq cour = x :: rest) (hst : (Cx.of x.insn x.words).store = true)
    (ho : s.overtakes tile x.ctx.prov x.seq { sr := x.sheet s x.ctx.prov } = false)
    (hroom : s.outTaken tile x.ctx.prov x + (Cx.of x.insn x.words).outSize s x.ctx.prov ≤ 65536)
    (hbad : (x.sheet s x.ctx.prov).any (fun r => (s.tile tile).readBad r.lo (r.hi - r.lo)) = false)
    (hvq : ∀ v l, (s.tile tile).vq = v :: l → opcOf v.insn ≠ 0x07) {o : OutEntry}
    (hout : o = ⟨x.seq, x.rel.isNone, (Cx.of x.insn x.words).outSize s x.ctx.prov, s.storeCells tile x, x.rel.getD 0, x.ctx.prov, x.ctx.pframe⟩) :
    ∃ t, exec (.storeComplete tile cour) s = .next t ∧ t.mem = s.mem ∧
      ∃ crr seats, t.tile tile = { (s.tile tile).setCq cour rest with outbox := (s.tile tile).outbox ++ [o], crr := crr, seats := seats } := by
  obtain ⟨a, b, hset⟩ := (s.tile tile).setCq_eq cour rest
  obtain ⟨crr, seats, hdone⟩ := Tile.crrDone_eq { (s.tile tile).setCq cour rest with outbox := (s.tile tile).outbox ++ [o] } x
  refine ⟨(s.setTile tile (Tile.crrDone { (s.tile tile).setCq cour rest with outbox := (s.tile tile).outbox ++ [o] } x)).srDraws tile x.ctx.prov
    (Cx.of x.insn x.words), ?_, ?_, crr, seats, ?_⟩
  · show execStoreComplete tile cour s = _
    rw [execStoreComplete, onTile, if_pos ht]
    dsimp only
    rw [hq]
    dsimp only
    rw [if_neg (by rw [hst, ho]; simpa using hroom), hbad, if_neg (by decide), ← hout]
    refine congrArg Host.Outcome.next (State.drainStores_idle ?_ 8)
    rw [State.srDraws_tile, State.tile_setTile_self]
    show ∀ v l, (Tile.crrDone { (s.tile tile).setCq cour rest with outbox := (s.tile tile).outbox ++ [o] } x).vq = v :: l → _
    rw [hdone, hset]
    exact hvq
  · rw [State.srDraws_mem, State.setTile_mem]
  · rw [State.srDraws_tile, State.tile_setTile_self, hdone]

end

/-! ### OUTBOX_DRAIN -/

theorem State.vwrite_mem_congr {s t : State} (hmem : t.mem = s.mem) (hpoison : t.poison = s.poison) (hprovs : t.provs = s.provs) (p : Nat)
    (ws : List (Nat × Byte)) : (t.vwrite p ws).mem = (s.vwrite p ws).mem := by
  unfold State.vwrite State.mwrite
  dsimp only
  rw [hmem, hpoison, State.prov_congr hprovs]

theorem State.talonPut_tiles (s : State) (n h : Nat) : (s.talonPut n h).tiles = s.tiles := by
  unfold State.talonPut
  dsimp only
  split <;> rfl

theorem State.tile_foldl {α : Type} {k : Nat} (f : State → α → State) (h : ∀ v a, (f v a).tile k = v.tile k) (l : List α) (s : State) :
    (l.foldl f s).tile k = s.tile k :=
  foldl_proj (fun v : State => v.tile k) f l s h

/-- The puts that are due leave every tile but its own list of them as it was. -/
theorem State.putsDue_tile (s : State) (tile : Nat) :
    (∃ l, (s.putsDue tile).tile tile = { (s.tile tile) with duePuts := l }) ∧ ∀ k, k ≠ tile → (s.putsDue tile).tile k = s.tile k := by
  refine ⟨⟨(s.tile tile).duePuts.drop ((s.tile tile).duePuts.takeWhile (fun d => !(s.tile tile).unmade d.1)).length, ?_⟩, fun k hk => ?_⟩
  · rw [State.putsDue, State.tile_foldl, State.tile_setTile_self]
    intro v d
    split
    · exact State.tile_congr (State.talonPut_tiles ..) _
    · rfl
  · rw [State.putsDue, State.tile_foldl, State.tile_setTile_ne _ _ hk]
    intro v d
    split
    · exact State.tile_congr (State.talonPut_tiles ..) _
    · rfl

section
variable (s : State) (tile : Nat) (o : OutEntry)

/-- The state whose writes a drained entry makes. -/
theorem State.drainOne_mem : (s.drainOne tile o).mem = (s.vwrite o.prov o.cells).mem := by
  rw [State.drainOne]
  rw [State.putsDue_mem]
  refine State.vwrite_mem_congr ?_ ?_ ?_ _ _
  · rw [State.count_mem, State.setTile_mem]
  · rw [State.count_poison]
    rfl
  · rw [State.count_provs]
    rfl

theorem State.vwrite_tile (p k : Nat) (ws : List (Nat × Byte)) : (s.vwrite p ws).tile k = s.tile k :=
  State.tile_congr (State.mwrite_tiles ..) k

theorem State.drainOne_outbox : ((s.drainOne tile o).tile tile).outbox = (s.tile tile).outbox.filter (fun y => y.seq != o.seq) := by
  rw [State.drainOne]
  obtain ⟨⟨l, hl⟩, -⟩ := State.putsDue_tile (((s.setTile tile { (s.tile tile) with outbox := (s.tile tile).outbox.filter (fun y => y.seq != o.seq) }).count
    { unit := srvTile tile, event := 0x0A, n := o.size / 64, prov := o.prov, master := some 3, addr := o.cells.head?.map Prod.fst }).vwrite o.prov o.cells) tile
  rw [hl, State.vwrite_tile, State.tile_count, State.tile_setTile_self]

theorem State.drainOne_tile_ne {k : Nat} (hk : k ≠ tile) : (s.drainOne tile o).tile k = s.tile k := by
  rw [State.drainOne]
  obtain ⟨-, hne⟩ := State.putsDue_tile (((s.setTile tile { (s.tile tile) with outbox := (s.tile tile).outbox.filter (fun y => y.seq != o.seq) }).count
    { unit := srvTile tile, event := 0x0A, n := o.size / 64, prov := o.prov, master := some 3, addr := o.cells.head?.map Prod.fst }).vwrite o.prov o.cells) tile
  rw [hne k hk, State.vwrite_tile, State.tile_count, State.tile_setTile_ne _ _ hk]

variable {s tile o}

theorem exec_outboxDrain (ht : tile < 4224) (h : s.nextDrain tile = some o) : exec (.outboxDrain tile) s = .next ((s.drainOne tile o).wakeColls o.prov) := by
  show execOutboxDrain tile s = _
  rw [execOutboxDrain, onTile, if_pos ht, h]

end

/-- Settles O19: a transfer's queue, its block and the outbox are read off the tile that each command leaves; a drained entry's writes are `State.vwrite`'s. -/
theorem courierTransfers : Obligations.CourierTransfers := by
  unfold Obligations.CourierTransfers
  intro s tile seat cour i ws x rest o foot ht
  refine ⟨fun h hws hq hb hlo hhi hz hrm h0 h1 h2 hc => ?_, fun hq hst hfoot ho hp hr hopen hbad hvq => ?_, fun hq hst ho hroom hbad hvq => ?_, fun h => ?_⟩
  · refine ⟨_, s.newXfer tile seat i ws, exec_cxfr h hws hq hb hlo hhi hz hrm h0 h1 h2 hc, rfl, rfl, rfl, rfl, rfl, rfl, ?_, ?_⟩
    · obtain rfl := h.tile_eq
      rw [issued_cq, State.xferTile_cq]
    · refine issued_queued h.issue ht ?_ ?_ ?_ ?_ _ fun y => ⟨fun r => ?_, ?_⟩
      all_goals rfl
  · obtain ⟨t, hexec, hmem, crr, seats, htile⟩ := exec_loadComplete ht hq hst hfoot ho hp hr hopen hbad hvq
    obtain ⟨a, b, hset⟩ := (s.tile tile).setCq_eq cour rest
    have hcq := (s.tile tile).setCq_cq cour rest
    refine ⟨t, hexec, ?_, ?_, hmem, ?_⟩
    · rw [htile]
      exact hcq
    · rw [htile, hset]
      rfl
    · rw [htile, hset]
      rfl
  · obtain ⟨t, hexec, hmem, crr, seats, htile⟩ := exec_storeComplete ht hq hst ho hroom hbad hvq rfl
    obtain ⟨a, b, hset⟩ := (s.tile tile).setCq_eq cour rest
    have hcq := (s.tile tile).setCq_cq cour rest
    refine ⟨t, hexec, ?_, hmem, ?_, ?_⟩
    · rw [htile]
      exact hcq
    · rw [htile, hset]
    · rw [htile]
  · exact ⟨exec_outboxDrain ht h, s.drainOne_mem tile o, s.drainOne_outbox tile o, fun k hk => s.drainOne_tile_ne tile o hk⟩

end Sys2Proof.Machine
end

section
/-! Chains (O20, refuted) and Talons (O21) (R304–R317). -/
namespace Sys2Proof.Machine

/-! ### A chain whose host writes are unconfirmed -/

section
variable {s : State} {bulk : Nat} {j : ChainJob} {rest : List ChainJob}

/-- CHAIN_START leaves a chain that has written the host waiting while the host is not there, whether or not its next descriptor uses it (R308, R525). -/
theorem exec_chainStart_hostWrote (hb : bulk < 128) (hq : (s.bulk bulk).queue = j :: rest) (hst : (s.bulk bulk).st ≠ .running)
    (hmade : (s.tile j.tile).unmade j.afterSeq = false) (hfatal : s.fld 0 TST_STATUS_FATAL = 0)
    (hclean : ∀ f ∈ (s.img j.ctx.prov).chainSpans j.req.chain, s.vpoison j.ctx.prov f.1 f.2 = false)
    (hd : s.descBad j.ctx.prov (s.jobDesc j).1 (s.jobDesc j).2.1 (s.jobDesc j).2.2 = false) (hw : j.hostWrote = true)
    (hup : s.hostUp j.ctx.prov = false) :
    exec (.chainStart bulk) s = .next (s.setBulk bulk { (s.bulk bulk) with st := .waitHost, last := j.req.chain }) := by
  show execChainStart bulk s = _
  rw [execChainStart, if_neg (by omega)]
  dsimp only
  rw [hq]
  dsimp only
  rw [if_neg (by simp [hst, hmade, hfatal]), State.mendAtlas_clean hclean, hd, if_neg (by decide), hw, hup, if_pos (by simp)]

/-- A trick of province 1. -/
def hostWroteCtx : TrickCtx :=
  { prov := 1, tileIdx := 0, trick := 0, mbatch := 0, prog := 0, first := 0, last := 0, started := 1, pframe := 0, dframe := 0, step := 0, pro := false,
    rank := 0, nranks := 1, ntiles := 1, repoch := 0, pin := false, stolen := false, bwdEnd := false }

/-- A chain that has written the host and is about to run its first descriptor. -/
def hostWroteJob : ChainJob := { req := ⟨0, 0, 0⟩, ctx := hostWroteCtx, tile := 0, afterSeq := 0, hostWrote := true }

/-- Province 1 with an Atlas image in which that descriptor fills one quad of DATA with zeros (op 1 at 0x5FC0_0040, its format 16 three bytes on), the
job idle at the head of courier 127, and function 0 without Bus Master Enable. -/
def hostWroteState : State :=
  { State.reset with
    bulks := [(127, { st := .idle, queue := [hostWroteJob] })]
    provs := [(1, { units := [(0, 0)], chans := [0], atlasSize := 4096 })]
    mem := [(1606418496, 1), (1606418499, 16)] }

end

/-- Refutes O20: an idle courier's chain that wrote the host earlier, with the host away, waits even though its next descriptor touches no HOST address; the
statement has it start, for its clause on CHAIN_START does not ask that the job's host writes be confirmed. -/
theorem not_chainsRunDescriptorByDescriptor : ¬ Obligations.ChainsRunDescriptorByDescriptor := by
  unfold Obligations.ChainsRunDescriptorByDescriptor
  intro h
  have hclean : ∀ f ∈ (hostWroteState.img 1).chainSpans 0, hostWroteState.vpoison 1 f.1 f.2 = false := fun _ _ => rfl
  have hdesc : hostWroteState.descBad 1 (hostWroteState.jobDesc hostWroteJob).1 (hostWroteState.jobDesc hostWroteJob).2.1
      (hostWroteState.jobDesc hostWroteJob).2.2 = false := by decide +kernel
  have hmade : (hostWroteState.tile 0).unmade 0 = false := by decide +kernel
  have hfatal : hostWroteState.fld 0 TST_STATUS_FATAL = 0 := by decide +kernel
  have hup : hostWroteState.hostUp 1 = false := by decide +kernel
  have hhost : hostWroteState.usesHost 1 (hostWroteState.jobDesc hostWroteJob).1 (hostWroteState.jobDesc hostWroteJob).2.1 = false := by decide +kernel
  have hidle : (hostWroteState.bulk 127).st ≠ .running := by decide +kernel
  obtain ⟨-, hchain⟩ := h hostWroteState 0 0 127 0 ⟨0, 0, {}, hostWroteCtx, 0, 0⟩ hostWroteJob [] [] 1 _ [] [] (by decide)
  obtain ⟨hstart, -⟩ := hchain rfl rfl rfl
  obtain ⟨hruns, -⟩ := hstart hidle hmade hfatal hclean hdesc
  obtain ⟨t, hexec, hrun, -⟩ := hruns (.inl hhost)
  have hwaits : exec (.chainStart 127) hostWroteState = _ := exec_chainStart_hostWrote (by decide) rfl hidle hmade hfatal hclean hdesc rfl hup
  obtain rfl := Host.Outcome.next.inj (hexec.symm.trans hwaits)
  rw [State.bulk_setBulk_self] at hrun
  exact nomatch hrun

/-! ### Talons -/

section
variable {s : State} {tile seat n : Nat} {i : Issue}

@[simp] theorem Seat.talDone_wake (x : Seat) : x.wake.talDone = x.talDone := by
  unfold Seat.wake
  split
  · exact (apply_ite Seat.talDone _ _ _).trans (ite_self _)
  · rfl

@[simp] theorem Seat.pc_wake (x : Seat) : x.wake.pc = x.pc := by
  unfold Seat.wake
  split
  · exact (apply_ite Seat.pc _ _ _).trans (ite_self _)
  · rfl

@[simp] theorem Seat.reg_wake (x : Seat) (r : Nat) : x.wake.reg r = x.reg r := by
  unfold Seat.wake
  split
  · exact (apply_ite (Seat.reg · r) _ _ _).trans (ite_self _)
  · rfl

/-- Another operation of the seat is counted in TALDONE (R191). -/
theorem Tile.countTal_talDone (t : Tile) (seat : Nat) : ((t.countTal seat).seat seat).talDone = inc32 (t.seat seat).talDone := by
  rw [Tile.countTal, Tile.seat_setSeat_self, Seat.talDone_wake]

theorem Tile.countTal_pc (t : Tile) (seat : Nat) : ((t.countTal seat).seat seat).pc = (t.seat seat).pc := by
  rw [Tile.countTal, Tile.seat_setSeat_self, Seat.pc_wake]

theorem Tile.countTal_reg (t : Tile) (seat r : Nat) : ((t.countTal seat).seat seat).reg r = (t.seat seat).reg r := by
  rw [Tile.countTal, Tile.seat_setSeat_self, Seat.reg_wake]
  rfl

theorem Seat.talDone_arrive (x : Seat) (rd seq : Nat) (v : W64) : (x.arrive rd seq v).talDone = x.talDone := by
  obtain ⟨y, -, htal, hy⟩ := x.arrive_eq rd seq v
  have hset : (y.setReg rd v).talDone = y.talDone := by
    unfold Seat.setReg
    split <;> rfl
  rw [hy]
  split
  · rw [hset, htal]
  · exact htal

theorem State.talon_congr {s t : State} (h : t.talons = s.talons) (k : Nat) : t.talon k = s.talon k := by
  unfold State.talon
  rw [h]

theorem exec_tput (h : s.Issues tile seat 0x34 i) (hb : i.blocked [bits i.insn 50 5] = false) (hz : bits i.insn 0 50 = 0)
    (ht : (s.talonOf i.c.prov (bits i.insn 55 3)).isSome = true) (hp : (s.tile tile).puts.length < 16) {u : State}
    (hu : u = (s.setTile tile { (s.tile tile) with puts := (s.tile tile).puts ++ [(bits i.insn 55 3, i.reg (bits i.insn 50 5) % 2 ^ 32)] }).issued i (i.pc + 1) id) :
    exec (.tput tile seat) s = .next (u.setTile tile ((u.tile tile).countTal seat)) := by
  show execTput tile seat s = _
  unfold execTput
  rw [onIssue_eq h]
  dsimp only
  rw [State.readyOr_ready hb, if_neg (by simp [hz]), if_neg (by simpa using Option.isSome_iff_ne_none.mp ht), if_neg (by omega), hu]

theorem exec_ttake (h : s.Issues tile seat 0x35 i) (hz : bits i.insn 0 50 = 0) (ht : s.talonOf i.c.prov (bits i.insn 55 3) = some n)
    (hroom : (s.tile tile).taken.length + s.talons.foldl (fun n e => n + (e.2.waiters.filter (fun w => w.tile == tile)).length) 0 < 64) :
    exec (.ttake tile seat) s = .next (((s.setTalon n { (s.talon n) with
      waiters := (s.talon n).waiters ++ [⟨tile, seat, bits i.insn 50 5, (s.tile tile).seq⟩] }).setTile tile
        { (s.tile tile) with seq := (s.tile tile).seq + 1 }).issued i (i.pc + 1) (fun z => z.await (bits i.insn 50 5) (s.tile tile).seq)) := by
  show execTtake tile seat s = _
  unfold execTtake
  rw [onIssue_eq h]
  dsimp only
  rw [if_neg (by simp [hz]), ht]
  dsimp only
  rw [if_neg (by omega)]

/-- The first waiter takes the first handle (R314). -/
theorem exec_ttakeComplete {w : TakeWait} {ws : List TakeWait} {h : Nat} {hs : List Nat} (hn : n < 512) (hw : (s.talon n).waiters = w :: ws)
    (hh : (s.talon n).handles = h :: hs) :
    exec (.ttakeComplete n) s = .next ((s.setTalon n { (s.talon n) with waiters := ws, handles := hs }).setTile w.tile
      ((({ (s.tile w.tile) with taken := (n, h) :: (s.tile w.tile).taken } : Tile).setSeat w.seat
        (((s.tile w.tile).seat w.seat).arrive w.rd w.seq (BitVec.ofNat 64 h))).countTal w.seat)) := by
  show execTtakeComplete n s = _
  rw [execTtakeComplete, if_neg (by omega)]
  dsimp only
  rw [hw, hh]
  rfl

theorem exec_talonPutAppend {h : Nat} {hs : List Nat} (hn : n < 512) (hp : (s.talon n).putWait = h :: hs) (hroom : (s.talon n).handles.length < 1024) :
    exec (.talonPutAppend n) s = .next (s.setTalon n { (s.talon n) with handles := (s.talon n).handles ++ [h], putWait := hs }) := by
  show execTalonPutAppend n s = _
  rw [execTalonPutAppend, if_neg (by omega)]
  dsimp only
  rw [hp]
  dsimp only
  rw [if_pos hroom]

end

/-- Settles O21: each command's lists are those of its Talon and of its tile; TALDONE and RD change in the seat that puts or takes alone. -/
theorem talonsAreFirstInFirstOut : Obligations.TalonsAreFirstInFirstOut := by
  unfold Obligations.TalonsAreFirstInFirstOut
  intro s tile seat talon h n i w ws hs
  refine ⟨fun hi hb hz ht hp => ?_, fun hi hz ht hroom => ?_, fun hn hw hh hbusy hrd => ?_, fun hn hp hroom => ?_⟩
  · refine ⟨_, exec_tput hi hb hz ht hp rfl, ?_⟩
    obtain rfl := hi.tile_eq
    obtain ⟨-, rfl, hx, -⟩ := issue_eq hi.issue
    generalize hput : ({ (s.tile i.tile) with puts := (s.tile i.tile).puts ++ [(bits i.insn 55 3, i.reg (bits i.insn 50 5) % 2 ^ 32)] } : Tile) = x
    have honly := issued_only (s.setTile i.tile x) i (i.pc + 1) id hi.tile_lt
    refine ⟨?_, ?_, ?_, ?_, ?_⟩
    · obtain ⟨g, l, hg⟩ := issued_tile (s.setTile i.tile x) i (i.pc + 1) id
      rw [State.tile_setTile_self, hg, State.tile_setTile_self, ← hput]
      rfl
    · rw [State.tile_setTile_self, Tile.countTal_talDone, issued_seat, ← hx]
      rfl
    · rw [State.spc, State.tile_setTile_self, Tile.countTal_pc, issued_seat]
      rfl
    · rw [State.setTile_mem, honly.mem, State.setTile_mem]
    · rw [State.setTile_talons, honly.talons, State.setTile_talons]
  · refine ⟨_, exec_ttake hi hz ht hroom, ?_⟩
    generalize hwait : ({ (s.talon n) with waiters := (s.talon n).waiters ++ [⟨tile, seat, bits i.insn 50 5, (s.tile tile).seq⟩] } : Talon) = y
    have hq := issued_queued (s := s.setTalon n y) hi.issue hi.tile_lt (x := { (s.tile tile) with seq := (s.tile tile).seq + 1 }) rfl rfl rfl rfl (i.pc + 1)
      (f := fun z => z.await (bits i.insn 50 5) (s.tile tile).seq) fun z => ⟨fun _ => Seat.reg_await .., Seat.pc_await ..⟩
    have honly := issued_only ((s.setTalon n y).setTile tile { (s.tile tile) with seq := (s.tile tile).seq + 1 }) i (i.pc + 1)
      (fun z => z.await (bits i.insn 50 5) (s.tile tile).seq) (hi.tile_eq ▸ hi.tile_lt)
    have htalon := (State.talon_congr (honly.talons.trans (State.setTile_talons ..)) n).trans (s.talon_setTalon_self n y)
    refine ⟨⟨hq.pc, hq.regs, hq.mem, hq.tiles, hq.seats, hq.sheet, hq.treg, hq.banks⟩, ?_, ?_⟩
    · rw [htalon, ← hwait]
    · rw [htalon, ← hwait]
  · refine ⟨_, exec_ttakeComplete hn hw hh, ?_, ?_, ?_, ?_, ?_, ?_⟩
    · rw [State.talon_congr (State.setTile_talons ..), State.talon_setTalon_self]
    · rw [State.talon_congr (State.setTile_talons ..), State.talon_setTalon_self]
    · rw [State.sreg, State.tile_setTile_self, Tile.countTal_reg, Tile.seat_setSeat_self, Seat.reg_arrive_self hbusy hrd]
    · rw [State.tile_setTile_self]
      rfl
    · rw [State.tile_setTile_self, Tile.countTal_talDone, Tile.seat_setSeat_self, Seat.talDone_arrive]
    · rw [State.setTile_mem, State.setTalon_mem]
  · refine ⟨_, exec_talonPutAppend hn hp hroom, ?_, ?_, ?_, fun k hk => ?_⟩
    · rw [State.talon_setTalon_self]
    · rw [State.talon_setTalon_self]
    · rw [State.talon_setTalon_self]
    · exact State.talon_setTalon_ne _ _ hk

end Sys2Proof.Machine
end

section
/-! Memory: writes of a word (O24), reads of a word (O25, refuted), upkeep (O26, refuted) (R271–R277). -/
namespace Sys2Proof.Machine

theorem State.mbyte_congr {s t : State} (h : t.mem = s.mem) (a : Nat) : t.mbyte a = s.mbyte a := by
  unfold State.mbyte
  rw [h]

/-! ### Writes -/

section
variable {s : State} {word cls slot : Nat} {cells : List (Nat × Byte)} {w : ParityWrite}

/-- Counting the bursts of a write changes neither memory nor poison, no tile and no province. -/
theorem exec_memoryWrite (h : s.mayServe word cls slot = true) (h0 : cls ≠ 0) (h3 : cls ≤ 3) :
    ∃ u : State, exec (.memoryWrite ⟨word, slot⟩ cls cells false) s = .next (u.mwrite (wordCells word cells)) ∧ u.mem = s.mem ∧ u.poison = s.poison ∧
      u.tiles = s.tiles ∧ u.provs = s.provs := by
  have hexec : exec (.memoryWrite ⟨word, slot⟩ cls cells false) s = execMemoryWrite ⟨word, slot⟩ cls cells false s := rfl
  rw [hexec, execMemoryWrite]
  dsimp only
  rw [if_neg (by simp [h]; omega), if_neg (by decide)]
  refine ⟨_, rfl, ?_⟩
  unfold State.countBurst
  split <;> simp

theorem exec_memoryWrite_bad (h : s.mayServe word cls slot = true) (h0 : cls ≠ 0) (h3 : cls ≤ 3) :
    exec (.memoryWrite ⟨word, slot⟩ cls cells true) s = .next { s with memc := { s.memc with wretry := s.memc.wretry ++ [⟨word, cls, cells⟩] } } := by
  show execMemoryWrite _ _ _ _ s = _
  rw [execMemoryWrite]
  dsimp only
  rw [if_neg (by simp [h]; omega), if_pos rfl]

/-- With each address written once, every byte of the write is read back. -/
theorem mbyte_mwrite_mem {ws : List (Nat × Byte)} (hp : s.poison = []) (hws : ws.Pairwise fun x y => x.1 ≠ y.1) {c : Nat × Byte} (hc : c ∈ ws) :
    (s.mwrite ws).mbyte c.1 = c.2 := by
  have hrev : ws.reverse.Pairwise fun x y => x.1 ≠ y.1 := List.pairwise_reverse.mpr (hws.imp fun h => h.symm)
  have hfind : ∀ l : List (Nat × Byte), l.Pairwise (fun x y => x.1 ≠ y.1) → c ∈ l → l.find? (fun w => w.1 == c.1) = some c := by
    intro l hl hmem
    induction l with
    | nil => simp at hmem
    | cons x l ih =>
      obtain ⟨hx, hl⟩ := List.pairwise_cons.mp hl
      rcases List.mem_cons.mp hmem with rfl | hmem
      · rw [List.find?_cons_of_pos (by simp)]
      · rw [List.find?_cons_of_neg (by simpa using hx c hmem), ih hl hmem]
  rw [mbyte_mwrite hp, hfind _ hrev (List.mem_reverse.mpr hc)]

/-- The write of a word that is held for its second sending (R271). -/
theorem exec_writeParityRetry (hq : s.memc.wretry = [w]) (hw : w.word = word) (h : s.mayServe word w.cls slot = true) (bad : Bool) :
    exec (.writeParityRetry ⟨word, slot⟩ bad) s =
      if bad then .next ((({ s with memc := { s.memc with wretry := [] } } : State).poison64 word).raise
        (memRec { s with memc := { s.memc with wretry := [] } } PARITY_ERR word 0xFFFF))
      else exec (.memoryWrite ⟨word, slot⟩ w.cls w.cells false) { s with memc := { s.memc with wretry := [] } } := by
  subst hw
  show execWriteParityRetry _ _ s = _
  rw [execWriteParityRetry, hq]
  dsimp only
  rw [List.find?_cons_of_pos (by simp)]
  dsimp only
  rw [if_neg (by simp [h]), List.erase_cons_head]
  rfl

/-- The word that is poisoned reads as zeros; no other byte changes (R272). -/
theorem State.mbyte_poison64 (s : State) (word a : Nat) : (s.poison64 word).mbyte a = if a / 64 = word then 0 else s.mbyte a := by
  rw [State.poison64, State.mbyte_congr (State.incFld_mem ..), mbyte_poisonWord]

theorem State.poison64_poison (s : State) (word : Nat) : Sparse.get false (s.poison64 word).poison word = true := by
  rw [State.poison64, State.incFld_poison]
  show Sparse.get false (Sparse.set false s.poison word true) word = true
  exact Sparse.get_set_self

end

/-- Settles O24: a write that is served is `State.mwrite` of the word's own bytes; one whose parity failed twice is `State.poison64`. -/
theorem memoryWritesChangeTheirBytesAlone : Obligations.MemoryWritesChangeTheirBytesAlone := by
  unfold Obligations.MemoryWritesChangeTheirBytesAlone
  intro s word cls slot cells w
  refine ⟨fun h h0 h3 => ⟨fun hp hcells => ?_, ?_⟩, fun hq hw h => ⟨?_, ?_⟩⟩
  · obtain ⟨u, hexec, hmem, hpoison, htiles, hprovs⟩ := exec_memoryWrite (cells := cells) h h0 h3
    refine ⟨_, hexec, fun c hc => mbyte_mwrite_mem (hpoison.trans hp) hcells hc, fun a ha => ?_, ?_, ?_⟩
    · rw [mbyte_mwrite_other ha, State.mbyte_congr hmem]
    · rw [State.mwrite_tiles, htiles]
    · rw [State.mwrite_provs, hprovs]
  · exact ⟨_, exec_memoryWrite_bad h h0 h3, rfl, rfl⟩
  · rw [exec_writeParityRetry hq hw h, if_neg (by decide)]
  · refine ⟨_, by rw [exec_writeParityRetry hq hw h, if_pos rfl], fun a => ?_, ?_, ?_⟩
    · rw [State.mbyte_congr (State.raise_mem ..), State.mbyte_poison64]
      rfl
    · rw [State.raise_poison, State.poison64_poison]
    · rw [State.raise_memc, State.poison64, State.incFld_memc]
      rfl

/-! ### Reads -/

/-- Channel 0 of province 1, whose Survey counter of class 0 bursts is one short of its half range. -/
def halfRangeState : State :=
  ({ State.reset with memc := { State.reset.memc with slots := [(0, ⟨1, 7, 1, 16⟩)] } } : State).setFld (srvChan 0) (SRV_FIX_COUNT 0) (2 ^ 47 - 1)

/-- Refutes O25: an uncorrectable word's first read counts its burst, and a Survey counter that reaches its half range by that tells the steward, so
what the device has sent is not always as before. -/
theorem not_memoryReadsDeliverTheWord : ¬ Obligations.MemoryReadsDeliverTheWord := by
  unfold Obligations.MemoryReadsDeliverTheWord
  intro h
  have hserve : halfRangeState.mayServe 0 0 0 = true := by decide +kernel
  obtain ⟨-, -, hbad, -⟩ := h halfRangeState 0 0 0 hserve (by decide) (by decide)
  obtain ⟨t, hexec, -, hsent, -⟩ := hbad rfl
  have hirq : (match exec (.memoryRead ⟨0, 0⟩ 0 .bad 0) halfRangeState with | .next u => u.sent.length | _ => 0) = 1 := by decide +kernel
  have hnone : halfRangeState.sent.length = 0 := by decide +kernel
  rw [hexec] at hirq
  simp only [hsent, hnone] at hirq
  exact absurd hirq (by decide)

/-! ### Upkeep -/

/-- A row of channel 0 whose repair is about to end, while a write of province 1 waits for a slot that is open to it. -/
def waitingWriteState : State :=
  { State.reset with
    errs := { State.reset.errs with rows := [⟨2048, 0x5FF00000⟩] }
    provs := [(1, { units := [(0, 0)], chans := [0] })]
    memc := { State.reset.memc with slots := [(0, ⟨1, 7, 1, 16⟩)], waits := [⟨1, 1, [(4096, 5)]⟩] } }

/-- Refutes O26: the end of a row repair also sends the writes that waited, so memory is not always that of the granule written back. -/
theorem not_memoryUpkeep : ¬ Obligations.MemoryUpkeep := by
  unfold Obligations.MemoryUpkeep
  intro h
  obtain ⟨-, -, hrepair, -⟩ := h waitingWriteState 0 0 0 0 1 0 0 ⟨0, 0, 0, false⟩ ⟨2048, 0x5FF00000⟩ 0
  obtain ⟨t, hexec, -, -, hmem, -⟩ := hrepair rfl rfl
  have hsent : (match exec (.rowRepairDone 1) waitingWriteState with | .next u => u.mem.length | _ => 0) = 1 := by decide +kernel
  have hcopy : (waitingWriteState.copyGranule 0x5FF00000 (1 * 2048)).mem.length = 0 := by decide +kernel
  rw [hexec] at hsent
  simp only [hmem, hcopy] at hsent
  exact absurd hsent (by decide)

end Sys2Proof.Machine
end

section
/-! Frame boundaries (O27) (R20–R31). -/
namespace Sys2Proof.Machine

/-- A period switch, made, refused or not due, leaves the frame number. -/
theorem State.periodSwitch_frame (s : State) : s.periodSwitch.frame = s.frame := by
  unfold State.periodSwitch
  dsimp only
  split
  · rfl
  · split
    · unfold State.frame
      rw [State.fld_setFld_off _ _ (by decide), State.fld_setFld_off _ _ (by decide)]
    · unfold State.frame
      rw [State.fld_setReg_off _ _ (by decide), State.fld_setReg_off _ _ (by decide), State.fld_setFld_off _ _ (by decide),
        State.fld_setFld_off _ _ (by decide)]

/-- It leaves memory, the tiles, the provinces and the hands. -/
theorem State.periodSwitch_keeps (s : State) :
    s.periodSwitch.mem = s.mem ∧ s.periodSwitch.tiles = s.tiles ∧ s.periodSwitch.provs = s.provs ∧ s.periodSwitch.hands = s.hands := by
  unfold State.periodSwitch
  dsimp only
  split
  · exact ⟨rfl, rfl, rfl, rfl⟩
  · split <;> simp

/-- The number of the next frame: one more, or that of a forward step (R43). -/
def State.nextNum (s : State) : Nat := match s.mer.jump with | some j => max j (s.frame + 1) | none => s.frame + 1

/-- The registers at the tick: the next frame's number, and the period that a restart had in hand. -/
def State.tickRegs (s : State) : State :=
  match s.mer.boot with
  | some p => (s.setFld 0 MER_FRAME_NUM_FRAME s.nextNum).setFld 0 MER_TICK_PERIOD_PERIOD p
  | none => s.setFld 0 MER_FRAME_NUM_FRAME s.nextNum

theorem State.tickRegs_frame (s : State) : s.tickRegs.frame = s.nextNum % 2 ^ 64 := by
  have hnum : (s.setFld 0 MER_FRAME_NUM_FRAME s.nextNum).fld 0 MER_FRAME_NUM_FRAME = s.nextNum % 2 ^ 64 := State.fld_setFld_self _ _ _ _ (by decide)
  unfold State.tickRegs State.frame
  split
  · rw [State.fld_setFld_off _ _ (by decide), hnum]
  · exact hnum

theorem State.tickRegs_keeps (s : State) : s.tickRegs.mem = s.mem ∧ s.tickRegs.tiles = s.tiles ∧ s.tickRegs.provs = s.provs ∧ s.tickRegs.hands = s.hands := by
  unfold State.tickRegs
  split <;> simp

/-- The tick sets the next frame's number and the Meridian's clock, and then looks at an armed switch. -/
theorem State.tick_switch (s : State) : ∃ m, s.tick = ({ s.tickRegs with mer := m } : State).periodSwitch := ⟨_, rfl⟩

theorem State.tick_frame {s : State} (h : s.nextNum < 2 ^ 64) : s.tick.frame = s.nextNum := by
  obtain ⟨m, htick⟩ := s.tick_switch
  have hfld : ({ s.tickRegs with mer := m } : State).frame = s.tickRegs.frame := State.fld_congr rfl 0 _
  rw [htick, State.periodSwitch_frame, hfld, State.tickRegs_frame, Nat.mod_eq_of_lt h]

theorem State.tick_keeps (s : State) : s.tick.mem = s.mem ∧ s.tick.tiles = s.tiles ∧ s.tick.provs = s.provs ∧ s.tick.hands = s.hands := by
  obtain ⟨m, htick⟩ := s.tick_switch
  obtain ⟨hmem, htiles, hprovs, hhands⟩ := s.tickRegs_keeps
  obtain ⟨hmem', htiles', hprovs', hhands'⟩ := State.periodSwitch_keeps { s.tickRegs with mer := m }
  rw [htick]
  exact ⟨hmem'.trans hmem, htiles'.trans htiles, hprovs'.trans hprovs, hhands'.trans hhands⟩

section
variable {s : State} {held left : Nat}

theorem exec_frameBoundary (h : s.inReset = false) :
    exec (.frameBoundary held left) s = .next (((s.tick.endFrame held).repairBoundary).beginFrame left) := by
  show execFrameBoundary held left s = _
  rw [execFrameBoundary, if_neg (by simp [h])]

theorem exec_frameBoundary_reset (h : s.inReset = true) : exec (.frameBoundary held left) s = .next s := by
  show execFrameBoundary held left s = _
  rw [execFrameBoundary, if_pos h]

end

/-- Settles O27: the order of the boundary's parts is that of `State.endFrame`, `State.repairBoundary` and `State.beginFrame`. That a forward step takes effect
at the next boundary, as max j (frame + 1), is DEDUCED (log 17); that the writes kept for a channel are sent there, before the new frame's work, is a DESIGN
CHOICE (log 155). -/
theorem frameNumbersAdvance : Obligations.FrameNumbersAdvance := by
  unfold Obligations.FrameNumbersAdvance
  intro s a b held left
  refine ⟨fun h ha hb => ?_, exec_frameBoundary_reset, fun hj hlt => ?_, fun j hj hlt hjlt => ?_, s.tick_keeps⟩
  · have hend : s.tick.endFrame held = a := ha.symm
    rw [exec_frameBoundary h, hend, ← hb]
    rfl
  · have hnum : s.nextNum = s.frame + 1 := by rw [State.nextNum, hj]
    rw [State.tick_frame (hnum ▸ hlt), hnum]
  · have hnum : s.nextNum = max j (s.frame + 1) := by rw [State.nextNum, hj]
    rw [State.tick_frame (by omega), hnum]

end Sys2Proof.Machine
end

section
/-! The Meridian's states (O30) (R39–R47). -/
namespace Sys2Proof.Machine

/-! ### Fields of MER_STATUS -/

/-- A field of MER_STATUS that lies clear of another one. -/
def Fld.MerApart (g f : Fld) : Prop :=
  g.reg = MER_STATUS ∧ f.reg = MER_STATUS ∧ f.lo + f.width ≤ 64 ∧ (f.lo + f.width ≤ g.lo ∨ g.lo + g.width ≤ f.lo)

theorem State.fld_setFld_apart (s : State) {g f : Fld} (h : g.MerApart f) (v : Nat) : (s.setFld 0 f v).fld 0 g = s.fld 0 g := by
  obtain ⟨hg, hf, hw, hd⟩ := h
  exact State.fld_setFld_bits _ _ _ ⟨hg.trans hf.symm, hw, hd⟩

/-- An error record leaves MER_STATUS alone. -/
theorem State.merStatus_raise (s : State) (r : ErrRec) {g : Fld} (h : g.reg = MER_STATUS) : (s.raise r).fld 0 g = s.fld 0 g := by
  refine State.fld_raise _ _ (by decide) ?_
  rw [h]
  decide

section
variable (s : State) {st : Nat} {seen g : Fld}

theorem State.enterMer_state (hst : st < 4) (h : MER_STATUS_STATE.MerApart seen) : (s.enterMer st seen).fld 0 MER_STATUS_STATE = st := by
  rw [State.enterMer, State.merStatus_raise _ _ rfl, State.fld_setFld_apart _ h, State.fld_setFld_self _ _ _ _ (by decide)]
  exact Nat.mod_eq_of_lt hst

theorem State.enterMer_seen (h : seen.reg = MER_STATUS ∧ seen.lo + 1 ≤ 64 ∧ seen.width = 1) : (s.enterMer st seen).fld 0 seen = 1 := by
  obtain ⟨hr, hlo, hw⟩ := h
  rw [State.enterMer, State.merStatus_raise _ _ hr, State.fld_setFld_self _ _ _ _ (by rw [hw]; exact hlo), hw]
  rfl

theorem State.enterMer_apart (h : g.MerApart seen) (h' : g.MerApart MER_STATUS_STATE) : (s.enterMer st seen).fld 0 g = s.fld 0 g := by
  rw [State.enterMer, State.merStatus_raise _ _ h.1, State.fld_setFld_apart _ h, State.fld_setFld_apart _ h']

end

/-! ### An offset -/

/-- The fields of a register do not depend on the Meridian's own state. -/
@[simp] theorem State.fld_withMer (s : State) (m : MerState) (u : Nat) (g : Fld) : ({ s with mer := m } : State).fld u g = s.fld u g := rfl

/-- The step that an offset asks for, or none (R43). -/
def State.stepAsked (s : State) (e : Int) (n : Nat) : State :=
  if !s.wantsStep e n then s.setFld 0 MER_STATUS_STEP_PENDING 0 else if s.anyLive then s.setFld 0 MER_STATUS_STEP_PENDING 1 else s.forwardStep n

/-- The clock's first setting. -/
def State.clockSet (s : State) : State :=
  if s.mer.jump.isNone ∧ !s.mer.locked then { s with mer := { s.mer with locked := true, time := s.frameStart (s.fld 0 MER_FRAME_NUM_FRAME) } } else s

/-- The state after an offset has been noted: the step it asks for, the clock's first setting, MER_OFFSET (R42, R43). -/
def State.offsetNoted (s : State) (e : Int) (num : Option Nat) : State :=
  (s.stepAsked e (num.getD (s.fld 0 MER_FRAME_NUM_FRAME))).clockSet.setFld 0 MER_OFFSET_OFFSET
    (unsigned 32 (max (-(2 ^ 31 : Nat)) (min e ((2 ^ 31 - 1 : Nat) : Int))))

/-- The next state of the Meridian, from state `st` and the offset (R41). -/
def State.offsetJudged (s : State) (e : Int) (st : Nat) : State :=
  if st = MER_S_FREE then
    if e.natAbs ≤ 100 then s.setFld 0 MER_STATUS_STATE MER_S_LOCKED else ({ s with mer := { s.mer with good := 0 } }).enterMer MER_S_DRIFT MER_STATUS_DRIFT_SEEN
  else if st = MER_S_LOCKED then
    if e.natAbs ≤ 100 then s else ({ s with mer := { s.mer with good := 0 } }).enterMer MER_S_DRIFT MER_STATUS_DRIFT_SEEN
  else if st = MER_S_HOLDOVER then ({ s with mer := { s.mer with good := 0 } }).enterMer MER_S_DRIFT MER_STATUS_DRIFT_SEEN
  else if 80 < e.natAbs then { s with mer := { s.mer with good := 0 } }
  else if 7 ≤ s.mer.good then ({ s with mer := { s.mer with good := 0 } }).setFld 0 MER_STATUS_STATE MER_S_LOCKED
  else { s with mer := { s.mer with good := s.mer.good + 1 } }

/-- An offset is noted and judged, unless it is the first one and no clock can be set by it. -/
theorem State.evalOffset_eq (s : State) (e : Int) (num : Option Nat) : s.evalOffset e num =
    if s.fld 0 MER_STATUS_STATE = MER_S_FREE ∧ (!s.mer.locked && s.mer.jump.isNone) = true ∧
        (num.isNone ∨ (s.wantsStep e (num.getD (s.fld 0 MER_FRAME_NUM_FRAME)) ∧ s.anyLive)) then
      (if num.isSome then s.setFld 0 MER_STATUS_STEP_PENDING 1 else s)
    else (s.offsetNoted e num).offsetJudged e (s.fld 0 MER_STATUS_STATE) := rfl

/-- The fields of MER_STATUS that no offset touches before it is judged. -/
structure Fld.OffsetKeeps (g : Fld) : Prop where
  pending : g.MerApart MER_STATUS_STEP_PENDING
  stepped : g.MerApart MER_STATUS_STEPPED

theorem State.stepAsked_fld (s : State) (e : Int) (n : Nat) {g : Fld} (h : g.OffsetKeeps) : (s.stepAsked e n).fld 0 g = s.fld 0 g := by
  unfold State.stepAsked
  split
  · exact State.fld_setFld_apart _ h.pending _
  · split
    · exact State.fld_setFld_apart _ h.pending _
    · rw [State.forwardStep, State.fld_withMer, State.fld_setFld_apart _ h.pending, State.fld_setFld_apart _ h.stepped]

theorem State.stepAsked_good (s : State) (e : Int) (n : Nat) : (s.stepAsked e n).mer.good = s.mer.good := by
  unfold State.stepAsked
  split
  · rw [State.setFld_mer]
  · split
    · rw [State.setFld_mer]
    · rw [State.forwardStep]
      simp

theorem State.clockSet_fld (s : State) (g : Fld) : s.clockSet.fld 0 g = s.fld 0 g := by
  unfold State.clockSet
  split <;> rfl

theorem State.clockSet_good (s : State) : s.clockSet.mer.good = s.mer.good := by
  unfold State.clockSet
  split <;> rfl

theorem State.offsetNoted_fld (s : State) (e : Int) (num : Option Nat) {g : Fld} (h : g.OffsetKeeps) : (s.offsetNoted e num).fld 0 g = s.fld 0 g := by
  have hoff : g.reg.off ≠ MER_OFFSET.off ∧ g.reg.off < 2 ^ 16 ∧ MER_OFFSET.off < 2 ^ 16 := by
    rw [h.pending.1]
    decide
  rw [State.offsetNoted, State.fld_setFld_off _ _ hoff, State.clockSet_fld, State.stepAsked_fld _ _ _ h]

theorem State.offsetNoted_good (s : State) (e : Int) (num : Option Nat) : (s.offsetNoted e num).mer.good = s.mer.good := by
  rw [State.offsetNoted, State.setFld_mer, State.clockSet_good, State.stepAsked_good]

/-- Judging an offset touches STATE and DRIFT_SEEN alone. -/
theorem State.offsetJudged_fld (s : State) (e : Int) (st : Nat) {g : Fld} (h : g.MerApart MER_STATUS_STATE) (h' : g.MerApart MER_STATUS_DRIFT_SEEN) :
    (s.offsetJudged e st).fld 0 g = s.fld 0 g := by
  unfold State.offsetJudged
  split
  · split
    · exact State.fld_setFld_apart _ h _
    · exact State.enterMer_apart _ h' h
  · split
    · split
      · rfl
      · exact State.enterMer_apart _ h' h
    · split
      · exact State.enterMer_apart _ h' h
      · split
        · rfl
        · split
          · exact State.fld_setFld_apart _ h _
          · rfl

theorem State.evalOffset_fld (s : State) (e : Int) (num : Option Nat) {g : Fld} (hk : g.OffsetKeeps) (h : g.MerApart MER_STATUS_STATE)
    (h' : g.MerApart MER_STATUS_DRIFT_SEEN) : (s.evalOffset e num).fld 0 g = s.fld 0 g := by
  rw [State.evalOffset_eq]
  split
  · split
    · exact State.fld_setFld_apart _ hk.pending _
    · rfl
  · rw [State.offsetJudged_fld _ _ _ h h', State.offsetNoted_fld _ _ _ hk]

theorem State.evalOffset_locked {s : State} (h : s.mer.locked = true) (e : Int) (num : Option Nat) :
    s.evalOffset e num = (s.offsetNoted e num).offsetJudged e (s.fld 0 MER_STATUS_STATE) := by
  rw [State.evalOffset_eq, if_neg (by simp [h])]

section
variable {s : State} {e : Int} {st : Nat}

theorem State.offsetJudged_free (hst : st = MER_S_FREE) (he : e.natAbs ≤ 100) : (s.offsetJudged e st).fld 0 MER_STATUS_STATE = MER_S_LOCKED := by
  rw [State.offsetJudged, if_pos hst, if_pos he, State.fld_setFld_self _ _ _ _ (by decide)]
  rfl

theorem State.offsetJudged_drift (h : (st = MER_S_FREE ∨ st = MER_S_LOCKED) ∧ 100 < e.natAbs ∨ st = MER_S_HOLDOVER) :
    (s.offsetJudged e st).fld 0 MER_STATUS_STATE = MER_S_DRIFT ∧ (s.offsetJudged e st).fld 0 MER_STATUS_DRIFT_SEEN = 1 := by
  have hdrift : s.offsetJudged e st = ({ s with mer := { s.mer with good := 0 } } : State).enterMer MER_S_DRIFT MER_STATUS_DRIFT_SEEN := by
    rcases h with ⟨rfl | rfl, he⟩ | rfl
    · rw [State.offsetJudged, if_pos rfl, if_neg (by omega)]
    · rw [State.offsetJudged, if_neg (by decide), if_pos rfl, if_neg (by omega)]
    · rw [State.offsetJudged, if_neg (by decide), if_neg (by decide), if_pos rfl]
  rw [hdrift]
  exact ⟨State.enterMer_state _ (by decide) ⟨rfl, rfl, by decide, by decide⟩, State.enterMer_seen _ ⟨rfl, by decide, rfl⟩⟩

theorem State.offsetJudged_eighth (hst : st = MER_S_DRIFT) (he : e.natAbs ≤ 80) (hg : s.mer.good = 7) :
    (s.offsetJudged e st).fld 0 MER_STATUS_STATE = MER_S_LOCKED := by
  subst hst
  rw [State.offsetJudged, if_neg (by decide), if_neg (by decide), if_neg (by decide), if_neg (by omega), if_pos (by omega), State.fld_setFld_self _ _ _ _ (by decide)]
  rfl

end

/-! ### The events -/

section
variable {s : State} {e : Int} {dt n time port : Nat}

theorem exec_ptpSyncReceived (hen : s.fld 0 MER_PTP_CTRL_ENABLE = 1) (hpps : s.ppsRef = false) (hl : s.mer.locked = true) (hn : s.ptpFrame time = some n) :
    ∃ u, exec (.ptpSyncReceived e time) s = .next (State.offsetJudged u e (s.fld 0 MER_STATUS_STATE)) ∧ u.mer.good = s.mer.good := by
  refine ⟨State.offsetNoted { s with mer := { s.mer with tod := some ((n : Int) - (s.fld 0 MER_FRAME_NUM_FRAME : Nat)) } } e (some n), ?_, ?_⟩
  · show execPtpSyncReceived e time s = _
    rw [execPtpSyncReceived, if_neg (by omega), hn]
    dsimp only
    rw [if_neg (by
      show ¬ s.ppsRef = true
      simp [hpps])]
    exact congrArg Host.Outcome.next (State.evalOffset_locked
      (s := { s with mer := { s.mer with tod := some ((n : Int) - (s.fld 0 MER_FRAME_NUM_FRAME : Nat)) } }) hl e (some n))
  · exact State.offsetNoted_good ..

theorem State.holdover_state (h : s.fld 0 MER_STATUS_STATE = MER_S_LOCKED ∨ s.fld 0 MER_STATUS_STATE = MER_S_DRIFT) :
    s.holdover.fld 0 MER_STATUS_STATE = MER_S_HOLDOVER ∧ s.holdover.fld 0 MER_STATUS_HOLDOVER_SEEN = 1 := by
  rw [State.holdover, if_pos h]
  exact ⟨State.enterMer_state _ (by decide) ⟨rfl, rfl, by decide, by decide⟩, State.enterMer_seen _ ⟨rfl, by decide, rfl⟩⟩

theorem State.holdover_ppsPresent (s : State) : s.holdover.fld 0 MER_STATUS_PPS_PRESENT = s.fld 0 MER_STATUS_PPS_PRESENT := by
  unfold State.holdover
  split
  · exact State.enterMer_apart _ ⟨rfl, rfl, by decide, by decide⟩ ⟨rfl, rfl, by decide, by decide⟩
  · rfl

theorem exec_syncLossTimeout (h : s.ppsRef = false) : exec .syncLossTimeout s = .next s.holdover := by
  show execSyncLossTimeout s = _
  rw [execSyncLossTimeout, if_neg (by simp [h])]

/-- FREE at the holdover limit, with offset 0 (R45). -/
def State.freed (s : State) : State := ((s.setFld 0 MER_STATUS_STATE MER_S_FREE).setFld 0 MER_STATUS_FREE_SEEN 1).setFld 0 MER_OFFSET_OFFSET 0

theorem State.freed_fields (s : State) :
    s.freed.fld 0 MER_STATUS_STATE = MER_S_FREE ∧ s.freed.fld 0 MER_STATUS_FREE_SEEN = 1 ∧ s.freed.fld 0 MER_OFFSET_OFFSET = 0 := by
  unfold State.freed
  refine ⟨?_, ?_, ?_⟩
  · rw [State.fld_setFld_off _ _ (by decide), State.fld_setFld_bits _ _ _ (by decide), State.fld_setFld_self _ _ _ _ (by decide)]
    rfl
  · rw [State.fld_setFld_off _ _ (by decide), State.fld_setFld_self _ _ _ _ (by decide)]
    rfl
  · rw [State.fld_setFld_self _ _ _ _ (by decide)]
    rfl

theorem exec_holdoverLimit (h : s.fld 0 MER_STATUS_STATE = MER_S_HOLDOVER) :
    ∃ t, exec .holdoverLimit s = .next t ∧ ∀ g : Fld, g.reg.off < 2 ^ 16 ∧ g.reg.block ≠ .tst → t.fld 0 g = s.freed.fld 0 g := by
  have hexec : exec .holdoverLimit s = execHoldoverLimit s := rfl
  rw [hexec, execHoldoverLimit, if_neg (by simp [h])]
  dsimp only
  split
  · exact ⟨_, rfl, fun g hg => State.fld_raise _ _ (by decide) hg⟩
  · exact ⟨_, rfl, fun _ _ => rfl⟩

theorem exec_ppsInEdge_good (hen : s.fld 0 MER_PPS_CTRL_IN_EN = 1) (hedge : s.fld 0 MER_PPS_CTRL_IN_EDGE = 0) (hlo : 999900000 ≤ dt) (hhi : dt ≤ 1000100000) :
    ∃ num, exec (.ppsInEdge false dt e) s =
      .next ((({ s with mer := { s.mer with ppsLast := true } } : State).setFld 0 MER_STATUS_PPS_PRESENT 1).evalOffset e num) := by
  have hexec : exec (.ppsInEdge false dt e) s = execPpsInEdge false dt e s := rfl
  rw [hexec, execPpsInEdge, if_neg (by simp [hen, hedge, b01]), if_pos (.inr ⟨hlo, hhi⟩)]
  exact ⟨_, rfl⟩

theorem exec_ppsInEdge_bad (hen : s.fld 0 MER_PPS_CTRL_IN_EN = 1) (hedge : s.fld 0 MER_PPS_CTRL_IN_EDGE = 0) (hlast : s.mer.ppsLast = true)
    (h : dt < 999900000 ∨ 1000100000 < dt) :
    exec (.ppsInEdge false dt e) s = .next ((s.setFld 0 MER_STATUS_PPS_FAULT 1).count { unit := srvStw, event := 0xA0, priv := 1 }) := by
  show execPpsInEdge false dt e s = _
  rw [execPpsInEdge, if_neg (by simp [hen, hedge, b01]), if_neg (by simp [hlast]; omega)]

theorem State.merStatus_count (s : State) (ev : SrvEv) (hu : ev.unit < 2 ^ 24) {g : Fld} (h : g.reg = MER_STATUS) : (s.count ev).fld 0 g = s.fld 0 g := by
  rw [State.fld, State.fld, h, State.reg_count _ _ hu (by decide) (by decide) (by decide)]

theorem exec_ppsInTimeout (h : s.fld 0 MER_STATUS_PPS_PRESENT = 1) : exec .ppsInTimeout s =
    .next (if s.fld 0 MER_PTP_CTRL_ENABLE = 0 then (s.setFld 0 MER_STATUS_PPS_PRESENT 0).holdover else s.setFld 0 MER_STATUS_PPS_PRESENT 0) := by
  have hen : (s.setFld 0 MER_STATUS_PPS_PRESENT 0).fld 0 MER_PTP_CTRL_ENABLE = s.fld 0 MER_PTP_CTRL_ENABLE := State.fld_setFld_off _ _ (by decide)
  show execPpsInTimeout s = _
  rw [execPpsInTimeout, if_neg (by omega)]
  dsimp only
  rw [hen]
  split <;> rfl

theorem exec_ppsOutPulse (rise : Bool) (h : s.inReset = false) (hm : s.fld 0 MER_PPS_CTRL_OUT_MODE ≠ 2) : exec (.ppsOutPulse rise) s =
    .next { s with mer := { s.mer with ppsOut := rise && s.fld 0 MER_PPS_CTRL_OUT_MODE == 1 } } := by
  show execPpsOutPulse rise s = _
  rw [execPpsOutPulse]
  dsimp only
  cases rise with
  | false => rfl
  | true =>
    rw [if_neg (by simp [h])]
    by_cases h1 : s.fld 0 MER_PPS_CTRL_OUT_MODE = 1
    · rw [if_pos (.inl h1), h1]
      rfl
    · rw [if_neg (by tauto), Bool.true_and, beq_false_of_ne h1]

theorem exec_ppsOutPulse_fall (s : State) : exec (.ppsOutPulse false) s = .next { s with mer := { s.mer with ppsOut := false } } := rfl

theorem exec_ptpSyncTransmit (hen : s.fld 0 MER_PTP_CTRL_ENABLE = 1) (hrole : s.fld 0 MER_PTP_CTRL_ROLE = 2) (hp : port < 64)
    (hsrc : port ≠ s.fld 0 MER_PTP_CTRL_SRC_PORT) (hl : s.portLanes port ≠ 0) (hpe : s.fld port ETH_PORT_CTRL_EN = 1) (hpp : s.fld port ETH_PORT_CTRL_PTP_EN = 1) :
    exec (.ptpSyncTransmit port) s = .next (s.emit (.ptp port (s.fld 0 MER_PTP_CTRL_ONE_STEP == 1 && s.fld port ETH_PORT_CTRL_MACSEC_EN == 0))) := by
  have h64 : (port == 64) = false := beq_false_of_ne (by omega)
  show execPtpSyncTransmit port s = _
  rw [execPtpSyncTransmit, if_neg (by omega)]
  dsimp only
  rw [h64, if_pos ⟨hen, by simp [hl, hpe, hpp], .inl ⟨hrole, hsrc, by omega⟩⟩, Bool.false_or]

end

/-- Settles O30: an offset is noted and then judged (`State.offsetJudged`); the other events set their own fields of MER_STATUS, which neither the records
nor the counters touch. -/
theorem meridianStates : Obligations.MeridianStates := by
  unfold Obligations.MeridianStates
  intro s e dt n time port
  refine ⟨fun hen hpps hl hn => ?_, fun hpps hst => ?_, fun hst => ?_, fun hen hedge hlast => ⟨fun hlo hhi => ?_, fun hbad => ?_⟩,
    fun hpres hst => ⟨fun hptp => ?_, fun hptp => ?_⟩, fun hreset => ⟨fun hm => ?_, fun hm => ?_, ?_⟩, fun hen hrole hp hsrc hl hpe hpp => ?_⟩
  · obtain ⟨u, hexec, hgood⟩ := exec_ptpSyncReceived (e := e) hen hpps hl hn
    exact ⟨fun hst he => ⟨_, hexec, State.offsetJudged_free hst he⟩, fun hst he => ⟨_, hexec, State.offsetJudged_drift (.inl ⟨hst, he⟩)⟩,
      fun hst => ⟨_, hexec, State.offsetJudged_drift (.inr hst)⟩, fun hst he hg => ⟨_, hexec, State.offsetJudged_eighth hst he (hgood.trans hg)⟩⟩
  · exact ⟨_, exec_syncLossTimeout hpps, State.holdover_state hst⟩
  · obtain ⟨t, hexec, hfld⟩ := exec_holdoverLimit hst
    obtain ⟨hstate, hseen, hoff⟩ := s.freed_fields
    exact ⟨t, hexec, (hfld _ (by decide)).trans hstate, (hfld _ (by decide)).trans hseen, (hfld _ (by decide)).trans hoff⟩
  · obtain ⟨num, hexec⟩ := exec_ppsInEdge_good (e := e) hen hedge hlo hhi
    refine ⟨_, hexec, ?_, ?_⟩
    · rw [State.evalOffset_fld _ _ _ ⟨⟨rfl, rfl, by decide, by decide⟩, ⟨rfl, rfl, by decide, by decide⟩⟩ ⟨rfl, rfl, by decide, by decide⟩
        ⟨rfl, rfl, by decide, by decide⟩, State.fld_setFld_self _ _ _ _ (by decide)]
      rfl
    · rw [State.evalOffset_fld _ _ _ ⟨⟨rfl, rfl, by decide, by decide⟩, ⟨rfl, rfl, by decide, by decide⟩⟩ ⟨rfl, rfl, by decide, by decide⟩
        ⟨rfl, rfl, by decide, by decide⟩, State.fld_setFld_bits _ _ _ (by decide), State.fld_withMer]
  · refine ⟨_, exec_ppsInEdge_bad hen hedge hlast hbad, ?_, ?_, ?_⟩
    · rw [State.merStatus_count _ _ (by decide) rfl, State.fld_setFld_self _ _ _ _ (by decide)]
      rfl
    · rw [State.merStatus_count _ _ (by decide) rfl, State.fld_setFld_bits _ _ _ (by decide)]
    · rw [State.merStatus_count _ _ (by decide) rfl, State.fld_setFld_bits _ _ _ (by decide)]
  · have hst' : (s.setFld 0 MER_STATUS_PPS_PRESENT 0).fld 0 MER_STATUS_STATE = MER_S_LOCKED := by rw [State.fld_setFld_bits _ _ _ (by decide), hst]
    refine ⟨_, exec_ppsInTimeout hpres, ?_⟩
    rw [if_pos hptp, State.holdover_ppsPresent, State.fld_setFld_self _ _ _ _ (by decide)]
    exact ⟨rfl, (State.holdover_state (.inl hst')).1⟩
  · refine ⟨_, exec_ppsInTimeout hpres, ?_⟩
    rw [if_neg hptp, State.fld_setFld_self _ _ _ _ (by decide), State.fld_setFld_bits _ _ _ (by decide)]
    exact ⟨rfl, hst⟩
  · exact ⟨_, exec_ppsOutPulse true hreset (by omega), by simp [hm], rfl⟩
  · exact ⟨_, exec_ppsOutPulse true hreset (by omega), by simp [hm], rfl⟩
  · exact ⟨_, exec_ppsOutPulse_fall s, rfl, rfl⟩
  · exact exec_ptpSyncTransmit hen hrole hp hsrc hl hpe hpp

end Sys2Proof.Machine
end

section
/-! Requests, announcements and cut reports of operations at named frames (O31) (R48–R51). -/
namespace Sys2Proof.Machine

/-! ### States that differ by what the device has sent -/

/-- `t` has sent more than `s`, and has the same provinces, Talons, registers and memory. -/
structure State.Tells (s t : State) : Prop where
  provs : t.provs = s.provs
  talons : t.talons = s.talons
  regs : t.regs = s.regs
  mem : t.mem = s.mem
  sent : ∃ l, t.sent = l ++ s.sent

theorem State.Tells.refl (s : State) : s.Tells s := ⟨rfl, rfl, rfl, rfl, [], rfl⟩

theorem State.Tells.trans {s t u : State} (h : s.Tells t) (h' : t.Tells u) : s.Tells u := by
  obtain ⟨l, hl⟩ := h.sent
  obtain ⟨l', hl'⟩ := h'.sent
  exact ⟨h'.provs.trans h.provs, h'.talons.trans h.talons, h'.regs.trans h.regs, h'.mem.trans h.mem, l' ++ l, by rw [hl', hl, List.append_assoc]⟩

/-- What was sent has been sent. -/
theorem State.Tells.mem_sent {s t : State} (h : s.Tells t) {e : Emit} (he : e ∈ s.sent) : e ∈ t.sent := by
  obtain ⟨l, hl⟩ := h.sent
  rw [hl]
  exact List.mem_append_right _ he

theorem State.Tells.emit (s : State) (e : Emit) : s.Tells (s.emit e) := ⟨State.emit_provs .., State.emit_talons .., State.emit_regs .., State.emit_mem .., [e], State.emit_sent ..⟩

theorem State.Tells.foldl {α : Type} (f : State → α → State) (h : ∀ (s : State) (a : α), s.Tells (f s a)) (l : List α) (s : State) : s.Tells (l.foldl f s) := by
  induction l generalizing s with
  | nil => exact .refl s
  | cons a l ih => exact (h s a).trans (ih _)

theorem State.Tells.answer (s : State) (conn cmd status : Nat) (b : List Byte) : s.Tells (s.answer conn cmd status b) := by
  unfold State.answer
  split
  · exact .emit ..
  · exact .refl s

theorem State.Tells.answerWaits (s : State) (p : Nat) (cmds : List Nat) (status : Nat) : s.Tells (s.answerWaits p cmds status) := by
  obtain ⟨hprovs, htalons, hregs, hmem, hsent⟩ := State.Tells.foldl (fun s w => s.answer w.conn w.cmd status []) (fun s w => .answer s w.conn w.cmd status [])
    (s.stw.waits.filter (fun w => w.prov == p && cmds.contains w.cmd))
    { s with stw := { s.stw with waits := s.stw.waits.filter (fun w => !(w.prov == p && cmds.contains w.cmd)) } }
  exact ⟨hprovs, htalons, hregs, hmem, hsent⟩

theorem State.Tells.tell (s : State) (p r : Nat) (b : NdxBody) : s.Tells (s.tell p r b) := by
  unfold State.tell
  split
  · exact .emit ..
  · exact .refl s

/-- A settled operation's answers and messages. -/
theorem State.Tells.settle (s : State) (p : Nat) (op : GlobOp) (status : Nat) :
    (s.setProv p { (s.prov p) with asks := (s.prov p).asks.filter (fun a => a.2 != op), acts := (s.prov p).acts.filter (fun a => a.2 != op) }).Tells
      (s.settle p op status) := by
  rw [State.settle]
  exact (State.Tells.answerWaits _ p [opCmd op] status).trans (State.Tells.foldl _ (fun s (a : Nat × GlobOp) => .tell s p a.1 _) _ _)

/-- A settled operation leaves the cut and the announcements of its province, and memory; what was sent has been sent. -/
theorem State.settle_keeps (s : State) (p : Nat) (op : GlobOp) (status : Nat) :
    ((s.settle p op status).prov p).cut = (s.prov p).cut ∧ ((s.settle p op status).prov p).anns = (s.prov p).anns ∧
      (s.settle p op status).mem = s.mem ∧ ∀ e ∈ s.sent, e ∈ (s.settle p op status).sent := by
  have htells := State.Tells.settle s p op status
  have hprov := (State.prov_congr htells.provs p).trans (State.prov_setProv_self ..)
  refine ⟨?_, ?_, htells.mem.trans (State.setProv_mem ..), fun e he => htells.mem_sent he⟩
  · rw [hprov]
  · rw [hprov]

/-- The fan-in is what the loaded image says. -/
theorem State.fanin_congr {s t : State} {p : Nat} (hmem : t.mem = s.mem) (hloaded : (t.prov p).loaded = (s.prov p).loaded)
    (hdpa : ∀ va, (t.prov p).vdpa va = (s.prov p).vdpa va) : t.fanin p = s.fanin p := by
  have himg : t.img p = s.img p := by
    funext o n
    simp only [State.img, State.vle, State.vbytes, State.vbyte, hdpa, State.mbyte_congr hmem]
  rw [State.fanin, State.fanin, hloaded, himg]

/-- The cut of a province says nothing about the fan-in. -/
theorem State.fanin_setCut (s : State) (p : Nat) (x : Option Cut) : (s.setProv p { (s.prov p) with cut := x }).fanin p = s.fanin p :=
  State.fanin_congr (State.setProv_mem ..) (by rw [State.prov_setProv_self]) (fun va => by rw [State.prov_setProv_self]; rfl)

/-- Nor about the children. -/
theorem State.children_setCut (s : State) (p : Nat) (x : Option Cut) : (s.setProv p { (s.prov p) with cut := x }).children p = s.children p := by
  have hregs := State.setProv_regs s p { (s.prov p) with cut := x }
  rw [State.children, State.children, State.fanin_setCut, State.nranks, State.nranks, State.rank, State.rank, State.fld_congr hregs, State.fld_congr hregs]

/-! ### Announcements -/

/-- The state in which an announcement has been sent to every child. -/
theorem State.announce_spec (s : State) (p : Nat) (op : GlobOp) (f : Nat) (late : Bool) :
    ((s.announce p op f late).prov p).anns = (s.prov p).anns ++ [⟨op, f, late⟩] ∧ ((s.announce p op f late).prov p).cut = (s.prov p).cut ∧
      (∀ k ∈ s.children p, .announce p k op f ∈ (s.announce p op f late).sent) ∧ (s.announce p op f late).mem = s.mem ∧
      (s.announce p op f late).regs = s.regs ∧ ((s.announce p op f late).prov p).loaded = (s.prov p).loaded ∧
      ∀ va, ((s.announce p op f late).prov p).vdpa va = (s.prov p).vdpa va := by
  have hall : ∀ (l : List Nat) (u : State), u.Tells (l.foldl (fun s c => s.emit (.announce p c op f)) u) ∧
      (l.foldl (fun s c => s.emit (.announce p c op f)) u).regs = u.regs ∧
      ∀ k ∈ l, Emit.announce p k op f ∈ (l.foldl (fun s c => s.emit (.announce p c op f)) u).sent := by
    intro l
    induction l with
    | nil => exact fun u => ⟨.refl u, rfl, by simp⟩
    | cons c l ih =>
      intro u
      obtain ⟨htells, hregs, hsent⟩ := ih (u.emit (.announce p c op f))
      rw [List.foldl_cons]
      refine ⟨(State.Tells.emit ..).trans htells, hregs.trans (State.emit_regs ..), fun k hk => ?_⟩
      rcases List.mem_cons.mp hk with rfl | hk
      · exact htells.mem_sent (by rw [State.emit_sent]; exact List.mem_cons_self)
      · exact hsent k hk
  obtain ⟨htells, hregs, hsent⟩ := hall (s.children p) s
  have hprov := State.prov_congr htells.provs p
  rw [State.announce]
  refine ⟨?_, ?_, hsent, (State.setProv_mem ..).trans htells.mem, (State.setProv_regs ..).trans hregs, ?_, fun va => ?_⟩
  · rw [State.prov_setProv_self, hprov]
  · rw [State.prov_setProv_self, hprov]
  · rw [State.prov_setProv_self, hprov]
  · rw [State.prov_setProv_self, hprov]
    rfl

/-- The root names a frame that has not begun (R48). -/
theorem State.rootAnnounce_spec (s : State) (p : Nat) (op : GlobOp) : ∃ f, s.frame < f ∧
    ((s.rootAnnounce p op).prov p).anns = (s.prov p).anns ++ [⟨op, f, false⟩] ∧ ((s.rootAnnounce p op).prov p).cut = (s.prov p).cut ∧
      (∀ k ∈ s.children p, .announce p k op f ∈ (s.rootAnnounce p op).sent) ∧ (s.rootAnnounce p op).mem = s.mem := by
  obtain ⟨hanns, hcut, hsent, hmem, -⟩ := State.announce_spec (s.rootFrame p).2 p op (s.rootFrame p).1 false
  refine ⟨(s.rootFrame p).1, ?_, hanns, hcut, hsent, hmem⟩
  rw [State.rootFrame]
  dsimp only
  omega

/-! ### Requests -/

section
variable {s u : State} {p child f : Nat} {op : GlobOp}

/-- What lets a child's request be looked at. -/
structure State.Admits (s : State) (p child : Nat) : Prop where
  up : s.stw.restarting = false
  exists_ : (s.prov p).st ≠ .none_
  child_mem : (s.children p).contains child = true

/-- A request is looked at in the state in which it has been taken from the network. -/
theorem globalRequest_admitted (h : s.Admits p child) (op : GlobOp) :
    (if s.stw.restarting = true then s else s.take p child (.request op)) = s.take p child (.request op) ∧
      ¬ ((s.take p child (.request op)).stw.restarting = true ∨ ((s.take p child (.request op)).prov p).st = .none_ ∨
        (!((s.take p child (.request op)).children p).contains child) = true) := by
  obtain ⟨hr, hst, hc⟩ := h
  refine ⟨if_neg (by simp [hr]), ?_⟩
  rintro (h | h | h)
  · exact absurd (hr.symm.trans h) (by decide)
  · exact hst h
  · have hc' : ((s.take p child (.request op)).children p).contains child = true := hc
    rw [hc'] at h
    exact absurd h (by decide)

theorem exec_globalRequestArrive_barrier (h : s.Admits p child) (g : GInst) :
    exec (.globalRequestArrive p child (.barrier g)) s = .next ((s.take p child (.request (.barrier g))).gsyncUp p { ((s.prov p).gsyncOf g false) with
      children := if ((s.prov p).gsyncOf g false).children.contains child then ((s.prov p).gsyncOf g false).children
        else ((s.prov p).gsyncOf g false).children ++ [child] }) := by
  obtain ⟨htake, hgo⟩ := globalRequest_admitted h (.barrier g)
  show execGlobalRequestArrive p child _ s = _
  rw [execGlobalRequestArrive, htake, if_neg hgo]
  rfl

theorem exec_globalRequestArrive_broadcast (h : s.Admits p child) (g : GInst) (b : List Byte) :
    exec (.globalRequestArrive p child (.broadcast g b)) s = .next ((s.take p child (.request (.broadcast g b))).gsyncUp p { ((s.prov p).gsyncOf g true) with
      children := if ((s.prov p).gsyncOf g true).children.contains child then ((s.prov p).gsyncOf g true).children
        else ((s.prov p).gsyncOf g true).children ++ [child] }) := by
  obtain ⟨htake, hgo⟩ := globalRequest_admitted h (.broadcast g b)
  show execGlobalRequestArrive p child _ s = _
  rw [execGlobalRequestArrive, htake, if_neg hgo]
  rfl

theorem exec_globalRequestArrive_other (h : s.Admits p child) (hop : op = .snapshot ∨ op = .reset ∨ op = .pause ∨ op = .resume) :
    exec (.globalRequestArrive p child op) s = .next ((s.take p child (.request op)).requestUp p op) := by
  obtain ⟨htake, hgo⟩ := globalRequest_admitted h op
  show execGlobalRequestArrive p child _ s = _
  unfold execGlobalRequestArrive
  rw [htake]
  rcases hop with rfl | rfl | rfl | rfl <;> exact if_neg hgo

/-! ### Announcements received -/

theorem exec_announcementReceived (hr : s.stw.restarting = false) (hst : (s.prov p).st ≠ .none_) (hrank : s.rank p ≠ 0) {late : Bool}
    (hlate : decide (f ≤ s.frame) = late) {u : State}
    (hu : u = (s.take p ((s.rank p - 1) / s.fanin p) (.announce op f)).announce p op f late) :
    exec (.announcementReceived p op f) s = .next (if late then
      (u.incFld 0 MER_GLOB_CTRL_LATE 1).emit (.lateReport p (((u.incFld 0 MER_GLOB_CTRL_LATE 1).rank p - 1) / (u.incFld 0 MER_GLOB_CTRL_LATE 1).fanin p) op f) else u) := by
  show execAnnouncementReceived p op f s = _
  rw [execAnnouncementReceived, if_neg (by simp [hr, hst, hrank])]
  subst hlate hu
  by_cases h : decide (f ≤ s.frame) = true
  · rw [if_pos h]
    exact if_pos h
  · rw [if_neg h]
    exact if_neg h

/-! ### Cut reports -/

/-- A cut whose report is not due yet changes nothing (R50). -/
theorem State.cutCheck_waits {c : Cut} (hc : (s.prov p).cut = some c) (h : c.own = false ∨ c.reported = true ∨ (s.children p).all (fun r => c.reports.contains r) = false) :
    s.cutCheck p = s := by
  rw [State.cutCheck]
  dsimp only
  rw [hc]
  dsimp only
  rw [if_neg (by rcases h with h | h | h <;> rw [h] <;> simp)]

/-- The cut of a rank whose last child has reported, and the report it makes (R50). -/
theorem State.cutCheck_reports {c : Cut} (hc : (s.prov p).cut = some c) (how : c.own = true) (hrep : c.reported = false)
    (hall : (s.children p).all (fun r => c.reports.contains r) = true) :
    ((s.cutCheck p).prov p).cut = some { c with reported := true, complete := c.complete || s.rank p == 0 } ∧
      (if s.rank p = 0 then Emit.snapshotDone p c.frame else .cutReport p ((s.rank p - 1) / s.fanin p) c.frame false) ∈ (s.cutCheck p).sent ∧
      (s.cutCheck p).mem = s.mem := by
  rw [State.cutCheck]
  dsimp only
  rw [hc]
  dsimp only
  rw [if_pos (by rw [how, hrep, hall]; rfl)]
  have hrank : ∀ v : Prov, (s.setProv p v).rank p = s.rank p := fun v => State.fld_congr (State.setProv_regs s p v) p PROV_RANK_RANK
  rw [hrank, State.fanin_setCut]
  by_cases h0 : s.rank p = 0
  · rw [if_pos h0, if_pos h0]
    have hfold := State.Tells.foldl (fun s q => s.emit (.ndx p q (.cutOver c.frame))) (fun s q => .emit s (.ndx p q (.cutOver c.frame)))
    obtain ⟨hcut, -, hmem, hsent⟩ := State.settle_keeps ((((List.range ((s.setProv p { (s.prov p) with cut := some { c with reported := true, complete := c.complete || s.rank p == 0 } }).nranks p)).filter
      (fun q => q != 0)).foldl (fun s q => s.emit (.ndx p q (.cutOver c.frame)))
        (s.setProv p { (s.prov p) with cut := some { c with reported := true, complete := c.complete || s.rank p == 0 } })).emit (.snapshotDone p c.frame)) p .snapshot HS_OK
    refine ⟨hcut.trans ?_, hsent _ (by rw [State.emit_sent]; exact List.mem_cons_self), hmem.trans ?_⟩
    · rw [State.prov_congr ((State.emit_provs ..).trans (hfold _ _).provs), State.prov_setProv_self]
    · exact (State.emit_mem ..).trans ((hfold _ _).mem.trans (State.setProv_mem ..))
  · rw [if_neg h0, if_neg h0]
    refine ⟨?_, by rw [State.emit_sent]; exact List.mem_cons_self, (State.emit_mem ..).trans (State.setProv_mem ..)⟩
    rw [State.prov_congr (State.emit_provs ..), State.prov_setProv_self]

/-- A child's report is noted, and the cut looked at again. -/
theorem exec_snapshotCutReport {c : Cut} (hr : s.stw.restarting = false) (hchild : (s.children p).contains child = true) (hc : (s.prov p).cut = some c) :
    exec (.snapshotCutReport p child false) s = .next (((s.take p child (.cut c.frame false)).setProv p { (s.prov p) with cut := some { c with
      reports := if c.reports.contains child then c.reports else c.reports ++ [child] } }).cutCheck p) := by
  show execSnapshotCutReport p child false s = _
  rw [execSnapshotCutReport, if_neg (by simp only [hr, hchild]; decide)]
  dsimp only
  rw [hc]
  rfl

/-- A late report ends the cut of a rank below the root, and goes up (R51). -/
theorem exec_snapshotCutReport_late {c : Cut} (hr : s.stw.restarting = false) (hchild : (s.children p).contains child = true) (hc : (s.prov p).cut = some c)
    (hrank : s.rank p ≠ 0) :
    exec (.snapshotCutReport p child true) s = .next (((s.take p child (.late .snapshot c.frame)).setProv p { (s.prov p) with cut := none }).emit
      (.cutReport p ((s.rank p - 1) / s.fanin p) c.frame true)) := by
  show execSnapshotCutReport p child true s = _
  rw [execSnapshotCutReport, if_neg (by simp only [hr, hchild]; decide)]
  dsimp only
  rw [hc]
  dsimp only
  rw [if_pos rfl, if_pos rfl]
  have hfanin : ((s.take p child (.late .snapshot c.frame)).setProv p { (s.prov p) with cut := none }).fanin p = s.fanin p :=
    State.fanin_setCut (s.take p child (.late .snapshot c.frame)) p none
  refine (if_neg hrank).trans ?_
  rw [treeParent, hfanin]
  rfl

/-- A late report ends the cut of the root, which announces RESUME (R51). -/
theorem exec_snapshotCutReport_late_root {c : Cut} (hr : s.stw.restarting = false) (hchild : (s.children p).contains child = true) (hc : (s.prov p).cut = some c)
    (hrank : s.rank p = 0) :
    exec (.snapshotCutReport p child true) s = .next ((((s.take p child (.late .snapshot c.frame)).setProv p { (s.prov p) with cut := none }).settle p .snapshot
      TS_CUT).rootAnnounce p .resume) := by
  show execSnapshotCutReport p child true s = _
  rw [execSnapshotCutReport, if_neg (by simp only [hr, hchild]; decide)]
  dsimp only
  rw [hc]
  dsimp only
  rw [if_pos rfl, if_pos rfl]
  exact if_pos hrank

end

/-- Settles O31: a request or an announcement sends messages and extends the list of announcements; a cut report is noted in the cut, whose own report follows the last
child's. That PAUSE and RESUME travel the tree and are announced as SNAPSHOT and RESET are is DEDUCED (log 24). -/
theorem namedFrameOperations : Obligations.NamedFrameOperations := by
  unfold Obligations.NamedFrameOperations
  intro s u p child f g b op c rs
  refine ⟨fun hr hst hchild => ?requests, fun hr hst hrank => ?announcements, fun hr hchild hc => ?reports⟩
  case requests =>
    have hadmits : s.Admits p child := ⟨hr, hst, hchild⟩
    refine ⟨?_, ?_, fun hop hrank => ?_, fun hop hrank => ?_⟩
    · rintro rfl
      exact exec_globalRequestArrive_barrier hadmits g
    · rintro rfl
      exact exec_globalRequestArrive_broadcast hadmits g b
    · obtain ⟨f, hf, hanns, -, hsent, hmem⟩ := State.rootAnnounce_spec (s.take p child (.request op)) p op
      have hup : (s.take p child (.request op)).requestUp p op = (s.take p child (.request op)).rootAnnounce p op := if_pos hrank
      refine ⟨_, exec_globalRequestArrive_other hadmits hop, ?_, fun a ha => ?_, ?_⟩
      · rw [hup, hanns, List.map_append]
        rfl
      · have hdrop : (((s.take p child (.request op)).rootAnnounce p op).prov p).anns.drop (s.prov p).anns.length = [⟨op, f, false⟩] := by
          rw [hanns]
          exact List.drop_left
        rw [hup, hdrop, List.mem_singleton] at ha
        subst ha
        rw [hup]
        exact ⟨hf, rfl, hsent⟩
      · rw [hup]
        exact hmem
    · have hup : (s.take p child (.request op)).requestUp p op = (s.take p child (.request op)).emit (.request p ((s.rank p - 1) / s.fanin p) op) := if_neg hrank
      refine ⟨_, exec_globalRequestArrive_other hadmits hop, ?_, ?_, ?_⟩
      · rw [hup, State.emit_sent]
        rfl
      · rw [hup, State.emit_provs]
        rfl
      · rw [hup, State.emit_mem]
        rfl
  case announcements =>
    obtain ⟨hanns, -, hsent, hmem, hregs, hloaded, hdpa⟩ := State.announce_spec (s.take p ((s.rank p - 1) / s.fanin p) (.announce op f)) p op f (decide (f ≤ s.frame))
    refine ⟨fun hf => ?_, fun hf => ?_⟩
    · have hlate : decide (f ≤ s.frame) = false := decide_eq_false (by omega)
      rw [hlate] at hanns hsent hmem hregs hloaded hdpa
      refine ⟨_, exec_announcementReceived hr hst hrank hlate rfl, ?_⟩
      rw [if_neg Bool.false_ne_true]
      exact ⟨hanns, hsent, State.fld_congr hregs 0 MER_GLOB_CTRL_LATE, hmem⟩
    · have hlate : decide (f ≤ s.frame) = true := decide_eq_true hf
      rw [hlate] at hanns hsent hmem hregs hloaded hdpa
      generalize hu : (s.take p ((s.rank p - 1) / s.fanin p) (.announce op f)).announce p op f true = u at hanns hsent hmem hregs hloaded hdpa
      have hinc : ∀ v : Nat, (u.setFld 0 MER_GLOB_CTRL_LATE v).fld 0 MER_GLOB_CTRL_LATE = (s.setFld 0 MER_GLOB_CTRL_LATE v).fld 0 MER_GLOB_CTRL_LATE := fun v => by
        rw [State.fld_setFld_self u 0 MER_GLOB_CTRL_LATE v (by decide), State.fld_setFld_self s 0 MER_GLOB_CTRL_LATE v (by decide)]
      have hrank' : (u.incFld 0 MER_GLOB_CTRL_LATE 1).rank p = s.rank p :=
        (State.fld_setFld_off (f := MER_GLOB_CTRL_LATE) (g := PROV_RANK_RANK) u _ (by decide)).trans (State.fld_congr hregs p PROV_RANK_RANK)
      have hfanin' : (u.incFld 0 MER_GLOB_CTRL_LATE 1).fanin p = s.fanin p := by
        refine State.fanin_congr ((State.incFld_mem ..).trans hmem) ?_ (fun va => ?_)
        · rw [State.prov_congr (State.incFld_provs ..), hloaded]
          rfl
        · rw [State.prov_congr (State.incFld_provs ..), hdpa]
          rfl
      refine ⟨_, exec_announcementReceived hr hst hrank hlate hu.symm, ?_, fun k hk => ?_, ?_, ?_, ?_⟩
      · rw [if_pos rfl, State.prov_congr ((State.emit_provs ..).trans (State.incFld_provs ..))]
        exact hanns
      · rw [if_pos rfl, State.emit_sent, State.incFld_sent]
        exact List.mem_cons_of_mem _ (hsent k hk)
      · rw [if_pos rfl, State.emit_sent, hrank', hfanin']
        rfl
      · rw [if_pos rfl, State.fld_congr (State.emit_regs ..), State.incFld, State.incFld, hinc, State.fld_congr hregs]
        rfl
      · rw [if_pos rfl, State.emit_mem, State.incFld_mem]
        exact hmem
  case reports =>
    refine ⟨?_, fun hrank => ?_, fun hrank => ?_⟩
    · rintro rfl
      have hprov := State.prov_setProv_self (s.take p child (.cut c.frame false)) p { (s.prov p) with cut := some { c with
        reports := if c.reports.contains child then c.reports else c.reports ++ [child] } }
      have hchildren : ((s.take p child (.cut c.frame false)).setProv p { (s.prov p) with cut := some { c with
          reports := if c.reports.contains child then c.reports else c.reports ++ [child] } }).children p = s.children p :=
        State.children_setCut (s.take p child (.cut c.frame false)) p _
      have hrank : ((s.take p child (.cut c.frame false)).setProv p { (s.prov p) with cut := some { c with
          reports := if c.reports.contains child then c.reports else c.reports ++ [child] } }).rank p = s.rank p :=
        State.fld_congr (State.setProv_regs (s.take p child (.cut c.frame false)) p _) p PROV_RANK_RANK
      have hfanin : ((s.take p child (.cut c.frame false)).setProv p { (s.prov p) with cut := some { c with
          reports := if c.reports.contains child then c.reports else c.reports ++ [child] } }).fanin p = s.fanin p :=
        State.fanin_setCut (s.take p child (.cut c.frame false)) p _
      refine ⟨fun hwait => ?_, fun how hrep hall => ?_⟩
      · rw [← hchildren] at hwait
        refine ⟨_, exec_snapshotCutReport hr hchild hc, ?_⟩
        rw [State.cutCheck_waits (congrArg Prov.cut hprov) hwait]
        exact ⟨congrArg Prov.cut hprov, State.setProv_sent .., State.setProv_mem ..⟩
      · rw [← hchildren] at hall
        obtain ⟨hcut, hsent, hmem⟩ := State.cutCheck_reports (congrArg Prov.cut hprov) how hrep hall
        rw [hrank] at hcut
        rw [hrank, hfanin] at hsent
        exact ⟨_, exec_snapshotCutReport hr hchild hc, hcut, hsent, hmem.trans (State.setProv_mem ..)⟩
    · refine ⟨_, exec_snapshotCutReport_late hr hchild hc hrank, ?_, ?_, ?_⟩
      · rw [State.prov_congr (State.emit_provs ..), State.prov_setProv_self]
      · rw [State.emit_sent]
        rfl
      · exact (State.emit_mem ..).trans (State.setProv_mem ..)
    · obtain ⟨hcut, hanns, hmem, -⟩ := State.settle_keeps ((s.take p child (.late .snapshot c.frame)).setProv p { (s.prov p) with cut := none }) p .snapshot TS_CUT
      obtain ⟨f, -, hanns', hcut', -, hmem'⟩ := State.rootAnnounce_spec (((s.take p child (.late .snapshot c.frame)).setProv p { (s.prov p) with cut := none }).settle p
        .snapshot TS_CUT) p .resume
      refine ⟨_, exec_snapshotCutReport_late_root hr hchild hc hrank, ?_, ?_, ?_⟩
      · rw [hcut', hcut, State.prov_setProv_self]
      · rw [hanns', hanns, State.prov_setProv_self, List.map_append]
        rfl
      · exact hmem'.trans (hmem.trans (State.setProv_mem ..))

end Sys2Proof.Machine
end

section
/-! The queue and the whole machine: a step runs one command (O1, O2), the values after reset (O4), and commands of units that the device does not have (O5). -/
namespace Sys2Proof.Machine

/-! ### Steps -/

/-- Settles O1: a step on a queue is the front command's rule. -/
theorem stepRunsTheFrontCommand : Obligations.StepRunsTheFrontCommand := by
  unfold Obligations.StepRunsTheFrontCommand
  intro c rest s
  rfl

section
variable {s t u : State} {c : Instr} {rest : List (Nat × Instr)}

theorem step_idle (hp : s.pending = []) (hd : s.dueReq = none) : step s = .next s := by
  rw [step, hp]
  dsimp only
  rw [hd]

theorem step_due (hp : s.pending = []) (hd : s.dueReq = some (c, t, rest)) (h : exec c t = .next u) : step s = .next (u.backReqs rest) := by
  rw [step, hp]
  dsimp only
  rw [hd]
  dsimp only
  rw [h]

/-- A request that is due is the first whose province answers nothing else; it runs on the state without the requests that wait. -/
theorem State.dueReq_spec (hd : s.dueReq = some (c, t, rest)) : ∃ k, k < s.stw.reqs.length ∧ rest = s.stw.reqs.eraseIdx k ∧ s.stw.restarting = false ∧
    (∀ r, s.stw.reqs[k]? = some r → r.2 = c ∧ t.provBusy r.1 = false) ∧ t = { s with stw := { s.stw with reqs := [] } } := by
  rw [State.dueReq] at hd
  dsimp only at hd
  split at hd
  · exact absurd hd (by simp)
  · rename_i hr
    split at hd
    · rename_i k hk
      obtain ⟨hlt, hfree, -⟩ := List.findIdx?_eq_some_iff_getElem.mp hk
      rw [List.getElem?_eq_getElem hlt, Option.map_some, Option.some.injEq, Prod.mk.injEq, Prod.mk.injEq] at hd
      obtain ⟨rfl, rfl, rfl⟩ := hd
      refine ⟨k, hlt, rfl, Bool.not_eq_true _ ▸ hr, fun r hget => ?_, rfl⟩
      obtain ⟨-, rfl⟩ := List.getElem?_eq_some_iff.mp hget
      exact ⟨rfl, by simpa using hfree⟩
    · exact absurd hd (by simp)

end

/-- Settles O2: on an empty queue a step is idle, or serves the first request that waited and may run now (the model's choice, log 1). -/
theorem emptyQueueServesOrIdles : Obligations.EmptyQueueServesOrIdles := by
  unfold Obligations.EmptyQueueServesOrIdles
  intro s t u c rest hp
  refine ⟨step_idle hp, step_due hp, fun hd => ?_⟩
  obtain ⟨k, hlt, hrest, hr, hreq, rfl⟩ := State.dueReq_spec hd
  exact ⟨k, hlt, hrest, hr, hreq, rfl, rfl, rfl, rfl⟩

/-! ### Reset -/

/-- After reset every field has the value of its register's table. -/
theorem State.fld_reset (u : Nat) (f : Fld) : State.reset.fld u f = bits f.reg.resetVal.toNat f.lo f.width := rfl

/-- Settles O4: reset leaves no memory, no province, and the tables' values; that memory reads as zeros before HBM_INIT is DESIGN CHOICE (log 12). -/
theorem resetLeavesTheGivenValues : Obligations.ResetLeavesTheGivenValues := by
  unfold Obligations.ResetLeavesTheGivenValues
  refine ⟨⟨rfl, fun _ => rfl, fun _ => rfl, rfl, fun _ => rfl⟩, fun u => ?_⟩
  simp only [State.fld_reset]
  decide

/-! ### Absent units -/

section
variable {s : State} {n seat : Nat} {x : State}

/-- A seat that does not exist faults. -/
theorem onIssue_absent {opc : Nat} {f : Issue → State} (h : ¬ (n < 4224 ∧ seat < 8)) : onIssue n seat opc s f = .fault .noSuchUnit := by
  rw [onIssue]
  exact if_neg h

theorem onTile_absent (h : 4224 ≤ n) : onTile n x = .fault .noSuchUnit := if_neg (by omega)

theorem onPort_absent {r : Res} (h : 64 ≤ n) : onPort n r = .fault .noSuchUnit := if_neg (by omega)

theorem onFn_absent {r : Res} (h : 256 ≤ n) : onFn n r = .fault .noSuchUnit := if_neg (by omega)

end

/-- Settles O5: each command checks first that its unit exists; that one of an absent unit ends in the fault `noSuchUnit` is DESIGN CHOICE (log 5). -/
theorem absentUnitsFault : Obligations.AbsentUnitsFault := by
  unfold Obligations.AbsentUnitsFault
  intro s n seat
  refine ⟨fun h => ?_, fun h => ?_, fun h => ?_, fun h => ?_, fun h => ⟨fun f => if_pos h, fun l => if_pos h⟩, fun h => ⟨if_pos h, if_pos h⟩, fun h => ⟨if_pos h, if_pos h⟩⟩
  · have hseat : ¬ (n < 4224 ∧ seat < 8) := by omega
    exact ⟨onIssue_absent hseat, onIssue_absent hseat, onIssue_absent hseat, onIssue_absent hseat, onIssue_absent hseat, onTile_absent h, onTile_absent h⟩
  · have hseat : ¬ (n < 4224 ∧ seat < 8) := by omega
    exact ⟨onIssue_absent hseat, if_neg hseat⟩
  · exact ⟨fun f => onPort_absent h, onPort_absent h, onPort_absent h⟩
  · exact ⟨fun hand v => onFn_absent h, onFn_absent h, onFn_absent h⟩

end Sys2Proof.Machine
end

section
/-! Tile ECC errors, tile moves and release tests (O23) (R594–R609). -/
namespace Sys2Proof.Machine

section
variable {s : State} {tile die n : Nat}

/-- Saving the repair map leaves registers and moves. -/
theorem State.noteRepair_keeps (s : State) : s.noteRepair.regs = s.regs ∧ s.noteRepair.errs.moves = s.errs.moves := by
  rw [State.noteRepair]
  split
  · rw [State.saveRepair]
    split
    · split
      · exact ⟨rfl, rfl⟩
      · exact ⟨rfl, rfl⟩
    · exact ⟨rfl, rfl⟩
  · exact ⟨rfl, rfl⟩

/-- A corrected error of the sheet store is recorded. -/
theorem exec_sheetStoreEccError_corrected (ht : tile < 4224) (a bit : Nat) : exec (.sheetStoreEccError tile (.sheet a) true bit) s =
    .next (s.raise { cause := SRAM_CORRECTED, prov := s.provOf tile, die := dieOfTile tile, unit := tileUnit tile, addr := a, bit := bit }) := by
  show execSheetStoreEccError tile (.sheet a) true bit s = _
  rw [execSheetStoreEccError, onTile, if_pos ht]
  simp only [Bool.and_self, if_true]

/-- An uncorrected one marks its word and faults the trick. -/
theorem exec_sheetStoreEccError_bad (ht : tile < 4224) (a bit : Nat) : exec (.sheetStoreEccError tile (.sheet a) false bit) s =
    .next ((s.setTile tile { (s.tile tile) with badWords := Sparse.set false (s.tile tile).badWords (a / 16) true }).tileFault tile a bit) := by
  show execSheetStoreEccError tile (.sheet a) false bit s = _
  rw [execSheetStoreEccError, onTile, if_pos ht]
  simp only [Bool.false_and, Bool.false_eq_true, if_false]

/-- Once its rows are copied, a move shows the faulty column, and every move of the tile is done (R606). -/
theorem exec_tileMoveDone (ht : tile < 4224) (hm : s.errs.moves.any (fun m => m.tile == tile && m.phase == .moving) = true) :
    ∃ t, exec (.tileMoveDone tile) s = .next t ∧ t.fld (dieOfTile tile) (DLR_ROWMAP_FAULTCOL (rowOfTile tile)) = tile % 33 ∧
      ∀ m ∈ t.errs.moves, m.tile = tile → m.phase = .done := by
  have hexec : exec (.tileMoveDone tile) s = execTileMoveDone tile s := rfl
  rw [hexec, execTileMoveDone, onTile, if_pos ht, if_neg (by rw [hm]; decide)]
  dsimp only
  generalize (List.range (32 - tile % 33)).foldl _ s = u
  refine ⟨_, rfl, ?_, ?_⟩
  · rw [State.fld_congr (State.noteRepair_keeps _).1]
    refine (State.fld_setFld_self u (dieOfTile tile) (DLR_ROWMAP_FAULTCOL (rowOfTile tile)) (tile % 33) (by decide : 0 + 6 ≤ 64)).trans ?_
    exact Nat.mod_eq_of_lt (show tile % 33 < 64 by omega)
  · rw [(State.noteRepair_keeps _).2]
    intro m hm htile
    obtain ⟨m', -, rfl⟩ := List.mem_map.mp hm
    by_cases h : m'.tile = tile
    · rw [if_pos h]
    · rw [if_neg h] at htile
      exact absurd htile h

/-- A release test that finds nothing releases its unit (R609). -/
theorem exec_releaseTestDone {found : List ErrIn} (hd : die < 8) (hf : ∀ r ∈ found, r.cause ≠ BIST_UNREPAIRED ∧ r.cause ≠ BIST_REPAIRED) :
    exec (.releaseTestDone die n false found) s =
      .next { s with errs := { s.errs with untested := s.errs.untested.filter (fun u => u != (die, n)) } } := by
  have hfails : found.any (fun r => r.cause == BIST_UNREPAIRED) = false :=
    List.any_eq_false.mpr (fun r hr => by simpa using (hf r hr).1)
  have hnone : found.filter (fun r => r.cause == BIST_REPAIRED || r.cause == BIST_UNREPAIRED) = [] :=
    List.filter_eq_nil_iff.mpr (fun r hr => by simpa using (hf r hr).symm)
  show execReleaseTestDone die n false found s = _
  rw [execReleaseTestDone, if_neg (by omega), hfails, hnone]
  rfl

end

/-- Settles O23: an error is raised or faults the trick, the rules' own words; a finished move and a passed test by the lists they change. -/
theorem tileErrorsAndRepairs : Obligations.TileErrorsAndRepairs := by
  unfold Obligations.TileErrorsAndRepairs
  intro s tile a bit die n found ht
  refine ⟨exec_sheetStoreEccError_corrected ht a bit, exec_sheetStoreEccError_bad ht a bit, exec_tileMoveDone ht, fun hd hf => ⟨_, exec_releaseTestDone hd hf, ?_, fun u hu hne => ?_⟩⟩
  · simp
  · exact List.mem_filter.mpr ⟨hu, by simpa using hne⟩

end Sys2Proof.Machine
end

section
/-! DISCARD of a reattaching function that has a hand in ERROR (O50) (R526). -/
namespace Sys2Proof.Machine

/-- Function 0 reattaches with Bus Master Enable, and its one hand is in ERROR. -/
def erringHandState : State :=
  (({ State.reset with hands := [(4096, Hand.init)], fns := [(0, { Fn.init with bme := true })] } : State).setFld 0 HIF_FN_STATUS_ATTACH 2).setFld 4096
    HAND_STATUS_STATE H_ERROR

/-- DISCARD leaves the hand in ERROR. -/
theorem erringHandState_discard : (match exec (.discard 0) erringHandState with | .next t => t.handState 4096 | _ => H_CLOSED) = H_ERROR := by
  decide +kernel

/-- Refutes O50: a hand in ERROR is among the hands that DISCARD of its function discards, and stays in ERROR instead of becoming CLOSED. -/
theorem not_functionsDetachAndReattach : ¬ Obligations.FunctionsDetachAndReattach := by
  unfold Obligations.FunctionsDetachAndReattach
  intro h
  obtain ⟨-, -, -, -, -, -, -, hattach, -⟩ := h erringHandState 0 1 1 (by decide) (by decide +kernel)
  obtain ⟨-, t, hexec, -, -, hclosed⟩ := hattach (by decide +kernel) (by decide +kernel)
  have herror := erringHandState_discard
  rw [hexec] at herror
  exact absurd ((hclosed 4096 (by decide +kernel)).symm.trans herror) (by decide)

end Sys2Proof.Machine
end

section
/-! Survey counters (O33), and the ring of a province whose entry is listed twice (O34) (R611–R622). -/
namespace Sys2Proof.Machine

/-! ### Writing the fields of a register -/

/-- A write by the access codes leaves the bits apart from its field. -/
theorem FieldDef.bits_put_apart (f : FieldDef) (value mask : Nat) (forming : Bool) (w : Nat) {lo n : Nat} (h : f.lo + f.width ≤ lo ∨ lo + n ≤ f.lo) :
    bits (f.put value mask forming w) lo n = bits w lo n := by
  have hset : ∀ v, bits (setBits w f.lo f.width v) lo n = bits w lo n := fun v => bits_setBits_other _ _ _ _ _ _ h
  rw [FieldDef.put]
  split
  · split
    · exact hset _
    · rfl
  · split
    · exact hset _
    · rfl
  · exact hset _
  · exact hset _
  · rfl
  · rfl
  · rfl

theorem bits_foldl_put_apart (fs : List FieldDef) (value mask : Nat) (forming : Bool) {lo n : Nat} (h : ∀ f ∈ fs, f.lo + f.width ≤ lo ∨ lo + n ≤ f.lo) (w : Nat) :
    bits (fs.foldl (fun w f => f.put value mask forming w) w) lo n = bits w lo n := by
  induction fs generalizing w with
  | nil => rfl
  | cons f fs ih =>
    rw [List.foldl_cons, ih (fun g hg => h g (List.mem_cons_of_mem _ hg)), f.bits_put_apart value mask forming w (h f List.mem_cons_self)]

/-! ### SRV_CFG -/

theorem bitAt_eq_testBit (n i : Nat) : bitAt n i = n.testBit i := by
  rw [bitAt, Nat.testBit_eq_decide_div_mod_eq]
  rfl

theorem srvCfg_ne_cnt {i : Nat} (hi : i < 8) : (SRV_CFG_EVENT i).reg.off ≠ (SRV_CNT_COUNT i).reg.off ∧ (SRV_CFG_EVENT i).reg.off < 2 ^ 16 ∧ (SRV_CNT_COUNT i).reg.off < 2 ^ 16 := by
  simp only [SRV_CFG_EVENT, SRV_CFG, SRV_CNT_COUNT, SRV_CNT]
  omega

theorem srvStatus_ne_cnt {i : Nat} (hi : i < 8) : SRV_STATUS_CFG_ERR.reg.off ≠ (SRV_CNT_COUNT i).reg.off ∧ SRV_STATUS_CFG_ERR.reg.off < 2 ^ 16 ∧ (SRV_CNT_COUNT i).reg.off < 2 ^ 16 := by
  simp only [SRV_STATUS_CFG_ERR, SRV_STATUS, SRV_CNT_COUNT, SRV_CNT]
  omega

theorem srvStatus_ne_cfg {i : Nat} (hi : i < 8) : SRV_STATUS_CFG_ERR.reg.off ≠ (SRV_CFG i).off ∧ SRV_STATUS_CFG_ERR.reg.off < 2 ^ 16 ∧ (SRV_CFG i).off < 2 ^ 16 := by
  simp only [SRV_STATUS_CFG_ERR, SRV_STATUS, SRV_CFG]
  omega


/-- The first field of SRV_CFG. -/
def srvEventDef : FieldDef := ⟨"EVENT", 0, 8, .rw, 0x0, .any⟩

/-- The other fields of SRV_CFG lie above EVENT. -/
theorem srvCfg_find {i : Nat} (hi : i < 8) :
    ∃ d fs, Block.srv.find (0x200 + 8 * i) = some d ∧ d.fields = srvEventDef :: fs ∧ ∀ f ∈ fs, f.lo + f.width ≤ 0 ∨ 0 + 8 ≤ f.lo := by
  interval_cases i <;> exact ⟨_, _, rfl, rfl, by decide⟩

theorem srvEventDef_put (value old : Nat) : bits (srvEventDef.put value (2 ^ 64 - 1) false old) 0 8 = bits value 0 8 := by
  have hv : bits value 0 8 < 2 ^ 8 := bits_lt _ _ _
  have hput : srvEventDef.put value (2 ^ 64 - 1) false old = setBits old 0 8 ((bits old 0 8 &&& 0) ||| (bits value 0 8 &&& (2 ^ 8 - 1))) := rfl
  rw [hput, bits_setBits_self, Nat.and_zero, Nat.zero_or, Nat.and_two_pow_sub_one_eq_mod, Nat.mod_mod, Nat.mod_eq_of_lt hv]

/-- A write of SRV_CFG stores its EVENT. -/
theorem srvCfg_put_event {d : RegDef} {fs : List FieldDef} (hd : d.fields = srvEventDef :: fs) (hfs : ∀ f ∈ fs, f.lo + f.width ≤ 0 ∨ 0 + 8 ≤ f.lo) (value old : Nat) :
    bits (d.put value (2 ^ 64 - 1) false old) 0 8 = bits value 0 8 := by
  rw [RegDef.put, hd, List.foldl_cons, bits_foldl_put_apart fs value _ false hfs, srvEventDef_put]

section
variable {s : State} {addr value i unit : Nat} {r : RegAt}

theorem State.event_setReg (s : State) (u i w : Nat) : (s.setReg u (SRV_CFG i) (BitVec.ofNat 64 w)).fld u (SRV_CFG_EVENT i) = bits w 0 8 := by
  show bits ((s.setReg u (SRV_CFG i) (BitVec.ofNat 64 w)).reg u (SRV_CFG i)).toNat 0 8 = _
  rw [State.reg_setReg_self, BitVec.toNat_ofNat, bits, bits]
  omega

theorem execSrvCfgWrite_eq {v : Nat} (hr : dpaReg addr = some r) (hb : r.block = .srv) (ho : r.off = 0x200 + 8 * i) (hi : i < 8) (hp : i < srvProgs r.unit)
    (ok : Bool) (hok : (bits value 0 8 == 0 || (decide ((srvRange r.unit).1 ≤ bits value 0 8) && decide (bits value 0 8 ≤ (srvRange r.unit).2))) = ok)
    (hv : (if ok then value else setBits value 0 8 (s.fld r.unit (SRV_CFG_EVENT i))) = v) :
    ∃ w, bits w 0 8 = bits v 0 8 ∧ exec (.srvCfgWrite .steward addr value) s = .next (if ok then
      (s.setReg r.unit (SRV_CFG i) (BitVec.ofNat 64 w)).setFld r.unit (SRV_CNT_COUNT i) 0
      else ((s.setReg r.unit (SRV_CFG i) (BitVec.ofNat 64 w)).setFld r.unit (SRV_CNT_COUNT i) 0).setFld r.unit SRV_STATUS_CFG_ERR 1) := by
  obtain ⟨d, fs, hfind, hd, hfs⟩ := srvCfg_find hi
  have hidx : (r.off - 0x200) / 8 = i := by omega
  have hexec : exec (.srvCfgWrite .steward addr value) s = execSrvCfgWrite .steward addr value s := rfl
  rw [hexec, execSrvCfgWrite, State.regFor, hr]
  dsimp only
  rw [hidx, if_neg (by rintro (h | h) <;> [exact h hb; omega]), hok, ho, hfind]
  subst hv
  exact ⟨_, srvCfg_put_event hd hfs _ _, rfl⟩

/-- OR-ing a bit into a field sets it. -/
theorem State.bitAt_orFld (s : State) (u : Nat) (f : Fld) (h : f.lo + f.width ≤ 64) (hi : i < f.width) : bitAt ((s.orFld u f (2 ^ i)).fld u f) i = true := by
  rw [State.orFld, State.fld_setFld_self _ _ _ _ h, bitAt_eq_testBit, Nat.testBit_mod_two_pow, Nat.testBit_or, Nat.testBit_two_pow_self]
  simp [hi]

theorem exec_counterHalfRange_fixed (hu : unit ≤ srvProv 255) (hi : i < (srvFixed unit).length) (ht : srvTimed (s.counterEvent unit i) = true) :
    exec (.counterHalfRange unit i) s = .next ((s.orFld unit SRV_HALF_FIX (2 ^ i)).emit (.stewardIrq unit)) := by
  have h8 := srvFixed_length unit
  show execCounterHalfRange unit i s = _
  rw [execCounterHalfRange, if_neg (by omega)]
  dsimp only
  rw [if_pos (show i < 8 by omega), if_pos (show i < 8 by omega), ht, decide_eq_true hi]
  rfl

theorem exec_counterHalfRange_prog (hu : unit ≤ srvProv 255) (hi : i < srvProgs unit) (ht : srvTimed (s.counterEvent unit (8 + i)) = true) :
    exec (.counterHalfRange unit (8 + i)) s = .next ((s.orFld unit SRV_HALF_CNT (2 ^ i)).emit (.stewardIrq unit)) := by
  have h8 := srvProgs_le unit
  show execCounterHalfRange unit (8 + i) s = _
  rw [execCounterHalfRange, if_neg (by omega)]
  dsimp only
  rw [if_neg (show ¬ 8 + i < 8 by omega), if_neg (show ¬ 8 + i < 8 by omega), ht, Nat.add_sub_cancel_left, decide_eq_true hi]
  rfl

end

/-- Settles O33: the words of SRV_CFG by the access codes of its fields, the copies and the half-range bits by their rules. -/
theorem surveyCounters : Obligations.SurveyCounters := by
  unfold Obligations.SurveyCounters
  intro s addr value i unit r
  refine ⟨fun hr hb ho hi hp => ⟨fun hok => ?_, fun h0 hrange => ?_⟩, fun hr hb ho hbit => ?_, fun hr hb ho hbit habs => ?_, fun hu hi ht => ?_, fun hu hi ht => ?_⟩
  · have hok' : (bits value 0 8 == 0 || (decide ((srvRange r.unit).1 ≤ bits value 0 8) && decide (bits value 0 8 ≤ (srvRange r.unit).2))) = true := by
      simpa using hok
    obtain ⟨w, hw, hexec⟩ := execSrvCfgWrite_eq (s := s) hr hb ho hi hp true hok' rfl
    refine ⟨_, hexec, ?_, ?_, ?_⟩
    · exact State.fld_setFld_self _ r.unit (SRV_CNT_COUNT i) 0 (by decide : 0 + 48 ≤ 64)
    · rw [if_pos rfl, State.fld_setFld_off _ _ (srvCfg_ne_cnt hi), State.event_setReg, hw, if_pos rfl]
    · rw [if_pos rfl, State.fld_setFld_off _ _ (srvStatus_ne_cnt hi), State.fld_setReg_off _ _ (srvStatus_ne_cfg hi)]
  · have hok' : (bits value 0 8 == 0 || (decide ((srvRange r.unit).1 ≤ bits value 0 8) && decide (bits value 0 8 ≤ (srvRange r.unit).2))) = false := by
      simp only [Bool.or_eq_false_iff, Bool.and_eq_false_iff, beq_eq_false_iff_ne, decide_eq_false_iff_not]
      omega
    obtain ⟨w, hw, hexec⟩ := execSrvCfgWrite_eq (s := s) hr hb ho hi hp false hok' rfl
    refine ⟨_, hexec, ?_, ?_, ?_⟩
    · rw [if_neg Bool.false_ne_true, State.fld_setFld_off _ _ ⟨(srvStatus_ne_cnt hi).1.symm, (srvStatus_ne_cnt hi).2.2, (srvStatus_ne_cnt hi).2.1⟩]
      exact State.fld_setFld_self _ r.unit (SRV_CNT_COUNT i) 0 (by decide : 0 + 48 ≤ 64)
    · rw [if_neg Bool.false_ne_true, State.fld_setFld_off _ _ ⟨(srvStatus_ne_cfg hi).1.symm, (srvStatus_ne_cfg hi).2.2, (srvStatus_ne_cfg hi).2.1⟩, State.fld_setFld_off _ _ (srvCfg_ne_cnt hi), State.event_setReg, hw,
        if_neg Bool.false_ne_true, bits_setBits_self]
      exact Nat.mod_eq_of_lt (s.fld_lt r.unit (SRV_CFG_EVENT i))
    · exact State.fld_setFld_self _ r.unit SRV_STATUS_CFG_ERR 1 (by decide)
  · show execSrvSnap .steward addr value s = _
    rw [execSrvSnap, State.regFor, hr]
    dsimp only
    rw [if_neg (by simp [hb, ho]), if_pos hbit]
  · have hexec : exec (.provSrvSnap .steward addr value) s = execProvSrvSnap .steward addr value s := rfl
    rw [hexec, execProvSrvSnap, State.regFor, hr]
    dsimp only
    rw [if_neg (by simp [hb, ho, hbit, habs])]
    exact ⟨_, rfl, by rw [State.prov_setProv_self], State.setProv_regs ..⟩
  · refine ⟨_, exec_counterHalfRange_fixed hu hi ht, ?_, by rw [State.emit_sent]; rfl⟩
    rw [State.fld_congr (State.emit_regs ..)]
    exact s.bitAt_orFld unit SRV_HALF_FIX (by decide) (lt_of_lt_of_le hi (srvFixed_length unit))
  · refine ⟨_, exec_counterHalfRange_prog hu hi ht, ?_, by rw [State.emit_sent]; rfl⟩
    rw [State.fld_congr (State.emit_regs ..)]
    exact s.bitAt_orFld unit SRV_HALF_CNT (by decide) (lt_of_lt_of_le hi (srvProgs_le unit))

/-! ### A ring whose province is listed twice -/

/-- Tile 0 holds two samples, and two entries of the list of provinces have the number 1: an empty one and, behind it, the owner of the tile. -/
def twiceListedState : State :=
  ({ State.reset with
    provs := [(1, Prov.empty), (1, { Prov.empty with units := [(0, 0)] })]
    tiles := [(0, { Tile.init with samples := [[1], [2]] })] } : State).setFld 1 PROV_SRV_RING_SIZE 1

/-- The first sample's ring position makes both entries go, so the second sample has no owner and is discarded. -/
theorem twiceListedState_moves : (match exec (.sampleRingMove 0) twiceListedState with | .next t => (t.mbyte 0).toNat | _ => 0) = 1 := by decide +kernel

/-- With the owner of the state before, the second sample would have overwritten the first. -/
theorem twiceListedState_puts : (((twiceListedState.tile 0).samples.foldl (fun u x => u.ringPut (twiceListedState.ownerOfTile 0) x)
    (twiceListedState.setTile 0 { (twiceListedState.tile 0) with samples := [] })).mbyte 0).toNat = 2 := by decide +kernel

/-- Refutes O34: the collector asks for a tile's owner sample by sample, and in a state whose list of provinces is not in canonical form the first sample's step of the
ring position can take the owner away (the statement holds for every state, so such a state too). -/
theorem not_surveySamplesAndTags : ¬ Obligations.SurveySamplesAndTags := by
  unfold Obligations.SurveySamplesAndTags
  intro h
  obtain ⟨-, -, hmove, -⟩ := h twiceListedState 0 0 0 0 0 0 0 0 0 ⟨.srv, 0, 0⟩ (by decide)
  have hexec := hmove rfl (by decide +kernel) (by decide +kernel) (by decide +kernel)
  have hbyte := twiceListedState_moves
  rw [hexec] at hbyte
  exact absurd (hbyte.symm.trans twiceListedState_puts) (by decide)

end Sys2Proof.Machine
end

section
/-! Messages, completion, exclusion and patches of collectives (O36, O37) (R380–R400). -/
namespace Sys2Proof.Machine

section
variable {s u : State} {p src ord n : Nat} {m : SegMsg} {c : Coll} {d : CollDesc}

/-! ### What a completion leaves -/

/-- The step of a province and its Talons are configured in different blocks. -/
theorem State.talonOf_setReg (s : State) (p q i : Nat) (r : Reg) (v : W64) (hr : r.block = .prov) : (s.setReg p r v).talonOf q i = s.talonOf q i := by
  have hfld : ∀ k < 512, ∀ f : Fld, f.reg = TAL_CFG (k % 64) → (s.setReg p r v).fld (k / 64) f = s.fld (k / 64) f := by
    intro k hk f hf
    have hreg : (s.setReg p r v).reg (k / 64) f.reg = s.reg (k / 64) f.reg := by
      refine State.reg_setReg_other s v ?_
      rw [hf]
      simp only [Reg.key, TAL_CFG, hr, Block.code]
      omega
    rw [State.fld, State.fld, hreg]
  rw [State.talonOf, State.talonOf]
  refine List.find?_congr fun k hk => ?_
  have hk := List.mem_range.mp hk
  rw [hfld k hk (TAL_CFG_PROV (k % 64)) rfl, hfld k hk (TAL_CFG_INDEX (k % 64)) rfl, hfld k hk (TAL_CFG_EN (k % 64)) rfl]

theorem State.talonOf_setProv (s : State) (p q i : Nat) (x : Prov) : (s.setProv p x).talonOf q i = s.talonOf q i := by
  simp only [State.talonOf, State.fld_setProv]

theorem State.talonOf_setFld (s : State) (p q i : Nat) (f : Fld) (v : Nat) (hf : f.reg.block = .prov) : (s.setFld p f v).talonOf q i = s.talonOf q i :=
  s.talonOf_setReg p q i f.reg _ hf

/-- `t` has the collectives of `p`, the Talons with their configuration, and the memory of `s`. -/
structure State.KeepsColls (p : Nat) (s t : State) : Prop where
  colls : (t.prov p).colls = (s.prov p).colls
  talons : t.talons = s.talons
  talonOf : ∀ q i, t.talonOf q i = s.talonOf q i
  mem : t.mem = s.mem

theorem State.KeepsColls.refl (p : Nat) (s : State) : State.KeepsColls p s s := ⟨rfl, rfl, fun _ _ => rfl, rfl⟩

theorem State.KeepsColls.trans {s t u : State} (h : State.KeepsColls p s t) (h' : State.KeepsColls p t u) : State.KeepsColls p s u :=
  ⟨h'.colls.trans h.colls, h'.talons.trans h.talons, fun q i => (h'.talonOf q i).trans (h.talonOf q i), h'.mem.trans h.mem⟩

theorem State.KeepsColls.setProv (s : State) (x : Prov) (hx : x.colls = (s.prov p).colls) : State.KeepsColls p s (s.setProv p x) :=
  ⟨by rw [State.prov_setProv_self, hx], State.setProv_talons .., fun q i => s.talonOf_setProv p q i x, State.setProv_mem ..⟩

theorem State.KeepsColls.setFld (s : State) (f : Fld) (v : Nat) (hf : f.reg.block = .prov) : State.KeepsColls p s (s.setFld p f v) :=
  ⟨by rw [State.prov_congr (State.setFld_provs ..)], State.setFld_talons .., fun q i => s.talonOf_setFld p q i f v hf, State.setFld_mem ..⟩

theorem State.KeepsColls.setReg (s : State) (r : Reg) (v : W64) (hr : r.block = .prov) : State.KeepsColls p s (s.setReg p r v) :=
  ⟨by rw [State.prov_congr (State.setReg_provs ..)], State.setReg_talons .., fun q i => s.talonOf_setReg p q i r v hr, State.setReg_mem ..⟩

theorem State.Tells.keepsColls {s t : State} (h : s.Tells t) : State.KeepsColls p s t :=
  ⟨by rw [State.prov_congr h.provs], h.talons, fun q i => by simp only [State.talonOf, State.fld_congr h.regs], h.mem⟩

theorem State.KeepsColls.settle (s : State) (op : GlobOp) (status : Nat) : State.KeepsColls p s (s.settle p op status) :=
  (State.KeepsColls.setProv s _ (by rfl)).trans (State.Tells.settle s p op status).keepsColls

theorem State.KeepsColls.cutCheck (s : State) : State.KeepsColls p s (s.cutCheck p) := by
  rw [State.cutCheck]
  dsimp only
  split
  · exact .refl ..
  · rename_i c hc
    split
    · split
      · have hover := State.Tells.foldl (fun (s : State) (q : Nat) => s.emit (.ndx p q (.cutOver c.frame))) (fun s q => .emit s (.ndx p q (.cutOver c.frame)))
        exact (State.KeepsColls.setProv s _ (by rfl)).trans (((hover _ _).trans (.emit ..)).keepsColls.trans (.settle ..))
      · exact (State.KeepsColls.setProv s _ (by rfl)).trans (State.Tells.emit ..).keepsColls
    · exact .refl ..

/-- A rank's own cut may end with a message; it changes no collective. -/
theorem State.KeepsColls.cutOwn (s : State) : State.KeepsColls p s (s.cutOwn p) := by
  rw [State.cutOwn]
  dsimp only
  split
  · split
    · exact (State.KeepsColls.setProv s _ (by rfl)).trans (.cutCheck _)
    · exact .refl ..
  · exact .refl ..

/-- A step that becomes REDUCED, or VERIFIED at once, changes no collective. -/
theorem State.KeepsColls.checkReduced (s : State) : State.KeepsColls p s (s.checkReduced p) := by
  have hno : ∀ s : State, State.KeepsColls p s (s.noVerdict p) := by
    intro s
    rw [State.noVerdict]
    split
    · exact .refl ..
    · exact .setFld s _ _ rfl
  rw [State.checkReduced]
  split
  · split
    · exact .refl ..
    · rw [State.reduceStep]
      split
      · have hset : State.KeepsColls p s (s.setStepState p ST_REDUCED) := .setFld s PROV_STEP_STATE_STATE ST_REDUCED rfl
        exact (hset.trans (State.KeepsColls.setProv (s.setStepState p ST_REDUCED) _ (by exact hset.colls.symm))).trans (hno _)
      · exact .refl ..
  · exact .refl ..

/-! ### Messages -/

/-- A message taken from the network leaves memory, and so the image. -/
@[simp] theorem State.img_take (s : State) (p src q : Nat) (b : NdxBody) : (s.take p src b).img q = s.img q := rfl

@[simp] theorem State.gidx_take (s : State) (p src q rank : Nat) (b : NdxBody) (d : CollDesc) : (s.take p src b).gidx q d rank = s.gidx q d rank := rfl

@[simp] theorem State.ackedColl_take (s : State) (p src q r : Nat) (b : NdxBody) (m : SegMsg) : (s.take p src b).ackedColl q r m = s.ackedColl q r m := by
  rw [State.ackedColl, State.ackedColl]
  simp only [State.img_take, State.gidx_take]
  rfl

@[simp] theorem State.patchWaits_take (s : State) (p src q r : Nat) (b : NdxBody) (m : SegMsg) : (s.take p src b).patchWaits q r m = s.patchWaits q r m := rfl

theorem execSegmentReceived_data (hu : u = (s.take p src (.seg m)).ackSeg p src m) (hk : m.kind = 0) :
    exec (.segmentReceived p src m) s = .next (u.route p src m (fun o => (u.deliver p o src m).recheck p o)) := by
  show execSegmentReceived p src m s = _
  rw [execSegmentReceived, hu]
  dsimp only
  rw [if_neg (by simp [hk]), if_neg (by simp [hk])]

theorem execSegmentReceived_otherStep (hk : m.kind = 2) (hp : s.fromParent p src m = true) (hs : m.step ≠ (s.reg p PROV_STEP).toNat) (he : m.repoch = s.fld p PROV_EPOCH_EPOCH) :
    exec (.segmentReceived p src m) s = .next ((s.take p src (.seg m)).segDrop p m) := by
  show execSegmentReceived p src m s = _
  rw [execSegmentReceived]
  exact if_pos ⟨hk, hp, .inr hs, he⟩

theorem execCheckRecordReceived_check (hu : u = (s.take p src (.seg m)).ackSeg p src m) (hk : m.kind = 1) :
    exec (.checkRecordReceived p src m) s = .next (u.route p src m (fun o => u.deliverCheck p o src m)) := by
  show execCheckRecordReceived p src m s = _
  rw [execCheckRecordReceived, hu]
  dsimp only
  rw [if_neg (by simp [hk])]

/-- A message of the province's epoch is acknowledged by the segment it carries. -/
theorem State.ackSeg_acks (he : m.repoch = s.fld p PROV_EPOCH_EPOCH) (hst : (s.prov p).st ≠ .none_) :
    (s.take p src (.seg m)).ackSeg p src m = (s.take p src (.seg m)).emit (.segment p src (s.segMsg p 3 m.ord m.seg 0 false false [])) := by
  rw [State.ackSeg]
  exact if_pos ⟨he, hst⟩

theorem execSegmentAckReceived_patch (hk : m.kind = 3) (he : m.repoch = s.fld p PROV_EPOCH_EPOCH) (hp : s.patchWaits p src m = true) :
    exec (.segmentAckReceived p src m) s = .next (((s.take p src (.seg m)).ackPatch p src m).cutOwn p) := by
  show execSegmentAckReceived p src m s = _
  rw [execSegmentAckReceived]
  refine (if_neg ?_).trans (if_pos hp)
  rintro (h | h)
  · exact h hk
  · exact h he

theorem execSegmentAckReceived_coll (hk : m.kind = 3) (he : m.repoch = s.fld p PROV_EPOCH_EPOCH) (hp : s.patchWaits p src m = false) (hc : s.ackedColl p src m = some c)
    (hd : d = (s.img p).coll c.idx) :
    exec (.segmentAckReceived p src m) s = .next ((((s.take p src (.seg m)).updColl p c.order (fun x => { x with
      unacked := dropFirst (s.gidx p d src) m.seg x.unacked,
      kids := x.kids.map (fun k => if ((findUnacked (s.gidx p d src) m.seg c.unacked).map Unacked.copy).getD false = true ∧ k.rank = s.gidx p d src ∧
        x.copies.any (fun y => y.seg == m.seg && y.shard == k.shard) ∧ k.acked < k.sent then { k with acked := k.acked + 1, atLimit := 0 } else k) })).pump p c.order d).cutOwn p) := by
  subst hd
  show execSegmentAckReceived p src m s = _
  have hno : ¬ (m.kind ≠ 3 ∨ m.repoch ≠ (s.take p src (.seg m)).fld p PROV_EPOCH_EPOCH) := by
    rintro (h | h)
    · exact h hk
    · exact h he
  rw [execSegmentAckReceived, if_neg hno, State.patchWaits_take, if_neg (by rw [hp]; exact Bool.false_ne_true), State.ackedColl_take, hc]
  dsimp only
  rw [State.img_take, State.gidx_take]

/-! ### Completion -/

/-- A collective whose work is over and acknowledged. -/
structure State.CollOver (s : State) (p ord : Nat) (c : Coll) (d : CollDesc) : Prop where
  found : (s.prov p).colls.find? (fun x => x.started && ((s.img p).coll x.idx).ord == ord) = some c
  desc : d = (s.img p).coll c.idx
  runs : c.stopped = false
  need : c.need = 0
  sums : c.sums.all SegNode.done = true
  checks : c.checks.all CheckNode.done = true
  acked : c.unacked = []
  ready : c.waiting = false
  patched : (s.prov p).patches.any (fun x => x.ord == ord && x.step == c.step) = false
  verdict : d.op = 8 → (s.prov p).verdict = none
  written : s.memc.waits.any (fun x => x.prov == p && x.cls == 2) = false

/-- The state in which a collective that is over has left its province and its step has been looked at. -/
def State.collLeft (s : State) (p : Nat) (c : Coll) (d : CollDesc) : State :=
  let t := s.setProv p { (s.prov p) with
    colls := (s.prov p).colls.filter (fun x => x.order != c.order)
    mcDone := if d.mc ∧ d.copies then (c.idx, c.step) :: (s.prov p).mcDone.filter (fun x => x.1 != c.idx) else (s.prov p).mcDone
    gradLast := if d.gradLast ∧ c.step = s.stepNo p then some c.order else (s.prov p).gradLast }
  (if d.op = 7 ∧ d.ord = t.fld p PROV_STANDIN_MIRROR_ORD ∧ d.ord ≠ 0xFFFF then
    (t.setReg p PROV_MIRROR_STEP (t.reg p PROV_STEP - 1)).setFld p PROV_STANDIN_MIRROR_VALID 1 else t).checkReduced p

theorem State.collLeft_spec (s : State) (p : Nat) (c : Coll) (d : CollDesc) :
    ((s.collLeft p c d).prov p).colls = (s.prov p).colls.filter (fun x => x.order != c.order) ∧ (s.collLeft p c d).talons = s.talons ∧
      (∀ q i, (s.collLeft p c d).talonOf q i = s.talonOf q i) ∧ (s.collLeft p c d).mem = s.mem := by
  rw [State.collLeft]
  dsimp only
  generalize hx : ({ (s.prov p) with
    colls := (s.prov p).colls.filter (fun x => x.order != c.order)
    mcDone := if d.mc ∧ d.copies then (c.idx, c.step) :: (s.prov p).mcDone.filter (fun x => x.1 != c.idx) else (s.prov p).mcDone
    gradLast := if d.gradLast ∧ c.step = s.stepNo p then some c.order else (s.prov p).gradLast } : Prov) = x
  have hcolls : x.colls = (s.prov p).colls.filter (fun x => x.order != c.order) := by rw [← hx]
  have hmirror : ∀ t : State, State.KeepsColls p t (if d.op = 7 ∧ d.ord = t.fld p PROV_STANDIN_MIRROR_ORD ∧ d.ord ≠ 0xFFFF then
      (t.setReg p PROV_MIRROR_STEP (t.reg p PROV_STEP - 1)).setFld p PROV_STANDIN_MIRROR_VALID 1 else t) := by
    intro t
    split
    · exact (State.KeepsColls.setReg t _ _ rfl).trans (.setFld _ _ _ rfl)
    · exact .refl ..
  obtain ⟨hc, ht, hto, hm⟩ := (hmirror (s.setProv p x)).trans (.checkReduced _)
  refine ⟨hc.trans (by rw [State.prov_setProv_self, hcolls]), ht.trans (State.setProv_talons ..), fun q i => (hto q i).trans (s.talonOf_setProv p q i x),
    hm.trans (State.setProv_mem ..)⟩

theorem execCollectiveComplete_over (h : s.CollOver p ord c d) (out : State)
    (hput : (match d.put, (s.collLeft p c d).talonOf p d.talon with | true, some n => (s.collLeft p c d).talonPut n d.handle | _, _ => s.collLeft p c d) = out) :
    exec (.collectiveComplete p ord) s = .next (out.cutOwn p) := by
  obtain ⟨hfound, rfl, hruns, hneed, hsums, hchecks, hacked, hready, hpatched, hverdict, hwritten⟩ := h
  have hop : ¬ (((s.img p).coll c.idx).op = 8 ∧ (s.prov p).verdict.isSome = true) := by
    rintro ⟨h8, hv⟩
    rw [hverdict h8] at hv
    exact absurd hv (by decide)
  show execCollectiveComplete p ord s = _
  rw [execCollectiveComplete]
  dsimp only
  rw [hfound]
  dsimp only
  rw [if_neg (by simp [hruns, hneed, hsums, hchecks, hacked, hready, hpatched, hwritten, hop]), ← hput]
  rfl

theorem execCollectiveComplete_noPut (h : s.CollOver p ord c d) (hp : d.put = false) : exec (.collectiveComplete p ord) s = .next ((s.collLeft p c d).cutOwn p) :=
  execCollectiveComplete_over h _ (by rw [hp])

theorem execCollectiveComplete_put (h : s.CollOver p ord c d) (hp : d.put = true) (hn : s.talonOf p d.talon = some n) :
    exec (.collectiveComplete p ord) s = .next (((s.collLeft p c d).talonPut n d.handle).cutOwn p) := by
  obtain ⟨-, -, hto, -⟩ := s.collLeft_spec p c d
  exact execCollectiveComplete_over h _ (by rw [hp, hto, hn])

end

/-- Settles O36: messages by the rules of their kinds, and the completion by what it leaves. The fields of an acknowledgement, and that it takes off the first message with
its segment, are DEDUCED (log 167). -/
theorem collectiveMessages : Obligations.CollectiveMessages := by
  unfold Obligations.CollectiveMessages
  intro s u p src ord n m c d
  refine ⟨fun hu => ⟨execSegmentReceived_data hu, execSegmentReceived_otherStep, execCheckRecordReceived_check hu, fun he hst => ?_⟩, fun hu hk he => ?_,
    fun hfound hdesc hruns hneed hsums hchecks hacked hready hpatched hverdict hwritten => ?_⟩
  · rw [hu, State.ackSeg_acks he hst, State.emit_sent, State.emit_mem]
    exact ⟨rfl, rfl⟩
  · subst hu
    exact ⟨execSegmentAckReceived_patch hk he, execSegmentAckReceived_coll hk he⟩
  · have hover : s.CollOver p ord c d := ⟨hfound, hdesc, hruns, hneed, hsums, hchecks, hacked, hready, hpatched, hverdict, hwritten⟩
    obtain ⟨hcolls, htalons, -, hmem⟩ := s.collLeft_spec p c d
    refine ⟨fun hp => ?_, fun hp hn hroom hwait => ?_⟩
    · have hcut := State.KeepsColls.cutOwn (p := p) (s.collLeft p c d)
      exact ⟨_, execCollectiveComplete_noPut hover hp, hcut.colls.trans hcolls, hcut.talons.trans htalons, hcut.mem.trans hmem⟩
    · have hcut := State.KeepsColls.cutOwn (p := p) ((s.collLeft p c d).talonPut n d.handle)
      have htalon := State.talon_congr htalons n
      have hput : (s.collLeft p c d).talonPut n d.handle = (s.collLeft p c d).setTalon n { (s.talon n) with handles := (s.talon n).handles ++ [d.handle] } := by
        rw [State.talonPut, htalon]
        exact if_pos ⟨hroom, hwait⟩
      refine ⟨_, execCollectiveComplete_put hover hp hn, hcut.colls.trans ?_, ?_, hcut.mem.trans ?_⟩
      · rw [hput, State.prov_setTalon, hcolls]
      · rw [State.talon_congr hcut.talons, hput, State.talon_setTalon_self]
      · rw [hput, State.setTalon_mem, hmem]

/-! ### Exclusion and patches -/

section
variable {s u : State} {p ord child rank x step i : Nat} {segs out : List Nat} {c : Coll} {d : CollDesc} {adopted : List Kid}

theorem execChildExcluded_excludes (hc : (s.prov p).colls.find? (fun y => y.started && ((s.img p).coll y.idx).ord == ord) = some c) (hd : d = (s.img p).coll c.idx)
    (hmc : d.mc = true) (hsums : d.sums = false) (hx : x = s.gidx p d child) (hself : x ≠ s.gr p d) (hexcl : s.fld 0 RDE_MC_CTRL_EXCL ≠ 0)
    (hkid : c.kids.any (fun k => k.rank == x && !k.excluded && decide (s.fld 0 RDE_MC_CTRL_EXCL ≤ k.atLimit)) = true) :
    exec (.childExcluded p ord child) s = .next (s.excludeKid p c d x) := by
  have hno : ¬ (s.fld 0 RDE_MC_CTRL_EXCL = 0 ∨ (!c.kids.any (fun k => k.rank == x && !k.excluded && decide (s.fld 0 RDE_MC_CTRL_EXCL ≤ k.atLimit))) = true) := by
    rw [hkid]
    exact fun h => h.elim hexcl (by decide)
  show execChildExcluded p ord child s = _
  rw [execChildExcluded]
  dsimp only
  rw [hc]
  dsimp only
  rw [← hd, ← hx, if_neg (by simp [hmc, hsums]), if_neg hself, if_neg hno]

theorem execChildExcluded_stops (hc : (s.prov p).colls.find? (fun y => y.started && ((s.img p).coll y.idx).ord == ord) = some c) (hd : d = (s.img p).coll c.idx)
    (hmc : d.mc = true) (hsums : d.sums = false) (hself : s.gidx p d child = s.gr p d) :
    exec (.childExcluded p ord child) s = .next (if s.fld 0 RDE_MC_CTRL_PATCH_EN = 0 ∧ c.need ≠ 0 then
      s.stopColl p c.order { cause := MC_EXCLUDED, die := 12, prov := p, aux := ord } else s) := by
  subst hd
  show execChildExcluded p ord child s = _
  rw [execChildExcluded]
  dsimp only
  rw [hc]
  dsimp only
  rw [if_neg (by simp [hmc, hsums]), if_pos hself]
  split
  · rfl
  · rfl

/-- A segment that is sent, or held, changes no patch and no byte, and holds nothing up. -/
theorem State.rdeSend_keeps (s : State) (p dest : Nat) (m : SegMsg) :
    ((s.rdeSend p dest m).prov p).patches = (s.prov p).patches ∧ (s.rdeSend p dest m).sendStopped p = s.sendStopped p ∧ (s.rdeSend p dest m).mem = s.mem := by
  rw [State.rdeSend]
  split
  · refine ⟨by rw [State.prov_setProv_self], ?_, State.setProv_mem ..⟩
    rw [State.sendStopped, State.sendStopped, State.prov_setProv_self, State.fld_setProv]
  · refine ⟨by rw [State.prov_congr (State.emit_provs ..)], ?_, State.emit_mem ..⟩
    rw [State.sendStopped, State.sendStopped, State.prov_congr (State.emit_provs ..), State.fld_congr (State.emit_regs ..)]

theorem State.foldl_rdeSend_keeps {α : Type} (p : Nat) (f : State → α → Nat × SegMsg) (l : List α) (s : State) :
    ((l.foldl (fun s x => s.rdeSend p (f s x).1 (f s x).2) s).prov p).patches = (s.prov p).patches ∧
      (l.foldl (fun s x => s.rdeSend p (f s x).1 (f s x).2) s).sendStopped p = s.sendStopped p ∧
      (l.foldl (fun s x => s.rdeSend p (f s x).1 (f s x).2) s).mem = s.mem := by
  induction l generalizing s with
  | nil => exact ⟨rfl, rfl, rfl⟩
  | cons a l ih =>
    obtain ⟨hpatches, hstopped, hmem⟩ := ih (s.rdeSend p (f s a).1 (f s a).2)
    obtain ⟨hpatches', hstopped', hmem'⟩ := s.rdeSend_keeps p (f s a).1 (f s a).2
    exact ⟨hpatches.trans hpatches', hstopped.trans hstopped', hmem.trans hmem'⟩

/-- A patch's segments are open, and memory stays. -/
theorem State.sendPatch_spec (s : State) (p ord rank step : Nat) (d : CollDesc) (segs : List Nat) :
    ((s.sendPatch p ord rank step d segs).prov p).patches = (s.prov p).patches ++ [⟨ord, step, rank, (s.patchSegs p d segs).map Prod.fst, s.sendStopped p⟩] ∧
      (s.sendPatch p ord rank step d segs).mem = s.mem := by
  obtain ⟨hpatches, hstopped, hmem⟩ := State.foldl_rdeSend_keeps p (fun (s : State) (x : Nat × Shard × Nat) =>
    (rank, s.segMsg p 0 ord x.1 (s.payNf p d (canonCopy (s.sideFmt p d.fmt) (s.vbytes p (s.segSrc p d x.2.1 x.2.2).1 (s.segSrc p d x.2.1 x.2.2).2)))
      (s.lastSeg p d x.2.1.no x.1) true (canonCopy (s.sideFmt p d.fmt) (s.vbytes p (s.segSrc p d x.2.1 x.2.2).1 (s.segSrc p d x.2.1 x.2.2).2)))) (s.patchSegs p d segs) s
  rw [State.sendPatch]
  dsimp only
  refine ⟨?_, (State.setProv_mem ..).trans hmem⟩
  rw [State.prov_setProv_self, hpatches, hstopped]

theorem execPatch_sends (hc : s.patchColl p ord = some (i, step)) (hd : d = (s.img p).coll i) (hen : s.fld 0 RDE_MC_CTRL_PATCH_EN ≠ 0) (hmc : d.mc = true)
    (hcopies : d.copies = true) (hsums : d.sums = false) (hsegs : s.patchSegs p d segs ≠ [])
    (hclean : ∀ y ∈ s.patchSegs p d segs, s.vpoison p (s.segSrc p d y.2.1 y.2.2).1 (s.segSrc p d y.2.1 y.2.2).2 = false) :
    exec (.patch p ord rank segs) s = .next (s.sendPatch p ord rank step d segs) := by
  subst hd
  show execPatch p ord rank segs s = _
  have hany : (s.patchSegs p ((s.img p).coll i) segs).any (fun y => s.vpoison p (s.segSrc p ((s.img p).coll i) y.2.1 y.2.2).1 (s.segSrc p ((s.img p).coll i) y.2.1 y.2.2).2) = false :=
    List.any_eq_false.mpr fun y hy => by rw [hclean y hy]; exact Bool.false_ne_true
  rw [execPatch, hc]
  dsimp only
  rw [if_neg (by simp [hen, hmc, hcopies, hsums, hsegs]), hany]
  exact if_neg Bool.false_ne_true

end

/-- Settles O37: a child at the limit is excluded and its own children adopted, a rank that is excluded stops or goes on, and a patch leaves its segments open. That an
exclusion holds on every tree, with the adoption below a child excluded before, is DEDUCED (log 70), and so is the AUX of its record (log 140). -/
theorem exclusionAndPatch : Obligations.ExclusionAndPatch := by
  unfold Obligations.ExclusionAndPatch
  intro s u p ord child rank x step i segs out c d adopted
  refine ⟨fun hc hd hmc hsums hx => ⟨?_, fun hself hen hneed => ?_, fun hself hen => ?_⟩, fun hc hd hen hmc hcopies hsums hsegs hclean => ?_⟩
  · rintro hself hexcl hkid rfl rfl rfl
    exact execChildExcluded_excludes hc hd hmc hsums hx hself hexcl hkid
  · rw [execChildExcluded_stops hc hd hmc hsums (hx.symm.trans hself), if_pos ⟨hen, hneed⟩]
  · rw [execChildExcluded_stops hc hd hmc hsums (hx.symm.trans hself), if_neg (fun h => hen h.1)]
  · obtain ⟨hpatches, hmem⟩ := s.sendPatch_spec p ord rank step d segs
    exact ⟨_, execPatch_sends hc hd hen hmc hcopies hsums hsegs hclean, rfl, hpatches, hmem⟩

end Sys2Proof.Machine
end

section
/-! The counters of a port, and received frames (O38) (R442–R448, R468). -/
namespace Sys2Proof.Machine

/-! ### Counting and the network -/

/-- A message that joins no link's stream leaves the network. -/
theorem State.emit_net (s : State) {e : Emit} (he : e.post = none) : (s.emit e).net = s.net := by
  rw [State.emit, he]

@[simp] theorem State.srvAdd_net (s : State) (u : Nat) (c h : Fld) (i n : Nat) : (s.srvAdd u c h i n).net = s.net := by
  rw [State.srvAdd]
  split
  · rw [State.emit_net _ rfl, State.orFld_net, State.setFld_net]
  · rw [State.setFld_net]

@[simp] theorem State.count_net (s : State) (e : SrvEv) : (s.count e).net = s.net := by
  unfold State.count
  refine foldl_keeps (P := fun x : State => x.net = s.net) _ _ _ (by split <;> simp) (fun x i h => ?_)
  split <;> simp [h]

@[simp] theorem State.port_count (s : State) (e : SrvEv) (n : Nat) : (s.count e).port n = s.port n := by
  rw [State.port, State.port, State.count_net]

/-! ### The counters of a port -/

/-- A register that no count of a port changes. -/
abbrev Reg.NoStat (r : Reg) : Prop := r.off < 2 ^ 16 ∧ (r.block.code ≠ Block.ethPort.code ∨ r.off < 0x100 ∧ r.off ≠ 0x40)

section
variable {s t u : State} {n i j k w : Nat} {f : EthFrame}

/-- `t` differs from `s` by counts of ports and by messages alone. -/
structure State.Counted (s t : State) : Prop where
  net : t.net = s.net
  mem : t.mem = s.mem
  provs : t.provs = s.provs
  mer : t.mer = s.mer
  errs : t.errs = s.errs
  stw : t.stw = s.stw
  reg : ∀ {w : Nat} {q : Reg}, w < 2 ^ 24 → q.NoStat → t.reg w q = s.reg w q

theorem State.Counted.refl (s : State) : s.Counted s := ⟨rfl, rfl, rfl, rfl, rfl, rfl, fun _ _ => rfl⟩

theorem State.Counted.trans (h : s.Counted t) (h' : t.Counted u) : s.Counted u :=
  ⟨h'.net.trans h.net, h'.mem.trans h.mem, h'.provs.trans h.provs, h'.mer.trans h.mer, h'.errs.trans h.errs, h'.stw.trans h.stw,
    fun hw hq => (h'.reg hw hq).trans (h.reg hw hq)⟩

theorem State.Counted.fld (h : s.Counted t) {g : Fld} (hw : w < 2 ^ 24) (hg : g.reg.NoStat) : t.fld w g = s.fld w g := by
  rw [State.fld, State.fld, h.reg hw hg]

theorem State.Counted.port (h : s.Counted t) (m : Nat) : t.port m = s.port m := by
  rw [State.port, State.port, h.net]

/-- A message that joins no link's stream. -/
theorem State.Counted.emit (s : State) {e : Emit} (he : e.post = none) : s.Counted (s.emit e) :=
  ⟨State.emit_net s he, State.emit_mem .., State.emit_provs .., State.emit_mer .., State.emit_errs .., State.emit_stw .., fun _ _ => State.reg_congr (State.emit_regs ..) _ _⟩

/-- A counter, or the half-range bits, of a port are set. -/
theorem State.Counted.setFld (s : State) (f : Fld) (v : Nat) (hn : n < 2 ^ 24) (hb : f.reg.block = .ethPort) (ho : f.reg.off < 2 ^ 16) (hf : f.reg.off = 0x40 ∨ 0x100 ≤ f.reg.off) :
    s.Counted (s.setFld n f v) :=
  ⟨State.setFld_net .., State.setFld_mem .., State.setFld_provs .., State.setFld_mer .., State.setFld_errs .., State.setFld_stw .., fun {w q} hw hq => by
    obtain ⟨hoff, hq⟩ := hq
    refine State.reg_setFld_other s v (key_ne hw hn hoff ho ?_)
    rw [hb]
    omega⟩

/-- The value of a counter after a count (R468). -/
def State.countVal (s : State) (n i k : Nat) : Nat := (s.fld n (ETH_STAT_COUNT i) + k) % 2 ^ (if i = 1 ∨ i = 2 ∨ i = 37 then 56 else 48)

/-- A count sets the counter, and at half of its range the bit that says so. -/
theorem State.ethStat_eq (s : State) (n i k : Nat) : s.ethStat n i k = ((s.setFld n (ETH_STAT_COUNT i) (s.countVal n i k)).orFld n ETH_STAT_HALF_HALF (2 ^ i)).emit
      (.stewardIrq (srvPort n)) ∨ s.ethStat n i k = s.setFld n (ETH_STAT_COUNT i) (s.countVal n i k) := by
  rw [State.ethStat]
  exact ite_eq_or_eq _ _ _

theorem State.Counted.ethStat (s : State) (hn : n < 64) (hi : i < 64) (k : Nat) : s.Counted (s.ethStat n i k) := by
  have hcount : ∀ v, s.Counted (s.setFld n (ETH_STAT_COUNT i) v) := fun v =>
    .setFld s _ v (by omega) rfl (show 0x100 + 8 * i < 2 ^ 16 by omega) (.inr (show 0x100 ≤ 0x100 + 8 * i by omega))
  obtain h | h := s.ethStat_eq n i k <;> rw [h]
  · exact ((hcount _).trans (.setFld (n := n) _ ETH_STAT_HALF_HALF _ (by omega) rfl (by decide) (.inl rfl))).trans (.emit _ rfl)
  · exact hcount _

theorem State.Counted.foldl {α : Type} {g : State → α → State} {l : List α} (hg : ∀ s : State, ∀ a ∈ l, s.Counted (g s a)) (s : State) : s.Counted (l.foldl g s) := by
  induction l generalizing s with
  | nil => exact .refl s
  | cons a l ih => exact (hg s a List.mem_cons_self).trans (ih (fun s b hb => hg s b (List.mem_cons_of_mem _ hb)) _)

theorem State.ethStat_net (s : State) (n i k : Nat) : (s.ethStat n i k).net = s.net := by
  obtain h | h := s.ethStat_eq n i k <;> rw [h]
  · rw [State.emit_net _ rfl, State.orFld_net, State.setFld_net]
  · rw [State.setFld_net]

/-- A counter counts modulo its width (R468). -/
theorem State.count_ethStat_self (s : State) (n i k : Nat) :
    (s.ethStat n i k).fld n (ETH_STAT_COUNT i) = s.countVal n i k := by
  have hself : ∀ v, (s.setFld n (ETH_STAT_COUNT i) v).fld n (ETH_STAT_COUNT i) = v % 2 ^ 56 := fun v => State.fld_setFld_self s n (ETH_STAT_COUNT i) v (by decide : 0 + 56 ≤ 64)
  have hmod : s.countVal n i k % 2 ^ 56 = s.countVal n i k := by
    unfold State.countVal
    split <;> omega
  have hhalf : ∀ (s : State) (v : Nat), (s.setFld n ETH_STAT_HALF_HALF v).fld n (ETH_STAT_COUNT i) = s.fld n (ETH_STAT_COUNT i) := fun s v =>
    State.fld_setFld_other s v (by simp only [Reg.key, ETH_STAT_COUNT, ETH_STAT, ETH_STAT_HALF_HALF, ETH_STAT_HALF]; omega)
  obtain h | h := s.ethStat_eq n i k <;> rw [h]
  · rw [State.fld_congr (State.emit_regs ..), State.orFld, hhalf, hself, hmod]
  · rw [hself, hmod]

/-- A count leaves the other counters of its port. -/
theorem State.count_ethStat_ne (s : State) (n k : Nat) (hij : j ≠ i) : (s.ethStat n i k).fld n (ETH_STAT_COUNT j) = s.fld n (ETH_STAT_COUNT j) := by
  have hcount : ∀ v, (s.setFld n (ETH_STAT_COUNT i) v).fld n (ETH_STAT_COUNT j) = s.fld n (ETH_STAT_COUNT j) := fun v =>
    State.fld_setFld_other s v (by simp only [Reg.key, ETH_STAT_COUNT, ETH_STAT]; omega)
  have hhalf : ∀ (s : State) (v : Nat), (s.setFld n ETH_STAT_HALF_HALF v).fld n (ETH_STAT_COUNT j) = s.fld n (ETH_STAT_COUNT j) := fun s v =>
    State.fld_setFld_other s v (by simp only [Reg.key, ETH_STAT_COUNT, ETH_STAT, ETH_STAT_HALF_HALF, ETH_STAT_HALF]; omega)
  obtain h | h := s.ethStat_eq n i k <;> rw [h]
  · rw [State.fld_congr (State.emit_regs ..), State.orFld, hhalf, hcount]
  · rw [hcount]

/-! ### Received frames -/

/-- The state in which a frame's octets and size class are counted. -/
def State.rxCounted (s : State) (n len : Nat) : State :=
  match sizeBucket len with
  | some i => (s.ethStat n 2 len).ethStat n (17 + i) 1
  | none => s.ethStat n 2 len

theorem sizeBucket_lt {len i : Nat} (h : sizeBucket len = some i) : i < 10 := by
  unfold sizeBucket at h
  split_ifs at h <;> simp_all <;> omega

theorem State.Counted.rxCounted (s : State) (hn : n < 64) (len : Nat) : s.Counted (s.rxCounted n len) := by
  rw [State.rxCounted]
  split
  · rename_i i hi
    have := sizeBucket_lt hi
    exact (State.Counted.ethStat s hn (by omega) _).trans (.ethStat _ hn (by omega) _)
  · exact .ethStat s hn (by omega) _

theorem State.Counted.rxGood (s : State) (hn : n < 64) (f : EthFrame) : s.Counted (s.rxGood n f) := by
  have hkind : dstKindOf f.dst < 3 := by
    unfold dstKindOf
    split_ifs <;> omega
  have hgood := ((State.Counted.ethStat s hn (by omega : 0 < 64) 1).trans (.ethStat _ hn (by omega : 1 < 64) f.len)).trans
    (.ethStat _ hn (by omega : 3 + dstKindOf f.dst < 64) 1)
  rw [State.rxGood]
  split
  · exact hgood
  · exact hgood.trans (.ethStat _ hn (by omega) 1)

/-! ### Pause frames sent -/

theorem State.Counted.sendPause (s : State) (hn : n < 64) (mask : Nat) (off : Bool) : s.Counted (s.sendPause n mask off) := by
  rw [State.sendPause]
  split
  · exact .refl s
  · refine State.Counted.trans ?_ (.emit _ rfl)
    refine State.Counted.trans ?_ (.emit _ rfl)
    refine State.Counted.trans ?_ (.ethStat _ hn (by omega) 1)
    refine State.Counted.trans ?_ (.ethStat _ hn (by omega) 1)
    refine State.Counted.trans ?_ (.ethStat _ hn (by omega) 64)
    refine State.Counted.trans ?_ (.ethStat _ hn (by omega) 1)
    exact .ethStat s hn (by split <;> omega) 1

/-- Holding the peer off changes XOFF alone among the registers that no count changes. -/
theorem State.xoffCheck_eq (s : State) (n : Nat) : s.xoffCheck n = s ∨ ∃ mask, s.xoffCheck n = (s.orFld n ETH_PFC_STATUS_XOFF mask).sendPause n mask true := by
  rw [State.xoffCheck]
  split
  · exact .inr ⟨_, rfl⟩
  · exact .inl rfl

theorem State.xoffCheck_net (s : State) (hn : n < 64) : (s.xoffCheck n).net = s.net := by
  obtain h | ⟨mask, h⟩ := s.xoffCheck_eq n
  · rw [h]
  · rw [h, (State.Counted.sendPause _ hn mask true).net, State.orFld_net]

theorem State.fld_xoffCheck (s : State) (hn : n < 64) {g : Fld} (hg : g.reg = ETH_PFC_STATUS) (hlo : 16 ≤ g.lo) : (s.xoffCheck n).fld n g = s.fld n g := by
  obtain h | ⟨mask, h⟩ := s.xoffCheck_eq n
  · rw [h]
  · rw [h, (State.Counted.sendPause _ hn mask true).fld (by omega) (by rw [hg]; decide), State.orFld]
    exact State.fld_setFld_bits s n (f := ETH_PFC_STATUS_XOFF) _ ⟨hg, by decide, .inl hlo⟩

/-! ### The checks of a received frame -/

/-- What the rule of a received frame reads after its counts are the values before them. -/
theorem State.Counted.dstOk (h : s.Counted t) (hn : n < 64) (dst : Nat) : t.dstOk n dst = s.dstOk n dst := by
  have hn : n < 2 ^ 24 := by omega
  rw [State.dstOk, State.dstOk, h.fld hn (g := ETH_PORT_MAC_MAC) (by decide), h.fld hn (g := ETH_PORT_CTRL_MACSEC_EN) (by decide),
    h.fld hn (g := ETH_PORT_CTRL_PTP_EN) (by decide), h.net]

/-- A frame that an up port receives with no PCS error. -/
structure State.Receives (s : State) (n : Nat) (f : EthFrame) : Prop where
  lt : n < 64
  up : s.portUp n = true
  pcs : f.pcs = false

theorem exec_received_badFcs (h : s.Receives n f) (hf : f.fcsOk = false) (hlo : 64 ≤ f.len) (hhi : f.len ≤ s.fld n ETH_PORT_CTRL_MAXFRAME) :
    exec (.ethernetFrameReceived n f) s = .next ((s.rxCounted n f.len).ethStat n 27 1) := by
  obtain ⟨hlt, hup, hpcs⟩ := h
  show execEthernetFrameReceived n f s = _
  rw [execEthernetFrameReceived, onPort, if_pos hlt]
  dsimp only
  rw [if_neg (by rw [hup]; decide), if_neg (by rw [hpcs]; decide), if_pos (by rw [hf]; rfl), if_neg (by omega), if_neg (by omega)]
  rfl

theorem exec_received_runt (h : s.Receives n f) (hf : f.fcsOk = true) (hlo : f.len < 64) :
    exec (.ethernetFrameReceived n f) s = .next ((s.rxCounted n f.len).ethStat n 28 1) := by
  obtain ⟨hlt, hup, hpcs⟩ := h
  show execEthernetFrameReceived n f s = _
  rw [execEthernetFrameReceived, onPort, if_pos hlt]
  dsimp only
  rw [if_neg (by rw [hup]; decide), if_neg (by rw [hpcs]; decide), if_neg (by rw [hf]; decide), if_pos hlo]
  rfl

/-- A frame of a valid length with a good FCS. -/
structure State.ReceivesWhole (s : State) (n : Nat) (f : EthFrame) : Prop extends s.Receives n f where
  fcs : f.fcsOk = true
  lo : 64 ≤ f.len
  hi : f.len ≤ s.fld n ETH_PORT_CTRL_MAXFRAME

theorem exec_received_pause (h : s.ReceivesWhole n f) (hd : f.dst = 0x0180C2000001) (he : f.etype = 0x8808) :
    exec (.ethernetFrameReceived n f) s = .next ((s.rxCounted n f.len).pauseIn n f) := by
  obtain ⟨⟨hlt, hup, hpcs⟩, hf, hlo, hhi⟩ := h
  show execEthernetFrameReceived n f s = _
  rw [execEthernetFrameReceived, onPort, if_pos hlt]
  dsimp only
  rw [if_neg (by rw [hup]; decide), if_neg (by rw [hpcs]; decide), if_neg (by rw [hf]; decide), if_neg (by omega), if_neg (by omega),
    if_pos (by rw [hd, he]; rfl)]
  rfl

theorem exec_received_dstFilter (h : s.ReceivesWhole n f) (he : f.etype ≠ 0x8808) (hd : (s.rxCounted n f.len).dstOk n f.dst = false) :
    exec (.ethernetFrameReceived n f) s = .next ((s.rxCounted n f.len).rxFilter n f) := by
  obtain ⟨⟨hlt, hup, hpcs⟩, hf, hlo, hhi⟩ := h
  show execEthernetFrameReceived n f s = _
  rw [execEthernetFrameReceived, onPort, if_pos hlt]
  dsimp only
  rw [if_neg (by rw [hup]; decide), if_neg (by rw [hpcs]; decide), if_neg (by rw [hf]; decide), if_neg (by omega), if_neg (by omega),
    if_neg (by simp [he])]
  refine if_pos ?_
  show (!(s.rxCounted n f.len).dstOk n f.dst) = true
  rw [hd]
  rfl

/-- An Ndeyx frame that passes the filters, with MACsec off or the frame's number in the window. -/
structure State.ReceivesNdeyx (s : State) (n : Nat) (f : EthFrame) : Prop extends s.ReceivesWhole n f where
  data : f.etype ≠ 0x8808
  dst : (s.rxCounted n f.len).dstOk n f.dst = true
  tags : f.tags.length ≤ 1
  vids : ∀ x ∈ f.tags, x % 4096 = 0 ∨ x % 4096 = s.fld n ETH_PORT_CTRL_VID
  msec : s.fld n ETH_PORT_CTRL_MACSEC_EN ≠ 1 ∨ (s.fld 0 (NDX_MSEC_CTRL_SECURE n) = 1 ∧ f.macsec = true ∧ (s.port n).mrx ≤ f.mpn + s.fld 0 (NDX_MSEC_CTRL_REPLAY_WIN n))
  type : f.etype = s.fld 0 NDX_CTRL_ETHERTYPE ∨ f.udp = some (s.fld 0 NDX_CTRL_UDP_PORT)
  taken : f.refused = false

theorem exec_received_ndeyx (h : s.ReceivesNdeyx n f) :
    exec (.ethernetFrameReceived n f) s = .next (((s.rxCounted n f.len).noteMsec n f).rxNdeyx n f) := by
  obtain ⟨⟨⟨hlt, hup, hpcs⟩, hf, hlo, hhi⟩, he, hd, htags, hvids, hmsec, htype, htaken⟩ := h
  have hcounted := State.Counted.rxCounted s hlt f.len
  have hmsecOff : (NDX_MSEC_CTRL_REPLAY_WIN n).reg.NoStat := by
    simp only [NDX_MSEC_CTRL_REPLAY_WIN, NDX_MSEC_CTRL, Reg.NoStat, Block.code]
    omega
  rw [← hcounted.fld (g := ETH_PORT_CTRL_VID) (by omega) (by decide)] at hvids
  rw [← hcounted.fld (g := NDX_MSEC_CTRL_REPLAY_WIN n) (by omega) hmsecOff] at hmsec
  rw [← hcounted.fld (g := NDX_CTRL_ETHERTYPE) (by omega) (by decide), ← hcounted.fld (g := NDX_CTRL_UDP_PORT) (by omega) (by decide)] at htype
  have hdst : ¬ (!(s.rxCounted n f.len).dstOk n f.dst) = true := by
    rw [hd]
    decide
  have htagsOk : ¬ (2 ≤ f.tags.length ∨ f.tags.any (fun t => t % 4096 != 0 && t % 4096 != (s.rxCounted n f.len).fld n ETH_PORT_CTRL_VID) = true) := by
    rintro (h2 | hany)
    · omega
    · obtain ⟨x, hx, hbad⟩ := List.any_eq_true.mp hany
      obtain h0 | hv := hvids x hx
      · simp [h0] at hbad
      · simp [hv] at hbad
  have hsecure : ¬ ((s.fld n ETH_PORT_CTRL_MACSEC_EN == 1) = true ∧ f.etype ≠ 0x888E ∧
      ((!(s.fld 0 (NDX_MSEC_CTRL_SECURE n) == 1)) = true ∨ ((!f.macsec) = true ∧ f.etype ≠ 0x88E5))) := by
    rintro ⟨hen, -, hbad⟩
    obtain hoff | ⟨hsec, hm, -⟩ := hmsec
    · exact hoff (by simpa using hen)
    · simp [hsec, hm] at hbad
  have hwindow : ¬ ((s.fld n ETH_PORT_CTRL_MACSEC_EN == 1) = true ∧ f.macsec = true ∧ f.mpn + (s.rxCounted n f.len).fld 0 (NDX_MSEC_CTRL_REPLAY_WIN n) < (s.port n).mrx) := by
    rintro ⟨hen, -, hbad⟩
    obtain hoff | ⟨-, -, hwin⟩ := hmsec
    · exact hoff (by simpa using hen)
    · omega
  show execEthernetFrameReceived n f s = _
  rw [execEthernetFrameReceived, onPort, if_pos hlt]
  dsimp only
  rw [if_neg (by rw [hup]; decide), if_neg (by rw [hpcs]; decide), if_neg (by rw [hf]; decide), if_neg (by omega), if_neg (by omega),
    if_neg (by simp [he])]
  refine (if_neg hdst).trans ((if_neg htagsOk).trans ((if_neg hsecure).trans ((if_neg hwindow).trans ((if_pos htype).trans ?_))))
  rw [htaken]
  rfl

theorem State.noteMsec_keeps (s : State) (n : Nat) (f : EthFrame) : ((s.noteMsec n f).port n).rxbuf = (s.port n).rxbuf ∧ (s.noteMsec n f).mem = s.mem := by
  rw [State.noteMsec]
  split
  · exact ⟨by rw [State.port_setPort_self], rfl⟩
  · exact ⟨rfl, rfl⟩

/-- A frame with room takes its place in the receive buffer. -/
theorem State.rxNdeyx_room (hn : n < 64) (hroom : s.rxUsed n f.prov + f.len ≤ s.rxPart n f.prov) :
    ((s.rxNdeyx n f).port n).rxbuf = (s.port n).rxbuf ++ [(f.prov, f.len)] := by
  rw [State.rxNdeyx, if_neg (by omega), State.port, State.xoffCheck_net _ hn, ← State.port, State.port_setPort_self, (State.Counted.rxGood s hn f).port]

theorem State.rxNdeyx_full (hfull : s.rxPart n f.prov < s.rxUsed n f.prov + f.len) : s.rxNdeyx n f = s.ethStat n 34 1 := by
  rw [State.rxNdeyx, if_pos hfull]

end

/-- Settles O38: the branches of the rule in their order; what a branch reads after the counts is what stood before them. -/
theorem receivedFramesAreClassified : Obligations.ReceivedFramesAreClassified := by
  unfold Obligations.ReceivedFramesAreClassified
  intro s u v port f hn hup hpcs hu hv
  have hu : u = s.rxCounted port f.len := hu
  have hrx : s.Receives port f := ⟨hn, hup, hpcs⟩
  have hcounted := State.Counted.rxCounted s hn f.len
  have hstat : ∀ i < 64, (u.ethStat port i 1).mem = s.mem ∧ ((u.ethStat port i 1).port port).rxbuf = (s.port port).rxbuf := by
    intro i hi
    have h := hcounted.trans (.ethStat _ hn hi 1)
    rw [hu]
    exact ⟨h.mem, by rw [h.port]⟩
  refine ⟨fun hf hlo hhi => ⟨?_, hstat 27 (by omega)⟩, fun hf hlo => ⟨?_, hstat 28 (by omega)⟩, fun hf hlo hhi => ?_⟩
  · rw [hu]
    exact exec_received_badFcs hrx hf hlo hhi
  · rw [hu]
    exact exec_received_runt hrx hf hlo
  · have hwhole : s.ReceivesWhole port f := ⟨hrx, hf, hlo, hhi⟩
    subst hu hv
    refine ⟨exec_received_pause hwhole, exec_received_dstFilter hwhole, fun he hd htags hvids hmsec htype htaken => ?_⟩
    have hexec := exec_received_ndeyx (s := s) ⟨hwhole, he, hd, htags, hvids, hmsec, htype, htaken⟩
    obtain ⟨hbuf, hmem⟩ := (s.rxCounted port f.len).noteMsec_keeps port f
    refine ⟨fun hroom => ⟨_, hexec, rfl, ?_, ?_⟩, fun hfull => ?_⟩
    · rw [State.rxNdeyx_room hn hroom, hbuf, hcounted.port]
    · rw [State.rxNdeyx_mem, hmem, hcounted.mem]
    · rw [hexec, State.rxNdeyx_full hfull]

end Sys2Proof.Machine
end

section
/-! Pause and priority flow control (O39) (R450–R454). -/
namespace Sys2Proof.Machine

section
variable {s t : State} {n pri : Nat}

/-! ### Masks of priorities -/

theorem without_le (a b : Nat) : without a b ≤ a := Nat.and_le_left

/-- The mask of one priority takes its bit. -/
theorem bitAt_without_self (a : Nat) (h : pri < 8) : bitAt (without a (2 ^ pri)) pri = false := by
  have hmask : (255 ^^^ (2 ^ pri % 256)).testBit pri = false := by interval_cases pri <;> decide
  rw [bitAt_eq_testBit, without, Nat.testBit_and, hmask, Bool.and_false]

/-- A status of a port's priorities is set to what was left of it. -/
theorem State.fld_setFld_without (s : State) (n : Nat) {f : Fld} (hf : f.lo + f.width ≤ 64) (b : Nat) :
    (s.setFld n f (without (s.fld n f) b)).fld n f = without (s.fld n f) b := by
  rw [State.fld_setFld_self _ _ _ _ hf, Nat.mod_eq_of_lt (lt_of_le_of_lt (without_le ..) (s.fld_lt n f))]

/-! ### Priorities held and let go -/

/-- The state in which priorities are let go, before the time they were held is counted. -/
theorem State.Counted.freePris (s : State) (hn : n < 64) (mask : Nat) :
    (s.setFld n ETH_PFC_STATUS_TX_HELD (without (s.fld n ETH_PFC_STATUS_TX_HELD) mask)).Counted (s.freePris n mask) := by
  rw [State.freePris]
  split
  · exact .ethStat _ hn (by omega) _
  · exact .refl _

theorem State.fld_freePris_held (s : State) (hn : n < 64) (mask : Nat) :
    (s.freePris n mask).fld n ETH_PFC_STATUS_TX_HELD = without (s.fld n ETH_PFC_STATUS_TX_HELD) mask := by
  rw [(State.Counted.freePris s hn mask).fld (by omega) (by decide), s.fld_setFld_without n (by decide)]

theorem exec_pauseHoldExpire (s : State) (hn : n < 64) (hp : pri < 8) : exec (.pauseHoldExpire n pri) s = .next (s.freePris n (2 ^ pri)) := by
  show execPauseHoldExpire n pri s = _
  rw [execPauseHoldExpire, onPort, if_pos hn, Nat.mod_eq_of_lt hp]

/-! ### Frames sent to the peer -/

/-- The frame that holds a peer's priorities off, or lets them go, is the last message. -/
theorem State.sendPause_head (s : State) (hn : n < 64) {mask m : Nat} (hm : mask &&& s.pausePris n = m) (hm0 : m ≠ 0) (off : Bool) :
    (s.sendPause n mask off).sent.head? = some (.pause n (s.fld n ETH_PORT_CTRL_PAUSE_MODE == 2) m (if off then s.fld n ETH_PFC_CTRL_PAUSE_TIME else 0)) := by
  have htime : ∀ i < 64, (s.ethStat n i 1).fld n ETH_PFC_CTRL_PAUSE_TIME = s.fld n ETH_PFC_CTRL_PAUSE_TIME := fun i hi =>
    (State.Counted.ethStat s hn hi 1).fld (by omega) (by decide)
  rw [State.sendPause, hm, if_neg hm0]
  dsimp only
  rw [State.emit_sent, htime _ (by split <;> omega)]
  rfl

theorem exec_xoffRepeat (hn : n < 64) (hp : pri < 8) (hx : bitAt (s.fld n ETH_PFC_STATUS_XOFF) pri = true) (hs : s.fld n ETH_PORT_STATUS_SINGLE = 1) :
    exec (.xoffRepeat n pri) s = .next (s.sendPause n (s.priMask n pri) true) := by
  show execXoffRepeat n pri s = _
  rw [execXoffRepeat, onPort, if_pos hn, Nat.mod_eq_of_lt hp, hx, hs]
  rfl

theorem exec_xoffRepeat_notSingle (hn : n < 64) (hs : s.fld n ETH_PORT_STATUS_SINGLE ≠ 1) : exec (.xoffRepeat n pri) s = .next s := by
  show execXoffRepeat n pri s = _
  rw [execXoffRepeat, onPort, if_pos hn, if_neg (by simp [hs])]

theorem exec_xonSend (hn : n < 64) (hp : pri < 8) (hx : bitAt (s.fld n ETH_PFC_STATUS_XOFF) pri = true)
    (hroom : s.rxUsed n (s.fld n ETH_PORT_STATUS_OWNER) ≤ s.fld n ETH_PFC_CTRL_XON_KIB * 1024 * s.portLanes n) :
    exec (.xonSend n pri) s = .next ((s.setFld n ETH_PFC_STATUS_XOFF (without (s.fld n ETH_PFC_STATUS_XOFF) (s.priMask n pri))).sendPause n (s.priMask n pri) false) := by
  show execXonSend n pri s = _
  rw [execXonSend, onPort, if_pos hn, Nat.mod_eq_of_lt hp]
  exact if_pos ⟨hx, hroom⟩

/-- The modes of pause are no part of the status. -/
theorem State.pausePris_setXoff (s : State) (n v : Nat) : (s.setFld n ETH_PFC_STATUS_XOFF v).pausePris n = s.pausePris n := by
  rw [State.pausePris, State.pausePris, State.fld_setFld_off (f := ETH_PFC_STATUS_XOFF) (g := ETH_PORT_CTRL_PAUSE_MODE) s v (by decide),
    State.fld_setFld_off (f := ETH_PFC_STATUS_XOFF) (g := ETH_PFC_CTRL_PRI_EN) s v (by decide)]

/-! ### The watchdogs -/

theorem exec_pfcStorm (hn : n < 64) (hp : pri < 8) (hx : bitAt (s.fld n ETH_PFC_STATUS_TX_HELD) pri = true) :
    exec (.pfcStorm n pri) s = .next (((((s.freePris n (2 ^ pri)).orFld n ETH_PFC_STATUS_STORM (2 ^ pri)).recover n pri false).ethStat n 61 1).raise (portRec PFC_STORM_C n pri)) := by
  show execPfcStorm n pri s = _
  rw [execPfcStorm, onPort, if_pos hn, Nat.mod_eq_of_lt hp]
  exact if_neg (by rw [hx]; decide)

theorem exec_pfcStuck (hn : n < 64) (hp : pri < 8) (hx : bitAt (s.fld n ETH_PFC_STATUS_XOFF) pri = true) :
    exec (.pfcStuck n pri) s = .next (((((s.setFld n ETH_PFC_STATUS_XOFF (without (s.fld n ETH_PFC_STATUS_XOFF) (2 ^ pri))).orFld n ETH_PFC_STATUS_STUCK (2 ^ pri)).recover n pri
      true).ethStat n 61 1).raise (portRec PFC_STUCK_C n pri)) := by
  show execPfcStuck n pri s = _
  rw [execPfcStuck, onPort, if_pos hn, Nat.mod_eq_of_lt hp]
  exact if_neg (by rw [hx]; decide)

/-- A watchdog's records and recovery leave the status of the priorities. -/
theorem State.fld_watchdog (s : State) (hn : n < 64) (stuck : Bool) (r : ErrRec) {g : Fld} (hg : g.reg = ETH_PFC_STATUS) :
    (((s.recover n pri stuck).ethStat n 61 1).raise r).fld n g = s.fld n g := by
  rw [State.fld_raise _ r (by omega) (by rw [hg]; decide), (State.Counted.ethStat _ hn (by omega) 1).fld (by omega) (by rw [hg]; decide)]
  exact State.fld_congr rfl n g

theorem exec_pfcRecoveryEnd {stuck : Bool} (hn : n < 64) (hp : pri < 8) (hr : (s.port n).recov.find? (fun x => x.1 == pri) = some (pri, stuck)) :
    exec (.pfcRecoveryEnd n pri) s = .next (if stuck then
      ((s.setPort n { (s.port n) with recov := (s.port n).recov.erase (pri, stuck) }).setFld n ETH_PFC_STATUS_STUCK (without (s.fld n ETH_PFC_STATUS_STUCK) (2 ^ pri))).xoffCheck n
      else (s.setPort n { (s.port n) with recov := (s.port n).recov.erase (pri, stuck) }).setFld n ETH_PFC_STATUS_STORM (without (s.fld n ETH_PFC_STATUS_STORM) (2 ^ pri))) := by
  show execPfcRecoveryEnd n pri s = _
  rw [execPfcRecoveryEnd, onPort, if_pos hn, Nat.mod_eq_of_lt hp]
  dsimp only
  rw [hr]
  dsimp only
  rw [State.fld_setPort, State.fld_setPort]
  exact (apply_ite Host.Outcome.next (stuck = true) _ _).symm

end

/-- Settles O39: each bit of the status moves as its event says, by the masks; the frames to the peer are the last messages. -/
theorem pauseAndPriorityFlowControl : Obligations.PauseAndPriorityFlowControl := by
  unfold Obligations.PauseAndPriorityFlowControl
  intro s n pri hn hp
  refine ⟨⟨_, exec_pauseHoldExpire s hn hp, s.fld_freePris_held hn _, ?_⟩, fun hx hs => ⟨exec_xoffRepeat hn hp hx hs, fun hm => s.sendPause_head hn rfl hm true⟩,
    fun hs => exec_xoffRepeat_notSingle hn hs, ?_, fun hx hroom => ⟨_, exec_xonSend hn hp hx hroom, ?_, fun hm => ?_⟩, fun hx => ⟨_, exec_pfcStorm hn hp hx, ?_, ?_⟩,
    fun hx => ⟨_, exec_pfcStuck hn hp hx, ?_, ?_⟩, fun stuck hr => ⟨_, exec_pfcRecoveryEnd hn hp hr, ?_, ?_, ?_⟩⟩
  · rw [(State.Counted.freePris s hn _).mem, State.setFld_mem]
  · rw [State.priMask, Nat.mod_eq_of_lt hp]
  · rw [(State.Counted.sendPause _ hn _ false).fld (by omega) (by decide), s.fld_setFld_without n (by decide)]
  · rw [State.sendPause_head _ hn (congrArg _ (s.pausePris_setXoff n _)) hm false,
      State.fld_setFld_off (f := ETH_PFC_STATUS_XOFF) (g := ETH_PORT_CTRL_PAUSE_MODE) s _ (by decide)]
    rfl
  · rw [State.fld_watchdog _ hn false _ rfl]
    exact State.bitAt_orFld _ n ETH_PFC_STATUS_STORM (by decide) hp
  · rw [State.fld_watchdog _ hn false _ rfl, State.orFld, State.fld_setFld_bits _ n (f := ETH_PFC_STATUS_STORM) (g := ETH_PFC_STATUS_TX_HELD) _ (by decide),
      s.fld_freePris_held hn, bitAt_without_self _ hp]
  · rw [State.fld_watchdog _ hn true _ rfl]
    exact State.bitAt_orFld _ n ETH_PFC_STATUS_STUCK (by decide) hp
  · rw [State.fld_watchdog _ hn true _ rfl, State.orFld, State.fld_setFld_bits _ n (f := ETH_PFC_STATUS_STUCK) (g := ETH_PFC_STATUS_XOFF) _ (by decide),
      s.fld_setFld_without n (by decide), bitAt_without_self _ hp]
  · cases stuck
    · rw [if_neg Bool.false_ne_true, State.port_setFld, State.port_setPort_self]
    · rw [if_pos rfl, State.port, State.xoffCheck_net _ hn, ← State.port, State.port_setFld, State.port_setPort_self]
  · cases stuck
    · rw [if_neg Bool.false_ne_true, ← State.fld_setPort s n { (s.port n) with recov := (s.port n).recov.erase (pri, false) } n ETH_PFC_STATUS_STORM,
        State.fld_setFld_without _ n (by decide), bitAt_without_self _ hp, Bool.and_false]
    · rw [if_pos rfl, State.fld_xoffCheck _ hn rfl (by decide), State.fld_setFld_bits _ n (f := ETH_PFC_STATUS_STUCK) (g := ETH_PFC_STATUS_STORM) _ (by decide),
        State.fld_setPort, Bool.and_true]
  · cases stuck
    · rw [if_neg Bool.false_ne_true, State.fld_setFld_bits _ n (f := ETH_PFC_STATUS_STORM) (g := ETH_PFC_STATUS_STUCK) _ (by decide), State.fld_setPort, Bool.not_false,
        Bool.and_true]
    · rw [if_pos rfl, State.fld_xoffCheck _ hn rfl (by decide), ← State.fld_setPort s n { (s.port n) with recov := (s.port n).recov.erase (pri, true) } n ETH_PFC_STATUS_STUCK,
        State.fld_setFld_without _ n (by decide), bitAt_without_self _ hp, Bool.not_true, Bool.and_false]

end Sys2Proof.Machine
end

section
/-! Frames that are sent (O40) (R446–R448, R475). -/
namespace Sys2Proof.Machine

section
variable {s u : State} {n slot len present pri kind : Nat} {what : TxWhat} {r : TxRun}

/-! ### The start of a frame -/

/-- What lets a frame start in a slot: the port, the frame and its bytes, and the slots of its owner (R446–R448). -/
structure State.MayStart (s : State) (n slot : Nat) (what : TxWhat) (len present pri : Nat) : Prop where
  lt : n < 64
  up : s.portUp n = true
  active : s.fld n ETH_PORT_STATUS_POWER = PW_ACTIVE
  idle : (s.port n).run = none
  notFatal : s.fld 0 TST_STATUS_FATAL = 0
  free : bitAt (s.fld n ETH_PFC_STATUS_TX_HELD) (s.framePri n what pri) = false
  secure : s.fld n ETH_PORT_CTRL_MACSEC_EN ≠ 1 ∨ s.fld 0 (NDX_MSEC_CTRL_SECURE n) ≠ 0 ∨ what = .eapol
  lo : 64 ≤ len
  hi : len ≤ s.fld n ETH_PORT_CTRL_MAXFRAME
  bytes : min len (s.fld n ETH_TX_START_THRESH_CUR) ≤ present
  owner : (s.portTable n).getD slot 0x0300 = s.frameOwner n what
  steward : s.stw.restarting = true → ofSteward what = false
  room : slotsFor len (s.portRate n) s.frameLen ≤ runFrom (s.portTable n) slot

/-- The state in which a frame has started, with the slots that it takes counted. -/
def State.started (s u : State) (n : Nat) (what : TxWhat) (len present kind : Nat) : State :=
  let t := (u.setPort n { (u.port n) with
    run := some ⟨what, len, decide (len ≤ present), kind % 3⟩
    mtx := (u.port n).mtx + b01 (s.fld n ETH_PORT_CTRL_MACSEC_EN == 1 && what != .eapol) }).count
      { unit := srvPort n, event := 0x60, n := slotsFor len (s.portRate n) s.frameLen, prov := s.frameOwner n what, priv := b01 (s.frameOwner n what == 0) }
  if s.frameOwner n what = 0 then t
  else t.count { unit := srvProv (s.frameOwner n what), event := 0xC0, n := slotsFor len (s.portRate n) s.frameLen, prov := s.frameOwner n what }

theorem State.started_spec (s u : State) (n : Nat) (what : TxWhat) (len present kind : Nat) :
    ((s.started u n what len present kind).port n).run = some ⟨what, len, decide (len ≤ present), kind % 3⟩ ∧
      (s.started u n what len present kind).net.links = u.net.links ∧ (s.started u n what len present kind).mem = u.mem := by
  rw [State.started]
  dsimp only
  split
  · exact ⟨by rw [State.port_count, State.port_setPort_self], by rw [State.count_net]; rfl, by rw [State.count_mem, State.setPort_mem]⟩
  · exact ⟨by rw [State.port_count, State.port_count, State.port_setPort_self], by rw [State.count_net, State.count_net]; rfl,
      by rw [State.count_mem, State.count_mem, State.setPort_mem]⟩

theorem exec_transmitStart (h : s.MayStart n slot what len present pri) (hu : s.linkSend n slot (s.framePri n what pri) what = some u) :
    exec (.transmitStart n slot what len present pri kind) s = .next (s.started u n what len present kind) := by
  obtain ⟨hn, hup, hactive, hidle, hfatal, hfree, hsecure, hlo, hhi, hbytes, howner, hsteward, hroom⟩ := h
  have hlocked : (s.fld n ETH_PORT_CTRL_MACSEC_EN == 1 && s.fld 0 (NDX_MSEC_CTRL_SECURE n) == 0 && what != .eapol) = false := by
    rcases hsecure with h | h | h <;> simp [h]
  have hstw : ¬ (s.stw.restarting = true ∧ ofSteward what = true) := fun ⟨hr, ho⟩ => absurd ((hsteward hr).symm.trans ho) (by decide)
  show execTransmitStart n slot what len present pri kind s = _
  rw [execTransmitStart, onPort, if_pos hn]
  dsimp only
  rw [if_neg (by
    rw [hup, hactive, hidle, hfatal, hfree, hlocked, howner]
    simp only [Bool.not_true, Bool.false_eq_true, ne_eq, not_true_eq_false, Option.isSome_none, false_or, hstw, Nat.zero_ne_one]
    omega), hu]
  rw [State.started]

theorem exec_transmitStart_otherSlot (hn : n < 64) (ho : (s.portTable n).getD slot 0x0300 ≠ s.frameOwner n what) :
    exec (.transmitStart n slot what len present pri kind) s = .next s := by
  show execTransmitStart n slot what len present pri kind s = _
  rw [execTransmitStart, onPort, if_pos hn]
  exact if_pos (by simp only [ne_eq, ho, not_false_eq_true, true_or, or_true])

theorem State.frameOwner_of_linkFrame {x : Link × Bool × NdxBody × Nat × Option Nat × Bool} (hx : s.linkFrame n what = some x) :
    s.frameOwner n what = if x.2.2.1.type = 4 then 0 else x.1.prov := by
  unfold State.frameOwner
  split
  · rename_i y hy
    rw [Option.some.inj (hx.symm.trans hy)]
  · rename_i hy
    exact absurd (hx.symm.trans hy) (by simp)

/-! ### The end of a frame -/

theorem exec_txUnderrun (hn : n < 64) (hr : (s.port n).run = some r) (hw : r.whole = false) :
    ∃ t, exec (.txUnderrun n) s = .next t ∧ (t.port n).run = none ∧ t.sent.head? = some (.badEnd n) ∧
      t.fld n ETH_TX_START_THRESH_CUR = min 9216 (s.fld n ETH_TX_START_THRESH_CUR + 256) ∧ t.fld n ETH_TX_START_THRESH_CLEAN = 0 := by
  have hexec : exec (.txUnderrun n) s = execTxUnderrun n s := rfl
  rw [hexec, execTxUnderrun, onPort, if_pos hn, hr]
  dsimp only
  rw [if_neg (by rw [hw]; decide)]
  generalize hv : ((s.setPort n { (s.port n) with run := none }).ethStat n 44 1).emit (.badEnd n) = v
  have hcounted : (s.setPort n { (s.port n) with run := none }).Counted v := hv ▸ (State.Counted.ethStat _ hn (by omega) 1).trans (.emit _ rfl)
  have hcur : v.fld n ETH_TX_START_THRESH_CUR = s.fld n ETH_TX_START_THRESH_CUR := (hcounted.fld (by omega) (by decide)).trans (State.fld_setPort ..)
  refine ⟨_, rfl, ?_, ?_, ?_, ?_⟩
  · rw [State.port_setFld, State.port_setFld, hcounted.port, State.port_setPort_self]
  · rw [State.setFld_sent, State.setFld_sent, ← hv, State.emit_sent]
    rfl
  · rw [State.fld_setFld_bits _ n (f := ETH_TX_START_THRESH_CLEAN) (g := ETH_TX_START_THRESH_CUR) _ (by decide), State.fld_setFld_self _ _ _ _ (by decide), hcur]
    exact Nat.mod_eq_of_lt (lt_of_le_of_lt (Nat.min_le_left ..) (by decide))
  · exact State.fld_setFld_self _ _ _ _ (by decide)

/-- A clean frame may lower the start threshold; it changes no counter. -/
theorem State.cleanFrame_keeps (s : State) (n j : Nat) : (s.cleanFrame n).fld n (ETH_STAT_COUNT j) = s.fld n (ETH_STAT_COUNT j) ∧ (s.cleanFrame n).net = s.net := by
  have hset : ∀ (s : State) (f : Fld) (v : Nat), f.reg = ETH_TX_START_THRESH → (s.setFld n f v).fld n (ETH_STAT_COUNT j) = s.fld n (ETH_STAT_COUNT j) := fun s f v hf =>
    State.fld_setFld_other s v (by rw [hf]; simp only [Reg.key, ETH_STAT_COUNT, ETH_STAT, ETH_TX_START_THRESH]; omega)
  rw [State.cleanFrame]
  dsimp only
  split
  · exact ⟨hset _ _ _ rfl, State.setFld_net ..⟩
  · exact ⟨(hset _ _ _ rfl).trans (hset _ _ _ rfl), (State.setFld_net ..).trans (State.setFld_net ..)⟩

/-- The counts of the end of a frame: it, its octets, and its kinds. -/
def State.endCounts (s : State) (n : Nat) (r : TxRun) : State :=
  let t := ((s.ethStat n 36 1).ethStat n 37 r.len).ethStat n (38 + r.dstKind) 1
  let t := if t.fld n ETH_PORT_CTRL_VID ≠ 0 ∨ t.fld n ETH_PORT_CTRL_PCP_TAG = 1 then t.ethStat n 41 1 else t
  match sizeBucket r.len with
  | some i => t.ethStat n (45 + i) 1
  | none => t

theorem State.endCounts_spec (s : State) (n : Nat) (r : TxRun) : (s.endCounts n r).net = s.net ∧
    (s.endCounts n r).fld n (ETH_STAT_COUNT 36) = (s.fld n (ETH_STAT_COUNT 36) + 1) % 2 ^ 48 ∧
      (s.endCounts n r).fld n (ETH_STAT_COUNT 37) = (s.fld n (ETH_STAT_COUNT 37) + r.len) % 2 ^ 56 := by
  generalize ht : (s.ethStat n 36 1).ethStat n 37 r.len = t
  have hnet : t.net = s.net := by rw [← ht, State.ethStat_net, State.ethStat_net]
  have h36 : t.fld n (ETH_STAT_COUNT 36) = (s.fld n (ETH_STAT_COUNT 36) + 1) % 2 ^ 48 := by
    rw [← ht, State.count_ethStat_ne _ _ _ (by decide), State.count_ethStat_self]
    rfl
  have h37 : t.fld n (ETH_STAT_COUNT 37) = (s.fld n (ETH_STAT_COUNT 37) + r.len) % 2 ^ 56 := by
    rw [← ht, State.count_ethStat_self, State.countVal, State.count_ethStat_ne _ _ _ (by decide)]
    rfl
  rw [State.endCounts, ht]
  have hkind : ∀ (x : State) (i : Nat), 38 ≤ i → (x.ethStat n i 1).net = x.net ∧ (x.ethStat n i 1).fld n (ETH_STAT_COUNT 36) = x.fld n (ETH_STAT_COUNT 36) ∧
      (x.ethStat n i 1).fld n (ETH_STAT_COUNT 37) = x.fld n (ETH_STAT_COUNT 37) := fun x i hi =>
    ⟨State.ethStat_net .., State.count_ethStat_ne _ _ _ (by omega), State.count_ethStat_ne _ _ _ (by omega)⟩
  obtain ⟨hn1, h361, h371⟩ := hkind t (38 + r.dstKind) (by omega)
  rw [← hn1] at hnet
  rw [← h361] at h36
  rw [← h371] at h37
  generalize t.ethStat n (38 + r.dstKind) 1 = u at hnet h36 h37
  obtain ⟨hn2, h362, h372⟩ := hkind u 41 (by omega)
  have htag : (if u.fld n ETH_PORT_CTRL_VID ≠ 0 ∨ u.fld n ETH_PORT_CTRL_PCP_TAG = 1 then u.ethStat n 41 1 else u).net = s.net ∧
      (if u.fld n ETH_PORT_CTRL_VID ≠ 0 ∨ u.fld n ETH_PORT_CTRL_PCP_TAG = 1 then u.ethStat n 41 1 else u).fld n (ETH_STAT_COUNT 36) = (s.fld n (ETH_STAT_COUNT 36) + 1) % 2 ^ 48 ∧
      (if u.fld n ETH_PORT_CTRL_VID ≠ 0 ∨ u.fld n ETH_PORT_CTRL_PCP_TAG = 1 then u.ethStat n 41 1 else u).fld n (ETH_STAT_COUNT 37) = (s.fld n (ETH_STAT_COUNT 37) + r.len) % 2 ^ 56 := by
    split
    · exact ⟨hn2.trans hnet, h362.trans h36, h372.trans h37⟩
    · exact ⟨hnet, h36, h37⟩
  generalize (if u.fld n ETH_PORT_CTRL_VID ≠ 0 ∨ u.fld n ETH_PORT_CTRL_PCP_TAG = 1 then u.ethStat n 41 1 else u) = x at htag
  obtain ⟨hnx, h36x, h37x⟩ := htag
  split
  · obtain ⟨hn3, h363, h373⟩ := hkind x (45 + _) (by omega)
    exact ⟨hn3.trans hnx, h363.trans h36x, h373.trans h37x⟩
  · exact ⟨hnx, h36x, h37x⟩

theorem exec_transmitEnd (hn : n < 64) (hr : (s.port n).run = some r) :
    ∃ t, exec (.transmitEnd n) s = .next t ∧ (t.port n).run = none ∧ t.fld n (ETH_STAT_COUNT 36) = (s.fld n (ETH_STAT_COUNT 36) + 1) % 2 ^ 48 ∧
      t.fld n (ETH_STAT_COUNT 37) = (s.fld n (ETH_STAT_COUNT 37) + r.len) % 2 ^ 56 := by
  have hexec : exec (.transmitEnd n) s = .next (((s.setPort n { (s.port n) with run := none }).cleanFrame n).endCounts n r) := by
    show execTransmitEnd n s = _
    rw [execTransmitEnd, onPort, if_pos hn]
    dsimp only
    rw [hr]
    rfl
  obtain ⟨hnet, h36, h37⟩ := State.endCounts_spec ((s.setPort n { (s.port n) with run := none }).cleanFrame n) n r
  have hclean := State.cleanFrame_keeps (s.setPort n { (s.port n) with run := none }) n
  refine ⟨_, hexec, ?_, ?_, ?_⟩
  · rw [State.port, hnet, (hclean 0).2, ← State.port, State.port_setPort_self]
  · rw [h36, (hclean 36).1, State.fld_setPort]
  · rw [h37, (hclean 37).1, State.fld_setPort]

end

/-- Settles O40: a start takes the checks of its rule as hypotheses, its end the counts it makes. -/
theorem transmissionFollowsTheSlots : Obligations.TransmissionFollowsTheSlots := by
  unfold Obligations.TransmissionFollowsTheSlots
  intro s u port slot len present pri kind what r hn
  refine ⟨fun hup hactive hidle hfatal hfree hsecure hlo hhi hbytes howner hsteward hroom hu => ?_, exec_transmitStart_otherSlot hn, fun x hx => State.frameOwner_of_linkFrame hx,
    exec_txUnderrun hn, exec_transmitEnd hn⟩
  obtain ⟨hrun, hlinks, hmem⟩ := s.started_spec u port what len present kind
  exact ⟨_, exec_transmitStart ⟨hn, hup, hactive, hidle, hfatal, hfree, hsecure, hlo, hhi, hbytes, howner, hsteward, hroom⟩ hu, hrun, hlinks, hmem⟩

end Sys2Proof.Machine
end

section
/-! Power states of a port (O41) (R457–R460). -/
namespace Sys2Proof.Machine

section
variable {s t : State} {n w devid : Nat} {octets : List (Nat × Nat)} {r : Retrain}

/-! ### Setting the power state -/

/-- The state of a power change before POWER is written: its counts, and the time at which a port parks. -/
theorem State.setPower_eq (s : State) (hn : n < 64) (w : Nat) : ∃ u, s.Counted u ∧ (s.setPower n w = u.setFld n ETH_PORT_STATUS_POWER w ∨
    s.setPower n w = (u.setPort n { (s.port n) with parkedAt := s.frameTime }).setFld n ETH_PORT_STATUS_POWER w) := by
  have hcount : ∀ (x : State) (P : Prop) [Decidable P] (i k : Nat), i < 64 → x.Counted (if P then x.ethStat n i k else x) := by
    intro x P _ i k hi
    split
    · exact .ethStat x hn hi k
    · exact .refl x
  rw [State.setPower]
  have h1 := hcount s (s.fld n ETH_PORT_STATUS_POWER = PW_PARKED ∧ w ≠ PW_PARKED) 60 ((s.frameTime - (s.port n).parkedAt) / 1000) (by omega)
  generalize (if s.fld n ETH_PORT_STATUS_POWER = PW_PARKED ∧ w ≠ PW_PARKED then s.ethStat n 60 ((s.frameTime - (s.port n).parkedAt) / 1000) else s) = x at h1
  dsimp only
  have h2 := h1.trans (hcount x (w = PW_PARKING ∧ s.fld n ETH_PORT_STATUS_POWER ≠ PW_PARKING) 59 1 (by omega))
  generalize (if w = PW_PARKING ∧ s.fld n ETH_PORT_STATUS_POWER ≠ PW_PARKING then x.ethStat n 59 1 else x) = y at h2
  refine ⟨y, h2, ?_⟩
  split
  · right
    rw [h2.port, State.frameTime, h2.mer]
    rfl
  · exact .inl rfl

/-- The power state, the other fields of the status, and what the port does. -/
theorem State.setPower_spec (s : State) (hn : n < 64) (hw : w < 4) :
    (s.setPower n w).fld n ETH_PORT_STATUS_POWER = w ∧
      (∀ g : Fld, g.reg = ETH_PORT_STATUS → 5 ≤ g.lo ∨ g.lo + g.width ≤ 3 → (s.setPower n w).fld n g = s.fld n g) ∧
      ((s.setPower n w).port n).retrain = (s.port n).retrain ∧ ((s.setPower n w).port n).run = (s.port n).run ∧ (s.setPower n w).mem = s.mem ∧ (s.setPower n w).provs = s.provs := by
  obtain ⟨u, hu, h | h⟩ := s.setPower_eq hn w
  · rw [h]
    refine ⟨?_, fun g hg hlo => ?_, ?_, ?_, ?_, ?_⟩
    · exact (State.fld_setFld_self u n ETH_PORT_STATUS_POWER w (by decide)).trans (Nat.mod_eq_of_lt hw)
    · rw [State.fld_setFld_bits u n (f := ETH_PORT_STATUS_POWER) w ⟨hg, by decide, hlo⟩, hu.fld (by omega) (by rw [hg]; decide)]
    · rw [State.port_setFld, hu.port]
    · rw [State.port_setFld, hu.port]
    · rw [State.setFld_mem, hu.mem]
    · rw [State.setFld_provs, hu.provs]
  · rw [h]
    refine ⟨?_, fun g hg hlo => ?_, ?_, ?_, ?_, ?_⟩
    · exact (State.fld_setFld_self _ n ETH_PORT_STATUS_POWER w (by decide)).trans (Nat.mod_eq_of_lt hw)
    · rw [State.fld_setFld_bits _ n (f := ETH_PORT_STATUS_POWER) w ⟨hg, by decide, hlo⟩, State.fld_setPort, hu.fld (by omega) (by rw [hg]; decide)]
    · rw [State.port_setFld, State.port_setPort_self]
    · rw [State.port_setFld, State.port_setPort_self]
    · rw [State.setFld_mem, State.setPort_mem, hu.mem]
    · rw [State.setFld_provs, State.setPort_provs, hu.provs]

/-- A port that parks notes the time. -/
theorem State.parkedAt_setPower (s : State) (hw : s.fld n ETH_PORT_STATUS_POWER ≠ PW_PARKED) : ((s.setPower n PW_PARKED).port n).parkedAt = s.frameTime := by
  rw [State.setPower]
  dsimp only
  rw [if_pos ⟨rfl, hw⟩, State.port_setFld, State.port_setPort_self, if_neg (fun h => absurd h.1 (by decide)), if_neg (fun h => hw h.1)]

/-- A port that begins to park counts it. -/
theorem State.parking_setPower (s : State) (hw : s.fld n ETH_PORT_STATUS_POWER = PW_ACTIVE) :
    (s.setPower n PW_PARKING).fld n (ETH_STAT_COUNT 59) = (s.fld n (ETH_STAT_COUNT 59) + 1) % 2 ^ 48 := by
  rw [State.setPower]
  dsimp only
  rw [hw, if_neg (fun h => absurd h.1 (by decide)), if_pos ⟨rfl, by decide⟩, if_neg (fun h => absurd h.1 (by decide)),
    State.fld_setFld_off (f := ETH_PORT_STATUS_POWER) (g := ETH_STAT_COUNT 59) _ _ (by decide), State.count_ethStat_self]
  rfl

/-! ### The events -/

theorem exec_lpiIdleTimeout (hn : n < 64) (hup : s.portUp n = true) (hlpi : s.fld n ETH_PARK_CTRL_LPI_EN = 1) (hsingle : s.fld n ETH_PORT_STATUS_SINGLE = 1)
    (hactive : s.fld n ETH_PORT_STATUS_POWER = PW_ACTIVE) (hrun : (s.port n).run = none) (hre : (s.port n).retrain = none) :
    exec (.lpiIdleTimeout n) s = .next (s.setPower n PW_PARKING) := by
  show execLpiIdleTimeout n s = _
  rw [execLpiIdleTimeout, onPort, if_pos hn, if_neg (by rw [hup, hlpi, hsingle, hactive, hrun, hre]; decide)]

theorem exec_portParked (hn : n < 64) (hp : s.fld n ETH_PORT_STATUS_POWER = PW_PARKING) :
    exec (.portParked n) s = .next (if (s.port n).retrain.isSome then ((s.setPort n { (s.port n) with wakeNext := false }).setPower n PW_PARKED).clearLink n
      else (s.setPort n { (s.port n) with wakeNext := false }).setPower n (if (s.port n).wakeNext then PW_WAKING else PW_PARKED)) := by
  show execPortParked n s = _
  rw [execPortParked, onPort, if_pos hn, if_neg (fun h => h hp)]
  exact (apply_ite Host.Outcome.next _ _ _).symm

theorem exec_portWake_parking (hn : n < 64) (hp : s.fld n ETH_PORT_STATUS_POWER = PW_PARKING) :
    exec (.portWake n) s = .next (s.setPort n { (s.port n) with wakeNext := true }) := by
  show execPortWake n s = _
  rw [execPortWake, onPort, if_pos hn]
  exact if_pos hp

theorem exec_portWake_parked (hn : n < 64) (hp : s.fld n ETH_PORT_STATUS_POWER = PW_PARKED) (hre : (s.port n).retrain = none) :
    exec (.portWake n) s = .next (s.setPower n PW_WAKING) := by
  show execPortWake n s = _
  rw [execPortWake, onPort, if_pos hn]
  dsimp only
  rw [hp, hre]
  rfl

theorem exec_wakeEnd (hn : n < 64) (hp : s.fld n ETH_PORT_STATUS_POWER = PW_WAKING) (hl : s.fld n ETH_PORT_STATUS_LINK = 1) :
    exec (.wakeEnd n) s = .next (s.setPower n PW_ACTIVE) := by
  show execWakeEnd n s = _
  rw [execWakeEnd, onPort, if_pos hn, if_pos ⟨hp, hl⟩]

theorem exec_rateLower (hn : n < 64) (hlight : s.lightTraffic n octets = true) (hmay : s.mayLower n = true) (hlink : (s.link 0 devid).isSome = true) :
    exec (.rateLower n devid octets) s = .next ((s.setPort n { (s.port n) with lowerAsked := true }).updLink 0 devid (fun l => l.post 0 none (.lowerReq n))) := by
  show execRateLower n devid octets s = _
  rw [execRateLower, onPort, if_pos hn, if_neg]
  rw [hlight, hmay]
  rintro (h | h | h)
  · exact absurd h (by decide)
  · exact absurd h (by decide)
  · rw [Option.isNone_iff_eq_none] at h
    rw [h] at hlink
    exact absurd hlink (by decide)

/-- A link that is lost shows so, and leaves the power state. -/
theorem State.clearLink_spec (s : State) (n : Nat) : (s.clearLink n).fld n ETH_PORT_STATUS_LINK = 0 ∧
    (∀ g : Fld, g.reg = ETH_PORT_STATUS → 3 ≤ g.lo → (s.clearLink n).fld n g = s.fld n g) ∧ (s.clearLink n).net.ports = s.net.ports ∧ (s.clearLink n).mem = s.mem := by
  have hpaths : ∀ (x : State) (g : Fld), (x.pathsDown n).fld n g = x.fld n g := fun x g => State.fld_congr rfl n g
  rw [State.clearLink]
  refine ⟨?_, fun g hg hlo => ?_, ?_, ?_⟩
  · rw [hpaths, State.fld_setFld_bits _ n (f := ETH_PORT_STATUS_FEC_LOCK) (g := ETH_PORT_STATUS_LINK) _ (by decide),
      State.fld_setFld_bits _ n (f := ETH_PORT_STATUS_AN_DONE) (g := ETH_PORT_STATUS_LINK) _ (by decide)]
    exact State.fld_setFld_self _ _ _ _ (by decide)
  · rw [hpaths, State.fld_setFld_bits _ n (f := ETH_PORT_STATUS_FEC_LOCK) _ ⟨hg, by decide, .inl hlo⟩,
      State.fld_setFld_bits _ n (f := ETH_PORT_STATUS_AN_DONE) _ ⟨hg, by decide, .inl (le_trans (by decide) hlo)⟩,
      State.fld_setFld_bits _ n (f := ETH_PORT_STATUS_LINK) _ ⟨hg, by decide, .inl (le_trans (by decide) hlo)⟩]
  · show (((s.setFld n ETH_PORT_STATUS_LINK 0).setFld n ETH_PORT_STATUS_AN_DONE 0).setFld n ETH_PORT_STATUS_FEC_LOCK 0).net.ports = _
    rw [State.setFld_net, State.setFld_net, State.setFld_net]
  · show (((s.setFld n ETH_PORT_STATUS_LINK 0).setFld n ETH_PORT_STATUS_AN_DONE 0).setFld n ETH_PORT_STATUS_FEC_LOCK 0).mem = _
    rw [State.setFld_mem, State.setFld_mem, State.setFld_mem]

/-- A lost link leaves the registers apart from the status. -/
theorem State.fld_clearLink (s : State) (n : Nat) {g : Fld} (hg : g.reg.off ≠ ETH_PORT_STATUS.off ∧ g.reg.off < 2 ^ 16 ∧ ETH_PORT_STATUS.off < 2 ^ 16) :
    (s.clearLink n).fld w g = s.fld w g := by
  have hpaths : ∀ x : State, (x.pathsDown n).fld w g = x.fld w g := fun x => State.fld_congr rfl w g
  rw [State.clearLink, hpaths, State.fld_setFld_off (f := ETH_PORT_STATUS_FEC_LOCK) _ _ hg, State.fld_setFld_off (f := ETH_PORT_STATUS_AN_DONE) _ _ hg,
    State.fld_setFld_off (f := ETH_PORT_STATUS_LINK) _ _ hg]

theorem State.clearLink_keeps (s : State) (n : Nat) : (s.clearLink n).mer = s.mer ∧ (s.clearLink n).errs = s.errs ∧ (s.clearLink n).provs = s.provs ∧
    (s.clearLink n).net.cages = s.net.cages := by
  have hpaths : ∀ x : State, (x.pathsDown n).mer = x.mer ∧ (x.pathsDown n).errs = x.errs ∧ (x.pathsDown n).provs = x.provs ∧ (x.pathsDown n).net.cages = x.net.cages :=
    fun x => ⟨rfl, rfl, rfl, rfl⟩
  obtain ⟨hmer, herrs, hprovs, hcages⟩ := hpaths (((s.setFld n ETH_PORT_STATUS_LINK 0).setFld n ETH_PORT_STATUS_AN_DONE 0).setFld n ETH_PORT_STATUS_FEC_LOCK 0)
  rw [State.clearLink, hmer, herrs, hprovs, hcages]
  simp only [State.setFld_mer, State.setFld_errs, State.setFld_provs, State.setFld_net, and_self]

/-- A link that locks shows so. -/
theorem State.lockLink_spec (s : State) (n : Nat) : (s.lockLink n).fld n ETH_PORT_STATUS_LINK = 1 ∧ (s.lockLink n).net = s.net ∧ (s.lockLink n).mem = s.mem := by
  rw [State.lockLink]
  refine ⟨?_, ?_, ?_⟩
  · rw [State.fld_setFld_bits _ n (f := ETH_PORT_STATUS_AN_DONE) (g := ETH_PORT_STATUS_LINK) _ (by decide),
      State.fld_setFld_bits _ n (f := ETH_PORT_STATUS_FEC_LOCK) (g := ETH_PORT_STATUS_LINK) _ (by decide)]
    exact State.fld_setFld_self _ _ _ _ (by decide)
  · rw [State.setFld_net, State.setFld_net, State.setFld_net]
  · rw [State.setFld_mem, State.setFld_mem, State.setFld_mem]

/-- A link that locks with LOWERED and a power state. -/
theorem State.lock_spec (s : State) (hn : n < 64) {v : Nat} (hv : v < 2) (hw : w < 4) :
    (((s.lockLink n).setFld n ETH_PORT_STATUS_LOWERED v).setPower n w).fld n ETH_PORT_STATUS_LINK = 1 ∧
      (((s.lockLink n).setFld n ETH_PORT_STATUS_LOWERED v).setPower n w).fld n ETH_PORT_STATUS_LOWERED = v ∧
      (((s.lockLink n).setFld n ETH_PORT_STATUS_LOWERED v).setPower n w).fld n ETH_PORT_STATUS_POWER = w ∧
      ((((s.lockLink n).setFld n ETH_PORT_STATUS_LOWERED v).setPower n w).port n).retrain = (s.port n).retrain ∧
      (((s.lockLink n).setFld n ETH_PORT_STATUS_LOWERED v).setPower n w).mem = s.mem := by
  obtain ⟨hpower, hkeep, hre, -, hmem, -⟩ := State.setPower_spec ((s.lockLink n).setFld n ETH_PORT_STATUS_LOWERED v) hn hw
  obtain ⟨hlink, hnet, hmem'⟩ := s.lockLink_spec n
  refine ⟨?_, ?_, hpower, ?_, ?_⟩
  · rw [hkeep _ rfl (by decide), State.fld_setFld_bits _ n (f := ETH_PORT_STATUS_LOWERED) _ (by decide), hlink]
  · rw [hkeep _ rfl (by decide), State.fld_setFld_self _ _ _ _ (by decide)]
    exact Nat.mod_eq_of_lt hv
  · rw [hre, State.port_setFld, State.port, hnet]
    rfl
  · rw [hmem, State.setFld_mem, hmem']

theorem exec_portRetrainDone (hn : n < 64) (hr : (s.port n).retrain = some r) :
    exec (.portRetrainDone n) s = .next ((((s.setPort n { (s.port n) with retrain := none }).lockLink n).setFld n ETH_PORT_STATUS_LOWERED (b01 (r == .lower))).setPower n
      (if r = .lower ∨ r = .raise then PW_WAKING else PW_ACTIVE)) := by
  show execPortRetrainDone n s = _
  rw [execPortRetrainDone, onPort, if_pos hn]
  dsimp only
  rw [hr]
  cases r <;> rfl

end

/-- Settles O41: each event sets POWER, and LINK and LOWERED where it locks or loses the link. That LOWER_REQ names the port is DESIGN CHOICE (log 75), that another retrain
ends not lowered DEDUCED (log 148). -/
theorem portPowerStates : Obligations.PortPowerStates := by
  unfold Obligations.PortPowerStates
  intro s n devid octets r hn
  refine ⟨fun hup hlpi hsingle hactive hrun hre => ⟨_, exec_lpiIdleTimeout hn hup hlpi hsingle hactive hrun hre, (s.setPower_spec hn (by decide)).1, s.parking_setPower hactive⟩,
    fun hp => ⟨fun hre hwake => ⟨_, exec_portParked hn hp, ?_⟩, fun hre hwake => ⟨_, exec_portParked hn hp, ?_⟩, fun hre => ⟨_, exec_portParked hn hp, ?_⟩, exec_portWake_parking hn hp⟩,
    fun hp hre => ⟨_, exec_portWake_parked hn hp hre, (s.setPower_spec hn (by decide)).1⟩,
    fun hp hl => ⟨exec_wakeEnd hn hp hl, (s.setPower_spec hn (by decide)).1⟩, exec_rateLower hn, fun hr => ⟨_, exec_portRetrainDone hn hr, ?_⟩⟩
  · rw [hre, hwake]
    refine ⟨(State.setPower_spec _ hn (by decide)).1, State.parkedAt_setPower _ ?_⟩
    rw [State.fld_setPort, hp]
    decide
  · rw [hre, hwake]
    exact (State.setPower_spec _ hn (by decide)).1
  · rw [hre]
    obtain ⟨hlink, hkeep, -, -⟩ := State.clearLink_spec ((s.setPort n { (s.port n) with wakeNext := false }).setPower n PW_PARKED) n
    exact ⟨(hkeep _ rfl (by decide)).trans (State.setPower_spec _ hn (by decide)).1, hlink⟩
  · obtain ⟨hlink, hlowered, hpower, hre, -⟩ := State.lock_spec (s.setPort n { (s.port n) with retrain := none }) hn (v := b01 (r == .lower))
      (w := if r = .lower ∨ r = .raise then PW_WAKING else PW_ACTIVE) (by cases r <;> decide) (by split <;> decide)
    refine ⟨hlink, hre.trans ?_, hlowered, hpower⟩
    rw [State.port_setPort_self]

end Sys2Proof.Machine
end

section
/-! Links, lane modes, rates and counters of a port (O42) (R437–R441, R457–R459, R468). -/
namespace Sys2Proof.Machine

section
variable {s t u : State} {n fdie value i : Nat}

/-! ### Links -/

theorem exec_linkUp (hn : n < 64) (hlanes : s.portLanes n ≠ 0) (hen : s.fld n ETH_PORT_CTRL_EN = 1) (hheld : s.fld n ETH_PORT_STATUS_HELD = 0)
    (hre : (s.port n).retrain = none) (hmod : s.moduleDown n = false) :
    exec (.linkUp n) s = .next (((s.lockLink n).setFld n ETH_PORT_STATUS_LOWERED 0).setPower n PW_ACTIVE) := by
  show execLinkUp n s = _
  rw [execLinkUp, onPort, if_pos hn, if_neg]
  rw [hen, hheld, hre, hmod]
  simp [hlanes]

/-- The state of a link that has gone down, with its count and LINK_CHG, before the flap rule. -/
def State.linkLost (s : State) (n : Nat) : State := ((s.clearLink n).ethStat n 62 1).setFld n ETH_PORT_STATUS_LINK_CHG 1

theorem State.linkLost_spec (s : State) (hn : n < 64) :
    (s.linkLost n).fld n ETH_PORT_STATUS_LINK = 0 ∧ (s.linkLost n).fld n ETH_PORT_STATUS_LINK_CHG = 1 ∧ (s.linkLost n).fld n ETH_PORT_STATUS_HELD = s.fld n ETH_PORT_STATUS_HELD ∧
      (s.linkLost n).fld n (ETH_STAT_COUNT 62) = (s.fld n (ETH_STAT_COUNT 62) + 1) % 2 ^ 48 ∧
      (s.linkLost n).fld n ETH_PORT_CTRL_FLAP_LIMIT = s.fld n ETH_PORT_CTRL_FLAP_LIMIT ∧ (s.linkLost n).port n = s.port n ∧ (s.linkLost n).frameTime = s.frameTime := by
  obtain ⟨hlink, hkeep, hports, -⟩ := s.clearLink_spec n
  have hcount := State.Counted.ethStat (s.clearLink n) hn (by omega : 62 < 64) 1
  rw [State.linkLost]
  refine ⟨?_, State.fld_setFld_self _ _ _ _ (by decide), ?_, ?_, ?_, ?_, ?_⟩
  · rw [State.fld_setFld_bits _ n (f := ETH_PORT_STATUS_LINK_CHG) _ (by decide), hcount.fld (by omega) (by decide), hlink]
  · rw [State.fld_setFld_bits _ n (f := ETH_PORT_STATUS_LINK_CHG) _ (by decide), hcount.fld (by omega) (by decide), hkeep _ rfl (by decide)]
  · rw [State.fld_setFld_off (f := ETH_PORT_STATUS_LINK_CHG) (g := ETH_STAT_COUNT 62) _ _ (by decide), State.count_ethStat_self, State.countVal, State.fld_clearLink _ _ (by decide)]
    rfl
  · rw [State.fld_setFld_off (f := ETH_PORT_STATUS_LINK_CHG) (g := ETH_PORT_CTRL_FLAP_LIMIT) _ _ (by decide), hcount.fld (by omega) (by decide), State.fld_clearLink _ _ (by decide)]
  · rw [State.port_setFld, hcount.port, State.port, hports]
    rfl
  · rw [State.frameTime, State.setFld_mer, hcount.mer, (s.clearLink_keeps n).1]
    rfl

theorem exec_linkDown (hn : n < 64) (hl : s.fld n ETH_PORT_STATUS_LINK = 1) (downs : List Nat)
    (hd : ((s.frameTime :: (s.port n).downs).filter (fun t => decide (s.frameTime ≤ t + nsMin))) = downs) :
    exec (.linkDown n) s = .next (if max 1 (s.fld n ETH_PORT_CTRL_FLAP_LIMIT) ≤ downs.length then
      ((((s.linkLost n).setPort n { (s.port n) with run := none, downs := [] }).setFld n ETH_PORT_STATUS_HELD 1).setFld n ETH_PORT_STATUS_FLAP 1).raise (portRec LINK_FLAP n 0)
      else (s.linkLost n).setPort n { (s.port n) with run := none, downs := downs }) := by
  obtain ⟨-, -, -, -, hlimit, hport, htime⟩ := s.linkLost_spec hn
  show execLinkDown n s = _
  rw [execLinkDown, onPort, if_pos hn, State.linkDown, if_neg (by omega)]
  dsimp only
  rw [← State.linkLost, hlimit, hport, htime, hd]

/-! ### Lane modes and rates -/

theorem exec_ethLaneModeWrite_same (hf : fdie < 4) (hu : u = if bitAt value 31 = true then s.setFld fdie ETH_LANE_MODE_CFG_ERR 0 else s)
    (hsame : ∀ q < 4, u.fld fdie (quarterFld q) = modesOf value q) : exec (.ethLaneModeWrite fdie value) s = .next u := by
  show execEthLaneModeWrite fdie value s = _
  rw [execEthLaneModeWrite, if_neg (by omega), ← hu]
  refine if_pos (List.all_eq_true.mpr fun q hq => ?_)
  rw [hsame q (List.mem_range.mp hq)]
  exact beq_self_eq_true _

theorem laneModes_differ (hdiff : ∃ q < 4, u.fld fdie (quarterFld q) ≠ modesOf value q) :
    ¬ (List.range 4).all (fun q => u.fld fdie (quarterFld q) == modesOf value q) = true := by
  obtain ⟨q, hq, hne⟩ := hdiff
  exact fun h => hne (by simpa using List.all_eq_true.mp h q (List.mem_range.mpr hq))

theorem exec_ethLaneModeWrite_refused (hf : fdie < 4) (hu : u = if bitAt value 31 = true then s.setFld fdie ETH_LANE_MODE_CFG_ERR 0 else s)
    (hdiff : ∃ q < 4, u.fld fdie (quarterFld q) ≠ modesOf value q) (huse : (u.affected fdie value).any u.portInUse = true) :
    exec (.ethLaneModeWrite fdie value) s = .next (u.setFld fdie ETH_LANE_MODE_CFG_ERR 1) := by
  show execEthLaneModeWrite fdie value s = _
  rw [execEthLaneModeWrite, if_neg (by omega), ← hu]
  refine (if_neg (laneModes_differ hdiff)).trans (if_pos (.inr (.inr (.inr huse))))

theorem exec_ethLaneModeWrite_set (hf : fdie < 4) (hu : u = if bitAt value 31 = true then s.setFld fdie ETH_LANE_MODE_CFG_ERR 0 else s)
    (hdiff : ∃ q < 4, u.fld fdie (quarterFld q) ≠ modesOf value q) (huse : (u.affected fdie value).any u.portInUse = false)
    (h01 : modesOf value 0 = 0 ↔ modesOf value 1 = 0) (h23 : modesOf value 2 = 0 ↔ modesOf value 3 = 0) (h7 : ∀ q < 4, modesOf value q ≠ 7) :
    exec (.ethLaneModeWrite fdie value) s = .next (u.setModes fdie value) := by
  show execEthLaneModeWrite fdie value s = _
  rw [execEthLaneModeWrite, if_neg (by omega), ← hu]
  refine (if_neg (laneModes_differ hdiff)).trans (if_neg ?_)
  rintro (h | h | h | h)
  · exact h (propext h01)
  · exact h (propext h23)
  · obtain ⟨q, hq, h⟩ := List.any_eq_true.mp h
    exact h7 q (List.mem_range.mp hq) (by simpa using h)
  · rw [huse] at h
    exact Bool.false_ne_true h

/-- CFG_ERR of the lane modes is no mode. -/
theorem State.quarter_setCfgErr (s : State) (d v : Nat) {q : Nat} (hq : q < 4) : (s.setFld d ETH_LANE_MODE_CFG_ERR v).fld d (quarterFld q) = s.fld d (quarterFld q) := by
  interval_cases q
  · exact State.fld_setFld_bits s d (f := ETH_LANE_MODE_CFG_ERR) (g := ETH_LANE_MODE_Q0) v (by decide)
  · exact State.fld_setFld_bits s d (f := ETH_LANE_MODE_CFG_ERR) (g := ETH_LANE_MODE_Q1) v (by decide)
  · exact State.fld_setFld_bits s d (f := ETH_LANE_MODE_CFG_ERR) (g := ETH_LANE_MODE_Q2) v (by decide)
  · exact State.fld_setFld_bits s d (f := ETH_LANE_MODE_CFG_ERR) (g := ETH_LANE_MODE_Q3) v (by decide)

theorem execEthPortRateWrite_eq (hn : n < 64) (hlanes : s.portLanes n ≠ 0) : exec (.ethPortRateWrite n value) s = (
    if bits value 1 1 = s.fld n ETH_PORT_CTRL_RATE then .next (s.setPortCtrl n value)
    else if s.portInUse n then .next (s.setFld n ETH_PORT_STATUS_CFG_ERR 1)
    else .next (((s.setPortCtrl n value).restartPort n).setFld n ETH_PORT_CTRL_RATE (bits value 1 1))) := by
  show execEthPortRateWrite n value s = _
  rw [execEthPortRateWrite, onPort, if_pos hn, if_neg hlanes]

/-! ### The shadow of the counters -/

theorem get_foldl_range (f : Nat → Nat) (m : Sparse Nat) (k : Nat) (hi : i < k) : Sparse.get 0 ((List.range k).foldl (fun m i => Sparse.set 0 m i (f i)) m) i = f i := by
  induction k with
  | zero => exact absurd hi (Nat.not_lt_zero i)
  | succ k ih =>
    rw [List.range_succ, List.foldl_append, List.foldl_cons, List.foldl_nil]
    rcases Nat.lt_succ_iff_lt_or_eq.mp hi with h | rfl
    · rw [Sparse.get_set_ne (by omega), ih h]
    · exact Sparse.get_set_self

theorem exec_ethStatSnap (hn : n < 64) (hlanes : s.portLanes n ≠ 0) : exec (.ethStatSnap n) s = .next (s.setPort n { (s.port n) with
    shadow := (List.range 64).foldl (fun m i => Sparse.set 0 m i (s.fld n (ETH_STAT_COUNT i))) [] }) := by
  show execEthStatSnap n s = _
  rw [execEthStatSnap, onPort, if_pos hn, if_neg hlanes]

end

/-- Settles O42: links by the fields of the status and the flap rule, modes and rates by the branches of their rules. That a link comes up not lowered is DEDUCED (log 148). -/
theorem portLinksAndModes : Obligations.PortLinksAndModes := by
  unfold Obligations.PortLinksAndModes
  intro s u n fdie value i hn
  refine ⟨fun hlanes hen hheld hre hmod => ?_, fun hl hdowns hlimit => ?_, fun hl hlimit => ?_, ?_, fun hf hu => ⟨exec_ethLaneModeWrite_same hf hu, fun hdiff => ⟨fun huse => ?_,
    exec_ethLaneModeWrite_set hf hu hdiff⟩⟩, fun hlanes => ⟨fun hr => ?_, fun hr huse => ?_, fun hr huse => ?_⟩, fun hlanes hi => ⟨_, exec_ethStatSnap hn hlanes, ?_, ?_⟩⟩
  · obtain ⟨hlink, hlowered, hpower, -, hmem⟩ := s.lock_spec hn (v := 0) (w := PW_ACTIVE) (by decide) (by decide)
    exact ⟨_, exec_linkUp hn hlanes hen hheld hre hmod, hlink, hpower, hlowered, hmem⟩
  · obtain ⟨hlink, hchg, hheld, hcount, -, hport, -⟩ := s.linkLost_spec hn
    have hone : ((s.frameTime :: (s.port n).downs).filter (fun t => decide (s.frameTime ≤ t + nsMin))) = [s.frameTime] := by
      rw [hdowns, List.filter_cons_of_pos (by simp), List.filter_nil]
    refine ⟨_, exec_linkDown hn hl _ hone, ?_⟩
    rw [if_neg (by simp only [List.length_singleton]; omega)]
    simp only [State.fld_setPort, State.port_setPort_self]
    exact ⟨hlink, hchg, trivial, hcount, hheld⟩
  · obtain ⟨hlink, -, -, -, -, -, -⟩ := s.linkLost_spec hn
    refine ⟨_, exec_linkDown hn hl _ rfl, ?_⟩
    rw [if_pos (by rw [hlimit, List.filter_cons_of_pos (by simp)]; simp)]
    have hraise : ∀ (x : State) (g : Fld), g.reg = ETH_PORT_STATUS → (x.raise (portRec LINK_FLAP n 0)).fld n g = x.fld n g := fun x g hg =>
      State.fld_raise x _ (by omega) (by rw [hg]; decide)
    refine ⟨?_, ?_, ?_⟩
    · rw [hraise _ _ rfl, State.fld_setFld_bits _ n (f := ETH_PORT_STATUS_FLAP) _ (by decide), State.fld_setFld_bits _ n (f := ETH_PORT_STATUS_HELD) _ (by decide),
        State.fld_setPort, hlink]
    · rw [hraise _ _ rfl, State.fld_setFld_bits _ n (f := ETH_PORT_STATUS_FLAP) _ (by decide)]
      exact State.fld_setFld_self _ _ _ _ (by decide)
    · rw [hraise _ _ rfl]
      exact State.fld_setFld_self _ _ _ _ (by decide)
  · have hexec : exec (.linkHoldExpire n) s = .next (s.setFld n ETH_PORT_STATUS_HELD 0) := if_pos hn
    exact ⟨_, hexec, State.fld_setFld_self _ _ _ _ (by decide), State.setFld_mem ..⟩
  · have hnet : u.net = s.net := by
      rw [hu]
      split
      · exact State.setFld_net ..
      · rfl
    have hmodes : ∀ q < 4, u.fld fdie (quarterFld q) = s.fld fdie (quarterFld q) := fun q hq => by
      rw [hu]
      split
      · exact s.quarter_setCfgErr fdie 0 hq
      · rfl
    refine ⟨_, exec_ethLaneModeWrite_refused hf hu hdiff huse, State.fld_setFld_self _ _ _ _ (by decide), (State.setFld_net ..).trans hnet, fun q hq => ?_⟩
    rw [u.quarter_setCfgErr fdie 1 hq, hmodes q hq]
  · rw [execEthPortRateWrite_eq hn hlanes, if_pos hr]
  · rw [execEthPortRateWrite_eq hn hlanes, if_neg hr, if_pos huse]
  · rw [execEthPortRateWrite_eq hn hlanes, if_neg hr, if_neg (by rw [huse]; exact Bool.false_ne_true)]
  · rw [State.port_setPort_self]
    exact get_foldl_range _ _ _ hi
  · exact State.setPort_regs ..

end Sys2Proof.Machine
end

section
/-! Lanes, their steering, and modules (O43) (R461–R467). -/
namespace Sys2Proof.Machine

section
variable {s t u : State} {lane n syms nbits cw corr uncorr c : Nat} {x : LaneSteer} {m : ModuleId}

/-! ### Records and the lanes -/

theorem State.logErr_lanes (s : State) (r : ErrRec) : (s.logErr r).errs.lanes = s.errs.lanes := by
  rw [State.logErr]
  split
  · split
    · rfl
    · rfl
  · rfl

theorem State.alertPulse_lanes (s : State) (v : Nat) : (s.alertPulse v).errs.lanes = s.errs.lanes := by
  rw [State.alertPulse]
  split
  · rw [State.alertView_errs]
  · rfl

theorem State.arrive_lanes (s : State) (r : ErrRec) : (s.arrive r).errs.lanes = s.errs.lanes := by
  rw [State.arrive]
  rw [State.alertPulse_lanes, State.setFld_errs]
  split
  · rw [State.incFld_errs]
  · rfl

theorem State.fatal_lanes (s : State) (r : ErrRec) : (s.fatal r).errs.lanes = s.errs.lanes := by
  rw [State.fatal, State.alertView_errs, State.logErr_lanes]
  dsimp only
  split
  · rw [State.setFld_errs, State.setFld_errs]
  · rfl

/-- A record changes no lane. -/
@[simp] theorem State.raise_lanes (s : State) (r : ErrRec) : (s.raise r).errs.lanes = s.errs.lanes := by
  have hask : ∀ (P : Prop) [Decidable P] (x : State) (p : Nat), (if P then x.askPause p else x).errs.lanes = x.errs.lanes := by
    intro P _ x p
    split
    · rw [State.askPause_errs]
    · rfl
  rw [State.raise, State.raiseSev]
  dsimp only
  split
  · rw [State.fatal_lanes, hask]
  · rw [State.arrive_lanes, hask]

/-! ### Lanes -/

/-- A port of a lane has a number below 64. -/
theorem State.portOfLane_lt (hl : lane < 64) (h : s.portOfLane lane = some n) : n < 64 := by
  have := List.find?_some h
  simp only [Bool.and_eq_true, decide_eq_true_eq] at this
  omega

/-- A lane whose errors are above its threshold marks its port and itself (R461). -/
theorem exec_laneBerSample (hl : lane < 64) (hn : s.portOfLane lane = some n) (hber : nbits < syms * 10 ^ s.fld n ETH_PORT_CTRL_BER_EXP) :
    ∃ t, exec (.laneBerSample lane syms nbits cw corr uncorr) s = .next t ∧ t.fld n ETH_PORT_STATUS_LANE_BER = 1 ∧ t.errs.lanes.any (fun y => y.lane == lane) = true ∧
      t.fld (lane / 16) (ETH_LANE_SYMERR_SYM (lane % 16)) = (s.fld (lane / 16) (ETH_LANE_SYMERR_SYM (lane % 16)) + syms) % 2 ^ 48 := by
  have hlt := State.portOfLane_lt hl hn
  have hsymOff : (ETH_LANE_SYMERR_SYM (lane % 16)).reg.NoStat := by
    simp only [ETH_LANE_SYMERR_SYM, ETH_LANE_SYMERR, Reg.NoStat, Block.code]
    omega
  generalize hv : s.setFld (lane / 16) (ETH_LANE_SYMERR_SYM (lane % 16)) ((s.fld (lane / 16) (ETH_LANE_SYMERR_SYM (lane % 16)) + syms) % 2 ^ 48) = v
  have hcounted : v.Counted ((((v.ethStat n 55 cw).ethStat n 56 corr).ethStat n 57 uncorr).ethStat n 58 syms) :=
    (((State.Counted.ethStat v hlt (by omega) cw).trans (.ethStat _ hlt (by omega) corr)).trans (.ethStat _ hlt (by omega) uncorr)).trans (.ethStat _ hlt (by omega) syms)
  generalize hu : (((v.ethStat n 55 cw).ethStat n 56 corr).ethStat n 57 uncorr).ethStat n 58 syms = u at hcounted
  have hexp : u.fld n ETH_PORT_CTRL_BER_EXP = s.fld n ETH_PORT_CTRL_BER_EXP := by
    rw [hcounted.fld (by omega) (by decide), ← hv]
    exact State.fld_setFld_block s _ (by omega) (by omega) ⟨show Block.ethPort.code ≠ Block.ethDie.code by decide, by decide, hsymOff.1⟩
  have hsym : ∀ y : State, y.regs = (u.setFld n ETH_PORT_STATUS_LANE_BER 1).regs →
      y.fld n ETH_PORT_STATUS_LANE_BER = 1 ∧ y.fld (lane / 16) (ETH_LANE_SYMERR_SYM (lane % 16)) = (s.fld (lane / 16) (ETH_LANE_SYMERR_SYM (lane % 16)) + syms) % 2 ^ 48 := by
    intro y hy
    rw [State.fld_congr hy, State.fld_congr hy]
    refine ⟨State.fld_setFld_self _ _ _ _ (by decide), ?_⟩
    rw [State.fld_setFld_block u 1 (by omega) (by omega) ⟨show Block.ethDie.code ≠ Block.ethPort.code by decide, hsymOff.1, by decide⟩, hcounted.fld (by omega) hsymOff, ← hv]
    refine (State.fld_setFld_self s _ (ETH_LANE_SYMERR_SYM (lane % 16)) _ (by decide : 0 + 48 ≤ 64)).trans ?_
    exact Nat.mod_mod _ _
  have hexec : exec (.laneBerSample lane syms nbits cw corr uncorr) s = execLaneBerSample lane syms nbits cw corr uncorr s := rfl
  rw [hexec, execLaneBerSample, if_neg (by omega), hn]
  dsimp only
  rw [hv, hu, hexp, if_neg (by omega)]
  split
  · rename_i hany
    obtain ⟨hber, hsym⟩ := hsym _ rfl
    exact ⟨_, rfl, hber, hany, hsym⟩
  · obtain ⟨hber, hsym⟩ := hsym { (u.setFld n ETH_PORT_STATUS_LANE_BER 1) with errs := { (u.setFld n ETH_PORT_STATUS_LANE_BER 1).errs with
      lanes := (u.setFld n ETH_PORT_STATUS_LANE_BER 1).errs.lanes ++ [({ lane := lane, waiting := true, judged := false } : LaneSteer)] } } rfl
    refine ⟨_, rfl, hber, ?_, hsym⟩
    simp

/-- The state in which a port retrains without link, its frame ended. -/
theorem State.steer_spec (s : State) (n : Nat) (t : State) (ht : t = (s.setPort n { (s.port n) with retrain := some .steer, run := none }).clearLink n) :
    (t.port n).retrain = some .steer ∧ t.fld n ETH_PORT_STATUS_LINK = 0 ∧ t.errs = s.errs := by
  subst ht
  obtain ⟨hlink, -, hports, -⟩ := State.clearLink_spec (s.setPort n { (s.port n) with retrain := some .steer, run := none }) n
  obtain ⟨-, herrs, -, -⟩ := State.clearLink_keeps (s.setPort n { (s.port n) with retrain := some .steer, run := none }) n
  refine ⟨?_, hlink, herrs⟩
  rw [State.port, hports, ← State.port, State.port_setPort_self]

/-- A lane alone in the list. -/
structure State.OneLane (s : State) (lane n : Nat) (x : LaneSteer) : Prop where
  lt : lane < 64
  port : s.portOfLane lane = some n
  lanes : s.errs.lanes = [x]
  lane : x.lane = lane

theorem exec_laneSteer (h : s.OneLane lane n x) (hw : x.waiting = true) (hmay : ∀ y ∈ (s.port n).shares, (s.prov y.1).st ≠ .running ∨ s.otherPath y.1 n = true) :
    exec (.laneSteer lane) s = .next ((({ s with errs := { s.errs with lanes := [{ x with waiting := false }], soft := s.errs.soft ++ [Repair.lane lane] } } : State).setPort n
      { (s.port n) with retrain := some .steer, run := none }).clearLink n) := by
  obtain ⟨hl, hn, hlanes, rfl⟩ := h
  have hall : (s.port n).shares.all (fun x => (s.prov x.1).st != .running || s.otherPath x.1 n) = true := by
    refine List.all_eq_true.mpr fun y hy => ?_
    rcases hmay y hy with h | h
    · simp [h]
    · simp [h]
  show execLaneSteer x.lane s = _
  rw [execLaneSteer, if_neg (by omega), hn, hlanes, List.find?_cons_of_pos (by simp [hw])]
  dsimp only
  rw [hall, if_neg (by simp [hw])]
  simp only [List.map_cons, List.map_nil, if_true]
  rfl

theorem exec_laneSteerCheck_good (h : s.OneLane lane n x) (hw : x.waiting = false) (hj : x.judged = false) :
    exec (.laneSteerCheck lane true) s = .next ((({ s with errs := { s.errs with lanes := [{ x with judged := true }] } } : State).noteRepair).raise
      { cause := LANE_STEERED, die := fdDie (lane / 16), unit := lane, repaired := true }) := by
  obtain ⟨hl, hn, hlanes, rfl⟩ := h
  show execLaneSteerCheck x.lane true s = _
  rw [execLaneSteerCheck, if_neg (by omega), hn, hlanes, List.find?_cons_of_pos (by simp [hw, hj])]
  dsimp only
  rw [if_pos rfl, List.map_cons, List.map_nil, if_pos rfl]

theorem exec_laneSteerCheck_bad (h : s.OneLane lane n x) (hw : x.waiting = false) (hj : x.judged = false) :
    exec (.laneSteerCheck lane false) s = .next (((({ s with errs := { s.errs with lanes := [], soft := s.errs.soft.filter (fun r => r != Repair.lane lane) } } : State).setPort n
      { (s.port n) with retrain := some .steer, run := none }).clearLink n).raise { cause := LANE_EXTERNAL, die := fdDie (lane / 16), unit := lane }) := by
  obtain ⟨hl, hn, hlanes, rfl⟩ := h
  show execLaneSteerCheck x.lane false s = _
  rw [execLaneSteerCheck, if_neg (by omega), hn, hlanes, List.find?_cons_of_pos (by simp [hw, hj])]
  dsimp only
  rw [if_neg Bool.false_ne_true, List.filter_cons_of_neg (by simp), List.filter_nil]
  rfl

/-- A saved repair changes no lane. -/
theorem State.noteRepair_lanes (s : State) : s.noteRepair.errs.lanes = s.errs.lanes := by
  rw [State.noteRepair]
  split
  · rw [State.saveRepair]
    split
    · split
      · rfl
      · rfl
    · rfl
  · rfl

/-! ### Cages -/

@[simp] theorem State.cage_setCage_self (s : State) (c : Nat) (x : Cage) : (s.setCage c x).cage c = x := Sparse.get_set_self

theorem State.cage_setCage_ne (s : State) (x : Cage) {d : Nat} (h : d ≠ c) : (s.setCage c x).cage d = s.cage d := Sparse.get_set_ne h

/-- `t` has the cages and the time of `s`. -/
structure State.KeepsCages (s t : State) : Prop where
  cages : ∀ d, t.cage d = s.cage d
  time : t.frameTime = s.frameTime

theorem State.KeepsCages.trans (h : s.KeepsCages t) (h' : t.KeepsCages u) : s.KeepsCages u :=
  ⟨fun d => (h'.cages d).trans (h.cages d), h'.time.trans h.time⟩

theorem State.KeepsCages.refl (s : State) : s.KeepsCages s := ⟨fun _ => rfl, rfl⟩

theorem State.KeepsCages.setFld (s : State) (w : Nat) (f : Fld) (v : Nat) : s.KeepsCages (s.setFld w f v) :=
  ⟨fun d => State.cage_setFld .., by rw [State.frameTime, State.setFld_mer]; rfl⟩

theorem State.KeepsCages.setPort (s : State) (n : Nat) (x : Port) : s.KeepsCages (s.setPort n x) := ⟨fun _ => rfl, rfl⟩

theorem State.KeepsCages.raise (s : State) (r : ErrRec) : s.KeepsCages (s.raise r) :=
  ⟨fun d => State.cage_raise .., by rw [State.frameTime, State.raise_mer]; rfl⟩

theorem State.KeepsCages.ethStat (s : State) (n i k : Nat) : s.KeepsCages (s.ethStat n i k) := by
  refine ⟨fun d => by rw [State.cage, State.ethStat_net]; rfl, ?_⟩
  obtain h | h := s.ethStat_eq n i k <;> rw [h, State.frameTime]
  · rw [State.emit_mer, State.orFld_mer, State.setFld_mer]
    rfl
  · rw [State.setFld_mer]
    rfl

theorem State.KeepsCages.clearLink (s : State) (n : Nat) : s.KeepsCages (s.clearLink n) := by
  obtain ⟨hmer, -, -, hcages⟩ := s.clearLink_keeps n
  exact ⟨fun d => by rw [State.cage, hcages]; rfl, by rw [State.frameTime, hmer]; rfl⟩

theorem State.KeepsCages.updModule (s : State) (k : Nat) (f : ModuleRec → ModuleRec) : s.KeepsCages (s.updModule k f) := ⟨fun _ => rfl, rfl⟩

theorem State.KeepsCages.tspNote (s : State) (e : TspEvent) : s.KeepsCages (s.tspNote e) := ⟨fun _ => rfl, rfl⟩

theorem State.KeepsCages.linkDown (s : State) (n : Nat) : s.KeepsCages (s.linkDown n) := by
  have hlost : s.KeepsCages (((s.clearLink n).ethStat n 62 1).setFld n ETH_PORT_STATUS_LINK_CHG 1) :=
    ((State.KeepsCages.clearLink s n).trans (.ethStat ..)).trans (.setFld ..)
  rw [State.linkDown]
  split
  · exact .refl s
  · dsimp only
    split
    · exact (((hlost.trans (.setPort ..)).trans (.setFld ..)).trans (.setFld ..)).trans (.raise ..)
    · exact hlost.trans (.setPort ..)

/-- What a poll makes of a cage: the level it read, and the presence it accepts. -/
structure State.Polled (s t : State) (c : Nat) (here : Bool) : Prop where
  level : (t.cage c).level = here
  accepted : (s.cage c).level = here → (s.cage c).since + 100000000 ≤ s.frameTime → (t.cage c).accepted = here
  others : ∀ d, d ≠ c → t.cage d = s.cage d
  time : t.frameTime = s.frameTime

theorem State.moduleIn_spec (s : State) (c : Nat) (m : ModuleId) : ((s.moduleIn c m).cage c).level = (s.cage c).level ∧ ((s.moduleIn c m).cage c).accepted = true ∧
    (∀ d, d ≠ c → (s.moduleIn c m).cage d = s.cage d) ∧ (s.moduleIn c m).frameTime = s.frameTime := by
  have hset : ∀ (x : State) (y : Cage), s.KeepsCages x → y.level = (x.cage c).level → y.accepted = true → ∀ t, (x.setCage c y).KeepsCages t →
      (t.cage c).level = (s.cage c).level ∧ (t.cage c).accepted = true ∧ (∀ d, d ≠ c → t.cage d = s.cage d) ∧ t.frameTime = s.frameTime := by
    intro x y hx hl ha t ht
    refine ⟨?_, ?_, fun d hd => ?_, ht.time.trans hx.time⟩
    · rw [ht.cages, State.cage_setCage_self, hl, hx.cages]
    · rw [ht.cages, State.cage_setCage_self, ha]
    · rw [ht.cages, State.cage_setCage_ne _ _ hd, hx.cages]
  rw [State.moduleIn]
  dsimp only
  have hupd := State.KeepsCages.updModule s m.serial (fun r => { r with insertions := r.insertions + 1 })
  split
  · exact hset _ _ hupd (by rfl) (by rfl) _ (.raise ..)
  · split
    · exact hset _ _ hupd (by rfl) (by rfl) _ (.raise ..)
    · exact hset _ _ hupd (by rfl) (by rfl) _ (.refl _)

theorem State.moduleOut_spec (s : State) (c : Nat) : ((s.moduleOut c).cage c).level = (s.cage c).level ∧ ((s.moduleOut c).cage c).accepted = false ∧
    (∀ d, d ≠ c → (s.moduleOut c).cage d = s.cage d) ∧ (s.moduleOut c).frameTime = s.frameTime := by
  generalize hx : s.setCage c { s.cage c with accepted := false, module := none, on := false, app := none, mon := none } = x
  have hsave : x.KeepsCages x.saveModules := by
    rw [State.saveModules]
    split
    · exact ⟨fun _ => rfl, rfl⟩
    · exact .refl x
  have hout : x.KeepsCages (s.moduleOut c) := by
    rw [State.moduleOut, hx]
    split
    · exact (hsave.trans (.linkDown ..)).trans (.setPort ..)
    · exact hsave
  subst hx
  refine ⟨?_, ?_, fun d hd => ?_, hout.time⟩
  · rw [hout.cages, State.cage_setCage_self]
  · rw [hout.cages, State.cage_setCage_self]
  · rw [hout.cages, State.cage_setCage_ne _ _ hd]

theorem State.pollCage_spec (s : State) (c : Nat) (here : Bool) (m : Option ModuleId) : s.Polled (s.pollCage c here m) c here := by
  generalize hsince : (if (s.cage c).level = here then (s.cage c).since else s.frameTime) = since
  generalize hx : s.setCage c { s.cage c with level := here, since := since } = x
  have hxc : x.cage c = { s.cage c with level := here, since := since } := by rw [← hx, State.cage_setCage_self]
  have hxd : ∀ d, d ≠ c → x.cage d = s.cage d := fun d hd => by rw [← hx, State.cage_setCage_ne _ _ hd]
  have hxt : x.frameTime = s.frameTime := by rw [← hx]; rfl
  rw [State.pollCage]
  dsimp only
  rw [hsince, hx]
  split
  · rename_i hsame
    refine ⟨by rw [hxc], fun hl ht => ?_, hxd, hxt⟩
    rw [if_pos hl] at hsince
    rw [hxc]
    rcases hsame with h | h
    · omega
    · exact h
  · generalize hy : State.tspNote _ (.module c (b01 here)) = y
    have hkeep : x.KeepsCages y := by
      rw [← hy]
      refine State.KeepsCages.trans ?_ (.tspNote ..)
      split
      · exact .setFld ..
      · exact .refl x
    have hyd : ∀ d, d ≠ c → y.cage d = s.cage d := fun d hd => (hkeep.cages d).trans (hxd d hd)
    have hyl : (y.cage c).level = here := by rw [hkeep.cages, hxc]
    have hyt : y.frameTime = s.frameTime := hkeep.time.trans hxt
    split
    · obtain ⟨hl, ha, hd, ht⟩ := State.moduleIn_spec y c ‹ModuleId›
      exact ⟨hl.trans hyl, fun _ _ => ha, fun d hne => (hd d hne).trans (hyd d hne), ht.trans hyt⟩
    · refine ⟨?_, fun _ _ => ?_, fun d hne => ?_, hyt⟩
      · rw [State.cage_setCage_self, hyl]
      · rw [State.cage_setCage_self]
      · rw [State.cage_setCage_ne _ _ hne, hyd d hne]
    · obtain ⟨hl, ha, hd, ht⟩ := y.moduleOut_spec c
      exact ⟨hl.trans hyl, fun _ _ => ha, fun d hne => (hd d hne).trans (hyd d hne), ht.trans hyt⟩

/-- A poll of every cage of a list makes of each what a poll of it alone makes. -/
theorem State.foldl_pollCage (f : Nat → Bool) (g : Nat → Option ModuleId) (l : List Nat) (hl : l.Nodup) (s : State) :
    (∀ c ∈ l, ((l.foldl (fun s c => s.pollCage c (f c) (g c)) s).cage c).level = f c ∧
      ((s.cage c).level = f c → (s.cage c).since + 100000000 ≤ s.frameTime → ((l.foldl (fun s c => s.pollCage c (f c) (g c)) s).cage c).accepted = f c)) ∧
      ∀ c, c ∉ l → (l.foldl (fun s c => s.pollCage c (f c) (g c)) s).cage c = s.cage c := by
  induction l generalizing s with
  | nil => exact ⟨fun c hc => absurd hc (by simp), fun _ _ => rfl⟩
  | cons a l ih =>
    obtain ⟨ha, hl⟩ := List.nodup_cons.mp hl
    obtain ⟨hlevel, haccepted, hothers, htime⟩ := s.pollCage_spec a (f a) (g a)
    obtain ⟨hin, hout⟩ := ih hl (s.pollCage a (f a) (g a))
    rw [List.foldl_cons]
    refine ⟨fun c hc => ?_, fun c hc => ?_⟩
    · rcases List.mem_cons.mp hc with rfl | hc
      · rw [hout c ha]
        exact ⟨hlevel, haccepted⟩
      · obtain ⟨hl', ha'⟩ := hin c hc
        rw [hothers c (fun h => ha (h ▸ hc)), htime] at ha'
        exact ⟨hl', ha'⟩
    · rw [hout c (fun h => hc (List.mem_cons_of_mem _ h)), hothers c (fun h => hc (h ▸ List.mem_cons_self))]

theorem exec_moduleMonitorRead {temp : Int} {mon : ModuleMon} {alarm hour : Bool} (hc : c < 32) (hm : (s.cage c).module = some m)
    (hu : u = (s.setCage c { (s.cage c) with mon := some (temp, mon) }).updModule m.serial (fun r => { r with
      hours := if hour = true ∧ (s.cage c).on = true then r.hours + 1 else r.hours
      maxTemp := some (r.maxTemp.elim temp (max temp))
      firstBias := if r.firstBias = [] then mon.bias else r.firstBias
      lastBias := mon.bias })) :
    exec (.moduleMonitorRead c temp mon alarm hour) s = .next (if alarm = true then
      u.raise { cause := MODULE_ALARM, die := 12, unit := (u.cagePort c).getD 0xFFFF, aux := c } else u) := by
  show execModuleMonitorRead c temp mon alarm hour s = _
  rw [execModuleMonitorRead, if_neg (by omega), hm, hu]

end

/-- Settles O43: a lane by the list of lanes and its port's status, a module by its cage. The UNIT and AUX of MODULE_ALARM are DEDUCED (log 140), and so is the acceptance
of a presence (log 76). -/
theorem lanesAndModules : Obligations.LanesAndModules := by
  unfold Obligations.LanesAndModules
  intro s u lane n syms nbits cw corr uncorr cage x m mon seen ids temp alarm hour
  refine ⟨exec_laneBerSample, fun hl hn hlanes hx hw hmay => ?_, fun hl hn hlanes hx hw hj => ⟨?_, ?_⟩, exec_moduleMonitorRead, ?_⟩
  · obtain ⟨hre, hlink, herrs⟩ := State.steer_spec ({ s with errs := { s.errs with lanes := [{ x with waiting := false }], soft := s.errs.soft ++ [Repair.lane lane] } } : State) n _ rfl
    exact ⟨_, exec_laneSteer ⟨hl, hn, hlanes, hx⟩ hw hmay, hre, hlink, congrArg ErrState.lanes herrs⟩
  · refine ⟨_, exec_laneSteerCheck_good ⟨hl, hn, hlanes, hx⟩ hw hj, ?_⟩
    rw [State.raise_lanes, State.noteRepair_lanes]
  · obtain ⟨hre, hlink, herrs⟩ := State.steer_spec ({ s with errs := { s.errs with lanes := [], soft := s.errs.soft.filter (fun r => r != Repair.lane lane) } } : State) n _ rfl
    have hlt := State.portOfLane_lt hl hn
    refine ⟨_, exec_laneSteerCheck_bad ⟨hl, hn, hlanes, hx⟩ hw hj, ?_, ?_, ?_⟩
    · rw [State.raise_lanes]
      exact congrArg ErrState.lanes herrs
    · rw [State.port_raise]
      exact hre
    · rw [State.fld_raise _ _ (by omega) (by decide)]
      exact hlink
  · have hexec : exec (.moduleBusPoll seen ids) s = .next ((List.range 32).foldl (fun s c => s.pollCage c (seen.contains c) ((ids.find? (fun i => i.1 == c)).map Prod.snd)) s) := rfl
    obtain ⟨hin, -⟩ := State.foldl_pollCage (fun c => seen.contains c) (fun c => (ids.find? (fun i => i.1 == c)).map Prod.snd) (List.range 32) List.nodup_range s
    exact ⟨_, hexec, fun c hc => (hin c (List.mem_range.mpr hc)).1, fun c hc => (hin c (List.mem_range.mpr hc)).2⟩

end Sys2Proof.Machine
end

section
/-! Packets received from a link (O44) (R477–R486). -/
namespace Sys2Proof.Machine

section
variable {s u w : State} {port cum sack ce st : Nat} {p : NdxPkt} {l m : Link} {k : RxKey}

/-- A count of packets leaves the time. -/
theorem State.ndxCnt_frameTime (s : State) (i k : Nat) : (s.ndxCnt i k).frameTime = s.frameTime := by
  rw [State.ndxCnt, State.frameTime, State.frameTime]
  split
  · rw [State.emit_mer, State.orFld_mer, State.setFld_mer]
  · rw [State.setFld_mer]

/-- A packet of a type that links carry. -/
structure CarriedPacket (p : NdxPkt) (port : Nat) : Prop where
  port_lt : port < 64
  lo : 1 ≤ p.type
  hi : p.type ≤ 4

theorem exec_packet_badType (h : CarriedPacket p port) (hl : s.net.links.find? (fun l => l.dlid == p.dlid && l.keyed && !l.lost) = none) (hb : p.body.type ≠ p.type) :
    exec (.ndeyxPacketReceived port p) s = .next ((s.rxFree port 0).count { unit := srvStw, event := 0xA2, priv := 1 }) := by
  obtain ⟨hport, hlo, hhi⟩ := h
  show execNdeyxPacketReceived port p s = _
  rw [execNdeyxPacketReceived, onPort, if_pos hport, hl]
  dsimp only
  rw [if_neg (by omega), if_pos (.inr hb)]

theorem exec_packet_noLink (h : CarriedPacket p port) (hl : s.net.links.find? (fun l => l.dlid == p.dlid && l.keyed && !l.lost) = none) (hb : p.body.type = p.type) :
    exec (.ndeyxPacketReceived port p) s = .next ((s.rxFree port 0).ndxCnt 5 1) := by
  obtain ⟨hport, hlo, hhi⟩ := h
  show execNdeyxPacketReceived port p s = _
  rw [execNdeyxPacketReceived, onPort, if_pos hport, hl]
  dsimp only
  rw [if_neg (by omega), if_neg (by omega)]

/-- A packet that names a link in use, by its own type. -/
structure State.LinkPacket (s : State) (port : Nat) (p : NdxPkt) (l : Link) : Prop extends CarriedPacket p port where
  found : s.net.links.find? (fun l => l.dlid == p.dlid && l.keyed && !l.lost) = some l
  type : p.body.type = p.type

theorem exec_packet_version (h : s.LinkPacket port p l) (hv : p.ver ≠ l.ver) :
    exec (.ndeyxPacketReceived port p) s = .next ((s.rxFree port l.prov).count { unit := srvStw, event := 0xA2, prov := l.prov, priv := 1 }) := by
  obtain ⟨⟨hport, hlo, hhi⟩, hl, hb⟩ := h
  show execNdeyxPacketReceived port p s = _
  rw [execNdeyxPacketReceived, onPort, if_pos hport, hl]
  dsimp only
  rw [if_neg (by omega), if_neg (by omega), if_pos hv]

theorem exec_packet_ranks (h : s.LinkPacket port p l) (hv : p.ver = l.ver) (hr : (s.rxFree port l.prov).ranksOk l p = false) :
    exec (.ndeyxPacketReceived port p) s = .next ((s.rxFree port l.prov).ndxCnt 5 1) := by
  obtain ⟨⟨hport, hlo, hhi⟩, hl, hb⟩ := h
  show execNdeyxPacketReceived port p s = _
  rw [execNdeyxPacketReceived, onPort, if_pos hport, hl]
  dsimp only
  rw [if_neg (by omega), if_neg (by omega), if_neg (fun h => h hv), if_pos (by rw [hr]; rfl)]

/-- A packet with its link's version and ranks. -/
structure State.RankedPacket (s : State) (port : Nat) (p : NdxPkt) (l : Link) : Prop extends s.LinkPacket port p l where
  ver : p.ver = l.ver
  ranks : (s.rxFree port l.prov).ranksOk l p = true

theorem exec_packet_noKey (h : s.RankedPacket port p l) (hk : l.rxKey p.kphase = none) :
    exec (.ndeyxPacketReceived port p) s = .next ((s.rxFree port l.prov).authFail l) := by
  obtain ⟨⟨⟨hport, hlo, hhi⟩, hl, hb⟩, hv, hr⟩ := h
  show execNdeyxPacketReceived port p s = _
  rw [execNdeyxPacketReceived, onPort, if_pos hport, hl]
  dsimp only
  rw [if_neg (by omega), if_neg (by omega), if_neg (fun h => h hv), if_neg (by rw [hr]; decide), hk]
  rfl

theorem exec_packet_replay (h : s.RankedPacket port p l) (hk : l.rxKey p.kphase = some k) (hw : k.passes p.pn = false) :
    exec (.ndeyxPacketReceived port p) s = .next ((s.rxFree port l.prov).ndxCnt 4 1) := by
  obtain ⟨⟨⟨hport, hlo, hhi⟩, hl, hb⟩, hv, hr⟩ := h
  show execNdeyxPacketReceived port p s = _
  rw [execNdeyxPacketReceived, onPort, if_pos hport, hl]
  dsimp only
  rw [if_neg (by omega), if_neg (by omega), if_neg (fun h => h hv), if_neg (by rw [hr]; decide), hk]
  refine if_pos ?_
  show (!k.passes p.pn) = true
  rw [hw]
  rfl

theorem exec_packet_badTag (h : s.RankedPacket port p l) (hk : l.rxKey p.kphase = some k) (hw : k.passes p.pn = true) (ht : p.tagOk = false) :
    exec (.ndeyxPacketReceived port p) s = .next ((s.rxFree port l.prov).authFail l) := by
  obtain ⟨⟨⟨hport, hlo, hhi⟩, hl, hb⟩, hv, hr⟩ := h
  show execNdeyxPacketReceived port p s = _
  rw [execNdeyxPacketReceived, onPort, if_pos hport, hl]
  dsimp only
  rw [if_neg (by omega), if_neg (by omega), if_neg (fun h => h hv), if_neg (by rw [hr]; decide), hk]
  have hwin : ¬ (!k.passes p.pn) = true := by rw [hw]; decide
  exact (if_neg hwin).trans (if_pos (.inr (by rw [ht]; rfl)))

/-- A packet whose number is in the window of its key, and whose tag holds. -/
structure State.AuthPacket (s : State) (port : Nat) (p : NdxPkt) (l : Link) (k : RxKey) : Prop extends s.RankedPacket port p l where
  key : l.rxKey p.kphase = some k
  window : k.passes p.pn = true
  tag : p.tagOk = true

theorem exec_packet_otherEpoch (h : s.AuthPacket port p l k) (he : p.epoch ≠ (s.rxFree port l.prov).linkEpoch l) :
    exec (.ndeyxPacketReceived port p) s = .next ((s.rxFree port l.prov).ndxCnt 6 1) := by
  obtain ⟨⟨⟨⟨hport, hlo, hhi⟩, hl, hb⟩, hv, hr⟩, hk, hw, ht⟩ := h
  show execNdeyxPacketReceived port p s = _
  rw [execNdeyxPacketReceived, onPort, if_pos hport, hl]
  dsimp only
  rw [if_neg (by omega), if_neg (by omega), if_neg (fun h => h hv), if_neg (by rw [hr]; decide), hk]
  have hwin : ¬ (!k.passes p.pn) = true := by rw [hw]; decide
  exact (if_neg hwin).trans ((if_neg (by rw [ht]; simp)).trans (if_pos he))

/-- The state in which a packet that passed its checks is noted at its link: the replay window, its path, and the peer's Meridian state. -/
def State.packetNoted (u : State) (l : Link) (p : NdxPkt) : State :=
  ((u.ndxCnt 1 1).ndxCnt 7 (b01 p.ce)).updLink l.prov l.peer (fun x => { (x.noteKey p.kphase p.pn) with
    mer := p.mer
    paths := if x.paths.contains p.path = true then x.paths else x.paths ++ [p.path]
    heard := Sparse.set 0 x.heard p.path u.frameTime })

/-- What a packet that passed its checks does, by its body. -/
def State.packetDone (w : State) (l : Link) (p : NdxPkt) : Res :=
  match p.body with
  | .ack cum sack _ st => .next ((w.updLink l.prov l.peer (fun l => l.acked cum sack st)).cutOwn l.prov)
  | .keepalive => .next w
  | _ => match w.link l.prov l.peer with
    | some l => .next (w.rxData l p)
    | none => .next w

theorem exec_packet_taken (h : s.AuthPacket port p l k) (he : p.epoch = (s.rxFree port l.prov).linkEpoch l) :
    exec (.ndeyxPacketReceived port p) s = ((s.rxFree port l.prov).packetNoted l p).packetDone l p := by
  obtain ⟨⟨⟨⟨hport, hlo, hhi⟩, hl, hb⟩, hv, hr⟩, hk, hw, ht⟩ := h
  have htime : ((((s.rxFree port l.prov).ndxCnt 1 1).ndxCnt 7 (b01 p.ce)).frameTime) = (s.rxFree port l.prov).frameTime := by
    rw [State.ndxCnt_frameTime, State.ndxCnt_frameTime]
  show execNdeyxPacketReceived port p s = _
  rw [execNdeyxPacketReceived, onPort, if_pos hport, hl]
  dsimp only
  rw [if_neg (by omega), if_neg (by omega), if_neg (fun h => h hv), if_neg (by rw [hr]; decide), hk]
  have hwin : ¬ (!k.passes p.pn) = true := by rw [hw]; decide
  refine (if_neg hwin).trans ((if_neg (by rw [ht]; simp)).trans ((if_neg (fun h => h he)).trans ?_))
  rw [htime, ← State.packetNoted]
  rfl

/-- DATA and CONTROL join their stream. -/
theorem State.packetDone_data (hb : p.body.type = p.type) (ht : p.type = 1 ∨ p.type = 4) (hm : w.link l.prov l.peer = some m) : w.packetDone l p = .next (w.rxData m p) := by
  rw [State.packetDone]
  split
  · rename_i hbody
    rw [hbody, NdxBody.type] at hb
    omega
  · rename_i hbody
    rw [hbody, NdxBody.type] at hb
    omega
  · rw [hm]

end

/-- Settles O44: the first check that fails ends the rule; a packet that passes is noted at its link and acts by its body. Which count a bad version or type moves, and what
counts as an unknown link or a failure of the tag, is DEDUCED (log 82). -/
theorem packetsAreCheckedInOrder : Obligations.PacketsAreCheckedInOrder := by
  unfold Obligations.PacketsAreCheckedInOrder
  intro s u w port cum sack ce st p l m k hport hlo hhi
  have hcarried : CarriedPacket p port := ⟨hport, hlo, hhi⟩
  refine ⟨fun hl => ⟨exec_packet_badType hcarried hl, exec_packet_noLink hcarried hl⟩, fun hl hu hb => ?_⟩
  subst hu
  have hlink : s.LinkPacket port p l := ⟨hcarried, hl, hb⟩
  refine ⟨exec_packet_version hlink, exec_packet_ranks hlink, fun hv hr hk => exec_packet_noKey ⟨hlink, hv, hr⟩ hk, fun hv hr hk => ?_⟩
  have hranked : s.RankedPacket port p l := ⟨hlink, hv, hr⟩
  refine ⟨exec_packet_replay hranked hk, exec_packet_badTag hranked hk, fun hw ht he => exec_packet_otherEpoch ⟨hranked, hk, hw, ht⟩ he, fun hw ht he hnoted => ?_⟩
  have htaken := exec_packet_taken ⟨hranked, hk, hw, ht⟩ he
  rw [State.packetNoted, ← hnoted] at htaken
  refine ⟨fun hbody => ?_, fun hbody => ?_, fun ht hm => ?_⟩
  · rw [htaken, State.packetDone, hbody]
  · rw [htaken, State.packetDone, hbody]
  · rw [htaken, State.packetDone_data hb ht hm]

end Sys2Proof.Machine
end

section
/-! The timers of a link (O45) (R484–R490). -/
namespace Sys2Proof.Machine

section
variable {s : State} {prov peer stream psn port sack : Nat} {l : Link} {k : TxPkt} {r : RxStream}

/-- A time at or before the frame's start may have passed by its end. -/
theorem State.mayBe_of_le {t : Nat} (h : t ≤ s.frameTime) : s.mayBe t = true := by
  rw [State.mayBe]
  exact decide_eq_true (by omega)

theorem State.ackDue_of (hf : r.fresh ≠ 0) (h : s.fld 0 NDX_RELY_ACK_EVERY ≤ r.fresh ∨ r.ask = true ∨ r.since + s.fld 0 NDX_RELY_ACK_US * 1000 ≤ s.frameTime) :
    s.ackDue r = true := by
  rw [State.ackDue]
  rcases h with h | h | h
  · simp [hf, h]
  · simp [hf, h]
  · simp [hf, State.mayBe_of_le h]

theorem exec_ackSend (hl : s.link prov peer = some l) (hr : r = Sparse.get RxStream.init l.rx stream) (hk : l.keyed = true) (hlost : l.lost = false) (hdue : s.ackDue r = true)
    (hsack : sack = (if l.ver = 1 then 0 else r.held.foldl (fun n x => if 1 ≤ psnDist x.1 r.next ∧ psnDist x.1 r.next ≤ 64 then n ||| 2 ^ (psnDist x.1 r.next - 1) else n) 0)) :
    exec (.ackSend prov peer stream) s = .next (s.updLink prov peer (fun x => { x with
      acks := x.acks ++ [(none, .ack r.next sack r.ce stream)]
      rx := Sparse.set RxStream.init x.rx stream { r with fresh := 0, ce := 0, since := 0, ask := false } })) := by
  show execAckSend prov peer stream s = _
  rw [execAckSend, hl]
  dsimp only
  rw [← hr, if_neg (by rw [hk, hlost, hdue]; decide), hsack]

/-- A packet that was sent and whose timeout can have passed. -/
structure State.TimedOut (s : State) (prov peer stream psn : Nat) (l : Link) (k : TxPkt) : Prop where
  link : s.link prov peer = some l
  pkt : l.pkt stream psn = some k
  inUse : l.lost = false
  sent : k.due = false
  port : k.port.isSome = true
  time : s.mayBe (k.sentAt + s.fld 0 NDX_RELY_RTO_US * 1000 * min 64 (2 ^ k.retries)) = true

theorem State.TimedOut.not_idle (h : s.TimedOut prov peer stream psn l k) : ¬ (l.lost = true ∨ k.due = true ∨ k.port.isNone = true ∨
    (!s.mayBe (k.sentAt + s.fld 0 NDX_RELY_RTO_US * 1000 * min 64 (2 ^ k.retries))) = true) := by
  obtain ⟨-, -, hlost, hdue, hport, htime⟩ := h
  rw [hlost, hdue, htime]
  rintro (h | h | h | h)
  · exact Bool.false_ne_true h
  · exact Bool.false_ne_true h
  · rw [Option.isNone_iff_eq_none] at h
    rw [h] at hport
    exact Bool.false_ne_true hport
  · exact absurd h (by decide)

theorem exec_retransmitTimeout_spent (h : s.TimedOut prov peer stream psn l k) (hr : max 1 (s.fld 0 NDX_RELY_RETRY_LIMIT) ≤ k.retries + 1) :
    exec (.retransmitTimeout prov peer stream psn) s = .next (s.loseLink prov peer) := by
  have hidle := h.not_idle
  obtain ⟨hl, hk, -, -, -, -⟩ := h
  show execRetransmitTimeout prov peer stream psn s = _
  rw [execRetransmitTimeout, hl]
  dsimp only
  rw [hk]
  exact (if_neg hidle).trans (if_pos hr)

theorem exec_retransmitTimeout_again (h : s.TimedOut prov peer stream psn l k) (hr : k.retries + 1 < max 1 (s.fld 0 NDX_RELY_RETRY_LIMIT)) :
    exec (.retransmitTimeout prov peer stream psn) s = .next (s.updLink prov peer (fun x => { x with
      tx := Sparse.set TxStream.init x.tx stream { (Sparse.get TxStream.init l.tx stream) with
        pkts := (Sparse.get TxStream.init l.tx stream).pkts.map (fun (y : TxPkt) =>
          if y.psn = psn then { y with due := true, retries := y.retries + 1 }
          else if l.ver = 1 ∧ y.port.isSome = true then { y with due := true } else y) } })) := by
  have hidle := h.not_idle
  obtain ⟨hl, hk, -, -, -, -⟩ := h
  show execRetransmitTimeout prov peer stream psn s = _
  rw [execRetransmitTimeout, hl]
  dsimp only
  rw [hk]
  exact (if_neg hidle).trans (if_neg (by omega))

theorem exec_ndeyxLinkLost (hl : s.link prov peer = some l) (hlost : l.lost = false) (hdue : s.lossDue l = true) :
    exec (.ndeyxLinkLost prov peer) s = .next (s.loseLink prov peer) := by
  show execNdeyxLinkLost prov peer s = _
  rw [execNdeyxLinkLost, hl]
  dsimp only
  rw [if_neg (by rw [hlost, hdue]; decide)]

theorem exec_keepaliveSend (hl : s.link prov peer = some l) (hp : port < 64) (hup : s.fld port ETH_PORT_STATUS_LINK = 1) (hk : l.keyed = true) (hlost : l.lost = false)
    (hparking : s.fld port ETH_PORT_STATUS_POWER ≠ PW_PARKING) (hparked : s.fld port ETH_PORT_STATUS_POWER ≠ PW_PARKED)
    (htime : s.mayBe (Sparse.get 0 l.spoke port + s.fld 0 NDX_LIVE_KA_US * 1000) = true) (hpath : (s.linkPorts l).contains port = true) :
    exec (.keepaliveSend prov peer port) s = .next (s.updLink prov peer (fun x => { x with acks := x.acks ++ [(some port, .keepalive)] })) := by
  show execKeepaliveSend prov peer port s = _
  rw [execKeepaliveSend, onPort, if_pos hp, hl]
  dsimp only
  rw [if_neg (by rw [hk, hlost, htime, hup, hpath]; simp [hparking, hparked])]

theorem exec_pathSilenceTimeout (hl : s.link prov peer = some l) (hp : port < 64) (hup : s.fld port ETH_PORT_STATUS_LINK = 1) (hactive : s.fld port ETH_PORT_STATUS_POWER = PW_ACTIVE)
    (htime : s.mayBe (Sparse.get 0 l.heard port + 4 * s.fld 0 NDX_LIVE_KA_US * 1000) = true) :
    exec (.pathSilenceTimeout prov peer port) s = .next (s.updLink prov peer (fun x => x.dropPath port)) := by
  show execPathSilenceTimeout prov peer port s = _
  rw [execPathSilenceTimeout, onPort, if_pos hp, hl]
  refine if_neg ?_
  rw [hup, hactive]
  rintro (h | h | h)
  · exact absurd h (by decide)
  · exact h rfl
  · rw [Option.map_some, Option.getD_some, htime] at h
    exact absurd h (by decide)

end

/-- Settles O45: each timer acts once its condition holds and its time can have passed. That a time counts as passed when it can have passed by the end of the frame is
DESIGN CHOICE (log 7), the count of the retries log 86. -/
theorem linksRetransmitAndStayAlive : Obligations.LinksRetransmitAndStayAlive := by
  unfold Obligations.LinksRetransmitAndStayAlive
  intro s prov peer stream psn port sack l k r hl
  refine ⟨exec_ackSend hl, State.ackDue_of, fun hk hlost hdue hport htime => ?_, exec_ndeyxLinkLost hl,
    fun hp hup => ⟨exec_keepaliveSend hl hp hup, exec_pathSilenceTimeout hl hp hup⟩⟩
  have htimed : s.TimedOut prov peer stream psn l k := ⟨hl, hk, hlost, hdue, hport, htime⟩
  exact ⟨exec_retransmitTimeout_spent htimed, exec_retransmitTimeout_again htimed⟩

end Sys2Proof.Machine
end

section
/-! Handshakes, renewal of keys, and MACsec (O46) (R487–R495, R470–R474). -/
namespace Sys2Proof.Machine

section
variable {s u : State} {devid prov peer port n : Nat} {l : Link} {mp : MkaPeer}

/-! ### HELLO -/

/-- A control link whose lower end is this one and has a port to leave on. -/
structure State.SaysHello (s : State) (devid n : Nat) (l : Link) : Prop where
  link : s.link 0 devid = some l
  lower : s.lowerEnd l = true
  port : s.hsPort devid = some n

theorem exec_hello (h : s.SaysHello devid n l) (hw : l.wantsKeys = true) (hh : l.hellos < 50) : exec (.hello devid) s = .next (s.sendHello devid) := by
  obtain ⟨hl, hlow, hp⟩ := h
  show execHello devid s = _
  rw [execHello, hl]
  refine if_neg ?_
  rw [hw, hlow, hp]
  rintro (h | h | h | h)
  · exact absurd h (by decide)
  · exact absurd h (by decide)
  · omega
  · exact absurd h (by simp)

theorem exec_masterRekeyTimer (h : s.SaysHello devid n l) (hk : l.keyed = true) (hh : l.handshaking = false) :
    exec (.masterRekeyTimer devid) s = .next ((s.updLink 0 devid (fun x => { x with hellos := 0 })).sendHello devid) := by
  obtain ⟨hl, hlow, hp⟩ := h
  show execMasterRekeyTimer devid s = _
  rw [execMasterRekeyTimer, hl]
  exact if_neg (by rw [hk, hh, hlow, hp]; simp)

theorem exec_handshakeRetryTimer_again (h : s.SaysHello devid n l) (hw : l.wantsKeys = true) (hh : 50 < l.hellos) :
    exec (.handshakeRetryTimer devid) s = .next (s.sendHello devid) := by
  obtain ⟨hl, hlow, hp⟩ := h
  show execHandshakeRetryTimer devid s = _
  rw [execHandshakeRetryTimer, hl]
  dsimp only
  rw [if_neg (by rw [hw, hlow]; simp; omega), if_neg (show ¬ l.hellos = 50 by omega), if_pos (by rw [hp]; rfl)]

theorem exec_handshakeRetryTimer_fails (h : s.SaysHello devid n l) (hw : l.wantsKeys = true) (hh : l.hellos = 50)
    (hu : u = (s.setFld 0 NDX_STATUS_HS_FAIL 1).raise { cause := HANDSHAKE_FAIL, die := 12, aux := devid }) (hp : (u.hsPort devid).isSome = true) :
    exec (.handshakeRetryTimer devid) s = .next (u.sendHello devid) := by
  obtain ⟨hl, hlow, -⟩ := h
  show execHandshakeRetryTimer devid s = _
  rw [execHandshakeRetryTimer, hl]
  dsimp only
  rw [if_neg (by rw [hw, hlow]; simp; omega), if_pos hh, ← hu, if_pos hp]

theorem State.sendHello_eq (hl : s.link 0 devid = some l) :
    s.sendHello devid = (s.updLink 0 devid (fun x => { x with handshaking := true, hellos := x.hellos + 1 })).updLink 0 devid (fun x => { x with
      hsOut := x.hsOut ++ [.hello (s.fld 0 NDX_CTRL_VER_MIN) (s.fld 0 NDX_CTRL_VER_MAX) l.dlid true] }) := by
  rw [State.sendHello, hl]
  rfl

/-! ### Renewal -/

/-- A link in use whose keys are due. -/
structure State.RenewsKeys (s : State) (prov peer : Nat) (l : Link) : Prop where
  link : s.link prov peer = some l
  keyed : l.keyed = true
  inUse : l.lost = false
  idle : l.renewing = false
  due : s.keyDue l = true

theorem exec_keyRenewalDue (h : s.RenewsKeys prov peer l) :
    exec (.keyRenewalDue prov peer) s = .next (if s.lowerEnd l then s.startRenewal l else s.updLink prov peer (fun x => x.post 0 none .rekeyReq)) := by
  obtain ⟨hl, hk, hlost, hre, hdue⟩ := h
  show execKeyRenewalDue prov peer s = _
  rw [execKeyRenewalDue, hl]
  dsimp only
  rw [if_neg (by rw [hk, hlost, hre, hdue]; decide)]
  exact (apply_ite Host.Outcome.next _ _ _).symm

/-! ### MACsec -/

theorem exec_mkaHello (hp : port < 64) (hen : s.fld port ETH_PORT_CTRL_MACSEC_EN = 1) (hcak : s.fld 0 (NDX_MSEC_CTRL_CAK_VALID port) = 1)
    (hlink : s.fld port ETH_PORT_STATUS_LINK = 1) (hsec : s.fld 0 (NDX_MSEC_CTRL_SECURE port) = 0) :
    exec (.mkaHello port (some mp)) s = .next ((((s.emit (.mka port)).setPort port { (s.port port) with keyServer := s.winsBid port mp }).newSak port).setFld 0
      (NDX_MSEC_CTRL_SECURE port) 1) := by
  show execMkaHello port (some mp) s = _
  rw [execMkaHello, onPort, if_pos hp, if_neg (by rw [hen, hcak, hlink]; decide)]
  have hregs : ∀ (w : Nat) (f : Fld), (s.emit (.mka port)).fld w f = s.fld w f := State.fld_congr (State.emit_regs ..)
  have hport : (s.emit (.mka port)).port port = s.port port := rfl
  have hbid : (s.emit (.mka port)).winsBid port mp = s.winsBid port mp := by rw [State.winsBid, State.winsBid, hregs, hregs]
  dsimp only
  rw [State.fld_setPort, hregs, if_pos hsec, hbid, hport]

theorem exec_mkaLifeExpire (hp : port < 64) (hen : s.fld port ETH_PORT_CTRL_MACSEC_EN = 1) :
    exec (.mkaLifeExpire port) s = .next ((s.setFld 0 (NDX_MSEC_CTRL_SECURE port) 0).pathsDown port) := by
  show execMkaLifeExpire port s = _
  rw [execMkaLifeExpire, onPort, if_pos hp, if_neg (by rw [hen]; decide)]

/-- No link has a path that was taken down. -/
theorem State.notMem_paths_pathsDown (s : State) (n : Nat) : ∀ x ∈ (s.pathsDown n).net.links, n ∉ x.paths := by
  intro x hx
  obtain ⟨l, -, rfl⟩ := List.mem_map.mp hx
  simp [Link.dropPath]

theorem exec_sakRenewal (hp : port < 64) (hsec : s.fld 0 (NDX_MSEC_CTRL_SECURE port) = 1) (hserver : (s.port port).keyServer = true)
    (hpn : 0xC000000000000000 ≤ (s.port port).mtx) : exec (.sakRenewal port) s = .next ((s.newSak port).emit (.mka port)) := by
  show execSakRenewal port s = _
  rw [execSakRenewal, onPort, if_pos hp, if_neg]
  rw [hsec, hserver]
  rintro (h | h | h)
  · exact absurd h (by decide)
  · exact absurd h (by decide)
  · omega

end

/-- Settles O46: each event of a handshake or a key by its rule. The DLID in HELLO is DEDUCED (log 81), the bids for the key server are PRESUMED (log 85), and the AUX of
HANDSHAKE_FAIL is DEDUCED (log 140). -/
theorem keysAreAgreedAndRenewed : Obligations.KeysAreAgreedAndRenewed := by
  unfold Obligations.KeysAreAgreedAndRenewed
  intro s u devid prov peer port n l mp
  refine ⟨fun hl hlow hp => ?_, fun hl hk hlost hre hdue => ⟨fun hlow => ?_, fun hlow => ?_⟩, rfl, fun hp hen => ⟨fun hcak hlink hsec => ?_, ?_, fun hsec hserver hpn => ?_⟩⟩
  · have hsays : s.SaysHello devid n l := ⟨hl, hlow, hp⟩
    exact ⟨exec_hello hsays, exec_masterRekeyTimer hsays, exec_handshakeRetryTimer_again hsays, exec_handshakeRetryTimer_fails hsays, State.sendHello_eq hl⟩
  · rw [exec_keyRenewalDue ⟨hl, hk, hlost, hre, hdue⟩, if_pos hlow]
  · rw [exec_keyRenewalDue ⟨hl, hk, hlost, hre, hdue⟩, if_neg (by rw [hlow]; exact Bool.false_ne_true)]
  · refine ⟨_, exec_mkaHello hp hen hcak hlink hsec, ?_, ?_, ?_, ?_⟩
    · rw [State.port_setFld, State.newSak, State.port_setPort_self, State.port_setPort_self]
    · exact State.fld_setFld_self _ 0 (NDX_MSEC_CTRL_SECURE port) 1 (by decide : 9 + 1 ≤ 64)
    · rw [State.port_setFld, State.newSak, State.port_setPort_self, State.port_setPort_self]
    · rw [State.setFld_sent]
      rfl
  · exact ⟨_, exec_mkaLifeExpire hp hen, State.fld_setFld_self s 0 (NDX_MSEC_CTRL_SECURE port) 0 (by decide : 9 + 1 ≤ 64), State.notMem_paths_pathsDown _ port⟩
  · refine ⟨_, exec_sakRenewal hp hsec hserver hpn, ?_, ?_, by rw [State.emit_sent]; rfl⟩
    · rw [State.port, State.emit_net _ rfl, ← State.port, State.newSak, State.port_setPort_self]
    · rw [State.port, State.emit_net _ rfl, ← State.port, State.newSak, State.port_setPort_self]

end Sys2Proof.Machine
end

section
/-! Hands: opening, CLOSE, doorbells and fetches (O47) (R513–R515, R523, R524). -/
namespace Sys2Proof.Machine

variable {s : State} {fn hand k : Nat}

/-- A CLOSED hand with a good form and no session missing is OPEN, in a new generation, with nothing consumed. -/
def State.opened (s : State) (k fn : Nat) : State :=
  (((s.setFld k HAND_STATUS_STATE H_OPEN).handErr k 0).setFld k HAND_CONSUMED_COUNT 0).setHand k { fn := fn, gen := (s.hand k).gen + 1 }

theorem exec_handOpen_badFmt (hf : fn < 256) (hk : s.barHand fn hand = some k) (hc : s.handState k = H_CLOSED) (h : s.fld k HAND_CTRL_FMT ≠ 1) :
    exec (.handOpen fn hand) s = .next (s.setFld k HAND_STATUS_ERR 1) := by
  show execHandOpen fn hand s = _
  rw [execHandOpen, onFn, if_pos hf, hk]
  exact (if_neg (not_not.2 hc)).trans (if_pos h)

theorem exec_handOpen_badSize (hf : fn < 256) (hk : s.barHand fn hand = some k) (hc : s.handState k = H_CLOSED) (h : s.fld k HAND_CTRL_FMT = 1)
    (hn : ¬ (6 ≤ s.fld k HAND_CTRL_LOG2SIZE ∧ s.fld k HAND_CTRL_LOG2SIZE ≤ 16)) :
    exec (.handOpen fn hand) s = .next (s.setFld k HAND_STATUS_ERR 2) := by
  show execHandOpen fn hand s = _
  rw [execHandOpen, onFn, if_pos hf, hk]
  exact (if_neg (not_not.2 hc)).trans ((if_neg (not_not.2 h)).trans (if_pos (by omega)))

/-- A good form leaves the session to be looked at. -/
theorem exec_handOpen_form (hf : fn < 256) (hk : s.barHand fn hand = some k) (hc : s.handState k = H_CLOSED) (h : s.fld k HAND_CTRL_FMT = 1)
    (h6 : 6 ≤ s.fld k HAND_CTRL_LOG2SIZE) (h16 : s.fld k HAND_CTRL_LOG2SIZE ≤ 16) :
    exec (.handOpen fn hand) s = if s.noSession k fn = true then .next (s.handErr k 6) else .next (s.opened k fn) := by
  show execHandOpen fn hand s = _
  rw [execHandOpen, onFn, if_pos hf, hk]
  refine (if_neg (not_not.2 hc)).trans ((if_neg (not_not.2 h)).trans ((if_neg (by omega)).trans ?_))
  simp [State.opened, State.handErr]

theorem State.opened_spec (s : State) (k fn : Nat) :
    (s.opened k fn).fld k HAND_STATUS_STATE = H_OPEN ∧ (s.opened k fn).fld k HAND_STATUS_ERR = 0 ∧ (s.opened k fn).fld k HAND_CONSUMED_COUNT = 0 ∧
      (s.opened k fn).hand k = { fn := fn, gen := (s.hand k).gen + 1 } ∧ (s.opened k fn).mem = s.mem ∧ ∀ j, j ≠ k → (s.opened k fn).hand j = s.hand j := by
  unfold State.opened State.handErr
  refine ⟨?_, ?_, ?_, State.hand_setHand_self _ _ _, by simp, fun j hj => ?_⟩
  · rw [State.fld_setHand, State.fld_setFld_off _ _ (by decide), State.fld_setFld_bits _ _ _ (by decide), State.fld_setFld_self _ _ _ _ (by decide)]
    rfl
  · rw [State.fld_setHand, State.fld_setFld_off _ _ (by decide), State.fld_setFld_self _ _ _ _ (by decide), Nat.zero_mod]
  · rw [State.fld_setHand, State.fld_setFld_self _ _ _ _ (by decide), Nat.zero_mod]
  · rw [State.hand_setHand_ne _ _ hj]
    simp

theorem exec_handClose (hf : fn < 256) (hk : s.barHand fn hand = some k) (hc : s.handState k = H_OPEN ∨ s.handState k = H_ERROR) :
    exec (.handClose fn hand) s = .next ((s.setHand k { (s.hand k) with closing := true, mismatch := none }).advance k) := by
  show execHandClose fn hand s = _
  rw [execHandClose, onFn, if_pos hf, hk]
  exact if_neg (by omega)

/-- A hand without commands has no NOP to run. -/
theorem State.runNops_empty (h : (s.hand k).cmds = []) : s.runNops k = s := by
  unfold State.runNops; rw [h]; rfl

/-- A hand without commands has no completion to write. -/
theorem State.writeOver_empty (h : (s.hand k).cmds = []) : s.writeOver k = s := by
  unfold State.writeOver; rw [h]; exact ite_self s

/-- A closing hand without commands is CLOSED. -/
theorem State.advance_closing (h : (s.hand k).cmds = []) (hc : (s.hand k).closing = true) :
    s.advance k = (s.setHand k { (s.hand k) with closing := false, prod := 0, mismatch := none }).setFld k HAND_STATUS_STATE H_CLOSED := by
  unfold State.advance
  rw [State.runNops_empty h, State.writeOver_empty h, State.closeEmpty]
  exact if_pos ⟨hc, h⟩

theorem State.close_empty_spec (h : (s.hand k).cmds = []) :
    let t := (s.setHand k { (s.hand k) with closing := true, mismatch := none }).advance k
    t.fld k HAND_STATUS_STATE = H_CLOSED ∧ t.mem = s.mem ∧ ∀ j, j ≠ k → t.hand j = s.hand j := by
  dsimp only
  rw [State.advance_closing (by rw [State.hand_setHand_self]; exact h) (by rw [State.hand_setHand_self])]
  refine ⟨State.fld_setFld_self _ _ _ _ (by decide), by simp, fun j hj => ?_⟩
  rw [State.hand_setFld, State.hand_setHand_ne _ _ hj, State.hand_setHand_ne _ _ hj]

theorem exec_doorbell (hf : fn < 256) (value : Nat) (hk : s.barHand fn hand = some k) (ho : s.handState k = H_OPEN) (hc : (s.hand k).closing = false) :
    exec (.doorbell fn hand value) s = .next (s.ring k value) := by
  show execDoorbell fn hand value s = _
  rw [execDoorbell, onFn, if_pos hf, hk]
  exact if_pos ⟨ho, by rw [hc]; rfl⟩

section
variable {value n : Nat} (hn : n = (value % 2 ^ 32 + 2 ^ 32 - s.fld k HAND_CONSUMED_COUNT) % 2 ^ 32)
include hn

theorem State.ring_none (h : n = 0) : s.ring k value = s := if_pos (hn.symm.trans h)

theorem State.ring_room (h : n ≠ 0) (hr : n ≤ 2 ^ s.fld k HAND_CTRL_LOG2SIZE) :
    s.ring k value = s.setHand k { (s.hand k) with prod := value % 2 ^ 32, mismatch := none } := by
  unfold State.ring
  rw [← hn]
  exact (if_neg h).trans (if_neg (by omega))

theorem State.ring_over (h : 2 ^ s.fld k HAND_CTRL_LOG2SIZE < n) :
    s.ring k value = (s.setFld k HAND_STATUS_STATE H_ERROR).setFld k HAND_STATUS_ERR 4 := by
  unfold State.ring
  rw [← hn]
  exact (if_neg (Nat.ne_of_gt (Nat.zero_lt_of_lt h))).trans (if_pos h)

end

theorem exec_descriptorFetchReturn (hf : fn < 256) (l : List (List Byte × Bool)) (hk : s.handOf fn hand = some k) (ho : s.handState k = H_OPEN)
    (hc : (s.hand k).closing = false) (hfn : (s.hand k).fn = fn) (hu : s.fnUp fn = true) (hfatal : s.fld 0 TST_STATUS_FATAL = 0) :
    exec (.descriptorFetchReturn fn hand l) s = .next ((s.takeEntries k l 0).advance k) := by
  show execDescriptorFetchReturn fn hand l s = _
  rw [execDescriptorFetchReturn, onFn, if_pos hf, hk]
  exact if_neg (by simp [ho, hc, hfn, hu, hfatal])

section
variable {e : List Byte} {ok : Bool} (hp : s.fld k HAND_CONSUMED_COUNT ≠ (s.hand k).prod) (hl : e.length = 64)
include hp hl

theorem State.takeEntries_next (hq : leAt e 0 4 = s.fld k HAND_CONSUMED_COUNT) (hm : s.fld k HAND_CTRL_SECURE ≠ 1 ∨ ok = true) :
    s.takeEntries k [(e, ok)] 0 = (s.setHand k { (s.hand k) with
      mismatch := none
      cmds := (s.hand k).cmds ++ [{ seq := s.fld k HAND_CONSUMED_COUNT, entry := e }] }).setFld k HAND_CONSUMED_COUNT
        ((s.fld k HAND_CONSUMED_COUNT + 1) % 2 ^ 32) := by
  rw [State.takeEntries]
  refine (if_neg (by simp [hp, hl])).trans ((if_neg (not_not.2 hq)).trans ((if_neg (by simpa [imp_iff_not_or] using hm)).trans ?_))
  rw [State.takeEntries]

theorem State.takeEntries_mismatch (hq : leAt e 0 4 ≠ s.fld k HAND_CONSUMED_COUNT) :
    s.takeEntries k [(e, ok)] 0 = s.setHand k { (s.hand k) with mismatch := some ((s.hand k).mismatch.getD 0) } := by
  rw [State.takeEntries]
  exact (if_neg (by simp [hp, hl])).trans (if_pos hq)

end

/-- A mismatch that has spent its retries makes the hand STALE: what was produced is what was consumed, and DOORBELL_STALE is raised. -/
def State.stale (s : State) (fn hand k : Nat) : State :=
  ((s.setHand k { (s.hand k) with mismatch := none, prod := s.fld k HAND_CONSUMED_COUNT }).setFld k HAND_STATUS_STALE 1).raise
    { cause := DOORBELL_STALE, die := 12, prov := s.fnProv fn, aux := hand }

theorem State.fnProv_setHand (s : State) (k : Nat) (x : Hand) (fn : Nat) : (s.setHand k x).fnProv fn = s.fnProv fn := by
  unfold State.fnProv
  rw [State.fld_setHand, funext (State.prov_setHand s k x)]

section
variable {r : Nat} (hf : fn < 256) (hk : s.handOf fn hand = some k) (ho : s.handState k = H_OPEN) (hc : (s.hand k).closing = false)
    (hfn : (s.hand k).fn = fn) (hu : s.fnUp fn = true) (hfatal : s.fld 0 TST_STATUS_FATAL = 0) (hm : (s.hand k).mismatch = some r)
include hf hk ho hc hfn hu hfatal hm

theorem exec_descriptorRefetch_again (hr : r < s.fld 0 HIF_DB_RETRY_COUNT) :
    exec (.descriptorRefetch fn hand) s = .next ((s.setHand k { (s.hand k) with mismatch := some (r + 1) }).count
      { unit := srvStw, event := 0xA1, prov := s.fnProv fn, priv := 2, master := some 7 }) := by
  show execDescriptorRefetch fn hand s = _
  rw [execDescriptorRefetch, onFn, if_pos hf, hk]
  dsimp only
  rw [hm]
  exact (if_neg (by simp [ho, hc, hfn, hu, hfatal])).trans (if_pos hr)

theorem exec_descriptorRefetch_stale (hr : s.fld 0 HIF_DB_RETRY_COUNT ≤ r) : exec (.descriptorRefetch fn hand) s = .next (s.stale fn hand k) := by
  show execDescriptorRefetch fn hand s = _
  rw [execDescriptorRefetch, onFn, if_pos hf, hk]
  dsimp only
  rw [hm]
  refine (if_neg (by simp [ho, hc, hfn, hu, hfatal])).trans ((if_neg (by omega)).trans ?_)
  rw [State.fnProv_setHand]
  rfl

end

theorem State.stale_spec (hk : k < 2 ^ 24) (fn hand : Nat) :
    (s.stale fn hand k).fld k HAND_STATUS_STALE = 1 ∧ ((s.stale fn hand k).hand k).prod = s.fld k HAND_CONSUMED_COUNT ∧ (s.stale fn hand k).mem = s.mem := by
  unfold State.stale
  refine ⟨?_, ?_, by simp⟩
  · rw [State.fld_raise _ _ hk (by decide), State.fld_setFld_self _ _ _ _ (by decide)]
    rfl
  · rw [State.hand_raise, State.hand_setFld, State.hand_setHand_self]

/-- Settles O47: the hand's operations taken branch by branch; a STALE hand's produced count goes back to CONSUMED (log entry 96, DEDUCED). -/
theorem handsOpenFetchAndClose : Obligations.HandsOpenFetchAndClose := by
  unfold Obligations.HandsOpenFetchAndClose
  intro s fn hand k value n r e ok hf
  refine ⟨fun hk hc => ⟨exec_handOpen_badFmt hf hk hc, exec_handOpen_badSize hf hk hc, fun h h6 h16 hs => ?_, fun h h6 h16 hs => ?_⟩,
    fun hk hc => ⟨exec_handClose hf hk hc, fun h => ⟨_, exec_handClose hf hk hc, State.close_empty_spec h⟩⟩,
    fun hk ho hc hn => ⟨fun h => ?_, fun h hr => ?_, fun h => ?_⟩,
    fun hk ho hc hfn hu hfatal => ⟨fun hp hl hq hm => ?_, fun hp hl hq => ?_, exec_descriptorRefetch_again hf hk ho hc hfn hu hfatal, fun hm hr => ?_⟩⟩
  · exact (exec_handOpen_form hf hk hc h h6 h16).trans (if_pos hs)
  · exact ⟨_, (exec_handOpen_form hf hk hc h h6 h16).trans (if_neg (by rw [hs]; simp)), State.opened_spec s k fn⟩
  · rw [exec_doorbell hf value hk ho hc, State.ring_none hn h]
  · rw [exec_doorbell hf value hk ho hc, State.ring_room hn h hr]
  · rw [exec_doorbell hf value hk ho hc, State.ring_over hn h]
  · rw [exec_descriptorFetchReturn hf _ hk ho hc hfn hu hfatal, State.takeEntries_next hp hl hq hm]
  · rw [exec_descriptorFetchReturn hf _ hk ho hc hfn hu hfatal, State.takeEntries_mismatch hp hl hq]
  · exact ⟨_, exec_descriptorRefetch_stale hf hk ho hc hfn hu hfatal hm hr, State.stale_spec (State.handOf_lt hf hk) fn hand⟩

end Sys2Proof.Machine
end

section
/-! The commands of a hand: WRITE, READ, WAIT_STEP, MANIFEST, LOAD_ATLAS and START (O48) (R516–R523). -/
namespace Sys2Proof.Machine

variable {s : State} {fn hand seq k : Nat} {c : HandCmd}

section
variable (hf : fn < 256) (hc : s.startable fn hand seq 3 = some (k, c)) (ha : c.aligned = true) (hd : s.dataState (k / 4096) = true)
    (hw : (s.prov (k / 4096)).within .data (c.q 1) c.len = true) (ho : s.hbmOpen (k / 4096) 2 [(c.q 1, c.len)] = true) (host : List (Nat × Byte))
include hf hc ha hd hw ho

/-- A whole WRITE without a put stores its bytes and completes. -/
theorem exec_write_whole (hp : bitAt c.flags 2 = false) :
    exec (.write fn hand seq host none) s = .next ({ s.vput (k / 4096) (c.q 1) (s.hbytes host (c.q 0) c.len) with
      free := (s.vput (k / 4096) (c.q 1) (s.hbytes host (c.q 0) c.len)).free + 1 }.complete k seq HS_OK c.len 0) := by
  show execWrite fn hand seq host none s = _
  rw [execWrite, onFn, if_pos hf, hc]
  dsimp only
  rw [hp]
  exact (if_neg (by simp [ha])).trans ((if_neg (by simp [hd])).trans ((if_neg (by simp [hw])).trans (if_neg (by simp [ho]))))

/-- A whole WRITE with a put stores its bytes, puts its handle and completes. -/
theorem exec_write_put (hp : bitAt c.flags 2 = true) {n : Nat} (ht : s.talonOf (k / 4096) c.talon = some n) :
    exec (.write fn hand seq host none) s = .next (({ s.vput (k / 4096) (c.q 1) (s.hbytes host (c.q 0) c.len) with
      free := (s.vput (k / 4096) (c.q 1) (s.hbytes host (c.q 0) c.len)).free + 1 }.talonPut n c.handle).complete k seq HS_OK c.len 0) := by
  show execWrite fn hand seq host none s = _
  rw [execWrite, onFn, if_pos hf, hc]
  dsimp only
  rw [hp, ht]
  exact (if_neg (by simp [ha])).trans ((if_neg (by simp [hd])).trans ((if_neg (by simp [hw])).trans (if_neg (by simp [ho]))))

/-- A WRITE that poison or a failed tag stopped stores its whole units and completes with that status. -/
theorem exec_write_stopped (hp : bitAt c.flags 2 = false) {m why n : Nat} (hwhy : why = HS_POISON ∨ why = HS_AUTH)
    (hn : n = if why = HS_AUTH ∧ s.fld k HAND_CTRL_SECURE = 1 then 4096 else 64) :
    exec (.write fn hand seq host (some (m, why))) s = .next ({ s.vput (k / 4096) (c.q 1) (s.hbytes host (c.q 0) (min c.len (m / n * n))) with
      free := (s.vput (k / 4096) (c.q 1) (s.hbytes host (c.q 0) (min c.len (m / n * n)))).free + 1 }.complete k seq why (min c.len (m / n * n)) 0) := by
  have hst : ¬ why = HS_HOST_ABORT := by rcases hwhy with rfl | rfl <;> decide
  show execWrite fn hand seq host (some (m, why)) s = _
  rw [execWrite, onFn, if_pos hf, hc]
  dsimp only
  rw [hp, ← hn, if_pos hwhy, if_neg hst]
  exact (if_neg (by simp [ha])).trans ((if_neg (by simp [hd])).trans ((if_neg (by simp [hw])).trans (if_neg (by simp [ho]))))

end

/-- A READ sends its bytes, its poisoned words as poison, and waits for their confirmation. -/
theorem exec_read (hf : fn < 256) (hc : s.startable fn hand seq 4 = some (k, c)) (ha : c.aligned = true) (hd : s.dataState (k / 4096) = true)
    (hw : (s.prov (k / 4096)).within .data (c.q 1) c.len = true ∨ (s.prov (k / 4096)).within .atlas (c.q 1) c.len = true)
    (ho : s.hbmOpen (k / 4096) 2 [(c.q 1, c.len)] = true) {bad : List Nat}
    (hb : bad = (List.range (c.len / 64)).filter (fun i => s.vpoison (k / 4096) (c.q 1 + 64 * i) 64)) :
    exec (.read fn hand seq) s = .next ((bad.foldl (fun t i => t.emit (.hostPoison fn (c.q 0 + 64 * i))) (s.sendData k c (s.vbytes (k / 4096) (c.q 1) c.len))).setCmd k seq
      (.unconf (if bad = [] then HS_OK else HS_POISON) c.len 0 s.frame)) := by
  show execRead fn hand seq s = _
  rw [execRead, onFn, if_pos hf, hc]
  dsimp only
  rw [← hb]
  exact (if_neg (by simp [ha])).trans ((if_neg (by simp [hd])).trans ((if_neg (by simpa [imp_iff_not_or] using hw)).trans (if_neg (by simp [ho]))))

/-- A WAIT_STEP whose step is not decided waits. -/
theorem exec_waitStep_waits (hf : fn < 256) (hc : s.startable fn hand seq 5 = some (k, c)) (hj : s.judgeWait (k / 4096) (c.q 0) false = none) :
    exec (.waitStep fn hand seq) s = .next ((s.setCmd k seq .running).advance k) := by
  show execWaitStep fn hand seq s = _
  rw [execWaitStep, onFn, if_pos hf, hc]
  dsimp only
  rw [hj]

/-- A WAIT_STEP whose step is decided completes. -/
theorem exec_waitStep_decided (hf : fn < 256) (hc : s.startable fn hand seq 5 = some (k, c)) {a b d : Nat}
    (hj : s.judgeWait (k / 4096) (c.q 0) false = some (a, b, d)) : exec (.waitStep fn hand seq) s = .next (s.complete k seq a b d) := by
  show execWaitStep fn hand seq s = _
  rw [execWaitStep, onFn, if_pos hf, hc]
  dsimp only
  rw [hj]

/-- A MANIFEST extends the province's chain. -/
theorem exec_manifest (hf : fn < 256) (hc : s.startable fn hand seq 6 = some (k, c)) (host : List (Nat × Byte)) {authOk : Bool}
    (ha : s.fld k HAND_CTRL_SECURE ≠ 1 ∨ authOk = true) :
    exec (.manifest fn hand seq host authOk) s = .next (({ s with free := s.free + 1 }.setProv (k / 4096) { (s.prov (k / 4096)) with
        manifest := sha384 ((s.prov (k / 4096)).manifest ++ s.hbytes host (c.q 0) 64)
        manFirst := leAt (s.hbytes host (c.q 0) 64) 48 8 }).complete k seq HS_OK 0 0) := by
  show execManifest fn hand seq host authOk s = _
  rw [execManifest, onFn, if_pos hf, hc]
  exact if_neg (by simpa [imp_iff_not_or] using ha)

/-- A LOAD_ATLAS whose checks of state, tag and space pass goes by the image's status and the lowered ports. -/
theorem exec_loadAtlas (hf : fn < 256) (hc : s.startable fn hand seq 1 = some (k, c)) (hr : s.stw.restarting = false)
    (hs : (s.prov (k / 4096)).st = .sealed_) (host : List (Nat × Byte)) {authOk : Bool} (ha : s.fld k HAND_CTRL_SECURE ≠ 1 ∨ authOk = true)
    {g : Img} (hg : g = fun o n => ofLE (s.hbytes host (c.q 0 + o) n)) (hsp : ceilDiv g.size (2 ^ 21) * 2 ^ 21 ≤ (s.prov (k / 4096)).space)
    (hh : s.atlasHeld (k / 4096) g.size = false) {st : Nat}
    (hst : st = s.atlasStatus ((s.mapAtlas (k / 4096) (s.hbytes host (c.q 0) g.size)).setFld (k / 4096) PROV_RANK_LASTRANK (g.nranks - 1)) (k / 4096) g
      (s.hbytes host (c.q 0) g.size)) :
    exec (.loadAtlas fn hand seq host authOk) s = .next (
      if st ≠ HS_OK then { s with free := s.free + 1 }.complete k seq st (s.result0 k c) 0
      else if s.loweredPorts (k / 4096) = [] then
        ({ s.mapAtlas (k / 4096) (s.hbytes host (c.q 0) g.size) with free := s.free + 1 }.loaded (k / 4096) fn (c.q 0) (if bitAt c.flags 1 then c.q 1 else g.seed)).complete k seq
          HS_OK (if bitAt c.flags 1 then c.q 1 else g.seed) 0
      else ((s.loweredPorts (k / 4096)).foldl (fun (t : State) n => t.raisePort n) { s with free := s.free + 1 }).setCmd k seq .running) := by
  show execLoadAtlas fn hand seq host authOk s = _
  rw [execLoadAtlas, onFn, if_pos hf, hc]
  dsimp only
  rw [← hg, ← hst]
  refine (if_neg (by simp [hr])).trans ((if_neg (not_not.2 hs)).trans ((if_neg (by simpa [imp_iff_not_or] using ha)).trans
    ((if_neg (by omega)).trans ((if_neg (by simp [hh])).trans ?_))))
  by_cases hok : st = HS_OK
  · rw [if_neg (not_not.2 hok), if_neg (not_not.2 hok)]
    by_cases hl : s.loweredPorts (k / 4096) = []
    · rw [if_pos hl]
      exact if_neg (not_not.2 hl)
    · rw [if_neg hl]
      exact if_pos hl
  · rw [if_pos hok, if_pos hok]

/-- A START of a loaded SEALED province names its first frame. -/
theorem exec_start (hf : fn < 256) (hc : s.startable fn hand seq 2 = some (k, c)) (hr : s.stw.restarting = false)
    (hs : (s.prov (k / 4096)).st = .sealed_) (hl : (s.prov (k / 4096)).loaded = true) (hn : (s.prov (k / 4096)).start = none) (hq : s.frame + 2 ≤ c.q 0)
    (hm : s.fld (k / 4096) PROV_RNG_MODE_MODE ≠ 0 ∨ (s.img (k / 4096)).needsRegen = false) (hk : s.linksKeyed (k / 4096) = true) :
    exec (.start fn hand seq) s = .next (((s.ledgerCheck (k / 4096)).setProv (k / 4096) { ((s.ledgerCheck (k / 4096)).prov (k / 4096)) with
        start := some ⟨c.q 0, if bitAt c.flags 1 then c.q 1 else 0, k, seq⟩ }).setCmd k seq .running) := by
  show execStart fn hand seq s = _
  rw [execStart, onFn, if_pos hf, hc]
  exact (if_neg (by simp [hr])).trans ((if_neg (by simp [hs, hl, hn])).trans ((if_neg (by omega)).trans
    ((if_neg (by simpa [imp_iff_not_or] using hm)).trans (if_neg (by simp [hk])))))

/-- Settles O48: each command's branch taken, with RESULT0 = LEN for a READ that met poison (log entry 146, DEDUCED) and with lowered ports raised before anything
is loaded (log entry 89, DEDUCED). -/
theorem handCommandsRun : Obligations.HandCommandsRun := by
  unfold Obligations.HandCommandsRun
  intro s u t fn hand seq k st m why n c g host bad authOk hf
  refine ⟨fun hc ha hd hw ho => ⟨?_, ?_⟩, fun hc ha hd hw ho hb => exec_read hf hc ha hd hw ho hb,
    fun hc => ⟨exec_waitStep_waits hf hc, fun a b d => exec_waitStep_decided hf hc⟩, fun hc ha => exec_manifest hf hc host ha, ?_, ?_⟩
  · rintro rfl
    exact ⟨exec_write_whole hf hc ha hd hw ho host, fun hp ht _ => exec_write_put hf hc ha hd hw ho host hp ht⟩
  · rintro hp hwhy hst rfl
    exact exec_write_stopped hf hc ha hd hw ho host hp hwhy hst
  · rintro hc hr hs ha hg hsp hh rfl hst rfl
    exact exec_loadAtlas hf hc hr hs host ha hg hsp hh hst
  · rintro hc hr hs hl hn hq hm hk rfl
    exact exec_start hf hc hr hs hl hn hq hm hk

end Sys2Proof.Machine
end

section
/-! Accesses of an attached function, Bus Master Enable and failed requests (O49) (R504–R512, R525). -/
namespace Sys2Proof.Machine

variable {s : State} {fn off n va : Nat}

theorem State.vbytes_congr {s t : State} (hmem : t.mem = s.mem) (hprovs : t.provs = s.provs) (p va n : Nat) : t.vbytes p va n = s.vbytes p va n := by
  unfold State.vbytes State.vbyte
  simp only [State.prov_congr hprovs, State.mbyte_congr hmem]

theorem State.vpoison_congr {s t : State} (hpoison : t.poison = s.poison) (hprovs : t.provs = s.provs) (p va n : Nat) : t.vpoison p va n = s.vpoison p va n := by
  unfold State.vpoison
  simp only [State.prov_congr hprovs, hpoison]

/-- An Inset read that is answered delivers the bytes and their poison. -/
theorem State.insetAnswer_head (s : State) (x : InsetRead) :
    (s.insetAnswer x).sent.head? = some (.insetData x.fn x.off (some (s.vbytes x.prov x.va x.len)) (s.vpoison x.prov x.va x.len)) := by
  unfold State.insetAnswer
  dsimp only
  rw [State.emit_sent, State.vbytes_congr (s := s) (by simp) (by simp), State.vpoison_congr (s := s) (by simp) (by simp)]
  rfl

section
variable (hf : fn < 256) (hon : s.fnOn fn = true) (ha : s.fld fn HIF_FN_STATUS_ATTACH ≠ 1) (ht : (s.fn fn).tdisp ≠ .error)
include hf hon ha ht

theorem exec_insetRead_noProv (hp : s.fnProv fn = 0) : exec (.insetRead fn off n) s = .next (s.emit (.insetData fn off (some (zeros n)) false)) := by
  show execInsetRead fn off n s = _
  rw [execInsetRead, onFn, if_pos hf]
  exact (if_neg (by simp [hon, ha])).trans ((if_neg ht).trans (if_pos hp))

theorem exec_insetRead_hidden (hp : s.fnProv fn ≠ 0) (hv : s.insetVa fn off n false = none) :
    exec (.insetRead fn off n) s = .next ((s.setFld fn HIF_FN_STATUS_INSET_ERR 1).emit (.insetData fn off none false)) := by
  show execInsetRead fn off n s = _
  rw [execInsetRead, onFn, if_pos hf, hv]
  exact (if_neg (by simp [hon, ha])).trans ((if_neg ht).trans (if_neg hp))

theorem exec_insetRead_answered (hp : s.fnProv fn ≠ 0) (hv : s.insetVa fn off n false = some va) (ho : s.hbmOpen (s.fnProv fn) 2 [(va, n)] = true) :
    exec (.insetRead fn off n) s = .next (s.insetAnswer ⟨fn, off, s.fnProv fn, va, n⟩) := by
  show execInsetRead fn off n s = _
  rw [execInsetRead, onFn, if_pos hf, hv]
  exact (if_neg (by simp [hon, ha])).trans ((if_neg ht).trans ((if_neg hp).trans (if_pos ho)))

theorem exec_insetRead_kept (hp : s.fnProv fn ≠ 0) (hv : s.insetVa fn off n false = some va) (ho : s.hbmOpen (s.fnProv fn) 2 [(va, n)] = false) :
    exec (.insetRead fn off n) s = .next { s with memc := { s.memc with insets := s.memc.insets ++ [⟨fn, off, s.fnProv fn, va, n⟩] } } := by
  show execInsetRead fn off n s = _
  rw [execInsetRead, onFn, if_pos hf, hv]
  exact (if_neg (by simp [hon, ha])).trans ((if_neg ht).trans ((if_neg hp).trans (if_neg (by simp [ho]))))

end

section
variable (hf : fn < 256) (hb : s.barUp fn = true)
include hf hb

theorem exec_insetWrite_hidden {bytes : List Byte} (hv : s.insetVa fn off bytes.length true = none) :
    exec (.insetWrite fn off bytes) s = .next (s.setFld fn HIF_FN_STATUS_INSET_ERR 1) := by
  show execInsetWrite fn off bytes s = _
  rw [execInsetWrite, onFn, if_pos hf, hv]
  exact if_neg (by simp [hb])

theorem exec_insetWrite_stored {bytes : List Byte} (hv : s.insetVa fn off bytes.length true = some va) :
    exec (.insetWrite fn off bytes) s = .next ((s.count { unit := srvStw, event := 0xA3, prov := s.fnProv fn, priv := 2, master := some 7 }).rput (s.fnProv fn) va bytes) := by
  show execInsetWrite fn off bytes s = _
  rw [execInsetWrite, onFn, if_pos hf, hv]
  exact if_neg (by simp [hb])

theorem exec_hifInsetBaseWrite (value : Nat) :
    exec (.hifInsetBaseWrite fn value) s = .next ((s.setFld fn HIF_INSET_BASE_EN (bits value 0 1)).setFld fn HIF_INSET_BASE_BASE (bits value 26 22)) := by
  show execHifInsetBaseWrite fn value s = _
  rw [execHifInsetBaseWrite, onFn, if_pos hf, if_pos hb]

theorem exec_hifSrvPageWrite (value : Nat) : exec (.hifSrvPageWrite fn value) s = .next (s.setFld fn HIF_SRV_PAGE_PAGE (bits value 0 8)) := by
  show execHifSrvPageWrite fn value s = _
  rw [execHifSrvPageWrite, onFn, if_pos hf, if_pos hb]

end

theorem State.insetBase_spec (s : State) (fn value : Nat) :
    let t := (s.setFld fn HIF_INSET_BASE_EN (bits value 0 1)).setFld fn HIF_INSET_BASE_BASE (bits value 26 22)
    t.fld fn HIF_INSET_BASE_EN = bits value 0 1 ∧ t.fld fn HIF_INSET_BASE_BASE = bits value 26 22 ∧ t.mem = s.mem := by
  refine ⟨?_, ?_, by simp⟩
  · rw [State.fld_setFld_bits _ _ _ (by decide), State.fld_setFld_self _ _ _ _ (by decide)]
    exact Nat.mod_eq_of_lt (bits_lt _ _ _)
  · rw [State.fld_setFld_self _ _ _ _ (by decide)]
    exact Nat.mod_eq_of_lt (bits_lt _ _ _)

/-- `t` has the functions of `s`, but for the vectors that `fn` has pending. -/
structure State.KeepsFns (fn : Nat) (s t : State) : Prop where
  others : ∀ f, f ≠ fn → t.fn f = s.fn f
  bme : (t.fn fn).bme = (s.fn fn).bme
  tdisp : (t.fn fn).tdisp = (s.fn fn).tdisp

theorem State.KeepsFns.of_eq {s t : State} (h : ∀ f, t.fn f = s.fn f) : State.KeepsFns fn s t := ⟨fun f _ => h f, by rw [h], by rw [h]⟩

theorem State.KeepsFns.trans {s t u : State} (h : State.KeepsFns fn s t) (g : State.KeepsFns fn t u) : State.KeepsFns fn s u :=
  ⟨fun f hf => (g.others f hf).trans (h.others f hf), g.bme.trans h.bme, g.tdisp.trans h.tdisp⟩

theorem State.KeepsFns.foldl {α : Type} (f : State → α → State) (l : List α) (s : State) (h : ∀ t a, State.KeepsFns fn t (f t a)) :
    State.KeepsFns fn s (l.foldl f s) :=
  foldl_keeps (P := State.KeepsFns fn s) f l s (.of_eq fun _ => rfl) fun t a ht => ht.trans (h t a)

theorem State.setFn_keepsFns (s : State) (x : Fn) (hb : x.bme = (s.fn fn).bme) (ht : x.tdisp = (s.fn fn).tdisp) : State.KeepsFns fn s (s.setFn fn x) :=
  ⟨fun _ hf => State.fn_setFn_ne s x hf, by rw [State.fn_setFn_self, hb], by rw [State.fn_setFn_self, ht]⟩

theorem State.msix_keepsFns (s : State) (vec : Nat) : State.KeepsFns fn s (s.msix fn vec) := by
  unfold State.msix
  dsimp only
  split
  · exact s.setFn_keepsFns _ rfl rfl
  · exact (s.setFn_keepsFns { (s.fn fn) with pend := setBits (s.fn fn).pend vec 1 0 } rfl rfl).trans (.of_eq fun f => State.fn_emit _ _ f)

theorem State.msixPend_keepsFns (s : State) : State.KeepsFns fn s (s.msixPend fn) := by
  unfold State.msixPend
  split
  · exact .of_eq fun _ => rfl
  · refine .foldl _ _ _ fun t v => ?_
    split
    · exact t.msix_keepsFns v
    · exact .of_eq fun _ => rfl

theorem State.resumeChains_keepsFns (s : State) : State.KeepsFns fn s (s.resumeChains fn) := by
  unfold State.resumeChains
  refine .foldl _ _ _ fun t b => ?_
  split
  · split
    · exact .of_eq fun f => State.fn_setBulk _ _ _ f
    · exact .of_eq fun _ => rfl
  · exact .of_eq fun _ => rfl

/-- What an access of Bus Master Enable starts: pending vectors, the hands and the chains of the function. -/
def State.wakeFn (s : State) (fn : Nat) : State :=
  (s.hands.foldl (fun s e => if e.2.fn = fn then s.advance e.1 else s) (s.msixPend fn)).resumeChains fn

theorem State.wakeFn_keepsFns (s : State) : State.KeepsFns fn s (s.wakeFn fn) := by
  unfold State.wakeFn
  refine (s.msixPend_keepsFns.trans (.foldl _ _ _ fun t e => ?_)).trans (State.resumeChains_keepsFns _)
  split
  · exact .of_eq fun f => State.fn_advance t _ f
  · exact .of_eq fun _ => rfl

theorem State.wakeFn_mem (s : State) (fn : Nat) : (s.wakeFn fn).mem = s.mem := by
  unfold State.wakeFn
  rw [State.resumeChains_mem]
  refine (foldl_proj State.mem _ _ _ fun t e => ?_).trans (State.msixPend_mem s fn)
  split
  · exact State.advance_mem t _
  · rfl

/-- The state in which an access of a function has made it count among the enabled virtual functions. -/
def State.seenVf (s : State) (fn : Nat) : State := if fn = 0 then s else s.setFn 0 { (s.fn 0) with numVfs := max (s.fn 0).numVfs fn }

/-- The state in which Bus Master Enable of `fn` is `on`, before anything that waited for it goes on. -/
def State.setBme (s : State) (fn : Nat) (on : Bool) : State :=
  (s.seenVf fn).setFn fn { (s.fn fn) with bme := on, tdisp := if (s.fn fn).tdisp = .locked ∨ (s.fn fn).tdisp = .run then Tdisp.error else (s.fn fn).tdisp }

theorem exec_busMasterEnableWrite (hf : fn < 256) {on : Bool} (hb : (s.fn fn).bme ≠ on) (hr : s.inReset = false) :
    exec (.busMasterEnableWrite fn on) s = .next ((s.setBme fn on).wakeFn fn) := by
  show execBusMasterEnableWrite fn on s = _
  rw [execBusMasterEnableWrite, onFn, if_pos hf]
  exact (if_neg (by simp [hr])).trans (if_neg hb)

theorem State.seenVf_fn (s : State) (fn : Nat) {f : Nat} (h : f ≠ 0) : (s.seenVf fn).fn f = s.fn f := by
  unfold State.seenVf
  split
  · rfl
  · exact State.fn_setFn_ne s _ h

theorem State.seenVf_fn_zero (s : State) {fn : Nat} (h : fn ≠ 0) : (s.seenVf fn).fn 0 = { (s.fn 0) with numVfs := max (s.fn 0).numVfs fn } := by
  unfold State.seenVf
  rw [if_neg h]
  exact State.fn_setFn_self _ _ _

theorem State.setBme_mem (s : State) (fn : Nat) (on : Bool) : (s.setBme fn on).mem = s.mem := by
  unfold State.setBme State.seenVf
  split <;> simp

theorem State.setBme_wakeFn_spec (s : State) (fn : Nat) (on : Bool) :
    let t := (s.setBme fn on).wakeFn fn
    (t.fn fn).bme = on ∧ t.mem = s.mem ∧ ((s.fn fn).tdisp = .locked ∨ (s.fn fn).tdisp = .run → (t.fn fn).tdisp = .error) ∧
      (∀ f, f ≠ fn → f ≠ 0 → t.fn f = s.fn f) ∧ (fn ≠ 0 → t.fn 0 = { (s.fn 0) with numVfs := max (s.fn 0).numVfs fn }) := by
  have hkeeps := (s.setBme fn on).wakeFn_keepsFns (fn := fn)
  refine ⟨hkeeps.bme.trans ?_, (State.wakeFn_mem _ _).trans (s.setBme_mem fn on), fun h => hkeeps.tdisp.trans ?_, fun f hne h0 => (hkeeps.others f hne).trans ?_,
    fun h0 => (hkeeps.others 0 (Ne.symm h0)).trans ?_⟩
  · rw [State.setBme, State.fn_setFn_self]
  · rw [State.setBme, State.fn_setFn_self]
    exact if_pos h
  · rw [State.setBme, State.fn_setFn_ne _ _ hne, State.seenVf_fn _ _ h0]
  · rw [State.setBme, State.fn_setFn_ne _ _ (Ne.symm h0), State.seenVf_fn_zero _ h0]

theorem exec_hostWriteConfirm (hf : fn < 256) (hu : s.fnUp fn = true) :
    exec (.hostWriteConfirm fn) s = .next ((s.hands.foldl (fun x e => x.confirmHand fn e) s).confirmChains fn) := by
  show execHostWriteConfirm fn s = _
  rw [execHostWriteConfirm, onFn, if_pos hf]
  exact if_neg (by simp [hu])

section
variable {hand k value : Nat} (hf : fn < 256) (ha : s.fld fn HIF_FN_STATUS_ATTACH = 0)
include hf ha

theorem exec_hostRequestFailed_fetch (hk : s.handOf fn hand = some k) (ho : s.handState k = H_OPEN) (hfn : (s.hand k).fn = fn) :
    exec (.hostRequestFailed fn (.fetch hand)) s = .next (((s.setFld fn HIF_FN_STATUS_HOST_ERR 1).setFld k HAND_STATUS_STATE H_ERROR).setFld k HAND_STATUS_ERR 7) := by
  show execHostRequestFailed fn (.fetch hand) s = _
  rw [execHostRequestFailed, onFn, if_pos hf, if_neg (not_not.2 ha), hk]
  exact if_neg (by simp [ho, hfn])

/-- The record of a host's failed request. -/
def State.hostAbort (s : State) (fn k hand : Nat) : State :=
  (s.setFld fn HIF_FN_STATUS_HOST_ERR 1).raise { cause := HOST_ABORT, die := 12, prov := k / 4096, aux := hand }

theorem exec_hostRequestFailed_cmd (hk : s.handOf fn hand = some k) (hfn : (s.hand k).fn = fn)
    (hc : (s.hand k).cmds.any (fun c => c.seq == value && c.started && !c.over) = true ∨ (((s.hand k).mayStart value).isSome = true ∧ s.fnUp fn = true)) :
    exec (.hostRequestFailed fn (.cmd hand value)) s = .next ((s.hostAbort fn k hand).complete k value HS_HOST_ABORT
      (((((s.hostAbort fn k hand).hand k).cmds.find? (fun c => c.seq == value)).map ((s.hostAbort fn k hand).result0 k)).getD 0) 0) := by
  show execHostRequestFailed fn (.cmd hand value) s = _
  rw [execHostRequestFailed, onFn, if_pos hf, if_neg (not_not.2 ha), hk]
  refine if_pos ?_
  rcases hc with h | ⟨h, hu⟩
  · simp [hfn, h]
  · simp [hfn, h, hu]

theorem exec_hostRequestFailed_written (hk : s.handOf fn hand = some k) (hfn : (s.hand k).fn = fn)
    (hw : ∃ c ∈ (s.hand k).cmds, c.seq = value ∧ ∃ a b d e, c.st = .written a b d e) (ho : ∀ c ∈ (s.hand k).cmds, c.seq = value → c.over = true)
    (hm : (s.hand k).mayStart value = none) : exec (.hostRequestFailed fn (.cmd hand value)) s = .next (s.hostAbort fn k hand) := by
  show execHostRequestFailed fn (.cmd hand value) s = _
  rw [execHostRequestFailed, onFn, if_pos hf, if_neg (not_not.2 ha), hk]
  obtain ⟨c, hc, hq, a, b, d, e, hst⟩ := hw
  have hover : (s.hand k).cmds.any (fun c => c.seq == value && c.started && !c.over) = false := by
    simp only [List.any_eq_false]
    intro x hx
    by_cases hxq : x.seq = value <;> simp [hxq, ho x hx]
  refine (if_neg (by simp [hover, hm])).trans (if_pos ⟨hfn, List.any_eq_true.2 ⟨c, hc, ?_⟩⟩)
  simp [hq, hst]

theorem exec_hostRequestFailed_chain (hn : n < 128) {j : ChainJob} {rest : List ChainJob} (hq : (s.bulk n).queue = j :: rest)
    (hj : s.chainFn j.ctx.prov = fn) (hr : (s.bulk n).st = .running) :
    exec (.hostRequestFailed fn (.chain n)) s = .next ((s.setFld fn HIF_FN_STATUS_HOST_ERR 1).chainFault n j) := by
  show execHostRequestFailed fn (.chain n) s = _
  rw [execHostRequestFailed, onFn, if_pos hf, if_neg (not_not.2 ha), hq]
  exact (if_neg (by omega)).trans (if_pos ⟨hj, hr⟩)

end

/-- Settles O49: an Inset read whose channel is not open is kept (log entry 155, DESIGN CHOICE), an access of Bus Master Enable raises NumVFs (log entry 97, DEDUCED),
and HOST_ABORT names the hand in AUX (log entry 140, DEDUCED). -/
theorem functionAccesses : Obligations.FunctionAccesses := by
  unfold Obligations.FunctionAccesses
  intro s u fn off n va value hand k bytes on j rest hf
  refine ⟨fun hon ha ht => ⟨exec_insetRead_noProv hf hon ha ht, exec_insetRead_hidden hf hon ha ht, fun hp hv ho => ?_, exec_insetRead_kept hf hon ha ht⟩,
    fun hb => ⟨exec_insetWrite_hidden hf hb, exec_insetWrite_stored hf hb, ⟨_, exec_hifInsetBaseWrite hf hb value, s.insetBase_spec fn value⟩,
      ⟨_, exec_hifSrvPageWrite hf hb value, ?_, by simp⟩⟩,
    fun hb hr => ⟨_, exec_busMasterEnableWrite hf hb hr, s.setBme_wakeFn_spec fn on⟩, exec_hostWriteConfirm hf,
    fun ha => ⟨exec_hostRequestFailed_fetch hf ha, fun hk hfn hc hu => ?_, exec_hostRequestFailed_written hf ha, fun hn hq => exec_hostRequestFailed_chain hf ha hn hq⟩⟩
  · exact ⟨_, exec_insetRead_answered hf hon ha ht hp hv ho, State.insetAnswer_mem s _, s.insetAnswer_head _⟩
  · rw [State.fld_setFld_self _ _ _ _ (by decide)]
    exact Nat.mod_eq_of_lt (bits_lt _ _ _)
  · rw [hu]
    exact exec_hostRequestFailed_cmd hf ha hk hfn hc

end Sys2Proof.Machine
end

section
/-! SPDM requests and sessions (O51), IDE streams and TDISP interfaces (O52) (R531, R560–R567). -/
namespace Sys2Proof.Machine

variable {s : State}

/-- A request that the responder serves is answered by its function. -/
theorem spdmDo_responds {need : Nat} (h : s.Responds need) (f : State → State) : spdmDo need s f = .next (f s) := by
  obtain ⟨hr, hb, hk, hd, ha, hres, hn⟩ := h
  unfold spdmDo
  exact (if_neg (by simp [hr, hb, hk, hd, ha])).trans ((if_neg (by simp [hres])).trans (if_neg (by omega)))

theorem sessionDo_responds (h : s.Responds 3) {sid : Nat} {done : Bool} {x : SpdmSession} (hx : s.stw.sessions.find? (fun y => y.id == sid && y.done == done) = some x)
    (f : SpdmSession → State) : sessionDo sid done s f = .next (f x) := by
  unfold sessionDo
  rw [spdmDo_responds h, hx]

theorem State.freeBytes_length (s : State) (n : Nat) : (s.freeBytes n).1.length = n := by
  simp [State.freeBytes]

section
/-! Negotiation (R560). -/

/-- Emitting a message of SPDM after a change of the steward keeps memory and registers. -/
theorem State.spdmStep_spec (s : State) (x : StwState) (e : Emit) :
    (({ s with stw := x } : State).emit e).stw = x ∧ (({ s with stw := x } : State).emit e).mem = s.mem ∧ (({ s with stw := x } : State).emit e).regs = s.regs :=
  ⟨State.emit_stw .., State.emit_mem .., State.emit_regs ..⟩

theorem exec_getVersion (h : s.Responds 0) :
    exec .getVersion s = .next ({ s with stw := { s.stw with spdmState := 1 } }.emit (.spdm 0x04 [0, 1, 0x00, 0x13])) := by
  show execGetVersion s = _
  rw [execGetVersion, spdmDo_responds h]

theorem exec_getCapabilities (h : s.Responds 1) (h1 : s.stw.spdmState = 1) :
    ∃ e, exec .getCapabilities s = .next (({ s with stw := { s.stw with spdmState := 2 } } : State).emit e) := by
  have hexec : exec .getCapabilities s = execGetCapabilities s := rfl
  rw [hexec, execGetCapabilities, spdmDo_responds h]
  exact ⟨_, congrArg _ (if_neg (not_not.2 h1))⟩

theorem exec_negotiateAlgorithms (h : s.Responds 2) (h2 : s.stw.spdmState = 2) :
    ∃ e, exec (.negotiateAlgorithms true) s = .next (({ s with stw := { s.stw with spdmState := 3 } } : State).emit e) := by
  have hexec : exec (.negotiateAlgorithms true) s = execNegotiateAlgorithms true s := rfl
  rw [hexec, execNegotiateAlgorithms, spdmDo_responds h]
  exact ⟨_, congrArg _ ((if_neg (not_not.2 h2)).trans (if_neg (by decide)))⟩

end

section
/-! Certificates, challenge and measurements (R560–R563). -/
variable (h : s.Responds 3)
include h

theorem exec_getDigests : exec .getDigests s = .next (s.emit (.spdm 0x01 ([1, 1] ++ sha384 s.certChain))) := by
  show execGetDigests s = _
  rw [execGetDigests, spdmDo_responds h]

theorem exec_getCertificate {off n : Nat} (ho : off ≤ s.certChain.length) {p : List Byte} (hp : p = (s.certChain.drop off).take n) :
    exec (.getCertificate 0 off n) s = .next (s.emit (.spdm 0x02 (leBytes 2 p.length ++ leBytes 2 (s.certChain.length - off - p.length) ++ p))) := by
  show execGetCertificate 0 off n s = _
  rw [execGetCertificate, spdmDo_responds h, hp]
  exact congrArg _ (if_neg (by omega))

theorem exec_challenge_zero : exec (.challenge 0) s = .next ((s.freeBytes 128).2.emit
    (.spdm 0x03 (sha384 s.certChain ++ (s.freeBytes 128).1.take 32 ++ zeros 2 ++ (s.freeBytes 128).1.drop 32))) := by
  show execChallenge 0 s = _
  rw [execChallenge, spdmDo_responds h]
  exact congrArg _ (if_neg (by omega))

theorem exec_challenge_other {slot : Nat} (hs : slot ≠ 0) : exec (.challenge slot) s = .next (s.spdmErr SE_INVALID) := by
  show execChallenge slot s = _
  rw [execChallenge, spdmDo_responds h]
  exact congrArg _ (if_pos hs)

/-- A challenge is answered by the chain's digest and 130 bytes of nonce, summary and signature. -/
theorem exec_challenge_signed : ∃ t sig, exec (.challenge 0) s = .next t ∧ t.sent.head? = some (.spdm 0x03 (sha384 s.certChain ++ sig)) ∧
    sig.length = 130 ∧ t.stw = s.stw := by
  have hlen := s.freeBytes_length 128
  refine ⟨_, (s.freeBytes 128).1.take 32 ++ zeros 2 ++ (s.freeBytes 128).1.drop 32, exec_challenge_zero h, ?_, ?_, State.emit_stw ..⟩
  · rw [State.emit_sent, List.append_assoc, List.append_assoc, List.append_assoc]
    rfl
  · simp [zeros, hlen]

theorem exec_getMeasurements {n : Nat} (signed : Bool) (hb : s.measBlocks n ≠ []) (hn : n ≠ 0) : exec (.getMeasurements n signed) s = .next ((s.freeBytes 128).2.emit
    (.spdm 0x60 (measRecord (s.measBlocks n) ((s.freeBytes 128).1.take 32) ++ (if signed = true then (s.freeBytes 128).1.drop 32 else [])))) := by
  show execGetMeasurements n signed s = _
  rw [execGetMeasurements, spdmDo_responds h]
  exact congrArg _ ((if_neg hn).trans (if_neg hb))

theorem exec_getMeasurements_signed {n : Nat} (signed : Bool) (hb : s.measBlocks n ≠ []) (hn : n ≠ 0) :
    ∃ t nonce sig, exec (.getMeasurements n signed) s = .next t ∧ nonce.length = 32 ∧ sig.length = (if signed = true then 96 else 0) ∧
      t.sent.head? = some (.spdm 0x60 (measRecord (s.measBlocks n) nonce ++ sig)) ∧ t.stw = s.stw := by
  have hlen := s.freeBytes_length 128
  refine ⟨_, (s.freeBytes 128).1.take 32, if signed = true then (s.freeBytes 128).1.drop 32 else [], exec_getMeasurements h signed hb hn, by simp [hlen], ?_, by rw [State.emit_sent]; rfl, State.emit_stw ..⟩
  cases signed <;> simp [hlen]

end

section
/-! Sessions (R531, R560). -/

/-- The first of the IDs 1 to 65 that no session has. -/
def freeSessionId (l : List SpdmSession) : Nat := (((List.range 65).map (fun i => i + 1)).find? (fun i => !l.any (fun x => x.id == i))).getD 1

/-- Fewer than 64 sessions leave one of the 65 IDs free. -/
theorem freeSessionId_fresh {l : List SpdmSession} (hl : l.length < 64) : ∀ y ∈ l, y.id ≠ freeSessionId l := by
  have hfree : ∃ i ∈ (List.range 65).map (fun i => i + 1), (!l.any (fun x => x.id == i)) = true := by
    by_contra hno
    push Not at hno
    have hsub : (List.range 65).map (fun i => i + 1) ⊆ l.map SpdmSession.id := fun i hi => by
      have := hno i hi
      simpa using this
    have hnodup : ((List.range 65).map (fun i => i + 1)).Nodup := List.nodup_range.map (fun a b h => Nat.succ.inj h)
    have := (List.subperm_of_subset hnodup hsub).length_le
    simp only [List.length_map, List.length_range] at this
    omega
  obtain ⟨i, hi⟩ := Option.isSome_iff_exists.1 (List.find?_isSome.2 hfree)
  have hnone := List.find?_some hi
  unfold freeSessionId
  rw [hi]
  intro y hy heq
  simp only [Bool.not_eq_true', List.any_eq_false] at hnone
  exact hnone y hy (by simpa using heq)

/-- KEY_EXCHANGE adds a session under a fresh ID. -/
theorem exec_keyExchange (h : s.Responds 3) (hl : s.stw.sessions.length < 64) :
    ∃ e, exec (.keyExchange 0) s = .next ((({ s with stw := { s.stw with sessions := s.stw.sessions ++ [{ id := freeSessionId s.stw.sessions, secret := s.free }] } } : State).freeBytes 240).2.emit e) := by
  have hexec : exec (.keyExchange 0) s = execKeyExchange 0 s := rfl
  rw [hexec, execKeyExchange, spdmDo_responds h]
  exact ⟨_, congrArg _ ((if_neg (by omega)).trans (if_neg (by omega)))⟩

theorem State.endSessions_none (s : State) (sid : Nat) : ∀ y ∈ (s.endSessions (fun y => y.id == sid)).stw.sessions, y.id ≠ sid := by
  intro y hy
  have := (List.mem_filter.1 hy).2
  simpa using this

end

/-- Settles O51: each request through what the responder does for it; the response codes and their bytes are those of log entry 115 (PRESUMED). -/
theorem spdmRequestsAreAnswered : Obligations.SpdmRequestsAreAnswered := by
  unfold Obligations.SpdmRequestsAreAnswered
  intro s slot off n sid fn x p signed
  refine ⟨exec_getVersion, fun h h1 => ?_, fun h h2 => ?_, exec_getDigests, fun h ho hp => exec_getCertificate h ho hp, exec_challenge_signed,
    fun h => exec_getMeasurements_signed h signed, fun h hl => ?_, fun h hx => ⟨?_, ?_⟩, fun h hx => ⟨sessionDo_responds h hx _, sessionDo_responds h hx _, ?_, fun hf => ?_⟩,
    fun h hf => ?_, fun h hs => exec_challenge_other h hs⟩
  · obtain ⟨e, he⟩ := exec_getCapabilities h h1
    obtain ⟨hstw, hmem, hregs⟩ := s.spdmStep_spec { s.stw with spdmState := 2 } e
    exact ⟨_, he, by rw [hstw], hmem, hregs⟩
  · obtain ⟨e, he⟩ := exec_negotiateAlgorithms h h2
    obtain ⟨hstw, hmem, hregs⟩ := s.spdmStep_spec { s.stw with spdmState := 3 } e
    exact ⟨_, he, by rw [hstw], hmem, hregs⟩
  · obtain ⟨e, he⟩ := exec_keyExchange h hl
    exact ⟨_, _, he, by rw [State.emit_stw]; rfl, freeSessionId_fresh hl, by rw [State.emit_mem]; rfl⟩
  · exact sessionDo_responds h hx _
  · exact sessionDo_responds h hx _
  · exact ⟨_, sessionDo_responds h hx _, by rw [State.emit_stw]; exact s.endSessions_none sid⟩
  · show execBindFn sid fn s = _
    rw [execBindFn, onFn, if_pos hf]
    exact sessionDo_responds h hx _
  · have hexec : exec (.selectFn fn) s = .next (({ s with stw := { s.stw with selFn := fn } } : State).emit (.spdm 0x7E [])) := by
      show execSelectFn fn s = _
      rw [execSelectFn, onFn, if_pos hf]
      exact spdmDo_responds h _
    obtain ⟨hstw, hmem, hregs⟩ := s.spdmStep_spec { s.stw with selFn := fn } (.spdm 0x7E [])
    exact ⟨_, hexec, by rw [hstw], hmem, hregs⟩

section
/-! IDE streams (R565). -/

theorem State.setIde_keyed (s : State) {l : List IdeStream} (h : l ≠ []) (e : Emit) :
    ((s.setIde l).emit e).stw.ide = l ∧ ((s.setIde l).emit e).fld 0 HIF_LINK_STATUS_IDE = 1 := by
  refine ⟨by rw [State.emit_stw]; unfold State.setIde; simp, ?_⟩
  rw [State.fld_congr (State.emit_regs ..)]
  unfold State.setIde
  rw [State.fld_setFld_self _ _ _ _ (by decide)]
  cases l with
  | nil => exact absurd rfl h
  | cons a l => rfl

/-- A stream that is not stopped is keyed unless its kind is full. -/
theorem exec_ideKm_keyed (h : s.Responds 3) {sid stream : Nat} {x : SpdmSession}
    (hx : s.stw.sessions.find? (fun y => y.id == sid && y.done == true) = some x) {fn : Option Nat} {l : List IdeStream}
    (hl : l = s.stw.ide.filter (fun y => y.id != stream))
    (hok : ¬ (fn.any (fun f => decide (256 ≤ f)) ∨ (fn.isNone ∧ l.any (fun x => x.fn.isNone)) ∨ (fn.isSome ∧ 8 ≤ (l.filter (fun x => x.fn.isSome)).length))) :
    exec (.ideKm sid stream fn false) s = .next ((s.setIde (l ++ [⟨stream, fn⟩])).emit (.spdm 0x7E [])) := by
  show execIdeKm sid stream fn false s = _
  rw [execIdeKm, sessionDo_responds h hx]
  dsimp only
  rw [← hl]
  exact congrArg _ ((if_neg (by decide)).trans (if_neg hok))

end

section
/-! TDISP (R565–R567). -/
variable {fn : Nat}

/-- A TDISP request of a virtual function within a session changes the interface and answers. -/
theorem tdispDo_answers (h : s.Responds 3) {sid : Nat} {x : SpdmSession} (hx : s.stw.sessions.find? (fun y => y.id == sid && y.done == true) = some x)
    (h0 : 0 < fn) (hf : fn < 256) (f : State → State) : tdispDo sid fn s f = .next ((f s).tdispAns fn) := by
  unfold tdispDo
  rw [onFn, if_pos hf, sessionDo_responds h hx]
  exact congrArg _ (if_neg (by omega))

theorem State.fn_tdispAns (s : State) (fn f : Nat) : (s.tdispAns fn).fn f = s.fn f := by
  unfold State.tdispAns
  dsimp only
  rw [State.fn_emit]
  rfl

theorem State.tdispAns_regs (s : State) (fn : Nat) : (s.tdispAns fn).regs = s.regs := by
  unfold State.tdispAns
  dsimp only
  rw [State.emit_regs]
  rfl

theorem State.tdispReport_emit (s : State) (e : Emit) (fn a b : Nat) : (s.emit e).tdispReport fn a b = s.tdispReport fn a b := by
  obtain ⟨x, n, he⟩ := s.emit_frame e
  rw [he]
  rfl

/-- A TDISP answer shows the interface's state and its report. -/
theorem State.tdispAns_head (s : State) (fn : Nat) : ∃ a b, (s.tdispAns fn).sent.head? = some (.tdisp fn (s.fn fn).tdisp ((s.tdispAns fn).tdispReport fn a b)) := by
  refine ⟨s.freeVal.1.toNat, s.freeVal.2.freeVal.1.toNat, ?_⟩
  unfold State.tdispAns
  dsimp only
  rw [State.tdispReport_emit, State.emit_sent]
  rfl

theorem exec_lockInterface (h : s.Responds 3) {sid : Nat} {x : SpdmSession} (hx : s.stw.sessions.find? (fun y => y.id == sid && y.done == true) = some x)
    (h0 : 0 < fn) (hf : fn < 256) (hA : s.stepA0 = false) (hu : (s.fn fn).tdisp = .unlocked) (hp : s.fnProv fn ≠ 0)
    (hs : (s.prov (s.fnProv fn)).st = .sealed_ ∨ (s.prov (s.fnProv fn)).st = .running ∨ (s.prov (s.fnProv fn)).st = .paused)
    (hi : s.stw.ide.any (fun y => y.fn == some fn) = true) (ha : s.fld fn HIF_FN_STATUS_ATTACH = 0) :
    exec (.lockInterface sid fn) s = .next ((s.setFn fn { (s.fn fn) with tdisp := .locked }).tdispAns fn) := by
  show execLockInterface sid fn s = _
  rw [execLockInterface, tdispDo_answers h hx h0 hf]
  dsimp only
  rw [if_pos ⟨hA, hu, hp, hs, hi, ha⟩]

theorem exec_startInterface (h : s.Responds 3) {sid : Nat} {x : SpdmSession} (hx : s.stw.sessions.find? (fun y => y.id == sid && y.done == true) = some x)
    (h0 : 0 < fn) (hf : fn < 256) (hl : (s.fn fn).tdisp = .locked) :
    exec (.startInterface sid fn) s = .next ((s.setFn fn { (s.fn fn) with tdisp := .run }).tdispAns fn) := by
  show execStartInterface sid fn s = _
  rw [execStartInterface, tdispDo_answers h hx h0 hf]
  dsimp only
  rw [if_pos hl]

theorem State.fn_discardHand (s : State) (k f : Nat) : ((s.dropStart k).discardHand k).fn f = s.fn f := by
  unfold State.discardHand State.dropStart
  (repeat' split) <;> simp

theorem State.fn_submit (s : State) (tile : Nat) (r : ChainReq) (c : TrickCtx) (after f : Nat) : (s.submit tile r c after).fn f = s.fn f := by
  unfold State.submit
  dsimp only
  (repeat' split) <;> simp

theorem State.fn_resubmitAll (s : State) (f : Nat) : s.resubmitAll.fn f = s.fn f := by
  unfold State.resubmitAll State.resubmit
  refine foldl_proj (State.fn · f) _ _ _ fun t e => ?_
  dsimp only
  rw [foldl_proj (State.fn · f) _ _ _ fun t x => t.fn_submit _ _ _ _ f, State.fn_setTile]

theorem State.fn_discardFn (s : State) (g f : Nat) : (s.discardFn g).fn f = s.fn f := by
  unfold State.discardFn
  dsimp only
  rw [State.fn_resubmitAll]
  refine (foldl_proj (State.fn · f) _ _ _ fun t b => ?_).trans (foldl_proj (State.fn · f) _ _ _ fun t k => t.fn_discardHand k f)
  split
  · split
    · rw [State.fn_raiseSev, State.contained, State.fn_setProv, State.fn_setBulk]
    · rfl
  · rfl

/-- The hands of an interface that stops are closed as DISCARD closes them. -/
def State.stopHands (s : State) (fn : Nat) : State :=
  (((s.hands.filter (fun e => e.2.fn == fn && s.handState e.1 != H_CLOSED)).map Prod.fst).foldl (fun s k => (s.dropStart k).discardHand k) s).discardFn fn

theorem State.fn_stopHands (s : State) (fn f : Nat) : (s.stopHands fn).fn f = s.fn f := by
  unfold State.stopHands
  rw [State.fn_discardFn]
  exact foldl_proj (State.fn · f) _ _ _ fun t k => t.fn_discardHand k f

theorem State.stopHands_mem (s : State) (fn : Nat) : (s.stopHands fn).mem = s.mem := by
  unfold State.stopHands
  rw [State.discardFn_mem]
  exact foldl_proj State.mem _ _ _ fun t k => by rw [State.discardHand_mem, State.dropStart_mem]

theorem exec_stopInterface (h : s.Responds 3) {sid : Nat} {x : SpdmSession} (hx : s.stw.sessions.find? (fun y => y.id == sid && y.done == true) = some x)
    (h0 : 0 < fn) (hf : fn < 256) :
    exec (.stopInterface sid fn) s = .next (((s.setFn fn { (s.fn fn) with tdisp := .unlocked }).stopHands fn).tdispAns fn) := by
  show execStopInterface sid fn s = _
  rw [execStopInterface, tdispDo_answers h hx h0 hf]
  rfl

theorem exec_tdispInterfaceError (hf : fn < 256) (ht : (s.fn fn).tdisp = .locked ∨ (s.fn fn).tdisp = .run) :
    exec (.tdispInterfaceError fn) s = .next (s.setFn fn { (s.fn fn) with tdisp := .error }) := by
  show execTdispInterfaceError fn s = _
  rw [execTdispInterfaceError, onFn, if_pos hf, State.tdispErr, if_pos ht]

end

/-- Settles O52: streams and interfaces within a complete session; the answer code is that of log entry 115 and the report's form that of log entry 116 (both PRESUMED). -/
theorem interfacesAreLockedAndStarted : Obligations.InterfacesAreLockedAndStarted := by
  unfold Obligations.InterfacesAreLockedAndStarted
  intro s sid stream fn x l h h0 hf hx hl
  refine ⟨?_, fun h8 => ?_, fun hnone => ?_, fun hA hu hp hs hi ha => ?_, fun ht => ?_, ?_, fun ht => ?_⟩
  · show execIdeKm sid stream none true s = _
    rw [execIdeKm, sessionDo_responds h hx, hl]
    rfl
  · exact ⟨_, exec_ideKm_keyed h hx hl (by simp; omega), s.setIde_keyed (by simp) _⟩
  · exact ⟨_, exec_ideKm_keyed h hx hl (by simpa using hnone), s.setIde_keyed (by simp) _⟩
  · obtain ⟨a, b, hhead⟩ := (s.setFn fn { (s.fn fn) with tdisp := .locked }).tdispAns_head fn
    rw [State.fn_setFn_self] at hhead
    exact ⟨_, a, b, exec_lockInterface h hx h0 hf hA hu hp hs hi ha, by rw [State.fn_tdispAns, State.fn_setFn_self], State.tdispAns_regs _ _,
      State.tdispAns_mem _ _, hhead⟩
  · exact ⟨_, exec_startInterface h hx h0 hf ht, by rw [State.fn_tdispAns, State.fn_setFn_self], State.tdispAns_regs _ _, State.tdispAns_mem _ _⟩
  · refine ⟨_, exec_stopInterface h hx h0 hf, by rw [State.fn_tdispAns, State.fn_stopHands, State.fn_setFn_self], ?_⟩
    rw [State.tdispAns_mem, State.stopHands_mem, State.setFn_mem]
  · exact ⟨_, exec_tdispInterfaceError hf ht, by rw [State.fn_setFn_self], rfl, fun f hne => State.fn_setFn_ne _ _ hne⟩

end Sys2Proof.Machine
end

section
/-! TSP connections and management frames (O53) (R545, R551, R568–R571, R579). -/
namespace Sys2Proof.Machine

variable {s : State} {conn : Nat}

/-! ## A connection in a list -/

/-- The connection `x` takes the place of the one that has its number, by `f`. -/
def onConn (conn : Nat) (f : TspConn → TspConn) (l : List TspConn) : List TspConn := l.map (fun c => if c.id = conn then f c else c)

/-- The connection of a number in a list. -/
def connIn (l : List TspConn) (n : Nat) : Option TspConn := l.find? (fun c => c.id == n)

theorem connIn_id {l : List TspConn} {n : Nat} {c : TspConn} (h : connIn l n = some c) : c.id = n := by
  simpa using List.find?_some h

theorem connIn_onConn (f : TspConn → TspConn) (hf : ∀ c, c.id = conn → (f c).id = conn) (l : List TspConn) (n : Nat) :
    connIn (onConn conn f l) n = if n = conn then (connIn l n).map f else connIn l n := by
  induction l with
  | nil => simp [connIn, onConn]
  | cons c l ih =>
    simp only [connIn, onConn, List.map_cons] at ih ⊢
    by_cases hc : c.id = conn
    · by_cases hn : n = conn
      · simp [hc, hn, hf c hc]
      · have : conn ≠ n := Ne.symm hn
        simpa [List.find?_cons, hc, hn, hf c hc, this] using ih
    · by_cases hn : c.id = n
      · have : n ≠ conn := fun h => hc (hn.trans h)
        simp [hn, this]
      · simpa [List.find?_cons, hc, hn] using ih

theorem connIn_removed (l : List TspConn) (n : Nat) : connIn (l.filter (fun c => c.id != conn)) n = if n = conn then none else connIn l n := by
  unfold connIn
  rw [List.find?_filter]
  split
  · rename_i h
    subst h
    simp [List.find?_eq_none]
  · rename_i h
    congr 1
    funext c
    by_cases hc : c.id = n <;> simp [hc, h]

/-! ## The connections of the state -/

theorem State.conn_eq (s : State) (n : Nat) : s.conn n = connIn s.stw.conns n := rfl

theorem State.setConns_stw (s : State) (l : List TspConn) : (s.setConns l).stw = { s.stw with conns := l } := by
  unfold State.setConns; simp

theorem State.conn_setConns (s : State) (l : List TspConn) (n : Nat) : (s.setConns l).conn n = connIn l n := by
  rw [State.conn_eq, State.setConns_stw]

theorem State.conn_emit (s : State) (e : Emit) (n : Nat) : (s.emit e).conn n = s.conn n := by
  rw [State.conn_eq, State.conn_eq, State.emit_stw]

theorem State.conn_answer (s : State) (k cmd st : Nat) (l : List Byte) (n : Nat) : (s.answer k cmd st l).conn n = s.conn n := by
  unfold State.answer
  split
  · exact s.conn_emit _ n
  · rfl

/-- An answer to a connection that is there is sent. -/
theorem State.answer_sent {c : TspConn} (h : s.conn conn = some c) (cmd st : Nat) (l : List Byte) :
    (s.answer conn cmd st l).sent.head? = some (.tsp conn cmd st l) := by
  unfold State.answer
  rw [h, if_pos (by rfl), State.emit_sent]
  rfl

/-- A connection that is changed is found changed, and no other one is. -/
theorem State.conn_changed {c : TspConn} (h : s.conn conn = some c) (f : TspConn → TspConn) (hf : ∀ c, c.id = conn → (f c).id = conn) :
    (s.setConns (onConn conn f s.stw.conns)).conn conn = some (f c) ∧ ∀ n, n ≠ conn → (s.setConns (onConn conn f s.stw.conns)).conn n = s.conn n := by
  rw [State.conn_eq] at h
  simp only [State.conn_setConns, connIn_onConn f hf, h]
  exact ⟨rfl, fun n hn => if_neg hn⟩

/-- A command that its connection may give is carried out. -/
theorem tspDo_serves {cmd : Nat} (h : s.Serves conn cmd) (f : State → State) : tspDo conn cmd s f = .next (f s) := by
  obtain ⟨c, hc, hr, hb, hn⟩ := h
  unfold tspDo
  rw [hc]
  dsimp only
  rw [if_neg (by rw [hr]; simp; omega), hn]

/-! ## The instructions -/

theorem exec_tspConnectionOpen {tls : TlsClient} {rev : Bool} {role : Nat} {r : Role} (hi : s.inReset = false) (hl : s.fld 0 STW_MGMT_LINK ≠ 0)
    (hr : s.stw.restarting = false) (h8 : s.stw.conns.length < 8) (hc : s.conn conn = none) (hk : s.stw.keys = true) (ht : TlsClient.ok tls = true)
    (hrole : s.clientRole tls.chain rev role = some r) :
    exec (.tspConnectionOpen conn tls rev role) s = .next ((s.emit (.tls conn s.certChain)).setConns (s.stw.conns ++ [{ id := conn, role := r }])) := by
  have hrole' : (s.emit (.tls conn s.certChain)).clientRole tls.chain rev role = some r := by
    rw [← hrole]
    unfold State.clientRole State.boot
    simp only [State.fld_emit]
  show execTspConnectionOpen conn tls rev role s = _
  rw [execTspConnectionOpen, if_neg (by simp [hi, hl, hr, hc, hk, ht]; omega)]
  dsimp only
  rw [hrole', State.emit_stw]

theorem State.opened_conns (s : State) (l : List TspConn) (e : Emit) (h : l.length ≤ 8) :
    ((s.emit e).setConns l).sent.head? = some e ∧ ((s.emit e).setConns l).stw.conns = l ∧ ((s.emit e).setConns l).fld 0 STW_MGMT_CONNS = l.length ∧
      ((s.emit e).setConns l).mem = s.mem := by
  refine ⟨?_, by rw [State.setConns_stw], ?_, by simp⟩
  · rw [State.setConns_sent, State.emit_sent]
    rfl
  · unfold State.setConns
    rw [State.fld_setFld_self _ _ _ _ (by decide)]
    exact Nat.mod_eq_of_lt (Nat.lt_of_le_of_lt h (by decide))

theorem exec_tspIdleTimeout (s : State) (conn : Nat) : exec (.tspIdleTimeout conn) s = .next (s.setConns (s.stw.conns.filter (fun c => c.id != conn))) := rfl

theorem State.closed_spec (s : State) (conn : Nat) :
    let t := s.setConns (s.stw.conns.filter (fun c => c.id != conn))
    t.conn conn = none ∧ (∀ n, n ≠ conn → t.conn n = s.conn n) ∧ t.mem = s.mem := by
  dsimp only
  rw [State.conn_setConns, connIn_removed]
  exact ⟨if_pos rfl, fun n hn => (State.conn_setConns ..).trans ((connIn_removed ..).trans (if_neg hn)), State.setConns_mem ..⟩

theorem exec_tspHello_early {lo hi : Nat} (hb : s.boot < BOOT_READY) : exec (.tspHello conn lo hi) s = .next s := by
  show execTspHello conn lo hi s = _
  rw [execTspHello, if_pos (Or.inr (Or.inr hb))]

section
variable {c : TspConn} (hc : s.conn conn = some c) (hr : s.stw.restarting = false)
include hc hr

theorem exec_tspHello_agrees {lo hi : Nat} (hb : BOOT_READY ≤ s.boot) (hv : lo ≤ 1 ∧ 1 ≤ hi) :
    exec (.tspHello conn lo hi) s = .next ((s.setConns (onConn conn (fun c => { c with hello := true }) s.stw.conns)).answer conn 1 HS_OK [1]) := by
  show execTspHello conn lo hi s = _
  rw [execTspHello, if_neg (by rw [hc, hr]; simp; omega), if_pos hv]
  rfl

theorem exec_tspHello_version {lo hi : Nat} (hb : BOOT_READY ≤ s.boot) (hv : ¬ (lo ≤ 1 ∧ 1 ≤ hi)) :
    exec (.tspHello conn lo hi) s = .next ((s.answer conn 1 TS_VERSION []).setConns ((s.answer conn 1 TS_VERSION []).stw.conns.filter (fun c => c.id != conn))) := by
  show execTspHello conn lo hi s = _
  rw [execTspHello, if_neg (by rw [hc, hr]; simp; omega), if_neg hv]

theorem exec_tspEventSend_event (h0 : c.lost = 0) {e : TspEvent} {l : List TspEvent} (hq : c.queue = e :: l) :
    exec (.tspEventSend conn) s = .next ((s.setConns (onConn conn (fun _ => { c with queue := l }) s.stw.conns)).emit (.tspEvent conn e)) := by
  show execTspEventSend conn s = _
  rw [execTspEventSend, hc]
  dsimp only
  rw [hr, h0, hq]
  rfl

theorem exec_tspEventSend_lost (h0 : 0 < c.lost) :
    exec (.tspEventSend conn) s = .next ((s.setConns (onConn conn (fun _ => { c with lost := 0 }) s.stw.conns)).emit (.tspEvent conn (.lost c.lost))) := by
  show execTspEventSend conn s = _
  rw [execTspEventSend, hc]
  dsimp only
  rw [hr]
  exact (if_neg (by decide)).trans (if_pos h0)

end

theorem exec_subscribe {classes : Nat} (h : s.Serves conn 6) :
    exec (.subscribe conn classes) s = .next ((s.setConns (onConn conn (fun c => { c with subs := classes % 16 }) s.stw.conns)).answer conn 6 HS_OK []) := by
  show execSubscribe conn classes s = _
  rw [execSubscribe, tspDo_serves h]
  rfl

section
/-! Management frames (R579). -/
variable (hi : s.inReset = false) (hl : s.fld 0 STW_MGMT_LINK ≠ 0) (hr : s.stw.restarting = false)
include hi hl hr

theorem exec_mgmtFrameReceived_ptp : exec (.mgmtFrameReceived .ptp) s = .next (s.emit (.mgmt .ptp)) := by
  show execMgmtFrameReceived .ptp s = _
  rw [execMgmtFrameReceived, if_neg (by simp [hi, hl, hr])]

theorem exec_mgmtFrameReceived_other : exec (.mgmtFrameReceived .other) s = .next s := by
  show execMgmtFrameReceived .other s = _
  rw [execMgmtFrameReceived, if_neg (by simp [hi, hl, hr])]

theorem exec_mgmtFrameReceived_tcp (port : Nat) :
    exec (.mgmtFrameReceived (.tcp port)) s = .next (if port = s.fld 0 STW_MGMT_TCP_PORT then s.emit (.mgmt (.tcp port)) else s) := by
  show execMgmtFrameReceived (.tcp port) s = _
  rw [execMgmtFrameReceived, if_neg (by simp [hi, hl, hr])]

/-- The frames of which 1,000 a second are served. -/
theorem exec_mgmtFrameReceived_limited {f : MgmtFrame} (hf : f = .arp ∨ f = .neighbour ∨ f = .echo) (hs : s.stw.mgmtSec = s.frameTime / 1000000000) :
    exec (.mgmtFrameReceived f) s = if 1000 ≤ s.stw.mgmtCount then .next s
      else .next (({ s with stw := { s.stw with mgmtSec := s.frameTime / 1000000000, mgmtCount := s.stw.mgmtCount + 1 } } : State).emit (.mgmt f)) := by
  show execMgmtFrameReceived f s = _
  rw [execMgmtFrameReceived, if_neg (by simp [hi, hl, hr])]
  dsimp only
  rw [if_pos hs.symm]
  rcases hf with rfl | rfl | rfl <;> rfl

end

/-- Settles O53: each instruction's next state, and what it leaves of the connections; nothing answers HELLO before READY (log entry 100, DEDUCED) and its payload is one byte
(log entry 101, DESIGN CHOICE). -/
theorem tspConnectionsAreServed : Obligations.TspConnectionsAreServed := by
  unfold Obligations.TspConnectionsAreServed
  intro s conn lo hi role classes tls rev r c e l f
  refine ⟨fun hi hl hr h8 hc hk ht hrole => ⟨_, exec_tspConnectionOpen hi hl hr h8 hc hk ht hrole, ?_⟩, ⟨_, exec_tspIdleTimeout s conn, s.closed_spec conn⟩,
    fun hc hr => ⟨fun hb hlo hhi => ⟨_, exec_tspHello_agrees hc hr hb ⟨hlo, hhi⟩, ?_⟩, exec_tspHello_early, fun hb hv => ⟨_, exec_tspHello_version hc hr hb hv, ?_⟩,
      fun h0 hq => ⟨_, exec_tspEventSend_event hc hr h0 hq, ?_⟩, fun h0 => ⟨_, exec_tspEventSend_lost hc hr h0, ?_⟩⟩,
    fun h hc => ⟨_, exec_subscribe h, ?_⟩,
    fun hi hl hr => ⟨exec_mgmtFrameReceived_ptp hi hl hr, exec_mgmtFrameReceived_other hi hl hr, exec_mgmtFrameReceived_tcp hi hl hr lo, fun hf hs hn => ?_, fun hf hs hn => ?_⟩⟩
  · have h := s.opened_conns (s.stw.conns ++ [{ id := conn, role := r }]) (.tls conn s.certChain) (by simpa using h8)
    rwa [List.length_append] at h
  · obtain ⟨hself, hothers⟩ := State.conn_changed hc (fun c => { c with hello := true }) fun _ h => h
    exact ⟨(State.conn_answer ..).trans hself, State.answer_sent hself .., fun n hn => (State.conn_answer ..).trans (hothers n hn)⟩
  · exact ⟨((s.answer conn 1 TS_VERSION []).closed_spec conn).1, by rw [State.setConns_sent]; exact State.answer_sent hc ..⟩
  · have hid : c.id = conn := connIn_id hc
    obtain ⟨hself, -⟩ := State.conn_changed hc (fun _ => { c with queue := l }) fun _ _ => hid
    exact ⟨(State.conn_emit ..).trans hself, by rw [State.emit_sent]; rfl⟩
  · have hid : c.id = conn := connIn_id hc
    obtain ⟨hself, -⟩ := State.conn_changed hc (fun _ => { c with lost := 0 }) fun _ _ => hid
    exact ⟨(State.conn_emit ..).trans hself, by rw [State.emit_sent]; rfl⟩
  · obtain ⟨hself, -⟩ := State.conn_changed hc (fun c => { c with subs := classes % 16 }) fun _ h => h
    exact ⟨(State.conn_answer ..).trans hself, State.answer_sent hself ..⟩
  · exact (exec_mgmtFrameReceived_limited hi hl hr hf hs).trans (if_pos hn)
  · exact ⟨_, (exec_mgmtFrameReceived_limited hi hl hr hf hs).trans (if_neg (by omega)), by rw [State.emit_stw], by rw [State.emit_sent]; rfl⟩

end Sys2Proof.Machine
end

section
/-! TSP reads of the device and its settings (O54) (R36, R43, R561, R580–R582). -/
namespace Sys2Proof.Machine

variable {s : State} {conn : Nat}

theorem State.answer_regs (s : State) (k cmd st : Nat) (l : List Byte) : (s.answer k cmd st l).regs = s.regs := (State.Tells.answer ..).regs

theorem State.answer_mer (s : State) (k cmd st : Nat) (l : List Byte) : (s.answer k cmd st l).mer = s.mer := by
  unfold State.answer
  split
  · exact State.emit_mer ..
  · rfl

theorem State.answer_stw (s : State) (k cmd st : Nat) (l : List Byte) : (s.answer k cmd st l).stw = s.stw := by
  unfold State.answer
  split
  · exact State.emit_stw ..
  · rfl

/-- To a connection that is there, an answer is sent. -/
theorem State.answer_eq_emit {s : State} (h : (s.conn conn).isSome = true) (cmd st : Nat) (l : List Byte) : s.answer conn cmd st l = s.emit (.tsp conn cmd st l) :=
  if_pos h

theorem State.Serves.isSome {cmd : Nat} (h : s.Serves conn cmd) : (s.conn conn).isSome = true := by
  obtain ⟨c, hc, -⟩ := h
  rw [hc]
  rfl

theorem exec_getIdentity (h : s.Serves conn 2) : exec (.getIdentity conn) s = .next (s.emit (.tsp conn 2 HS_OK
    (beBytes 8 (s.readAt ⟨.dev, 0, DEV_DEVID.off⟩ 8) ++ beBytes 4 (s.show4 .dev 0 DEV_IDENT.off) ++ beBytes 4 (s.show4 .dev 0 DEV_REVISION.off) ++
     beBytes 1 (s.fld 0 STW_STATUS_LC) ++ s.certChain))) := by
  show execGetIdentity conn s = _
  rw [execGetIdentity, tspDo_serves h, State.answer_eq_emit h.isSome]

theorem exec_getStatus (h : s.Serves conn 4) : exec (.getStatus conn) s = .next (s.emit (.tsp conn 4 HS_OK
    (beBytes 4 (s.show4 .stw 0 STW_STATUS.off) ++ beBytes 4 (s.show4 .mer 0 MER_STATUS.off) ++ beBytes 4 (s.show4 .stw 0 STW_BASFIN_WEAR.off) ++
     (s.provs.filter (fun e => e.2.st != .none_)).flatMap (fun e => beBytes 4 (s.show4 .prov e.1 PROV_STATE.off)) ++
     (s.net.links.filter (fun l => l.prov != 0)).flatMap (fun l => beBytes 1 l.prov ++ beBytes 8 l.devid ++ beBytes 1 l.mer) ++
     s.pwr.words.flatMap (beBytes 2)))) := by
  show execGetStatus conn s = _
  rw [execGetStatus, tspDo_serves h, State.answer_eq_emit h.isSome]

/-- The state after a read of a register: LATE of the global control clears as it is read. -/
def State.regRead (s : State) (r : RegAt) : State := (if r.block = .mer ∧ r.off = MER_GLOB_CTRL.off then s.setFld 0 MER_GLOB_CTRL_LATE 0 else s).spend

theorem State.regRead_spec (s : State) (r : RegAt) : (s.regRead r).stw = s.stw ∧ (s.regRead r).mem = s.mem := by
  unfold State.regRead
  split <;> simp

theorem exec_readReg (h : s.Serves conn 5) {n addr : Nat} (hn : n = 4 ∨ n = 8) {r : RegAt} (hr : dpaReg addr = some r) (ht : r.block.tspReads = true) :
    exec (.readReg conn addr n) s = .next ((s.regRead r).answer conn 5 HS_OK (beBytes n (s.readAt r n))) := by
  show execReadReg conn addr n s = _
  rw [execReadReg, tspDo_serves h, if_neg (by omega), hr]
  exact congrArg _ (if_neg (by simp [ht]))

section
variable (h : s.Serves conn 7)
include h

theorem exec_logRead_errors (hc : s.cartIn.isSome = true) (lo n : Nat) :
    exec (.logRead conn (.errors lo n)) s = .next (s.emit (.tsp conn 7 HS_OK (((s.errs.log.reverse.drop lo).take n).flatMap ErrRec.bytes))) := by
  show execLogRead conn (.errors lo n) s = _
  rw [execLogRead, tspDo_serves h, ← State.answer_eq_emit h.isSome]
  exact congrArg _ (if_neg (by rw [Option.isNone_eq_false_iff.2 hc]; decide))

theorem exec_logRead_modules (lo n : Nat) :
    exec (.logRead conn (.modules lo n)) s = .next (s.emit (.tsp conn 7 HS_OK (((s.net.modules.drop lo).take n).flatMap ModuleRec.bytes))) := by
  show execLogRead conn (.modules lo n) s = _
  rw [execLogRead, tspDo_serves h, ← State.answer_eq_emit h.isSome]

theorem exec_logRead_steps {p : Nat} (hp : p ≤ 255) (hst : (s.prov p).st ≠ .none_) (hl : (s.prov p).loaded = true) (lo n : Nat) :
    exec (.logRead conn (.steps p lo n)) s = .next (s.emit (.tsp conn 7 HS_OK (((s.stepRecs p).drop lo).take n).flatten)) := by
  show execLogRead conn (.steps p lo n) s = _
  rw [execLogRead, tspDo_serves h, ← State.answer_eq_emit h.isSome]
  exact congrArg _ ((if_neg (by simp [hst]; omega)).trans (if_neg (by simp [hl])))

end

theorem exec_imprintRead (h : s.Serves conn 8) {c : Cartridge} (hc : s.cartIn = some c) (lo n : Nat) :
    exec (.imprintRead conn lo n) s = .next (s.emit (.tsp conn 8 HS_OK
      (c.imprints.filter (fun r => decide (lo ≤ leAt r 16 8) && decide (leAt r 16 8 < lo + n))).flatten)) := by
  show execImprintRead conn lo n s = _
  rw [execImprintRead, tspDo_serves h, hc, ← State.answer_eq_emit h.isSome]

theorem exec_getCartouche (h : s.Serves conn 3) {nonce : List Byte} (hn : nonce.length = 32) :
    exec (.getCartouche conn nonce) s = .next ((s.freeBytes 96).2.answer conn 3 HS_OK (measRecord (s.measBlocks 0xFF) nonce ++ (s.freeBytes 96).1)) := by
  show execGetCartouche conn nonce s = _
  rw [execGetCartouche, tspDo_serves h]
  exact congrArg _ (if_neg (not_not.2 hn))

theorem exec_inletReport (h : s.Serves conn 0x42) {x : Int} (hlo : -32768 ≤ x) (hhi : x ≤ 32767) :
    exec (.inletReport conn x) s = .next (({ s with stw := { s.stw with inlet := some (x, s.frameTime) } } : State).answer conn 0x42 HS_OK []) := by
  show execInletReport conn x s = _
  rw [execInletReport, tspDo_serves h]
  exact congrArg _ (if_neg (by omega))

section
variable (h : s.Serves conn 0x30)
include h

theorem exec_merSet_prio1 {v : Nat} (hv : v ≤ 255) :
    exec (.merSet conn (.prio1 v)) s = .next (({ s with mer := { s.mer with prio1 := v } } : State).answer conn 0x30 HS_OK []) := by
  show execMerSet conn (.prio1 v) s = _
  rw [execMerSet, tspDo_serves h]
  exact congrArg _ (if_neg (by omega))

theorem exec_merSet_prio2 {v : Nat} (hv : v ≤ 255) :
    exec (.merSet conn (.prio2 v)) s = .next (({ s with mer := { s.mer with prio2 := v } } : State).answer conn 0x30 HS_OK []) := by
  show execMerSet conn (.prio2 v) s = _
  rw [execMerSet, tspDo_serves h]
  exact congrArg _ (if_neg (by omega))

theorem exec_merSet_clockClass {v : Nat} (hv : v ≤ 255) :
    exec (.merSet conn (.clockClass v)) s = .next (({ s with mer := { s.mer with clockClass := v } } : State).answer conn 0x30 HS_OK []) := by
  show execMerSet conn (.clockClass v) s = _
  rw [execMerSet, tspDo_serves h]
  exact congrArg _ (if_neg (by omega))

theorem exec_merSet_reg {addr v : Nat} {d : RegDef} (hd : Block.find .mer addr = some d) (hw : d.fields.any (fun f => f.acc == .rw || f.acc == .w1c) = true) :
    exec (.merSet conn (.reg addr v)) s = .next ((s.writeAt ⟨.mer, 0, addr⟩ (d.size / 8) v).ppsSettle.answer conn 0x30 HS_OK []) := by
  show execMerSet conn (.reg addr v) s = _
  rw [execMerSet, tspDo_serves h]
  dsimp only
  rw [hd]
  exact congrArg _ (if_neg (by simp [hw]))

theorem exec_merSet_arm : exec (.merSet conn .arm) s = .next (s.armSwitch.answer conn 0x30 HS_OK []) := by
  show execMerSet conn .arm s = _
  rw [execMerSet, tspDo_serves h]

end

/-- Settles O54: each command's next state; the layouts of what is read are the model's own (log entry 101, DESIGN CHOICE). -/
theorem tspReadsAndSettings : Obligations.TspReadsAndSettings := by
  unfold Obligations.TspReadsAndSettings
  intro s conn addr n lo v p r d c nonce x
  refine ⟨exec_getIdentity, exec_getStatus, fun h hn hr ht => ⟨_, exec_readReg h hn hr ht, ?_, ?_⟩,
    fun h => ⟨fun hc => exec_logRead_errors h hc lo n, exec_logRead_modules h lo n, fun hp hst hl => exec_logRead_steps h hp hst hl lo n⟩,
    fun h hc => exec_imprintRead h hc lo n, fun h hn => ⟨_, (s.freeBytes 96).1, exec_getCartouche h hn, s.freeBytes_length 96, ?_, State.answer_mem .., State.answer_regs ..⟩,
    fun h hlo hhi => ⟨_, exec_inletReport h hlo hhi, by rw [State.answer_stw], State.answer_mem .., State.answer_regs ..⟩,
    fun h => ⟨fun hv => ⟨⟨_, exec_merSet_prio1 h hv, State.answer_mer .., State.answer_mem .., State.answer_regs ..⟩,
      ⟨_, exec_merSet_prio2 h hv, State.answer_mer .., State.answer_mem .., State.answer_regs ..⟩,
      ⟨_, exec_merSet_clockClass h hv, State.answer_mer .., State.answer_mem .., State.answer_regs ..⟩⟩,
      fun hd hw => exec_merSet_reg h hd hw, exec_merSet_arm h⟩⟩
  · obtain ⟨c, hc, -⟩ := h
    obtain ⟨hstw, -⟩ := s.regRead_spec r
    refine State.answer_sent (c := c) ?_ ..
    rw [State.conn_eq, hstw]
    exact hc
  · rw [State.answer_mem]
    exact (s.regRead_spec r).2
  · obtain ⟨c, hc, -⟩ := h
    exact State.answer_sent (s := (s.freeBytes 96).2) hc ..

end Sys2Proof.Machine
end

section
/-! The commands of a province's life (O55) (R551–R559, R582). -/
namespace Sys2Proof.Machine

variable {s : State} {conn p : Nat}

/-! ## A province's state and its function's registers -/

theorem State.setPState_provs (s : State) (p : Nat) (st : PState) : (s.setPState p st).provs = (s.setProv p { (s.prov p) with st := st }).provs := rfl

theorem State.prov_setPState_self (s : State) (p : Nat) (st : PState) : (s.setPState p st).prov p = { (s.prov p) with st := st } :=
  (State.prov_congr (s.setPState_provs p st) p).trans (State.prov_setProv_self ..)

theorem State.prov_setPState_ne (s : State) {p q : Nat} (st : PState) (h : q ≠ p) : (s.setPState p st).prov q = s.prov q :=
  (State.prov_congr (s.setPState_provs p st) q).trans (State.prov_setProv_ne _ _ h)

theorem State.fld_setPState (s : State) (p : Nat) (st : PState) (w : Nat) (g : Fld) : (s.setPState p st).fld w g = (s.setFld p PROV_STATE_STATE st.code).fld w g :=
  State.fld_congr rfl w g

@[simp] theorem State.prov_bindFn (s : State) (f q : Nat) : (s.bindFn f).prov q = s.prov q := by
  unfold State.bindFn; simp

theorem State.fld_bindFn (s : State) {f w : Nat} {g : Fld} (hf : f < 2 ^ 24) (hw : w < 2 ^ 24) (h : g.reg.block.code ≠ Block.hifFn.code ∧ g.reg.off < 2 ^ 16) :
    (s.bindFn f).fld w g = s.fld w g := by
  unfold State.bindFn
  rw [State.fld_setFld_block _ _ hf hw ⟨h.1, h.2, by decide⟩, State.fld_setFld_block _ _ hf hw ⟨h.1, h.2, by decide⟩]

/-- BOUND and PROV show the function's province. -/
theorem State.fld_bindFn_prov (s : State) (f : Nat) (hf : f < 256) : (s.bindFn f).fld f HIF_FN_STATUS_PROV = s.fnProv f := by
  unfold State.bindFn
  rw [State.fld_setFld_self _ _ _ _ (by decide)]
  exact Nat.mod_eq_of_lt (s.fnProv_lt hf)

@[simp] theorem State.prov_showRes (s : State) (p q : Nat) : (s.showRes p).prov q = s.prov q := by
  unfold State.showRes; simp

theorem State.prov_answer (s : State) (k cmd st : Nat) (l : List Byte) (q : Nat) : (s.answer k cmd st l).prov q = s.prov q :=
  State.prov_congr (State.Tells.answer ..).provs q

theorem State.fld_answer (s : State) (k cmd st : Nat) (l : List Byte) (w : Nat) (g : Fld) : (s.answer k cmd st l).fld w g = s.fld w g :=
  State.fld_congr (State.answer_regs ..) w g

theorem State.tdispErr_regs (s : State) (f : Nat) : (s.tdispErr f).regs = s.regs := by
  unfold State.tdispErr
  split
  · rfl
  · rfl

theorem State.prov_tdispErr (s : State) (f q : Nat) : (s.tdispErr f).prov q = s.prov q := by
  unfold State.tdispErr
  split
  · exact State.prov_setFn ..
  · rfl

/-! ## A request that is served -/

/-- A request of a province in a state that it accepts is carried out. -/
theorem provDo_accepts {cmd : Nat} {ok : PState → Bool} (h : s.Serves conn cmd) (ha : s.Accepts p ok) (i : Instr) (f : State → State) :
    provDo i conn cmd p ok s f = .next (f s) := by
  obtain ⟨hst, hp, hbusy, hok⟩ := ha
  unfold provDo
  rw [tspDo_serves h]
  exact congrArg _ ((if_neg (by simp [hst]; omega)).trans ((if_neg (by simp [hbusy])).trans (if_neg (by simp [hok]))))

/-- A state accepted by one test is accepted by a weaker one. -/
theorem State.Accepts.mono {ok ok' : PState → Bool} (ha : s.Accepts p ok) (h : ∀ st, ok st = true → ok' st = true) : s.Accepts p ok' := by
  obtain ⟨hst, hp, hbusy, hok⟩ := ha
  exact ⟨hst, hp, hbusy, h _ hok⟩

/-! ## PROV_CREATE (R551, R552) -/

section
variable (h : s.Serves conn 0x10)
    (hlc : s.fld 0 STW_STATUS_LC = LC_MANUFACTURE ∨ s.fld 0 STW_STATUS_LC = LC_DEPLOYED ∨ s.fld 0 STW_STATUS_LC = LC_RETURNED)
    (h0 : 0 < p) (h255 : p ≤ 255) (hn : (s.prov p).st = .none_)
include h hlc h0 h255 hn

theorem exec_provCreate_empty : exec (.provCreate conn (some p) none) s = .next (((s.newProv p).showRes p).answer conn 0x10 HS_OK (leBytes 1 p)) := by
  show execProvCreate conn (some p) none s = _
  rw [execProvCreate, tspDo_serves h]
  exact congrArg _ ((if_neg (by omega)).trans ((if_neg (by omega)).trans (if_neg (not_not.2 hn))))

/-- Without an ID, the lowest that is free is taken. -/
theorem exec_provCreate_lowest (hlow : ∀ q, 0 < q → q < p → (s.prov q).st ≠ .none_) :
    exec (.provCreate conn none none) s = exec (.provCreate conn (some p) none) s := by
  have hfind : ((List.range 255).map (fun i => i + 1)).find? (fun n => (s.prov n).st == PState.none_) = some p := by
    rw [List.find?_map]
    have hrange : (List.range 255).find? ((fun n => (s.prov n).st == PState.none_) ∘ fun i => i + 1) = some (p - 1) := by
      refine List.find?_range_eq_some.2 ⟨?_, by simp; omega, fun j hj => ?_⟩
      · rw [Function.comp_apply, show p - 1 + 1 = p by omega, hn]
        rfl
      · rw [Function.comp_apply, Bool.not_eq_true']
        simpa using hlow (j + 1) (by omega) (by omega)
    rw [hrange]
    exact congrArg some (Nat.sub_add_cancel h0)
  rw [exec_provCreate_empty h hlc h0 h255 hn]
  show execProvCreate conn none none s = _
  rw [execProvCreate, tspDo_serves h]
  dsimp only
  rw [hfind]
  exact congrArg _ ((if_neg (by omega)).trans ((if_neg (by omega)).trans (if_neg (not_not.2 hn))))

theorem exec_provCreate_template {n : Nat} {r : List Byte} {u : State} (ht : (s.newProv p).template n = some r) (hu : (s.newProv p).fromTemplate p r = .ok u) :
    exec (.provCreate conn (some p) (some n)) s = .next ((u.showRes p).answer conn 0x10 HS_OK (leBytes 1 p)) := by
  show execProvCreate conn (some p) (some n) s = _
  rw [execProvCreate, tspDo_serves h]
  dsimp only
  rw [ht]
  dsimp only
  rw [hu]
  exact congrArg _ ((if_neg (by omega)).trans ((if_neg (by omega)).trans (if_neg (not_not.2 hn))))

end

theorem State.prov_newProv_self (s : State) (p : Nat) : (s.newProv p).prov p = { Prov.empty with st := .forming } := by
  unfold State.newProv
  rw [State.prov_bindFn, State.prov_setFld, State.prov_setPState_self, State.prov_setProv_self]
  rfl

theorem State.prov_newProv_ne (s : State) {p q : Nat} (h : q ≠ p) : (s.newProv p).prov q = s.prov q := by
  unfold State.newProv
  rw [State.prov_bindFn, State.prov_setFld, State.prov_setPState_ne _ _ h, State.prov_setProv_ne _ _ h, State.prov_clearRegs]

theorem State.fld_newProv (s : State) {p : Nat} (h255 : p ≤ 255) : (s.newProv p).fld p PROV_STATE_STATE = 0 ∧ (s.newProv p).fld p PROV_STATE_ID = p := by
  unfold State.newProv
  rw [State.fld_bindFn _ (by omega) (by omega) (by decide), State.fld_bindFn _ (by omega) (by omega) (by decide)]
  refine ⟨?_, ?_⟩
  · rw [State.fld_setFld_bits _ _ _ (by decide), State.fld_setPState, State.fld_setFld_self _ _ _ _ (by decide)]
    rfl
  · rw [State.fld_setFld_self _ _ _ _ (by decide)]
    exact Nat.mod_eq_of_lt (Nat.lt_succ_of_le h255)

/-- What shows a province's resources leaves its state and its ID. -/
theorem State.fld_showRes (s : State) (p : Nat) {g : Fld} (hg : g = PROV_STATE_STATE ∨ g = PROV_STATE_ID) : (s.showRes p).fld p g = s.fld p g := by
  unfold State.showRes
  dsimp only
  rcases hg with rfl | rfl <;>
    rw [State.fld_setFld_off _ _ (by decide), State.fld_setFld_off _ _ (by decide), State.fld_setFld_off _ _ (by decide), State.fld_setFld_off _ _ (by decide),
      State.fld_setFld_bits _ _ _ (by decide)]

theorem State.created_spec (s : State) {p : Nat} (conn : Nat) (h255 : p ≤ 255) :
    let t := ((s.newProv p).showRes p).answer conn 0x10 HS_OK (leBytes 1 p)
    (t.prov p).st = .forming ∧ (t.prov p).units = [] ∧ (t.prov p).chans = [] ∧ t.fld p PROV_STATE_STATE = 0 ∧ t.fld p PROV_STATE_ID = p ∧
      (∀ q, q ≠ p → t.prov q = s.prov q) ∧ t.mem = s.mem := by
  have hself : (((s.newProv p).showRes p).answer conn 0x10 HS_OK (leBytes 1 p)).prov p = { Prov.empty with st := .forming } := by
    rw [State.prov_answer, State.prov_showRes, State.prov_newProv_self]
  obtain ⟨hstate, hid⟩ := s.fld_newProv h255
  dsimp only
  rw [hself]
  refine ⟨rfl, rfl, rfl, ?_, ?_, fun q hq => ?_, ?_⟩
  · rw [State.fld_answer, State.fld_showRes _ _ (.inl rfl), hstate]
  · rw [State.fld_answer, State.fld_showRes _ _ (.inr rfl), hid]
  · rw [State.prov_answer, State.prov_showRes, State.prov_newProv_ne _ hq]
  · rw [State.answer_mem, ← s.newProv_mem p]
    unfold State.showRes
    simp

/-! ## Settings, ranks and the seal (R419, R554, R555) -/

theorem exec_provSet {u : State} {what : ProvSet} (h : s.Serves conn 0x11) (ha : s.Accepts p (fun st => st != .dissolving)) (hu : s.provSet p what = .ok u) :
    exec (.provSet conn p what) s = .next (u.answer conn 0x11 HS_OK []) := by
  show execProvSet conn p what s = _
  unfold execProvSet
  refine (provDo_accepts h (ha.mono fun st hst => by rw [hst, Bool.or_true]) _ _).trans ?_
  rw [hu]

theorem exec_provRanktab {bytes : List Byte} {es : List RankEnt} (h : s.Serves conn 0x12) (ha : s.Accepts p (fun st => st == .forming))
    (he : rankEntries bytes = some es) (h8 : ((es.foldl upsertRank (s.prov p).ranktab).filter (fun e => e.rank.isNone)).length ≤ 8) :
    exec (.provRanktab conn p bytes) s = .next ((s.setProv p { (s.prov p) with ranktab := es.foldl upsertRank (s.prov p).ranktab }).answer conn 0x12 HS_OK []) := by
  show execProvRanktab conn p bytes s = _
  rw [execProvRanktab, provDo_accepts h ha]
  rw [he]
  exact congrArg _ (if_neg (by omega))

/-- A seal is kept for the next boundary, or answered with the check that fails. -/
theorem exec_provSeal (h : s.Serves conn 0x13) (ha : s.Accepts p (fun st => st == .forming)) :
    exec (.provSeal conn p) s = .next (if s.sealCheck p ≠ HS_OK then s.answer conn 0x13 (s.sealCheck p) [] else s.setProv p { (s.prov p) with sealing := some conn }) := by
  show execProvSeal conn p s = _
  rw [execProvSeal, show TC_PROV_SEAL = 0x13 from rfl, provDo_accepts h ha]

theorem exec_provSeal_waits (h : s.Serves conn 0x13) (hst : (s.prov p).st ≠ .none_) (hp : p ≤ 255) (hb : s.provBusy p = true) :
    exec (.provSeal conn p) s = .next { s with stw := { s.stw with reqs := s.stw.reqs ++ [(p, .provSeal conn p)] } } := by
  show execProvSeal conn p s = _
  rw [execProvSeal, show TC_PROV_SEAL = 0x13 from rfl, provDo, tspDo_serves h]
  exact congrArg _ ((if_neg (by simp [hst]; omega)).trans (if_pos hb))

/-! ## Operations at named frames (R553, R556) -/

theorem exec_provPause (h : s.Serves conn 0x14) (ha : s.Accepts p (fun st => st == .running)) :
    exec (.provPause conn p) s = .next ((s.addWait conn 0x14 p).ask p .pause) := by
  show execProvPause conn p s = _
  rw [execProvPause, show TC_PROV_PAUSE = 0x14 from rfl]
  exact provDo_accepts h (ha.mono fun _ h => h) _ _

theorem exec_provResume (h : s.Serves conn 0x15) (ha : s.Accepts p (fun st => st == .paused)) :
    exec (.provResume conn p) s = .next ((s.addWait conn 0x15 p).ask p .resume) := by
  show execProvResume conn p s = _
  rw [execProvResume, show TC_PROV_RESUME = 0x15 from rfl]
  exact provDo_accepts h (ha.mono fun _ h => h) _ _

theorem exec_provSnapshot (h : s.Serves conn 0x16) (ha : s.Accepts p (fun st => st == .running)) :
    exec (.provSnapshot conn p) s = .next ((s.addWait conn 0x16 p).ask p .snapshot) := by
  show execProvSnapshot conn p s = _
  rw [execProvSnapshot, show TC_PROV_SNAPSHOT = 0x16 from rfl]
  exact provDo_accepts h (ha.mono fun _ h => h) _ _

theorem exec_provReset (h : s.Serves conn 0x17) (ha : s.Accepts p (fun st => st == .sealed_ || st == .running || st == .paused)) :
    exec (.provReset conn p) s = .next ((s.addWait conn 0x17 p).ask p .reset) := by
  show execProvReset conn p s = _
  rw [execProvReset, show TC_PROV_RESET = 0x17 from rfl]
  exact provDo_accepts h (ha.mono fun _ h => h) _ _

/-! ## Dissolution (R554, R558) -/

theorem exec_provDissolve (h : s.Serves conn 0x18) (hp : p ≤ 255) (hst : (s.prov p).st ≠ .none_) (hd : (s.prov p).st ≠ .dissolving) :
    exec (.provDissolve conn p) s = .next (if ((s.dissolve p).prov p).st = .none_ then (s.dissolve p).answer conn 0x18 HS_OK [] else (s.dissolve p).addWait conn 0x18 p) := by
  show execProvDissolve conn p s = _
  rw [execProvDissolve, show TC_PROV_DISSOLVE = 0x18 from rfl, tspDo_serves h]
  exact congrArg _ ((if_neg (by simp [hst]; omega)).trans (if_neg hd))

theorem exec_provDissolve_again (h : s.Serves conn 0x18) (hp : p ≤ 255) (hst : (s.prov p).st ≠ .none_) (hd : (s.prov p).st = .dissolving) :
    exec (.provDissolve conn p) s = .next (s.addWait conn 0x18 p) := by
  show execProvDissolve conn p s = _
  rw [execProvDissolve, show TC_PROV_DISSOLVE = 0x18 from rfl, tspDo_serves h]
  exact congrArg _ ((if_neg (by simp [hst]; omega)).trans (if_pos hd))

theorem exec_dissolutionComplete (hd : (s.prov p).st = .dissolving) (hc : ∀ c ∈ (s.prov p).chans, s.fld c MEM_STATUS_PROV ≠ p) :
    exec (.dissolutionComplete p) s = .next (((s.clearTables p).freeProv p).answerWaits p [0x18] HS_OK) := by
  show execDissolutionComplete p s = _
  rw [execDissolutionComplete]
  exact if_neg (by simpa [hd] using hc)

/-- A province whose ID is free does not exist. -/
theorem State.prov_freeProv (s : State) (p : Nat) : (s.freeProv p).prov p = Prov.empty := by
  unfold State.freeProv
  dsimp only
  split <;> simp

/-! ## Reads, the grant of PF0, stand-ins and recovery (R432, R506, R559, R582) -/

theorem exec_provRead {addr n : Nat} (h : s.Serves conn 0x19) (ha : s.Accepts p (fun st => st == .sealed_ || st == .paused)) (h0 : 0 < n) (hn : n ≤ 65536)
    (hw : (s.prov p).within .data addr n = true) (hp : s.vpoison p addr n = false) :
    exec (.provRead conn p addr n) s = .next (s.emit (.tsp conn 0x19 HS_OK (s.vbytes p addr n))) := by
  show execProvRead conn p addr n s = _
  rw [execProvRead, provDo_accepts h ha, ← State.answer_eq_emit h.isSome]
  exact congrArg _ ((if_neg (by omega)).trans ((if_neg (by simp [hw])).trans (if_neg (by simp [hp]))))

/-- PF0 is granted to a province, or to none. -/
def State.grant (s : State) (p : Nat) : State := (s.setFld 0 HIF_PF0_GRANT_PROV p).bindFn 0

theorem State.grant_spec (s : State) {p : Nat} (hp : p ≤ 255) (hst : p = 0 ∨ (s.prov p).st ≠ .none_) :
    (s.grant p).fld 0 HIF_PF0_GRANT_PROV = p ∧ (s.grant p).fld 0 HIF_FN_STATUS_PROV = p ∧ (s.grant p).mem = s.mem := by
  have hgrant : (s.setFld 0 HIF_PF0_GRANT_PROV p).fld 0 HIF_PF0_GRANT_PROV = p := by
    rw [State.fld_setFld_self _ _ _ _ (by decide)]
    exact Nat.mod_eq_of_lt (Nat.lt_succ_of_le hp)
  unfold State.grant
  refine ⟨?_, ?_, by simp⟩
  · rw [State.fld_bindFn _ (by decide) (by decide) (by decide), hgrant]
  · rw [State.fld_bindFn_prov _ _ (by decide), State.fnProv, if_pos rfl, hgrant]
    rcases hst with rfl | hst
    · exact if_pos (.inl rfl)
    · by_cases h0 : p = 0
      · rw [if_pos (.inl h0), h0]
      · exact if_neg (by rw [State.prov_setFld]; tauto)

theorem exec_provGrantPf0 (h : s.Serves conn 0x1A) (h0 : 0 < p) (ha : s.Accepts p (fun st => st != .dissolving)) :
    exec (.provGrantPf0 conn p) s = .next (((s.grant p).tdispErr p).answer conn 0x1A HS_OK []) := by
  show execProvGrantPf0 conn p s = _
  rw [execProvGrantPf0]
  refine (if_neg (by omega)).trans ((provDo_accepts h ha _ _).trans ?_)
  dsimp only
  rw [if_neg (by omega)]
  rfl

theorem exec_provGrantPf0_ends (h : s.Serves conn 0x1A) : exec (.provGrantPf0 conn 0) s = .next ((s.grant 0).answer conn 0x1A HS_OK []) := by
  show execProvGrantPf0 conn 0 s = _
  rw [execProvGrantPf0]
  exact (if_pos rfl).trans (tspDo_serves h _)

theorem exec_provStandin {rank epoch : Nat} (h : s.Serves conn 0x1B) (ha : s.Accepts p (fun st => st == .sealed_ || st == .paused)) (hn : 1 < s.nranks p)
    (hr : (s.prov p).ranktab.any (fun e => e.rank == some rank) = true) :
    exec (.provStandin conn p rank epoch) s = .next ((s.standin p rank epoch).answer conn 0x1B HS_OK []) := by
  show execProvStandin conn p rank epoch s = _
  rw [execProvStandin, provDo_accepts h ha]
  exact congrArg _ (if_neg (by simp [hr]; omega))

/-- A province in recovery, shown in its own state and the device's. -/
def State.recovering (s : State) (p : Nat) : State :=
  ((s.setProv p { (s.prov p) with recovery := true, recMark := true }).setFld p PROV_STATE_RECOVERY 1).setFld 0 STW_STATUS_RECOVERY_ANY 1

theorem exec_provRecover_on (h : s.Serves conn 0x50) (ha : s.Accepts p (fun st => st == .paused)) :
    exec (.provRecover conn p true) s = .next (((s.recovering p).tdispErr p).answer conn 0x50 HS_OK []) := by
  show execProvRecover conn p true s = _
  rw [execProvRecover, show TC_PROV_RECOVER = 0x50 from rfl]
  exact provDo_accepts h (ha.mono fun st hst => by rw [hst]; rfl) _ _

theorem State.recovering_spec (s : State) {p : Nat} (hp : p ≤ 255) (conn : Nat) :
    let t := ((s.recovering p).tdispErr p).answer conn 0x50 HS_OK []
    (t.prov p).recovery = true ∧ t.fld p PROV_STATE_RECOVERY = 1 ∧ t.fld 0 STW_STATUS_RECOVERY_ANY = 1 ∧ t.mem = s.mem := by
  refine ⟨?_, ?_, ?_, ?_⟩
  · rw [State.prov_answer, State.prov_tdispErr, State.recovering, State.prov_setFld, State.prov_setFld, State.prov_setProv_self]
  · rw [State.fld_answer, State.fld_congr (State.tdispErr_regs ..), State.recovering, State.fld_setFld_block _ _ (by decide) (by omega) (by decide),
      State.fld_setFld_self _ _ _ _ (by decide)]
    rfl
  · rw [State.fld_answer, State.fld_congr (State.tdispErr_regs ..), State.recovering, State.fld_setFld_self _ _ _ _ (by decide)]
    rfl
  · rw [State.answer_mem, State.tdispErr_mem, State.recovering, State.setFld_mem, State.setFld_mem, State.setProv_mem]

theorem exec_provRecover_off (h : s.Serves conn 0x50) (ha : s.Accepts p (fun st => st == .paused || st == .sealed_ || st == .running))
    (hr : (s.prov p).recovery = true) : exec (.provRecover conn p false) s = .next ((s.setProv p { (s.prov p) with ending := some conn }).tdispErr p) := by
  show execProvRecover conn p false s = _
  rw [execProvRecover, show TC_PROV_RECOVER = 0x50 from rfl]
  refine (provDo_accepts h (ha.mono fun st hst => ?_) _ _).trans (congrArg _ ((if_neg (by decide)).trans (if_neg (by simp [hr]))))
  rwa [Bool.or_assoc] at hst

/-- Settles O55: each command's next state; a PROV_SEAL that waits joins the requests (log entry 99, DEDUCED), PROV_CREATE answers with the ID (log entry 101, DESIGN CHOICE), and
the end of recovery is taken in SEALED and RUNNING too (log entry 106, DEDUCED). -/
theorem provincesLiveAndDissolve : Obligations.ProvincesLiveAndDissolve := by
  unfold Obligations.ProvincesLiveAndDissolve
  intro s u conn p rank epoch addr n what bytes r es
  refine ⟨fun h hlc h0 h255 hn => ⟨⟨_, exec_provCreate_empty h hlc h0 h255 hn, s.created_spec conn h255⟩, exec_provCreate_lowest h hlc h0 h255 hn,
      fun ht hu => exec_provCreate_template h hlc h0 h255 hn ht hu⟩,
    exec_provSet, exec_provRanktab, fun h => ⟨fun ha => ⟨fun hc => ?_, fun hc => ?_⟩, exec_provSeal_waits h⟩,
    exec_provPause, exec_provResume, exec_provSnapshot, exec_provReset, fun h hp hst => ⟨exec_provDissolve h hp hst, exec_provDissolve_again h hp hst⟩,
    fun hd hc => ⟨_, exec_dissolutionComplete hd hc, rfl, ?_⟩, fun h ha h0 hn hw hp => exec_provRead h ha h0 hn hw hp,
    fun h => ⟨fun h0 ha => ⟨_, exec_provGrantPf0 h h0 ha, ?_⟩, ⟨_, exec_provGrantPf0_ends h, ?_⟩⟩, fun h ha hn hr => exec_provStandin h ha hn hr,
    fun h => ⟨fun ha => ⟨_, exec_provRecover_on h ha, s.recovering_spec ?_ conn⟩, exec_provRecover_off h⟩⟩
  · exact (exec_provSeal h ha).trans (congrArg _ (if_neg (not_not.2 hc)))
  · exact (exec_provSeal h ha).trans (congrArg _ (if_pos hc))
  · rw [State.prov_congr (State.Tells.answerWaits ..).provs, State.prov_freeProv]
    rfl
  · obtain ⟨hst, hp, -, -⟩ := ha
    obtain ⟨hgrant, hprov, hmem⟩ := s.grant_spec hp (.inr hst)
    rw [State.fld_answer, State.fld_answer, State.answer_mem, State.fld_congr (State.tdispErr_regs ..), State.fld_congr (State.tdispErr_regs ..), State.tdispErr_mem]
    exact ⟨hgrant, hprov, hmem⟩
  · obtain ⟨hgrant, hprov, hmem⟩ := s.grant_spec (p := 0) (by decide) (.inl rfl)
    rw [State.fld_answer, State.fld_answer, State.answer_mem]
    exact ⟨hgrant, hprov, hmem⟩
  · obtain ⟨-, hp, -, -⟩ := ha
    exact hp

end Sys2Proof.Machine
end

section
/-! The steward's commands: tables, firmware, restarts, the life cycle, tests and imprints (O56) (R537–R549, R568–R577, R582, R591, R595–R598). -/
namespace Sys2Proof.Machine

variable {s : State} {conn : Nat} {c : Cartridge}

/-- The cartridge in use is the one that is in. -/
theorem State.cart_of_cartIn (hc : s.cartIn = some c) : s.stw.cart = some c := by
  unfold State.cartIn at hc
  split at hc
  · split at hc
    · cases hc
      assumption
    · cases hc
  · cases hc

/-! ## Tables, settings and credentials (R539, R582) -/

section
variable (hw : s.cartWritable = true)
include hw

theorem exec_tableLoad {img : TableImg} (h : s.Serves conn 0x52) (hs : s.tableSig img = true) (hok : TableImg.ok img = true)
    (hk : img.kind = .legend ∨ img.kind = .contour ∨ img.kind = .templates) : exec (.tableLoad conn img) s = .next ((s.putTable img).answer conn 0x52 HS_OK []) := by
  show execTableLoad conn img s = _
  rw [execTableLoad, tspDo_serves h]
  refine congrArg _ ((if_neg (by simp [hs])).trans ((if_neg (by simp [hw])).trans ?_))
  rcases hk with hk | hk | hk <;>
    · rw [hk]
      exact (if_neg (by simp [hok])).trans rfl

theorem exec_tableLoad_itinerary {img : TableImg} (h : s.Serves conn 0x52) (hs : s.tableSig img = true) (hok : TableImg.ok img = true) (hk : img.kind = .itinerary) :
    exec (.tableLoad conn img) s = .next ({ s.putTable img with pwr := { (s.putTable img).pwr with restart := true } }.answer conn 0x52 HS_OK []) := by
  show execTableLoad conn img s = _
  rw [execTableLoad, tspDo_serves h]
  refine congrArg _ ((if_neg (by simp [hs])).trans ((if_neg (by simp [hw])).trans ?_))
  rw [hk]
  exact (if_neg (by simp [hok])).trans rfl

theorem exec_fabricSet {img : TableImg} {fab : Fabric} (h : s.Serves conn 0x53) (hs : s.tableSig img = true) (hk : img.kind = .fabric) :
    exec (.fabricSet conn img fab) s = .next (((s.putTable img).applyFabric fab).answer conn 0x53 HS_OK []) := by
  show execFabricSet conn img fab s = _
  rw [execFabricSet, tspDo_serves h]
  exact congrArg _ ((if_neg (by simp [hs])).trans ((if_neg (by simp [hw])).trans (if_neg (not_not.2 hk))))

theorem exec_credSet {ca rev : TableImg} (h : s.Serves conn 0x54) (hca : s.tableSig ca = true) (hrev : s.tableSig rev = true) (hkca : ca.kind = .caList)
    (hkrev : rev.kind = .revocations) : exec (.credSet conn ca rev) s = .next (((s.putTable ca).putTable rev).answer conn 0x54 HS_OK []) := by
  show execCredSet conn ca rev s = _
  rw [execCredSet, tspDo_serves h]
  exact congrArg _ ((if_neg (by simp [hca, hrev])).trans ((if_neg (by simp [hw])).trans (if_neg (by simp [hkca, hkrev]))))

/-! ## Firmware (R575, R576) -/

theorem exec_fwStage {fw : FwImage} (hc : s.cartIn = some c) (h : s.Serves conn 0x55) (hs : fw.sigOk = true) (h128 : fw.svn ≤ 128) (hsvn : s.stw.svnFused ≤ fw.svn) :
    exec (.fwStage conn fw) s = .next (((s.setCart (if s.otherSlot then { c with fwB := some fw } else { c with fwA := some fw })).setUpdate 1).answer conn 0x55 HS_OK []) := by
  show execFwStage conn fw s = _
  rw [execFwStage, tspDo_serves h, hc]
  exact congrArg _ ((if_neg (by simp [hs]; omega)).trans ((if_neg (by omega)).trans (if_neg (by simp [hw]))))

end

section
variable {fw : FwImage} {prev : Bool} (hc : s.cartIn = some c) (h : s.Serves conn 0x56)
    (hu : s.fld 0 STW_STATUS_FW_UPDATE = (if prev = true then 3 else 1)) (hfw : fwSlot c s.otherSlot = some fw)
include hc h hu hfw

theorem exec_fwActivate_now (hw : s.activationWaits = false) :
    exec (.fwActivate conn prev) s = .next (((s.answer conn 0x56 HS_OK []).setFld 0 STW_STATUS_FW_UPDATE 2).beginRestart (some (fw, s.otherSlot, if prev = true then 3 else 1))) := by
  show execFwActivate conn prev s = _
  rw [execFwActivate, tspDo_serves h, hc, Option.bind_some, hfw, hu]
  exact congrArg _ ((if_neg (not_not.2 rfl)).trans (if_neg (by simp [hw])))

/-- An activation that has to wait stands among the requests until 10 s have passed. -/
theorem exec_fwActivate_waits (hw : s.activationWaits = true) : exec (.fwActivate conn prev) s = .next (
    if s.stw.actSince.getD s.frameTime + 10000000000 ≤ s.frameTime then ({ s with stw := { s.stw with actSince := none } } : State).answer conn 0x56 TS_BUSY []
    else { s with stw := { s.stw with actSince := some (s.stw.actSince.getD s.frameTime), reqs := s.stw.reqs ++ [(256, .fwActivate conn prev)] } }) := by
  show execFwActivate conn prev s = _
  rw [execFwActivate, tspDo_serves h, hc, Option.bind_some, hfw, hu]
  exact congrArg _ ((if_neg (not_not.2 rfl)).trans (if_pos hw))

end

theorem State.fld_setUpdate (s : State) (v : Nat) : (s.setUpdate v).fld 0 STW_STATUS_FW_UPDATE = v % 4 := by
  have hset : (s.setFld 0 STW_STATUS_FW_UPDATE v).fld 0 STW_STATUS_FW_UPDATE = v % 4 := State.fld_setFld_self _ _ _ _ (by decide)
  unfold State.setUpdate
  dsimp only
  split
  · split
    · exact (State.fld_congr rfl ..).trans hset
    · exact hset
  · exact hset

theorem State.setUpdate_svnFused (s : State) (v : Nat) : (s.setUpdate v).stw.svnFused = s.stw.svnFused := by
  unfold State.setUpdate
  dsimp only
  split
  · split
    · rw [State.setCart, State.setFld_stw]
    · rw [State.setFld_stw]
  · rw [State.setFld_stw]

/-- The SVN fuses of a committed image. -/
def State.fuseSvn (s : State) (n : Nat) : State := { s with stw := { s.stw with svnFused := n } }.setFld 0 STW_FW_VERSION_SVN_FUSED n

theorem exec_fwCommit {fw : FwImage} (h : s.Serves conn 0x57) (hr : s.stw.running = some fw) (hu : s.fld 0 STW_STATUS_FW_UPDATE = 3) :
    exec (.fwCommit conn) s = .next (((s.fuseSvn (min 128 (max s.stw.svnFused fw.svn))).setUpdate 0).answer conn 0x57 HS_OK []) := by
  show execFwCommit conn s = _
  rw [execFwCommit, tspDo_serves h, hr]
  exact congrArg _ (if_neg (not_not.2 hu))

theorem State.committed_spec (s : State) (n conn : Nat) :
    let t := ((s.fuseSvn n).setUpdate 0).answer conn 0x57 HS_OK []
    t.stw.svnFused = n ∧ t.fld 0 STW_STATUS_FW_UPDATE = 0 ∧ t.mem = s.mem := by
  refine ⟨?_, ?_, ?_⟩
  · rw [State.answer_stw, State.setUpdate_svnFused, State.fuseSvn, State.setFld_stw]
  · rw [State.fld_answer, State.fld_setUpdate]
  · rw [State.answer_mem, State.setUpdate_mem, State.fuseSvn, State.setFld_mem]

/-! ## Restarts (R576, R577, R591) -/

/-- A hand that loses its session changes no more than itself and its registers. -/
theorem State.handNoSession_stw (s : State) (k : Nat) : (s.handNoSession k).stw = s.stw := by
  unfold State.handNoSession
  split
  · simp
  · rfl

theorem State.tdispErr_stw (s : State) (f : Nat) : (s.tdispErr f).stw = s.stw := by
  unfold State.tdispErr
  split
  · exact State.setFn_stw ..
  · rfl

theorem State.stw_tdispErrs (l : List Nat) (s : State) : (l.foldl (fun s f => s.tdispErr f) s).stw = s.stw :=
  foldl_proj State.stw _ _ _ fun t f => t.tdispErr_stw f

theorem State.stw_handsNoSession (l : List (Nat × Hand)) (s : State) : (l.foldl (fun s e => s.handNoSession e.1) s).stw = s.stw :=
  foldl_proj State.stw _ _ _ fun t e => t.handNoSession_stw e.1

/-- A restart leaves no connection and no session. -/
theorem State.beginRestart_spec (s : State) (act : Option (FwImage × Bool × Nat)) :
    (s.beginRestart act).stw.restarting = true ∧ (s.beginRestart act).stw.conns = [] ∧ (s.beginRestart act).stw.sessions = [] ∧ (s.beginRestart act).mem = s.mem := by
  have hstw : ∃ x : StwState, (s.beginRestart act).stw = { x with restarting := true, conns := [], sessions := [] } := by
    unfold State.beginRestart
    dsimp only
    rw [State.stw_tdispErrs, State.stw_handsNoSession, State.setConns_stw]
    exact ⟨_, rfl⟩
  obtain ⟨x, hx⟩ := hstw
  rw [hx]
  exact ⟨rfl, rfl, rfl, State.beginRestart_mem ..⟩

theorem exec_stewardWatchdog (hr : s.inReset = false) (hs : s.stw.restarting = false) : exec .stewardWatchdog s = .next (s.beginRestart none) := by
  show execStewardWatchdog s = _
  rw [execStewardWatchdog]
  exact if_neg (by simp [hr, hs])

section
variable (hr : s.stw.restarting = true)
include hr

theorem exec_stewardRestartEnd_watchdog (ha : s.stw.activating = none) : exec (.stewardRestartEnd true) s =
    .next ({ s with stw := { s.stw with restarting := false, activating := none, lateImprints := [] } }.watchdogOver.lateMsgs.imprintsDue s.stw.lateImprints) := by
  show execStewardRestartEnd true s = _
  rw [execStewardRestartEnd, if_neg (by simp [hr]), ha]

theorem exec_stewardRestartEnd_starts {fw : FwImage} {b : Bool} {before : Nat} (hc : s.cartIn = some c) (ha : s.stw.activating = some (fw, b, before)) {u : State}
    (hu : u = ({ s with stw := { s.stw with restarting := false, activating := none, lateImprints := [], running := some fw, activations := s.stw.activations + 1 } } : State).deriveAlias) :
    exec (.stewardRestartEnd true) s = .next (((((u.setCart { c with slotB := b }).showFw fw).setFld 0 STW_STATUS_FW_SLOT (b01 b)).setUpdate 3).lateMsgs.imprintsDue s.stw.lateImprints) := by
  have hcart : u.stw.cart = some c := by
    rw [hu]
    exact State.cart_of_cartIn hc
  show execStewardRestartEnd true s = _
  rw [execStewardRestartEnd, if_neg (by simp [hr]), ha]
  dsimp only
  rw [if_pos rfl, ← hu, hcart]
  rfl

theorem exec_stewardRestartEnd_fails {fw : FwImage} {b : Bool} {before : Nat} (ha : s.stw.activating = some (fw, b, before)) :
    exec (.stewardRestartEnd false) s = .next ((({ s with stw := { s.stw with restarting := false, activating := none, lateImprints := [] } }.setUpdate before).raise
      { cause := FW_FAILED, die := 12 }).lateMsgs.imprintsDue s.stw.lateImprints) := by
  show execStewardRestartEnd false s = _
  rw [execStewardRestartEnd, if_neg (by simp [hr]), ha]
  exact if_neg (by decide)

end

/-! ## The life cycle (R545–R548) -/

theorem exec_lifecycle_tsp {tok : LifeToken} {u : State} (h : s.Serves conn 0x60) (hu : s.lifeStep tok false = .ok u) :
    exec (.lifecycle (some conn) tok) s = .next ((u.answer conn 0x60 HS_OK []).scrapConns) := by
  show execLifecycle (some conn) tok s = _
  rw [execLifecycle, tspDo_serves h, hu]

theorem exec_lifecycle_jtag {tok : LifeToken} {u : State} (hr : s.inReset = false) (hu : s.lifeStep tok true = .ok u) :
    exec (.lifecycle none tok) s = .next u.scrapConns := by
  show execLifecycle none tok s = _
  rw [execLifecycle, if_neg (by simp [hr]), hu]

theorem exec_takeOwnership (h : s.Serves conn 0x61) (key : List Byte) (hl : s.stw.life = LC_PROVISIONED) (hp : s.anyProv = false) (hw : s.cartWritable = true) :
    exec (.takeOwnership conn key true) s = .next (({ s with stw := { s.stw with owners := s.stw.owners ++ [sha384 key] } } : State).burnLife.answer conn 0x61 HS_OK []) := by
  show execTakeOwnership conn key true s = _
  rw [execTakeOwnership, tspDo_serves h]
  exact congrArg _ ((if_neg (not_not.2 hl)).trans ((if_neg (by simp [hp])).trans ((if_neg (by decide)).trans (if_neg (by simp [hw])))))

/-- The transition after PROVISIONED is DEPLOYED. -/
theorem StwState.life_deployed {x : StwState} (hl : x.life = LC_PROVISIONED) : ({ x with fuseK := x.fuseK + 1 } : StwState).life = LC_DEPLOYED := by
  unfold StwState.life at hl ⊢
  split at hl
  · exact absurd hl (by decide)
  · rename_i hscrap
    split at hl
    · exact absurd hl (by decide)
    · split at hl
      · exact absurd hl (by decide)
      · split at hl
        · rename_i h2
          dsimp only
          rw [if_neg hscrap, if_neg (by omega), if_neg (by omega), show (x.fuseK + 1) % 3 = 0 by omega]
          rfl
        · exact absurd hl (by decide)
        · exact absurd hl (by decide)

/-- A burned transition is shown, and counts a fuse. -/
theorem State.burnLife_spec (s : State) (hl : s.stw.life = LC_PROVISIONED) :
    s.burnLife.stw = { s.stw with fuseK := s.stw.fuseK + 1 } ∧ s.burnLife.fld 0 STW_STATUS_LC = LC_DEPLOYED := by
  unfold State.burnLife State.showLife
  refine ⟨by rw [State.setFld_stw, State.setFld_stw], ?_⟩
  rw [State.fld_setFld_bits _ _ _ (by decide), State.fld_setFld_self _ _ _ _ (by decide), StwState.life_deployed hl]
  rfl

theorem State.owned_spec (s : State) (conn : Nat) (key : List Byte) (hl : s.stw.life = LC_PROVISIONED) :
    let t := ({ s with stw := { s.stw with owners := s.stw.owners ++ [sha384 key] } } : State).burnLife.answer conn 0x61 HS_OK []
    t.stw.owners = s.stw.owners ++ [sha384 key] ∧ t.stw.fuseK = s.stw.fuseK + 1 ∧ t.stw.life = LC_DEPLOYED ∧ t.fld 0 STW_STATUS_LC = LC_DEPLOYED := by
  obtain ⟨hstw, hlc⟩ := State.burnLife_spec ({ s with stw := { s.stw with owners := s.stw.owners ++ [sha384 key] } } : State) hl
  dsimp only
  rw [State.answer_stw, State.fld_answer, hstw, hlc]
  exact ⟨rfl, rfl, StwState.life_deployed (x := { s.stw with owners := s.stw.owners ++ [sha384 key] }) hl, rfl⟩

/-! ## TEST_RUN and SHUTDOWN (R595–R598) -/

theorem exec_testRun {program : Nat} {units : List (Nat × Nat)} {ports : List Nat} {found : List ErrIn} {u : State} (h : s.Serves conn 0x40)
    (hu : s.runTest program units ports found = .ok u) : exec (.testRun conn program units ports found) s = .next (u.answer conn 0x40 HS_OK []) := by
  show execTestRun conn program units ports found s = _
  rw [execTestRun, tspDo_serves h, hu]

theorem State.runTest_full (units : List (Nat × Nat)) (ports : List Nat) (found : List ErrIn) (hl : s.fld 0 STW_STATUS_LC ≠ LC_DEPLOYED) (hp : s.anyProv = false) :
    s.runTest 2 units ports found = .ok ((found.foldl State.bistRec s).fullPass found).blowRepairs :=
  (if_neg (fun h => hl h.1)).trans (if_neg (by simp [hp]))

theorem State.runTest_release {units : List (Nat × Nat)} (ports : List Nat) (found : List ErrIn) (h0 : units ≠ [])
    (hfree : ∀ x ∈ units, x.1 < 8 ∧ x.2 < 32 ∧ s.unitOwner x.1 x.2 = 0) {u : State} (hu : u = found.foldl State.bistRec s) :
    s.runTest 4 units ports found = .ok { u with errs := { u.errs with untested := (u.errs.untested.filter (fun x => !units.contains x) ++
      units.filter (fun (x : Nat × Nat) => found.any (fun y => y.cause == BIST_UNREPAIRED && y.die == x.1 && u.logCol (recTile (errOf y)) == some x.2))) } } := by
  rw [hu]
  refine (if_neg (fun h => h.2 rfl)).trans ((if_neg ?_).trans (if_neg ?_))
  · rintro (h | h)
    · exact h0 h
    · obtain ⟨x, hx, hbad⟩ := List.any_eq_true.1 h
      obtain ⟨h8, h32, -⟩ := hfree x hx
      simp at hbad
      omega
  · intro h
    obtain ⟨x, hx, hbad⟩ := List.any_eq_true.1 h
    obtain ⟨-, -, howner⟩ := hfree x hx
    simp [howner] at hbad

theorem State.runTest_port (units : List (Nat × Nat)) {ports : List Nat} (found : List ErrIn) (hl : s.fld 0 STW_STATUS_LC ≠ LC_DEPLOYED) (h0 : ports ≠ [])
    (hfree : ∀ x ∈ ports, s.portLanes x ≠ 0 ∧ (s.port x).shares = []) : s.runTest 5 units ports found = .ok (found.foldl State.bistRec s) := by
  refine (if_neg (fun h => hl h.1)).trans ((if_neg ?_).trans (if_neg ?_))
  · rintro (h | h)
    · exact h0 h
    · obtain ⟨x, hx, hbad⟩ := List.any_eq_true.1 h
      exact (hfree x hx).1 (by simpa using hbad)
  · intro h
    obtain ⟨x, hx, hbad⟩ := List.any_eq_true.1 h
    simp [(hfree x hx).2] at hbad

/-- Every province that does not dissolve yet begins to. -/
def State.dissolveAll (s : State) : State := (s.provs.map Prod.fst).foldl (fun x p => if (x.prov p).st = .dissolving then x else x.dissolve p) s

theorem exec_shutdown {force : Bool} (h : s.Serves conn 0x41) (hp : s.anyProv = false ∨ force = true) :
    exec (.shutdown conn force) s = .next ((s.dissolveAll.answer conn 0x41 HS_OK []).setBoot BOOT_SHUTDOWN) := by
  show execShutdown conn force s = _
  rw [execShutdown, tspDo_serves h]
  refine congrArg _ (if_neg ?_)
  rcases hp with hp | hp <;> simp [hp]

theorem State.boot_setBoot (s : State) {n : Nat} (h : n < 16) : (s.setBoot n).boot = n :=
  (State.fld_setFld_self _ _ _ _ (by decide)).trans (Nat.mod_eq_of_lt h)

/-! ## Imprints (R568–R574, R577) -/

theorem exec_imprint_restarting {slot : Nat} (hr : s.stw.restarting = true) :
    exec (.imprint conn slot) s = .next { s with stw := { s.stw with reqs := s.stw.reqs ++ [(slot, .imprint conn slot)] } } :=
  if_pos hr

theorem exec_imprint_made {slot : Nat} {cut : Cut} (hc : s.cartIn = some c) (hw : s.cartWritable = true) (h : s.Serves conn 0x20) (ha : s.Accepts slot (fun _ => true))
    (hl : s.fld 0 STW_STATUS_LC = LC_DEPLOYED) (hd : s.cutDone slot = some cut) (hv : cut.verified = false) (hroom : c.imprints.length < 8388608) :
    exec (.imprint conn slot) s = .next (s.imprint conn slot cut c) := by
  have hr : s.stw.restarting = false := by
    obtain ⟨_, -, hr, -⟩ := h
    exact hr
  show execImprint conn slot s = _
  rw [execImprint, if_neg (by simp [hr]), provDo_accepts h ha, State.tryImprint]
  dsimp only
  rw [if_neg (not_not.2 hl), hd]
  dsimp only
  rw [if_neg (by simp [hv]), hc]
  exact congrArg _ ((if_neg (by simp [hw])).trans (if_neg (Nat.not_le.2 hroom)))

theorem exec_imprintRoll {seq : Nat} {r : List Byte} (hc : s.cartIn = some c) (hw : s.cartWritable = true) (h : s.Serves conn 0x51) (h2 : 2 ≤ c.imprints.length)
    (hr : c.imprints[c.imprints.length / 2 - 1]? = some r) (hq : leAt r 16 8 = seq) :
    exec (.imprintRoll conn seq) s = .next ((s.setCart { c with imprints := c.imprints.drop (c.imprints.length / 2) }).answer conn 0x51 HS_OK []) := by
  show execImprintRoll conn seq s = _
  rw [execImprintRoll, tspDo_serves h, hc]
  dsimp only
  rw [if_neg (by simp [hw]), hr]
  exact congrArg _ (if_neg (by omega))

/-- Settles O56: each command's next state; the earlier value of FW_UPDATE after a failed activation, the waiting FW_ACTIVATE among the requests and the 128 fuses are log entry 110
(DEDUCED), the end of a restart is log entry 111 (DEDUCED), and the conditions of the test programs log entry 120 (DESIGN CHOICE). -/
theorem stewardCommands : Obligations.StewardCommands := by
  unfold Obligations.StewardCommands
  intro s u conn seq slot before img ca rev fab fw c tok key r cut found units ports b prev force hc hw
  refine ⟨fun h hs hok => ⟨exec_tableLoad hw h hs hok, fun hk hu => ?_⟩, exec_fabricSet hw, exec_credSet hw, exec_fwStage hw hc, fun h hu hfw => ⟨exec_fwActivate_now hc h hu hfw, fun hwait ha => ?_, fun since hwait ha hlate => ?_⟩,
    fun h hr hu => ⟨_, exec_fwCommit h hr hu, s.committed_spec _ conn⟩, fun hr hs => ⟨_, exec_stewardWatchdog hr hs, s.beginRestart_spec none⟩,
    fun hr => ⟨exec_stewardRestartEnd_watchdog hr, fun ha => ⟨exec_stewardRestartEnd_starts hr hc ha, s.fld_setUpdate 3, exec_stewardRestartEnd_fails hr ha⟩⟩,
    exec_lifecycle_tsp, exec_lifecycle_jtag, fun h hl hp => ⟨_, exec_takeOwnership h key hl hp hw, s.owned_spec conn key hl⟩,
    fun h => ⟨fun hl hp => exec_testRun h (State.runTest_full units ports found hl hp), fun h0 hfree hu => exec_testRun h (State.runTest_release ports found h0 hfree hu),
      fun hl h0 hfree => exec_testRun h (State.runTest_port units found hl h0 hfree)⟩,
    fun h hp => ⟨_, exec_shutdown h hp, State.boot_setBoot _ (by decide), rfl⟩, exec_imprint_restarting, exec_imprint_made hc hw, fun h => exec_imprintRoll hc hw h⟩
  · rw [hu]
    exact exec_tableLoad_itinerary hw h hs hok hk
  · rw [exec_fwActivate_waits hc h hu hfw hwait, ha]
    exact congrArg _ (if_neg (by rw [Option.getD_none]; omega))
  · rw [exec_fwActivate_waits hc h hu hfw hwait, ha]
    exact congrArg _ (if_pos (by rw [Option.getD_some]; exact hlate))

end Sys2Proof.Machine
end

section
/-! The alert, and the registers of a function that detaches (R526, R591). -/
namespace Sys2Proof.Machine

variable {s : State} {w f : Nat} {g : Fld}

/-! ## The alert and the registers of a function -/

theorem State.fld_alertView (s : State) (hw : w < 2 ^ 24) (h : g.reg.off < 2 ^ 16 ∧ g.reg.block ≠ .tst) : s.alertView.fld w g = s.fld w g := by
  unfold State.fld
  rw [State.reg_alertView _ hw h.1 h.2]

theorem State.fld_alertView_alert (s : State) : s.alertView.fld 0 TST_STATUS_ALERT = b01 (s.errs.pulse || s.errs.held || s.errs.heldClk) := by
  unfold State.alertView
  rw [State.fld_setFld_self _ _ _ _ (by decide)]
  cases (s.errs.pulse || s.errs.held || s.errs.heldClk) <;> rfl

theorem State.fld_clearRegs (s : State) {b : Block} {u : Nat} (hw : w < 2 ^ 24) (hu : u < 2 ^ 24) (hg : g.reg.off < 2 ^ 16) (h : g.reg.block.code ≠ b.code ∨ w ≠ u) :
    (s.clearRegs b u).fld w g = s.fld w g := by
  have hkey : ¬ (g.reg.key w / 2 ^ 16 == b.code * 2 ^ 24 + u) = true := by
    unfold Reg.key
    simp only [beq_iff_eq]
    omega
  unfold State.fld State.reg State.clearRegs
  rw [Sparse.get_drop, if_neg hkey]

/-! ## A function that detaches (R526) -/

/-- What a request to the parent or an announcement keeps. -/
theorem State.requestUp_keeps (s : State) (p : Nat) (op : GlobOp) : (s.requestUp p op).regs = s.regs ∧ (s.requestUp p op).dlUp = s.dlUp := by
  unfold State.requestUp
  split
  · obtain ⟨-, -, -, -, hregs, -⟩ := State.announce_spec (s.rootFrame p).2 p op (s.rootFrame p).1 false
    refine ⟨hregs, ?_⟩
    unfold State.rootAnnounce State.announce
    dsimp only
    rw [State.setProv_dlUp]
    exact foldl_proj State.dlUp _ _ _ fun t c => State.emit_dlUp ..
  · exact ⟨State.emit_regs .., State.emit_dlUp ..⟩

/-- The open hands of a function that detaches are SUSPENDED. -/
def State.suspendHands (s : State) (f : Nat) : State := s.hands.foldl (fun s e =>
  if e.2.fn = f ∧ s.handState e.1 = H_OPEN then (s.setHand e.1 { (s.hand e.1) with mismatch := none }).setFld e.1 HAND_STATUS_STATE H_SUSPENDED else s) s

/-- Its sessions end, its interface unlocks, and PF0 takes the negotiation with it. -/
def State.endFn (s : State) (f : Nat) : State :=
  let s : State := (s.endSessions (fun x => x.fn == some f || f == 0)).unlockFn f
  if f = 0 then { s with stw := { s.stw with spdmState := 0, selFn := 0 } } else s

/-- A running province pauses where its policy says so. -/
def State.pausePolicy (s : State) (p : Nat) : State :=
  if p ≠ 0 ∧ s.fld p PROV_HOST_POLICY_PAUSE = 1 ∧ (s.prov p).st = .running then s.requestUp p .pause else s

/-- What detaching does once the registers of the function are those of a DETACHED one. -/
def State.suspendFn (s : State) (f : Nat) : State :=
  (((s.holdChains f).suspendHands f).endFn f).pausePolicy ((s.holdChains f).fnProv f)

/-- A function that detaches loses what its host had set, its Inset reads that wait, and its registers. -/
def State.dropFn (s : State) (f cause : Nat) : State :=
  let s := s.setFn f { (s.fn f) with bme := false, detachFrame := s.frame, cause := cause, lost := false, record := [], latch := none, msix := [], pend := 0, numVfs := 0 }
  { s with memc := { s.memc with insets := s.memc.insets.filter (fun x => x.fn != f) } }

theorem State.detachFn_again (h : s.fld f HIF_FN_STATUS_ATTACH = 1) (cause : Nat) :
    s.detachFn f cause = if cause = 0 then (if cause = 1 then s else s.unlockFn f).resetFnRegs f else if cause = 1 then s else s.unlockFn f :=
  if_pos h

theorem State.detachFn_attached (h : ¬ s.fld f HIF_FN_STATUS_ATTACH = 1) (cause : Nat) : s.detachFn f cause = ((s.dropFn f cause).resetFnRegs f).suspendFn f :=
  if_neg h

section
variable (hw : w < 2 ^ 24) (h : g.reg.off < 2 ^ 16 ∧ g.reg.off ≠ HAND_STATUS.off ∧ g.reg.block.code ≠ Block.hifDev.code)
include hw h

theorem State.fld_unlockFn (s : State) (f : Nat) : (s.unlockFn f).fld w g = s.fld w g := by
  unfold State.unlockFn
  dsimp only
  rw [State.fld_setFld_block _ _ (by decide) hw ⟨h.2.2, h.1, by decide⟩]
  exact State.fld_congr rfl w g

omit hw in
theorem State.fld_suspendHands (s : State) (f : Nat) : (s.suspendHands f).fld w g = s.fld w g := by
  refine foldl_proj (State.fld · w g) _ _ _ fun t e => ?_
  split
  · exact (State.fld_setFld_off (f := HAND_STATUS_STATE) _ _ ⟨h.2.1, h.1, by decide⟩).trans (State.fld_setHand ..)
  · rfl

theorem State.fld_endFn (s : State) (f : Nat) : (s.endFn f).fld w g = s.fld w g := by
  have hunlock : ((s.endSessions (fun x => x.fn == some f || f == 0)).unlockFn f).fld w g = s.fld w g :=
    (State.fld_unlockFn hw h _ f).trans (State.fld_congr rfl w g)
  unfold State.endFn
  dsimp only
  split
  · exact (State.fld_congr rfl w g).trans hunlock
  · exact hunlock

theorem State.fld_suspendFn (s : State) (f : Nat) : (s.suspendFn f).fld w g = s.fld w g := by
  have hends : (((s.holdChains f).suspendHands f).endFn f).fld w g = s.fld w g :=
    (State.fld_endFn hw h _ f).trans ((State.fld_suspendHands h _ f).trans (State.fld_congr rfl w g))
  unfold State.suspendFn State.pausePolicy
  split
  · exact (State.fld_congr (State.requestUp_keeps _ _ _).1 w g).trans hends
  · exact hends

/-- The registers of `f` apart, nothing that it is reset to is seen. -/
theorem State.fld_resetFnRegs (s : State) {f : Nat} (hf : f < 2 ^ 24) (hg : g.reg.block.code ≠ Block.hifFn.code ∨ w ≠ f) : (s.resetFnRegs f).fld w g = s.fld w g := by
  have hset : ∀ (x : State) (k : Fld) (v : Nat), k.reg = HIF_FN_STATUS → (x.setFld f k v).fld w g = x.fld w g := fun x k v hk =>
    State.fld_setFld_other _ _ (by rw [hk]; exact key_ne hw hf h.1 (by decide) (hg.imp_right Or.inl))
  unfold State.resetFnRegs
  dsimp only
  rw [hset _ _ _ rfl, hset _ _ _ rfl, hset _ _ _ rfl, State.fld_clearRegs _ hw hf h.1 hg]

theorem State.fld_detachFn (s : State) {f : Nat} (hf : f < 2 ^ 24) (cause : Nat) (hg : g.reg.block.code ≠ Block.hifFn.code ∨ w ≠ f) :
    (s.detachFn f cause).fld w g = s.fld w g := by
  have hunlock : (if cause = 1 then s else s.unlockFn f).fld w g = s.fld w g := by
    split
    · rfl
    · exact State.fld_unlockFn hw h s f
  by_cases ha : s.fld f HIF_FN_STATUS_ATTACH = 1
  · rw [State.detachFn_again ha]
    split
    · exact (State.fld_resetFnRegs hw h _ hf hg).trans hunlock
    · exact hunlock
  · rw [State.detachFn_attached ha, State.fld_suspendFn hw h, State.fld_resetFnRegs hw h _ hf hg]
    exact State.fld_congr rfl w g

theorem State.fld_detachAll (s : State) (cause : Nat) (hg : g.reg.block.code ≠ Block.hifFn.code) : (s.detachAll cause).fld w g = s.fld w g := by
  unfold State.detachAll allFns
  exact foldl_keeps_mem (P := fun x : State => x.fld w g = s.fld w g) _ _ _ rfl fun x k hk hx =>
    (State.fld_detachFn hw h x (lt_trans (List.mem_range.1 hk) (by decide)) cause (.inl hg)).trans hx

end

theorem State.attach_resetFnRegs (s : State) (f : Nat) : (s.resetFnRegs f).fld f HIF_FN_STATUS_ATTACH = 1 := by
  unfold State.resetFnRegs
  dsimp only
  rw [State.fld_setFld_bits _ _ _ (by decide), State.fld_setFld_bits _ _ _ (by decide), State.fld_setFld_self _ _ _ _ (by decide)]
  rfl

/-- A function that detaches is DETACHED. -/
theorem State.attach_detachFn (s : State) {f : Nat} (hf : f < 2 ^ 24) (cause : Nat) : (s.detachFn f cause).fld f HIF_FN_STATUS_ATTACH = 1 := by
  by_cases ha : s.fld f HIF_FN_STATUS_ATTACH = 1
  · rw [State.detachFn_again ha]
    split
    · exact State.attach_resetFnRegs ..
    · split
      · exact ha
      · exact (State.fld_unlockFn hf (by decide) s f).trans ha
  · rw [State.detachFn_attached ha, State.fld_suspendFn hf (by decide)]
    exact State.attach_resetFnRegs ..

/-- Every function is DETACHED when all of them detach. -/
theorem State.attach_detachAll (s : State) (cause : Nat) {n : Nat} (hn : n < 256) : (s.detachAll cause).fld n HIF_FN_STATUS_ATTACH = 1 := by
  have hkeeps : ∀ (l : List Nat) (x : State), (∀ k ∈ l, k < 256) → (x.fld n HIF_FN_STATUS_ATTACH = 1 ∨ n ∈ l) →
      (l.foldl (fun s f => s.detachFn f cause) x).fld n HIF_FN_STATUS_ATTACH = 1 := by
    intro l
    induction l with
    | nil => exact fun x _ h => h.resolve_right (by simp)
    | cons k l ih =>
      intro x hl h
      have hk : k < 2 ^ 24 := lt_trans (hl k List.mem_cons_self) (by decide)
      refine ih _ (fun j hj => hl j (List.mem_cons_of_mem _ hj)) ?_
      by_cases hkn : n = k
      · exact .inl (by rw [hkn]; exact State.attach_detachFn x hk cause)
      · refine h.imp (fun h => ?_) fun h => (List.mem_cons.1 h).resolve_left hkn
        exact (State.fld_detachFn (lt_trans hn (by decide)) (by decide) x hk cause (.inr hkn)).trans h
  have hmem : ∀ k, k ∈ allFns ↔ k < 256 := fun k => List.mem_range
  unfold State.detachAll
  generalize allFns = l at hmem
  exact hkeeps l s (fun k hk => (hmem k).1 hk) (.inr ((hmem n).2 hn))

theorem State.dlUp_unlockFn (s : State) (f : Nat) : (s.unlockFn f).dlUp = s.dlUp := by
  unfold State.unlockFn; simp

theorem State.dlUp_resetFnRegs (s : State) (f : Nat) : (s.resetFnRegs f).dlUp = s.dlUp := by
  unfold State.resetFnRegs; simp

theorem State.dlUp_suspendFn (s : State) (f : Nat) : (s.suspendFn f).dlUp = s.dlUp := by
  have hhands : ((s.holdChains f).suspendHands f).dlUp = s.dlUp := foldl_proj State.dlUp _ _ _ fun t e => by split <;> simp
  have hends : (((s.holdChains f).suspendHands f).endFn f).dlUp = s.dlUp := by
    refine Eq.trans ?_ hhands
    unfold State.endFn
    dsimp only
    split
    · exact State.dlUp_unlockFn _ f
    · exact State.dlUp_unlockFn _ f
  unfold State.suspendFn State.pausePolicy
  split
  · exact (State.requestUp_keeps _ _ _).2.trans hends
  · exact hends

theorem State.dlUp_detachFn (s : State) (f cause : Nat) : (s.detachFn f cause).dlUp = s.dlUp := by
  by_cases ha : s.fld f HIF_FN_STATUS_ATTACH = 1
  · rw [State.detachFn_again ha]
    split <;> split <;> simp [State.dlUp_unlockFn, State.dlUp_resetFnRegs]
  · rw [State.detachFn_attached ha, State.dlUp_suspendFn, State.dlUp_resetFnRegs]
    rfl

theorem State.dlUp_detachAll (s : State) (cause : Nat) : (s.detachAll cause).dlUp = s.dlUp := by
  unfold State.detachAll
  generalize allFns = l
  exact foldl_proj State.dlUp _ _ _ fun t f => t.dlUp_detachFn f cause

end Sys2Proof.Machine
end

section
/-! Reset, boot stages, reference clocks and the cartridge (O57) (R536–R550, R647–R656). -/
namespace Sys2Proof.Machine

variable {s : State} {c : Cartridge}

/-- The alert's view of other held causes changes no register but the test block's. -/
theorem State.fld_alertView_errs (s : State) (x : ErrState) {g : Fld} (hg : g.reg.off < 2 ^ 16 ∧ g.reg.block ≠ .tst) : ({ s with errs := x } : State).alertView.fld 0 g = s.fld 0 g :=
  (State.fld_alertView _ (by decide) hg).trans (State.fld_congr rfl 0 g)

/-! ## Reset (R649, R656) -/

/-- Saving the repair map changes the saved map alone. -/
theorem State.saveRepair_frame (s : State) : ∃ x, s.saveRepair = { s with errs := { s.errs with saved := x } } := by
  unfold State.saveRepair
  split
  · split
    · exact ⟨_, rfl⟩
    · exact ⟨_, rfl⟩
  · exact ⟨_, rfl⟩

/-- A device that is reset stands in stage ROM. -/
theorem State.boot_cleared (s : State) : s.cleared.boot = BOOT_ROM := by
  have hreset : State.reset.fld 0 STW_STATUS_BOOT = BOOT_ROM := by decide
  exact (State.fld_congr (t := s.cleared) (s := State.reset) rfl _ _).trans hreset

theorem State.deviceReset_spec (s : State) : s.deviceReset.pinReset = s.pinReset ∧ s.deviceReset.railLow = s.railLow ∧ s.deviceReset.boot = BOOT_ROM ∧
    s.deviceReset.mem = [] ∧ s.deviceReset.provs = [] ∧ s.deviceReset.stw.fuseK = s.stw.fuseK ∧ s.deviceReset.stw.cart = s.stw.cart ∧
    s.deviceReset.errs.log = s.errs.log ∧ s.deviceReset.errs.queues = [] := by
  obtain ⟨x, hx⟩ := s.saveRepair_frame
  unfold State.deviceReset
  rw [State.boot_cleared, hx]
  exact ⟨rfl, rfl, rfl, rfl, rfl, rfl, rfl, rfl, rfl⟩

theorem exec_devResetNRelease (hp : s.pinReset = true) :
    exec .devResetNRelease s = .next (if s.railLow = [] then { s with pinReset := false }.leaveReset else { s with pinReset := false }) := by
  show execDevResetNRelease s = _
  rw [execDevResetNRelease, if_neg (by simp [hp])]
  by_cases hr : s.railLow = [] <;> simp [State.inReset, hr]

theorem exec_railUndervoltage {rail : Nat} (hr : rail < 12) :
    exec (.railUndervoltage rail) s = .next ({ s with railLow := if s.railLow.contains rail then s.railLow else s.railLow ++ [rail] } : State).deviceReset := by
  show execRailUndervoltage rail s = _
  rw [execRailUndervoltage, if_neg (by omega)]

theorem mem_insert_absent (l : List Nat) (n : Nat) : n ∈ (if l.contains n = true then l else l ++ [n]) := by
  split
  · rename_i h
    exact List.contains_iff_mem.1 h
  · simp

theorem exec_railRecovered (hr : s.railLow ≠ []) (hp : s.pinReset = false) : exec .railRecovered s = .next { s with railLow := [] }.leaveReset := by
  show execRailRecovered s = _
  rw [execRailRecovered, if_neg (by simp [hr, hp])]

/-! ## Reference clocks (R652) -/

/-- The clocks that are lost when one more is. -/
def State.loseClk (s : State) (clk : Nat) : State := { s with clkLow := if s.clkLow.contains clk then s.clkLow else s.clkLow ++ [clk] }

/-- A lost clock shown. -/
def State.clkLost (s : State) (clk : Nat) : State := ((s.loseClk clk).showClk clk).setFld 0 STW_CLK_STATUS_LOSS_SEEN 1

/-- The clocks that are lost when one is back. -/
def State.findClk (s : State) (clk : Nat) : State := { s with clkLow := s.clkLow.filter (fun x => x != clk) }

theorem State.loseClk_contains (s : State) (clk : Nat) : (s.loseClk clk).clkLow.contains clk = true :=
  List.contains_iff_mem.2 (mem_insert_absent s.clkLow clk)

theorem State.findClk_contains (s : State) (clk : Nat) : (s.findClk clk).clkLow.contains clk = false := by
  simp [State.findClk]

/-- A monitor's bits apart, nothing shows a clock. -/
theorem State.fld_showClk (s : State) (clk w : Nat) {g : Fld} (hg : g.reg.off ≠ STW_CLK_STATUS.off ∧ g.reg.off < 2 ^ 16) : (s.showClk clk).fld w g = s.fld w g := by
  unfold State.showClk
  dsimp only
  split
  · exact State.fld_setFld_off (f := STW_CLK_STATUS_REF25_OK) _ _ ⟨hg.1, hg.2, by decide⟩
  · exact State.fld_setFld_off (f := STW_CLK_STATUS_REFPCIE_OK) _ _ ⟨hg.1, hg.2, by decide⟩
  · exact State.fld_setFld_off (f := STW_CLK_STATUS_REFETH_OK) _ _ ⟨hg.1, hg.2, by decide⟩

theorem State.showClk_frame (s : State) (clk : Nat) : (s.showClk clk).stw = s.stw ∧ (s.showClk clk).mem = s.mem ∧ (s.showClk clk).clkLow = s.clkLow := by
  unfold State.showClk
  dsimp only
  split <;> simp

theorem exec_refclkLost_ref25 (hr : s.inReset = false) (hb : s.boot ≠ BOOT_ROM) : exec (.refclkLost 0) s = .next (
    { ((s.clkLost 0).setFld 0 STW_CLK_STATUS_FALLBACK 1).setFld 0 STW_MGMT_LINK 0 with errs := { (((s.clkLost 0).setFld 0 STW_CLK_STATUS_FALLBACK 1).setFld 0 STW_MGMT_LINK 0).errs with heldClk := true } } : State).alertView := by
  have hboot : ¬ (s.clkLost 0).boot = BOOT_ROM := by
    unfold State.boot State.clkLost
    rw [State.fld_setFld_off _ _ (by decide), State.fld_showClk _ _ _ (by decide)]
    exact hb
  show execRefclkLost 0 s = _
  rw [execRefclkLost, if_neg (by decide)]
  refine (if_neg ?_).trans ((if_neg hboot).trans rfl)
  exact fun h => Bool.false_ne_true (hr.symm.trans h)

theorem State.ref25Lost_spec (s : State) :
    let t := ({ ((s.clkLost 0).setFld 0 STW_CLK_STATUS_FALLBACK 1).setFld 0 STW_MGMT_LINK 0 with errs := { (((s.clkLost 0).setFld 0 STW_CLK_STATUS_FALLBACK 1).setFld 0 STW_MGMT_LINK 0).errs with heldClk := true } } : State).alertView
    t.fld 0 STW_CLK_STATUS_FALLBACK = 1 ∧ t.fld 0 STW_CLK_STATUS_REF25_OK = 0 ∧ t.fld 0 STW_CLK_STATUS_LOSS_SEEN = 1 ∧ t.fld 0 STW_MGMT_LINK = 0 ∧
      t.fld 0 TST_STATUS_ALERT = 1 ∧ t.mem = s.mem := by
  dsimp only
  rw [State.fld_alertView_errs _ _ (by decide), State.fld_alertView_errs _ _ (by decide), State.fld_alertView_errs _ _ (by decide), State.fld_alertView_errs _ _ (by decide), State.fld_alertView_alert]
  refine ⟨?_, ?_, ?_, ?_, ?_, ?_⟩
  · rw [State.fld_setFld_off _ _ (by decide), State.fld_setFld_self _ _ _ _ (by decide)]
    rfl
  · rw [State.fld_setFld_off _ _ (by decide), State.fld_setFld_bits _ _ _ (by decide), State.clkLost, State.fld_setFld_bits _ _ _ (by decide)]
    show ((s.loseClk 0).setFld 0 STW_CLK_STATUS_REF25_OK (b01 (!(s.loseClk 0).clkLow.contains 0))).fld 0 STW_CLK_STATUS_REF25_OK = 0
    rw [State.loseClk_contains, State.fld_setFld_self _ _ _ _ (by decide)]
    rfl
  · rw [State.fld_setFld_off _ _ (by decide), State.fld_setFld_bits _ _ _ (by decide), State.clkLost, State.fld_setFld_self _ _ _ _ (by decide)]
    rfl
  · rw [State.fld_setFld_self _ _ _ _ (by decide), Nat.zero_mod]
  · simp [b01]
  · rw [State.alertView_mem]
    simp only [State.setFld_mem, State.clkLost]
    exact (State.showClk_frame _ 0).2.1

theorem exec_refclkLost_pcie (hr : s.inReset = false) : exec (.refclkLost 1) s = .next (if (s.clkLost 1).dlUp then (s.clkLost 1).linkGone.detachAll 1 else s.clkLost 1) := by
  show execRefclkLost 1 s = _
  rw [execRefclkLost, if_neg (by decide)]
  exact if_neg fun h => Bool.false_ne_true (hr.symm.trans h)

theorem State.clkLost_pcie (s : State) : (s.clkLost 1).fld 0 STW_CLK_STATUS_REFPCIE_OK = 0 := by
  rw [State.clkLost, State.fld_setFld_bits _ _ _ (by decide)]
  show ((s.loseClk 1).setFld 0 STW_CLK_STATUS_REFPCIE_OK (b01 (!(s.loseClk 1).clkLow.contains 1))).fld 0 STW_CLK_STATUS_REFPCIE_OK = 0
  rw [State.loseClk_contains, State.fld_setFld_self _ _ _ _ (by decide)]
  rfl

theorem State.clkLost_mem (s : State) (clk : Nat) : (s.clkLost clk).mem = s.mem := by
  rw [State.clkLost, State.setFld_mem]
  exact (State.showClk_frame _ clk).2.1

theorem State.pcieLost_spec (s : State) :
    let t := if (s.clkLost 1).dlUp then (s.clkLost 1).linkGone.detachAll 1 else s.clkLost 1
    t.fld 0 STW_CLK_STATUS_REFPCIE_OK = 0 ∧ t.dlUp = false ∧ t.mem = s.mem := by
  dsimp only
  split
  · refine ⟨?_, ?_, ?_⟩
    · rw [State.fld_detachAll (by decide) (by decide) _ _ (by decide), State.linkGone, State.fld_setFld_off _ _ (by decide), State.fld_setFld_off _ _ (by decide)]
      exact (State.fld_congr rfl _ _).trans s.clkLost_pcie
    · rw [State.dlUp_detachAll, State.linkGone, State.setFld_dlUp, State.setFld_dlUp]
    · rw [State.detachAll_mem, State.linkGone_mem, State.clkLost_mem]
  · rename_i h
    exact ⟨s.clkLost_pcie, by simpa using h, s.clkLost_mem 1⟩

/-- A port's link that goes down leaves no link, and no other port's link changes. -/
theorem State.link_linkDown (s : State) {n : Nat} (hn : n < 64) : (s.linkDown n).fld n ETH_PORT_STATUS_LINK = 0 ∧
    ∀ m < 64, m ≠ n → (s.linkDown n).fld m ETH_PORT_STATUS_LINK = s.fld m ETH_PORT_STATUS_LINK := by
  have hcount := State.Counted.ethStat (s.clearLink n) hn (by omega : 62 < 64) 1
  have hself := (s.linkLost_spec hn).1
  have hother : ∀ m < 64, m ≠ n → (s.linkLost n).fld m ETH_PORT_STATUS_LINK = s.fld m ETH_PORT_STATUS_LINK := by
    intro m hm hne
    rw [State.linkLost, State.fld_setFld_unit _ _ hne (by decide), hcount.fld (by omega) (by decide), State.clearLink]
    have hpaths : ∀ x : State, (x.pathsDown n).fld m ETH_PORT_STATUS_LINK = x.fld m ETH_PORT_STATUS_LINK := fun x => State.fld_congr rfl m _
    rw [hpaths, State.fld_setFld_unit _ _ hne (by decide), State.fld_setFld_unit _ _ hne (by decide), State.fld_setFld_unit _ _ hne (by decide)]
  have hheld : ∀ (x : State) (y : Port) (r : ErrRec) (m : Nat), m < 64 →
      ((((x.setPort n y).setFld n ETH_PORT_STATUS_HELD 1).setFld n ETH_PORT_STATUS_FLAP 1).raise r).fld m ETH_PORT_STATUS_LINK = x.fld m ETH_PORT_STATUS_LINK := by
    intro x y r m hm
    rw [State.fld_raise _ _ (by omega) (by decide)]
    by_cases hne : m = n
    · rw [hne, State.fld_setFld_bits _ _ _ (by decide), State.fld_setFld_bits _ _ _ (by decide), State.fld_setPort]
    · rw [State.fld_setFld_unit _ _ hne (by decide), State.fld_setFld_unit _ _ hne (by decide), State.fld_setPort]
  by_cases hl : s.fld n ETH_PORT_STATUS_LINK = 0
  · rw [State.linkDown, if_pos hl]
    exact ⟨hl, fun _ _ _ => rfl⟩
  · rw [State.linkDown, if_neg hl]
    dsimp only
    rw [← State.linkLost]
    split
    · exact ⟨(hheld _ _ _ _ hn).trans hself, fun m hm hne => (hheld _ _ _ _ hm).trans (hother m hm hne)⟩
    · exact ⟨(State.fld_setPort ..).trans hself, fun m hm hne => (State.fld_setPort ..).trans (hother m hm hne)⟩

/-- The links of the ports `b`, …, `b + k - 1` go down. -/
theorem State.links_down (s : State) (b : Nat) {k : Nat} (hk : b + k ≤ 64) {i : Nat} (hi : i < k) :
    ((List.range k).foldl (fun s i => s.linkDown (b + i)) s).fld (b + i) ETH_PORT_STATUS_LINK = 0 := by
  induction k with
  | zero => omega
  | succ k ih =>
    rw [List.range_succ, List.foldl_append, List.foldl_cons, List.foldl_nil]
    obtain ⟨hself, hother⟩ := ((List.range k).foldl (fun s i => s.linkDown (b + i)) s).link_linkDown (n := b + k) (by omega)
    by_cases h : i = k
    · rw [h]
      exact hself
    · rw [hother (b + i) (by omega) (by omega)]
      exact ih (by omega) (by omega)

theorem exec_refclkLost_eth {clk : Nat} (h2 : 2 ≤ clk) (h6 : clk < 6) (hr : s.inReset = false) :
    exec (.refclkLost clk) s = .next ((List.range 16).foldl (fun s i => s.linkDown (16 * (clk - 2) + i)) (s.clkLost clk)) := by
  show execRefclkLost clk s = _
  rw [execRefclkLost, if_neg (by omega)]
  refine (if_neg fun h => Bool.false_ne_true (hr.symm.trans h)).trans ?_
  obtain ⟨k, rfl⟩ : ∃ k, clk = k + 2 := ⟨clk - 2, by omega⟩
  rfl

theorem exec_refclkReturn_ref25 (hr : s.inReset = false) (hb : s.boot ≠ BOOT_ROM) : ∃ v x, exec (.refclkReturn 0) s = .next (
    { (((s.findClk 0).showClk 0).setFld 0 STW_CLK_STATUS_FALLBACK 0).setFld 0 STW_MGMT_LINK v with errs := x } : State).alertView := by
  have hboot : ¬ ((s.findClk 0).showClk 0).boot = BOOT_ROM := by
    unfold State.boot
    rw [State.fld_showClk _ _ _ (by decide)]
    exact hb
  have hexec : exec (.refclkReturn 0) s = execRefclkReturn 0 s := rfl
  rw [hexec, execRefclkReturn, if_neg (by decide)]
  exact ⟨_, _, (if_neg fun h => Bool.false_ne_true (hr.symm.trans h)).trans (if_neg fun h => hboot (h.resolve_left (by decide)))⟩

theorem State.ref25Back_spec (s : State) (v : Nat) (x : ErrState) :
    let t := ({ (((s.findClk 0).showClk 0).setFld 0 STW_CLK_STATUS_FALLBACK 0).setFld 0 STW_MGMT_LINK v with errs := x } : State).alertView
    t.fld 0 STW_CLK_STATUS_FALLBACK = 0 ∧ t.fld 0 STW_CLK_STATUS_REF25_OK = 1 ∧ t.mem = s.mem := by
  dsimp only
  rw [State.fld_alertView_errs _ _ (by decide), State.fld_alertView_errs _ _ (by decide)]
  refine ⟨?_, ?_, ?_⟩
  · rw [State.fld_setFld_off _ _ (by decide), State.fld_setFld_self _ _ _ _ (by decide), Nat.zero_mod]
  · rw [State.fld_setFld_off _ _ (by decide), State.fld_setFld_bits _ _ _ (by decide)]
    show ((s.findClk 0).setFld 0 STW_CLK_STATUS_REF25_OK (b01 (!(s.findClk 0).clkLow.contains 0))).fld 0 STW_CLK_STATUS_REF25_OK = 1
    rw [State.findClk_contains, State.fld_setFld_self _ _ _ _ (by decide)]
    rfl
  · rw [State.alertView_mem]
    simp only [State.setFld_mem]
    exact (State.showClk_frame _ 0).2.1

theorem exec_refclkReturn_pcie (hr : s.inReset = false) : exec (.refclkReturn 1) s = .next ((s.findClk 1).showClk 1) := by
  show execRefclkReturn 1 s = _
  rw [execRefclkReturn, if_neg (by decide)]
  exact (if_neg fun h => Bool.false_ne_true (hr.symm.trans h)).trans (if_pos (.inl (by decide)))

theorem State.pcieBack_spec (s : State) : ((s.findClk 1).showClk 1).fld 0 STW_CLK_STATUS_REFPCIE_OK = 1 ∧ ((s.findClk 1).showClk 1).mem = s.mem := by
  refine ⟨?_, (State.showClk_frame _ 1).2.1⟩
  show ((s.findClk 1).setFld 0 STW_CLK_STATUS_REFPCIE_OK (b01 (!(s.findClk 1).clkLow.contains 1))).fld 0 STW_CLK_STATUS_REFPCIE_OK = 1
  rw [State.findClk_contains, State.fld_setFld_self _ _ _ _ (by decide)]
  rfl

end Sys2Proof.Machine
end

section
/-! The boot stages, the cartridge while the device runs, and the statement about them (O57) (R536–R547, R595–R598). -/
namespace Sys2Proof.Machine

variable {s : State} {c : Cartridge}

/-! ## ROM (R543, R545) -/

/-- The life-cycle and SVN fuses shown. -/
def State.fusesShown (s : State) : State := s.showLife.setFld 0 STW_FW_VERSION_SVN_FUSED s.stw.svnFused

/-- The fuses sensed and shown, with the clocks and the rails. -/
def State.sensed (s : State) : State :=
  (List.range 6).foldl State.showClk ((s.fusesShown.setFld 0 TST_FUSE_LEFT_LEFT (512 - s.fusesShown.errs.fuses.length)).setFld 0 PWR_RAIL_GOOD 0xFFF)

/-- The keys that the sensed fuses give. -/
def State.keyed (s : State) : State :=
  { s with stw := { s.stw with sensed := true, keys := s.stw.life != LC_BLANK && s.stw.life != LC_SCRAPPED,
                               wrap := if s.stw.life = LC_BLANK ∨ s.stw.life = LC_SCRAPPED then none else s.stw.uds } }

/-- A test image that a Tamtur key has signed runs. -/
def State.runImage (s : State) : Option FwImage → State
  | some f => if f.sigOk then { s with stw := { s.stw with running := some f } } else s
  | none => s

theorem State.keyed_regs (s : State) : s.keyed.regs = s.regs := rfl

theorem State.keyed_mem (s : State) : s.keyed.mem = s.mem := rfl

theorem State.keyed_stw (s : State) : s.keyed.stw.sensed = true ∧ s.keyed.stw.running = s.stw.running := ⟨rfl, rfl⟩

theorem State.showClks_frame (l : List Nat) (s : State) : (l.foldl State.showClk s).stw = s.stw ∧ (l.foldl State.showClk s).mem = s.mem :=
  ⟨foldl_proj State.stw _ _ _ fun t k => (t.showClk_frame k).1, foldl_proj State.mem _ _ _ fun t k => (t.showClk_frame k).2.1⟩

theorem State.fld_showClks (l : List Nat) (s : State) {g : Fld} (hg : g.reg.off ≠ STW_CLK_STATUS.off ∧ g.reg.off < 2 ^ 16) : (l.foldl State.showClk s).fld 0 g = s.fld 0 g :=
  foldl_proj (State.fld · 0 g) _ _ _ fun t k => t.fld_showClk k 0 hg

theorem State.sensed_frame (s : State) : s.sensed.stw = s.stw ∧ s.sensed.mem = s.mem := by
  unfold State.sensed
  generalize List.range 6 = l
  rw [(State.showClks_frame _ _).1, (State.showClks_frame _ _).2]
  unfold State.fusesShown State.showLife
  simp only [State.setFld_stw, State.setFld_mem, and_self]

/-- The number of a life-cycle state fits its field. -/
theorem StwState.life_lt (x : StwState) : x.life < 2 ^ STW_STATUS_LC.width := by
  unfold StwState.life
  (repeat' split) <;> decide

/-- Sensing shows the life-cycle state and leaves the stage. -/
theorem State.fld_sensed (s : State) : s.sensed.boot = s.boot ∧ s.sensed.fld 0 STW_STATUS_LC = s.stw.life := by
  unfold State.boot State.sensed
  generalize List.range 6 = l
  rw [State.fld_showClks _ _ (by decide), State.fld_showClks _ _ (by decide)]
  refine ⟨?_, ?_⟩
  · rw [State.fld_setFld_off _ _ (by decide), State.fld_setFld_off _ _ (by decide), State.fusesShown, State.fld_setFld_off _ _ (by decide), State.showLife,
      State.fld_setFld_bits _ _ _ (by decide), State.fld_setFld_bits _ _ _ (by decide)]
  · rw [State.fld_setFld_off _ _ (by decide), State.fld_setFld_off _ _ (by decide), State.fusesShown, State.fld_setFld_off _ _ (by decide), State.showLife,
      State.fld_setFld_bits _ _ _ (by decide), State.fld_setFld_self _ _ _ _ (by decide)]
    exact Nat.mod_eq_of_lt s.stw.life_lt

/-- What the stage does once the fuses are shown: a BLANK device stays. -/
def State.romDone (s : State) (test : Option FwImage) : State :=
  if s.stw.life = LC_BLANK then s.keyed.runImage test else s.keyed.setBoot BOOT_CARTRIDGE

theorem exec_romStage (test : Option FwImage) (hr : s.inReset = false) (hb : s.boot = BOOT_ROM) (h0 : 0 ∉ s.clkLow) :
    exec (.romStage test) s = .next (s.sensed.romDone test) := by
  show execRomStage test s = _
  rw [execRomStage, if_neg (by simp [hr, hb, h0]), State.romDone, apply_ite Host.Outcome.next]
  cases test with
  | none => rfl
  | some f => rfl

theorem State.rom_leaves (s : State) : (s.sensed.keyed.setBoot BOOT_CARTRIDGE).boot = BOOT_CARTRIDGE ∧ (s.sensed.keyed.setBoot BOOT_CARTRIDGE).stw.sensed = true ∧
    (s.sensed.keyed.setBoot BOOT_CARTRIDGE).fld 0 STW_STATUS_LC = s.stw.life ∧ (s.sensed.keyed.setBoot BOOT_CARTRIDGE).mem = s.mem := by
  refine ⟨State.boot_setBoot _ (by decide), ?_, ?_, ?_⟩
  · rw [State.setBoot, State.setFld_stw]
    exact s.sensed.keyed_stw.1
  · rw [State.setBoot, State.fld_setFld_bits _ _ _ (by decide), State.fld_congr s.sensed.keyed_regs]
    exact s.fld_sensed.2
  · rw [State.setBoot, State.setFld_mem, State.keyed_mem]
    exact s.sensed_frame.2

theorem State.runImage_spec (s : State) (test : Option FwImage) : (s.runImage test).regs = s.regs ∧ (s.runImage test).stw.sensed = s.stw.sensed ∧
    (s.runImage test).stw.running = (match test with | some f => if f.sigOk then some f else s.stw.running | none => s.stw.running) := by
  cases test with
  | none => exact ⟨rfl, rfl, rfl⟩
  | some f =>
    unfold State.runImage
    dsimp only
    split
    · exact ⟨rfl, rfl, rfl⟩
    · exact ⟨rfl, rfl, rfl⟩

theorem State.rom_stays (s : State) (test : Option FwImage) : (s.sensed.keyed.runImage test).boot = s.boot ∧ (s.sensed.keyed.runImage test).stw.sensed = true ∧
    (s.sensed.keyed.runImage test).stw.running = (match test with | some f => if f.sigOk then some f else s.stw.running | none => s.stw.running) := by
  obtain ⟨hregs, hsensed, hrunning⟩ := s.sensed.keyed.runImage_spec test
  obtain ⟨hkeyed, hrun⟩ := s.sensed.keyed_stw
  refine ⟨?_, hsensed.trans hkeyed, ?_⟩
  · unfold State.boot
    rw [State.fld_congr hregs, State.fld_congr s.sensed.keyed_regs]
    exact s.fld_sensed.1
  · rw [hrunning, hrun, s.sensed_frame.1]

/-! ## The cartridge stage (R537, R544) -/

/-- BOOT_FAIL and its management port shown, before the alert. -/
def State.failed (s : State) : State :=
  (((s.mgmtAddrs none).setBoot BOOT_FAIL).setFld 0 STW_MGMT_LINK (b01 (!(s.mgmtAddrs none).clkLow.contains 0))).setFld 0 STW_MGMT_TEN_G 0

theorem State.bootFail_eq (s : State) : ∃ x : ErrState, x.held = true ∧ s.bootFail = ({ s.failed with errs := x } : State).alertView := ⟨_, rfl, rfl⟩

theorem State.boot_failed (s : State) : s.failed.boot = BOOT_FAIL := by
  unfold State.failed State.boot
  rw [State.fld_setFld_off _ _ (by decide), State.fld_setFld_off _ _ (by decide)]
  exact State.boot_setBoot _ (by decide)

theorem State.bootFail_spec (s : State) : s.bootFail.boot = BOOT_FAIL ∧ s.bootFail.fld 0 TST_STATUS_ALERT = 1 := by
  obtain ⟨x, hx, heq⟩ := s.bootFail_eq
  rw [heq]
  refine ⟨(State.fld_alertView_errs _ _ (by decide)).trans s.boot_failed, ?_⟩
  rw [State.fld_alertView_alert]
  dsimp only
  rw [hx]
  simp [b01]

section
variable (fab : Fabric) (hr : s.inReset = false) (hb : s.boot = BOOT_CARTRIDGE)
include hr hb

theorem exec_cartridgeStage_fails (hc : s.stw.cart = none ∨ s.stw.cart = some c ∧ s.cartOk c = false) :
    exec (.cartridgeStage fab) s = .next (s.setFld 0 STW_STATUS_CART_PRESENT (b01 s.stw.cart.isSome)).bootFail := by
  show execCartridgeStage fab s = _
  rw [execCartridgeStage, if_neg (by simp [hr, hb])]
  dsimp only
  rw [State.setFld_stw]
  rcases hc with hc | ⟨hc, hno⟩
  · rw [hc]
  · have hno' : ∀ v, (s.setFld 0 STW_STATUS_CART_PRESENT v).cartOk c = false := fun v => by
      unfold State.cartOk at hno ⊢
      rw [State.setFld_stw]
      exact hno
    rw [hc]
    exact if_pos (by rw [hno']; rfl)

theorem exec_cartridgeStage_accepts (hc : s.stw.cart = some c) (hok : s.cartOk c = true) {u : State} (hu : u = s.setFld 0 STW_STATUS_CART_PRESENT 1) :
    exec (.cartridgeStage fab) s = .next (((({ u with stw := { u.stw with cartId := some c.id } }).setFld 0 STW_STATUS_CART_PAIRED
      (b01 (c.certOk && c.paired == some s.stw.devid && c.pairSig))).showWear c).readCart c fab) := by
  have hstw : u.stw = s.stw := by rw [hu, State.setFld_stw]
  have hok' : u.cartOk c = true := by
    unfold State.cartOk at hok ⊢
    rw [hstw]
    exact hok
  show execCartridgeStage fab s = _
  rw [execCartridgeStage, if_neg (by simp [hr, hb])]
  dsimp only
  rw [hc, show b01 (some c).isSome = 1 from rfl, ← hu, hstw, hc]
  dsimp only
  rw [hok']
  rfl

end

/-! ## The later stages (R277, R543, R595–R598) -/

theorem State.applyRepair_poison (s : State) (r : Repair) : (s.applyRepair r).poison = s.poison := by
  unfold State.applyRepair
  split
  · rfl
  · exact State.setFld_poison ..
  · rfl

theorem State.applyRepairs_poison (s : State) : s.applyRepairs.poison = s.poison := by
  unfold State.applyRepairs
  dsimp only
  refine (foldl_proj State.poison _ _ _ fun t e => State.setFld_poison ..).trans ?_
  exact foldl_proj State.poison _ _ _ fun t r => t.applyRepair_poison r

section
variable (hr : s.inReset = false)
include hr

theorem exec_selftestStage (acked : Bool) (found : List ErrIn) (hb : s.boot = BOOT_SELFTEST) : ∃ u : State, exec (.selftestStage acked found) s = .next (u.setBoot BOOT_HBM_INIT) := by
  have hexec : exec (.selftestStage acked found) s = execSelftestStage acked found s := rfl
  rw [hexec, execSelftestStage, if_neg (by simp [hr, hb])]
  exact ⟨_, rfl⟩

theorem exec_hbmInitStage (hb : s.boot = BOOT_HBM_INIT) : exec .hbmInitStage s = .next (({ s with mem := [], poison := [] } : State).applyRepairs.setBoot BOOT_BRINGUP) := by
  show execHbmInitStage s = _
  rw [execHbmInitStage, if_neg (by simp [hr, hb])]

theorem exec_bringupStage (hb : s.boot = BOOT_BRINGUP) (hn : s.stw.brought = false) {fab : Fabric} (hf : s.net.fabric = some fab) {u : State}
    (hu : u = (s.setReg 0 MER_EPOCH (BitVec.ofNat 64 fab.epoch)).setReg 0 MER_BASE_FRAME (BitVec.ofNat 64 fab.base)) :
    exec .bringupStage s = .next (({ u with mer := { u.mer with boot := some fab.period }, stw := { u.stw with brought := true } }.applyFabric fab).setFld 0 STW_MGMT_LINK
      (b01 (!u.clkLow.contains 0))) := by
  show execBringupStage s = _
  rw [execBringupStage, if_neg (by simp [hr, hb, hn]), hf, hu]

theorem exec_ready (hb : s.boot = BOOT_BRINGUP) (hn : s.stw.brought = true) : exec .ready s = .next (s.setFld 0 STW_STATUS_BOOT 5) := by
  show execReady s = _
  rw [execReady, if_neg (by simp [hr, hb, hn])]
  rfl

theorem exec_shutdownComplete (found : List ErrIn) (hb : s.boot = BOOT_SHUTDOWN) (hp : s.anyProv = false) :
    ∃ u : State, exec (.shutdownComplete found) s = .next (u.setBoot BOOT_OFF_READY) := by
  have hexec : exec (.shutdownComplete found) s = execShutdownComplete found s := rfl
  rw [hexec, execShutdownComplete, if_neg (by simp [hr, hb, hp])]
  exact ⟨_, rfl⟩

/-! ## The cartridge while the device runs (R540–R542) -/

theorem exec_cartridgePresencePoll_gone (hs : s.stw.cartSeen = none) (hk : s.stw.cartPolls = 9) (hc : s.stw.cart = some c) :
    exec (.cartridgePresencePoll none) s = .next ({ s with stw := { s.stw with cartSeen := none, cartPolls := 10 } } : State).cartGone := by
  show execCartridgePresencePoll none s = _
  rw [execCartridgePresencePoll, if_neg (by simp [hr])]
  dsimp only
  rw [hs, hk, if_neg (by simp [hc]), if_pos (by simp [hc])]
  rfl

theorem exec_cartridgePresencePoll_back (hs : s.stw.cartSeen = some c.id) (hk : s.stw.cartPolls = 9) (hc : s.stw.cart = none) :
    exec (.cartridgePresencePoll (some c)) s = .next (({ s with stw := { s.stw with cartSeen := some c.id, cartPolls := 10 } } : State).cartBack c) := by
  show execCartridgePresencePoll (some c) s = _
  rw [execCartridgePresencePoll, if_neg (by simp [hr])]
  dsimp only
  rw [hs, hk, Option.map_some, if_pos rfl, if_neg (by simp [hc]), if_neg (by simp [hc])]
  rfl

end

/-- Every partition's ID fits its field. -/
theorem partOfBlock_lt (b : Nat) : partOfBlock b < 16 := by
  unfold partOfBlock
  cases h : cartParts.find? (fun p => decide (p.2.1 ≤ b) && decide (b < p.2.1 + p.2.2)) with
  | none => decide
  | some p =>
    have hmem := List.mem_of_find?_eq_some h
    have hall : ∀ p ∈ cartParts, p.1 < 16 := by decide
    exact hall p hmem

/-- The registers that show a cartridge's wear. -/
theorem State.showWear_spec (s : State) (c : Cartridge) (he : c.erases ≠ []) :
    (s.showWear c).fld 0 STW_BASFIN_WEAR_PCT = min 255 ((topErase c.erases).2 * 100 / 30000) ∧
      (s.showWear c).fld 0 STW_BASFIN_WEAR_PART = partOfBlock (topErase c.erases).1 ∧
      (s.showWear c).fld 0 STW_BASFIN_WEAR_READONLY = b01 (decide (100 ≤ (topErase c.erases).2 * 100 / 30000) || !c.spares) := by
  unfold State.showWear
  dsimp only
  refine ⟨?_, ?_, ?_⟩
  · rw [State.fld_setFld_bits _ _ _ (by decide), State.fld_setFld_bits _ _ _ (by decide), State.fld_setFld_self _ _ _ _ (by decide)]
    exact Nat.mod_eq_of_lt (lt_of_le_of_lt (Nat.min_le_left ..) (by decide))
  · rw [State.fld_setFld_bits _ _ _ (by decide), State.fld_setFld_self _ _ _ _ (by decide), if_neg (fun h => he h.2)]
    exact Nat.mod_eq_of_lt (partOfBlock_lt _)
  · rw [State.fld_setFld_self _ _ _ _ (by decide), wearPct]
    cases (decide (100 ≤ (topErase c.erases).2 * 100 / 30000) || !c.spares) <;> rfl

/-- `t` is `s` but for records that were raised, as far as the steward's registers, the cartridge and memory go. -/
structure State.Raised (s t : State) : Prop where
  stw : t.stw = s.stw
  mem : t.mem = s.mem
  fld : ∀ g : Fld, g.reg.block = .stw → g.reg.off < 2 ^ 16 → t.fld 0 g = s.fld 0 g

theorem State.Raised.ite {s t u : State} (h : s.Raised t) (h' : t.Raised u) {P : Prop} [Decidable P] : s.Raised (if P then u else t) := by
  split
  · exact ⟨h'.stw.trans h.stw, h'.mem.trans h.mem, fun g hb ho => (h'.fld g hb ho).trans (h.fld g hb ho)⟩
  · exact h

theorem State.Raised.raiseSev (s : State) (v : Nat) (r : ErrRec) : s.Raised (s.raiseSev v r) :=
  ⟨State.raiseSev_stw .., State.raiseSev_mem .., fun g hb ho => State.fld_raiseSev _ _ _ (by decide) ⟨ho, by rw [hb]; decide⟩⟩

theorem exec_cartridgeWrite {part : Nat} {blocks : List Nat} {spares : Bool} {er : List (Nat × Nat)} (hc : s.cartIn = some c) (hw : s.cartWritable = true) (h1 : 1 ≤ part)
    (h9 : part ≤ 9) (her : er = (blocks.filter (fun b => partOfBlock b == part)).foldl eraseOnce c.erases) :
    ∃ t, exec (.cartridgeWrite part blocks spares) s = .next t ∧
      ((s.setCart { c with erases := er, spares := spares }).showWear { c with erases := er, spares := spares }).Raised t := by
  have hexec : exec (.cartridgeWrite part blocks spares) s = execCartridgeWrite part blocks spares s := rfl
  rw [hexec, execCartridgeWrite, hc]
  dsimp only
  rw [if_neg (by simp [hw]; omega), ← her]
  refine ⟨_, rfl, ?_⟩
  exact .ite (.ite ⟨rfl, rfl, fun _ _ _ => rfl⟩ (.raiseSev ..)) (.raiseSev ..)

/-- Settles O57: each stage's next state; memory is empty after the reset (log entry 12, DESIGN CHOICE), and BRINGUP stays until READY (log entry 121, DEDUCED). -/
theorem bootFollowsItsStages : Obligations.BootFollowsItsStages := by
  unfold Obligations.BootFollowsItsStages
  intro s u rail part clk n blocks er fab acked spares test found c
  refine ⟨?_, fun hp => ⟨fun hr => ?_, fun hr => ?_⟩, fun hr => ?_, exec_railRecovered, fun hr => ⟨fun hb => ?_, ?_, fun h2 h6 => ?_, fun hb => ?_, ?_, fun hb h0 hl => ?_, fun hb h0 hl => ?_,
    fun hb hc => ?_, fun hb hc hok hu => exec_cartridgeStage_accepts fab hr hb hc hok hu, fun hb => ?_, fun hb => ?_, fun hb hn hf hu => exec_bringupStage hr hb hn hf hu, exec_ready hr, fun hb hp => ?_, fun hs hk hc hu => ?_, fun hs hk hc hu => ?_⟩,
    fun hn hp => ?_, fun hp => ?_, fun hc hw h1 h9 her hne => ?_⟩
  · obtain ⟨hpin, -, hboot, hmem, hprovs, hfuse, hcart, hlog, hqueues⟩ := State.deviceReset_spec ({ s with pinReset := true } : State)
    exact ⟨_, rfl, hpin, hboot, hmem, hprovs, hfuse, hcart, hlog, hqueues⟩
  · rw [exec_devResetNRelease hp, if_pos hr]
  · rw [exec_devResetNRelease hp, if_neg hr]
  · obtain ⟨-, hrail, hboot, -, hprovs, -⟩ := State.deviceReset_spec ({ s with railLow := if s.railLow.contains rail then s.railLow else s.railLow ++ [rail] } : State)
    exact ⟨_, exec_railUndervoltage hr, by rw [hrail]; exact mem_insert_absent s.railLow rail, hboot, hprovs⟩
  · exact ⟨_, exec_refclkLost_ref25 hr hb, s.ref25Lost_spec⟩
  · exact ⟨_, exec_refclkLost_pcie hr, s.pcieLost_spec⟩
  · exact ⟨_, exec_refclkLost_eth h2 h6 hr, fun i hi => State.links_down _ _ (by omega) hi⟩
  · obtain ⟨v, x, hexec⟩ := exec_refclkReturn_ref25 hr hb
    exact ⟨_, hexec, s.ref25Back_spec v x⟩
  · exact ⟨_, exec_refclkReturn_pcie hr, s.pcieBack_spec⟩
  · exact ⟨_, (exec_romStage test hr hb h0).trans (congrArg _ (if_neg (by rw [s.sensed_frame.1]; exact hl))), s.rom_leaves⟩
  · obtain ⟨hboot, hsensed, hrunning⟩ := s.rom_stays test
    exact ⟨_, (exec_romStage test hr hb h0).trans (congrArg _ (if_pos (by rw [s.sensed_frame.1]; exact hl))), hboot.trans hb, hsensed, hrunning⟩
  · exact ⟨_, exec_cartridgeStage_fails fab hr hb hc, State.bootFail_spec _⟩
  · obtain ⟨v, hexec⟩ := exec_selftestStage hr acked found hb
    exact ⟨_, hexec, State.boot_setBoot _ (by decide)⟩
  · refine ⟨_, exec_hbmInitStage hr hb, State.boot_setBoot _ (by decide), ?_, ?_⟩
    · rw [State.setBoot, State.setFld_mem, State.applyRepairs_mem]
    · rw [State.setBoot, State.setFld_poison, State.applyRepairs_poison]
  · obtain ⟨v, hexec⟩ := exec_shutdownComplete hr found hb hp
    exact ⟨_, hexec, State.boot_setBoot _ (by decide)⟩
  · rw [hu]
    exact exec_cartridgePresencePoll_gone hr hs hk hc
  · rw [hu]
    exact exec_cartridgePresencePoll_back hr hs hk hc
  · rw [State.leaveReset, if_pos hp]
    exact State.attach_detachAll _ 0 hn
  · rw [State.leaveReset, if_neg (by rw [hp]; decide)]
    exact ⟨rfl, rfl, rfl, rfl, rfl, rfl⟩
  · obtain ⟨t, hexec, hraised⟩ := exec_cartridgeWrite (spares := spares) hc hw h1 h9 her
    obtain ⟨hpct, hpart, hread⟩ := (s.setCart { c with erases := er, spares := spares }).showWear_spec { c with erases := er, spares := spares } hne
    refine ⟨t, hexec, ?_, (hraised.fld _ rfl (by decide)).trans hpct, (hraised.fld _ rfl (by decide)).trans hpart, (hraised.fld _ rfl (by decide)).trans hread, ?_⟩
    · rw [hraised.stw]
      unfold State.showWear
      simp [State.setCart]
    · rw [hraised.mem, State.showWear_mem]
      rfl

end Sys2Proof.Machine
end

section
/-! Error records: how one arrives at its queue, how FATAL is latched, what the steward makes of the head, and the end of an alert's pulse (O59) (R586–R594). -/
namespace Sys2Proof.Machine

/-! ## A record arrives -/

/-- What `raiseSev` writes into a record: SEQ, severity, time and frame. -/
def State.stampRec (s : State) (sev : Nat) (r : ErrRec) : ErrRec :=
  { r with seq := s.errs.seq, sev := sev, time := BitVec.ofNat 64 (s.frameTime + s.freeVal.1.toNat % max 1 s.frameLen), dframe := s.fld 0 MER_FRAME_NUM_FRAME }

/-- The state in which a record takes its place: its SEQ is spent, and a CONTAINED one's province has been asked to pause. -/
def State.numbered (s : State) (sev p : Nat) : State :=
  let t := { s.freeVal.2 with errs := { s.errs with seq := s.errs.seq + 1 } }
  if sev = 2 ∧ p ≠ 0 then t.askPause p else t

theorem State.raiseSev_eq (s : State) (sev : Nat) (r : ErrRec) :
    s.raiseSev sev r = if sev = 3 then (s.numbered sev r.prov).fatal (s.stampRec sev r) else (s.numbered sev r.prov).arrive (s.stampRec sev r) := rfl

theorem State.numbered_errs (s : State) (sev p : Nat) : (s.numbered sev p).errs = { s.errs with seq := s.errs.seq + 1 } := by
  unfold State.numbered
  split
  · exact State.askPause_errs _ _
  · rfl

theorem State.numbered_mem (s : State) (sev p : Nat) : (s.numbered sev p).mem = s.mem := by
  unfold State.numbered
  split
  · exact State.askPause_mem _ _
  · rfl

/-- A CONTAINED record of an existing province asks it to pause. -/
theorem State.numbered_pauseReq (s : State) {sev p : Nat} (hsev : sev = 2) (hp : p ≠ 0) (hst : (s.prov p).st ≠ .none_) : ((s.numbered sev p).prov p).pauseReq = true := by
  unfold State.numbered State.askPause
  rw [if_pos ⟨hsev, hp⟩]
  refine (congrArg (fun t : State => (t.prov p).pauseReq) (if_neg hst)).trans ?_
  rw [State.prov_setProv_self]

/-- An alert's pulse changes nothing of the error state but the pulse. -/
theorem State.alertPulse_errs (s : State) (v : Nat) :
    (s.alertPulse v).errs.queues = s.errs.queues ∧ (s.alertPulse v).errs.seq = s.errs.seq ∧ (s.alertPulse v).errs.log = s.errs.log := by
  unfold State.alertPulse
  split
  · rw [State.alertView_errs]
    exact ⟨rfl, rfl, rfl⟩
  · exact ⟨rfl, rfl, rfl⟩

/-- The queues after a record took its place. -/
def State.queuesWith (s : State) (r : ErrRec) : Sparse (List ErrRec) :=
  let k := r.die * 16 + causeSubsystem r.cause
  Sparse.set [] s.errs.queues k (queueArrive (Sparse.get [] s.errs.queues k) (Sparse.get false s.errs.owed k) r).1

/-- The state with the record in its queue, before the registers show it. -/
def State.queued (s : State) (r : ErrRec) : State :=
  let k := r.die * 16 + causeSubsystem r.cause
  let x := queueArrive (Sparse.get [] s.errs.queues k) (Sparse.get false s.errs.owed k) r
  { s with errs := { s.errs with queues := s.queuesWith r, owed := Sparse.set false s.errs.owed k x.2.1, lost := if x.2.2 then s.errs.lost + 1 else s.errs.lost } }

/-- A record's arrival is its place in the queue, the count of lost records, QFULL, and the alert's pulse. -/
theorem State.arrive_eq (s : State) (r : ErrRec) :
    ∃ t, (t = s.queued r ∨ t = (s.queued r).incFld 0 TST_ERR_LOST_LOST 1) ∧ s.arrive r = (t.setFld 0 TST_STATUS_QFULL (b01 t.anyFull)).alertPulse r.sev := by
  refine ⟨if (queueArrive (Sparse.get [] s.errs.queues (r.die * 16 + causeSubsystem r.cause)) (Sparse.get false s.errs.owed (r.die * 16 + causeSubsystem r.cause)) r).2.2
    then (s.queued r).incFld 0 TST_ERR_LOST_LOST 1 else s.queued r, ?_, rfl⟩
  split
  · exact Or.inr rfl
  · exact Or.inl rfl

/-- A record's arrival changes its queue, and neither the next SEQ nor the log. -/
theorem State.arrive_errs (s : State) (r : ErrRec) :
    (s.arrive r).errs.queues = s.queuesWith r ∧ (s.arrive r).errs.seq = s.errs.seq ∧ (s.arrive r).errs.log = s.errs.log := by
  obtain ⟨t, ht, harrive⟩ := s.arrive_eq r
  have herrs : t.errs = (s.queued r).errs := by
    rcases ht with rfl | rfl
    · rfl
    · exact State.incFld_errs ..
  obtain ⟨hqueues, hseq, hlog⟩ := State.alertPulse_errs (t.setFld 0 TST_STATUS_QFULL (b01 t.anyFull)) r.sev
  rw [harrive, hqueues, hseq, hlog, State.setFld_errs, herrs]
  exact ⟨rfl, rfl, rfl⟩

/-- At an empty queue a record becomes its only one. -/
theorem queueArrive_nil (owed : Bool) (r : ErrRec) : (queueArrive [] owed r).1 = [{ r with overflow := owed }] := rfl

/-- A record that is not FATAL, at an empty queue. -/
theorem execErrorRecordArrive_empty (s : State) (r : ErrIn) (hsev : causeSev r.cause ≠ 3)
    (hempty : Sparse.get [] s.errs.queues (r.die * 16 + causeSubsystem r.cause) = []) :
    ∃ t y, exec (.errorRecordArrive r) s = .next t ∧ Sparse.get [] t.errs.queues (r.die * 16 + causeSubsystem r.cause) = [y] ∧
      y.seq = s.errs.seq ∧ y.sev = causeSev r.cause ∧ y.cause = r.cause ∧ y.addr = r.addr ∧ t.errs.seq = s.errs.seq + 1 ∧ t.errs.log = s.errs.log ∧ t.mem = s.mem := by
  have hraise : s.raise (errOf r) = (s.numbered (causeSev r.cause) r.prov).arrive (s.stampRec (causeSev r.cause) (errOf r)) :=
    (State.raiseSev_eq ..).trans (if_neg hsev)
  obtain ⟨hqueues, hseq, hlog⟩ := State.arrive_errs (s.numbered (causeSev r.cause) r.prov) (s.stampRec (causeSev r.cause) (errOf r))
  have hnum := s.numbered_errs (causeSev r.cause) r.prov
  refine ⟨_, { s.stampRec (causeSev r.cause) (errOf r) with overflow := Sparse.get false s.errs.owed (r.die * 16 + causeSubsystem r.cause) },
    congrArg Host.Outcome.next hraise, ?_, rfl, rfl, rfl, rfl, ?_, ?_, ?_⟩
  · rw [hqueues, State.queuesWith, hnum]
    exact Sparse.get_set_self.trans ((congrArg (fun q => (queueArrive q _ _).1) hempty).trans (queueArrive_nil _ _))
  · rw [hseq, hnum]
  · rw [hlog, hnum]
  · rw [State.arrive_mem, State.numbered_mem]

/-- A CONTAINED record asks its province to pause. -/
theorem execErrorRecordArrive_contained (s : State) (r : ErrIn) (hsev : causeSev r.cause = 2) (hp : r.prov ≠ 0) (hst : (s.prov r.prov).st ≠ .none_) :
    ∃ t, exec (.errorRecordArrive r) s = .next t ∧ (t.prov r.prov).pauseReq = true := by
  have hraise : s.raise (errOf r) = (s.numbered (causeSev r.cause) r.prov).arrive (s.stampRec (causeSev r.cause) (errOf r)) :=
    (State.raiseSev_eq ..).trans (if_neg fun h => absurd (hsev.symm.trans h) (by decide))
  refine ⟨_, congrArg Host.Outcome.next hraise, ?_⟩
  rw [State.prov_arrive]
  exact s.numbered_pauseReq hsev hp hst

/-! ## FATAL -/

/-- A log entry, or one that waits for the cartridge, changes neither the queues nor what holds the alert. -/
theorem State.logErr_errs (s : State) (r : ErrRec) : (s.logErr r).errs.queues = s.errs.queues ∧ (s.logErr r).errs.held = s.errs.held := by
  unfold State.logErr
  split
  · split
    · exact ⟨rfl, rfl⟩
    · exact ⟨rfl, rfl⟩
  · exact ⟨rfl, rfl⟩

/-- The registers once FATAL is latched with a cause, unless it was before. -/
def State.latched (s : State) (cause : Nat) : State :=
  if s.fld 0 TST_STATUS_FATAL = 0 then (s.setFld 0 TST_STATUS_FATAL 1).setFld 0 TST_STATUS_FATAL_CAUSE cause else s

/-- The alert is held. -/
def State.heldLow (s : State) : State := { s with errs := { s.errs with held := true } }

theorem State.fatal_eq (s : State) (r : ErrRec) : s.fatal r = ((s.latched r.cause).heldLow.logErr r).alertView := rfl

theorem State.latched_errs (s : State) (cause : Nat) : (s.latched cause).errs = s.errs := by
  unfold State.latched
  split
  · rw [State.setFld_errs, State.setFld_errs]
  · rfl

/-- FATAL and its cause are those that were latched. -/
theorem State.latched_fld (s : State) {cause : Nat} (h0 : s.fld 0 TST_STATUS_FATAL = 0) (hc : cause < 2 ^ 16) :
    (s.latched cause).fld 0 TST_STATUS_FATAL = 1 ∧ (s.latched cause).fld 0 TST_STATUS_FATAL_CAUSE = cause := by
  unfold State.latched
  rw [if_pos h0]
  constructor
  · rw [State.fld_setFld_bits _ _ _ (by decide), State.fld_setFld_self _ _ _ _ (by decide)]
    rfl
  · rw [State.fld_setFld_self _ _ _ _ (by decide)]
    exact Nat.mod_eq_of_lt hc

/-- What FATAL does after the latch changes, of the status, the alert alone. -/
theorem State.fld_fatal (s : State) (r : ErrRec) {g : Fld}
    (hg : g.reg = TST_STATUS_ALERT.reg ∧ TST_STATUS_ALERT.lo + TST_STATUS_ALERT.width ≤ 64 ∧
      (TST_STATUS_ALERT.lo + TST_STATUS_ALERT.width ≤ g.lo ∨ g.lo + g.width ≤ TST_STATUS_ALERT.lo)) : (s.fatal r).fld 0 g = (s.latched r.cause).fld 0 g := by
  rw [State.fatal_eq, State.alertView, State.fld_setFld_bits _ _ _ hg, State.fld_congr (State.logErr_regs ..)]
  exact State.fld_congr rfl 0 g

/-- The first FATAL record is latched with its cause and asserts the alert. -/
theorem State.fatal_latches (s : State) (r : ErrRec) (h0 : s.fld 0 TST_STATUS_FATAL = 0) (hc : r.cause < 2 ^ 16) :
    (s.fatal r).fld 0 TST_STATUS_FATAL = 1 ∧ (s.fatal r).fld 0 TST_STATUS_FATAL_CAUSE = r.cause ∧ (s.fatal r).fld 0 TST_STATUS_ALERT = 1 ∧
      (s.fatal r).errs.queues = s.errs.queues := by
  obtain ⟨hfatal, hcause⟩ := s.latched_fld h0 hc
  obtain ⟨hqueues, hheld⟩ := State.logErr_errs (s.latched r.cause).heldLow r
  refine ⟨(s.fld_fatal r (by decide)).trans hfatal, (s.fld_fatal r (by decide)).trans hcause, ?_, ?_⟩
  · rw [State.fatal_eq, State.fld_alertView_alert, hheld]
    simp [b01, State.heldLow]
  · rw [State.fatal_eq, State.alertView_errs, hqueues]
    show (s.latched r.cause).errs.queues = _
    rw [State.latched_errs]

/-- Where no province is named, the registers stay. -/
theorem State.numbered_fld (s : State) (sev : Nat) (g : Fld) : (s.numbered sev 0).fld 0 g = s.fld 0 g := by
  unfold State.numbered
  rw [if_neg (fun h => h.2 rfl)]
  exact State.fld_congr rfl 0 g

theorem execFatal_latches (s : State) (cause die : Nat) (hsev : causeSev cause = 3) (h0 : s.fld 0 TST_STATUS_FATAL = 0) (hc : cause < 2 ^ 16) :
    ∃ t, exec (.fatal cause die) s = .next t ∧ t.fld 0 TST_STATUS_FATAL = 1 ∧ t.fld 0 TST_STATUS_FATAL_CAUSE = cause ∧ t.fld 0 TST_STATUS_ALERT = 1 ∧
      t.errs.queues = s.errs.queues ∧ t.mem = s.mem := by
  have hraise : s.raise { cause := cause, die := die } = (s.numbered (causeSev cause) 0).fatal (s.stampRec (causeSev cause) { cause := cause, die := die }) :=
    (State.raiseSev_eq ..).trans (if_pos hsev)
  obtain ⟨hfatal, hcause, halert, hqueues⟩ := State.fatal_latches (s.numbered (causeSev cause) 0) (s.stampRec (causeSev cause) { cause := cause, die := die })
    ((s.numbered_fld _ _).trans h0) hc
  refine ⟨_, (if_pos hsev).trans (congrArg Host.Outcome.next hraise), hfatal, hcause, halert, ?_, ?_⟩
  · rw [hqueues, State.numbered_errs]
  · rw [State.fatal_mem, State.numbered_mem]

/-! ## Lost records, the end of a pulse, the head of the queues -/

/-- Lost records are reported unless a report went out within the last second. -/
theorem execRecordsLost_raises (s : State) (hlost : s.errs.lost ≠ 0) (hat : ∀ t ∈ s.errs.lostAt, t + 1000000000 ≤ s.frameTime) :
    exec .recordsLost s = .next ({ s with errs := { s.errs with lost := 0, lostAt := some s.frameTime } }.raise
      { cause := RECORDS_LOST_C, die := 12, aux := s.errs.lost }) := by
  refine if_neg ?_
  rintro (h | h)
  · exact hlost h
  · obtain ⟨t, ht, hlt⟩ := (Option.any_eq_true ..).mp h
    exact absurd (hat t ht) (by simpa using hlt)

theorem execRecordsLost_waits (s : State) (hat : ∃ t ∈ s.errs.lostAt, s.frameTime < t + 1000000000) : exec .recordsLost s = .next s := by
  obtain ⟨t, ht, hlt⟩ := hat
  exact if_pos (Or.inr ((Option.any_eq_true ..).mpr ⟨t, ht, by simpa using hlt⟩))

theorem execAlertPulseEnd_view (s : State) :
    ∃ t, exec .alertPulseEnd s = .next t ∧ t.fld 0 TST_STATUS_ALERT = (if s.errs.held || s.errs.heldClk then 1 else 0) ∧ t.mem = s.mem := by
  refine ⟨_, rfl, ?_, ?_⟩
  · rw [State.fld_alertView_alert]
    exact congrArg b01 (congrArg (· || s.errs.heldClk) (Bool.false_or _))
  · rw [State.alertView_mem]

/-- The steward takes the head: it leaves its queue, is judged, logged where it is one to be logged, and reported. -/
theorem execErrorRecordHandle_head {u : State} {k march : Nat} {h g : ErrRec} {x : State × Bool} (hsteward : s.stw.restarting = false) (hfatal : s.fld 0 TST_STATUS_FATAL = 0)
    (hhead : s.headRec = some (k, h)) (hu : u = { s with errs := { s.errs with queues := Sparse.set [] s.errs.queues k ((Sparse.get [] s.errs.queues k).drop 1) } })
    (hx : x = (u.setFld 0 TST_STATUS_QFULL (b01 u.anyFull)).judge h march) (hg : g = { h with lasting := h.lasting || x.2 }) :
    exec (.errorRecordHandle march) s = .next ((if g.logged = true then x.1.logErr g else x.1).tspNote (.error g)) := by
  subst hg hx hu
  show execErrorRecordHandle march s = _
  rw [execErrorRecordHandle, if_neg (by simp [hsteward, hfatal]), hhead]

/-- Settles O59, a clause by each lemma above. -/
theorem errorRecordsAreQueuedAndHandled : Obligations.ErrorRecordsAreQueuedAndHandled := by
  unfold Obligations.ErrorRecordsAreQueuedAndHandled
  intro s u r k cause die march h g x
  exact ⟨execErrorRecordArrive_empty s r, execErrorRecordArrive_contained s r, execFatal_latches s cause die,
    fun hlost => ⟨execRecordsLost_raises s hlost, execRecordsLost_waits s⟩, execAlertPulseEnd_view s,
    fun hsteward hfatal hhead hu hx hg => execErrorRecordHandle_head hsteward hfatal hhead hu hx hg⟩

end Sys2Proof.Machine
end

section
/-! AVS_ACK_TIMEOUT at a full count (O60) (R645). -/
namespace Sys2Proof.Machine

/-- A voltage waits for its acknowledgement, and AVS_NACK, of 16 bits, stands at its greatest value. -/
def fullNackState : State :=
  ({ State.reset with pwr := { State.reset.pwr with avs := true } } : State).setFld 0 PWR_RAIL_AVS_NACK 65535

/-- A full AVS_NACK saturates: the next timeout leaves it as it is. -/
theorem fullNackState_avsAckTimeout :
    (match exec .avsAckTimeout fullNackState with | .next t => t.fld 0 PWR_RAIL_AVS_NACK | _ => 0) = 65535 := by
  decide +kernel

/-- Refutes O60: AVS_NACK counts up to 65,535 and stays there (`State.incFld` saturates), where the statement has it begin again at 0. -/
theorem not_powerAndThrottling : ¬ Obligations.PowerAndThrottling := by
  unfold Obligations.PowerAndThrottling
  intro h
  obtain ⟨-, havs, -⟩ := h fullNackState fullNackState 0 0 0 0 [] [] [] [] (0, 0)
  obtain ⟨-, -, t, hexec, -, -, hnack, -⟩ := havs (by decide +kernel)
  have hfull := fullNackState_avsAckTimeout
  rw [hexec] at hfull
  have hwrap : (fullNackState.fld 0 PWR_RAIL_AVS_NACK + 1) % 2 ^ 16 = 0 := by decide +kernel
  exact absurd (hfull.symm.trans (hnack.trans hwrap)) (by decide)

end Sys2Proof.Machine
end
